-- ==== Sys2Proof/Word.lean ====
section
/-! DEFINITION. The byte type and the few plainest word notions of the model.

Everything computed from bytes (byte order, sign, saturation, fixed point) stands in Sys2Proof/Machine/Fixed.lean. -/

namespace Sys2Proof

/-- One byte, the unit of every frame, record, image and memory of the device (R7). -/
abbrev Byte := BitVec 8

/-- A byte string (OCTETS, STRING and DOMAIN values, frames, records). -/
abbrev Bytes := List Byte

end Sys2Proof
end

