-- ==== Sys2Proof/Syntax.lean ====
section
/-! DEFINITION. The commands of the KX-6432: one constructor of `Instr` per row of the opcode table, with the operands that
the environment supplies, and the structures those operands have. The table gives its rows no bits. Where an operand `role`
stands, it is the role of the writing session: 0 OPERATOR, 1 SERVICE, 2 METROLOGY, 3 VENDOR (R112). -/

namespace Sys2Proof

/-- A 64-bit word as read: its data, its word address, and the detection code stored beside it (R77). -/
structure WordRead where
  data : Nat := 0
  addr : Nat := 0
  code : Nat := 0
  deriving DecidableEq, Repr, Inhabited

/-- An arithmetic step of a loop cell (R75). -/
inductive ArithOp
  | add | sub | mul
  deriving DecidableEq, Repr, Inhabited

/-- A 4 KiB granule that is a copy of NOR content (R85), by its number in the image, in the firmware that holds the kernel
constants and the loop-cell code, or in the lane microcode. -/
inductive Granule
  | image (n : Nat)
  | constants (n : Nat)
  | cellCode (cell n : Nat)
  | laneCode (n : Nat)
  deriving DecidableEq, Repr, Inhabited

/-- What the guard meets while a slot runs (R67, R75 to R79). Each carries what the check compares; whether it is an error is
for the model to say. -/
inductive SlotSeen
  /-- nothing -/
  | clean
  /-- an arithmetic step: the residues carried by its operands, the known adjustment of rounding or saturation, and the
  result produced -/
  | arith (op : ArithOp) (ra rb : Nat) (adjust produced : Int)
  /-- a comparison, selection, logical or packing step: its result on each of the two paths -/
  | paths (first second : Int)
  /-- the slot reached DECLARED -/
  | excess
  /-- a word of the bank being written -/
  | working (w : WordRead)
  /-- a word of the committed bank, or of the bank selectors -/
  | committed (w : WordRead)
  /-- the snapshot word of an input binding, and the same word at its source -/
  | snapshot (input : Nat) (w src : WordRead)
  /-- a word of the slot's record, bindings, constants or code -/
  | table (g : Granule) (w : WordRead)
  deriving DecidableEq, Repr, Inhabited

/-- How a run of a slot went: what the guard met, what it met in the re-run, whether the re-run missed the deadline (R82), and
the time stamp of the completion token, in ticks of 2.5 ns from the boundary token (R28, R44). -/
structure SlotReport where
  seen : SlotSeen := .clean
  again : SlotSeen := .clean
  late : Bool := false
  stamp : Nat := 0
  deriving DecidableEq, Repr, Inhabited

/-- What a word that is read belongs to (R78, R79). -/
inductive ScrubHit
  /-- no class of R79: a buffer or descriptor -/
  | other
  /-- class 3: committed state or selector of a slot -/
  | slotState (slot : Nat)
  /-- class 5: a word of a granule -/
  | granule (g : Granule)
  /-- class 6: a value in force -/
  | object (num sub : Nat)
  /-- class 7: a derived or installed key -/
  | key (num : Nat)
  /-- class 9: data or code of the management cluster, on a core -/
  | management (core : Nat)
  deriving DecidableEq, Repr, Inhabited

/-- The frame counters of an active unit as its standby unit adopts them (R32, R45): the counters of R31, and the numbers of
the minor frame in its major frame and of the micro-frame in its minor frame. -/
structure FrameCounts where
  micro : Nat
  minor : Nat
  major : Nat
  tick : Nat
  k : Nat
  m : Nat
  deriving DecidableEq, Repr, Inhabited

/-- A 66-bit block of a lane before scrambling: its sync header, 0b01 for data and 0b10 for control, and the eight payload
bytes; the first of a control block is its type (R113, R116). -/
structure LineBlock where
  sync : Nat
  payload : Bytes
  deriving DecidableEq, Repr, Inhabited

/-- A lane frame as received: the header fields of the start block, the payload of the data blocks after it, and the first
block that is no data block, which ends the frame (R116 to R118). -/
structure Frame where
  kind : Nat
  ver : Nat
  seq : Nat
  words : Nat
  hcrc : Nat
  body : Bytes
  stop : LineBlock
  deriving DecidableEq, Repr, Inhabited

/-- What the environment measures at a boundary token. -/
structure BoundaryIn where
  /-- the replica measurement of the minor frame that ends, in ps (R26) -/
  step : Nat := 0
  /-- REFCLK measured out of tolerance over the minor frame that ends (R27) -/
  refOut : Bool := false
  /-- junction temperatures of the four supervised dies in 0.1 °C, for a housekeeping round (R262) -/
  dies : List Int := []
  /-- VLOAD of the four supply groups in mV (R272) -/
  vload : List Nat := []
  /-- junction temperature in °C and channel-to-case ΔT in K of each load channel (R275, R279) -/
  channels : List (Int × Int) := []
  /-- the eight supply readings in mV, and the supplies out of range in the major frame that ends (R573) -/
  supply : List Nat := []
  supplyOut : Nat := 0
  /-- words read at this token or since the last one by the object store, the management cluster or the DMA engine, with what they
  belong to (R77, R79) -/
  reads : List (WordRead × ScrubHit) := []
  deriving DecidableEq, Repr, Inhabited

/-- A client of Malpen: bus 0–3 with a node address, or bus 4 with a source address and port as one number (R379). -/
structure Client where
  bus : Nat
  addr : Nat
  deriving DecidableEq, Repr, Inhabited

/-- A Malpen PDU of a client: TAG, OBJ with its reserved bits, SUB, and the LEN data bytes (R372). -/
structure PduIn where
  c : Client
  tag : Nat
  obj : Nat
  sub : Nat
  /-- the bytes after the header, up to LEN of them -/
  data : Bytes
  /-- LEN as the header gives it, and the bytes of the frame or datagram beyond LEN (R372) -/
  len : Nat := data.length
  pad : Bytes := []
  /-- the 29-bit identifier of the frame; none for a base or a remote frame, and over UDP (R362, R368) -/
  id : Option Nat := none
  /-- the object store's word of the value, as this access reads it; none where it reads none (R77, R86) -/
  word : Option WordRead := none
  /-- the firmware holds all 64 entries of the bus's receive queue as the frame arrives (R367) -/
  full : Bool := false
  deriving DecidableEq, Repr, Inhabited

/-- A monitor frame as received: CMD, SEQ, LEN, payload and CRC (R543). -/
structure MonIn where
  cmd : Nat
  seq : Nat
  len : Nat
  payload : Bytes
  crc : Nat
  /-- the object store's word of the value, as this access reads it; none where it reads none (R77, R86) -/
  word : Option WordRead := none
  deriving DecidableEq, Repr, Inhabited

/-- The limits a vehicle sends, in the units of CON.REQ (R295, R298, R305). A target or a minimum current that the message lacks is none; `dynamic` is the
control mode that its service selection names, false for Scheduled (R287). -/
structure VehLimits where
  vMax : Nat := 0
  iMax : Nat := 0
  pMax : Nat := 0
  iDis : Nat := 0
  pDis : Nat := 0
  iTarget : Option Nat := none
  pTarget : Option Nat := none
  iMin : Option Nat := none
  eTarget : Nat := 0
  depart : Nat := 0
  soc : Nat := 0
  minSoc : Nat := 0
  dynamic : Bool := false
  deriving DecidableEq, Repr, Inhabited

/-- A TLS 1.3 handshake as it went (R289): what the vehicle's part of it is worth, the suite and the key share it settled on, the
certificate chain that the vehicle presented, empty for none, and the transcript that the server signs. -/
structure TlsHello where
  ok : Bool
  suite : Nat
  grp : Nat
  chain : Bytes
  transcript : Bytes
  deriving DecidableEq, Repr, Inhabited

/-- The line of a bleed: the busbar of a group, or the line of a node (R233). -/
inductive BleedLine
  | bus (s g : Nat)
  | node (n : Nat)
  deriving DecidableEq, Repr, Inhabited

/-- A DMA descriptor as posted: the fields of its 32 bytes but for STATUS and CAUSE, which the engine writes (R423). `bad` says
that one of its words failed its detection code. -/
structure Desc where
  op : Nat
  /-- FLAGS: bit 0 FENCE, the others reserved -/
  flags : Nat
  len : Nat
  src : Nat
  dst : Nat
  p0 : Nat
  p1 : Nat
  tag : Nat
  /-- the reserved word at 0x1C -/
  rsv : Nat
  bad : Bool
  deriving DecidableEq, Repr, Inhabited

/-- A component of a bundle: kind, version, library edition, bytes with its signature block (R512, R513). -/
structure Comp where
  kind : Nat
  version : Nat
  library : Nat
  bytes : Bytes
  deriving DecidableEq, Repr, Inhabited

/-- A bundle of a NOR region: its security version and components (R511, R512). -/
structure Bundle where
  svn : Nat
  comps : List Comp
  deriving DecidableEq, Repr, Inhabited

/-- What a start finds outside the state of the block (R494, R499). -/
structure StartIn where
  /-- VKEEP has held through the outage -/
  keepOk : Bool := true
  /-- UNIT_SEL (R449) -/
  unitSel : Bool := false
  /-- length of the outage in ms, and the RTC's civil time in ns (R338, R504) -/
  outageMs : Nat := 0
  rtc : Nat := 0
  /-- a bundle programmed into RUN from outside, in FACTORY, before this start (R511) -/
  factory : Option Bundle := none
  /-- KEY.PUB slots programmed with it: slot, USAGE, PUB (R486) -/
  pubs : List (Nat × Nat × Bytes) := []
  /-- MET_SEAL as the start finds it (R335, R522) -/
  metSeal : Bool := false
  /-- the root of the life-cycle state is readable (R490) -/
  rootOk : Bool := true
  /-- the NOR copies of installed keys that fail their check, by object number (R490) -/
  norBad : List Nat := []
  /-- the NOR copies of other persistent objects that fail their check, by object number (R100) -/
  objBad : List Nat := []
  /-- the check values that the legal core computes over its loaded code and over the reloaded code, where the code was not loaded as it
  stands in its image; none where it was (R334) -/
  legalValue : Option Nat := none
  legalAgain : Option Nat := none
  /-- what the eMMC's table block shows: 0 none, 1 own serial, 2 another; capacity in MiB (R434, R438) -/
  emmc : Nat := 0
  emmcMiB : Nat := 0
  /-- its CID, and the pages that fail their CRC: partition, PSEQ (R432, R438) -/
  emmcCid : Bytes := []
  badPages : List (Nat × Nat) := []
  /-- the partitions of which a page write without an answer went through (R437) -/
  pagesDone : List Nat := []
  /-- ms from t0 at which the boot, the legal core and the reload were done (R499, R508) -/
  bootMs : Nat := 0
  legalMs : Nat := 0
  reloadMs : Nat := 0
  /-- NOR copies of RUN, STAGE or KEEP could not be made (R522, R525) -/
  norFail : Bool := false
  /-- VLOAD of the four supply groups at t0 in mV (R565) -/
  vload : List Nat := []
  /-- TEST_EN at the release of internal reset (R563, R564) -/
  testEn : Bool := false
  deriving DecidableEq, Repr, Inhabited

/-- What ends a datagram: its MAC, empty where it has none (R380), and the object store's word of the value that its PDU reads, as that
access finds it; none where it reads none (R77, R86). -/
structure UdpEnd where
  mac : Bytes
  word : Option WordRead := none
  deriving DecidableEq, Repr, Inhabited

/-- Who asks over UDP for the device's identity: its address, and the TAG of its request (R380). -/
structure Asker where
  addr : Nat
  tag : Nat
  deriving DecidableEq, Repr, Inhabited

/-- How a frame comes in from a field bus: whether the firmware still holds the whole queue or the node's current buffer (R367), the
identifier of an extended frame, none for any other frame (R362, R368), and the address in the ASSIGN that a unit in listen-only mode
hears after an IDENT (R366). -/
structure CanIn where
  held : Bool := false
  id : Option Nat
  assign : Nat := 0
  deriving DecidableEq, Repr, Inhabited

/-- How the powerline lies idle before a frame: since when, in 100 ns from BP start, and the access slots since the backoff count was
drawn (R404). -/
structure Idle where
  since : Nat
  slots : Nat
  deriving DecidableEq, Repr, Inhabited

/-- The commands: one constructor per row of spec/opcode_table.json. -/
inductive Instr where
  /-- BOUNDARY_TOKEN (R36). -/
  | boundaryToken (x : BoundaryIn)
  /-- SAMPLE_TOKEN (R40). -/
  | sampleToken
  /-- LAUNCH_TOKEN (R41). -/
  | launchToken
  /-- MINOR_REFERENCE_TOKEN (R371). -/
  | minorReferenceToken
  /-- REF_LOSS (R27). -/
  | refLoss
  /-- LANE_REFERENCE_LOSS (R27). -/
  | laneReferenceLoss
  /-- REF_LOSS_CLEAR (R27). -/
  | refLossClear (role : Nat)
  /-- TIME_NOW_WRITE (R46). -/
  | timeNowWrite (role value : Nat)
  /-- TIME_ADJUST_WRITE (R46). -/
  | timeAdjustWrite (role : Nat) (offset : Int)
  /-- PI (R155). -/
  | piKernel (i : Nat) (r : SlotReport)
  /-- PID (R155). -/
  | pidKernel (i : Nat) (r : SlotReport)
  /-- KERNEL_2P2Z (R163). -/
  | kernel2p2z (i : Nat) (r : SlotReport)
  /-- KERNEL_3P3Z (R163). -/
  | kernel3p3z (i : Nat) (r : SlotReport)
  /-- MINSEL (R157). -/
  | minselKernel (i : Nat) (r : SlotReport)
  /-- RAMP (R159). -/
  | rampKernel (i : Nat) (r : SlotReport)
  /-- LIMIT (R158). -/
  | limitKernel (i : Nat) (r : SlotReport)
  /-- MODEL_PHASE (R184). -/
  | modelPhase (i : Nat) (r : SlotReport)
  /-- BALANCE (R165). -/
  | balanceKernel (i : Nat) (r : SlotReport)
  /-- PACK (R166). -/
  | packKernel (i : Nat) (r : SlotReport)
  /-- DIODE_EMU (R175). -/
  | diodeEmu (i : Nat) (r : SlotReport)
  /-- SUM_CHECK (R189). -/
  | sumCheck (i : Nat) (r : SlotReport)
  /-- MODEL_ADAPT (R187). -/
  | modelAdapt (i : Nat) (r : SlotReport)
  /-- SHED (R176). -/
  | shedKernel (i : Nat) (r : SlotReport)
  /-- I2T (R173). -/
  | i2tKernel (i : Nat) (r : SlotReport)
  /-- ENERGY_BUDGET (R235). -/
  | energyBudget (i : Nat) (r : SlotReport)
  /-- STAGE_SEQUENCER (R242). -/
  | stageSequencer (i : Nat) (r : SlotReport)
  /-- NODE_SEQUENCER (R244). -/
  | nodeSequencer (i : Nat) (r : SlotReport)
  /-- THERM3 (R256). -/
  | therm3 (i : Nat) (r : SlotReport)
  /-- ALLOC (R214). -/
  | allocKernel (i : Nat) (r : SlotReport)
  /-- ALLOC_FAST (R222). -/
  | allocFast (i : Nat) (r : SlotReport)
  /-- SPILL (R216). -/
  | spillKernel (i : Nat) (r : SlotReport)
  /-- PROFILE_CLOSE (R210). -/
  | profileClose (i : Nat) (r : SlotReport)
  /-- OVERRUN (R43). -/
  | slotOverrun (cell sect : Nat)
  /-- LAUNCH_OVERRUN_LIMIT (R69). -/
  | launchOverrunLimit (cell : Nat)
  /-- SCRUB_READ (R78). -/
  | scrubRead (w : WordRead) (hit : ScrubHit)
  /-- GRANULE_RELOAD (R85). -/
  | granuleReload (g : Granule) (data : Bytes)
  /-- KEY_REDERIVE (R87). -/
  | keyRederive (num addr : Nat) (norOk : Bool) (parents : List Bool)
  /-- TLS_KEY_FETCH (R87). -/
  | tlsKeyFetch (n addr : Nat)
  /-- BILL_RECALC (R88): the recomputation of a register completes; with `done` false, it starts. -/
  | billRecalc (m sub addr : Nat) (lost : List Nat) (done : Bool)
  /-- MGMT_KICK (R497). -/
  | mgmtKick (core : Nat)
  /-- MGMT_RESTART (R497). -/
  | mgmtRestart
  /-- READ (R374). -/
  | readObj (p : PduIn)
  /-- WRITE (R374). -/
  | writeObj (p : PduIn)
  /-- SEG_READ (R375). -/
  | segRead (p : PduIn)
  /-- SEG_WRITE (R375). -/
  | segWrite (p : PduIn)
  /-- BLK_READ (R375). -/
  | blkRead (p : PduIn)
  /-- BLK_WRITE (R375). -/
  | blkWrite (p : PduIn)
  /-- DATA (R375). -/
  | dataPdu (p : PduIn)
  /-- ACK (R375). -/
  | ackPdu (p : PduIn)
  /-- DESCRIBE (R373). -/
  | describeObj (p : PduIn)
  /-- ABORT (R378). -/
  | abortPdu (p : PduIn)
  /-- OPEN (R379). -/
  | openSession (p : PduIn)
  /-- PROVE (R379). -/
  | proveSession (p : PduIn)
  /-- CLOSE (R379). -/
  | closeSession (p : PduIn)
  /-- UDP_DATAGRAM (R380). -/
  | udpDatagram (src : Nat) (dst : Bytes) (port ses counter : Nat) (pdu : Bytes) (mac : UdpEnd)
  /-- UDP_DISCOVERY (R380). -/
  | udpDiscovery (src : Asker) (dst : Bytes) (port : Nat)
  /-- TRANSFER_TIMEOUT (R377). -/
  | transferTimeout (c : Client) (tag : Nat)
  /-- SESSION_IDLE_TIMEOUT (R379). -/
  | sessionIdleTimeout (c : Client)
  /-- OBJECT_WRITE (R96). -/
  | objectWrite (role num sub : Nat) (value : Bytes)
  /-- FEATURE_ACCEPTED_WRITE (R107). -/
  | featureAcceptedWrite (c : Client) (value : Nat)
  /-- CTRL_LEVEL_WRITE (R102). -/
  | ctrlLevelWrite (role group value : Nat)
  /-- STAGE_UP (R122). -/
  | stageUp (s : Nat) (f : Frame)
  /-- DISP_UP (R128). -/
  | dispUp (di : Nat) (f : Frame)
  /-- METRO (R131). -/
  | metroRecord (c number : Nat) (body : Bytes)
  /-- METRO_GAP (R131). -/
  | metroGap (c number : Nat)
  /-- VETH (R132). -/
  | vethRecord (c offset : Nat) (last : Bool) (bytes : Bytes)
  /-- SC_BLOCK (R170). -/
  | scBlock (s p : Nat) (sample : Int)
  /-- SC_CLEAR_WRITE (R172). -/
  | scClearWrite (role s mask : Nat)
  /-- BLOCK_LOCK (R138). -/
  | blockLock (l : Nat) (headers : List Nat)
  /-- BLOCK_LOCK_TIMEOUT (R138). -/
  | blockLockTimeout (l : Nat)
  /-- ECHO (R139). -/
  | echoMarker (l tag roundTrip : Nat)
  /-- RANGING_TIMEOUT (R139). -/
  | rangingTimeout (l : Nat)
  /-- IDENT_RSP (R140). -/
  | identRsp (l : Nat) (f : Frame)
  /-- IDENT_RSP_TIMEOUT (R138). -/
  | identRspTimeout (l : Nat)
  /-- LINKUP_RETRY (R138). -/
  | linkupRetry (l : Nat)
  /-- LANE_DOWN (R142). -/
  | laneDown (l : Nat) (times : List Nat)
  /-- SLEEP_MARKER (R143). -/
  | sleepMarker (l : Nat)
  /-- TIMING_MARKER (R144). -/
  | timingMarker (l value : Nat) (arrival : Int) (active : Option FrameCounts)
  /-- PAIR_FRAME (R145). -/
  | pairFrame (l : Nat) (f : Frame) (arrival : Nat)
  /-- PAIR_FRAME_SENT (R464). -/
  | pairFrameSent
  /-- STG_LOST (R197). -/
  | stgLost (s : Nat)
  /-- LOST_END (R197). -/
  | lostEnd (s : Nat)
  /-- SUP_CMD_WRITE (R194). -/
  | supCmdWrite (role s sub value : Nat)
  /-- OUT_SHORT (R198). -/
  | outShort (s g : Nat)
  /-- SHORT_RETRY (R200). -/
  | shortRetry (s g : Nat)
  /-- RETRY_USED_CLEAR (R200). -/
  | retryUsedClear (s g : Nat)
  /-- SHORT_CLEAR_WRITE (R200). -/
  | shortClearWrite (role s mask : Nat)
  /-- MATRIX_TABLE_WRITE (R218). -/
  | matrixTableWrite (role k : Nat) (table : Bytes)
  /-- CLOSE_REFUSED (R244). -/
  | closeRefused (n ctc : Nat)
  /-- CTC_FAULT (R241). -/
  | ctcFault (n ctc : Nat)
  /-- DISCH_FAIL (R246). -/
  | dischFail (c : Nat)
  /-- BLEED_TIME_EXPIRY (R233). -/
  | bleedTimeExpiry (line : BleedLine)
  /-- CON_SEQ_CLEAR_WRITE (R244). -/
  | conSeqClearWrite (role c value : Nat)
  /-- STG_SEQ_CLEAR_WRITE (R242). -/
  | stgSeqClearWrite (role s mask : Nat)
  /-- TIE_CLEAR_WRITE (R250). -/
  | tieClearWrite (role mask : Nat)
  /-- COOL_FLOW_LOW (R254). -/
  | coolFlowLow (c : Nat)
  /-- CON_THERM_CLEAR_WRITE (R260). -/
  | conThermClearWrite (role c mask : Nat)
  /-- STG_THERM_CLEAR_WRITE (R260). -/
  | stgThermClearWrite (role s mask : Nat)
  /-- DIE_THERM_CLEAR_WRITE (R260). -/
  | dieThermClearWrite (role mask : Nat)
  /-- LCH_CMD_WRITE (R273). -/
  | lchCmdWrite (role n value : Nat)
  /-- LCH_SHORT (R275). -/
  | lchShort (n : Nat)
  /-- HELD_SHORT (R275). -/
  | heldShort (n : Nat)
  /-- LCH_OVERLOAD (R275). -/
  | lchOverload (n : Nat)
  /-- LCH_THERMAL (R275). -/
  | lchThermal (n : Nat)
  /-- LCH_THERM_LATCH (R279). -/
  | lchThermLatch (n : Nat)
  /-- LCH_OPEN_LOAD (R275). -/
  | lchOpenLoad (n : Nat)
  /-- LCH_CLAMP (R275). -/
  | lchClamp (n : Nat)
  /-- LCH_RETRY (R277). -/
  | lchRetry (n : Nat)
  /-- RETRY_COUNT_RESET (R277). -/
  | retryCountReset (n : Nat)
  /-- INRUSH_WINDOW_END (R278). -/
  | inrushWindowEnd (n : Nat) (atLimit : Bool)
  /-- LCH_VLOAD (R272). -/
  | lchVload (g mv : Nat)
  /-- VLOAD_RETURN (R272). -/
  | vloadReturn (g mv : Nat)
  /-- LOCK_CLEAR_WRITE (R277). -/
  | lockClearWrite (role n : Nat)
  /-- LATCH_CLEAR_WRITE (R279). -/
  | latchClearWrite (role n : Nat)
  /-- FS_HOLD_EXPIRY (R282). -/
  | fsHoldExpiry
  /-- LINK_STATE (R292). -/
  | linkState (c : Nat) (frame : Bytes)
  /-- LINK_STATE_TIMEOUT (R292). -/
  | linkStateTimeout (c : Nat)
  /-- SECC_DISCOVERY_REQUEST (R288). -/
  | seccDiscoveryRequest (c : Nat) (tls : Bool)
  /-- SUPPORTED_APP_PROTOCOL (R288). -/
  | supportedAppProtocol (c : Nat) (offers : List (Nat × Nat))
  /-- TLS_HANDSHAKE (R289). -/
  | tlsHandshake (c : Nat) (m : TlsHello)
  /-- SESSION_SETUP (R294). -/
  | sessionSetup (c : Nat) (id evccid : Bytes)
  /-- AUTHORIZATION (R299). -/
  | authorization (c : Nat) (pnc : Bool) (chain emaid : Bytes)
  /-- AUTH_TIMEOUT (R299). -/
  | authTimeout (n : Nat)
  /-- CHARGE_PARAMETER_DISCOVERY (R295). -/
  | chargeParameterDiscovery (c : Nat) (m : VehLimits)
  /-- CABLE_CHECK (R296). -/
  | cableCheck (c : Nat)
  /-- PRECHARGE_REQUEST (R297). -/
  | prechargeRequest (c vTarget : Nat)
  /-- PRECHARGE_TIMEOUT (R297). -/
  | prechargeTimeout (c : Nat)
  /-- POWER_DELIVERY (R297). -/
  | powerDelivery (c : Nat) (start : Bool)
  /-- CHARGE_LOOP (R298). -/
  | chargeLoop (c vTarget : Nat) (m : VehLimits)
  /-- CHARGE_LOOP_TIMEOUT (R298). -/
  | chargeLoopTimeout (c : Nat)
  /-- WELDING_DETECTION (R300). -/
  | weldingDetection (c : Nat)
  /-- SESSION_STOP_REQUEST (R300). -/
  | sessionStopRequest (c : Nat) (pause : Bool)
  /-- RESUME_TIMEOUT (R294). -/
  | resumeTimeout (n : Nat)
  /-- SESSION_RECORD_STORED (R354). -/
  | sessionRecordStored (n : Nat)
  /-- SES_AUTH_WRITE (R299). -/
  | sesAuthWrite (role n value : Nat)
  /-- SES_STOP_WRITE (R300). -/
  | sesStopWrite (role n value : Nat)
  /-- SES_DIR_WRITE (R305). -/
  | sesDirWrite (role n value : Nat)
  /-- SES_KEY_ROLL_WRITE (R302). -/
  | sesKeyRollWrite (role mask : Nat)
  /-- SES_CHAIN_WRITE (R302). -/
  | sesChainWrite (role k : Nat) (chain : Bytes)
  /-- ADC_SAMPLE (R315). -/
  | adcSample (samples : List Int)
  /-- PULSE_MS (R324). -/
  | pulseMs
  /-- MET_PHASE_SEQ (R325). -/
  | metPhaseSeq (k : Nat)
  /-- MET_NEUTRAL (R327). -/
  | metNeutral (k : Nat)
  /-- LEGAL_PARAMETER_WRITE (R314). -/
  | legalParameterWrite (role num sub : Nat) (value : Bytes)
  /-- LEGAL_SETTING_WRITE (R336). -/
  | legalSettingWrite (role num sub : Nat) (value : Bytes)
  /-- BILLING_TICK (R320). -/
  | billingTick
  /-- TARIFF_SAMPLE (R342). -/
  | tariffSample (in1 in0 : Bool)
  /-- LEGAL_CHECK (R334). -/
  | legalCheck (value again tMs : Nat)
  /-- BIL_SEAL (R337). -/
  | bilSeal (asserted : Bool)
  /-- BIL_TAMPER (R337). -/
  | bilTamper (i : Nat) (active : Bool) (ms : Nat)
  /-- STORE_RETRY (R347). -/
  | storeRetry
  /-- PERIOD_CLOSE_WRITE (R344). -/
  | periodCloseWrite (role value : Nat)
  /-- BILLING_RECORD_COMMIT (R469). -/
  | billingRecordCommit (m : Nat)
  /-- SUPPLY_DROP (R495). -/
  | supplyDrop (mask : Nat)
  /-- RST_N_LOW (R495). -/
  | rstNLow
  /-- START (R499). -/
  | startUp (x : StartIn)
  /-- CHARGE_READY (R500). -/
  | chargeReady
  /-- YARD_ASSOC_DEADLINE (R501). -/
  | yardAssocDeadline
  /-- RESTORE_FACTORY_WRITE (R506). -/
  | restoreFactoryWrite (role : Nat) (value : Bytes)
  /-- PUSH_IN (R383). -/
  | pushIn (b node page : Nat) (values : List Nat) (rsv : Nat) (f : CanIn)
  /-- FB_POINT_STALE (R383). -/
  | fbPointStale (n : Nat)
  /-- FB_POINTS_WRITE (R382). -/
  | fbPointsWrite (role : Nat) (table : Bytes)
  /-- DISCOVERY_START_WRITE (R381). -/
  | discoveryStartWrite (role mask : Nat)
  /-- IDENT (R381). -/
  | identFrame (b vendor model addr : Nat) (serial : Bytes) (rsv : Nat) (f : CanIn)
  /-- DISCOVERY_ROUND_END (R381). -/
  | discoveryRoundEnd (b : Nat)
  /-- BUS_ERROR (R365). -/
  | busError (b kind : Nat)
  /-- BUS_OFF_RECOVERY (R365). -/
  | busOffRecovery (b : Nat)
  /-- PL_ZC_EDGE (R396). -/
  | plZcEdge (time : Nat)
  /-- YARD_ZC_LOST (R397). -/
  | yardZcLost
  /-- ZC_BASE_TIMEOUT (R397). -/
  | zcBaseTimeout
  /-- BEACON_PERIOD (R402). -/
  | beaconPeriod
  /-- YARD_DATA_FRAME (R401). -/
  | yardDataFrame (fh : Bytes) (segs : List Bytes) (stop : Nat)
  /-- RECEIPT (R400). -/
  | receiptFrame (fh : Bytes)
  /-- RECEIPT_MISSING (R404). -/
  | receiptMissing (ldst seq : Nat)
  /-- YARD_FRAME_SEND (R404). -/
  | yardFrameSend (start : Nat) (idle : Idle)
  /-- ASSOC_REQ (R408). -/
  | assocReq
  /-- HELLO (R410). -/
  | helloMessage
  /-- NEIGH_REPORT (R410). -/
  | neighReport
  /-- TM_UPDATE (R392). -/
  | tmUpdate
  /-- POINT (R413). -/
  | pointMessage
  /-- ROUTE_COMPUTATION (R411). -/
  | routeComputation
  /-- YARD_NODE_LOST (R412). -/
  | yardNodeLost (i : Nat)
  /-- YARD_POINT_REFRESH (R413). -/
  | yardPointRefresh
  /-- YARD_POINT_STALE (R413). -/
  | yardPointStale (i j : Nat)
  /-- YARD_DRIVER_FAULT (R395). -/
  | yardDriverFault
  /-- DRIVER_RESUME (R395). -/
  | driverResume
  /-- VPLC_LOW (R572). -/
  | vplcLow
  /-- VPLC_RESTORED (R572). -/
  | vplcRestored
  /-- YARD_FORGET_WRITE (R416). -/
  | yardForgetWrite (role addr : Nat)
  /-- NULL (R424). -/
  | nullDesc (r : Nat) (x : Desc)
  /-- COPY (R423). -/
  | copyDesc (r : Nat) (x : Desc)
  /-- DEINTERLEAVE (R426). -/
  | deinterleaveDesc (r : Nat) (x : Desc)
  /-- BITPLANE (R427). -/
  | bitplaneDesc (r : Nat) (x : Desc)
  /-- DESCRIPTOR_COMPLETE (R429). -/
  | descriptorComplete (r : Nat) (err : Bool)
  /-- WRITE_RESPONSE_TIMEOUT (R430). -/
  | writeResponseTimeout (r : Nat)
  /-- RING_STOP_WRITE (R431). -/
  | ringStopWrite (role mask : Nat)
  /-- RING_START_WRITE (R431). -/
  | ringStartWrite (role mask : Nat)
  /-- PAGE_WRITTEN (R437). -/
  | pageWritten (part : Nat)
  /-- PAGE_FLUSH_TIMER (R437). -/
  | pageFlushTimer (part : Nat)
  /-- REC_EMMC_FAIL (R440). -/
  | recEmmcFail
  /-- EMMC_REINIT (R440). -/
  | emmcReinit (ok : Bool)
  /-- REC_WEAR (R432). -/
  | recWear (a b eol : Nat)
  /-- REC_FORMAT_WRITE (R434). -/
  | recFormatWrite (role : Nat)
  /-- REC_TRIGGER_WRITE (R442). -/
  | recTriggerWrite (role mask : Nat)
  /-- CAPTURE_FROZEN (R442). -/
  | captureFrozen (s : Nat)
  /-- REC_DATA_READ (R444). -/
  | recDataRead (k : Nat)
  /-- ELECTION_TIMEOUT (R452). -/
  | electionTimeout
  /-- HB_IN_EDGE (R456). -/
  | hbInEdge (time : Nat)
  /-- HB_OUT_TOGGLE (R456). -/
  | hbOutToggle
  /-- PAIR_TAKEOVER (R460). -/
  | pairTakeover
  /-- PAIR_PATH_FAULT (R458). -/
  | pairPathFault (path : Nat)
  /-- PATH_FAULT_CLEAR (R458). -/
  | pathFaultClear (path : Nat)
  /-- NO_IMAGE_TAKEOVER (R454). -/
  | noImageTakeover
  /-- PAIR_SWITCH_WRITE (R472). -/
  | pairSwitchWrite (role value : Nat)
  /-- SWITCHOVER (R472). -/
  | switchover
  /-- RETURN_HOLDOFF (R473). -/
  | returnHoldoff
  /-- LC_REQ_WRITE (R480). -/
  | lcReqWrite (role sub : Nat) (value : Bytes)
  /-- KEY_ROLL_WRITE (R487). -/
  | keyRollWrite (role value : Nat)
  /-- KEY_INSTALL_WRITE (R484). -/
  | keyInstallWrite (role num : Nat) (key : Bytes)
  /-- KEY_PUB_WRITE (R486). -/
  | keyPubWrite (role k sub : Nat) (value : Bytes)
  /-- KEY_REMASK (R489). -/
  | keyRemask
  /-- UPD_BEGIN_WRITE (R514). -/
  | updBeginWrite (role sub : Nat) (value : Bytes)
  /-- UPD_PIECE_WRITE (R515). -/
  | updPieceWrite (role : Nat) (value : Bytes)
  /-- PACKAGE_VERIFIED (R517). -/
  | packageVerified (storeOk : Bool)
  /-- UPD_STAGED (R518). -/
  | updStaged
  /-- UPD_ACTIVATE_WRITE (R519). -/
  | updActivateWrite (role sub value : Nat)
  /-- QUIET_HANDOVER (R520). -/
  | quietHandover
  /-- UPD_REJECT_WRITE (R525). -/
  | updRejectWrite (role value : Nat)
  /-- UPD_CONFIRMED (R524). -/
  | updConfirmed
  /-- TRIAL_TIMEOUT (R525). -/
  | trialTimeout
  /-- MON_PING (R547). -/
  | monPing (f : MonIn)
  /-- MON_CHALLENGE (R546). -/
  | monChallenge (f : MonIn)
  /-- MON_UNLOCK (R546). -/
  | monUnlock (f : MonIn)
  /-- MON_LOCK (R546). -/
  | monLock (f : MonIn)
  /-- MON_STATUS (R547). -/
  | monStatus (f : MonIn)
  /-- MON_READ (R547). -/
  | monRead (f : MonIn)
  /-- MON_WRITE (R547). -/
  | monWrite (f : MonIn)
  /-- MON_DESCRIBE (R547). -/
  | monDescribe (f : MonIn)
  /-- MON_TRACE (R548). -/
  | monTrace (f : MonIn)
  /-- MON_MEM_READ (R547). -/
  | monMemRead (f : MonIn)
  /-- MON_BREAK (R542). -/
  | monBreak
  /-- MON_IDLE_TIMEOUT (R546). -/
  | monIdleTimeout
  /-- LOCKOUT_END (R546). -/
  | lockoutEnd
  /-- NOR_COPY_WRITTEN (R100). -/
  | norCopyWritten (num sub : Nat)
  /-- UPSTREAM_WAKE (R143). -/
  | upstreamWake (l : Nat)
  /-- VKEEP_LOSS (R503). -/
  | vkeepLoss
  /-- DELTA_T_BELOW_RESTART (R277). -/
  | deltaTBelowRestart (n : Nat)
  /-- CAN_FRAME_TRANSMITTED (R371). -/
  | canFrameTransmitted (b sof : Nat)
  /-- MON_FRAME_GAP_TIMEOUT (R543). -/
  | monFrameGapTimeout
  deriving DecidableEq, Repr

end Sys2Proof
end

