-- ==== Sys2Proof/Config.lean ====
section
/-! DEFINITION. What one device fixes and the spec does not: its identity, what the published standards the spec names by
title compute, and the free values. Every constant is opaque: no proof can see a value of it, so a statement holds for every
value. Log entries 5, 6 and 7. -/

namespace Sys2Proof.Config

/-! ### Identity (log entry 7) -/

/-- SYS.STEPPING (R112). -/
opaque stepping : Bytes

/-- SYS.SERIAL, set at FACTORY (R112). -/
opaque serial : Bytes

/-- VENDOR_ID and MODEL with which the device identifies itself over UDP (R380, R381). -/
opaque vendorId : Nat

opaque modelId : Nat

/-- MAC address of a management port (FB.ETH.04 and .05). -/
opaque mac : Nat → Bytes

/-- The root key of a life-cycle state (R478). -/
opaque root : Nat → Bytes

/-! ### Free values (log entry 6) -/

/-- `random k n`: the n bytes of the k-th draw from the key store's random source. -/
opaque random : Nat → Nat → Bytes

/-- The import and export units of a journaled increment, by LSEC and channel, that fails its check and stands in no page of the
legal partition yet (R88 names no other source). -/
opaque lostIncrement : Nat → Nat → Nat × Nat

/-- The state of a lane's scrambler when it begins to send: lane, micro-frame, blocks sent before (R113). -/
opaque scramblerState : Nat → Nat → Nat → Nat

/-- A byte in the destination range of a bad descriptor, which R430 leaves undefined: draw, address. -/
opaque undefinedByte : Nat → Nat → Byte

/-- The interleaving field of a DATA frame, which the spec leaves to the sender. -/
opaque yardIlv : Nat

/-- The length in 10 µs that a relay window gets per frame carried; the spec gives the proportion only. -/
opaque relayUnit : Nat

/-! ### Published standards the spec names (log entry 5) -/

/-- The vehicle Ethernet frame that carries a message: connector, message, arguments, draw (ISO 15118, TLS, TCP, R286). -/
opaque vehFrame : Nat → Nat → List Nat → Nat → Bytes

/-- What a context holds of its transport after an exchange: message sequence, TCP send and receive state, TLS secrets and record
sequence numbers (R303): context, draw. -/
opaque transport : Nat → Nat → Bytes

/-- The certificates of a chain are within their validity at a civil time in ns. -/
opaque certCurrent : Bytes → Nat → Bool

/-- The public key of the leaf of a certificate chain. -/
opaque leafKey : Bytes → Bytes

/-- A certificate chain verifies up to one of the root certificates. -/
opaque chainVerifies : Bytes → Bytes → Bool

/-- The public point of a private key on P-521. -/
opaque p521Pub : Nat → Bytes

/-- An ecdsa_secp521r1_sha512 signature: private key, message, nonce. -/
opaque p521Sign : Nat → Bytes → Nat → Bytes

/-- The certificate signing request of a private key. -/
opaque csr : Nat → Bytes

/-- AES-128-CCM: key, header, body; the sealed body with its tag. -/
opaque ccmSeal : Bytes → Bytes → Bytes → Bytes

/-- AES-128-CCM: key, header, sealed bytes; none where the tag fails. -/
opaque ccmOpen : Bytes → Bytes → Bytes → Option Bytes

/-- AES-256-GCM: key, nonce, associated data, plaintext; the ciphertext with its tag (R468). -/
opaque gcmSeal : Bytes → Bytes → Bytes → Bytes → Bytes

/-- AES-256-GCM: key, nonce, associated data, ciphertext with tag; none where the tag fails (R468). -/
opaque gcmOpen : Bytes → Bytes → Bytes → Bytes → Option Bytes

/-- AES-CMAC: key, message. -/
opaque cmac : Bytes → Bytes → Bytes

/-- AES key wrap of RFC 3394: key-encryption key, key. -/
opaque keyWrap : Bytes → Bytes → Bytes

/-- The proof a yard node sends in its ASSOC_REQ passes: install key, serial, nonce field. -/
opaque nonceProof : Bytes → Bytes → Bytes → Bool

/-- The parity bits of a codeword where the parity columns of the base matrix are singular: rate code, information bits. -/
opaque ldpcParity : Nat → List Bool → List Bool

/-- The tone map set the receiver chooses for the link from a node, at a beacon period: rate, GI code, six maps (R392). -/
opaque toneMaps : Nat → Nat → Nat × Nat × List Bytes

/-- Entry `n` of the base matrices of the powerline code, rates 1/2, 2/3 and 5/6, row by row; the spec does not list them (R393). -/
opaque ldpcBase : Nat → Nat

/-- The shift value of an entry as YARD.LDPC_BASE shows it: below 200, or 0xFFFF for an empty entry (R393, R416). -/
def ldpcShift (n : Nat) : Nat := if ldpcBase n < 200 then ldpcBase n else 0xFFFF

/-- The 1,152 bytes of YARD.LDPC_BASE (R416). -/
def ldpcBytes : Bytes := (List.range 576).flatMap (fun n => [BitVec.ofNat 8 (ldpcShift n), BitVec.ofNat 8 (ldpcShift n / 256)])

end Sys2Proof.Config
end

