-- ==== Sys2Proof/Machine/Fixed.lean ====
section
/-! DEFINITION. Number formats of spec/00_scope.md R12 and the exact-then-narrow arithmetic that the kernels use:
little-endian bytes, two's complement, saturation, the rounding rules. Integers are exact (`Int`, `Nat`); a result is
narrowed where its rule says so and nowhere else. -/

namespace Sys2Proof.Machine

/-- The magnitude of an integer. -/
def absI (i : Int) : Int := i.natAbs

/-- The little-endian value of a byte string (R7). -/
def leNat : Bytes → Nat
  | [] => 0
  | b :: bs => b.toNat + 256 * leNat bs

/-- The big-endian value of a byte string (digests, R51). -/
def beNat (bs : Bytes) : Nat := leNat bs.reverse

/-- `n` low bytes of a number, little-endian (R7). -/
def natLe : Nat → Nat → Bytes
  | 0, _ => []
  | n + 1, v => BitVec.ofNat 8 v :: natLe n (v / 256)

/-- `n` low bytes of a number, big-endian. -/
def natBe (n v : Nat) : Bytes := (natLe n v).reverse

/-- The bytes of a string literal (key labels are ASCII). -/
def ascii (s : String) : Bytes := s.toList.map (fun c => BitVec.ofNat 8 c.toNat)

/-- A slice of a byte string. -/
def slice (bs : Bytes) (off len : Nat) : Bytes := (bs.drop off).take len

/-- A little-endian field of `len` bytes at offset `off`. -/
def fieldLe (bs : Bytes) (off len : Nat) : Nat := leNat (slice bs off len)

/-- A byte of a byte string, 0 beyond its end. -/
def byteAt (bs : Bytes) (off : Nat) : Nat := (bs.getD off 0).toNat

/-- The bits `hi:lo` of a number. -/
def bitsOf (n hi lo : Nat) : Nat := (n >>> lo) % 2 ^ (hi + 1 - lo)

/-- Bit `i` of a number. -/
def bitOf (n i : Nat) : Bool := n.testBit i

/-- A number with bit `i` set. -/
def setBit (n i : Nat) : Nat := n ||| (1 <<< i)

/-- A number with the bits of `mask` cleared. -/
def clearMask (n mask : Nat) : Nat := n - (n &&& mask)

/-- A number with bit `i` cleared. -/
def clearBit (n i : Nat) : Nat := clearMask n (1 <<< i)

/-- A number with bit `i` set or cleared. -/
def putBit (n i : Nat) (b : Bool) : Nat := if b then setBit n i else clearBit n i

/-- 1 for true (BOOL is 0x00 or 0x01, R12). -/
def boolNat (b : Bool) : Nat := if b then 1 else 0

/-- The two's complement value of the low `w` bits (R12). -/
def toS (w n : Nat) : Int :=
  let m := n % 2 ^ w
  if m < 2 ^ (w - 1) then (m : Int) else (m : Int) - 2 ^ w

/-- The low `w` bits of an integer in two's complement (R12). -/
def ofS (w : Nat) (i : Int) : Nat := (i % (2 ^ w : Int)).toNat

/-- Clamp an integer between two bounds, the lower bound first. -/
def clampI (lo hi x : Int) : Int := if x < lo then lo else if hi < x then hi else x

/-- Saturation to a signed word of `w` bits (R153). -/
def satS (w : Nat) (x : Int) : Int := clampI (-(2 ^ (w - 1))) (2 ^ (w - 1) - 1) x

/-- Saturation of a natural number at `2^w - 1` (counters, R89). -/
def satU (w n : Nat) : Nat := if n < 2 ^ w then n else 2 ^ w - 1

/-- One more, saturating at `2^w - 1`. -/
def incSat (w n : Nat) : Nat := satU w (n + 1)

/-- Saturation of an integer to an unsigned word of `w` bits. -/
def satIU (w : Nat) (x : Int) : Nat := (clampI 0 (2 ^ w - 1) x).toNat

/-- Arithmetic shift right of `k`, rounding half up: floor((x + 2^(k-1)) / 2^k) (R153). -/
def rshR (x : Int) (k : Nat) : Int := if k = 0 then x else (x + 2 ^ (k - 1)) / (2 ^ k : Int)

/-- Arithmetic shift right of `k`, rounding down. -/
def rsh (x : Int) (k : Nat) : Int := x / (2 ^ k : Int)

/-- Division rounding half up of an integer by a positive integer. -/
def divHalfUp (x d : Int) : Int := (2 * x + d) / (2 * d)

/-- One in Q16.16. -/
def q1 : Int := 65536

/-- Integer ceiling of a quotient of naturals. -/
def ceilDiv (a b : Nat) : Nat := (a + b - 1) / b

/-- Number of set bits of a number below `w`. -/
def popCount (w n : Nat) : Nat := ((List.range w).filter (fun i => n.testBit i)).length

/-- The indices below `w` of the set bits, rising. -/
def bitsSet (w n : Nat) : List Nat := (List.range w).filter (fun i => n.testBit i)

/-- The mask with the bits of a list set. -/
def maskOf (l : List Nat) : Nat := l.foldl (fun m i => setBit m i) 0

/-- The sum of a list of integers. -/
def sumI (l : List Int) : Int := l.foldl (· + ·) 0

/-- The integer square root, by fuel-bounded bisection on the bits. -/
def isqrt (n : Nat) : Nat :=
  ((List.range (Nat.log2 n / 2 + 1)).reverse).foldl
    (fun r i => if (r + 2 ^ i) * (r + 2 ^ i) ≤ n then r + 2 ^ i else r) 0

/-- Apply a function to the element at an index; a list stands for one that goes on with default elements. -/
def modAt {α : Type} [Inhabited α] : List α → Nat → (α → α) → List α
  | [], 0, f => [f default]
  | [], n + 1, f => default :: modAt [] n f
  | a :: l, 0, f => f a :: l
  | a :: l, n + 1, f => a :: modAt l n f

/-- Replace the element at an index. -/
def setAt {α : Type} [Inhabited α] (l : List α) (i : Nat) (a : α) : List α := modAt l i (fun _ => a)

/-- The value kept under a key in an association list. -/
def alGet {α : Type} (l : List (Nat × α)) (k : Nat) : Option α := (l.find? (fun p => p.1 == k)).map (·.2)

/-- The association list with a key set, kept in rising key order. -/
def alSet {α : Type} : List (Nat × α) → Nat → α → List (Nat × α)
  | [], k, a => [(k, a)]
  | (j, b) :: l, k, a =>
    if k < j then (k, a) :: (j, b) :: l else if k = j then (k, a) :: l else (j, b) :: alSet l k a

/-- The association list without a key. -/
def alDel {α : Type} (l : List (Nat × α)) (k : Nat) : List (Nat × α) := l.filter (fun p => p.1 != k)

end Sys2Proof.Machine
end

