-- ==== Sys2Proof/Machine/State.lean ====
section
/-! DEFINITION. The state of the KX-6432: every dictionary object in the object store, and beside it every piece of
state the chapters give the engines (timers, queues, latches, kernel states, link states). Plain data throughout.
The default value of a field is its value at reset. -/

namespace Sys2Proof.Machine

/-! ### The object store (spec/05) -/

/-- The value of one object subindex: the raw little-endian number of a fixed-size type (two's complement for signed
types), or the byte string of a STRING, OCTETS or DOMAIN (R12). -/
inductive Val where
  | num (n : Nat)
  | bytes (b : Bytes)
  deriving DecidableEq, Repr, Inhabited

/-- Object values that differ from their default, in rising key order; the key of O:num.sub is 256·num + sub. -/
abbrev Store := List (Nat × Val)

/-- A write or command waiting for its boundary (R95). -/
structure Pend where
  num : Nat
  sub : Nat
  val : Val
  /-- frame level 1–7 (R92) -/
  level : Nat
  /-- a WO command or a W1C clear: acts once, in commit order; otherwise a banked value -/
  cmd : Bool
  /-- the role of the writing session, for commands that depend on it -/
  role : Nat := 0
  deriving DecidableEq, Repr, Inhabited

/-- An output of a control slot in this micro-frame, before the boundary publishes it (R38, R60). -/
structure SlotOut where
  key : Nat
  cell : Nat
  val : Val
  deriving DecidableEq, Repr, Inhabited

/-! ### Time (spec/02) -/

/-- What the PLL of the time keeper follows (R27). -/
inductive ClkSrc | refclk | laneRef | none
  deriving DecidableEq, Repr, Inhabited

structure TimeS where
  src : ClkSrc := .refclk
  /-- the first boundary token after the start has been issued (R32) -/
  begun : Bool := false
  /-- micro-frame length code in force (R29) -/
  code : Nat := 4
  micro : Nat := 0
  minor : Nat := 0
  major : Nat := 0
  tick : Nat := 0
  /-- micro-frame index within the minor frame -/
  m : Nat := 0
  /-- minor-frame index within the major frame -/
  k : Nat := 0
  /-- highest level at the last boundary token, as in R92: 1 micro … 5 billing tick -/
  lastLevel : Nat := 0
  sampled : Bool := false
  launched : Bool := false
  /-- replica measurements of this major frame (R26) -/
  repSum : Nat := 0
  repCount : Nat := 0
  repMax : Nat := 0
  /-- civil time in units of 0.1 ps -/
  civil : Nat := 0
  /-- value written to TIME.NOW, waiting for the next minor-frame boundary (R46) -/
  civilStep : Option Nat := none
  /-- what remains to be slewed, in units of 0.1 ps (R46) -/
  slew : Int := 0
  /-- micro-frames in a row within 20 ns of the active unit (R45) -/
  lockCount : Nat := 0
  /-- a boundary token of minor level or higher has been issued whose minor reference token is due (R33) -/
  refDue : Bool := false
  /-- this unit's boundary minus the active unit's, in ps, as last measured (R144) -/
  offsetPs : Int := 0
  deriving DecidableEq, Repr, Inhabited

/-! ### The schedule (spec/03) -/

structure StageE where
  phases : Nat := 0
  groups : Nat := 0
  map : Nat := 0
  deriving DecidableEq, Repr, Inhabited

structure DispE where
  count : Nat := 0
  first : Nat := 0
  mcs : Nat := 0
  deriving DecidableEq, Repr, Inhabited

structure DirE where
  cell : Nat
  sect : Nat
  count : Nat
  first : Nat
  deriving DecidableEq, Repr, Inhabited

/-- A slot record (R56), with the cell and section its frame table gives it. -/
structure SlotR where
  kernel : Nat
  rate : Nat
  variant : Nat
  microOfs : Nat
  minorOfs : Nat
  rsv7 : Nat
  p1 : Nat
  p2 : Nat
  declared : Nat
  ins : Nat
  outs : Nat
  firstBind : Nat
  state : Nat
  slotId : Nat
  rsv1C : Nat
  cell : Nat := 0
  sect : Nat := 0
  deriving DecidableEq, Repr, Inhabited

/-- A binding record (R58). -/
structure Bind where
  kind : Nat
  ty : Nat
  attr : Nat
  sub : Nat
  target : Nat
  deriving DecidableEq, Repr, Inhabited

/-- A schedule image taken apart (R49 to R58). -/
structure Image where
  micro : Nat
  flags : Nat
  cells : Nat
  sequence : Nat
  siteId : Nat
  lanes : List Nat
  stages : List StageE
  disps : List DispE
  dir : List DirE
  slots : List SlotR
  binds : List Bind
  digest : Bytes
  /-- offset of the slot array, for the granules of R85 -/
  ofsSlots : Nat
  ofsBinds : Nat
  deriving DecidableEq, Repr, Inhabited

/-- The result of an acceptance check: code, slot, position (R64, R74). -/
structure CheckRes where
  code : Nat
  slotId : Nat := 0xFFFFFFFF
  /-- position: K, M, CELL, SECTION, when meaningful -/
  pos : Option (Nat × Nat × Nat × Nat) := none
  deriving DecidableEq, Repr, Inhabited

/-! ### Allocation (spec/09) -/

/-- A connector (or a tie, number 0x40 + t) in the snapshot of a solve (R211, R214). -/
structure AConn where
  node : Nat
  mode : Nat
  cls : Nat
  v : Int
  dp : Int
  wp : Int
  d : Int := 0
  /-- the discharge grant (R212) -/
  dis : Int := 0
  w : Int := 0
  cap : Int := 0
  iMin : Int := 0
  pMax : Int := 0
  batt : Bool := false
  oldState : Nat := 0
  deriving DecidableEq, Repr, Inhabited

/-- A group in the snapshot of a solve: capacity, node before and after. -/
structure AGrp where
  s : Nat
  g : Nat
  cap : Int
  old : Nat
  new : Nat
  batt : Bool
  deriving DecidableEq, Repr, Inhabited

/-- An edge record of a matrix table (R217). -/
structure Edge where
  s : Nat
  g : Nat
  node : Nat
  kind : Nat
  driver : Nat
  deriving DecidableEq, Repr, Inhabited

/-- The shared state area of the allocation solver (R62, R214). -/
structure AllocS where
  conns : List AConn := []
  groups : List AGrp := []
  lo : Int := 0
  hi : Int := 0
  bg : Int := 0
  bb : Int := 0
  /-- variant steps done in this solve -/
  steps : Nat := 0
  /-- an overrun discarded this solve (R68, R226) -/
  discard : Bool := false
  /-- major frames in a row in which a connector could spare a group (R219 rule 2) -/
  dwell : List (Nat × Nat) := []
  /-- what the last committed solve left over, in 2^-16 kW: grid budget and battery budget (R216) -/
  leftG : Int := 0
  leftB : Int := 0
  deriving DecidableEq, Repr, Inhabited

/-- The area in its entry state (R81); what the last committed solve left over is no state of the solve that runs. -/
def AllocS.cleared (a : AllocS) : AllocS := { leftG := a.leftG, leftB := a.leftB }

/-! ### The sequencer's books (spec/03) -/

structure SchedS where
  /-- the image in force (R63) -/
  image : Option Image := none
  /-- an accepted image that takes effect at the next major-frame boundary -/
  next : Option Image := none
  /-- slot outputs of this micro-frame -/
  outs : List SlotOut := []
  /-- status bits that slots have set or cleared in this micro-frame: object and subindex by key, bit, value (R38) -/
  stats : List (Nat × Nat × Bool) := []
  /-- committed state words of the slots that have run; absent means the entry state (R81) -/
  kst : List (Nat × List Int) := []
  /-- the area of the allocation solver (R62) -/
  alloc : AllocS := {}
  /-- committed states of the last eight micro-frames, newest first (R466) -/
  hist : List (Nat × List (Nat × List Int)) := []
  /-- V_CONN and I_CONN in Q16.16 and ISO_STATE of each connector as of the boundary token (R38, R211) -/
  disp : List (Nat × (Int × Int × Nat)) := []
  /-- slots that completed in this micro-frame -/
  ran : List Nat := []
  /-- MODEL_ADAPT slots that have completed since the image came into force (R186) -/
  adapted : List Nat := []
  /-- slots stopped, skipped or held in this micro-frame -/
  stopped : List Nat := []
  /-- slots that used their re-run in this micro-frame (R83) -/
  reran : List Nat := []
  /-- per cell: slack minimum, sum and count of this major frame, in 0.1 µs (R44) -/
  slack : List (Nat × (Nat × Nat × Nat)) := []
  /-- per cell: completion stamp of the last slot of this micro-frame, in ticks from the boundary -/
  stamp : List (Nat × Nat) := []
  /-- cells that overran in this micro-frame, with the section -/
  overrun : List (Nat × Nat) := []
  /-- per cell: launch-section overruns in consecutive micro-frames (R69) -/
  launchRun : List (Nat × Nat) := []
  /-- cells whose SCH_OVERRUN was raised in this minor frame (R68) -/
  overRaised : List Nat := []
  /-- SLACK_LOW may be raised again (R71) -/
  slackArmed : Bool := true
  /-- micro-frames of this major frame that have ended -/
  frames : Nat := 0
  deriving DecidableEq, Repr, Inhabited

/-! ### The guard (spec/04) -/

structure GuardS where
  /-- granules being reloaded, with failed reloads of each (R85) -/
  reload : List (Granule × Nat) := []
  /-- the CRC-32 of each granule, as computed at acceptance, in its two copies (R85) -/
  crcA : List (Granule × Nat) := []
  crcB : List (Granule × Nat) := []
  /-- next SRAM word the scrubber reads (R78) -/
  scrubPos : Nat := 0
  /-- legal registers being recomputed: channel index and subindex (R88) -/
  recalc : List (Nat × Nat) := []
  deriving DecidableEq, Repr, Inhabited

/-! ### Events (spec/05 R110, R111) -/

structure EvRec where
  code : Nat
  inst : Nat
  rep : Nat
  flags : Nat
  micro : Nat
  civil : Nat
  data : Nat
  /-- opened in the current minor frame: still open for folding, not yet posted -/
  isOpen : Bool := true
  deriving DecidableEq, Repr, Inhabited

structure EventS where
  /-- the event window, newest first, at most 64 -/
  window : List EvRec := []
  /-- records of this minor frame in order of opening, also those displaced from the window -/
  opened : List EvRec := []
  last : Option EvRec := none
  /-- records opened since the settling of the last command: to notify sessions and the monitor of -/
  fresh : List EvRec := []
  count : Nat := 0
  lost : Nat := 0
  deriving DecidableEq, Repr, Inhabited

/-! ### Lanes (spec/06) -/

inductive LaneSt | unbound | training | ranging | identifying | up | identFail | down
  deriving DecidableEq, Repr, Inhabited

structure LaneS where
  mode : Nat := 0
  st : LaneSt := .unbound
  /-- control frames go from the micro-frame boundary after UP (R138) -/
  ctl : Bool := false
  attempts : Nat := 0
  /-- an IDENT_REQ awaits its IDENT_RSP, for 500 µs (R138) -/
  awaiting : Bool := false
  /-- ns since the wait for IDENT_RSP ended; the next attempt follows 500 µs later (R138) -/
  identNs : Nat := 0
  /-- round trips measured, by tag, in ps (R139) -/
  echos : List (Nat × Nat) := []
  tag : Nat := 0
  devNonce : Bytes := []
  partNonce : Bytes := []
  kmac : Option Bytes := none
  everUp : Bool := false
  /-- frame body received for the coming sample token -/
  latch : Option Bytes := none
  /-- SEQ of that frame -/
  latchSeq : Nat := 0
  /-- frame body as the slots see it, latched at the last sample token, stand-ins included -/
  cur : Bytes := []
  /-- the same as latched at the sample token before it -/
  old : Bytes := []
  /-- a valid frame was latched at the last sample token -/
  valid : Bool := false
  /-- STATUS of the newest valid frame (edges of R134, R171) -/
  status : Nat := 0
  /-- downstream asleep; upstream asleep (R143) -/
  downSleep : Bool := false
  upSleep : Bool := false
  /-- something forbade sleep in this major frame: gating, a closed contactor or a changed field -/
  busyMajor : Bool := true
  /-- the last whole major frame was quiet in that sense -/
  quiet : Bool := false
  /-- micro-frames left before the first frame after waking -/
  wakeWait : Nat := 0
  /-- a new pairing key waits for a new link-up (R131) -/
  relink : Bool := false
  /-- sample tokens in a row without a valid frame -/
  missRun : Nat := 0
  /-- the downstream fields as last launched or compared, to see a change (R143) -/
  launched : List (Nat × Nat) := []
  deriving DecidableEq, Repr, Inhabited

/-- Newest THERMAL and ISO record of a connector, and what the slots see of it (R129, R133). -/
structure RecS where
  thermal : List Nat := [0, 0, 0, 0, 0, 0, 0]
  thermalAge : Nat := 0
  riso : Nat := 0
  isoState : Nat := 0
  /-- the same as latched at the sample token -/
  curThermal : List Nat := [0, 0, 0, 0, 0, 0, 0]
  curRiso : Nat := 0
  curIso : Nat := 0
  /-- the same as latched at the sample token before it -/
  oldThermal : List Nat := [0, 0, 0, 0, 0, 0, 0]
  oldRiso : Nat := 0
  oldIso : Nat := 0
  /-- a THERMAL record has arrived since start -/
  thermalSeen : Bool := false
  /-- I_CONN summed over the sample tokens of this major frame, in 0.1 A (R209) -/
  iSum : Int := 0
  iCount : Nat := 0
  deriving DecidableEq, Repr, Inhabited

/-- METRO block numbering of a connector (R131, R317). -/
structure MetroS where
  lastAcc : Option Nat := none
  /-- the number accepted before the last link-up (R317) -/
  prevAcc : Option Nat := none
  /-- blocks that wait above a gap, by number: their 128 sample bytes -/
  wait : List (Nat × Bytes) := []
  /-- numbers requested by RESEND and not yet here -/
  requested : List Nat := []
  /-- runs of numbers declared missing and not yet passed in order -/
  missing : List (Nat × Nat) := []
  /-- RESEND records waiting for the next DISP_DOWN frame -/
  resend : List Nat := []
  deriving DecidableEq, Repr, Inhabited

structure LanesS where
  lanes : List LaneS := List.replicate 50 {}
  recs : List RecS := List.replicate 64 {}
  metro : List MetroS := List.replicate 64 {}
  /-- partial upstream vehicle Ethernet frame per connector (R132) -/
  vethRx : List (Nat × Bytes) := []
  /-- complete vehicle frames received and not yet consumed, oldest first -/
  vehIn : List (Nat × Bytes) := []
  /-- bytes of vehicle frames sent in this minor frame, by connector (R291) -/
  vehSent : List (Nat × Nat) := []
  /-- downstream vehicle frames: connector, bytes, bytes already sent -/
  vethTx : List (Nat × Bytes × Nat) := []
  /-- launch registers: KIND 3 and KIND 5 fields by key (R41) -/
  lreg : List (Nat × Nat) := []
  /-- blocks to end with CLEAR_BLOCK in the next STAGE_DOWN, per stage (R172) -/
  clearBlock : List (Nat × Bool) := []
  deriving DecidableEq, Repr, Inhabited

/-! ### Stages (spec/07, spec/08) -/

/-- A stage group's timers and counts beside its objects (R198, R200). -/
structure GrpS where
  /-- boundary tokens in a row with the short condition (R198) -/
  shortCnt : Nat := 0
  /-- every permitted phase stood blocked at the last swap (R198) -/
  allBlocked : Bool := false
  /-- the I2T values were derived from this rating (Q16.16) and phase count (R167) -/
  i2tFrom : Option (Nat × Nat) := none
  /-- the same, as kept with the NOR copy of G.I2T (R167) -/
  i2tNor : Option (Nat × Nat) := none
  /-- a stage-bus latch waits for its one retry, due at this time in ns since t0 (R200) -/
  retry : Bool := false
  retryAt : Nat := 0
  /-- ns for which G.VREF has equalled G.VSET without a latch while RETRY_USED is set (R200) -/
  vrefNs : Nat := 0
  deriving DecidableEq, Repr, Inhabited

/-- A stage's supervision state beside its objects. -/
structure StgS where
  lost : Bool := false
  /-- the LOST of R586, before the first end -/
  startLost : Bool := false
  hold : Bool := false
  /-- ns since the stage became LOST (R248) -/
  lostFor : Nat := 0
  /-- sample tokens in a row in HOLD (R197) -/
  holdCnt : Nat := 0
  /-- the frame at the last sample token was valid -/
  prevValid : Bool := false
  /-- valid frames in a row while LOST, whose status meets R197 -/
  validCnt : Nat := 0
  /-- the last sample token was valid: HOLD ends at the next boundary token (R196) -/
  holdEnds : Bool := false
  /-- phases whose samples were substituted at the last sample token (R193, R195) -/
  standin : Nat := 0
  /-- phases tripped so far in the STAGE_UP frame now arriving (R170) -/
  tripped : Nat := 0
  /-- LOST has ended and no STAGE_DOWN frame has gone since: the next carries RUN 0 and every CLOSE bit 0 (R197) -/
  resume : Bool := false
  /-- a new rated phase current, waiting for the major-frame boundary (R167) -/
  ratedNew : Option Nat := none
  groups : List GrpS := List.replicate 4 {}
  deriving DecidableEq, Repr, Inhabited

/-! ### Sequencers (spec/10) -/

/-- A group's state machine (R242, R243). -/
structure GSeq where
  state : Nat := 0
  close : Bool := false
  dir : Bool := false
  turn : Nat := 0
  /-- the refusal reason that holds now, 0 none (R247) -/
  refuse : Nat := 0
  /-- refused at this assignment: no automatic retry (R247) -/
  refused : Option Nat := none
  /-- ns in the state -/
  t : Nat := 0
  /-- ns since the last change of the contactor command -/
  tc : Nat := 0
  ieb : Int := 0
  vset : Int := 0
  deriving DecidableEq, Repr, Inhabited

/-- A node's state machine (R244): 0–63 connectors, 64–67 ties. -/
structure NSeq where
  state : Nat := 0
  /-- commanded contactors: bit k edge k, bit 16 connector contactor, bit 17 discharge -/
  cmd : Nat := 0
  /-- contactors by feedback at the last run -/
  fb : Nat := 0
  refuse : Nat := 0
  /-- the request must first have been 0 after DISCHARGE or a refusal; of a tie the assignment must have been missing (R244,
  R247) -/
  need0 : Bool := false
  /-- contactors whose fault has been raised and still shows (R241) -/
  faults : Nat := 0
  /-- the discharge under way has failed (R246) -/
  disFail : Bool := false
  t : Nat := 0
  /-- ns since the last command change of each contactor -/
  tc : List (Nat × Nat) := []
  deriving DecidableEq, Repr, Inhabited

structure EnergyS where
  groups : List GSeq := List.replicate 128 {}
  nodes : List NSeq := List.replicate 68 {}
  /-- the edges of the matrix table in force, then those of earlier tables whose contactor still shows closed (R225, R226) -/
  edges : List Edge := []
  deriving DecidableEq, Repr, Inhabited

/-! ### Thermal (spec/11) and load channels (spec/12) -/

structure ThermS where
  /-- owners and classes whose clear is due (R260) -/
  clearDue : List Nat := []
  /-- housekeeping boundaries in a row with the flow condition, by connector (R254) -/
  flowLow : List (Nat × Nat) := []
  /-- connectors whose coolant sensors count as faulted for low flow -/
  flowFault : List Nat := []
  /-- ns left of the pump run-on, by connector (R264) -/
  runOn : List (Nat × Nat) := []
  /-- connectors in DISCHARGE at the last boundary -/
  wasDisch : List Nat := []
  /-- the powerline die transmits 6 dB lower (R262) -/
  plReduced : Bool := false
  deriving DecidableEq, Repr, Inhabited

/-- A load channel's state at the load die (R275 to R282). -/
structure LchS where
  on : Bool := false
  inrush : Bool := false
  /-- a retry waits -/
  wait : Bool := false
  /-- channels whose inrush windows must end before the retry delay starts (R278) -/
  waitFor : List Nat := []
  locked : Bool := false
  latch : Bool := false
  /-- junction temperature in °C and channel-to-case ΔT in K, as last measured (R275, R279) -/
  tj : Int := 0
  dt : Int := 0
  /-- cause of the present off-state: OVERLOAD 4, SHORT 8, THERMAL_DELTA 16; OPEN_LOAD 2 while on -/
  flags : Nat := 0
  clamp : Bool := false
  handover : Bool := false
  /-- taken over as mirrored OFF: it stays off until its command has been off (R281, R282) -/
  stay : Bool := false
  /-- when the waiting retry is due, in ns since t0; counted from the fault or from the end of the windows it waited for (R277,
  R278) -/
  due : Nat := 0
  /-- the off-state began with a ΔT trip: the retry waits until ΔT is below 20 K (R277, R281) -/
  hot : Bool := false
  /-- open-load detection is suppressed (R282) -/
  olOff : Bool := false
  retries : Nat := 0
  clamps : Nat := 0
  faults : Nat := 0
  /-- command applied at the last boundary token -/
  cmd : Bool := false
  deriving DecidableEq, Repr, Inhabited

structure LchsS where
  ch : List LchS := List.replicate 32 {}
  /-- supply of each group out of range: 0 in range, 1 under, 2 over (R272) -/
  supply : List Nat := [0, 0, 0, 0]
  /-- supply groups below 2.0 V at t0, unfitted until the next start (R565) -/
  unfitted : List Nat := []
  vload : List Nat := [0, 0, 0, 0]
  deriving DecidableEq, Repr, Inhabited

/-! ### Vehicle sessions (spec/13) -/

/-- What a session context holds beside its objects. -/
structure CtxS where
  /-- the discovery was answered with security 0x00 (R288) -/
  sec : Bool := false
  /-- a TLS handshake has completed since (R289) -/
  tls : Bool := false
  /-- an application protocol has been selected since (R288) -/
  appDone : Bool := false
  /-- the feature view when the context was taken (R105) -/
  feat : Nat := 0
  /-- Dynamic control mode was selected (R287) -/
  dynamic : Bool := false
  /-- how the next response tells of a station-side end, 0 not (R300) -/
  notice : Nat := 0
  /-- message sequence, TCP state, TLS secrets and sequence numbers (R303) -/
  wire : Bytes := []
  /-- ns since the session was suspended (R301) -/
  suspended : Nat := 0
  /-- the end cause is resumable (R300) -/
  resumable : Bool := false
  /-- ns for which V_CONN and ISO_STATE have met R296 -/
  isoFor : Nat := 0
  /-- the cable check was answered "finished" -/
  isoDone : Bool := false
  /-- a pre-charge request of ISO 15118-20 waits for CON.EB_READY (R297) -/
  pcPending : Bool := false
  /-- MODE 3 stands until a major-frame boundary with CON.GRANT.01 at 0 (R305) -/
  dirWait : Bool := false
  /-- discharge stands within the vehicle's limits and above its minimum state of charge -/
  disOk : Bool := false
  /-- I_MAX and P_MAX for charging, as the last message gave them (R295) -/
  iChg : Nat := 0
  pChg : Nat := 0
  /-- MET.REG.01 at the first billing tick after the context was taken (R323) -/
  i0 : Option Nat := none
  /-- sequence of the mirrored deltas (R303) -/
  seq : Nat := 0
  /-- the vehicle has sent an authorization request that R299 admits -/
  asked : Bool := false
  /-- the vehicle has ended the transfer; its session stop request has not come (R300) -/
  vehWaits : Bool := false
  /-- the connector whose vehicle still has this ended context's connection open (R300) -/
  linger : Option Nat := none
  deriving DecidableEq, Repr, Inhabited

structure SesS where
  ctx : List CtxS := List.replicate 256 {}
  /-- the context taken last (R293) -/
  last : Nat := 255
  /-- ns since the last LINK_STATE frame, and for which LINK has been 0, by connector (R292, R300) -/
  age : List (Nat × Nat) := []
  link0 : List (Nat × Nat) := []
  /-- responses that wait for the PAIR frame with their delta: connector, message, arguments (R303) -/
  held : List (Nat × Nat × List Nat) := []
  /-- responses whose deltas stand in the PAIR frame now being sent, or in one sent before it -/
  ready : List (Nat × Nat × List Nat) := []
  /-- contexts whose change waits for the next SESSION_DELTA record -/
  deltas : List Nat := []
  deriving DecidableEq, Repr, Inhabited

/-! ### DMA rings and the record store (spec/18) -/

/-- A micro-frame of the rolling buffers (R441): the STAGE_UP body and the launched DUTY and TRIM words. -/
structure FrameRec where
  valid : Bool
  body : Bytes
  down : Bytes
  deriving DecidableEq, Repr, Inhabited

/-- What a descriptor of one of the device's own producers moves (R420); a producer that posts several descriptors for one thing
hangs it on the last. -/
inductive RingItem
  /-- a descriptor whose data go with a later one's -/
  | part
  /-- ring 1: a micro-frame of a stage for its rolling buffer -/
  | roll (s : Nat) (f : FrameRec)
  /-- ring 2: a METRO record of a connector -/
  | metro (c num : Nat) (body : Bytes)
  /-- ring 3: the connectors' increments of a billing tick -/
  | energy
  /-- rings 4 to 7: an entry of a partition, with its TYPE -/
  | entry (i typ : Nat) (body : Bytes)
  /-- ring 8: a vehicle frame of a connector -/
  | vehicleUp (c : Nat) (f : Bytes)
  /-- ring 9: a vehicle message for a connector, with its frame -/
  | vehicleDown (c msg : Nat) (args : List Nat) (f : Bytes)
  /-- ring 10: a powerline frame received -/
  | yardIn (fh : Bytes) (segs : List Bytes) (stop : Nat)
  /-- ring 11: a datagram received, one given as its PDU, and a discovery request -/
  | datagram (src ses counter : Nat) (pdu mac : Bytes) (word : Option WordRead)
  | pdu (op : Nat) (p : PduIn)
  | discovery (src tag : Nat)
  /-- ring 12: a datagram to send, and the answer to a discovery -/
  | udp (addr : Nat) (b : Bytes)
  | udpIdent (addr : Nat) (b : Bytes)
  /-- ring 13: a piece of a package -/
  | piece (role : Nat) (v : Bytes)
  /-- ring 15: trace records -/
  | trace (rs : List Bytes)
  deriving DecidableEq, Repr, Inhabited

/-- A descriptor in its ring: started or not, and the cause found so far (R430). -/
structure DescS where
  desc : Desc := default
  started : Bool := false
  cause : Nat := 0
  /-- its place in the ring's array -/
  idx : Nat := 0
  /-- posted by one of the device's own producers -/
  own : Option RingItem := none
  deriving DecidableEq, Repr, Inhabited

structure RingS where
  q : List DescS := []
  /-- the ring's array: the 32 bytes of the descriptors posted by command, by index (R422, R423) -/
  slots : List (Nat × Bytes) := []
  stopReq : Bool := false
  /-- DMA_RING_FULL was raised in this minor frame (R422) -/
  fullRaised : Bool := false
  deriving DecidableEq, Repr, Inhabited

/-- An entry of the record store (R436). -/
structure EntryR where
  typ : Nat
  flags : Nat
  seq : Nat
  body : Bytes
  deriving DecidableEq, Repr, Inhabited

/-- A page of a partition (R435, R437). -/
structure PageR where
  pseq : Nat
  ents : List EntryR := []
  /-- entries of the page in its last Reliable Write, and those that the eMMC has answered for: stored -/
  issued : Nat := 0
  stored : Nat := 0
  deriving DecidableEq, Repr, Inhabited

structure PartS where
  pages : List PageR := []
  nextSeq : Nat := 0
  nextPseq : Nat := 0
  /-- a Reliable Write has been issued and not yet answered -/
  writing : Bool := false
  /-- the time of its first unwritten entry has run while a write was unanswered (R437) -/
  flush : Bool := false
  /-- the page number that the table block's head hint names (R433) -/
  hint : Nat := 0
  /-- pages reused since the last whole wrap -/
  reused : Nat := 0
  deriving DecidableEq, Repr, Inhabited

structure CaptureS where
  stage : Nat
  codes : List Nat
  micro : Nat
  civil : Nat
  pre : List FrameRec
  post : List FrameRec := []
  frozen : Bool := false
  hdrSeq : Nat := 0
  lastSeq : Nat := 0
  deriving DecidableEq, Repr, Inhabited

structure FlashS where
  /-- what the eMMC's table block says: 0 none, 1 own serial, 2 another serial (R434) -/
  fmt : Nat := 0
  /-- the sizes in MiB in the eMMC's table block: legal records, session log, event log, fault recorder (R433) -/
  layout : List Nat := []
  parts : List PartS := List.replicate 6 {}
  /-- entries that wait in their producers: partition, type, body (R347, R422) -/
  held : List (Nat × Nat × Bytes) := []
  fails : Nat := 0
  /-- rolling buffers by stage, newest first (R441) -/
  roll : List (Nat × List FrameRec) := []
  caps : List CaptureS := []
  deriving DecidableEq, Repr, Inhabited

/-! ### Keys (spec/20) -/

structure KeyS where
  /-- the root banks of the states 0 to 5 that still hold their root (R478, R479) -/
  banks : List Bool := [true, true, true, true, false, true]
  /-- installed keys by object number (R484) -/
  inst : List (Nat × Bytes) := []
  /-- the wrapped NOR copies of installed keys (R484) -/
  nor : List (Nat × Bytes) := []
  /-- masks of the keys held, by object number (R489) -/
  masks : List (Nat × Bytes) := []
  /-- TARGET and UNIT written and waiting for CONFIRM; the accepted request (R480) -/
  lcT : Nat := 0
  lcU : Nat := 0
  lcReq : Option Nat := none
  /-- a root was lost: raised at the next start (R490) -/
  rootLost : Bool := false
  /-- the pair key that was in force until the boundary token of this micro-frame (R488) -/
  pairWas : Option (Nat × Bytes) := none
  deriving DecidableEq, Repr, Inhabited

/-! ### Metering (spec/14) and the legal partition (spec/15) -/

/-- A metering channel's residues and units (R316). -/
structure ChanS where
  rImp : Nat := 0
  rExp : Nat := 0
  uImp : Nat := 0
  uExp : Nat := 0
  /-- units carried since the last millisecond of the pulse outputs (R324) -/
  msImp : Nat := 0
  msExp : Nat := 0
  /-- units carried since the last major-frame boundary (R323) -/
  majImp : Nat := 0
  majExp : Nat := 0
  /-- own and mirrored energy of the 15-min profile interval, import and export (R328) -/
  ownImp : Nat := 0
  ownExp : Nat := 0
  mirImp : Nat := 0
  mirExp : Nat := 0
  /-- a 15-min interval has closed at this LSEC, whose mirrored increments have not all come (R328) -/
  devDue : Option Nat := none
  /-- the bits of R322 set during the tick (R469) -/
  tf : Nat := 0
  deriving DecidableEq, Repr, Inhabited

/-- An intake's sample histories and supply-event state (R313 to R327), newest first. -/
structure IntakeS where
  /-- offset-corrected samples of the eight ADC channels, at most 12 -/
  b : List (List Int) := List.replicate 8 []
  /-- primary values of the eight ADC channels, at most N -/
  x : List (List Int) := List.replicate 8 []
  /-- products P(n), at most N -/
  p : List Int := []
  s : Int := 0
  gate : List Bool := [false, false, false]
  /-- samples since the last update of gates and RMS values -/
  cnt : Nat := 0
  /-- updates in a row below 50 %, and at or above 60 %, of V_NOM, by phase (R326) -/
  low : List Nat := [0, 0, 0]
  high : List Nat := [0, 0, 0]
  /-- RMS values of the eight channels in mV and mA at the last update -/
  rms : List Nat := [0, 0, 0, 0, 0, 0, 0, 0]
  /-- sample time since the last positive crossing of V1, in 1/65536 sample; none before the first -/
  t1 : Option Nat := none
  /-- times of the crossings of V2 and V3 in this cycle, on the same scale -/
  t2 : Option Nat := none
  t3 : Option Nat := none
  /-- length of the last L1 cycle in 1/65536 sample -/
  cyc : Nat := 0
  /-- reversed and correct cycles in a row (R325) -/
  rev : Nat := 0
  ok : Nat := 0
  /-- samples in a row with the missing-neutral condition, and with its end condition (R327) -/
  neut : Nat := 0
  neutOk : Nat := 0
  deriving DecidableEq, Repr, Inhabited

/-- A pulse output (R324): spill accumulator, whether it is asserted, ms left of the present phase. -/
structure PulseS where
  a : Nat := 0
  busy : Bool := false
  left : Nat := 0
  src : Nat := 64
  dir : Nat := 0
  /-- the accumulator stood at 1,000 × CONST or more at the last millisecond -/
  back : Bool := false
  deriving DecidableEq, Repr, Inhabited

/-- An open interval of a channel (R321, R340, R345). -/
structure IntS where
  isOpen : Bool := false
  endCl : Int := 0
  len : Nat := 0
  lsec0 : Nat := 0
  civil0 : Nat := 0
  iflags : Nat := 0
  rflags : Nat := 0
  tariffs : Nat := 0
  ms : Nat := 0
  imp : Nat := 0
  exp : Nat := 0
  pos : Bool := false
  neg : Bool := false
  deriving DecidableEq, Repr, Inhabited

/-- An open session record (R351). -/
structure SRec where
  ctx : Nat
  conn : Nat
  id : Nat
  proto : Nat := 0
  sid : Bytes := []
  ident : Bytes := []
  /-- the registers of the opening reading; none before the first tick after opening -/
  opening : Option (List Nat) := none
  lsecO : Nat := 0
  civilO : Nat := 0
  /-- MET.AUX.02 and .03 at the opening reading or at the last start, and the estimates counted before it -/
  gapI : Nat := 0
  gapE : Nat := 0
  accI : Nat := 0
  accE : Nat := 0
  iflags : Nat := 0
  rflags : Nat := 0
  tariffs : Nat := 0
  pos : Bool := false
  neg : Bool := false
  closing : Bool := false
  cause : Nat := 0
  resumes : Nat := 0
  /-- ns since the context entered CLOSING -/
  age : Nat := 0
  /-- signed and given to the record store, with its sequence number there -/
  signed : Bool := false
  deriving DecidableEq, Repr, Inhabited

/-- A journaled or own increment: LSEC of its tick, channel, tariff, import, export (R88, R320, R328). -/
structure IncS where
  lsec : Nat
  m : Nat
  tariff : Nat
  imp : Nat
  exp : Nat
  /-- TIME.TICK_COUNT of the tick, and its TFLAGS (R469) -/
  tick : Nat := 0
  tf : Nat := 0
  deriving DecidableEq, Repr, Inhabited

/-- A closed interval of a standby unit that waits for the mirrored increments of its last tick (R328, R346). -/
structure WaitInt where
  rtype : Nat
  m : Nat
  lsecEnd : Nat
  int : IntS
  deriving DecidableEq, Repr, Inhabited

/-- The snapshot in the keep domain (R355). -/
structure SnapS where
  lsec : Nat
  /-- part of the tick elapsed, in ms -/
  fMs : Nat
  civil : Nat
  regs : List (List Nat)
  chans : List ChanS
  p15 : List IntS
  p5 : List IntS
  dem : List IntS
  recs : List SRec
  tariff : Nat
  highCivil : Option Int
  journal : List IncS
  ckpt : List (List Nat)
  /-- registers that were being recomputed: channel, subindex (R357) -/
  recalc : List (Nat × Nat) := []
  deriving DecidableEq, Repr, Inhabited

/-- The reading of a snapshot at which session records still open are closed (R356 step 6). -/
structure OrphanS where
  lsec : Nat
  civil : Nat
  regs : List (List Nat)
  deriving DecidableEq, Repr, Inhabited

structure LegalS where
  chans : List ChanS := List.replicate 66 {}
  intakes : List IntakeS := List.replicate 2 {}
  pulses : List PulseS := List.replicate 4 {}
  p15 : List IntS := List.replicate 66 {}
  p5 : List IntS := List.replicate 66 {}
  dem : List IntS := List.replicate 2 {}
  /-- Cl at the last tick (R339) -/
  cl : Option Int := none
  civilPrev : Nat := 0
  highCivil : Option Int := none
  /-- a change of BIL.CLOCK took effect at this tick -/
  clockChanged : Bool := false
  /-- a billing-tick token has been issued whose BILLING_TICK row is due -/
  tickDue : Bool := false
  /-- the legal core has started and meters once its start time has passed (R499, step 2) -/
  due : Bool := false
  /-- until it meters: the snapshot it was restored from and the outage in ms, which a further cut falls back to (R507) -/
  again : Option (SnapS × Nat) := none
  /-- the tick that this token ended has been counted already (no tick ends at the first token) -/
  tickOpen : Bool := false
  /-- ns of the tick in progress during which the legal core metered -/
  tickNs : Nat := 0
  /-- tariff code being read and how often in a row -/
  tarCode : Nat := 0
  tarCount : Nat := 0
  /-- the next tariff change is that of a restoration (R356) -/
  tarRestored : Bool := false
  /-- next record number and digest of the last record, by 256·RTYPE + channel (R346) -/
  seqs : List (Nat × (Nat × Bytes)) := []
  tlPrev : Bytes := List.replicate 8 0
  recs : List SRec := []
  /-- the snapshot whose open session records nobody has taken over yet (R356 step 6) -/
  orphans : Option OrphanS := none
  nextRec : Nat := 1
  /-- register checkpoints by channel, and the increments journaled since (R88) -/
  ckpt : List (List Nat) := List.replicate 66 (List.replicate 10 0)
  journal : List IncS := []
  /-- how many of them have gone to the journal partition, and LSEC at the checkpoint (R88, R355) -/
  paged : Nat := 0
  ckptLsec : Nat := 0
  /-- MET_SEAL as the last SEAL entry shows it (R337) -/
  sealWas : Bool := false
  /-- tamper changes during an outage: input, new state, ms since the snapshot (R337) -/
  outTamper : List (Nat × Bool × Nat) := []
  /-- a legal parameter or setting took effect at this tick -/
  paramNow : Bool := false
  snap : Option SnapS := none
  /-- display: item and seconds it has been shown; the values last sent by line (R358) -/
  item : Nat := 0
  shown : Nat := 0
  lastShown : List (Nat × Nat) := []
  /-- ticks since the last check of the code (R334), and the reload of a start already done -/
  checkTicks : Nat := 0
  /-- own increments that wait for the active unit's (R328) -/
  own : List IncS := []
  waits : List WaitInt := []
  /-- LSEC at which the billing period opened (R349) -/
  periodLsec : Nat := 0
  /-- the check value at the last start (R335) -/
  lastCheck : Option Nat := none
  /-- increments of the last tick still to be mirrored to the partner: channels (R145, R466) -/
  toMirror : List IncS := []
  deriving DecidableEq, Repr, Inhabited

/-! ### Field buses and Malpen (spec/16) -/

/-- A CAN FD frame queued by the device: identifier (R368) and payload. -/
structure CanFrame where
  id : Nat
  payload : Bytes
  deriving DecidableEq, Repr, Inhabited

/-- A confirmed node of a bus (R381). -/
structure FbNode where
  addr : Nat
  vendor : Nat
  model : Nat
  serial : Bytes
  deriving DecidableEq, Repr, Inhabited

structure FbS where
  /-- frames waiting for the bus, oldest first -/
  tx : List CanFrame := []
  /-- civil time of the start of frame of the last REF sent; 0 none (R371) -/
  prevSof : Nat := 0
  /-- recovered from bus-off: nothing is sent before the next reference message (R365) -/
  resume : Bool := false
  /-- the shadow buffers of input PUSH frames: node, page, values (R367) -/
  shadow : List (Nat × Nat × List Nat) := []
  /-- points that went stale and have had no value since (R383) -/
  gone : List Nat := []
  nodes : List FbNode := []
  round : Nat := 0
  /-- an IDENT of a serial new to this discovery came in this round -/
  newIdent : Bool := false
  /-- serials confirmed in this discovery -/
  seen : List Bytes := []
  deriving DecidableEq, Repr, Inhabited

/-- An open session. -/
structure MSes where
  client : Client
  role : Nat
  key : Bytes
  num : Nat
  notify : Nat := 0
  /-- the value this session last wrote to SYS.FEATURE_ACCEPTED (R107) -/
  want : Nat := 0
  /-- last counter accepted from the client; none before the first datagram -/
  rx : Option Nat := none
  /-- counter of the next datagram sent -/
  txc : Nat := 0
  /-- event notifications sent in this second (R385) -/
  evSent : Nat := 0
  deriving DecidableEq, Repr, Inhabited

/-- An OPEN answered with CHALLENGE and not yet proved. -/
structure MOpen where
  client : Client
  role : Nat
  notify : Nat
  cn : Bytes
  dn : Bytes
  deriving DecidableEq, Repr, Inhabited

/-- A transfer in progress (R375). -/
structure Xfer where
  client : Client
  tag : Nat
  num : Nat
  sub : Nat
  read : Bool
  /-- granted block size; 0 for a segmented transfer -/
  blk : Nat
  size : Nat
  /-- the value being read, or the bytes received so far -/
  data : Bytes
  /-- bytes sent so far of a read -/
  sent : Nat := 0
  /-- DATA PDUs since the last ACK of a write -/
  k : Nat := 0
  deriving DecidableEq, Repr, Inhabited

structure MalpenS where
  ses : List MSes := []
  opens : List MOpen := []
  xf : List Xfer := []
  nextNum : Nat := 1
  deriving DecidableEq, Repr, Inhabited

/-! ### Yard powerline (spec/17) -/

/-- A tone map set (R392). -/
structure TmSet where
  rate : Nat
  gi : Nat
  maps : List Bytes
  deriving DecidableEq, Repr, Inhabited

/-- The tone map sets the device holds for sending to a node: two versions, and the one in use (0 or 1); none is BASE. -/
structure TmPair where
  v0 : Option TmSet := none
  v1 : Option TmSet := none
  cur : Option Nat := none
  deriving DecidableEq, Repr, Inhabited

/-- A message the device has to send: link destination, whole message, sequence number, segments still missing. -/
structure YTx where
  ldst : Nat
  msg : Bytes
  seq : Nat := 0
  nseg : Nat := 0
  /-- the rate at which it was cut into segments -/
  rate : Nat := 0
  left : List Nat := []
  /-- frames sent of it -/
  tries : Nat := 0
  /-- waits for its RECEIPT -/
  wait : Bool := false
  deriving DecidableEq, Repr, Inhabited

/-- What has arrived of a frame sequence of a link source. -/
structure YRx where
  lsrc : Nat
  /-- of the broadcast direction, which has its own SEQ (R399) -/
  bcast : Bool := false
  seq : Nat
  segs : List (Option Bytes)
  delivered : Bool := false
  deriving DecidableEq, Repr, Inhabited

/-- A received message waiting for its row. -/
structure YMsg where
  mtype : Nat
  src : Nat
  /-- the neighbour it came through -/
  lsrc : Nat
  mseq : Nat
  body : Bytes
  deriving DecidableEq, Repr, Inhabited

/-- A measured link direction (R409). -/
structure YLink where
  src : Nat
  dst : Nat
  cost : Nat
  rate : Nat := 0
  err : Nat := 0
  deriving DecidableEq, Repr, Inhabited

/-- A node's route: next hop up, hops, cost; the downward path; how often in a row a better path was found (R411). -/
structure YRoute where
  up : Nat
  hops : Nat
  cost : Nat
  down : List Nat := []
  downCost : Nat := 0
  better : Nat := 0
  deriving DecidableEq, Repr, Inhabited

structure YardS where
  /-- valid PL_ZC edges, newest first, at most 9, in ns; the last edge of any kind -/
  edges : List Nat := []
  lastEdge : Option Nat := none
  okCyc : Nat := 0
  /-- valid edges since the edge that the running beacon period is counted from; its start in ns (R396) -/
  cycles : Nat := 0
  bpStart : Int := 0
  tx : List YTx := []
  rx : List YRx := []
  /-- next SEQ by link destination -/
  seqs : List (Nat × Nat) := []
  mseq : Nat := 0
  /-- access slots still to count before the next frame; none while no count is drawn (R404) -/
  backoff : Option Nat := none
  tm : List (Nat × TmPair) := []
  /-- the sets the device has chosen for receiving from its neighbours (R392) -/
  rxTm : List (Nat × TmPair) := []
  links : List YLink := []
  /-- error rates of the links to this device in units of 2⁻³², by neighbour -/
  errs : List (Nat × Nat) := []
  routes : List (Nat × YRoute) := []
  /-- neighbour through which a node was last heard -/
  via : List (Nat × Nat) := []
  inbox : List YMsg := []
  /-- ASSOC_REQ answered in this beacon period -/
  assoc : Nat := 0
  /-- messages carried by each holder, by beacon period, newest first, at most 25 (R405) -/
  carried : List (List (Nat × Nat)) := []
  /-- relay windows: holder, start, length in 10 µs -/
  windows : List (Nat × Nat × Nat) := []
  relayEnd : Nat := 250
  routeVer : Nat := 0
  /-- every route is sent after the next computation (R414) -/
  sendAll : Bool := false
  /-- BPN of the last route computation and of the last refresh of outputs (R411, R413) -/
  routeAt : Nat := 0
  refreshAt : Nat := 0
  /-- BPN at which a node was associated, by address: a point without a value is counted from it (R413) -/
  since : List (Nat × Nat) := []
  vplcLow : Bool := false
  /-- the driver has stopped; transmission resumes after 1 s (R395) -/
  drvOff : Bool := false
  /-- outputs written and not yet sent: 24·i + j -/
  dirty : List Nat := []
  /-- BPN of the last value, by 24·i + j -/
  ptLast : List (Nat × Nat) := []
  deriving DecidableEq, Repr, Inhabited

/-! ### The pair (spec/06, spec/19) -/

/-- PAIR.ROLE (R451). -/
inductive Role | electing | active | standby | single
  deriving DecidableEq, Repr, Inhabited

/-- A record of a dispenser or PAIR frame: type, index, INFO, body (R129). -/
structure LaneRec where
  rtype : Nat
  index : Nat
  info : Nat
  body : Bytes
  deriving DecidableEq, Repr, Inhabited

/-- What is answered to whom once a write has committed. -/
inductive Reply
  | none
  | pdu (c : Client) (bytes : Bytes)
  | monitor (seq : Nat)
  deriving DecidableEq, Repr, Inhabited

/-- A write of a session that waits for the PAIR frame with its last record (R464). -/
structure QWrite where
  pend : Pend
  reply : Reply
  deriving DecidableEq, Repr, Inhabited

/-- Own loop values of a micro-frame (R465, R466): by 32·s + p the words V1 and V2; by 4·s + g SEL, VREF, WINNER,
RAMP_ACT and I2T_ST. -/
structure LoopH where
  micro : Nat
  phases : List (Nat × (Int × Int))
  groups : List (Nat × List Int)
  deriving DecidableEq, Repr, Inhabited

structure PairS where
  role : Role := .electing
  /-- the declared pair flag (R450) -/
  declared : Bool := false
  /-- highest EPOCH received from the partner or as EPOCH_SEEN since start (R453) -/
  seen : Nat := 0
  /-- an EPOCH_SEEN, or an active partner's EPOCH, above the own epoch, to be acted on at the next boundary (R453, R462) -/
  above : Nat := 0
  /-- a part that had obeyed an epoch up to this unit's own has gone to a higher one: the partner is ACTIVE (R462, R474) -/
  rival : Bool := false
  /-- HB of the next PAIR frame; HB last accepted -/
  hb : Nat := 0
  lastHb : Option Nat := none
  /-- a valid PAIR frame has arrived since the previous boundary token (R455) -/
  gotA : Bool := false
  /-- arrival of the last valid PAIR frame, last HB_IN edge, last valid edge, in ns since start (R456, R460) -/
  lastA : Nat := 0
  edge : Option Nat := none
  validEdge : Option Nat := none
  /-- boundary tokens in a row at which each path was missed, and was not (R457, R458) -/
  missA : Nat := 0
  missB : Nat := 0
  okA : Nat := 0
  okB : Nat := 0
  /-- boundary tokens in a row at which the partner reported NO_IMAGE as STANDBY (R454) -/
  noImg : Nat := 0
  /-- FLAGS of the partner's last valid frame (R145) -/
  peerFlags : Nat := 0
  /-- partner's READY at the last boundary token (R471) -/
  wasReady : Bool := false
  /-- a unit with its own UNIT number was heard (R452) -/
  clash : Bool := false
  /-- mirror records taken at the next boundary token -/
  rx : List LaneRec := []
  /-- loop-state records received, with the micro-frame they describe -/
  loopRx : List (Nat × LaneRec) := []
  hist : List LoopH := []
  /-- micro-frames in a row whose loop-state records compared equal (R471) -/
  equal : Nat := 0
  gotGrants : Bool := false
  gotContactors : Bool := false
  /-- GRANTS and CONTACTORS bodies as last sent (R463) -/
  lastGrants : Bytes := []
  lastContactors : Bytes := []
  /-- complete records and the PEER record are due (once per major frame) -/
  complete : Bool := true
  /-- a mirrored write whose last record has not arrived: object, subindex, bytes (R470) -/
  rxWrite : Option (Nat × Nat × Bytes) := none
  queue : List QWrite := []
  /-- queued writes whose last record is in the PAIR frame now being sent -/
  sendingW : List QWrite := []
  /-- BILLING records of the last tick not yet sent -/
  billTx : List LaneRec := []
  /-- deferrable records (SESSION_DELTA, BANKED_WRITE) not yet sent, in commit order (R146) -/
  deferred : List LaneRec := []
  /-- last SEQ accepted for each session (R468) -/
  deltaSeq : List (Nat × Nat) := []
  /-- a planned switchover: H as TIME.MICRO_COUNT, and its cause (R472) -/
  switchAt : Option (Nat × Nat) := none
  /-- cause recorded at the next change to ACTIVE when it is announced (R520) -/
  announced : Option Nat := none
  /-- load channels the outgoing unit still feeds, and whether 10 ms have passed (R282) -/
  handingOver : Bool := false
  /-- load channels that the incoming unit has reported ON since (R282) -/
  onSeen : Nat := 0
  handNs : Nat := 0
  /-- HB_OUT level, and whether it toggles (R456) -/
  hbOut : Bool := false
  hbRun : Bool := false
  /-- a PAIR frame is being sent -/
  sending : Bool := false
  /-- own MARK_RX of PAIR0 and PAIR1 in ps (R144) -/
  markRx : List Int := [0, 0]
  /-- a valid frame of PAIR1, with its arrival, that waits for that of PAIR0 with the same HB (R145) -/
  waits : Option (Nat × Frame) := none
  /-- major frames since the open contexts were last mirrored (R463) -/
  ctxMajors : Nat := 0
  /-- the change to ACTIVE was an unplanned takeover (R473) -/
  tookOver : Bool := false
  deriving DecidableEq, Repr, Inhabited

/-! ### Start-up and the keep domain (spec/21) -/

structure StartS where
  /-- cause of the coming start (R496) -/
  nextCause : Nat := 0
  /-- the keep domain is lost -/
  keepLost : Bool := true
  /-- ns since t0 -/
  t : Nat := 0
  /-- result of the check of the image in RUN, until the role is known (R499, step 4) -/
  verified : Option CheckRes := none
  /-- the image of RUN, taken apart, when it passed -/
  image : Option Image := none
  /-- steps of START_LATE raised since start -/
  late : List Nat := []
  /-- the role is known and its time recorded; the image is in force; lanes; discovery; done (steps 3, 5, 6, 7) -/
  elected : Bool := false
  lanesDone : Bool := false
  fbDone : Bool := false
  /-- lanes whose first link-up attempt has ended (R500) -/
  tried : List Nat := []
  /-- major boundary tokens in a row without a kick, and kicks in this major frame, by core (R497) -/
  missed : List Nat := [0, 0, 0, 0]
  kicked : List Bool := [false, false, false, false]
  /-- a core has been found stalled, its restart is due -/
  stalled : Option Nat := none
  /-- ns since t0 of the cluster restarts of the last 60 s -/
  restarts : List Nat := []
  /-- a watchdog restart happened: WDOG_RESTART at the start -/
  wdog : Bool := false
  /-- an accepted restore whose NOR copies are not all rewritten -/
  factoryNor : Bool := false
  /-- the unit restarts at the next major-frame boundary, or once HANDOVER clears (R519) -/
  restartDue : Bool := false
  restartAfterHandover : Bool := false
  /-- end of the reload of internal cores, in ns since t0 (R499, step 2) -/
  readyNs : Nat := 0
  /-- the legal core meters from here, in ns since t0 (R499, step 2) -/
  legalNs : Nat := 0
  deriving DecidableEq, Repr, Inhabited

/-! ### Firmware update (spec/22) -/

structure UpdS where
  /-- the three regions (R511) -/
  run : Option Bundle := none
  stage : Option Bundle := none
  keep : Option Bundle := none
  /-- the delivery: SIZE, PIECE, digest, pieces by index (R514, R515) -/
  isOpen : Bool := false
  size : Nat := 0
  piece : Nat := 0
  digest : Bytes := []
  got : List (Nat × Bytes) := []
  /-- every piece came from METROLOGY; MET_SEAL at the first and at the completing piece (R516) -/
  metro : Bool := true
  sealFirst : Bool := false
  sealLast : Bool := false
  /-- subindices written of UPD.BEGIN, UPD.ACTIVATE until the last one commits -/
  args : List (Nat × Val) := []
  /-- the bundle built by verification and not yet written to STAGE -/
  built : Option Bundle := none
  /-- ns for which the conditions of R524 have held together -/
  dwell : Nat := 0
  /-- STAGE is to be copied at the next start; a trial has failed with its reason (R522, R525) -/
  activate : Bool := false
  fall : Option Nat := none
  /-- the restart for a failed trial or an activation is due -/
  quietDue : Bool := false
  deriving DecidableEq, Repr, Inhabited

/-! ### The development monitor (spec/24) -/

structure MonS where
  /-- the rate in force on the line -/
  baud : Nat := 115200
  /-- the break of R542 stands until the next start -/
  broke : Bool := false
  role : Option Nat := none
  nonce : Option Bytes := none
  fails : Nat := 0
  lockout : Bool := false
  /-- the feature view of the monitor's session (R107) -/
  want : Nat := 0
  /-- records dropped since the last LOST record, and in this major frame -/
  lost : Nat := 0
  drops : Nat := 0
  deriving DecidableEq, Repr, Inhabited

/-! ### What the device sends or drives -/

/-- A powerline frame as its carriers hold it (R390, R392, R398): the level in dBm/Hz; the carriers of a TRAIN and of the MARK symbol
with their phases in units of π/706; the two symbols of the header; the GI code and the payload symbols, each carrier with its
bits. -/
structure YardAir where
  psd : Int
  train : List (Nat × Nat)
  mark : List (Nat × Nat)
  head : List (List (Nat × List Bool))
  gi : Nat
  symbols : List (List (Nat × List Bool))
  deriving DecidableEq, Repr

inductive Tx
  | heartbeatLow
  | heartbeat (level : Bool)
  /-- a vehicle message of a connector (the message codes of Machine/Sessions.lean) -/
  | vehicle (c msg : Nat) (args : List Nat)
  | pulse (x : Nat) (level : Bool)
  | display (b : Bytes)
  | can (bus id : Nat) (payload : Bytes)
  /-- the blocks of a frame or a marker on a lane, and the bits they are on the line (R113 to R117, R120) -/
  | lane (l : Nat) (blocks : List LineBlock) (bits : List Bool)
  /-- a powerline frame -/
  | yardFrame (f : YardAir)
  /-- a page of a partition that the eMMC has taken (R435) -/
  | page (part : Nat) (b : Bytes)
  /-- a Malpen datagram to a client, and the answer to a UDP discovery -/
  | udp (addr : Nat) (b : Bytes)
  | udpIdent (addr : Nat) (b : Bytes)
  /-- the answer to a write command that names no session: the abort code of R378, 0 when the write committed -/
  | result (code : Nat)
  /-- bytes handed to the reader of REC.DATA (R444) -/
  | data (b : Bytes)
  /-- a frame on MON_TX -/
  | monitor (b : Bytes)
  deriving DecidableEq, Repr

/-! ### The whole device -/

/-- What the device is doing: internal reset, KEEP, running, or its fail-silent condition (R84, R494, R495, R503). -/
inductive Phase | reset | keep | running | failSilent
  deriving DecidableEq, Repr, Inhabited

/-- The object store (R35 to R38, R86, R95, R100). -/
structure ObjS where
  /-- values in force -/
  cur : Store := []
  /-- values as at the last boundary swap (R38) -/
  snap : Store := []
  /-- NOR copies of persistent values -/
  nor : Store := []
  /-- previous committed values (R86) -/
  prev : Store := []
  /-- keys whose value in force failed its code and was replaced by the previous one (R86) -/
  stale : List Nat := []
  /-- keys whose NOR copy is not yet written (R100) -/
  norDirty : List Nat := []
  /-- pending banked writes and commands, in commit order (R37) -/
  pend : List Pend := []
  deriving DecidableEq, Repr, Inhabited

structure Dev where
  phase : Phase := .reset
  os : ObjS := {}
  time : TimeS := {}
  sched : SchedS := {}
  guard : GuardS := {}
  ev : EventS := {}
  lanes : LanesS := {}
  stg : List StgS := List.replicate 32 {}
  energy : EnergyS := {}
  therm : ThermS := {}
  lch : LchsS := {}
  ses : SesS := {}
  dma : List RingS := List.replicate 16 {}
  flash : FlashS := {}
  keys : KeyS := {}
  legal : LegalS := {}
  bus : List FbS := List.replicate 4 {}
  malpen : MalpenS := {}
  yard : YardS := {}
  pair : PairS := {}
  startup : StartS := {}
  update : UpdS := {}
  mon : MonS := {}
  /-- the model's own: random numbers drawn so far (the argument of the free value Config.random) -/
  draws : Nat := 0
  /-- what the last command made the device send or drive, newest first -/
  sent : List Tx := []
  /-- what the device's own descriptors that the running command let complete have moved, newest first -/
  moved : List RingItem := []
  deriving DecidableEq, Repr

/-- The machine: the device, the SRAM that DMA descriptors address (R425), and the commands that wait. -/
structure State where
  dev : Dev := {}
  /-- SRAM bytes by address, canonical: rising addresses, no entry equal to 0 -/
  mem : List Host.Cell := []
  /-- commands waiting, first in, first out -/
  pending : List Instr := []
  deriving DecidableEq, Repr

/-- No command of this block ends in a fault: the type is closed with the one name a meaning would use for an access outside
the address space, and no meaning raises it (a DMA range error is reported by the ring, R430). Safe. -/
inductive Fault
  /-- raised by nobody: an address outside the SRAM is refused by the DMA engine itself and reported in its STATUS -/
  | outsideSram
  deriving DecidableEq, Repr

/-- Refusals. -/
inductive Refusal
  /-- a row of the opcode table without a meaning: raised by Machine/Dispatch.lean only; safe, the machine stops -/
  | notModelled (mnemonic : String)
  deriving DecidableEq, Repr

/-- The machine at power-on, in internal reset (R494): nothing is in force but defaults, no image is bound, no command
waits. Every field holds its default value. -/
def State.reset : State := {}

end Sys2Proof.Machine
end

