-- ==== Sys2Proof/Machine/Dict.lean ====
section
/-! DEFINITION. The object dictionary: one row per object of every chapter's object table (R11, R91, R112 and the object
tables of the chapters), with type, access, owning plane, frame level, expert and persist marks, control-level group,
roles, unit, default and numeric range. Admission (Machine/Admit.lean), DESCRIBE and the store's defaults all read it. -/

namespace Sys2Proof.Machine

/-- Object types (R12); the argument of the variable types is the declared maximum length. -/
inductive Ty
  | bool | u8 | u16 | u32 | u64 | s8 | s16 | s32 | s64 | q16 | f32 | time64 | lsec | e96
  | str (max : Nat) | oct (max : Nat) | dom (max : Nat)
  deriving DecidableEq, Repr

/-- Type code (R58, R91). -/
def tyCode : Ty → Nat
  | .bool => 0x01 | .u8 => 0x02 | .u16 => 0x03 | .u32 => 0x04 | .u64 => 0x05 | .s8 => 0x06 | .s16 => 0x07
  | .s32 => 0x08 | .s64 => 0x09 | .q16 => 0x0A | .f32 => 0x0B | .time64 => 0x0C | .lsec => 0x0D | .e96 => 0x0E
  | .str _ => 0x0F | .oct _ => 0x10 | .dom _ => 0x11

/-- Size in bytes; the declared maximum for the variable types (R12, R91). -/
def tySize : Ty → Nat
  | .bool => 1 | .u8 => 1 | .u16 => 2 | .u32 => 4 | .u64 => 8 | .s8 => 1 | .s16 => 2
  | .s32 => 4 | .s64 => 8 | .q16 => 4 | .f32 => 4 | .time64 => 8 | .lsec => 8 | .e96 => 12
  | .str m => m | .oct m => m | .dom m => m

/-- A variable type carries its length in the transfer (R12). -/
def tyVar : Ty → Bool
  | .str _ => true | .oct _ => true | .dom _ => true | _ => false

/-- Two's complement types. -/
def tySigned : Ty → Bool
  | .s8 => true | .s16 => true | .s32 => true | .s64 => true | .q16 => true | _ => false

/-- Access codes (R13, R91). -/
inductive Acc | ro | rw | rwb | wo | w1c | lro | roW1c
  deriving DecidableEq, Repr

def accCode : Acc → Nat
  | .ro => 1 | .rw => 2 | .rwb => 3 | .wo => 4 | .w1c => 5 | .lro => 6 | .roW1c => 7

/-- Owning planes (R91): 0 control, 1 data, 2 management. -/
inductive Plane | c | d | m
  deriving DecidableEq, Repr

def planeCode : Plane → Nat
  | .c => 0 | .d => 1 | .m => 2

/-- One subindex, or a run of like subindices, of an object. -/
structure SubD where
  lo : Nat := 0
  hi : Nat := 0
  ty : Ty
  d : Nat := 0
  db : Bytes := []
  mn : Option Int := none
  mx : Option Int := none
  /-- read only within an object that may be written, or write only, or W1C bits -/
  ro : Bool := false
  wo : Bool := false
  w1c : Nat := 0
  pers : Bool := false
  unit : Nat := 0
  deriving DecidableEq, Repr

/-- Where a number lies in the dictionary map (R11). -/
inductive Blk | dev | stg | grp | con | ses | lch | yard
  deriving DecidableEq, Repr

/-- An object, or a run of `n` like objects at consecutive numbers (`step` apart). -/
structure ObjD where
  blk : Blk
  off : Nat
  n : Nat := 1
  step : Nat := 1
  acc : Acc
  plane : Plane
  level : Nat := 0
  expert : Bool := false
  persist : Bool := false
  group : Nat := 0
  rd : Nat := 15
  wr : Nat := 0
  /-- a record or array: subindex .00 reads the highest subindex (R10) -/
  multi : Bool := false
  subs : List SubD
  deriving DecidableEq, Repr

/-- The instance and offset of an object number in its block: block, instance, sub-instance (group), offset. -/
structure Loc where
  blk : Blk
  inst : Nat := 0
  sub : Nat := 0
  off : Nat
  deriving DecidableEq, Repr

/-- Roles as bits (R91): OPERATOR 1, SERVICE 2, METROLOGY 4, VENDOR 8. -/
def rSV : Nat := 10
def rOSV : Nat := 11
def rSM : Nat := 6
def rSMV : Nat := 14
def rM : Nat := 4
def rAll : Nat := 15

/-! ### Object numbers -/

def oStg (s off : Nat) : Nat := 0x8000 + 0x400 * s + off
def oGrp (s g off : Nat) : Nat := 0x8000 + 0x400 * s + 0x040 + 0x20 * g + off
def oCon (c off : Nat) : Nat := 0x10000 + 0x100 * c + off
def oSes (n off : Nat) : Nat := 0x14000 + 0x40 * n + off
def oLch (n off : Nat) : Nat := 0x4100 + 0x10 * n + off
def oYard (i off : Nat) : Nat := 0x18000 + 0x20 * i + off
def oPoint (n : Nat) : Nat := 0x1C000 + n

/-- Locate an object number in the map (R11). -/
def locate (num : Nat) : Option Loc :=
  if num < 0x4100 then some { blk := .dev, off := num }
  else if num < 0x4300 then some { blk := .lch, inst := (num - 0x4100) / 16, off := (num - 0x4100) % 16 }
  else if num < 0x8000 then none
  else if num < 0x10000 then
    let s := (num - 0x8000) / 0x400
    let o := (num - 0x8000) % 0x400
    if 0x40 ≤ o ∧ o < 0xC0 then some { blk := .grp, inst := s, sub := (o - 0x40) / 0x20, off := (o - 0x40) % 0x20 }
    else some { blk := .stg, inst := s, off := o }
  else if num < 0x14000 then some { blk := .con, inst := (num - 0x10000) / 0x100, off := (num - 0x10000) % 0x100 }
  else if num < 0x18000 then some { blk := .ses, inst := (num - 0x14000) / 0x40, off := (num - 0x14000) % 0x40 }
  else if num < 0x1C000 then some { blk := .yard, inst := (num - 0x18000) / 0x20, off := (num - 0x18000) % 0x20 }
  else if num < 0x20000 then some { blk := .dev, off := num }
  else none

/-- The bytes of a string constant. -/
def sv (s : String) : Bytes := ascii s

/-! ### Time, schedule, guard, dictionary-level and lane objects (R47, R72, R89, R112, R147) -/

/-- SCH.DIGEST with no image in force, SCH.OVERRUN_LAST before any overrun and SCH.PEAK_STEPS before any acceptance read 0: DESIGN CHOICE
(log entry 3), R72 gives them no default. -/
def dict02 : List ObjD := [
  { blk := .dev, off := 0x180, acc := .ro, plane := .c, group := 13, subs := [{ ty := .u32, d := 20000, unit := 1 }] },
  { blk := .dev, off := 0x181, n := 4, acc := .ro, plane := .c, group := 13, subs := [{ ty := .u64 }] },
  { blk := .dev, off := 0x185, acc := .roW1c, plane := .c, group := 13, wr := rSV,
    subs := [{ ty := .u32, d := 0x400, w1c := 0x34 }] },
  { blk := .dev, off := 0x186, n := 2, acc := .ro, plane := .c, group := 13, subs := [{ ty := .u16, unit := 2 }] },
  { blk := .dev, off := 0x188, acc := .rw, plane := .m, group := 13, wr := rSV, subs := [{ ty := .time64, unit := 1 }] },
  { blk := .dev, off := 0x189, acc := .wo, plane := .m, group := 13, wr := rSV,
    subs := [{ ty := .s64, unit := 1, mn := some (-1000000000), mx := some 1000000000 }] },
  { blk := .dev, off := 0x1A0, acc := .roW1c, plane := .c, group := 13, wr := rSV, subs := [{ ty := .u32, w1c := 0x0E }] },
  { blk := .dev, off := 0x1A1, acc := .ro, plane := .m, group := 13, subs := [{ ty := .u32 }] },
  { blk := .dev, off := 0x1A2, acc := .ro, plane := .m, group := 13,
    subs := [{ ty := .oct 32, db := List.replicate 32 0 }] },
  { blk := .dev, off := 0x1A3, acc := .ro, plane := .m, group := 13, subs := [{ ty := .u16, d := 1 }] },
  { blk := .dev, off := 0x1A4, acc := .ro, plane := .m, group := 13, subs := [{ ty := .u32, d := 0xFF }] },
  { blk := .dev, off := 0x1A5, acc := .ro, plane := .m, group := 13, subs := [{ ty := .u32, d := 0xFFFFFFFF }] },
  { blk := .dev, off := 0x1A6, acc := .ro, plane := .m, group := 13, subs := [{ ty := .u32, d := 0xFF }] },
  { blk := .dev, off := 0x1A7, acc := .ro, plane := .m, group := 13, subs := [{ ty := .u32, d := 0xFFFFFFFF }] },
  { blk := .dev, off := 0x1A8, n := 2, acc := .ro, plane := .c, group := 13, multi := true,
    subs := [{ lo := 1, hi := 0x40, ty := .u16, d := 0xFFFF, unit := 3 }] },
  { blk := .dev, off := 0x1AA, acc := .w1c, plane := .c, group := 13, wr := rSV,
    subs := [{ ty := .u64, w1c := 0xFFFFFFFFFFFFFFFF }] },
  { blk := .dev, off := 0x1AB, acc := .ro, plane := .c, group := 13, multi := true, subs := [{ lo := 1, hi := 0x40, ty := .u32 }] },
  { blk := .dev, off := 0x1AC, acc := .ro, plane := .c, group := 13, multi := true,
    subs := [{ lo := 1, hi := 1, ty := .u32 }, { lo := 2, hi := 2, ty := .u8 }, { lo := 3, hi := 3, ty := .u64 }] },
  { blk := .dev, off := 0x1AD, acc := .ro, plane := .m, group := 13, multi := true, subs := [{ lo := 1, hi := 0x40, ty := .u16 }] },
  { blk := .dev, off := 0x1C0, acc := .roW1c, plane := .c, wr := rSV, subs := [{ ty := .u32, w1c := 0x3F }] },
  { blk := .dev, off := 0x1C1, acc := .ro, plane := .c, multi := true, subs := [{ lo := 1, hi := 0x40, ty := .u32 }] },
  { blk := .dev, off := 0x1C2, acc := .ro, plane := .c, subs := [{ ty := .u32 }] },
  { blk := .dev, off := 0x1C3, acc := .ro, plane := .d, subs := [{ ty := .u32 }] },
  { blk := .dev, off := 0x1C4, acc := .ro, plane := .m, subs := [{ ty := .u32 }] },
  { blk := .dev, off := 0x1C5, acc := .ro, plane := .d, subs := [{ ty := .u32 }] },
  { blk := .dev, off := 0x1C6, acc := .ro, plane := .c, multi := true,
    subs := [{ lo := 1, hi := 1, ty := .u8 }, { lo := 2, hi := 2, ty := .u32 }, { lo := 3, hi := 3, ty := .u64 }] },
  { blk := .dev, off := 0x1C7, acc := .ro, plane := .d, subs := [{ ty := .u32 }] },
  { blk := .dev, off := 0x1C8, acc := .ro, plane := .c, subs := [{ ty := .u8 }] } ]

def dict05 : List ObjD := [
  { blk := .dev, off := 0x000, acc := .ro, plane := .m, subs := [{ ty := .u32, d := 0x00484154 }] },
  { blk := .dev, off := 0x001, acc := .ro, plane := .m, subs := [{ ty := .str 16, db := sv "KX-6432" }] },
  { blk := .dev, off := 0x002, acc := .ro, plane := .m, subs := [{ ty := .str 4, db := Config.stepping }] },
  { blk := .dev, off := 0x003, acc := .ro, plane := .m, subs := [{ ty := .oct 16, db := Config.serial }] },
  { blk := .dev, off := 0x004, acc := .ro, plane := .m, multi := true, subs := [{ lo := 1, hi := 4, ty := .u32 }] },
  { blk := .dev, off := 0x005, acc := .ro, plane := .m, subs := [{ ty := .u16, d := 1 }] },
  { blk := .dev, off := 0x006, acc := .ro, plane := .m, subs := [{ ty := .u8 }] },
  { blk := .dev, off := 0x010, acc := .ro, plane := .m, subs := [{ ty := .u64, d := 0x3F }] },
  { blk := .dev, off := 0x011, acc := .rwb, plane := .m, level := 3, persist := true, wr := rAll,
    subs := [{ ty := .u64, mn := some 0, mx := some 0x3F }] },
  { blk := .dev, off := 0x020, acc := .rwb, plane := .m, level := 3, persist := true, wr := rSV, multi := true,
    subs := [{ lo := 1, hi := 0x0D, ty := .u8, mn := some 0, mx := some 1 }] },
  { blk := .dev, off := 0x100, acc := .ro, plane := .d, subs := [{ ty := .u32 }] },
  { blk := .dev, off := 0x101, acc := .ro, plane := .d, subs := [{ ty := .oct 32, db := List.replicate 32 0 }] },
  { blk := .dev, off := 0x102, acc := .ro, plane := .d, subs := [{ ty := .dom 2048 }] },
  { blk := .dev, off := 0x103, acc := .ro, plane := .d, subs := [{ ty := .u32 }] },
  { blk := .dev, off := 0x104, acc := .ro, plane := .m, multi := true, subs := [{ lo := 1, hi := 7, ty := .u16 }] } ]

def dict06 : List ObjD := [
  { blk := .dev, off := 0x200, acc := .ro, plane := .d, multi := true, subs := [{ lo := 1, hi := 0x32, ty := .u8 }] },
  { blk := .dev, off := 0x201, n := 2, acc := .ro, plane := .d, multi := true, subs := [{ lo := 1, hi := 0x32, ty := .u32 }] },
  { blk := .dev, off := 0x203, acc := .ro, plane := .d, multi := true, subs := [{ lo := 1, hi := 0x32, ty := .u16, unit := 1 }] },
  { blk := .dev, off := 0x204, acc := .rwb, plane := .d, level := 3, persist := true, wr := rSV, multi := true,
    subs := [{ lo := 1, hi := 0x32, ty := .u16, d := 0x0A40, mn := some 0, mx := some 0xFFF }] },
  { blk := .dev, off := 0x205, acc := .rwb, plane := .d, level := 3, persist := true, wr := rSV, multi := true,
    subs := [{ lo := 1, hi := 0x30, ty := .u8, mn := some 0, mx := some 3 }] },
  { blk := .dev, off := 0x206, acc := .rwb, plane := .d, level := 3, persist := true, wr := rSV,
    subs := [{ ty := .u8, d := 16, mn := some 1, mx := some 255 }] },
  { blk := .dev, off := 0x207, acc := .rwb, plane := .d, level := 3, persist := true, wr := rSV,
    subs := [{ ty := .u16, d := 50, mn := some 1, mx := some 1000, unit := 4 }] },
  { blk := .dev, off := 0x208, acc := .ro, plane := .d, multi := true, subs := [{ lo := 1, hi := 0x30, ty := .u32 }] },
  { blk := .dev, off := 0x209, n := 2, acc := .ro, plane := .d, multi := true, subs := [{ lo := 1, hi := 0x40, ty := .u32 }] },
  { blk := .dev, off := 0x210, n := 48, acc := .ro, plane := .d, subs := [{ ty := .oct 56, db := List.replicate 56 0 }] } ]

/-! ### Converter and supervision objects (R179 to R181, R202, R203) -/

def q (n : Nat) : Nat := n * 65536

/-- Duties, and scaled quantities without a code of their own here and in dict11 (COOL_CFG.05, HYST), have unit code 0: DESIGN CHOICE (log
entry 60), R93 lists none for them. -/
def dict07 : List ObjD := [
  { blk := .stg, off := 0x000, acc := .ro, plane := .d, group := 1, subs := [{ ty := .q16, unit := 8 }] },
  { blk := .stg, off := 0x001, acc := .rwb, plane := .c, level := 1, expert := true, persist := true, group := 1, wr := rSV,
    subs := [{ ty := .u8, mn := some 0, mx := some 1 }] },
  { blk := .stg, off := 0x002, n := 2, acc := .rwb, plane := .c, level := 1, expert := true, persist := true, group := 1,
    wr := rSV, multi := true,
    subs := [{ lo := 1, hi := 5, ty := .s32 }, { lo := 6, hi := 7, ty := .q16 }, { lo := 8, hi := 8, ty := .q16, unit := 8 },
      { lo := 9, hi := 9, ty := .s32 }, { lo := 10, hi := 10, ty := .q16, mn := some 0, mx := some 6554 },
      { lo := 11, hi := 12, ty := .s32 }] },
  { blk := .stg, off := 0x004, acc := .rwb, plane := .c, level := 1, expert := true, persist := true, group := 1, wr := rSV,
    multi := true, subs := [{ lo := 1, hi := 1, ty := .q16, d := 1311 }, { lo := 2, hi := 2, ty := .q16, d := 64225 }] },
  { blk := .stg, off := 0x005, acc := .rwb, plane := .m, level := 3, persist := true, group := 1, wr := rSV,
    subs := [{ ty := .q16, d := q 800, mn := some (q 50), mx := some (q 2000), unit := 6 }] },
  { blk := .stg, off := 0x006, acc := .rwb, plane := .m, level := 3, persist := true, group := 1, wr := rSV,
    subs := [{ ty := .q16, d := q 100, mn := some (q 5), mx := some (q 5000), unit := 0x13 }] },
  { blk := .stg, off := 0x007, acc := .rwb, plane := .m, level := 3, persist := true, group := 1, wr := rSV,
    subs := [{ ty := .u32, d := 2500, mn := some 200, unit := 0x11 }] },
  { blk := .stg, off := 0x008, acc := .rwb, plane := .d, level := 3, persist := true, group := 1, wr := rSV,
    subs := [{ ty := .u32, unit := 9 }] },
  { blk := .stg, off := 0x009, acc := .ro, plane := .c, group := 2, subs := [{ ty := .u32 }] },
  { blk := .stg, off := 0x00A, acc := .ro, plane := .c, group := 1, multi := true, subs := [{ lo := 1, hi := 4, ty := .u32 }] },
  { blk := .stg, off := 0x00B, acc := .ro, plane := .d, group := 1, subs := [{ ty := .u32 }] },
  { blk := .stg, off := 0x00C, acc := .wo, plane := .d, group := 1, wr := rSV, subs := [{ ty := .u32 }] },
  { blk := .stg, off := 0x00D, acc := .ro, plane := .d, group := 1, multi := true, subs := [{ lo := 1, hi := 0x20, ty := .u32 }] },
  { blk := .stg, off := 0x00E, acc := .ro, plane := .c, group := 1, multi := true,
    subs := [{ lo := 1, hi := 0x20, ty := .q16, unit := 8 }] },
  { blk := .stg, off := 0x00F, acc := .ro, plane := .c, group := 1, multi := true, subs := [{ lo := 1, hi := 0x20, ty := .q16 }] },
  { blk := .stg, off := 0x010, acc := .rwb, plane := .c, level := 3, persist := true, group := 1, wr := rSV,
    subs := [{ ty := .bool }] },
  { blk := .stg, off := 0x011, acc := .rwb, plane := .c, level := 2, persist := true, group := 1, wr := rSV, multi := true,
    subs := [{ lo := 1, hi := 1, ty := .u8, d := 30, mn := some 5, mx := some 100, unit := 14 },
      { lo := 2, hi := 2, ty := .u8, d := 60, mn := some 5, mx := some 100, unit := 14 },
      { lo := 3, hi := 3, ty := .u16, d := 20, mn := some 1, mx := some 10000, unit := 4 },
      { lo := 4, hi := 4, ty := .u8, d := 2, mn := some 1, mx := some 32 }] },
  { blk := .stg, off := 0x012, n := 3, acc := .ro, plane := .c, group := 1, multi := true,
    subs := [{ lo := 1, hi := 0x20, ty := .q16 }] },
  { blk := .stg, off := 0x015, acc := .ro, plane := .c, group := 1, subs := [{ ty := .bool }] },
  { blk := .grp, off := 0x00, acc := .ro, plane := .d, group := 1, multi := true,
    subs := [{ lo := 1, hi := 1, ty := .q16, unit := 6 }, { lo := 2, hi := 2, ty := .q16, unit := 8 },
      { lo := 3, hi := 3, ty := .q16, unit := 11 }, { lo := 4, hi := 4, ty := .q16 }, { lo := 5, hi := 5, ty := .q16, d := 65536 },
      { lo := 6, hi := 6, ty := .q16 }, { lo := 7, hi := 8, ty := .u32 }, { lo := 9, hi := 9, ty := .q16, unit := 8 },
      { lo := 10, hi := 10, ty := .u8 }] },
  { blk := .grp, off := 0x01, acc := .ro, plane := .c, group := 1, subs := [{ ty := .q16, unit := 8 }] },
  { blk := .grp, off := 0x02, acc := .ro, plane := .c, group := 1, subs := [{ ty := .u8 }] },
  { blk := .grp, off := 0x03, acc := .ro, plane := .c, group := 1, subs := [{ ty := .q16, unit := 6 }] },
  { blk := .grp, off := 0x04, n := 2, acc := .rwb, plane := .c, level := 1, expert := true, persist := true, group := 1,
    wr := rSV, multi := true,
    subs := [{ lo := 1, hi := 2, ty := .s32 }, { lo := 3, hi := 4, ty := .q16 }, { lo := 5, hi := 6, ty := .s32 },
      { lo := 7, hi := 8, ty := .q16 }, { lo := 9, hi := 10, ty := .s32 }, { lo := 11, hi := 12, ty := .q16 },
      { lo := 13, hi := 14, ty := .s32 }, { lo := 15, hi := 16, ty := .q16 }, { lo := 17, hi := 18, ty := .s32 },
      { lo := 19, hi := 20, ty := .q16 }, { lo := 21, hi := 22, ty := .s32 }, { lo := 23, hi := 24, ty := .q16 },
      { lo := 25, hi := 25, ty := .q16, mn := some 1, unit := 8 }] },
  { blk := .grp, off := 0x06, acc := .rwb, plane := .m, level := 3, persist := true, group := 1, wr := rSV, multi := true,
    subs := [{ lo := 1, hi := 1, ty := .u32, d := 200, unit := 0x11 }, { lo := 2, hi := 2, ty := .u32, d := 100, unit := 0x11 },
      { lo := 3, hi := 3, ty := .q16, d := q 2000, unit := 0x12 },
      { lo := 4, hi := 4, ty := .q16, d := q 800, mn := some (q 50), mx := some (q 2000), unit := 6 },
      { lo := 5, hi := 5, ty := .u8, d := 5, mn := some 1, mx := some 50, unit := 14 }] },
  { blk := .grp, off := 0x07, acc := .rwb, plane := .c, level := 3, persist := true, group := 1, wr := rSV,
    subs := [{ ty := .q16, d := q 20, mn := some 32768, mx := some (q 500) }] },
  { blk := .grp, off := 0x08, acc := .rwb, plane := .c, level := 3, expert := true, persist := true, group := 1, wr := rSV,
    subs := [{ ty := .q16, unit := 8 }] },
  { blk := .grp, off := 0x09, acc := .rwb, plane := .c, level := 2, persist := true, group := 1, wr := rSV, multi := true,
    subs := [{ lo := 1, hi := 3, ty := .q16, unit := 8 }, { lo := 4, hi := 4, ty := .u32, mn := some 1 }] },
  { blk := .grp, off := 0x0A, acc := .ro, plane := .c, group := 1, subs := [{ ty := .q16, unit := 8 }] },
  { blk := .grp, off := 0x0B, acc := .ro, plane := .c, group := 1, subs := [{ ty := .bool }] },
  { blk := .grp, off := 0x0C, acc := .ro, plane := .c, group := 1, subs := [{ ty := .q16, unit := 8 }] },
  { blk := .grp, off := 0x0D, acc := .ro, plane := .c, group := 1, subs := [{ ty := .q16, unit := 6 }] },
  { blk := .grp, off := 0x0E, acc := .ro, plane := .c, group := 1, subs := [{ ty := .q16, unit := 8 }] },
  { blk := .grp, off := 0x0F, acc := .ro, plane := .c, group := 1, subs := [{ ty := .q16, unit := 11 }] },
  { blk := .grp, off := 0x10, n := 3, acc := .ro, plane := .c, group := 1, subs := [{ ty := .q16, unit := 8 }] },
  { blk := .grp, off := 0x13, acc := .ro, plane := .c, group := 1, multi := true, subs := [{ lo := 1, hi := 6, ty := .q16, unit := 8 }] },
  { blk := .grp, off := 0x14, acc := .ro, plane := .c, group := 1, subs := [{ ty := .q16, unit := 8 }] },
  { blk := .grp, off := 0x1B, n := 2, acc := .rwb, plane := .c, level := 1, expert := true, persist := true, group := 1,
    wr := rSV, multi := true,
    subs := [{ lo := 1, hi := 2, ty := .s32 }, { lo := 3, hi := 4, ty := .q16 }, { lo := 5, hi := 7, ty := .s32 },
      { lo := 8, hi := 9, ty := .q16 }, { lo := 10, hi := 12, ty := .s32 }, { lo := 13, hi := 14, ty := .q16 },
      { lo := 15, hi := 17, ty := .s32 }, { lo := 18, hi := 19, ty := .q16 }, { lo := 20, hi := 22, ty := .s32 },
      { lo := 23, hi := 24, ty := .q16 }, { lo := 25, hi := 27, ty := .s32 }, { lo := 28, hi := 29, ty := .q16 },
      { lo := 30, hi := 30, ty := .s32 }, { lo := 31, hi := 31, ty := .q16, mn := some 1, unit := 8 }] } ]

def dict08 : List ObjD := [
  { blk := .stg, off := 0x100, acc := .rwb, plane := .c, level := 3, persist := true, group := 2, wr := rSV, multi := true,
    subs := [{ lo := 1, hi := 1, ty := .u8, d := 15, mn := some 5, mx := some 50, unit := 14 },
      { lo := 2, hi := 2, ty := .u8, d := 5, mn := some 1, mx := some 20, unit := 14 },
      { lo := 3, hi := 3, ty := .q16, d := q 5, mn := some 6554, mx := some (q 1000), unit := 0x14 },
      { lo := 4, hi := 4, ty := .bool, d := 1 }] },
  { blk := .stg, off := 0x101, acc := .rwb, plane := .c, level := 3, expert := true, group := 2, wr := rSV, subs := [{ ty := .u32 }] },
  { blk := .stg, off := 0x102, acc := .rwb, plane := .c, level := 1, group := 2, wr := rSV, multi := true,
    subs := [{ lo := 1, hi := 1, ty := .u32 }, { lo := 2, hi := 2, ty := .u8 }] },
  { blk := .stg, off := 0x103, acc := .ro, plane := .c, group := 2, multi := true,
    subs := [{ lo := 1, hi := 3, ty := .u32 }, { lo := 4, hi := 4, ty := .u8 }] },
  { blk := .stg, off := 0x104, acc := .ro, plane := .c, group := 2, multi := true, subs := [{ lo := 1, hi := 4, ty := .q16, unit := 8 }] },
  { blk := .stg, off := 0x105, acc := .roW1c, plane := .d, group := 2, wr := rSV, subs := [{ ty := .u32, w1c := 4 }] },
  { blk := .stg, off := 0x106, acc := .wo, plane := .d, group := 2, wr := rSV, subs := [{ ty := .u8 }] },
  { blk := .stg, off := 0x107, acc := .ro, plane := .c, group := 2, multi := true,
    subs := [{ lo := 1, hi := 0x20, ty := .q16, unit := 8 }] },
  { blk := .stg, off := 0x120, n := 32, acc := .ro, plane := .c, group := 2, multi := true,
    subs := [{ lo := 1, hi := 2, ty := .q16, unit := 8 }, { lo := 3, hi := 3, ty := .u8 }, { lo := 4, hi := 4, ty := .s64 },
      { lo := 5, hi := 5, ty := .u64 }, { lo := 6, hi := 7, ty := .s64 }, { lo := 8, hi := 8, ty := .u64 },
      { lo := 9, hi := 9, ty := .u32 }] },
  { blk := .stg, off := 0x140, n := 32, acc := .ro, plane := .c, group := 2, multi := true,
    subs := [{ lo := 1, hi := 1, ty := .s32 }, { lo := 2, hi := 2, ty := .q16, unit := 8 }, { lo := 3, hi := 3, ty := .s32 },
      { lo := 4, hi := 4, ty := .bool }] },
  { blk := .grp, off := 0x15, acc := .ro, plane := .d, group := 2, subs := [{ ty := .q16, unit := 8 }] } ]

/-! ### Allocation, energy budget and sequencer objects (R228, R229, R249, R250) -/

/-- The subindices of CON.EB_CFG (R249); a tie's .02 is reserved (R250). -/
def ebCfgSubs (tie : Bool) : List SubD :=
  [{ lo := 1, hi := 1, ty := .q16, mn := some 0, unit := 0x12 },
   { lo := 2, hi := 2, ty := .q16, mn := some 0, mx := if tie then some 0 else none, unit := 0x12 },
   { lo := 3, hi := 3, ty := .q16, mn := some 0, unit := 0x12 },
   { lo := 4, hi := 4, ty := .q16, d := q 20, mn := some 6554, mx := some (q 100), unit := 0x10 },
   { lo := 5, hi := 5, ty := .q16, d := q 20, mn := some (q 1), mx := some (q 100), unit := 6 },
   { lo := 6, hi := 6, ty := .q16, d := q 60, mn := some (q 10), mx := some (q 120), unit := 6 },
   { lo := 7, hi := 7, ty := .u16, d := 1000, mn := some 100, mx := some 5000, unit := 4 },
   { lo := 8, hi := 8, ty := .q16, d := q 50, mn := some (q 1), mx := some (q 500), unit := 8 },
   { lo := 9, hi := 9, ty := .u16, d := 5000, mn := some 100, mx := some 60000, unit := 4 },
   { lo := 10, hi := 10, ty := .u16, d := 100, mn := some 10, mx := some 1000, unit := 4 },
   { lo := 11, hi := 11, ty := .u16, d := 20, mn := some 5, mx := some 1000, unit := 4 },
   { lo := 12, hi := 12, ty := .u16, d := 2000, mn := some 100, mx := some 10000, unit := 4 }]

def ebSubs : List SubD :=
  [{ lo := 1, hi := 2, ty := .q16, unit := 0x10 }, { lo := 3, hi := 3, ty := .q16, unit := 6 }, { lo := 4, hi := 4, ty := .u32 },
   { lo := 5, hi := 5, ty := .q16, unit := 6 }]

def seqSubs : List SubD :=
  [{ lo := 1, hi := 2, ty := .u8 }, { lo := 3, hi := 3, ty := .u32, unit := 4 }, { lo := 4, hi := 4, ty := .u32 }]

def dict09 : List ObjD := [
  { blk := .dev, off := 0x1000, acc := .rwb, plane := .c, level := 2, persist := true, group := 3, wr := rOSV,
    subs := [{ ty := .u32, mn := some 0, mx := some 96000, unit := 11 }] },
  { blk := .dev, off := 0x1001, acc := .rwb, plane := .c, level := 3, persist := true, group := 3, wr := rSV,
    subs := [{ ty := .u32, mn := some 0, mx := some 96000, unit := 11 }] },
  { blk := .dev, off := 0x1002, acc := .rwb, plane := .c, level := 3, persist := true, group := 3, wr := rOSV,
    subs := [{ ty := .u32, mn := some 0, mx := some 96000, unit := 11 }] },
  { blk := .dev, off := 0x1003, acc := .rwb, plane := .c, level := 3, persist := true, group := 3, wr := rSV,
    subs := [{ ty := .u32, d := 200, mn := some 0, mx := some 10000, unit := 11 }] },
  { blk := .dev, off := 0x1004, acc := .rwb, plane := .c, level := 3, expert := true, persist := true, group := 3, wr := rSV,
    subs := [{ ty := .q16, d := 62915, mn := some 52429, mx := some 65536, unit := 0x17 }] },
  { blk := .dev, off := 0x1005, acc := .rwb, plane := .c, level := 3, persist := true, group := 3, wr := rSV, multi := true,
    subs := [{ lo := 1, hi := 1, ty := .u16, d := 8, mn := some 1, mx := some 1000 },
      { lo := 2, hi := 2, ty := .u16, d := 4, mn := some 1, mx := some 1000 },
      { lo := 3, hi := 3, ty := .u16, d := 2, mn := some 1, mx := some 1000 },
      { lo := 4, hi := 4, ty := .u16, d := 1, mn := some 1, mx := some 1000 }] },
  { blk := .dev, off := 0x1006, acc := .rwb, plane := .c, level := 3, persist := true, group := 3, wr := rSV, multi := true,
    subs := [{ lo := 1, hi := 1, ty := .u8, mn := some 0, mx := some 2 }, { lo := 2, hi := 2, ty := .u32, unit := 11 },
      { lo := 3, hi := 3, ty := .u8, mn := some 0, mx := some 2 }, { lo := 4, hi := 4, ty := .u32, unit := 11 },
      { lo := 5, hi := 5, ty := .u8, mn := some 0, mx := some 2 }, { lo := 6, hi := 6, ty := .u32, unit := 11 },
      { lo := 7, hi := 7, ty := .u8, mn := some 0, mx := some 2 }, { lo := 8, hi := 8, ty := .u32, unit := 11 }] },
  { blk := .dev, off := 0x1007, acc := .rwb, plane := .c, level := 3, persist := true, group := 3, wr := rSV, multi := true,
    subs := [{ lo := 1, hi := 1, ty := .u8, d := 20, unit := 14 }, { lo := 2, hi := 2, ty := .u8, d := 90, unit := 14 },
      { lo := 3, hi := 4, ty := .u32, unit := 11 }, { lo := 5, hi := 5, ty := .q16, d := q 800, unit := 6 },
      { lo := 6, hi := 6, ty := .u32 }] },
  { blk := .dev, off := 0x1008, acc := .rw, plane := .m, group := 3, wr := rOSV, multi := true,
    subs := [{ lo := 1, hi := 1, ty := .q16, mn := some 0, mx := some (q 100), unit := 14 },
      { lo := 2, hi := 2, ty := .u32, ro := true, unit := 4 }] },
  { blk := .dev, off := 0x1009, acc := .rwb, plane := .c, level := 2, persist := true, group := 3, wr := rSV,
    subs := [{ ty := .u8, d := 50, mn := some 1, mx := some 100, unit := 14 }] },
  { blk := .dev, off := 0x100A, acc := .rwb, plane := .c, level := 3, expert := true, persist := true, group := 3, wr := rSV,
    multi := true,
    subs := [{ lo := 1, hi := 1, ty := .u16, d := 10, mn := some 1, mx := some 3600, unit := 5 },
      { lo := 2, hi := 2, ty := .u16, d := 20, mn := some 5, mx := some 1000, unit := 4 },
      { lo := 3, hi := 3, ty := .u8, d := 4, mn := some 1, mx := some 16 }] },
  { blk := .dev, off := 0x100B, acc := .rwb, plane := .c, level := 3, persist := true, group := 3, wr := rSV,
    subs := [{ ty := .u8, mn := some 0, mx := some 1 }] },
  { blk := .dev, off := 0x100C, n := 2, acc := .rwb, plane := .c, level := 3, persist := true, group := 3, wr := rSV,
    subs := [{ ty := .dom 8200 }] },
  { blk := .dev, off := 0x100E, n := 2, acc := .ro, plane := .d, group := 3, multi := true,
    subs := [{ lo := 1, hi := 2, ty := .s32, unit := 11 }, { lo := 3, hi := 3, ty := .s64 }, { lo := 4, hi := 5, ty := .u32, unit := 4 }] },
  { blk := .dev, off := 0x1010, acc := .ro, plane := .c, group := 3, multi := true,
    subs := [{ lo := 1, hi := 1, ty := .u32, d := 96000, unit := 11 }, { lo := 2, hi := 2, ty := .u32, unit := 11 },
      { lo := 3, hi := 3, ty := .u32, d := 96000, unit := 11 }] },
  { blk := .dev, off := 0x1011, acc := .ro, plane := .c, group := 3, multi := true,
    subs := [{ lo := 1, hi := 1, ty := .q16 }, { lo := 2, hi := 5, ty := .u32, unit := 11 }, { lo := 6, hi := 7, ty := .u8 },
      { lo := 8, hi := 8, ty := .u64 }] },
  { blk := .dev, off := 0x1012, acc := .roW1c, plane := .c, group := 3, wr := rSV, subs := [{ ty := .u32, w1c := 0xC0 }] },
  { blk := .dev, off := 0x1013, n := 4, step := 3, acc := .rwb, plane := .c, level := 3, persist := true, group := 4, wr := rSV,
    multi := true, subs := ebCfgSubs true },
  { blk := .dev, off := 0x1014, n := 4, step := 3, acc := .ro, plane := .c, group := 4, multi := true, subs := ebSubs },
  { blk := .dev, off := 0x1015, n := 4, step := 3, acc := .ro, plane := .c, group := 4, multi := true, subs := seqSubs },
  { blk := .dev, off := 0x101F, acc := .wo, plane := .c, group := 4, wr := rSV, subs := [{ ty := .u8 }] },
  { blk := .con, off := 0x020, acc := .ro, plane := .m, group := 3, multi := true,
    subs := [{ lo := 1, hi := 2, ty := .u8 }, { lo := 3, hi := 3, ty := .q16, unit := 8 }, { lo := 4, hi := 4, ty := .q16, unit := 11 },
      { lo := 5, hi := 5, ty := .q16, unit := 8 }, { lo := 6, hi := 7, ty := .q16 }, { lo := 8, hi := 8, ty := .time64, unit := 1 },
      { lo := 9, hi := 9, ty := .q16, unit := 6 }] },
  { blk := .con, off := 0x021, acc := .ro, plane := .d, group := 3, subs := [{ ty := .q16, unit := 8 }] },
  { blk := .con, off := 0x022, acc := .ro, plane := .c, group := 3, multi := true,
    subs := [{ lo := 1, hi := 1, ty := .q16, unit := 8 }, { lo := 2, hi := 2, ty := .u32, unit := 11 }, { lo := 3, hi := 3, ty := .u8 },
      { lo := 4, hi := 4, ty := .q16, unit := 8 }, { lo := 5, hi := 5, ty := .q16 }, { lo := 6, hi := 6, ty := .u8 }] },
  { blk := .con, off := 0x023, n := 2, acc := .ro, plane := .c, group := 3, subs := [{ ty := .q16, unit := 8 }] },
  { blk := .con, off := 0x025, acc := .ro, plane := .d, group := 3, subs := [{ ty := .q16, unit := 8 }] },
  { blk := .grp, off := 0x16, acc := .ro, plane := .c, group := 3, subs := [{ ty := .u8, d := 0xFF }] },
  { blk := .grp, off := 0x17, acc := .ro, plane := .d, group := 3, subs := [{ ty := .u8, d := 0xFF }] } ]

def dict10 : List ObjD := [
  { blk := .con, off := 0x030, acc := .rwb, plane := .c, level := 3, persist := true, group := 4, wr := rSV, multi := true,
    subs := ebCfgSubs false },
  { blk := .con, off := 0x031, acc := .ro, plane := .c, group := 4, multi := true, subs := ebSubs },
  { blk := .con, off := 0x032, acc := .ro, plane := .c, group := 4, multi := true, subs := seqSubs },
  { blk := .con, off := 0x033, acc := .ro, plane := .c, group := 4, subs := [{ ty := .u8 }] },
  { blk := .con, off := 0x034, acc := .ro, plane := .m, group := 4, multi := true, subs := [{ lo := 1, hi := 1, ty := .u8 }] },
  { blk := .con, off := 0x035, acc := .wo, plane := .c, group := 4, wr := rSV, subs := [{ ty := .u8 }] },
  { blk := .con, off := 0x036, acc := .ro, plane := .c, group := 4, subs := [{ ty := .bool }] },
  { blk := .grp, off := 0x18, acc := .rwb, plane := .c, level := 3, persist := true, group := 4, wr := rSV, multi := true,
    subs := [{ lo := 1, hi := 2, ty := .q16, mn := some 0, unit := 0x12 },
      { lo := 3, hi := 3, ty := .u16, d := 5000, mn := some 100, mx := some 60000, unit := 4 }] },
  { blk := .grp, off := 0x19, acc := .ro, plane := .c, group := 4, multi := true,
    subs := [{ lo := 1, hi := 1, ty := .u8 }, { lo := 2, hi := 2, ty := .q16, unit := 6 }] },
  { blk := .grp, off := 0x1A, acc := .ro, plane := .c, group := 4, subs := [{ ty := .bool }] },
  { blk := .stg, off := 0x180, acc := .wo, plane := .c, group := 4, wr := rSV, subs := [{ ty := .u8 }] } ]

/-! ### Thermal and load channel objects (R267 to R269, R283 to R285) -/

def thermSubs (w t s h st ss fl : Nat) (die : Bool) : List SubD :=
  [{ lo := 1, hi := 1, ty := .s16, d := w, unit := 13 }, { lo := 2, hi := 2, ty := .s16, d := t, unit := 13 },
   { lo := 3, hi := 3, ty := .s16, d := s, unit := 13 }, { lo := 4, hi := 4, ty := .u16, d := h, mn := some 1, mx := some 200 }] ++
  (if die then [{ lo := 5, hi := 7, ty := .u8, mn := some 1, mx := some 0 }]
   else [{ lo := 5, hi := 5, ty := .u8, d := st, mn := some 1, mx := some 50, unit := 14 },
     { lo := 6, hi := 6, ty := .u8, d := ss, mn := some 1, mx := some 60, unit := 5 },
     { lo := 7, hi := 7, ty := .u8, d := fl, mn := some 0, mx := some 90, unit := 14 }])

def thermClass (k : Nat) (subs : List SubD) : ObjD :=
  { blk := .dev, off := 0x280 + k, acc := .rwb, plane := .c, level := 4, persist := true, group := 5, wr := rSV, multi := true, subs := subs }

def dict11 : List ObjD := [
  thermClass 0 (thermSubs 800 900 1050 50 10 2 10 false),
  thermClass 1 (thermSubs 550 600 700 30 10 2 10 false),
  thermClass 2 (thermSubs 850 950 1100 50 10 2 10 false),
  thermClass 3 (thermSubs 1100 1180 1250 50 0 0 0 true),
  { blk := .dev, off := 0x284, acc := .ro, plane := .d, group := 5, multi := true, subs := [{ lo := 1, hi := 4, ty := .s16, unit := 13 }] },
  { blk := .dev, off := 0x285, acc := .ro, plane := .d, group := 5, multi := true,
    subs := [{ lo := 1, hi := 4, ty := .u8 }, { lo := 5, hi := 5, ty := .bool, pers := true }] },
  { blk := .dev, off := 0x286, acc := .wo, plane := .d, level := 3, group := 5, wr := rSV, subs := [{ ty := .u8 }] },
  { blk := .con, off := 0x040, acc := .ro, plane := .c, group := 5, multi := true, subs := [{ lo := 1, hi := 6, ty := .u8 }] },
  { blk := .con, off := 0x041, acc := .ro, plane := .c, group := 5, multi := true,
    subs := [{ lo := 1, hi := 2, ty := .q16, d := q 100, unit := 14 }, { lo := 3, hi := 3, ty := .u8, pers := true }] },
  { blk := .con, off := 0x042, acc := .ro, plane := .d, group := 5, subs := [{ ty := .u8 }] },
  { blk := .con, off := 0x043, acc := .ro, plane := .d, group := 5, subs := [{ ty := .q16, unit := 8 }] },
  { blk := .con, off := 0x044, acc := .rwb, plane := .c, level := 4, persist := true, group := 5, wr := rSV, multi := true,
    subs := [{ lo := 1, hi := 1, ty := .s16, d := 450, unit := 13 }, { lo := 2, hi := 2, ty := .s16, d := 350, unit := 13 },
      { lo := 3, hi := 3, ty := .u8, d := 20, mn := some 0, mx := some 100, unit := 14 }, { lo := 4, hi := 4, ty := .u16, d := 60, unit := 5 },
      { lo := 5, hi := 5, ty := .u16, d := 500 }] },
  { blk := .con, off := 0x045, acc := .rwb, plane := .c, level := 4, expert := true, persist := true, group := 5, wr := rSV, multi := true,
    subs := [{ lo := 1, hi := 1, ty := .s32, d := 10 * 2 ^ 24 }, { lo := 2, hi := 2, ty := .s32, d := 2 ^ 23 },
      { lo := 3, hi := 3, ty := .q16, unit := 14 }, { lo := 4, hi := 4, ty := .q16, d := q 100, unit := 14 }, { lo := 5, hi := 5, ty := .s32, d := 10 * 2 ^ 24 }, { lo := 6, hi := 6, ty := .s32, d := 2 ^ 23 },
      { lo := 7, hi := 7, ty := .q16, unit := 14 }, { lo := 8, hi := 8, ty := .q16, d := q 100, unit := 14 },
      { lo := 0x19, hi := 0x19, ty := .q16, d := q 10, unit := 14 }] },
  { blk := .con, off := 0x046, acc := .ro, plane := .d, group := 5, subs := [{ ty := .q16, unit := 14 }] },
  { blk := .con, off := 0x047, acc := .ro, plane := .c, group := 5, multi := true, subs := [{ lo := 1, hi := 2, ty := .q16, unit := 14 }] },
  { blk := .con, off := 0x048, acc := .wo, plane := .c, level := 3, group := 5, wr := rSV, subs := [{ ty := .u8 }] },
  { blk := .stg, off := 0x1C0, acc := .ro, plane := .c, group := 5, multi := true, subs := [{ lo := 1, hi := 8, ty := .u8 }] },
  { blk := .stg, off := 0x1C1, acc := .ro, plane := .c, group := 5, multi := true,
    subs := [{ lo := 1, hi := 1, ty := .q16, d := q 100, unit := 14 }, { lo := 2, hi := 2, ty := .bool, pers := true }] },
  { blk := .stg, off := 0x1C2, acc := .ro, plane := .d, group := 5, subs := [{ ty := .u8 }] },
  { blk := .stg, off := 0x1C3, acc := .wo, plane := .c, level := 3, group := 5, wr := rSV, subs := [{ ty := .u8 }] } ]

def dict12 : List ObjD := [
  { blk := .dev, off := 0x4000, acc := .ro, plane := .d, group := 6, multi := true, subs := [{ lo := 1, hi := 4, ty := .u16, unit := 7 }] },
  { blk := .dev, off := 0x4001, acc := .ro, plane := .d, group := 6, multi := true, subs := [{ lo := 1, hi := 4, ty := .u8 }] },
  { blk := .dev, off := 0x4002, acc := .rwb, plane := .m, level := 3, persist := true, group := 6, wr := rSV, subs := [{ ty := .u32 }] },
  { blk := .dev, off := 0x4003, acc := .rwb, plane := .d, level := 3, persist := true, group := 6, wr := rSV,
    subs := [{ ty := .u16, d := 500, mn := some 100, mx := some 5000, unit := 4 }] },
  { blk := .lch, off := 0, acc := .rwb, plane := .m, level := 1, group := 6, wr := rOSV, subs := [{ ty := .bool }] },
  { blk := .lch, off := 1, acc := .roW1c, plane := .d, group := 6, wr := rSV, subs := [{ ty := .u16, w1c := 0x40 }] },
  { blk := .lch, off := 2, acc := .rwb, plane := .d, level := 3, persist := true, group := 6, wr := rSV, multi := true,
    subs := [{ lo := 1, hi := 1, ty := .u8, d := 20, mn := some 0, mx := some 50, unit := 4 },
      { lo := 2, hi := 2, ty := .u8, d := 3, mn := some 0, mx := some 15 },
      { lo := 3, hi := 3, ty := .u16, d := 1000, mn := some 10, mx := some 60000, unit := 4 }, { lo := 4, hi := 4, ty := .bool, d := 1 }] },
  { blk := .lch, off := 3, acc := .ro, plane := .d, group := 6, subs := [{ ty := .u8 }] },
  { blk := .lch, off := 4, acc := .wo, plane := .d, level := 1, group := 6, wr := rSV, subs := [{ ty := .u8 }] },
  { blk := .lch, off := 5, n := 2, acc := .ro, plane := .d, group := 6, subs := [{ ty := .u32 }] } ]

/-! ### Session objects (R306 to R308) -/

def sesObj (off : Nat) (subs : List SubD) (multi : Bool := false) : ObjD :=
  { blk := .ses, off := off, acc := .ro, plane := .m, group := 7, multi := multi, subs := subs }

def dict13 : List ObjD := [
  { blk := .dev, off := 0x300, acc := .rw, plane := .m, persist := true, group := 7, wr := rSV, subs := [{ ty := .dom 32768 }] },
  { blk := .dev, off := 0x301, acc := .ro, plane := .m, group := 7, multi := true, subs := [{ lo := 1, hi := 2, ty := .u16 }] },
  { blk := .dev, off := 0x310, n := 4, step := 2, acc := .ro, plane := .m, group := 7, subs := [{ ty := .dom 1024 }] },
  { blk := .dev, off := 0x311, n := 4, step := 2, acc := .rw, plane := .m, persist := true, group := 7, wr := rSV, subs := [{ ty := .dom 8192 }] },
  { blk := .dev, off := 0x318, acc := .wo, plane := .m, group := 7, wr := rSV, subs := [{ ty := .u8 }] },
  { blk := .con, off := 0x050, acc := .rw, plane := .m, persist := true, group := 7, wr := rSV, multi := true,
    subs := [{ lo := 1, hi := 1, ty := .u8, d := 2, mn := some 0, mx := some 3 },
      { lo := 2, hi := 2, ty := .q16, d := q 10, mn := some (q 1), mx := some (q 100), unit := 8 },
      { lo := 3, hi := 3, ty := .q16, d := q 1000, mn := some (q 100), mx := some (q 1500), unit := 6 },
      { lo := 4, hi := 4, ty := .q16, d := q 500, mn := some (q 100), mx := some (q 1500), unit := 6 },
      { lo := 5, hi := 5, ty := .u16, d := 60, mn := some 5, mx := some 600, unit := 5 },
      { lo := 6, hi := 6, ty := .u16, d := 2000, mn := some 500, mx := some 10000, unit := 4 },
      { lo := 7, hi := 7, ty := .u8, d := 3, mn := some 0, mx := some 7 }, { lo := 8, hi := 8, ty := .u8, d := 7, mn := some 0, mx := some 7 },
      { lo := 9, hi := 9, ty := .u16, d := 600, mn := some 10, mx := some 3600, unit := 5 },
      { lo := 10, hi := 10, ty := .u16, d := 500, mn := some 100, mx := some 10000, unit := 4 },
      { lo := 11, hi := 11, ty := .u8, mn := some 0, mx := some 3 }] },
  { blk := .con, off := 0x051, acc := .ro, plane := .m, group := 7, subs := [{ ty := .u16, d := 0xFFFF }] },
  { blk := .con, off := 0x052, acc := .ro, plane := .m, group := 7, subs := [{ ty := .oct 6, db := List.replicate 6 0 }] },
  { blk := .con, off := 0x053, acc := .ro, plane := .d, group := 7, multi := true,
    subs := [{ lo := 1, hi := 3, ty := .u8 }, { lo := 4, hi := 4, ty := .u16, unit := 4 }] },
  sesObj 0x00 [{ ty := .u8 }],
  sesObj 0x01 [{ ty := .u8, d := 0xFF }],
  sesObj 0x02 [{ ty := .u8 }],
  sesObj 0x03 [{ ty := .oct 8, db := List.replicate 8 0 }],
  sesObj 0x04 [{ ty := .oct 255 }],
  sesObj 0x05 [{ lo := 1, hi := 1, ty := .u8 }, { lo := 2, hi := 2, ty := .str 32 }] true,
  { sesObj 0x06 [{ ty := .u8, mn := some 0, mx := some 2 }] with acc := .rw, wr := rOSV },
  { sesObj 0x07 [{ ty := .u8, d := 0xFF }] with acc := .rw, wr := rOSV },
  { sesObj 0x08 [{ ty := .u8 }] with acc := .wo, wr := rOSV },
  { sesObj 0x09 [{ ty := .u8, mn := some 0, mx := some 1 }] with acc := .rw, wr := rOSV },
  sesObj 0x0A [{ lo := 1, hi := 1, ty := .q16, unit := 6 }, { lo := 2, hi := 2, ty := .q16, unit := 8 }, { lo := 3, hi := 3, ty := .q16, unit := 11 },
    { lo := 4, hi := 4, ty := .q16, unit := 8 }, { lo := 5, hi := 5, ty := .q16, unit := 11 }, { lo := 6, hi := 6, ty := .u8, d := 0xFF, unit := 14 }] true,
  sesObj 0x0B [{ lo := 1, hi := 2, ty := .time64, unit := 1 }, { lo := 3, hi := 3, ty := .lsec, unit := 5 }] true,
  sesObj 0x0C [{ lo := 1, hi := 2, ty := .u8 }] true,
  sesObj 0x0D [{ ty := .u32 }],
  sesObj 0x0E [{ lo := 1, hi := 2, ty := .u16 }, { lo := 3, hi := 3, ty := .u8 }, { lo := 4, hi := 4, ty := .bool }] true ]

/-! ### Metering and billing objects (R330, R359) -/

def legalObj (off n level : Nat) (subs : List SubD) (multi : Bool := true) : ObjD :=
  { blk := .dev, off := off, n := n, acc := .rwb, plane := .d, level := level, wr := rM, multi := multi, subs := subs }

def dict14 : List ObjD := [
  { blk := .dev, off := 0x2000, acc := .roW1c, plane := .d, wr := rSMV, subs := [{ ty := .u32, w1c := 0x7000 }] },
  legalObj 0x2001 2 5 [{ lo := 1, hi := 1, ty := .u8, d := 50, mn := some 50, mx := some 60, unit := 0x11 },
    { lo := 2, hi := 2, ty := .q16, d := q 230, mn := some (q 50), mx := some (q 32000), unit := 6 },
    { lo := 3, hi := 3, ty := .q16, d := q 100, mn := some (q 1), mx := some (q 30000), unit := 8 },
    { lo := 4, hi := 4, ty := .u8, d := 20, mn := some 5, mx := some 50, unit := 14 }],
  { blk := .dev, off := 0x2004, n := 2, acc := .ro, plane := .d, multi := true,
    subs := [{ lo := 1, hi := 4, ty := .q16, unit := 6 }, { lo := 5, hi := 8, ty := .q16, unit := 8 }, { lo := 9, hi := 9, ty := .q16, unit := 0x11 },
      { lo := 10, hi := 10, ty := .s32, unit := 11 }] },
  { blk := .dev, off := 0x2008, n := 4, acc := .rwb, plane := .d, level := 5, persist := true, group := 8, wr := rSM, multi := true,
    subs := [{ lo := 1, hi := 1, ty := .u8, d := 64, mn := some 0, mx := some 65 }, { lo := 2, hi := 2, ty := .u8, mn := some 0, mx := some 1 },
      { lo := 3, hi := 3, ty := .u32, unit := 12 }, { lo := 4, hi := 4, ty := .u8, d := 20, mn := some 10, mx := some 100, unit := 4 },
      { lo := 5, hi := 5, ty := .u32, ro := true }] },
  legalObj 0x2010 16 5 [{ lo := 1, hi := 1, ty := .u32 },
    { lo := 2, hi := 2, ty := .s32, d := 2 ^ 30, mn := some (2 ^ 29), mx := some (3 * 2 ^ 29) },
    { lo := 3, hi := 3, ty := .s32, mn := some (-65536), mx := some 65536 }, { lo := 4, hi := 4, ty := .s16, mn := some (-4096), mx := some 4096 }],
  legalObj 0x2040 64 5 [{ lo := 1, hi := 1, ty := .q16, mn := some 0, mx := some (q 5000), unit := 8 }],
  { blk := .dev, off := 0x2100, n := 66, acc := .lro, plane := .d, multi := true, subs := [{ lo := 1, hi := 10, ty := .e96, unit := 12 }] },
  { blk := .dev, off := 0x2180, n := 66, acc := .ro, plane := .d, multi := true,
    subs := [{ lo := 1, hi := 1, ty := .u16 }, { lo := 2, hi := 3, ty := .e96, unit := 12 }, { lo := 4, hi := 4, ty := .s32, unit := 11 },
      { lo := 5, hi := 5, ty := .u32 }] },
  { blk := .dev, off := 0x2200, acc := .roW1c, plane := .d, wr := rSMV, subs := [{ ty := .u32, w1c := 0x7C }] },
  { blk := .dev, off := 0x2201, acc := .lro, plane := .d, subs := [{ ty := .lsec, unit := 5 }] },
  { blk := .dev, off := 0x2202, acc := .lro, plane := .d, subs := [{ ty := .u32 }] },
  { blk := .dev, off := 0x2203, acc := .lro, plane := .d, multi := true,
    subs := [{ lo := 1, hi := 1, ty := .u8, d := 1 }, { lo := 2, hi := 3, ty := .u8 }] },
  legalObj 0x2204 1 5 [{ ty := .u8, mn := some 0, mx := some 4 }] false,
  legalObj 0x2205 1 5 [{ lo := 1, hi := 1, ty := .s16, d := 37, mn := some 0, mx := some 100, unit := 5 },
    { lo := 2, hi := 2, ty := .s16, mn := some (-720), mx := some 840 }],
  legalObj 0x2206 1 6 [{ ty := .u8, d := 15, mn := some 1, mx := some 60 }] false,
  legalObj 0x2207 1 7 [{ ty := .bool }] false,
  { blk := .dev, off := 0x2208, n := 2, acc := .lro, plane := .d, multi := true,
    subs := [{ lo := 1, hi := 1, ty := .u32, unit := 11 }, { lo := 2, hi := 2, ty := .u16 }, { lo := 3, hi := 3, ty := .u32, unit := 11 },
      { lo := 4, hi := 4, ty := .lsec, unit := 5 }, { lo := 5, hi := 5, ty := .u8 }] },
  { blk := .dev, off := 0x220A, acc := .wo, plane := .d, level := 5, wr := rSM, subs := [{ ty := .u8 }] },
  { blk := .dev, off := 0x220B, acc := .ro, plane := .d, multi := true,
    subs := [{ lo := 1, hi := 1, ty := .u32 }, { lo := 2, hi := 2, ty := .oct 64, db := List.replicate 64 0 }] },
  { blk := .dev, off := 0x220C, acc := .ro, plane := .d, multi := true,
    subs := [{ lo := 1, hi := 1, ty := .u32 }, { lo := 2, hi := 2, ty := .u32, d := 1048576 },
      { lo := 3, hi := 3, ty := .oct 64, db := List.replicate 64 0 }, { lo := 4, hi := 4, ty := .u32 }] },
  { blk := .dev, off := 0x220D, acc := .roW1c, plane := .d, wr := rSMV, multi := true,
    subs := [{ lo := 1, hi := 1, ty := .u8 }, { lo := 2, hi := 2, ty := .u8, w1c := 3 }] },
  { blk := .dev, off := 0x220E, acc := .rwb, plane := .d, level := 5, persist := true, wr := rSM, multi := true,
    subs := [{ lo := 1, hi := 1, ty := .u8, d := 5, mn := some 2, mx := some 30, unit := 5 }, { lo := 2, hi := 2, ty := .bool }] },
  { blk := .dev, off := 0x220F, acc := .ro, plane := .d, subs := [{ ty := .u16 }] } ]

/-! ### Field-bus objects (R387) -/

def dict16 : List ObjD := [
  { blk := .dev, off := 0x3000, n := 4, acc := .rwb, plane := .m, level := 3, persist := true, group := 9, wr := rSV, multi := true,
    subs := [{ lo := 1, hi := 1, ty := .bool }, { lo := 2, hi := 2, ty := .u32, d := 500000, unit := 0x15 },
      { lo := 3, hi := 3, ty := .u32, d := 2000000, unit := 0x15 },
      { lo := 4, hi := 4, ty := .u16, d := 800, mn := some 500, mx := some 900 }, { lo := 5, hi := 5, ty := .u16, d := 750, mn := some 500, mx := some 900 },
      { lo := 6, hi := 6, ty := .u8, ro := true }, { lo := 7, hi := 7, ty := .u8, mn := some 0, mx := some 1 }] },
  { blk := .dev, off := 0x3004, n := 4, acc := .roW1c, plane := .m, group := 9, wr := rSV, subs := [{ ty := .u32, w1c := 0x2C0 }] },
  { blk := .dev, off := 0x3008, n := 3, acc := .ro, plane := .m, group := 9, multi := true, subs := [{ lo := 1, hi := 8, ty := .u32 }] },
  { blk := .dev, off := 0x300B, acc := .ro, plane := .m, group := 9, multi := true, subs := [{ lo := 1, hi := 9, ty := .u32 }] },
  { blk := .dev, off := 0x300C, acc := .rwb, plane := .m, level := 3, group := 9, wr := rSV, multi := true,
    subs := [{ lo := 1, hi := 1, ty := .u16, d := 100, mn := some 10, mx := some 1000, pers := true, unit := 4 },
      { lo := 2, hi := 2, ty := .u8, d := 16, mn := some 1, mx := some 16, pers := true }, { lo := 3, hi := 3, ty := .u8, wo := true }] },
  { blk := .dev, off := 0x3010, n := 4, acc := .ro, plane := .m, group := 9, subs := [{ ty := .dom 7648 }] },
  { blk := .dev, off := 0x3014, acc := .rwb, plane := .m, level := 3, persist := true, group := 9, wr := rSV, subs := [{ ty := .dom 131072 }] },
  { blk := .dev, off := 0x3015, acc := .ro, plane := .m, group := 9, multi := true,
    subs := [{ lo := 1, hi := 1, ty := .u8 }, { lo := 2, hi := 2, ty := .u8, d := 32 }] },
  { blk := .dev, off := 0x3016, acc := .rw, plane := .m, persist := true, group := 9, wr := rSV, multi := true,
    subs := [{ lo := 1, hi := 1, ty := .u16, d := 500, mn := some 50, mx := some 10000, unit := 4 },
      { lo := 2, hi := 2, ty := .u16, d := 300, mn := some 10, mx := some 3600, unit := 5 },
      { lo := 3, hi := 3, ty := .u8, ro := true }, { lo := 4, hi := 4, ty := .u8, d := 32, mn := some 1, mx := some 127 }] },
  { blk := .dev, off := 0x3017, acc := .rwb, plane := .m, level := 3, persist := true, group := 9, wr := rSV, multi := true,
    subs := [{ lo := 1, hi := 1, ty := .oct 16, db := List.replicate 16 0 }, { lo := 2, hi := 2, ty := .u8, d := 64, mn := some 0, mx := some 128 },
      { lo := 3, hi := 3, ty := .u16, d := 48310, mn := some 1024, mx := some 65535 }, { lo := 4, hi := 4, ty := .oct 6, db := Config.mac 0, ro := true },
      { lo := 5, hi := 5, ty := .oct 6, db := Config.mac 1, ro := true }] },
  { blk := .dev, off := 0x1C000, n := 16384, acc := .rw, plane := .m, wr := rOSV, group := 9, multi := true,
    subs := [{ lo := 1, hi := 1, ty := .u32 }, { lo := 2, hi := 2, ty := .u8, d := 255, ro := true }, { lo := 3, hi := 3, ty := .bool, d := 1, ro := true }] } ]

/-! ### Yard objects (R416, R417) -/

def dict17 : List ObjD := [
  { blk := .dev, off := 0x3100, acc := .rwb, plane := .m, level := 3, persist := true, group := 10, wr := rSV, multi := true,
    subs := [{ lo := 1, hi := 1, ty := .bool }, { lo := 2, hi := 2, ty := .u32, mn := some 1 }, { lo := 3, hi := 3, ty := .s8, d := 200, mn := some (-75), mx := some (-50) },
      { lo := 4, hi := 4, ty := .u8, d := 8, mn := some 4, mx := some 30, unit := 4 }, { lo := 5, hi := 5, ty := .u8, mn := some 0, mx := some 1 },
      { lo := 6, hi := 6, ty := .u16, d := 25, mn := some 10, mx := some 1000 }, { lo := 7, hi := 7, ty := .u16, d := 25, mn := some 1, mx := some 1000 },
      { lo := 8, hi := 8, ty := .s16, mn := some (-5000), mx := some 5000 }] },
  { blk := .dev, off := 0x3101, acc := .rwb, plane := .m, level := 3, persist := true, group := 10, wr := rSV,
    subs := [{ ty := .oct 176, db := List.replicate 176 0 }] },
  { blk := .dev, off := 0x3102, acc := .roW1c, plane := .m, group := 10, wr := rSV, subs := [{ ty := .u32, w1c := 0x20 }] },
  { blk := .dev, off := 0x3103, acc := .ro, plane := .m, group := 10, multi := true,
    subs := [{ lo := 1, hi := 1, ty := .q16, unit := 0x11 }, { lo := 2, hi := 2, ty := .u32, unit := 3 }, { lo := 3, hi := 3, ty := .u32 }] },
  { blk := .dev, off := 0x3104, acc := .ro, plane := .m, persist := true, group := 10, subs := [{ ty := .dom 10240 }] },
  { blk := .dev, off := 0x3105, acc := .wo, plane := .m, group := 10, wr := rSV, subs := [{ ty := .u16 }] },
  { blk := .dev, off := 0x3106, acc := .ro, plane := .m, group := 10, multi := true, subs := [{ lo := 1, hi := 5, ty := .u32 }] },
  { blk := .dev, off := 0x3107, acc := .ro, plane := .m, group := 10, subs := [{ ty := .dom 1152, db := Config.ldpcBytes }] },
  { blk := .yard, off := 0, acc := .ro, plane := .m, group := 10, multi := true,
    subs := [{ lo := 1, hi := 1, ty := .u16 }, { lo := 2, hi := 2, ty := .u8 }, { lo := 3, hi := 3, ty := .oct 16, db := List.replicate 16 0 },
      { lo := 4, hi := 5, ty := .u32 }, { lo := 6, hi := 6, ty := .u8 }, { lo := 7, hi := 10, ty := .u16 }] },
  { blk := .yard, off := 1, acc := .ro, plane := .m, group := 10, multi := true,
    subs := [{ lo := 1, hi := 1, ty := .u32 }, { lo := 2, hi := 2, ty := .q16 }, { lo := 3, hi := 4, ty := .u32 }] },
  { blk := .yard, off := 8, n := 24, acc := .rw, plane := .m, group := 10, wr := rOSV, multi := true,
    subs := [{ lo := 1, hi := 1, ty := .u32 }, { lo := 2, hi := 2, ty := .u8, ro := true }, { lo := 3, hi := 3, ty := .bool, ro := true }] } ]

/-! ### DMA and record store objects (R446, R447) -/

/-- Default ring sizes (R420). -/
def ringSizes : List Nat := [256, 1024, 512, 128, 256, 128, 256, 512, 1024, 1024, 256, 512, 512, 64, 64, 256]

def ringObj (r size : Nat) : ObjD :=
  { blk := .dev, off := 0x3200 + r, acc := .rwb, plane := .d, level := 3, group := 11, wr := rSV, multi := true,
    subs := [{ lo := 1, hi := 1, ty := .u16, d := size, pers := true }, { lo := 2, hi := 3, ty := .u16, ro := true }, { lo := 4, hi := 6, ty := .u32, ro := true },
      { lo := 7, hi := 7, ty := .bool, ro := true }, { lo := 8, hi := 8, ty := .u8, ro := true }] }

def dict18 : List ObjD :=
  ((List.range 16).zip ringSizes).map (fun p => ringObj p.1 p.2) ++ [
  { blk := .dev, off := 0x3210, acc := .wo, plane := .d, group := 11, wr := rSV, subs := [{ ty := .u32 }] },
  { blk := .dev, off := 0x3300, acc := .roW1c, plane := .d, group := 11, wr := rSV, subs := [{ ty := .u32, w1c := 0xC0 }] },
  { blk := .dev, off := 0x3301, acc := .ro, plane := .d, group := 11, multi := true,
    subs := [{ lo := 1, hi := 1, ty := .u64 }, { lo := 2, hi := 4, ty := .u8 }, { lo := 5, hi := 5, ty := .oct 16, db := List.replicate 16 0 }] },
  { blk := .dev, off := 0x3302, acc := .ro, plane := .d, group := 11, multi := true, subs := [{ lo := 1, hi := 4, ty := .u32 }] },
  { blk := .dev, off := 0x3303, acc := .rw, plane := .m, persist := true, group := 11, wr := rSV, multi := true,
    subs := [{ lo := 1, hi := 1, ty := .u32, d := 1536, mn := some 1536, mx := some 8192 },
      { lo := 3, hi := 3, ty := .u32, d := 256, mn := some 256, mx := some 4096 },
      { lo := 4, hi := 4, ty := .u32, d := 1024, mn := some 1024, mx := some 16384 }] },
  { blk := .dev, off := 0x3304, acc := .wo, plane := .d, group := 11, wr := rSMV, subs := [{ ty := .u8 }] },
  { blk := .dev, off := 0x3310, n := 5, acc := .ro, plane := .d, group := 11, multi := true,
    subs := [{ lo := 1, hi := 2, ty := .u64 }, { lo := 3, hi := 4, ty := .u32 }] },
  { blk := .dev, off := 0x3320, n := 8, acc := .rw, plane := .m, group := 11, wr := rAll, multi := true,
    subs := [{ lo := 1, hi := 1, ty := .u8, d := 3, mn := some 0, mx := some 4 }, { lo := 2, hi := 2, ty := .u64 },
      { lo := 3, hi := 3, ty := .u32, d := 65520, mn := some 64, mx := some 65520 }] },
  { blk := .dev, off := 0x3328, n := 8, acc := .ro, plane := .m, group := 11, subs := [{ ty := .dom 65536 }] },
  { blk := .dev, off := 0x3330, acc := .rwb, plane := .d, level := 3, persist := true, group := 11, wr := rSV, multi := true,
    subs := [{ lo := 1, hi := 1, ty := .u16, d := 512, mn := some 64, mx := some 1024 },
      { lo := 2, hi := 2, ty := .u16, d := 512, mn := some 64, mx := some 2048 }, { lo := 3, hi := 3, ty := .u32, d := 0xFFFFFFFF },
      { lo := 4, hi := 4, ty := .u8, d := 3, mn := some 0, mx := some 3 }] },
  { blk := .dev, off := 0x3331, acc := .wo, plane := .d, group := 11, wr := rSV, subs := [{ ty := .u32 }] },
  { blk := .dev, off := 0x3332, acc := .ro, plane := .d, group := 11, multi := true,
    subs := [{ lo := 1, hi := 2, ty := .u32 }, { lo := 3, hi := 3, ty := .u64 }] } ]

/-! ### Key objects (R491, R492) -/

def keyObj (off : Nat) : ObjD :=
  { blk := .dev, off := off, acc := .wo, plane := .m, level := 3, wr := rSV, subs := [{ ty := .oct 32, wo := true }] }

/-- KEY.LEGAL_PUB_HIST carries PERSIST: DESIGN CHOICE (log entry 60), R491 does not call it persistent, and it holds keys that R486 keeps
over every start. -/
def dict20 : List ObjD := [
  { blk := .dev, off := 0x500, acc := .ro, plane := .m, persist := true, subs := [{ ty := .u8 }] },
  { blk := .dev, off := 0x501, acc := .wo, plane := .m, wr := rSV, multi := true,
    subs := [{ lo := 1, hi := 2, ty := .u8, wo := true }, { lo := 3, hi := 3, ty := .oct 8, wo := true }] },
  { blk := .dev, off := 0x502, acc := .roW1c, plane := .m, wr := rSV, subs := [{ ty := .u32, w1c := 0x20 }] },
  { blk := .dev, off := 0x503, acc := .ro, plane := .m, persist := true, multi := true, subs := [{ lo := 1, hi := 9, ty := .u32 }] },
  { blk := .dev, off := 0x504, acc := .wo, plane := .m, level := 3, wr := rSMV, subs := [{ ty := .u16, wo := true }] },
  { keyObj 0x508 with wr := 2 },
  { keyObj 0x509 with wr := rSV },
  { keyObj 0x50A with wr := rSM },
  { keyObj 0x50B with wr := 8 },
  { keyObj 0x510 with n := 2 },
  { blk := .dev, off := 0x512, acc := .rw, plane := .m, persist := true, wr := rSV, subs := [{ ty := .oct 32, db := sv "YINST" }] },
  { keyObj 0x520 with n := 16, wr := rM },
  { blk := .dev, off := 0x530, n := 16, acc := .rw, plane := .m, persist := true, wr := rSV, multi := true,
    subs := [{ lo := 1, hi := 1, ty := .u8, mn := some 0, mx := some 4 }, { lo := 2, hi := 2, ty := .oct 64, db := List.replicate 64 0 }] },
  { blk := .dev, off := 0x540, acc := .ro, plane := .m, subs := [{ ty := .u32 }] },
  { blk := .dev, off := 0x541, acc := .ro, plane := .d, persist := true, subs := [{ ty := .dom 4608 }] },
  { blk := .dev, off := 0x542, acc := .ro, plane := .m, rd := 8, subs := [{ ty := .oct 32, db := List.replicate 32 0 }] } ]

/-! ### Pair, start-up, update, coverage, supply and monitor objects (R475, R508, R528, R539, R552, R573) -/

def dict19 : List ObjD := [
  { blk := .dev, off := 0x400, acc := .roW1c, plane := .m, group := 12, wr := rSV, subs := [{ ty := .u32, w1c := 0x700 }] },
  { blk := .dev, off := 0x401, acc := .ro, plane := .m, group := 12, subs := [{ ty := .u8 }] },
  { blk := .dev, off := 0x402, acc := .ro, plane := .m, group := 12, persist := true, subs := [{ ty := .u32 }] },
  { blk := .dev, off := 0x403, acc := .ro, plane := .m, group := 12, subs := [{ ty := .u8 }] },
  { blk := .dev, off := 0x404, acc := .rwb, plane := .m, level := 3, group := 12, persist := true, wr := rSV, multi := true,
    subs := [{ lo := 1, hi := 1, ty := .u16, d := 500, mn := some 100, mx := some 10000, unit := 4 },
      { lo := 2, hi := 2, ty := .u32, d := 300, mn := some 10, mx := some 86400, unit := 5 }] },
  { blk := .dev, off := 0x405, acc := .wo, plane := .m, group := 12, wr := rSV, subs := [{ ty := .u8, wo := true }] },
  { blk := .dev, off := 0x406, acc := .ro, plane := .m, group := 12, multi := true,
    subs := [{ lo := 1, hi := 2, ty := .u8 }, { lo := 3, hi := 3, ty := .u32 }, { lo := 4, hi := 4, ty := .bool },
      { lo := 5, hi := 5, ty := .oct 16, db := List.replicate 16 0 }, { lo := 6, hi := 9, ty := .u32 },
      { lo := 10, hi := 10, ty := .u16 }] },
  { blk := .dev, off := 0x407, acc := .ro, plane := .m, group := 12, multi := true, subs := [{ lo := 1, hi := 7, ty := .u32 }] },
  { blk := .dev, off := 0x408, acc := .ro, plane := .m, group := 12, persist := true, multi := true,
    subs := [{ lo := 1, hi := 1, ty := .u64 }, { lo := 2, hi := 2, ty := .u32, unit := 1 }, { lo := 3, hi := 3, ty := .u8 },
      { lo := 4, hi := 4, ty := .bool }, { lo := 5, hi := 5, ty := .u32 }] } ]

def dict21 : List ObjD := [
  { blk := .dev, off := 0x600, acc := .ro, plane := .m, multi := true,
    subs := [{ lo := 1, hi := 1, ty := .u8 }, { lo := 2, hi := 2, ty := .u32 },
      { lo := 3, hi := 10, ty := .u32, d := 0xFFFFFFFF, unit := 4 }] },
  { blk := .dev, off := 0x601, acc := .roW1c, plane := .m, wr := rSV, subs := [{ ty := .u32, w1c := 0x1C }] },
  { blk := .dev, off := 0x602, acc := .ro, plane := .m, multi := true, subs := [{ lo := 1, hi := 1, ty := .u32 }, { lo := 2, hi := 2, ty := .u64 }] },
  { blk := .dev, off := 0x603, acc := .wo, plane := .m, level := 3, wr := rSV, subs := [{ ty := .oct 8, wo := true }] },
  { blk := .dev, off := 0x680, acc := .ro, plane := .m, subs := [{ ty := .u32 }] },
  { blk := .dev, off := 0x690, acc := .ro, plane := .d, multi := true,
    subs := [{ lo := 1, hi := 8, ty := .u16, unit := 7 }, { lo := 9, hi := 9, ty := .u16 }] } ]

def dict22 : List ObjD := [
  { blk := .dev, off := 0x700, acc := .roW1c, plane := .m, wr := rSV, subs := [{ ty := .u32, w1c := 0x1E0 }] },
  { blk := .dev, off := 0x701, acc := .wo, plane := .m, wr := rSMV, multi := true,
    subs := [{ lo := 1, hi := 1, ty := .u32, wo := true, mn := some 1, mx := some 33554432 },
      { lo := 2, hi := 2, ty := .u32, wo := true, mn := some 1024, mx := some 65536 }, { lo := 3, hi := 3, ty := .oct 32, wo := true }] },
  { blk := .dev, off := 0x702, acc := .wo, plane := .m, wr := rSMV, subs := [{ ty := .dom 65544, wo := true }] },
  { blk := .dev, off := 0x703, acc := .ro, plane := .m, subs := [{ ty := .dom 4096 }] },
  { blk := .dev, off := 0x704, acc := .ro, plane := .m, multi := true,
    subs := [{ lo := 1, hi := 2, ty := .u8 }, { lo := 3, hi := 4, ty := .u32 }, { lo := 5, hi := 5, ty := .u8 }] },
  { blk := .dev, off := 0x705, acc := .wo, plane := .m, wr := rSMV, multi := true,
    subs := [{ lo := 1, hi := 1, ty := .u8, wo := true }, { lo := 2, hi := 2, ty := .bool, wo := true }] },
  { blk := .dev, off := 0x706, acc := .ro, plane := .m, multi := true,
    subs := [{ lo := 1, hi := 1, ty := .u8 }, { lo := 2, hi := 3, ty := .u32, unit := 5 }] },
  { blk := .dev, off := 0x707, acc := .rwb, plane := .m, level := 3, persist := true, wr := rSV, multi := true,
    subs := [{ lo := 1, hi := 1, ty := .u16, d := 30, mn := some 5, mx := some 240 },
      { lo := 2, hi := 2, ty := .u16, d := 600, mn := some 60, mx := some 3600, unit := 5 }] },
  { blk := .dev, off := 0x708, acc := .wo, plane := .m, wr := rSMV, subs := [{ ty := .u8, wo := true }] },
  { blk := .dev, off := 0x709, acc := .ro, plane := .m, subs := [{ ty := .u32 }] },
  { blk := .dev, off := 0x70A, acc := .ro, plane := .m, multi := true, subs := [{ lo := 1, hi := 3, ty := .u32 }] } ]

def dict24 : List ObjD := [
  { blk := .dev, off := 0x3400, acc := .rw, plane := .m, persist := true, wr := rSV, multi := true,
    subs := [{ lo := 1, hi := 1, ty := .u32, d := 115200, unit := 0x15 },
      { lo := 2, hi := 2, ty := .u16, d := 600, mn := some 60, mx := some 3600, unit := 5 },
      { lo := 3, hi := 3, ty := .u8, d := 1, mn := some 0, mx := some 3 }] },
  { blk := .dev, off := 0x3401, acc := .roW1c, plane := .m, wr := rSV, subs := [{ ty := .u32, w1c := 0x20 }] },
  { blk := .dev, off := 0x3402, acc := .ro, plane := .m, multi := true, subs := [{ lo := 1, hi := 2, ty := .u32 }] },
  { blk := .dev, off := 0x3403, acc := .ro, plane := .m, multi := true, subs := [{ lo := 1, hi := 4, ty := .u32 }] } ]

/-! ### Lookup -/

/-- The rows in which an object number may lie. -/
def dictFor (l : Loc) : List ObjD :=
  match l.blk with
  | .stg => dict07 ++ dict08 ++ dict09 ++ dict10 ++ dict11
  | .grp => dict07 ++ dict08 ++ dict09 ++ dict10
  | .con => dict09 ++ dict10 ++ dict11 ++ dict13
  | .ses => dict13
  | .lch => dict12
  | .yard => dict17
  | .dev =>
    match l.off / 256 with
    | 0 => dict05 | 1 => dict02 ++ dict05 | 2 => dict06 ++ dict11 | 3 => dict13 | 4 => dict19 | 5 => dict20 | 6 => dict21
    | 7 => dict22 | 0x10 => dict09 ++ dict10 | 0x20 => dict14 | 0x21 => dict14 | 0x22 => dict14 | 0x30 => dict16
    | 0x31 => dict17 | 0x32 => dict18 | 0x33 => dict18 | 0x34 => dict24 | 0x40 => dict12
    | n => if 0x1C0 ≤ n then dict16 else []

/-- A row holds an offset. -/
def rowHas (l : Loc) (o : ObjD) : Bool :=
  o.blk == l.blk && decide (o.off ≤ l.off) && decide (l.off < o.off + o.n * o.step) && (l.off - o.off) % o.step == 0

/-- The dictionary row of an object number, and where it lies (R11, R97 check 1). -/
def findObj (num : Nat) : Option (ObjD × Loc) :=
  match locate num with
  | none => none
  | some l => ((dictFor l).find? (rowHas l)).map (fun o => (o, l))

/-- The highest subindex of a record or array (R10). -/
def topSub (o : ObjD) : Nat := o.subs.foldl (fun m s => max m s.hi) 0

/-- The row of a subindex; .00 of a record or array reads the highest subindex (R10, R97 check 2). -/
def findSub (o : ObjD) (sub : Nat) : Option SubD :=
  if o.multi && sub == 0 then some { ty := .u8, d := topSub o, ro := true }
  else o.subs.find? (fun s => decide (s.lo ≤ sub) && decide (sub ≤ s.hi))

/-- Values of this type are held as byte strings. -/
def tyBytes : Ty → Bool
  | .str _ => true | .oct _ => true | .dom _ => true | _ => false

/-- The default value of a subindex (R91, R100). -/
def subDefault (s : SubD) : Val := if tyBytes s.ty then .bytes s.db else .num s.d

/-- The default value of O:num.sub; 0 where none is assigned. -/
def defaultVal (num sub : Nat) : Val :=
  match findObj num with
  | none => .num 0
  | some p => match findSub p.1 sub with
    | none => .num 0
    | some s => subDefault s

/-- The access code of a subindex: the object's, unless the subindex differs (R91). -/
def subAcc (o : ObjD) (s : SubD) : Acc := if s.ro then .ro else if s.wo then .wo else o.acc

/-- The 24-byte descriptor of a subindex (R91): no role may write what is read only. Subindex .00 of a record shows the record's PERSIST and
EXPERT: DESIGN CHOICE (log entry 60), R91 does not say. -/
def descriptor (o : ObjD) (s : SubD) : Bytes :=
  let a := subAcc o s
  let wr := if a = .ro ∨ a = .lro then 0 else o.wr
  let attr := planeCode o.plane + 4 * (if a = .rwb then o.level else 0) + 32 * (if o.expert then 1 else 0) +
    64 * (if o.persist || s.pers then 1 else 0)
  natLe 1 (tyCode s.ty) ++ natLe 1 (accCode a) ++ natLe 1 attr ++ natLe 1 o.group ++ natLe 1 (o.rd % 16 + 16 * wr) ++
    natLe 1 0 ++ natLe 1 s.unit ++ natLe 1 0 ++ natLe 4 (tySize s.ty) ++ natLe 4 0 ++
    natLe 8 (if tySize s.ty ≤ 8 && !(tyBytes s.ty) then s.d else 0)

end Sys2Proof.Machine
end

