-- ==== Sys2Proof/Machine/Ops.lean ====
section
/-! DEFINITION. The named operations over the object store, the events, the outputs and the free values that every
chapter's meanings use. -/

namespace Sys2Proof.Machine

/-! ### The object store (spec/05) -/

/-- The key of O:num.sub. -/
def okey (num sub : Nat) : Nat := 256 * num + sub

/-- The store entry of a key. -/
def storeFind : Store → Nat → Option Val
  | [], _ => none
  | (j, v) :: l, k => if j = k then some v else storeFind l k

/-- Insert a value under a key, rising key order kept. -/
def storeIns : Store → Nat → Val → Store
  | [], k, v => [(k, v)]
  | (j, w) :: l, k, v =>
    if k < j then (k, v) :: (j, w) :: l else if k = j then (k, v) :: l else (j, w) :: storeIns l k v

/-- Remove a key. -/
def storeDel (l : Store) (k : Nat) : Store := l.filter (fun p => p.1 != k)

/-- The default of a key (R91, R100). -/
def dfltOf (k : Nat) : Val := defaultVal (k / 256) (k % 256)

/-- Read a store: what is listed, else the default. -/
def storeGet (st : Store) (k : Nat) : Val := (storeFind st k).getD (dfltOf k)

/-- Write a store in canonical form: a value equal to the default removes the entry. -/
def storeSet (st : Store) (k : Nat) (v : Val) : Store := if v = dfltOf k then storeDel st k else storeIns st k v

/-- The keys of a store rise strictly. -/
def storeSorted : Store → Bool
  | [] => true
  | [_] => true
  | (j, _) :: (k, w) :: l => decide (j < k) && storeSorted ((k, w) :: l)

/-- The canonical form: keys rise strictly and no entry equals its default. -/
def storeWf (st : Store) : Bool := storeSorted st && st.all (fun p => decide (p.2 ≠ dfltOf p.1))

/-- The number of a value (byte strings read little-endian). -/
def valNat : Val → Nat
  | .num n => n
  | .bytes b => leNat b

/-- The bytes of a value. -/
def valBytes : Val → Bytes
  | .num _ => []
  | .bytes b => b

/-- Value in force of an object subindex. -/
def ov (d : Dev) (num sub : Nat) : Val := storeGet d.os.cur (okey num sub)

/-- Value in force as a number. -/
def on (d : Dev) (num sub : Nat) : Nat := valNat (ov d num sub)

/-- Value in force as a signed number of `w` bits. -/
def oi (w : Nat) (d : Dev) (num sub : Nat) : Int := toS w (on d num sub)

/-- Value in force as Q16.16. -/
def oq (d : Dev) (num sub : Nat) : Int := oi 32 d num sub

/-- Value in force as a byte string. -/
def ob (d : Dev) (num sub : Nat) : Bytes := valBytes (ov d num sub)

/-- Value in force as a flag. -/
def oflag (d : Dev) (num sub : Nat) : Bool := on d num sub != 0

/-- Value as at the last boundary swap (R38). -/
def sn (d : Dev) (num sub : Nat) : Nat := valNat (storeGet d.os.snap (okey num sub))

def sq (d : Dev) (num sub : Nat) : Int := toS 32 (sn d num sub)

/-- The object subindex of a key keeps its value in NOR (R91, R100). -/
def isPersistK (k : Nat) : Bool :=
  match findObj (k / 256) with
  | some p => p.1.persist || p.1.subs.any (fun x => x.pers && decide (x.lo ≤ k % 256) && decide (k % 256 ≤ x.hi))
  | none => false

/-- Put a value into force: the previous committed value is kept (R86), a stale mark ends, and a changed persistent
value waits for its NOR copy (R100). -/
def putV (os : ObjS) (k : Nat) (v : Val) : ObjS :=
  { os with
    cur := storeSet os.cur k v
    prev := storeIns os.prev k (storeGet os.cur k)
    stale := os.stale.filter (· != k)
    norDirty := if decide (storeGet os.cur k ≠ v) && isPersistK k && !(os.norDirty.contains k)
      then os.norDirty ++ [k] else os.norDirty }

/-- Put a number into force in an object subindex. -/
def put (num sub n : Nat) (d : Dev) : Dev := { d with os := putV d.os (okey num sub) (.num n) }

/-- An unchanged value is put into force again: the previous committed value is now the same, a stale mark ends (R86). -/
def touchV (os : ObjS) (k : Nat) : ObjS :=
  if storeFind os.prev k = some (storeGet os.cur k) ∧ !(os.stale.contains k) then os
  else { os with prev := storeIns os.prev k (storeGet os.cur k), stale := os.stale.filter (· != k) }

/-- Publish a number. -/
def putIf (num sub n : Nat) (d : Dev) : Dev :=
  if ov d num sub = .num n then { d with os := touchV d.os (okey num sub) } else put num sub n d

/-- Put a signed number of `w` bits into force. -/
def puti (w num sub : Nat) (i : Int) (d : Dev) : Dev := put num sub (ofS w i) d

/-- Put a Q16.16 value into force. -/
def putq (num sub : Nat) (i : Int) (d : Dev) : Dev := puti 32 num sub i d

/-- Put a byte string into force. -/
def putb (num sub : Nat) (b : Bytes) (d : Dev) : Dev := { d with os := putV d.os (okey num sub) (.bytes b) }

/-- Put a flag into force. -/
def putf (num sub : Nat) (b : Bool) (d : Dev) : Dev := put num sub (boolNat b) d

/-- Increase a counter of `w` bits, saturating. -/
def incr (w num sub : Nat) (d : Dev) : Dev := put num sub (incSat w (on d num sub)) d

/-- Values put into force as part of the boundary swap that has just been: the slots of the new micro-frame read them too
(R38). -/
def atSwap (ks : List Nat) (d : Dev) : Dev :=
  { d with os := { d.os with snap := ks.foldl (fun st k => storeSet st k (storeGet d.os.cur k)) d.os.snap } }

/-- Set a bit of a status word. -/
def setStatus (num sub bit : Nat) (d : Dev) : Dev := put num sub (setBit (on d num sub) bit) d

/-- Clear a bit of a status word. -/
def clrStatus (num sub bit : Nat) (d : Dev) : Dev := put num sub (clearBit (on d num sub) bit) d

/-- Set or clear a bit of a status word. -/
def wrStatus (num sub bit : Nat) (b : Bool) (d : Dev) : Dev := put num sub (putBit (on d num sub) bit b) d

/-- Run an update for each element of a list, in order. -/
def forEach {α : Type} (l : List α) (f : α → Dev → Dev) (d : Dev) : Dev := l.foldl (fun d a => f a d) d

/-- Run an update when a condition holds. -/
def whenD (c : Bool) (f : Dev → Dev) (d : Dev) : Dev := if c then f d else d

/-! ### Time (spec/02) -/

/-- Micro-frame lengths in ns by code (R29). -/
def microNs : Nat → Nat
  | 1 => 10000 | 2 => 12500 | 3 => 16000 | 4 => 20000 | 5 => 25000 | 6 => 40000 | 7 => 50000 | _ => 0

/-- Micro-frames of the shortest minor frame (R29, R30). -/
def minMicros : Nat → Nat
  | 1 => 100 | 2 => 80 | 3 => 62 | 4 => 50 | 5 => 40 | 6 => 25 | 7 => 20 | _ => 1

/-- Micro-frames of minor frame number `minor` (R30: 62 and 63 alternate at 16 µs, 62 first). -/
def microsOf (code minor : Nat) : Nat := if code = 3 then 62 + minor % 2 else minMicros code

/-- Length of the micro-frame in force in ns. -/
def tNs (d : Dev) : Nat := microNs d.time.code

/-- Micro-frames from now to the next major-frame boundary. -/
def microsToMajor (d : Dev) : Nat :=
  microsOf d.time.code d.time.minor - d.time.m +
    ((List.range (99 - d.time.k)).map (fun j => microsOf d.time.code (d.time.minor + 1 + j))).foldl (· + ·) 0

/-- Civil time in ns (R46). -/
def civilNs (d : Dev) : Nat := d.time.civil / 10000

/-- The micro-frames of a major frame (R30, R31). -/
def majorMicros (code : Nat) : Nat := if code = 3 then 6250 else 100 * minMicros code

/-! ### Events (R110, R111) -/

/-- Class of an event code: 0 information, 1 warning, 2 fault, 3 trip or stop (R108). -/
def evClass (code : Nat) : Nat := (code % 0x800) / 0x200

/-- The same event opened in this minor frame (R111). -/
def evSame (code inst flags : Nat) (e : EvRec) : Bool :=
  e.isOpen && e.code == code && e.inst == inst && e.flags == flags

/-- Fold an occurrence into a record (R111). -/
def evFold (data : Nat) (e : EvRec) : EvRec := { e with rep := incSat 16 e.rep, data := data }

/-- Displace a record from a full window: the oldest information record, else the oldest (R111). The window is newest
first. -/
def evDisplace (w : List EvRec) : List EvRec :=
  match (w.reverse.findIdx? (fun e => evClass e.code = 0)) with
  | some i => w.reverse.eraseIdx i |>.reverse
  | none => w.dropLast

/-- Raise an event in the event store (R110, R111). -/
def evRaise (code inst data flags micro civil : Nat) (ev : EventS) : EventS :=
  if ev.opened.any (evSame code inst flags) then
    let up := fun e => if evSame code inst flags e then evFold data e else e
    { ev with window := ev.window.map up, opened := ev.opened.map up, last := ev.last.map up }
  else
    let r : EvRec := { code := code, inst := inst, rep := 0, flags := flags, micro := micro, civil := civil, data := data }
    let full := decide (64 ≤ ev.window.length)
    { ev with
      window := r :: (if full then evDisplace ev.window else ev.window)
      opened := ev.opened ++ [r]
      last := some r
      count := ev.count + 1
      lost := if full then ev.lost + 1 else ev.lost
      fresh := ev.fresh ++ [r] }

/-- The event flags of this unit (R110). -/
def evFlags (d : Dev) (ended : Bool) : Nat := boolNat (d.pair.role == .standby) + 2 * boolNat ended

/-- Raise an event. -/
def raise (code inst data : Nat) (d : Dev) : Dev :=
  { d with ev := evRaise code inst data (evFlags d false) d.time.micro (civilNs d) d.ev }

/-- Raise the end of a condition (flag ENDED). -/
def raiseEnd (code inst data : Nat) (d : Dev) : Dev :=
  { d with ev := evRaise code inst data (evFlags d true) d.time.micro (civilNs d) d.ev }

/-- The 32 bytes of an event record (R110). -/
def evBytes (e : EvRec) : Bytes :=
  natLe 2 e.code ++ natLe 2 e.inst ++ natLe 2 e.rep ++ natLe 1 e.flags ++ natLe 1 0 ++
    natLe 8 e.micro ++ natLe 8 e.civil ++ natLe 8 e.data

/-- No instance applies (R110). -/
def noInst : Nat := 0xFFFF

/-! ### Outputs and free values -/

/-- Record something the device sends or drives. -/
def emit (t : Tx) (d : Dev) : Dev := { d with sent := t :: d.sent }

/-- Draw `n` random bytes: a free value of Config applied to the draw counter. -/
def draw (n : Nat) (d : Dev) : Bytes × Dev := (Config.random d.draws n, { d with draws := d.draws + 1 })

/-! ### The rings of the unit's own producers (R420 to R422, R428, R429) -/

def ring (d : Dev) (r : Nat) : RingS := d.dma.getD r {}

def modRing (r : Nat) (f : RingS → RingS) (d : Dev) : Dev := { d with dma := modAt d.dma r f }

def ringSize (d : Dev) (r : Nat) : Nat := on d (0x3200 + r) 1

/-- The engine serves the ring at once: nothing waits in it and it is not stopped. -/
def ringIdle (d : Dev) (r : Nat) : Bool := (ring d r).q.isEmpty && !((ring d r).stopReq) && !(oflag d (0x3200 + r) 7)

/-- Places left in a ring: it holds at most SIZE − 1 posted descriptors. -/
def ringRoom (d : Dev) (r : Nat) : Nat := ringSize d r - 1 - (ring d r).q.length

/-- An index of a ring moves on. -/
def ringStep (r sub n : Nat) (d : Dev) : Dev := put (0x3200 + r) sub ((on d (0x3200 + r) sub + n) % max 1 (ringSize d r)) d

/-- A producer finds its ring full (R422). -/
def ringFull (r : Nat) (d : Dev) : Dev :=
  let d := incr 32 (0x3200 + r) 6 d
  if (ring d r).fullRaised then d else raise 0x6A02 r 0 (modRing r (fun x => { x with fullRaised := true }) d)

/-- `n` descriptors complete as done: HEAD and DONE. -/
def ringDone (r n : Nat) (d : Dev) : Dev :=
  put (0x3200 + r) 4 (satU 32 (on d (0x3200 + r) 4 + n)) (ringStep r 2 n d)

/-- One of the device's own producers posts descriptors. An idle ring moves them at once, and `go` follows; in a ring that is stopped
or serves others they wait; a full ring takes none of them, and a ring of size 0 nothing: then `lost` follows (R421, R422). -/
def ringPass (r : Nat) (its : List RingItem) (go lost : Dev → Dev) (d : Dev) : Dev :=
  if its = [] then go d
  else if ringSize d r = 0 then lost d
  else if ringIdle d r then go (ringDone r its.length (ringStep r 3 its.length d))
  else if ringRoom d r < its.length then lost (ringFull r d)
  else modRing r (fun x => { x with q := x.q ++ its.map (fun i => { own := some i }) }) (ringStep r 3 its.length d)

/-- The device's own descriptors at the head of a ring complete: what they carry has moved (R428, R429). -/
def ringTake (r : Nat) : List DescS → Dev → Dev
  | x :: l, d =>
    match x.own with
    | some i => ringTake r l { ringDone r 1 (modRing r (fun y => { y with q := l }) d) with moved := i :: d.moved }
    | none => d
  | [], d => d

/-! ### Conditions of the unit -/

/-- The device runs: it is neither in internal reset nor fail-silent, in test mode or in KEEP. -/
def running (d : Dev) : Bool := d.phase == .running

/-- Run an update only while the device runs. -/
def ifRun (f : Dev → Dev) (d : Dev) : Dev := if running d then f d else d

/-- The unit sends control frames and obeys its sequencers as the active or the single unit (R134). -/
def isActive (d : Dev) : Bool := d.pair.role == .active || d.pair.role == .single

/-- The image in force. -/
def img? (d : Dev) : Option Image := d.sched.image

/-- The image that decides who owns what: the one in force, or the one accepted at this start (R273, R382). -/
def ownImage (d : Dev) : Option Image := (img? d).or d.startup.image

/-- The stage table entry of a stage. -/
def stageE (d : Dev) (s : Nat) : StageE := ((img? d).map (fun i => i.stages.getD s {})).getD {}

/-- The dispenser table entry of a dispenser. -/
def dispE (d : Dev) (i : Nat) : DispE := ((img? d).map (fun im => im.disps.getD i {})).getD {}

/-- The default of a subindex on this unit: STG.DE_ENABLE has 1 on a stage of up to 6 phases (R179). -/
def dfltAt (d : Dev) (k : Nat) : Val :=
  match locate (k / 256) with
  | some l =>
    let n := (stageE d l.inst).phases
    if l.blk = .stg ∧ l.off = 0x10 ∧ 0 < n ∧ n ≤ 6 then .num 1 else dfltOf k
  | none => dfltOf k

/-- A value that is a default comes into force without a write (R91, R100). -/
def putDflt (num sub n : Nat) (d : Dev) : Dev := { d with os := { d.os with cur := storeSet d.os.cur (okey num sub) (.num n) } }

/-- The lane is bound by the image in force (R52). -/
def laneBound (d : Dev) (l : Nat) : Bool := ((img? d).map (fun i => i.lanes.getD l 0 != 0)).getD false

/-- Group of a phase by GROUP_MAP (R53). -/
def groupOf (e : StageE) (p : Nat) : Nat := (e.map >>> (2 * p)) % 4

/-- The phases of a group, as a list and as a mask. -/
def phasesOf (e : StageE) (g : Nat) : List Nat := (List.range e.phases).filter (fun p => groupOf e p == g)

def phaseMask (e : StageE) (g : Nat) : Nat := maskOf (phasesOf e g)

/-- The bound stages of the image in force. -/
def stagesBound (d : Dev) : List Nat := (List.range 32).filter (fun s => laneBound d s)

/-- The bound dispensers of the image in force. -/
def dispsBound (d : Dev) : List Nat := (List.range 16).filter (fun i => laneBound d (32 + i))

/-- Stage state and lane state of an index. -/
def stgS (d : Dev) (s : Nat) : StgS := d.stg.getD s {}

def laneS (d : Dev) (l : Nat) : LaneS := d.lanes.lanes.getD l {}

/-- Update the supervision state of a stage. -/
def modStg (s : Nat) (f : StgS → StgS) (d : Dev) : Dev := { d with stg := modAt d.stg s f }

/-- Update the state of a stage group. -/
def modGrp (s g : Nat) (f : GrpS → GrpS) (d : Dev) : Dev :=
  modStg s (fun x => { x with groups := modAt x.groups g f }) d

/-- Update the state of a lane. -/
def modLane (l : Nat) (f : LaneS → LaneS) (d : Dev) : Dev :=
  { d with lanes := { d.lanes with lanes := modAt d.lanes.lanes l f } }

/-- The MAC address of a connector (R290). -/
def conMac (d : Dev) (c : Nat) : Bytes :=
  let s := ((img? d).map (·.siteId)).getD 0
  natLe 1 0x02 ++ natLe 1 0x4B ++ natBe 3 (s % 2 ^ 24) ++ natLe 1 c

/-- The IPv6 link-local address that a MAC address gives as a modified EUI-64 (R290, R380). -/
def eui64 (m : Bytes) : Bytes := [0xFE, 0x80, 0, 0, 0, 0, 0, 0] ++ (m.take 1).map (· ^^^ 2) ++ slice m 1 2 ++ [0xFF, 0xFE] ++ m.drop 3

/-- The IPv6 link-local address of a connector: its MAC address as a modified EUI-64 (R290). -/
def linkLocal (d : Dev) (c : Nat) : Bytes := eui64 (conMac d c)

/-- The dispenser and position of a connector, by the dispenser table (R54). -/
def connDisp (d : Dev) (c : Nat) : Option (Nat × Nat) :=
  ((List.range 16).find? (fun i => let e := dispE d i; decide (e.first ≤ c) && decide (c < e.first + e.count))).map
    (fun i => (i, c - (dispE d i).first))

/-- Control-level group in force: true at the expert level (R101). -/
def expertLevel (d : Dev) (g : Nat) : Bool := on d 0x020 g == 1

end Sys2Proof.Machine
end

