-- ==== Sys2Proof/Machine/Crypto.lean ====
section
/-! DEFINITION. The detection codes the specification spells out (CRC-8 of R77 and R117, CRC-16, CRC-24 and CRC-32) and
the published functions it refers to by name that are short enough to write whole: SHA-256 (FIPS 180-4), HMAC-SHA-256
(FIPS 198-1), the counter-mode derivation of SP 800-108, the ECDSA P-256 verification and point check (FIPS 186).
The other published functions are free values of Sys2Proof/Config.lean. -/

namespace Sys2Proof.Machine

/-! ### Cyclic codes -/

/-- One step of a cyclic code taken most significant bit first: `w` bits, generator `poly`, next data bit `b`. -/
def crcStepMsb (w poly : Nat) (c : Nat) (b : Bool) : Nat :=
  let top := (c.testBit (w - 1)) != b
  let s := (c * 2) % 2 ^ w
  if top then s ^^^ poly else s

/-- A cyclic code over a list of bits in the order given. -/
def crcBits (w poly init : Nat) (bits : List Bool) : Nat := bits.foldl (crcStepMsb w poly) init

/-- The bits of a byte, least significant first. -/
def bitsLsb (n w : Nat) : List Bool := (List.range w).map (fun i => n.testBit i)

/-- The bits of a number, most significant first. -/
def bitsMsb (n w : Nat) : List Bool := (bitsLsb n w).reverse

/-- Bits of a byte string, each byte least significant bit first. -/
def bytesBitsLsb (bs : Bytes) : List Bool := bs.flatMap (fun b => bitsLsb b.toNat 8)

/-- Bits of a byte string, each byte most significant bit first. -/
def bytesBitsMsb (bs : Bytes) : List Bool := bs.flatMap (fun b => bitsMsb b.toNat 8)

/-- The low `w` bits of a number in the opposite order. -/
def reverseBits (w n : Nat) : Nat := (bitsLsb n w).foldl (fun a b => 2 * a + boolNat b) 0

/-- The detection code of a 64-bit memory word at a word address: generator x^8 + x^5 + x^3 + x^2 + x + 1, initial
value 0xFF, 64 data bits then 23 address bits, each least significant bit first (R77). -/
def wordCode (data addr : Nat) : Nat := crcBits 8 0x2F 0xFF (bitsLsb data 64 ++ bitsLsb addr 23)

/-- The CRC-32 of IEEE 802.3: reflected, generator 0x04C11DB7, initial value and final XOR all ones. -/
def crc32 (bs : Bytes) : Nat := (reverseBits 32 (crcBits 32 0x04C11DB7 0xFFFFFFFF (bytesBitsLsb bs))) ^^^ 0xFFFFFFFF

/-! ### SHA-256 -/

/-- A 32-bit word of the hash. -/
abbrev W32 := BitVec 32

/-- The first 64 primes, from which FIPS 180-4 takes its constants. -/
def smallPrimes : List Nat :=
  [2, 3, 5, 7, 11, 13, 17, 19, 23, 29, 31, 37, 41, 43, 47, 53, 59, 61, 67, 71, 73, 79, 83, 89, 97, 101, 103, 107, 109, 113,
   127, 131] ++
  [137, 139, 149, 151, 157, 163, 167, 173, 179, 181, 191, 193, 197, 199, 211, 223, 227, 229, 233, 239, 241, 251, 257, 263,
   269, 271, 277, 281, 283, 293, 307, 311]

/-- The whole part of the `k`-th root of `n`, found bit by bit below 2^`b`, from the part `r` found so far. -/
def rootFrom (k n : Nat) : Nat → Nat → Nat
  | 0, r => r
  | b + 1, r => rootFrom k n b (if (r + 2 ^ b) ^ k ≤ n then r + 2 ^ b else r)

/-- The first 32 bits of the fraction of the `k`-th root of `p`. -/
def rootFraction (k p : Nat) : W32 := BitVec.ofNat 32 (rootFrom k (p * 2 ^ (32 * k)) 37 0)

/-- The round constants (cube roots) and the initial hash value (square roots). -/
def roundConsts : List W32 := smallPrimes.map (rootFraction 3)

def hashInit : List W32 := (smallPrimes.take 8).map (rootFraction 2)

/-- The XOR of a word's rotations by the amounts listed. -/
def xorRots (rs : List Nat) (x : W32) : W32 := rs.foldl (fun y r => y ^^^ x.rotateRight r) 0

/-- The message schedule, kept newest word first, extended by `n` words. -/
def scheduleUp : Nat → List W32 → List W32
  | 0, w => w
  | n + 1, w =>
    let near := xorRots [17, 19] (w.getD 1 0) ^^^ (w.getD 1 0 >>> 10)
    let far := xorRots [7, 18] (w.getD 14 0) ^^^ (w.getD 14 0 >>> 3)
    scheduleUp n ((near + w.getD 6 0 + far + w.getD 15 0) :: w)

/-- The working words as two histories, newest first: FIPS's a, b, c, d are the newest four of the one, e, f, g, h of the
other. -/
structure HashRun where
  top : List W32
  low : List W32
  deriving DecidableEq, Repr

/-- One round with the sum of its constant and schedule word. -/
def hashRound (s : HashRun) (kw : W32) : HashRun :=
  let x := fun i => s.top.getD i 0
  let y := fun i => s.low.getD i 0
  let choice := y 2 ^^^ (y 0 &&& (y 1 ^^^ y 2))
  let majority := (x 0 &&& x 1) ||| (x 2 &&& (x 0 ||| x 1))
  let carry := y 3 + kw + choice + xorRots [6, 11, 25] (y 0)
  { top := (carry + majority + xorRots [2, 13, 22] (x 0)) :: s.top, low := (x 3 + carry) :: s.low }

/-- The big-endian words of a byte string. -/
def beWords : Nat → Bytes → List W32
  | 0, _ => []
  | n + 1, bs => BitVec.ofNat 32 (beNat (bs.take 4)) :: beWords n (bs.drop 4)

/-- One block: the working words start from the hash value and are added to it. -/
def shaBlock (h : List W32) (blk : Bytes) : List W32 :=
  let w := (scheduleUp 48 (beWords 16 blk).reverse).reverse
  let r := (List.zipWith (· + ·) roundConsts w).foldl hashRound { top := h.take 4, low := h.drop 4 }
  List.zipWith (· + ·) h (r.top.take 4 ++ r.low.take 4)

/-- The padding of SHA-256. -/
def shaPad (m : Bytes) : Bytes :=
  m ++ [0x80] ++ List.replicate ((119 - m.length % 64) % 64) 0 ++ natBe 8 (8 * m.length)

/-- The blocks of a padded message, by fuel. -/
def shaBlocks : Nat → List W32 → Bytes → List W32
  | 0, h, _ => h
  | n + 1, h, bs => shaBlocks n (shaBlock h (bs.take 64)) (bs.drop 64)

/-- SHA-256 (FIPS 180-4). -/
def sha256 (m : Bytes) : Bytes :=
  let p := shaPad m
  (shaBlocks (p.length / 64) hashInit p).flatMap (fun w => natBe 4 w.toNat)

/-- HMAC-SHA-256 (FIPS 198-1). -/
def hmac256 (key msg : Bytes) : Bytes :=
  let k := if key.length > 64 then sha256 key else key
  let k := k ++ List.replicate (64 - k.length) 0
  sha256 (k.map (· ^^^ 0x5c) ++ sha256 (k.map (· ^^^ 0x36) ++ msg))

/-! ### P-256 -/

/-- The field prime of P-256. -/
def p256P : Nat := 2 ^ 256 - 2 ^ 224 + 2 ^ 192 + 2 ^ 96 - 1

/-- The group order of P-256. -/
def p256N : Nat := 0xffffffff00000000ffffffffffffffffbce6faada7179e84f3b9cac2fc632551

/-- The coefficient b of P-256. -/
def p256B : Nat := 0x5ac635d8aa3a93e7b3ebbd55769886bc651d06b0cc53b0f63bce3c3e27d2604b

/-- The base point of P-256. -/
def p256G : Nat × Nat :=
  (0x6b17d1f2e12c4247f8bce6e563a440f277037d812deb33a0f4a13945d898c296,
   0x4fe342e2fe1a7f9b8ee7eb4a7c0f9e162bce33576b315ececbb6406837bf51f5)

/-- A coordinate pair is a point of the curve: both below the prime, and y² = x³ − 3x + b (R486). -/
def p256OnCurve (q : Nat × Nat) : Bool :=
  decide (q.1 < p256P) && decide (q.2 < p256P) &&
    decide ((q.2 * q.2) % p256P = (q.1 * q.1 * q.1 + 3 * (p256P - q.1 % p256P) + p256B) % p256P)

/-- Modular exponentiation by the bits of the exponent, by fuel. -/
def powModFuel : Nat → Nat → Nat → Nat → Nat → Nat
  | 0, acc, _, _, _ => acc
  | f + 1, acc, b, e, m =>
    if e = 0 then acc else powModFuel f (if e % 2 = 1 then acc * b % m else acc) (b * b % m) (e / 2) m

/-- The inverse modulo a prime (Fermat). -/
def invMod (a m : Nat) : Nat := powModFuel 257 1 (a % m) (m - 2) m

/-- Subtraction modulo m. -/
def subMod (a b m : Nat) : Nat := (a % m + m - b % m) % m

/-- Point addition of P-256; `none` is the point at infinity. -/
def p256Add (a b : Option (Nat × Nat)) : Option (Nat × Nat) :=
  match a, b with
  | none, q => q
  | q, none => q
  | some (x1, y1), some (x2, y2) =>
    if x1 = x2 ∧ (y1 + y2) % p256P = 0 then none
    else
      let l :=
        if x1 = x2 then (subMod (3 * x1 * x1) 3 p256P) * invMod (2 * y1) p256P % p256P
        else (subMod y2 y1 p256P) * invMod (subMod x2 x1 p256P) p256P % p256P
      let x3 := subMod (subMod (l * l) x1 p256P) x2 p256P
      some (x3, subMod (l * subMod x1 x3 p256P) y1 p256P)

/-- Scalar multiplication by the bits of the scalar, by fuel. -/
def p256MulFuel : Nat → Option (Nat × Nat) → Option (Nat × Nat) → Nat → Option (Nat × Nat)
  | 0, acc, _, _ => acc
  | f + 1, acc, q, k =>
    if k = 0 then acc else p256MulFuel f (if k % 2 = 1 then p256Add acc q else acc) (p256Add q q) (k / 2)

/-- Scalar multiplication. -/
def p256Mul (k : Nat) (q : Option (Nat × Nat)) : Option (Nat × Nat) := p256MulFuel 257 none q k

/-- The point of 64 stored bytes, X then Y, each a 32-byte little-endian integer (R486). -/
def p256Of (pub : Bytes) : Nat × Nat := (fieldLe pub 0 32, fieldLe pub 32 32)

/-- ECDSA P-256 verification of a digest; r and s are 32-byte little-endian integers, the digest is read big-endian
(R51, FIPS 186). -/
def ecdsaVerify (pub digest r s : Bytes) : Bool :=
  let q := p256Of pub
  let rn := leNat r
  let sn := leNat s
  if rn = 0 ∨ sn = 0 ∨ rn ≥ p256N ∨ sn ≥ p256N ∨ !(p256OnCurve q) then false
  else
    let e := beNat digest
    let w := invMod sn p256N
    match p256Add (p256Mul (e * w % p256N) (some p256G)) (p256Mul (rn * w % p256N) (some q)) with
    | none => false
    | some (x, _) => decide (x % p256N = rn)

end Sys2Proof.Machine
end

