-- ==== Sys2Proof/Machine/FailSilent.lean ====
section
/-! DEFINITION. The fail-silent condition (R84, R459) and a watchdog restart (R497), up to the hold of the load channels. -/

namespace Sys2Proof.Machine

/-- Outputs stop: no further frame is launched or sent, HB_OUT is held low, a PAIR frame in transmission ends invalid; the
load channels are held for LCH.FS_HOLD (R84, R282, R459). -/
def stopOutputs (start : Nat) (d : Dev) : Dev :=
  emit .heartbeatLow { d with
    phase := .failSilent
    pair := { d.pair with hbOut := false, hbRun := false, sending := false }
    startup := { d.startup with nextCause := start } }

/-- The fail-silent condition: the cause goes to SYS.GUARD_FS_CAUSE, and the next start is of cause 4 (R84, R496). -/
def failSilent (cause : Nat) (d : Dev) : Dev :=
  if d.phase = .running then stopOutputs 4 (put 0x1C8 0 cause d) else d

/-- A watchdog restart stops the outputs in the same way; SYS.GUARD_FS_CAUSE stands and the next start is of cause 3 (R497). -/
def watchdogRestart (d : Dev) : Dev := if d.phase = .running then stopOutputs 3 d else d

end Sys2Proof.Machine
end

