-- ==== Sys2Proof/Machine/Slots.lean ====
section
/-! DEFINITION. How a control slot runs: which slot of the image it is, whether it is due (R57), where its inputs come
from (R38, R58, R60, R80), how its outputs and state commit (R81), and what a detected error does (R79 to R84). The
kernels themselves stand in Converter, Supervision, Allocation, Energy and Thermal. -/

namespace Sys2Proof.Machine

/-- What one completed run of a kernel gives: its next state words, object values, launch-register fields, events. -/
structure KOut where
  st : List Int := []
  outs : List (Nat × Nat) := []
  lreg : List (Nat × Nat) := []
  evs : List (Nat × Nat × Nat) := []
  /-- events that mark the end of a condition -/
  ends : List (Nat × Nat × Nat) := []
  /-- status bits set or cleared at the commit: object and subindex by key, bit, value -/
  stat : List (Nat × Nat × Bool) := []
  /-- the solver's area, group and node state machines -/
  alloc : Option AllocS := none
  gseq : List (Nat × GSeq) := []
  nseq : List (Nat × NSeq) := []
  /-- thermal clears that this run has answered (R260) -/
  thermDone : List Nat := []
  deriving DecidableEq, Repr, Inhabited

/-- The key of a launch-register field or lane field: KIND, lane instance, field code, element (R58). -/
def fkey (kind inst code elem : Nat) : Nat := ((kind * 64 + inst) * 65536 + code) * 64 + elem

/-- Object number of a KIND 1 binding; field code and element of the others (R58). -/
def bindObj (b : Bind) : Nat := b.target % 2 ^ 17
def bindCode (b : Bind) : Nat := b.target % 2 ^ 16
def bindElem (b : Bind) : Nat := (b.target >>> 16) % 32

/-- Bit 7 of ATTR marks an output, bits 1:0 the plane (R58). -/
def bindOut (b : Bind) : Bool := b.attr.testBit 7
def bindPlane (b : Bind) : Nat := b.attr % 4

/-- The slot of an index in the image in force. -/
def slotAt (d : Dev) (i : Nat) : Option SlotR := (img? d).bind (fun im => im.slots[i]?)

/-- Binding `j` of a slot: the inputs come first, then the outputs (R56). -/
def bindAt (im : Image) (sl : SlotR) (j : Nat) : Bind := im.binds.getD (sl.firstBind + j) default

/-- The input and output bindings of a slot. -/
def inBinds (im : Image) (sl : SlotR) : List Bind := (im.binds.drop sl.firstBind).take sl.ins

def outBinds (im : Image) (sl : SlotR) : List Bind := (im.binds.drop (sl.firstBind + sl.ins)).take sl.outs

/-- The slot is due at position (k, m) (R57). -/
def slotDue (sl : SlotR) (k m : Nat) : Bool :=
  sl.rate == 0 || (sl.rate == 1 && sl.microOfs == m) || (sl.rate == 2 && sl.microOfs == m && sl.minorOfs == k)

/-- Section open in this micro-frame: the launch section needs the sample token and ends at the launch token (R39). -/
def sectOpen (d : Dev) (sect : Nat) : Bool :=
  d.time.begun && (sect == 0 || d.time.sampled) && (sect != 1 || !d.time.launched)

/-! ### Stages in HOLD (R196) -/

/-- The kernels that HOLD stops. -/
def holdKernels : List Nat := [1, 2, 3, 4, 0x11, 0x20, 0x21, 0x22, 0x23, 0x24, 0x25, 0x26, 0x27]

/-- The stage that holds a slot: a KIND 2 or 3 binding on its lane, or an input bound to G.MEAS of one of its groups. -/
def slotHeldBy (d : Dev) (im : Image) (sl : SlotR) : Bool :=
  holdKernels.contains sl.kernel &&
    (((inBinds im sl) ++ (outBinds im sl)).any (fun b => (b.kind == 2 || b.kind == 3) && (stgS d b.sub).hold) ||
      (inBinds im sl).any (fun b => b.kind == 1 &&
        (match locate (bindObj b) with
         | some l => l.blk == .grp && l.off == 0 && (stgS d l.inst).hold
         | none => false)))

/-- The 4 KiB granules of the image that hold the slot's record or bindings (R85). -/
def slotGranules (im : Image) (i : Nat) (sl : SlotR) : List Nat :=
  let a := im.ofsSlots + 32 * i
  let b := im.ofsBinds + 8 * sl.firstBind
  [a / 4096, (a + 31) / 4096, b / 4096, (b + 8 * (sl.ins + sl.outs) - 1) / 4096]

/-- A granule of the slot's record, bindings or code is being reloaded (R85). -/
def slotReloading (d : Dev) (im : Image) (i : Nat) (sl : SlotR) : Bool :=
  d.guard.reload.any (fun p =>
    match p.1 with
    | .image g => (slotGranules im i sl).contains g
    | .constants _ => true
    | .cellCode c _ => c == sl.cell
    | .laneCode _ => false)

/-- The slot's outputs hold in this micro-frame: its run is not due (R85, R196). -/
def slotHeld (d : Dev) (im : Image) (i : Nat) (sl : SlotR) : Bool := slotHeldBy d im sl || slotReloading d im i sl

/-- Table order: every due slot of the same cell that stands earlier has completed or is held this micro-frame (R39,
R57). -/
def earlierDone (d : Dev) (im : Image) (i : Nat) (sl : SlotR) : Bool :=
  ((List.range im.slots.length).zip im.slots).all (fun p =>
    !(p.2.cell == sl.cell && slotDue p.2 d.time.k d.time.m &&
        (decide (p.2.sect < sl.sect) || (p.2.sect == sl.sect && decide (p.1 < i)))) ||
      d.sched.ran.contains p.1 || d.sched.stopped.contains p.1 || slotHeld d im p.1 p.2)

/-! ### Inputs -/

/-- Value of an object subindex as a slot of a cell reads it: what a slot of the same cell wrote earlier in this
micro-frame, else the value at the boundary swap (R38, R60). -/
def rd (d : Dev) (cell num sub : Nat) : Nat :=
  match d.sched.outs.find? (fun o => o.key == okey num sub && o.cell == cell) with
  | some o => valNat o.val
  | none => sn d num sub

def rdi (w : Nat) (d : Dev) (cell num sub : Nat) : Int := toS w (rd d cell num sub)

def rdq (d : Dev) (cell num sub : Nat) : Int := rdi 32 d cell num sub

/-- Bytes of an object as a slot reads it. -/
def rdb (d : Dev) (num sub : Nat) : Bytes := valBytes (storeGet d.os.snap (okey num sub))

/-- Byte offset and width of a STAGE_UP field (R122, R133). -/
def upOff (code elem : Nat) : Nat × Nat :=
  if 1 ≤ code ∧ code ≤ 4 then (64 + 8 * elem + 2 * (code - 1), 2)
  else if code = 0x20 then (12, 2)
  else if code = 0x21 then (16 + 2 * elem, 2)
  else if code = 0x22 then (24 + 2 * elem, 2)
  else if code = 0x30 then (32 + 2 * elem, 2)
  else if code = 0x40 then (0, 4)
  else if code = 0x41 then (4, 4)
  else (0, 0)

/-- A STAGE_UP field as latched (R133, KIND 2). -/
def stageField (body : Bytes) (code elem : Nat) : Nat :=
  if code = 0x10 then (fieldLe body 48 16 >>> (4 * elem)) % 16
  else let o := upOff code elem; fieldLe body o.1 o.2

/-- A dispenser upstream field as latched at the sample token (R128, R129, R133, KIND 4). -/
def dispField (d : Dev) (di code elem : Nat) : Nat :=
  let body := (laneS d (32 + di)).cur
  let rec? := fun i => d.lanes.recs.getD ((dispE d di).first + i) {}
  if code = 0x201 then fieldLe body (16 + 2 * elem) 2
  else if code = 0x202 then fieldLe body (32 + 2 * elem) 2
  else if code = 0x210 then (rec? (elem / 4)).curThermal.getD (elem % 4) 0
  else if code = 0x211 then (rec? elem).curThermal.getD 4 0
  else if code = 0x212 then (rec? elem).curThermal.getD 5 0
  else if code = 0x213 then (rec? elem).curThermal.getD 6 0
  else if code = 0x220 then (rec? elem).curRiso
  else if code = 0x221 then (rec? elem).curIso
  else if code = 0x230 then fieldLe body 12 2
  else if code = 0x231 then fieldLe body 0 4
  else 0

/-- The STAGE_UP body of a stage as the slots see it. -/
def upBody (d : Dev) (s : Nat) : Bytes := (laneS d s).cur

/-- The raw number of a slot's input binding. -/
def inNum (d : Dev) (sl : SlotR) (b : Bind) : Nat :=
  if b.kind = 1 then rd d sl.cell (bindObj b) b.sub
  else if b.kind = 2 then stageField (upBody d b.sub) (bindCode b) (bindElem b)
  else if b.kind = 4 then dispField d b.sub (bindCode b) (bindElem b)
  else 0

/-- The mean of I0–I3 of a phase in Q16.16 A, rounded toward negative infinity (R153). -/
def meanI (body : Bytes) (p : Nat) : Int :=
  let i := fun k => toS 16 (stageField body (k + 1) p)
  ((i 0 + i 1 + i 2 + i 3) * 41943) / 256

/-- Width in bits of a binding's type code, and whether it is signed (R58). -/
def bindWidth (ty : Nat) : Nat :=
  if ty = 1 ∨ ty = 2 ∨ ty = 6 then 8 else if ty = 3 ∨ ty = 7 then 16
  else if ty = 4 ∨ ty = 8 ∨ ty = 0xA ∨ ty = 0xB then 32 else if ty = 0xE then 96 else 64

def bindSigned (ty : Nat) : Bool := ty == 6 || ty == 7 || ty == 8 || ty == 9 || ty == 0xA

/-- The value of an input binding as an exact integer of its type; a binding to I0 of a phase is the mean (R153). -/
def inVal (d : Dev) (sl : SlotR) (b : Bind) : Int :=
  if b.kind = 2 ∧ bindCode b = 1 then meanI (upBody d b.sub) (bindElem b)
  else
    let n := inNum d sl b
    if bindSigned b.ty then toS (bindWidth b.ty) n else (n : Int)

/-- The value of input `j` of a slot. -/
def inp (d : Dev) (im : Image) (sl : SlotR) (j : Nat) : Int := inVal d sl (bindAt im sl j)

/-- The key of output `j` of a slot. -/
def outKey (im : Image) (sl : SlotR) (j : Nat) : Nat :=
  let b := bindAt im sl (sl.ins + j)
  okey (bindObj b) b.sub

/-- The launch-register key of output `j` of a slot (KIND 3 and 5). -/
def outField (im : Image) (sl : SlotR) (j : Nat) : Nat :=
  let b := bindAt im sl (sl.ins + j)
  fkey b.kind b.sub (bindCode b) (bindElem b)

/-- An output of a slot, to an object or to a launch register by its binding, as the raw number of its width. -/
def outTo (im : Image) (sl : SlotR) (j : Nat) (v : Int) (o : KOut) : KOut :=
  let b := bindAt im sl (sl.ins + j)
  let n := ofS (bindWidth b.ty) v
  if b.kind = 1 then { o with outs := o.outs ++ [(outKey im sl j, n)] }
  else { o with lreg := o.lreg ++ [(outField im sl j, n)] }

/-! ### Commit -/

/-- The committed state words of a slot; the empty list is the entry state (R81). -/
def kstOf (d : Dev) (i : Nat) : List Int := (alGet d.sched.kst i).getD []

/-- Commit a completed run: state, outputs, launch-register fields, events (R81). The outputs and the status bits come into
force for the other planes at the next boundary token (R38). -/
def slotCommit (i : Nat) (sl : SlotR) (stamp : Nat) (o : KOut) (d : Dev) : Dev :=
  let d := { d with
    sched := { d.sched with
      kst := alSet d.sched.kst i o.st
      alloc := o.alloc.getD d.sched.alloc
      outs := o.outs.map (fun p => { key := p.1, cell := sl.cell, val := .num p.2 }) ++ d.sched.outs
      ran := i :: d.sched.ran
      adapted := if sl.kernel = 0x25 ∧ !(d.sched.adapted.contains i) then i :: d.sched.adapted else d.sched.adapted
      stats := d.sched.stats ++ o.stat
      stamp := alSet d.sched.stamp sl.cell stamp }
    lanes := { d.lanes with lreg := o.lreg.foldl (fun l p => alSet l p.1 p.2) d.lanes.lreg }
    therm := { d.therm with clearDue := d.therm.clearDue.filter (fun k => !(o.thermDone.contains k)) }
    energy := { d.energy with
      groups := o.gseq.foldl (fun l p => setAt l p.1 p.2) d.energy.groups
      nodes := o.nseq.foldl (fun l p => setAt l p.1 p.2) d.energy.nodes } }
  let d := forEach o.evs (fun e => raise e.1 e.2.1 e.2.2) d
  forEach o.ends (fun e => raiseEnd e.1 e.2.1 e.2.2) d

/-- Mark a slot as not run in this micro-frame; its outputs hold (R43, R85, R196). -/
def slotHold (i : Nat) (d : Dev) : Dev := { d with sched := { d.sched with stopped := i :: d.sched.stopped } }

/-- Record the last detected error (R89). -/
def guardLast (cls idx : Nat) (d : Dev) : Dev :=
  put 0x1C6 3 d.time.micro (put 0x1C6 2 idx (put 0x1C6 1 cls d))

/-- REINIT (R81): the run is abandoned and the slot starts its next run from the entry state. -/
def slotReinit (i : Nat) (sl : SlotR) (d : Dev) : Dev :=
  let d := setStatus 0x1C0 0 1 (incr 32 0x1C2 0 (guardLast 3 i d))
  slotHold i { d with sched := { d.sched with
    kst := alDel d.sched.kst i
    alloc := if sl.kernel = 0x50 then d.sched.alloc.cleared else d.sched.alloc } }

/-! ### What the guard checks (R75 to R79) -/

/-- The result of an arithmetic step agrees with the residues of its operands, the adjustment of rounding or saturation applied
to both sides (R75). -/
def residueOk (op : ArithOp) (ra rb : Nat) (adjust produced : Int) : Bool :=
  let r : Int := match op with
    | .add => (ra : Int) + rb
    | .sub => (ra : Int) - rb
    | .mul => (ra : Int) * rb
  decide ((r + adjust) % 3 = produced % 3)

/-- A word passes its detection code (R77). -/
def wordOk (w : WordRead) : Bool := wordCode w.data w.addr == w.code

/-- The class of the error that a check of a running slot finds, 0 for none (R79; a step beyond DECLARED is class 1, R67). -/
def seenClass : SlotSeen → Nat
  | .clean => 0
  | .arith op ra rb adjust p => if residueOk op ra rb adjust p then 0 else 1
  | .paths a b => if a = b then 0 else 1
  | .excess => 1
  | .working w => if wordOk w then 0 else 2
  | .committed w => if wordOk w then 0 else 3
  | .snapshot _ w _ => if wordOk w then 0 else 4
  | .table _ w => if wordOk w then 0 else 5

/-- STEP_EXCESS (R67). -/
def stepExcess (cell : Nat) (d : Dev) : Dev := raise 0x1C02 cell 0 (setStatus 0x1A0 0 3 d)

/-- A granule is reloaded from now on, unless it is already (R85). -/
def reloadStart (g : Granule) (d : Dev) : Dev :=
  if d.guard.reload.any (fun p => p.1 == g) then d
  else { d with guard := { d.guard with reload := d.guard.reload ++ [(g, 0)] } }

/-- What SYS.GUARD_LAST and SCH.STATUS say of an error in a slot (R67, R89). -/
def slotErrorBooks (i : Nat) (sl : SlotR) (x : SlotSeen) (d : Dev) : Dev :=
  guardLast (seenClass x) i (if x = .excess then stepExcess sl.cell d else d)

/-- The books of a re-run: counter and status (R82, R83). -/
def slotRerunBooks (i : Nat) (sl : SlotR) (x : SlotSeen) (d : Dev) : Dev :=
  let d := setStatus 0x1C0 0 0 (incr 32 0x1C1 (sl.cell + 1) (slotErrorBooks i sl x d))
  { d with sched := { d.sched with reran := i :: d.sched.reran } }

/-- Restore an object value that failed its code, at a word address, to its previous committed value, its NOR copy or its
default (R86). -/
def restoreObj (num sub addr : Nat) (d : Dev) : Dev :=
  let k := okey num sub
  let v := match storeFind d.os.prev k with
    | some v => v
    | none => if isPersistK k then (storeFind d.os.nor k).getD (dfltAt d k) else dfltAt d k
  let d := { d with os := { d.os with
    cur := storeSet d.os.cur k v
    stale := if d.os.stale.contains k then d.os.stale else k :: d.os.stale } }
  setStatus 0x1C0 0 5 (guardLast 6 addr d)

/-- Where the source of a failing snapshot word fails too (R80), before the slot re-runs: a lane field counts as missing, an
object is handled as class 6. -/
def refetch (missing : Bind → Dev → Dev) (im : Image) (sl : SlotR) (x : SlotSeen) (d : Dev) : Dev :=
  match x with
  | .snapshot j _ src =>
    let b := bindAt im sl j
    if wordOk src then d
    else if b.kind = 1 then
      let d := restoreObj (bindObj b) b.sub src.addr d
      { d with os := { d.os with snap := storeSet d.os.snap (okey (bindObj b) b.sub) (ov d (bindObj b) b.sub) } }
    else missing b d
  | _ => d

/-- The slot may start now: due at this position, its section open, its turn in table order, and not run, stopped or left in a
re-run before (R39, R57, R83). -/
def slotReady (d : Dev) (im : Image) (i : Nat) (sl : SlotR) : Bool :=
  running d && slotDue sl d.time.k d.time.m && sectOpen d sl.sect && earlierDone d im i sl &&
    !(d.sched.ran.contains i) && !(d.sched.stopped.contains i) && !(d.sched.reran.contains i)

/-- What an error of class 1, 2 or 4 does: the slot re-runs; a second error makes the device fail-silent; a re-run that misses
the deadline commits nothing and is left to its OVERRUN (R80, R82 to R84). -/
def slotRerun (missing : Bind → Dev → Dev) (im : Image) (i : Nat) (sl : SlotR) (r : SlotReport) (f : Dev → KOut) (d : Dev) : Dev :=
  let d := refetch missing im sl r.seen (slotRerunBooks i sl r.seen d)
  if seenClass r.again ≠ 0 then failSilent 1 (slotErrorBooks i sl r.again d)
  else if r.late then d
  else slotCommit i sl r.stamp (f d) d

/-- One run of slot `i`, of kernel `kern`, with the report of its checks. -/
def runSlot (kern : Nat) (missing : Bind → Dev → Dev) (f : Dev → Image → SlotR → List Int → KOut)
    (i : Nat) (r : SlotReport) (d : Dev) : Dev :=
  match img? d, slotAt d i with
  | some im, some sl =>
    let run := fun d => f d im sl (kstOf d i)
    if !(sl.kernel == kern && slotReady d im i sl) then d
    else if slotHeld d im i sl then slotHold i d
    else match seenClass r.seen, r.seen with
    | 0, _ => slotCommit i sl r.stamp (run d) d
    | 3, _ => slotReinit i sl d
    | 5, .table g w => slotHold i (reloadStart g (guardLast 5 w.addr d))
    | _, _ => slotRerun missing im i sl r run d
  | _, _ => d

end Sys2Proof.Machine
end

