-- ==== Sys2Proof/Machine/Converter.lean ====
section
/-! DEFINITION. Converter control (spec/07): the arithmetic of the kernels PI, PID, 2P2Z, 3P3Z, MINSEL, RAMP, LIMIT,
BALANCE, PACK, DIODE_EMU, SHED and I2T, and the basic derivation of coefficients (R167). -/

namespace Sys2Proof.Machine

/-! ### Formats (R153) -/

/-- Conversion from Q24.40 to Q16.16: add 2^23, shift right by 24, in the range of Q16.16. -/
def q16 (x : Int) : Int := satS 32 (rshR x 24)

/-- A product of two Q16.16 values brought back to Q16.16. -/
def mul16 (a b : Int) : Int := satS 32 (rshR (a * b) 16)

/-- Clamp where the upper bound wins when the bounds cross (R158). -/
def clampHi (lo hi x : Int) : Int := min (max x lo) hi

/-- The real value x·num/den, rounded to the nearest Q16.16 step, ties toward positive infinity. -/
def convQ (x num den : Int) : Int := satS 32 (divHalfUp (x * num * 65536) den)

/-! ### PI and PID (R155, R156) -/

/-- One run of PI: integral `i` (Q24.40), coefficients, margin, extra Q24.40 term `dterm` of PID; gives (out, next i). -/
def piStep (i kp ki umin umax m r y t dterm : Int) : Int × Int :=
  let e := satS 32 (r - y)
  let p := satS 64 (kp * e + dterm)
  let i1 := satS 64 (i + ki * e)
  let w := q16 (satS 64 (p + i1))
  let u0 := clampHi umin umax w
  let lim := satS 32 (t + m)
  let u := if u0 > lim then lim else u0
  (u, if u ≠ w then satS 64 (u * 2 ^ 24 - p) else i1)

/-- Bank B of a coefficient object when the stage's selector says so (R160): the object number to read. -/
def bankObj (d : Dev) (cell num : Nat) : Nat :=
  match locate num with
  | some l =>
    if (l.blk = .grp ∧ (l.off = 4 ∨ l.off = 0x1B)) ∨ (l.blk = .stg ∧ l.off = 2) then
      num + rd d cell (oStg l.inst 1) 0 % 2
    else num
  | none => num

/-- An input of a PI or LIMIT: a temperature in 0.1 °C (S16) is taken as Q16.16 °C (R263). -/
def inpT (d : Dev) (im : Image) (sl : SlotR) (j : Nat) : Int :=
  let x := inp d im sl j
  if (bindAt im sl j).ty = 7 then x * 419430 / 64 else x

/-- PI and PID (R155, R156, R263): inputs R, Y, T and the first coefficient subindex. `pid` selects the PID layout. -/
def kPi (pid : Bool) (d : Dev) (im : Image) (sl : SlotR) (st : List Int) : KOut :=
  let cb := bindAt im sl 3
  let co := bankObj d sl.cell (bindObj cb)
  let cf := fun k => rdq d sl.cell co (cb.sub + k)
  let m := rdq d sl.cell co (if pid then 0x1F else 0x19)
  let r := inpT d im sl 0
  let y := inpT d im sl 1
  let t := inpT d im sl 2
  let yb := bindAt im sl 1
  let run :=
    let e := satS 32 (r - y)
    let e1 := st.getD 1 0
    let dt := if pid then cf 4 * satS 32 (e - e1) else 0
    let o := piStep (st.getD 0 0) (cf 0) (cf 1) (cf 2) (cf 3) m r y t dt
    outTo im sl 0 o.1 { st := if pid then [o.2, e] else [o.2] }
  match locate (bindObj cb) with
  | some l =>
    if l.blk = .grp then
      let mo := oGrp l.inst l.sub 0
      if rd d sl.cell mo 7 = 0 then outTo im sl 0 0 { st := [] }
      else if yb.kind = 1 ∧ bindObj yb = mo ∧ yb.sub = 1 ∧ rdq d sl.cell mo 5 = -65536 then
        outTo im sl 0 (cf 3) { st := [] }
      else run
    else run
  | none => run

/-! ### MINSEL, LIMIT, RAMP (R157 to R159) -/

/-- The index and value of the lowest candidate; the lowest index among equals. -/
def minSel : List Int → Nat → Nat × Int → Nat × Int
  | [], _, best => best
  | x :: l, j, best => minSel l (j + 1) (if x < best.2 then (j, x) else best)

def kMinsel (d : Dev) (im : Image) (sl : SlotR) (_ : List Int) : KOut :=
  let xs := (List.range sl.p1).map (fun j => inp d im sl j)
  let r := minSel (xs.drop 1) 1 (0, xs.headD 0)
  outTo im sl 1 r.1 (outTo im sl 0 r.2 {})

def kLimit (d : Dev) (im : Image) (sl : SlotR) (_ : List Int) : KOut :=
  outTo im sl 0 (clampHi (inpT d im sl 1) (inpT d im sl 2) (inpT d im sl 0)) {}

/-- Micro-frame length in ms as Q16.16 (R159: 1,311 at 20 µs). -/
def tMsQ (d : Dev) : Int := divHalfUp ((tNs d : Int) * 65536) 1000000

/-- One run of RAMP: state out, act, start (R159). -/
def rampStep (st : List Int) (stop : Bool) (target meas step : Int) : Int × List Int :=
  if target = 0 ∨ stop then (meas, [meas, 0, meas])
  else
    let out0 := if st.getD 1 0 = 0 then meas else st.getD 0 0
    let start := if st.getD 1 0 = 0 then meas else st.getD 2 0
    let out := satS 32 (out0 + clampHi (-step) step (satS 32 (target - out0)))
    (out, [out, 1, start])

/-- RAMP: TARGET bound to G.VSET, MEAS to G.MEAS.01, RATE to G.RAMP_RATE. -/
def kRamp (d : Dev) (im : Image) (sl : SlotR) (st : List Int) : KOut :=
  let mb := bindAt im sl 1
  let stop := rd d sl.cell (bindObj mb) 7 == 0
  let o := rampStep st stop (inp d im sl 0) (inp d im sl 1) (mul16 (inp d im sl 2) (tMsQ d))
  outTo im sl 0 o.1 { st := o.2 }

/-! ### Phase compensators (R163) -/

/-- The phase bank in force of a stage. -/
def phBank (d : Dev) (cell s : Nat) : Nat := oStg s 2 + rd d cell (oStg s 1) 0 % 2

/-- One run of the compensator: history e1 e2 e3 v1 v2 v3, coefficients B0–B3, A1–A3, clamps; gives (v, history). -/
def compStep (h : List Int) (b : List Int) (a : List Int) (vmin vmax e : Int) : Int × List Int :=
  let e1 := h.getD 0 0
  let e2 := h.getD 1 0
  let e3 := h.getD 2 0
  let v1 := h.getD 3 0
  let v2 := h.getD 4 0
  let v3 := h.getD 5 0
  let acc := satS 64 (b.getD 0 0 * e + b.getD 1 0 * e1 + b.getD 2 0 * e2 + b.getD 3 0 * e3
    - a.getD 0 0 * v1 - a.getD 1 0 * v2 - a.getD 2 0 * v3)
  let v := clampHi vmin vmax (q16 acc)
  (v, [e, e1, e2, v, v1, v2])

/-- 2P2Z and 3P3Z: REF, MEAS (I0 of phase p), FF (G.MEAS.04), COEF. `third` adds B3, A3. -/
def kComp (third : Bool) (d : Dev) (im : Image) (sl : SlotR) (st : List Int) : KOut :=
  let mb := bindAt im sl 1
  let s := mb.sub
  let p := bindElem mb
  let fo := bindObj (bindAt im sl 2)
  let dff := inp d im sl 2
  if !(rd d sl.cell fo 7).testBit p then outTo im sl 0 dff { st := [] }
  else
    let bk := phBank d sl.cell s
    let c := fun k => rdq d sl.cell bk k
    let rmax := c 8
    let r := clampHi (-rmax) rmax (mul16 (rdq d sl.cell fo 5) (mul16 (rdq d sl.cell fo 6) (inp d im sl 0)))
    let e := satS 32 (r - inp d im sl 1)
    let o := compStep st [c 1, c 2, c 3, if third then c 11 else 0] [c 4, c 5, if third then c 12 else 0] (c 6) (c 7) e
    outTo im sl 0 (satS 32 (dff + o.1)) { st := o.2 }

/-! ### BALANCE, PACK, DIODE_EMU (R165, R166, R175) -/

/-- Trims of the enabled phases about their mean (R165). -/
def balanceTrims (kb trimMax : Int) (on : List Bool) (im : List Int) : List Int :=
  let sel := (List.zip on im).filterMap (fun p => if p.1 then some p.2 else none)
  let mean := if sel = [] then 0 else divHalfUp (sumI sel) sel.length
  (List.zip on im).map (fun p =>
    if p.1 then clampHi (-trimMax) trimMax (q16 (satS 64 (-(kb * satS 32 (p.2 - mean))))) else 0)

def outList (im : Image) (sl : SlotR) (from' : Nat) (vs : List Int) (o : KOut) : KOut :=
  ((List.range vs.length).zip vs).foldl (fun o p => outTo im sl (from' + p.1) p.2 o) o

def kBalance (d : Dev) (im : Image) (sl : SlotR) (_ : List Int) : KOut :=
  let bs := (inBinds im sl).take sl.p1
  let s := (bindAt im sl 0).sub
  let mask := (inp d im sl sl.p1).toNat
  let bk := phBank d sl.cell s
  let vs := balanceTrims (rdq d sl.cell bk 9) (rdq d sl.cell bk 10) (bs.map (fun b => mask.testBit (bindElem b)))
    (bs.map (fun b => inVal d sl b))
  outList im sl 0 vs {}

def kPack (d : Dev) (im : Image) (sl : SlotR) (_ : List Int) : KOut :=
  let s := (bindAt im sl sl.ins).sub
  let tm := rdq d sl.cell (phBank d sl.cell s) 10
  let duty := (List.range sl.p1).map (fun j => clampHi 0 65535 (inp d im sl j))
  let trim := (List.range sl.p1).map (fun j => clampHi (-tm) tm (inp d im sl (sl.p1 + j)))
  outList im sl sl.p1 trim (outList im sl 0 duty {})

/-- Diode emulation of one phase: previous duty `d1` (none on the entry state), duty, zero-current bits. -/
def diodeStep (d1 : Option Int) (dl : Int) (zc : Nat) : Int :=
  if zc = 0 then dl else let p := d1.getD dl; clampHi (p - 1024) (p + 1024) dl

def kDiode (d : Dev) (im : Image) (sl : SlotR) (st : List Int) : KOut :=
  let vs := (List.range sl.p1).map (fun j => diodeStep (st[j]?) (inp d im sl j) (inp d im sl (sl.p1 + j)).toNat)
  outList im sl 0 vs { st := vs }

/-! ### SHED (R176, R177) -/

/-- The next phase of the ring A after `p` (ascending, wrapping) that satisfies a test. -/
def ringNext (a : Nat) (p : Nat) (ok : Nat → Bool) : Option Nat :=
  let ring := bitsSet 32 a
  ((ring.filter (fun i => decide (p < i))) ++ (ring.filter (fun i => decide (i ≤ p)))).find? ok

/-- Enable one phase (R177). -/
def shedAdd (rotate : Bool) (a en tail : Nat) : Nat :=
  let c := if rotate then ringNext a ((tail + 31) % 32) (fun i => !en.testBit i)
    else (bitsSet 32 a).find? (fun i => !en.testBit i)
  match c with
  | some i => setBit en i
  | none => en

/-- Disable one phase; gives the enabled set and the tail (R177). -/
def shedDrop (rotate : Bool) (a en tail : Nat) : Nat × Nat :=
  if rotate then
    let en' := clearBit en tail
    (en', (ringNext a tail (fun i => en'.testBit i)).getD tail)
  else match ((bitsSet 32 a).filter (fun i => en.testBit i)).getLast? with
    | some i => (clearBit en i, tail)
    | none => (en, tail)

/-- The tail after phases have left the set: the first enabled phase of the ring from the old tail on. -/
def shedTail (a en tail : Nat) : Nat :=
  if en.testBit tail then tail else (ringNext a tail (fun i => en.testBit i)).getD tail

/-- One run of SHED: state en, tail, dwell (ns); |IG|, R in Q16.16; LO, HI in %, DWELL in ms; Tm in ns.
Gives the state and whether add() or shed() ran. -/
def shedStep (rotate : Bool) (st : List Int) (a : Nat) (ig r : Int) (lo hi dwellMs nmin : Nat) (tm : Int) :
    List Int × Bool :=
  let low := ((bitsSet 32 a).head?).getD 0
  let en := (if st = [] then a else (st.getD 0 0).toNat) &&& a
  let tail := shedTail a en (if st = [] then low else (st.getD 1 0).toNat)
  let dw := st.getD 2 0
  let n := popCount 32 en
  let x := absI ig * 100
  if x > (hi : Int) * r * (max n 1 : Nat) ∧ n < popCount 32 a then
    let en' := shedAdd rotate a en tail
    ([(en' : Int), (shedTail a en' tail : Nat), 0], true)
  else if x < (lo : Int) * r * (max n 1 : Nat) ∧ n > nmin ∧ x < ((n : Int) - 1) * hi * r then
    let dw' := dw + tm
    if dw' ≥ (dwellMs : Int) * 1000000 then
      let o := shedDrop rotate a en tail
      ([(o.1 : Int), (o.2 : Int), 0], true)
    else ([(en : Int), (tail : Int), dw'], false)
  else ([(en : Int), (tail : Int), 0], false)

/-- Length in ns of the minor frame just ended (R30, R173). -/
def minorNs (d : Dev) : Int := (microsOf d.time.code (d.time.minor - 1) * tNs d : Nat)

/-- SHED: inputs G.MEAS.02 and STG.SHED.01; output STG.EN_REQ[g]. A stopped group keeps its state (R178). -/
def kShed (d : Dev) (im : Image) (sl : SlotR) (st : List Int) : KOut :=
  let mo := bindObj (bindAt im sl 0)
  match locate mo with
  | some l =>
    let s := l.inst
    let a := rd d sl.cell mo 8
    let sh := oStg s 0x11
    if rd d sl.cell mo 7 = 0 ∧ st ≠ [] then
      outTo im sl 0 (st.getD 0 0) { st := st }
    else
      let o := shedStep ((sn d 0x011 0).testBit 5) st a (inp d im sl 0) (rdq d sl.cell mo 9) (rd d sl.cell sh 1)
        (rd d sl.cell sh 2) (rd d sl.cell sh 3) (rd d sl.cell sh 4) (minorNs d)
      let en := o.1.getD 0 0
      outTo im sl 0 en { st := o.1, evs := if o.2 then [(0x2801, s, l.sub + en.toNat * 2 ^ 32)] else [] }
  | none => {}

/-! ### I2T (R173, R174) -/

/-- One run of I2T: state a (2^-24 A²·s) and st (0 NORMAL, 1 FOLD, 2 TRIP); Tm in ns; TRIP in A²·s. -/
def i2tStep (st : List Int) (ig ic trip tm : Int) : List Int :=
  let a := max 0 (min (2 ^ 64 - 1) (st.getD 0 0 + divHalfUp ((ig * ig - ic * ic) * tm) (256 * 1000000000)))
  let t := trip * 2 ^ 24
  let s0 := st.getD 1 0
  let s := if a ≥ t then 2 else if s0 = 0 ∧ 10 * a ≥ 8 * t then 1 else if s0 ≠ 0 ∧ 2 * a < t then 0 else s0
  [a, s]

/-- I2T: inputs G.MEAS.02 and G.I2T.01; output G.I2T_HI. -/
def kI2t (d : Dev) (im : Image) (sl : SlotR) (st : List Int) : KOut :=
  let mo := bindObj (bindAt im sl 0)
  let io := bindObj (bindAt im sl 1)
  match locate mo with
  | some l =>
    let c := fun k => rdq d sl.cell io k
    let n := i2tStep st (inp d im sl 0) (c 1) (rd d sl.cell io 4) (minorNs d)
    let s0 := st.getD 1 0
    let s1 := n.getD 1 0
    let out := if s1 = 0 then c 3 else if s1 = 1 then c 2 else 0
    outTo im sl 0 out { st := n, evs := (if s1 = 1 ∧ s0 ≠ 1 then [(0x2A01, l.inst, l.sub)] else []) ++
      (if s1 = 2 ∧ s0 ≠ 2 then [(0x2E02, l.inst, l.sub)] else []) }
  | none => {}

/-! ### Basic derivation of coefficients (R167) -/

/-- π·10^30, rounded: every value of the table is rounded once from an exact quotient in which π is this constant. -/
def piE30 : Int := 3141592653589793238462643383280

/-- A coefficient in Q8.24 nearest to num/den. -/
def q824 (num den : Int) : Int := if den = 0 then 0 else divHalfUp (num * 2 ^ 24) den

/-- The quotients (numerator, denominator) of the phase loop: KP and KI from f_c (Hz), L (Q16.16 µH), V (Q16.16 V) and
T (ns). -/
def phaseKpKi (fc l v t : Int) : (Int × Int) × (Int × Int) :=
  -- KP = 2π·f_c·L/V, L in µH
  let n := 2 * piE30 * fc * l
  let dn := 10 ^ 36 * v
  -- KI = KP·2π·(f_c/10)·T
  ((n, dn), (n * 2 * piE30 * fc * t, dn * 10 ^ 30 * 10 * 10 ^ 9))

/-- The basic-source phase bank, subindices .01–.0C (R167, R180). -/
def basicPhase (fc l v t rated : Int) : List Int :=
  let k := phaseKpKi fc l v t
  let kp := k.1
  let ki := k.2
  let b0 := q824 (kp.1 * ki.2 + ki.1 * kp.2) (kp.2 * ki.2)
  [b0, -(q824 kp.1 kp.2), 0, -(2 ^ 24), 0, -32768, 32768, divHalfUp (12 * rated) 10, q824 kp.1 (4 * kp.2), 1311, 0, 0]

/-- KP and KI of group loop j in Q8.24 from G.BASIC: f_v, f_o (Hz), C (Q16.16 µF), V_N (Q16.16 V), T (ns). -/
def basicLoop (j : Nat) (fv fo c vn t : Int) : Int × Int :=
  if j = 0 then
    let n := 2 * piE30 * fv * c
    let dn := 10 ^ 36 * 65536
    (q824 n dn, q824 (n * 2 * piE30 * fv * t) (dn * 10 ^ 30 * 5 * 10 ^ 9))
  else if j = 2 then (0, q824 (2 * piE30 * fo * t * 1000 * 65536) (10 ^ 30 * 10 ^ 9 * vn))
  else (0, q824 (2 * piE30 * fo * t) (10 ^ 30 * 10 ^ 9))

/-- The basic-source I2T values IC, IFOLD, IMAX (Q16.16 A) and TRIP (A²·s) of a group (R167). -/
def basicI2t (rated : Int) (n : Nat) : List Int :=
  let ic := rated * n
  let imax := divHalfUp (12 * ic) 10
  [satS 32 ic, satS 32 (divHalfUp (95 * ic) 100), satS 32 imax,
    clampI 0 (2 ^ 32 - 1) (divHalfUp ((144 * ic * ic - 100 * ic * ic) * 10) (100 * 2 ^ 32))]

/-- The basic-source lower bound G.IG_MIN (R167). -/
def basicIgMin (imax : Int) : Int := divHalfUp (-(2 * imax)) 100

/-- Every coefficient lies within ±128 (R167). -/
def coefOk (xs : List Int) : Bool := xs.all (fun x => decide (-(2 ^ 31) ≤ x) && decide (x < 2 ^ 31))

/-- The coefficients of a phase bank and of a group's loops fit Q8.24 (R167, refusal with RANGE). -/
def basicPhaseOk (fc l v t : Int) : Bool := coefOk ((basicPhase fc l v t 0).take 5 ++ [(basicPhase fc l v t 0).getD 8 0])

def basicLoopsOk (fv fo c vn t : Int) : Bool :=
  (List.range 6).all (fun j => let k := basicLoop j fv fo c vn t; coefOk [k.1, k.2])

/-- Write a list of numbers to the subindices of an object from `sub` on. -/
def putList (num sub : Nat) (w : Nat) (l : List Int) (d : Dev) : Dev :=
  ((List.range l.length).zip l).foldl (fun d p => puti w num (sub + p.1) p.2 d) d

/-- Put the basic-source group banks of (s, g) into force: six loops, TRACK, and the PID banks (R167, R181). -/
def deriveGroup (s g : Nat) (d : Dev) : Dev :=
  let b := oGrp s g 6
  let t : Int := tNs d
  let imax := oq d (oGrp s g 9) 3
  let igmin := basicIgMin imax
  let track := divHalfUp ((on d b 5 : Int) * imax) 100
  let loop := fun j => basicLoop j (on d b 1) (on d b 2) (oq d b 3) (oq d b 4) t
  let d := putq (oGrp s g 8) 0 igmin d
  [0, 1].foldl (fun d bank =>
    let d := (List.range 6).foldl (fun d j =>
      let k := loop j
      putList (oGrp s g (0x1B + bank)) (1 + 5 * j) 32 [k.1, k.2, igmin, imax, 0]
        (putList (oGrp s g (4 + bank)) (1 + 4 * j) 32 [k.1, k.2, igmin, imax] d)) d
    putq (oGrp s g (0x1B + bank)) 0x1F track (putq (oGrp s g (4 + bank)) 0x19 track d)) d

/-- Put the basic-source phase banks of a stage into force, and select bank A (R167). -/
def deriveStage (s : Nat) (d : Dev) : Dev :=
  let l := basicPhase (on d (oStg s 7) 0) (oq d (oStg s 6) 0) (oq d (oStg s 5) 0) (tNs d) (oq d (oStg s 0) 0)
  put (oStg s 1) 0 0 (putList (oStg s 3) 1 32 l (putList (oStg s 2) 1 32 l d))

/-- Put the derived values of a whole stage into force at the basic level (R167, R168). -/
def deriveAll (s : Nat) (d : Dev) : Dev :=
  forEach (List.range (stageE d s).groups) (fun g => deriveGroup s g) (deriveStage s d)

/-- Derive G.I2T of a group from the rating and its phase count, and keep from what it was derived (R167). -/
def deriveI2t (s g : Nat) (d : Dev) : Dev :=
  let n := (phasesOf (stageE d s) g).length
  let r := oq d (oStg s 0) 0
  modGrp s g (fun x => { x with i2tFrom := some (ofS 32 r, n) }) (putList (oGrp s g 9) 1 32 (basicI2t r n) d)

/-- At the first start with an image that changes the number of phases of a group, G.I2T is derived from the rating it was last
derived from (R167). -/
def i2tPhases (s g : Nat) (d : Dev) : Dev :=
  match ((stgS d s).groups.getD g {}).i2tFrom with
  | some (r, n) =>
    let k := (phasesOf (stageE d s) g).length
    if n = k then d
    else modGrp s g (fun x => { x with i2tFrom := some (r, k) }) (putList (oGrp s g 9) 1 32 (basicI2t (toS 32 r) k) d)
  | none => d

/-- A new rating of a stage takes effect at the major-frame boundary (R167). -/
def applyRated (s : Nat) (d : Dev) : Dev :=
  match (stgS d s).ratedNew with
  | none => d
  | some r =>
    let d := modStg s (fun x => { x with ratedNew := none }) (put (oStg s 0) 0 r d)
    let d := forEach (List.range (stageE d s).groups) (fun g d =>
      let old := ((stgS d s).groups.getD g {}).i2tFrom
      if old = some (r, (phasesOf (stageE d s) g).length) then d else deriveI2t s g d) d
    if expertLevel d 1 then d else deriveAll s d

/-- COEF_SWAP (R160, R182): a change of the selector at a boundary. -/
def coefSwap (s : Nat) (before : Nat) (d : Dev) : Dev :=
  if on d (oStg s 1) 0 ≠ before then raise 0x2802 s (on d (oStg s 1) 0) d else d

end Sys2Proof.Machine
end

