-- ==== Sys2Proof/Machine/Allocation.lean ====
section
/-! DEFINITION. Sharing the site's power (spec/09): the matrix tables, PROFILE_CLOSE, the ALLOC solver with the group
assignment, SPILL, ALLOC_FAST, and what the data plane publishes for them. -/

namespace Sys2Proof.Machine

/-! ### Matrix tables (R217, R218) -/

/-- The edges of a table of `n` records. -/
def edgesFrom : Nat → Bytes → List Edge
  | 0, _ => []
  | n + 1, b => { s := byteAt b 0, g := byteAt b 1, node := byteAt b 2, kind := byteAt b 3, driver := fieldLe b 4 4 } ::
      edgesFrom n (b.drop 8)

/-- The edges of a table; the empty value has none (R217, R228). -/
def edgesOf (b : Bytes) : List Edge := edgesFrom (fieldLe b 0 2) (b.drop 8)

/-- The matrix table in force; a table that failed its check at start is empty (R218). -/
def tableInForce (d : Dev) : List Edge :=
  if (on d 0x1012 0).testBit 8 then [] else edgesOf (ob d (0x100C + on d 0x100B 0 % 2) 0)

/-- The table as the slots of this micro-frame see it. -/
def tableSnap (d : Dev) : List Edge :=
  if (on d 0x1012 0).testBit 8 then [] else edgesOf (rdb d (0x100C + sn d 0x100B 0 % 2) 0)

/-- The feedback of an edge's busbar contactor: the load channel's ON flag, or its feedback point (R217). -/
def edgeClosed (d : Dev) (e : Edge) : Bool :=
  if e.kind = 1 then (on d (oLch (e.driver % 32) 1) 0).testBit 0
  else on d (oPoint (bitsOf e.driver 27 14)) 1 != 0

/-- The feedback of an edge as the slots of this micro-frame see it (R38, R237). -/
def edgeShows (d : Dev) (e : Edge) : Bool :=
  if e.kind = 1 then (sn d (oLch (e.driver % 32) 1) 0).testBit 0
  else sn d (oPoint (bitsOf e.driver 27 14)) 1 != 0

/-- The edges known at a boundary swap: a group on an edge that the new table lacks is seen until its contactor has opened
(R225, R226). -/
def trackEdges (d : Dev) : Dev :=
  let t := tableInForce d
  { d with energy := { d.energy with edges := t ++ d.energy.edges.filter (fun e => !(t.contains e) && edgeClosed d e) } }

/-- The node a group feeds by contactor feedback: the lowest closed edge; 0xFF none (R225). -/
def nodeOf (d : Dev) (s g : Nat) : Nat :=
  ((d.energy.edges.find? (fun e => e.s == s && e.g == g && edgeClosed d e)).map (·.node)).getD 0xFF

/-- A stage named in ALLOC.BATT.06 is a battery stage (R213). -/
def isBattStage (mask s : Nat) : Bool := mask.testBit s

/-! ### Units (R208, R211) -/

/-- The power of a voltage and a current in 2^-16 kW, formed exactly and rounded once to nearest (R153, R208). -/
def powerQ (v i : Int) : Int := divHalfUp (v * i) (65536 * 1000)

/-- A quotient rounded to nearest, ties toward positive infinity, as R153 rounds products: DESIGN CHOICE (log entry 45), the
spec rounds no quotient of chapter 9. 0 where nothing divides. -/
def quotQ (a b : Int) : Int := if b ≤ 0 then 0 else divHalfUp a b

/-- The current of a power in 2^-16 kW at a voltage. -/
def currentQ (p v : Int) : Int := quotQ (p * 1000 * 65536) v

/-- V_CONN of a connector as latched at the sample token, in Q16.16 V. -/
def vConnQ (d : Dev) (c : Nat) : Int :=
  match connDisp d c with
  | some (di, i) => convQ (dispField d di 0x201 i) 1 20
  | none => 0

/-- I_CONN of a connector in Q16.16 A. -/
def iConnS (d : Dev) (c : Nat) : Int :=
  match connDisp d c with
  | some (di, i) => convQ (toS 16 (dispField d di 0x202 i)) 1 10
  | none => 0

/-- |I_CONN| of a connector in Q16.16 A. -/
def iConnQ (d : Dev) (c : Nat) : Int := absI (iConnS d c)

/-- V_CONN of a connector as in force at the boundary token (R38, R208). -/
def vConnRd (d : Dev) (c : Nat) : Int := ((alGet d.sched.disp c).map (·.1)).getD 0

/-- |I_CONN| of a connector as in force at the boundary token. -/
def iConnRd (d : Dev) (c : Nat) : Int := ((alGet d.sched.disp c).map (·.2.1)).getD 0

/-- The connector voltage of the allocation (R211); V_TIE for a tie. -/
def allocV (d : Dev) (cell n : Nat) : Int :=
  if n < 64 then max (vConnRd d n) (max (rdq d cell (oCon n 0x20) 9) (50 * 65536)) else rdq d cell 0x1007 5

/-! ### PROFILE_CLOSE (R210) -/

/-- The site allowance: energy E (Wh), mean power P (kW), T_REM, T_INT (ms), demand and import limits (kW); gives the
demand allowance and the projected demand. -/
def profileStep (e p trem tint demand lim : Int) : Int × Int :=
  let tr := max trem 60000
  let dem := if demand = 0 then lim
    else clampI 0 lim (quotQ (demand * tint - 3600 * e) tr)
  let proj := quotQ (e * 3600 + p * trem) tint
  (dem, max 0 proj)

def kProfileClose (d : Dev) (im : Image) (sl : SlotR) (_ : List Int) : KOut :=
  let objs := (List.range sl.p1).map (fun j => bindObj (bindAt im sl j))
  let e := sumI (objs.map (fun o => rdi 64 d sl.cell o 3))
  let p := sumI (objs.map (fun o => rdi 32 d sl.cell o 2))
  let lim := inp d im sl (sl.p1 + 1)
  let o0 := objs.headD 0x100E
  let r := profileStep e p (rd d sl.cell o0 4) (rd d sl.cell o0 5) (inp d im sl sl.p1) lim
  let was := (on d 0x1012 0).testBit 2
  let now := decide (r.1 < lim)
  let k := outTo im sl 1 r.2 (outTo im sl 0 r.1 {})
  { k with
    outs := k.outs ++ [(okey 0x1010 3, ofS 32 (min lim r.1))]
    stat := [(okey 0x1012 0, 2, now)]
    evs := if now && !was then [(0x4202, noInst, r.1.toNat)] else [] }

/-! ### ALLOC: snapshot and demand (R211, R213, R214) -/

/-- The tariff in force (T1 to T4) and the battery dispatch mode and power of it (R213). -/
def battMode (d : Dev) (cell : Nat) : Nat × Int :=
  let t := max 1 (sn d 0x2203 1)
  let m := rd d cell 0x1006 (1 + 2 * (t - 1))
  let fresh := decide (sn d 0x1008 2 ≤ 10000)
  (if fresh then m else 0, (rd d cell 0x1006 (2 + 2 * (t - 1)) : Int))

/-- u of R211 as Q16.16: remaining energy against the power of a demand. -/
def urgency (now : Nat) (eTarget eDeliv : Int) (depart : Nat) (dd v : Int) : Int :=
  if eTarget = 0 ∨ depart = 0 ∨ eDeliv ≥ eTarget ∨ dd = 0 then 65536
  else
    let ms := max (((depart : Int) - now) / 1000000) 60000
    let need := quotQ ((eTarget - eDeliv) * 3600000) ms
    let pw := powerQ v dd
    65536 + (if pw ≤ 0 then 65536 else min 65536 (quotQ (need * 65536) pw))

/-- The snapshot of one connector. -/
def allocConn (d : Dev) (cell c : Nat) : AConn :=
  let r := fun k => rdq d cell (oCon c 0x20) k
  let v := allocV d cell c
  let mode := rd d cell (oCon c 0x20) 1
  let cls := rd d cell (oCon c 0x20) 2 % 4
  let dp := if mode = 1 ∨ mode = 2 then
    min (min (r 3) (currentQ (r 4) v)) (min (rdq d cell (oCon c 0x21) 0) (rdq d cell (oCon c 0x43) 0)) else 0
  let dp := max 0 dp
  let u := urgency (civilNs d) (r 6) (r 7) (rd d cell (oCon c 0x20) 8) dp v
  { node := c, mode := mode, cls := cls, v := v, dp := dp, wp := (rd d cell 0x1005 (cls + 1) : Int) * u,
    iMin := r 5, pMax := r 4, oldState := sn d (oCon c 0x22) 3 }

/-- The capacity of the groups assigned to a node. -/
def capOf (gs : List AGrp) (n : Nat) : Int := sumI ((gs.filter (fun x => x.new == n)).map (·.cap))

/-- The groups assigned to a node. -/
def heldBy (gs : List AGrp) (n : Nat) : List AGrp := gs.filter (fun x => x.new == n)

/-- Give a group a new node. -/
def setNode (gs : List AGrp) (s g n : Nat) : List AGrp :=
  gs.map (fun x => if x.s == s && x.g == g then { x with new := n } else x)

def hasEdge (es : List Edge) (s g n : Nat) : Bool := es.any (fun e => e.s == s && e.g == g && e.node == n)

/-- Lexicographic order of stage and group. -/
def sgLe (a b : AGrp) : Bool := decide (4 * a.s + a.g ≤ 4 * b.s + b.g)

/-- The change order of a solve: groups in the order in which the rules gave them a new node. -/
abbrev Assign := List AGrp × List (Nat × Nat)

/-- Move a group and note the change (R219 rule 7). -/
def moveGrp (a : Assign) (x : AGrp) (n : Nat) : Assign :=
  (setNode a.1 x.s x.g n, if a.2.contains (x.s, x.g) then a.2 else a.2 ++ [(x.s, x.g)])

/-- Rule 2: keep and release. -/
def ruleRelease (es : List Edge) (conns : List AConn) (dwellDone : List Nat) (tieOn : Bool) (a : Assign) : Assign :=
  let a := a.1.foldl (fun a x =>
    if x.new = 0xFF then a
    else if x.cap ≤ 0 ∨ !(hasEdge es x.s x.g x.new) then moveGrp a x 0xFF
    else if x.new < 64 then
      match conns.find? (fun c => c.node == x.new) with
      | some c => if c.mode = 1 ∨ c.mode = 2 then a else moveGrp a x 0xFF
      | none => moveGrp a x 0xFF
    else if tieOn then a else moveGrp a x 0xFF) a
  dwellDone.foldl (fun a n =>
    match (heldBy a.1 n).getLast? with
    | some x => moveGrp a x 0xFF
    | none => a) a

/-- Take free eligible groups of one kind, lowest stage and group first, until the capacity reaches d' (rules 3, 4). -/
def takeFree (es : List Edge) (batt : Bool) (c : AConn) (a : Assign) : Assign :=
  a.1.foldl (fun a x =>
    if x.new = 0xFF ∧ x.batt = batt ∧ x.cap > 0 ∧ hasEdge es x.s x.g c.node = true ∧ capOf a.1 c.node < c.dp then
      -- the free test looks at the assignment as it now stands
      if (heldBy a.1 0xFF).any (fun y => y.s == x.s && y.g == x.g) then moveGrp a x c.node else a
    else a) a

/-- The serving order of rule 3. -/
def serveLe (a b : AConn) : Bool :=
  if a.cls ≠ b.cls then decide (a.cls < b.cls) else if a.wp ≠ b.wp then decide (a.wp > b.wp) else decide (a.node ≤ b.node)

/-- Insertion sort of a list by a total order. -/
def insertBy {α : Type} (le : α → α → Bool) (x : α) : List α → List α
  | [] => [x]
  | y :: l => if le x y then x :: y :: l else y :: insertBy le x l

def sortBy {α : Type} (le : α → α → Bool) : List α → List α
  | [] => []
  | x :: l => insertBy le x (sortBy le l)

/-- Rule 5: a connector without a group takes one from the lowest class. Among several of that class the lowest connector number
gives, and it gives its highest group: DESIGN CHOICE (log entry 46). -/
def preempt (es : List Edge) (conns : List AConn) (c : AConn) (a : Assign) : Assign :=
  if heldBy a.1 c.node ≠ [] then a
  else
    let cand := conns.filter (fun x => decide (x.cls > c.cls) && decide (x.node > c.node) &&
      decide (((heldBy a.1 x.node).filter (fun y => hasEdge es y.s y.g c.node && decide (y.cap > 0))).length > 1))
    let best := (sortBy (fun x y => if x.cls ≠ y.cls then decide (x.cls > y.cls) else decide (x.node ≤ y.node)) cand).head?
    match best with
    | none => a
    | some x =>
      match ((heldBy a.1 x.node).filter (fun y => hasEdge es y.s y.g c.node && decide (y.cap > 0))).getLast? with
      | some y => moveGrp a y c.node
      | none => a

/-- Rule 6: a tie takes one free grid group and one free battery group. -/
def tieTake (es : List Edge) (t : Nat) (a : Assign) : Assign :=
  let n := 0x40 + t
  let free := fun (batt : Bool) => (heldBy a.1 0xFF).find? (fun x => x.batt == batt && decide (x.cap > 0) && hasEdge es x.s x.g n)
  let hasG := (heldBy a.1 n).any (fun x => !x.batt)
  let hasB := (heldBy a.1 n).any (fun x => x.batt)
  match hasG, hasB, free false, free true with
  | false, false, some x, some y => moveGrp (moveGrp a x n) y n
  | true, false, _, some y => moveGrp a y n
  | false, true, some x, _ => moveGrp a x n
  | _, _, _, _ => a

/-- The whole assignment of variant 0 (R219). -/
def assignGroups (es : List Edge) (conns : List AConn) (dwellDone : List Nat) (support tieOn : Bool) (maxMoves : Nat)
    (gs : List AGrp) : List AGrp :=
  let order := sortBy serveLe (conns.filter (fun c => c.mode == 1 || c.mode == 2))
  let a := ruleRelease es conns dwellDone tieOn (sortBy sgLe gs, [])
  let a := order.foldl (fun a c => if (heldBy a.1 c.node).any (·.batt) then a else takeFree es false c a) a
  let a := if support then order.foldl (fun a c =>
      if (heldBy a.1 c.node).any (fun x => !x.batt) then a else takeFree es true c a) a else a
  let a := order.foldl (fun a c => preempt es conns c a) a
  let a := if tieOn then (List.range 4).foldl (fun a t => tieTake es t a) a else a
  let keep := ((a.2.filter (fun p => a.1.any (fun x => x.s == p.1 && x.g == p.2 && x.new != x.old))).take maxMoves)
  a.1.map (fun x => if x.new != x.old && !(keep.contains (x.s, x.g)) then { x with new := x.old } else x)

/-- d and w after the assignment (R211). -/
def allocDemand (now : Nat) (es : List AGrp) (req : Nat → Nat → Int) (depart : Nat → Nat) (cw : Nat → Int) (c : AConn) : AConn :=
  let cap := capOf es c.node
  let dd := min c.dp cap
  let batt := (heldBy es c.node).any (·.batt)
  let u := urgency now (req c.node 6) (req c.node 7) (depart c.node) dd c.v
  { c with cap := cap, d := if c.mode = 1 ∨ c.mode = 2 then dd else 0, w := cw c.cls * u, batt := batt }

/-- The discharge grants in class order, then connector order, while X stays within its maximum (R212); gives the
connectors with their grant, and X. -/
def grantDischarge (xmax : Int) (cs : List AConn) : List AConn × Int :=
  let order := sortBy (fun (a b : AConn) => if a.cls ≠ b.cls then decide (a.cls < b.cls) else decide (a.node ≤ b.node))
    (cs.filter (fun c => c.mode == 2))
  let r := order.foldl (fun (a : List (Nat × Int) × Int) c =>
    let room := max 0 (xmax - a.2)
    let i := min c.d (currentQ room c.v)
    (a.1 ++ [(c.node, i)], a.2 + powerQ c.v i)) ([], 0)
  (cs.map (fun c => if c.mode = 2 then { c with dis := ((r.1.find? (fun p => p.1 == c.node)).map (·.2)).getD 0 } else c), r.2)

/-- The power of the grid-fed or of the battery-fed loads at a λ (R214). -/
def loadPower (a : AllocS) (batt : Bool) (lam : Int) : Int :=
  sumI ((a.conns.filter (fun c => c.mode == 1 && c.batt == batt)).map (fun c => powerQ c.v (min c.d (mul16 c.w lam))))

/-- One bisection step (R214). -/
def bisect (a : AllocS) : AllocS :=
  let mid := (a.lo + a.hi) / 2
  let fits := decide (loadPower a false mid ≤ a.bg) && decide (loadPower a true mid ≤ a.bb)
  let a := { a with steps := a.steps + 1 }
  if fits then { a with lo := mid } else { a with hi := mid }

/-- The grant of a load at λ = lo. -/
def grantAt (lo : Int) (c : AConn) : Int := if c.mode = 1 then min c.d (mul16 c.w lo) else if c.mode = 2 then c.dis else 0

/-- Variant 0 of a solve: snapshot, assignment, demands, budgets (R211 to R214, R219). -/
def allocStart (d : Dev) (im : Image) (sl : SlotR) : AllocS :=
  let cell := sl.cell
  let cs := (List.range sl.p1).map (fun j =>
    match locate (bindObj (bindAt im sl j)) with
    | some l => allocConn d cell l.inst
    | none => default)
  let bm := rd d cell 0x1007 6
  let gs := (List.range sl.p2).filterMap (fun j =>
    match locate (bindObj (bindAt im sl (sl.p1 + j))) with
    | some l =>
      let old := rd d cell (oGrp l.inst l.sub 0x16) 0
      some ({
        s := l.inst, g := l.sub, cap := inp d im sl (sl.p1 + j), old := old, new := old, batt := isBattStage bm l.inst } : AGrp)
    | none => none)
  let es := tableSnap d
  let mode := battMode d cell
  let soc := sq d 0x1008 1
  let tieOn := decide (mode.1 = 1)
  let charging := tieOn && decide (soc < (rd d cell 0x1007 2 : Int) * 65536)
  let support := decide (mode.1 = 2)
  -- rule 2: a group is spare once DWELL seconds have passed since the first solve of the row
  let spare := cs.filterMap (fun c =>
    match (heldBy (sortBy sgLe gs) c.node).getLast? with
    | some x => if (c.mode = 1 ∨ c.mode = 2) ∧ capOf gs c.node - x.cap ≥ c.dp then some c.node else none
    | none => none)
  let dw := spare.map (fun n => (n, (alGet d.sched.alloc.dwell n).getD 0 + 1))
  let lim := 10 * rd d cell 0x100A 1
  let done := (dw.filter (fun p => decide (p.2 > lim))).map (·.1)
  let held := gs
  let gs := assignGroups es cs done support tieOn (rd d cell 0x100A 3) gs
  let req := fun c k => rdq d cell (oCon c 0x20) k
  let cs := cs.map (allocDemand (civilNs d) gs req (fun c => rd d cell (oCon c 0x20) 8) (fun k => (rd d cell 0x1005 (k + 1) : Int)))
  -- ties as class-3 grid-fed loads (R213)
  let vt := rdq d cell 0x1007 5
  let tieD := currentQ (min mode.2 (rd d cell 0x1007 3 : Int) * 65536) vt
  let ties := if charging then (List.range 4).filterMap (fun t =>
      let n := 0x40 + t
      if (heldBy gs n).any (·.batt) ∧ (heldBy gs n).any (fun x => !x.batt) then
        some ({
          node := n, mode := 1, cls := 3, v := vt, dp := tieD, wp := 0, d := tieD, cap := capOf gs n,
          w := (rd d cell 0x1005 4 : Int) * 65536, pMax := 32767 * 65536 } : AConn)
      else none) else []
  let eff := rdq d cell 0x1004 0
  let charge := sumI (((cs ++ ties).filter (fun c => c.mode == 1 && !c.batt)).map (fun c => powerQ c.v c.d))
  let xmax := quotQ ((rd d cell 0x1001 0 : Int) * 65536 * 65536) eff + charge
  let gd := grantDischarge xmax cs
  let all := gd.1 ++ ties
  let site := min (inp d im sl (sl.p1 + sl.p2)) (inp d im sl (sl.p1 + sl.p2 + 1))
  let bg := max 0 ((site - (rd d cell 0x1003 0 : Int)) * eff) + gd.2
  let bb := if support ∧ soc > (rd d cell 0x1007 1 : Int) * 65536 then min mode.2 (rd d cell 0x1007 4 : Int) * 65536 else 0
  let hi := (all.filter (fun c => c.mode == 1)).foldl (fun m c => max m (quotQ (c.d * 65536) c.w)) 0
  -- a release that the limit of rule 7 keeps back is still due
  let kept := fun n => match (heldBy (sortBy sgLe held) n).getLast? with
    | some x => gs.any (fun y => y.s == x.s && y.g == x.g && y.new == n)
    | none => false
  { d.sched.alloc.cleared with
    conns := all, groups := gs, lo := 0, hi := hi, bg := bg, bb := bb
    dwell := dw.filter (fun p => !(done.contains p.1) || kept p.1) }

/-- The order in which R215 pauses. -/
def pauseLe (a b : AConn) : Bool :=
  if a.cls ≠ b.cls then decide (a.cls > b.cls) else if a.w ≠ b.w then decide (a.w < b.w) else decide (a.node ≥ b.node)

/-- The grants of a solve at its commit: node, grant, paused (R215). A grid-fed charging connector that has a demand and is
granted 0 is paused too (R226, last row): DEDUCED for the other ways in which λ ends at 0 (log entry 47). -/
def allocGrants (a : AllocS) : List (AConn × Int × Bool) :=
  a.conns.map (fun c =>
    let g := grantAt a.lo c
    let zero := decide (g ≤ 0) && decide (0 < c.d) && !c.batt
    if c.mode = 1 ∧ c.node < 64 ∧ (zero = true ∨ (0 < g ∧ g < c.iMin)) then (c, 0, true) else (c, g, false))

/-- STATE of CON.GRANT (R229). -/
def grantState (c : AConn) (g : Int) (paused : Bool) (groups : Nat) : Nat :=
  if paused then 2 else if (c.mode = 1 ∨ c.mode = 2) ∧ c.dp > 0 ∧ groups = 0 then 3 else if g > 0 then 1 else 0

/-- The commit of variant N − 1 (R215). -/
def allocCommit (d : Dev) (a : AllocS) (o : KOut) : KOut :=
  let gr := allocGrants a
  let conOuts := gr.flatMap (fun x =>
    let c := x.1
    if c.node < 64 then
      let n := (heldBy a.groups c.node).length
      let ob := oCon c.node 0x22
      [(okey ob 1, ofS 32 x.2.1), (okey ob 2, ((powerQ c.v x.2.1) / 65536).toNat), (okey ob 3, grantState c x.2.1 x.2.2 n),
        (okey ob 4, ofS 32 c.d), (okey ob 5, ofS 32 (satS 32 c.w)), (okey ob 6, n)]
    else [])
  let grpOuts := a.groups.flatMap (fun x =>
    let asg := (okey (oGrp x.s x.g 0x16) 0, x.new)
    match gr.find? (fun y => y.1.node == x.new) with
    | some y =>
      let c := y.1
      if c.node ≥ 64 then
        [asg, (okey (oGrp x.s x.g 0x0E) 0, ofS 32 (if x.batt then y.2.1 else x.cap))]
      else
        let cap := c.cap
        let iset := quotQ ((if c.mode = 2 then y.2.1 else c.d) * x.cap) cap
        let pset := quotQ (c.pMax * x.cap) cap
        [asg, (okey (oGrp x.s x.g 0x0E) 0, ofS 32 iset), (okey (oGrp x.s x.g 0x0F) 0, ofS 32 pset)]
    -- the groups of a tie that is no load of this solve charge nothing (R213)
    | none => if 64 ≤ x.new ∧ x.new ≠ 0xFF then [asg, (okey (oGrp x.s x.g 0x0E) 0, ofS 32 (if x.batt then 0 else x.cap))] else [asg])
  let pw := fun (b : Bool) => loadPower a b a.lo
  let paused := (gr.filter (fun x => x.2.2)).length
  let short := gr.filter (fun x => decide (x.1.node < 64) && (x.1.mode == 1 || x.1.mode == 2) && x.1.cls == 0 && decide (x.2.1 < x.1.d))
  { o with
    alloc := some { a with leftG := a.bg - pw false, leftB := a.bb - pw true }
    outs := o.outs ++ conOuts ++ grpOuts ++
      [(okey 0x1011 1, ofS 32 (satS 32 a.lo)), (okey 0x1011 2, (a.bg / 65536).toNat), (okey 0x1011 3, (a.bb / 65536).toNat),
        (okey 0x1011 4, (pw false / 65536).toNat), (okey 0x1011 5, (pw true / 65536).toNat), (okey 0x1011 6, paused % 256),
        (okey 0x1011 7, a.steps % 256), (okey 0x1011 8, d.time.micro)]
    stat := o.stat ++ [(okey 0x1012 0, 0, true), (okey 0x1012 0, 4, decide (short ≠ []))]
    evs := o.evs ++
      ((sortBy (fun x y => pauseLe x.1 y.1) (gr.filter (fun x => x.2.2 && x.1.oldState != 2))).map (fun x => (0x4002, x.1.node, 0))) ++
      (short.map (fun x => (0x4203, x.1.node, 0))) ++
      ((a.groups.filter (fun x => x.new != x.old)).map (fun x => (0x4001, x.s, x.g + 256 * x.old + 65536 * x.new))) }

/-- Number of ALLOC slots of the image: the iteration count (R62). -/
def allocN (im : Image) : Nat := (im.slots.filter (fun s => s.kernel == 0x50)).length

/-- ALLOC (R214): variant 0 takes the snapshot, every variant bisects once, the last one commits. A variant whose predecessor has
not run in this solve has no snapshot to go on: nothing commits (R226). -/
def kAlloc (d : Dev) (im : Image) (sl : SlotR) (_ : List Int) : KOut :=
  let a0 := if sl.variant = 0 then allocStart d im sl else d.sched.alloc
  if a0.discard || a0.steps != sl.variant then { alloc := some a0 }
  else
    let a := bisect a0
    let stale := decide (sn d 0x1008 2 > 10000)
    let was := (on d 0x1012 0).testBit 3
    let o : KOut := { alloc := some a }
    let o := if sl.variant = 0 then
      { o with stat := [(okey 0x1012 0, 3, stale)], evs := if stale && !was then [(0x4204, noInst, 0)] else [] } else o
    if sl.variant + 1 = allocN im then allocCommit d a o else o

/-! ### SPILL (R216) -/

/-- A connector as SPILL sees it. -/
structure SConn where
  c : Nat
  cls : Nat
  g : Int
  mean : Int
  d : Int
  w : Int
  st : Nat
  v : Int
  iMin : Int
  batt : Bool
  eff : Int := 0
  raised : Bool := false
  deriving DecidableEq, Repr, Inhabited

def spillLe (a b : SConn) : Bool :=
  if a.cls ≠ b.cls then decide (a.cls < b.cls) else if a.w ≠ b.w then decide (a.w > b.w) else decide (a.c ≤ b.c)

/-- The current a connector lends (R216, 2). -/
def lend (x : SConn) : Int := if 10 * x.mean < 9 * x.g then max 0 (x.g - x.mean - quotQ x.g 20) else 0

/-- Hand out one pool to a list in priority order (R216, 3 and 4): paused connectors first, then top-ups. -/
def spillPool (pool : Int) (xs : List SConn) : List SConn :=
  let xs := sortBy spillLe xs
  let r := xs.foldl (fun (a : List SConn × Int) x =>
    let need := powerQ x.v x.iMin
    if x.st = 2 ∧ x.iMin > 0 ∧ need ≤ a.2 then (a.1 ++ [{ x with eff := x.iMin, raised := true }], a.2 - need)
    else (a.1 ++ [{ x with eff := x.g - lend x }], a.2)) ([], max 0 pool)
  let t := r.1.foldl (fun (a : List SConn × Int) x =>
    if x.g < x.d then
      let base := if x.raised then x.eff else x.g
      let want := max 0 (x.d - base)
      let i := min want (currentQ (max 0 a.2) x.v)
      (a.1 ++ [{ x with eff := x.eff + i, raised := x.raised || (decide (x.g = 0) && decide (0 < i)) }], a.2 - powerQ x.v i)
    else (a.1 ++ [x], a.2)) ([], r.2)
  t.1

/-- One run of SPILL. The leftover of each budget is the one the solve ended with, before SOLVE.02 to .05 round it to whole kW
(R216, R227). -/
def kSpill (d : Dev) (im : Image) (sl : SlotR) (_ : List Int) : KOut :=
  let cell := sl.cell
  let bm := rd d cell 0x1007 6
  let lo := rdq d cell 0x1011 1
  let al := d.sched.alloc
  let xs := (List.range sl.p1).map (fun j =>
    let go := bindObj (bindAt im sl j)
    let c := ((locate go).map (·.inst)).getD 0
    ({ c := c, cls := rd d cell (oCon c 0x20) 2 % 4, g := inp d im sl j, mean := inp d im sl (sl.p1 + j),
       d := rdq d cell go 4, w := rdq d cell go 5, st := rd d cell go 3, v := allocV d cell c,
       iMin := rdq d cell (oCon c 0x20) 5,
       batt := (List.range 128).any (fun i => isBattStage bm (i / 4) && rd d cell (oGrp (i / 4) (i % 4) 0x16) 0 == c) } : SConn))
  let part := fun (b : Bool) (left : Int) =>
    let ys := xs.filter (fun x => x.batt == b && rd d cell (oCon x.c 0x20) 1 == 1)
    let paused := sumI ((ys.filter (fun x => x.st == 2)).map (fun x => powerQ x.v (min x.d (mul16 x.w lo))))
    let lent := sumI (ys.map (fun x => powerQ x.v (lend x)))
    spillPool (left + paused + lent) ys
  let done := part false al.leftG ++ part true al.leftB
  (List.range sl.p1).foldl (fun o j =>
    let x := xs.getD j default
    match done.find? (fun y => y.c == x.c) with
    | some y =>
      let o := outTo im sl j y.eff o
      if y.raised then { o with outs := o.outs ++ [(okey (oCon y.c 0x22) 3, 1)] } else o
    | none => outTo im sl j x.g o) {}

/-! ### ALLOC_FAST (R222) -/

/-- A load of the fast path. -/
structure FLoad where
  node : Nat
  cls : Nat
  grid : Bool
  p : Int
  k : Int := 65536
  deriving DecidableEq, Repr, Inhabited

/-- Cut the classes from 3 down to 0 (R222): the factor k of each load in Q16.16. -/
def cutLoads (cut : Int) (ls : List FLoad) : List FLoad :=
  ([3, 2, 1, 0].foldl (fun (a : List FLoad × Int) cl =>
    if a.2 ≤ 0 then a
    else
      let s := sumI ((a.1.filter (fun l => l.grid && l.cls == cl)).map (·.p))
      if s ≤ 0 then a
      else
        let f := min 65536 (quotQ (a.2 * 65536) s)
        (a.1.map (fun l => if l.grid && l.cls == cl then { l with k := 65536 - f } else l), a.2 - rshR (f * s) 16)) (ls, cut)).1

/-- A group as the fast path sees it. -/
structure FGrp where
  s : Nat
  g : Nat
  cap : Int
  asg : Nat
  node : Nat
  ig : Int
  imax : Int
  iset : Int
  cut0 : Int
  batt : Bool
  deriving DecidableEq, Repr, Inhabited

def fDeliv (x : FGrp) : Bool := x.asg == x.node && x.asg != 0xFF && decide (x.cap > 0)

def kAllocFast (d : Dev) (im : Image) (sl : SlotR) (_ : List Int) : KOut :=
  let cell := sl.cell
  let bm := rd d cell 0x1007 6
  let gs := (List.range sl.p2).filterMap (fun j =>
    match locate (bindObj (bindAt im sl (sl.p1 + j))) with
    | some l =>
      let o := fun k => oGrp l.inst l.sub k
      some ({
        s := l.inst, g := l.sub, cap := inp d im sl (sl.p1 + j), asg := rd d cell (o 0x16) 0, node := rd d cell (o 0x17) 0,
        ig := absI (rdq d cell (o 0) 2), imax := rdq d cell (o 9) 3, iset := rdq d cell (o 0x0E) 0, cut0 := rdq d cell (o 0x0C) 0,
        batt := isBattStage bm l.inst } : FGrp)
    | none => none)
  let cons := (List.range sl.p1).map (fun j => (((locate (bindObj (bindAt im sl j))).map (·.inst)).getD 0, inp d im sl j))
  let capN := fun n => sumI ((gs.filter (fun x => fDeliv x && x.asg == n)).map (·.cap))
  let conLoads := cons.map (fun p =>
    let c := p.1
    let charge := rd d cell (oCon c 0x20) 1 == 1
    ({ node := c, cls := rd d cell (oCon c 0x20) 2 % 4,
       grid := charge && !((gs.filter (fun x => fDeliv x && x.asg == c)).any (·.batt)),
       p := if charge then powerQ (allocV d cell c) (min p.2 (capN c)) else 0 } : FLoad))
  let tieLoads := (gs.filter (fun x => fDeliv x && decide (x.asg ≥ 64) && x.batt)).map (fun x =>
    ({ node := x.asg, cls := 3, grid := true, p := powerQ (rdq d cell 0x1007 5) (min x.iset x.cap) } : FLoad))
  let loads := conLoads ++ tieLoads
  let eff := rdq d cell 0x1004 0
  let lim := min (inp d im sl (sl.p1 + sl.p2)) (inp d im sl (sl.p1 + sl.p2 + 1)) * 65536
  let pg := sumI ((loads.filter (·.grid)).map (·.p))
  let pp := (rd d cell 0x1003 0 : Int) * 65536 + quotQ (pg * 65536) eff
  let pm := (rdi 32 d cell 0x100E 1 + rdi 32 d cell 0x100F 1) * 65536
  let excess := max 0 (max pp pm - lim)
  let ls := cutLoads (rshR (excess * eff) 16) loads
  let kOf := fun n => ((ls.find? (fun l => l.node == n)).map (·.k)).getD 65536
  let anyCut := ls.any (fun l => decide (l.k < 65536))
  let res := gs.map (fun x =>
    let emerg := quotQ ((rd d cell 0x1009 0 : Int) * x.imax) 100
    let r : Int × Int × Int :=
      if fDeliv x then
        if x.asg < 64 then
          let ge := ((cons.find? (fun p => p.1 == x.asg)).map (·.2)).getD 0
          let m := rd d cell (oCon x.asg 0x20) 1
          let cn := capN x.asg
          let share := if m = 0 ∨ m = 3 then 0 else quotQ (ge * x.cap) cn
          (share, min x.cap (mul16 (kOf x.asg) share), emerg)
        else
          (x.iset, min x.cap (if x.batt then mul16 (kOf x.asg) x.iset else x.iset), emerg)
      else if x.node ≠ 0xFF ∧ x.node ≠ x.asg then (0, 0, quotQ (x.imax * minorNs d) (1000000 * (rd d cell 0x100A 2 : Int)))
      else (0, 0, x.imax)
    let share := r.1
    let tgt := r.2.1
    let kc := if fDeliv x then kOf x.asg else 65536
    let grant := min share x.cap
    let cut := if kc < 65536 ∨ share > x.cap ∨ 100 * x.ig > 100 * tgt + x.imax then max tgt (min x.cut0 x.ig - r.2.2) else x.imax
    (x, grant, cut))
  let applied := cons.map (fun p => (p.1, sumI ((res.filter (fun y => fDeliv y.1 && y.1.asg == p.1)).map (fun y => min y.2.1 y.2.2))))
  let was := (on d 0x1012 0).testBit 1
  let o := (List.range res.length).foldl (fun o j =>
    let y := res.getD j default
    let o := outTo im sl j y.2.2 o
    { o with outs := o.outs ++ [(okey (oGrp y.1.s y.1.g 0x11) 0, ofS 32 (satS 32 y.2.1))] }) {}
  { o with
    outs := o.outs ++ applied.map (fun p => (okey (oCon p.1 0x24) 0, ofS 32 (satS 32 p.2)))
    stat := [(okey 0x1012 0, 1, anyCut)] ++ (if anyCut then [(okey 0x1012 0, 7, true)] else [])
    evs := if anyCut && !was then [(0x4201, noInst, (excess / 65536).toNat)] else [] }

/-! ### Published by the data plane (R209, R225) -/

/-- Publish G.NODE and REASSIGNING at a boundary swap (R225). -/
def publishNode (s g : Nat) (d : Dev) : Dev := put (oGrp s g 0x17) 0 (nodeOf d s g) d

def publishReassign (d : Dev) : Dev :=
  let any := (stagesBound d).any (fun s => (List.range (stageE d s).groups).any (fun g =>
    on d (oGrp s g 0x16) 0 != on d (oGrp s g 0x17) 0))
  wrStatus 0x1012 0 5 any d

/-- ALLOC.BATT_SOC.02 counts the ms since the last write of .01 (R228). -/
def ageSoc (ms : Nat) (d : Dev) : Dev := put 0x1008 2 (satU 32 (on d 0x1008 2 + ms)) d

/-- An overrunning ALLOC variant discards the solve, once a solve; variant 0 begins one (R68, R226). -/
def allocDiscard (cell : Nat) (first : Bool) (d : Dev) : Dev :=
  if d.sched.alloc.discard && !first then d
  else raise 0x4401 cell 0 (setStatus 0x1012 0 6 { d with sched := { d.sched with alloc := { d.sched.alloc with discard := true } } })

end Sys2Proof.Machine
end

