-- ==== Sys2Proof/Machine/Keys.lean ====
section
/-! DEFINITION. Key tree and life cycle (spec/20): the counter-mode derivation, the tree, installed keys, generations and
rolls, masking, life-cycle requests and changes. -/

namespace Sys2Proof.Machine

/-! ### Derivation (R482) -/

/-- The blocks of the counter-mode KDF from block `i` on. -/
def kdfBlocks (key label ctx : Bytes) (bits : Nat) : Nat → Nat → Bytes
  | 0, _ => []
  | n + 1, i => hmac256 key (natBe 4 i ++ label ++ [0] ++ ctx ++ natBe 4 bits) ++ kdfBlocks key label ctx bits n (i + 1)

/-- SP 800-108 counter mode: the first `bits` bits (whole bytes here). -/
def kdf (key label ctx : Bytes) (bits : Nat) : Bytes :=
  (kdfBlocks key label ctx bits (ceilDiv bits 256) 1).take (bits / 8)

/-- An elliptic-curve private key: (c mod (n − 1)) + 1. -/
def ecKey (out : Bytes) (n : Nat) : Nat := beNat out % (n - 1) + 1

/-- The order of secp521r1. -/
def p521N : Nat :=
  0x01fffffffffffffffffffffffffffffffffffffffffffffffffffffffffffffffffffa51868783bf2f966b7fcc0148f709a5d03bb5c9b8899c47aebb6fb71e91386409

/-! ### The tree (R483) -/

def lcState (d : Dev) : Nat := on d 0x500 0

/-- The root in force. -/
def root (d : Dev) : Bytes := Config.root (lcState d)

def gen (d : Dev) (k : Nat) : Nat := on d 0x503 k

/-- An installed key by object number; empty when it is not installed. -/
def instKey (d : Dev) (num : Nat) : Bytes := (alGet d.keys.inst num).getD []

def hasKey (d : Dev) (num : Nat) : Bool := (alGet d.keys.inst num).isSome

def legalBranch (d : Dev) : Bytes := kdf (root d) (ascii "LEGAL") [] 256
def signKey (d : Dev) : Nat := ecKey (kdf (legalBranch d) (ascii "SIGN") (natLe 4 (gen d 1)) 320) p256N
def sealKey (d : Dev) : Bytes := kdf (legalBranch d) (ascii "SEAL") (natLe 4 (gen d 2)) 256
def initSvc : Bytes := kdf (Config.root 1) (ascii "INITSVC") [] 256
def wrapKey (d : Dev) : Bytes := kdf (root d) (ascii "WRAP") [] 256

/-- SITE_ID of the image in force. -/
def siteId (d : Dev) : Nat := ((img? d).map (·.siteId)).getD 0

def pairKey (d : Dev) : Bytes := kdf (instKey d 0x510) (ascii "PAIR") (natLe 8 (siteId d) ++ natLe 4 (gen d 3)) 256
def seccBranch (d : Dev) : Bytes := kdf (instKey d 0x510) (ascii "SECC") (natLe 4 (gen d 4)) 256
def seccKey (d : Dev) (k : Nat) : Nat :=
  ecKey (kdf (seccBranch d) (ascii "SLOT") (natLe 1 k ++ natLe 4 (gen d (5 + k))) 592) p521N
def yardNetKey (d : Dev) : Bytes := kdf (instKey d 0x510) (ascii "YARDNET") (natLe 4 (gen d 9)) 128
def yardInstKey (d : Dev) (serial : Bytes) : Bytes := kdf (instKey d 0x511) (ob d 0x512 0) serial 128

/-- K_MAC of a dispenser (R131): 256 bits, label DSPMAC. -/
def kMac (pairing devNonce partNonce : Bytes) (disp port : Nat) : Bytes :=
  kdf pairing (ascii "DSPMAC") (devNonce ++ partNonce ++ natLe 1 disp ++ natLe 1 port) 256

/-- A point as X then Y, each 32 bytes little-endian (R486). -/
def pubBytes (q : Option (Nat × Nat)) : Bytes :=
  match q with
  | some p => natLe 32 p.1 ++ natLe 32 p.2
  | none => List.replicate 64 0

/-- The public key of the legal signing key in force. -/
def signPub (d : Dev) : Bytes := pubBytes (p256Mul (signKey d) (some p256G))

/-- KEY_GEN of a session record: bit 31 set in DEVELOP (R478). -/
def keyGen (d : Dev) : Nat := gen d 1 + (if lcState d = 5 then 2 ^ 31 else 0)

/-- Publish BIL.SIGN_PUB (R353). -/
def publishSign (d : Dev) : Dev := putb 0x220B 2 (signPub d) (put 0x220B 1 (keyGen d) d)

/-- The request for a SECC slot (R302). -/
def publishCsr (k : Nat) (d : Dev) : Dev := putb (0x310 + 2 * k) 0 ((Config.csr (seccKey d k)).take 1024) d

/-! ### Installed keys (R484, R485) -/

/-- KEY.INSTALLED and the SET bits of KEY.STATUS. -/
def publishInstalled (d : Dev) : Dev :=
  let b := fun (num bit : Nat) => if hasKey d num then 2 ^ bit else 0
  let m := b 0x508 0 + b 0x509 1 + b 0x50A 2 + b 0x50B 3 + b 0x510 4 + b 0x511 5 +
    ((List.range 16).map (fun i => b (0x520 + i) (16 + i))).foldl (· + ·) 0
  wrStatus 0x502 0 3 (hasKey d 0x511) (wrStatus 0x502 0 2 (hasKey d 0x510) (put 0x540 0 m d))

/-- Role numbers: 0 OPERATOR, 1 SERVICE, 2 METROLOGY, 3 VENDOR. -/
def sealOpen (d : Dev) : Bool := (on d 0x2200 0).testBit 0

/-- Who may write an installed key, and when; 0 admits, else the kind of refusal: 1 ACCESS, 2 STATE. -/
def keyWriteCheck (d : Dev) (num role : Nat) (busySession : Bool) : Nat :=
  if num = 0x50B then (if role = 3 ∧ lcState d = 0 then 0 else if role = 3 then 2 else 1)
  else if num = 0x50A then
    (if role = 2 then (if sealOpen d then 0 else 2)
     else if role = 1 ∧ !(hasKey d 0x50A) then (if sealOpen d then 0 else 2) else 1)
  else if 0x520 ≤ num ∧ num < 0x530 then (if role = 2 then (if sealOpen d then 0 else 2) else 1)
  else if num = 0x510 ∧ busySession then 2
  else 0

/-- The mask under which a key's shares are held is drawn anew (R489). -/
def remask (num : Nat) (d : Dev) : Dev :=
  let r := draw 32 d
  { r.2 with keys := { r.2.keys with masks := alSet r.2.keys.masks num r.1 } }

/-- The two shares of an installed key: the key XOR its mask, and the mask (R489). -/
def shares (d : Dev) (num : Nat) : Bytes × Bytes :=
  let m := (alGet d.keys.masks num).getD (List.replicate 32 0)
  (List.zipWith (· ^^^ ·) (instKey d num) m, m)

/-- KEY_REMASK (R489). -/
def keyRemask (d : Dev) : Dev := if running d then forEach (d.keys.inst.map (·.1)) remask d else d

/-- Everything below KEY.SITE is derived anew (R488). -/
def siteRolled (d : Dev) : Dev := forEach (List.range 4) publishCsr d

/-- The pair key changes at this boundary token: the one in force until then is kept for the records that the last micro-frame
committed (R488). -/
def keepPairKey (d : Dev) : Dev :=
  if d.keys.pairWas.map (·.1) = some d.time.micro then d
  else { d with keys := { d.keys with pairWas := some (d.time.micro, pairKey d) } }

/-- The pair key of the micro-frame before this one: that of SESSION_DELTA records (R488). -/
def deltaKey (d : Dev) : Bytes :=
  match d.keys.pairWas with
  | some (m, k) => if m = d.time.micro then k else pairKey d
  | none => pairKey d

/-- An installed key takes effect; its wrapped copy waits for NOR (R484). -/
def keyInstall (num : Nat) (key : Bytes) (d : Dev) : Dev :=
  let d := if num = 0x510 then keepPairKey d else d
  let d := { d with keys := { d.keys with inst := alSet d.keys.inst num key } }
  let k := okey num 0
  let d := { d with os := { d.os with norDirty := if d.os.norDirty.contains k then d.os.norDirty else d.os.norDirty ++ [k] } }
  let d := raise 0x8002 noInst num (publishInstalled (remask num d))
  if num = 0x510 then siteRolled d
  else if 0x520 ≤ num ∧ num < 0x530 then
    { d with lanes := { d.lanes with lanes := modAt d.lanes.lanes (32 + (num - 0x520)) (fun l => { l with relink := true }) } }
  else d

/-! ### Rolls (R487, R488) -/

/-- Bits 0 and 1 need METROLOGY with MET_SEAL asserted, the others SERVICE or VENDOR. 0 admits, 1 ACCESS, 2 STATE. -/
def rollCheck (d : Dev) (m role : Nat) : Nat :=
  let low := decide (m % 4 ≠ 0)
  let high := decide (m / 4 ≠ 0)
  if low && role != 2 then 1 else if high && role != 1 && role != 3 then 1 else if low && !(sealOpen d) then 2 else 0

/-- The index of node j in KEY.GEN: SIGN, SEAL, PAIR, SECC, SLOT0–3, YARDNET. -/
def rollNode (j : Nat) (d : Dev) : Dev :=
  let d := if j = 0 then
      putb 0x541 0 ((ob d 0x541 0 ++ natLe 4 (gen d 1) ++ natLe 4 0 ++ signPub d).take 4608) d
    else if j = 2 then keepPairKey d
    else d
  let d := put 0x503 (j + 1) (gen d (j + 1) + 1) d
  let d := if j = 0 then publishSign d
    else if j = 3 then siteRolled d
    else if 4 ≤ j ∧ j ≤ 7 then publishCsr (j - 4) d
    else d
  raise 0x8001 j (gen d (j + 1)) d

/-- KEY.ROLL taking effect at a major-frame boundary. -/
def keyRoll (m : Nat) (d : Dev) : Dev := clrStatus 0x502 0 4 (forEach (bitsSet 9 m) rollNode d)

/-! ### Verification keys (R486) -/

/-- Who may write KEY.PUB[n]: slots 0–7 in FACTORY, 8–15 by SERVICE or VENDOR with USAGE 1 only. 0 admits, 2 STATE, 3 RANGE,
which is judged first (R97). -/
def pubCheck (d : Dev) (n sub : Nat) (v : Bytes) : Nat :=
  if sub = 1 ∧ 8 ≤ n ∧ 1 < leNat v then 3
  else if sub ≠ 1 ∧ !(p256OnCurve (p256Of v)) then 3
  else if n < 8 ∧ lcState d ≠ 0 then 2
  else 0

/-- A slot holds a key for a use. -/
def pubFor (d : Dev) (n usage : Nat) : Option Bytes :=
  if n < 16 ∧ usage ≠ 0 ∧ on d (0x530 + n) 1 = usage then some (ob d (0x530 + n) 2) else none

/-! ### Life cycle (R479 to R481) -/

/-- The changes of R479 and the roles that may write them. -/
def lcAllowed (from' dest role : Nat) : Bool :=
  match from', dest with
  | 0, 1 => role == 3
  | 0, 5 => role == 3
  | 1, 2 => role == 1
  | 2, 3 => role == 1 || role == 3
  | 3, 4 => role == 3
  | 5, 4 => role == 3
  | _, _ => false

def lcKnown (from' dest : Nat) : Bool := (List.range 4).any (fun r => lcAllowed from' dest r)

/-- The check of a CONFIRM write: 0 admits, 1 ACCESS, 2 STATE, 3 RANGE. -/
def lcCheck (d : Dev) (target role : Nat) (confirm : Bytes) (runs : Bool) : Nat :=
  if confirm ≠ (sha256 (ob d 0x003 0 ++ natLe 1 target)).take 8 then 3
  else if target = lcState d then 0
  else if !(lcKnown (lcState d) target) then 3
  else if !(lcAllowed (lcState d) target role) then 1
  else if runs then 2
  else if lcState d = 1 ∧ target = 2 ∧ !(hasKey d 0x510 && hasKey d 0x508 && hasKey d 0x509) then 2
  else 0

/-- An accepted request; TARGET equal to KEY.LC cancels; inert on a unit it does not name (R480). -/
def lcRequest (target unit : Nat) (d : Dev) : Dev :=
  if unit = 0xFF ∨ unit = on d 0x403 0 then
    let r := if target = lcState d then none else some target
    wrStatus 0x502 0 1 r.isSome { d with keys := { d.keys with lcReq := r } }
  else d

/-- The installed keys that survive a change (R479). -/
def lcKeeps (from' dest : Nat) (l : List (Nat × Bytes)) : List (Nat × Bytes) :=
  if from' = 2 ∧ dest = 3 then l.filter (fun p => p.1 == 0x50B) else if dest = 4 then [] else l

/-- A pending change is carried out at a start (R481): keys, the one-time write, the old root destroyed. -/
def lcCarryOut (d : Dev) : Dev :=
  match d.keys.lcReq with
  | none => d
  | some t =>
    let f := lcState d
    let d := { d with keys := { d.keys with
      inst := lcKeeps f t d.keys.inst
      nor := lcKeeps f t d.keys.nor
      banks := setAt d.keys.banks f false
      lcReq := none } }
    let d := if f = 2 ∧ t = 3 then forEach (List.range 8) (fun i d =>
        putb (0x538 + i) 2 (List.replicate 64 0) (put (0x538 + i) 1 0 d)) d
      else if t = 4 then forEach (List.range 16) (fun i d => putb (0x530 + i) 2 (List.replicate 64 0) (put (0x530 + i) 1 0 d)) d
      else d
    raise 0x8003 noInst (f + 256 * t) (clrStatus 0x502 0 1 (put 0x500 0 t d))

/-! ### Recovery (R87, R490) -/

/-- KEY_REDERIVE: a derived key has been derived again (`num` 0), or the installed key of object `num` unwrapped again from NOR,
`norOk` telling whether its copy passes. `parents` tells of the key's parent, its parent and so on up to the root which of them
could be read: the guard goes up to the first one, and every failing parent on the way is derived again (R87). `addr` is the
word address of the failing key; R89 names a slot index or a word address. -/
def keyRederive (num addr : Nat) (norOk : Bool) (parents : List Bool) (d : Dev) : Dev :=
  if !(running d) || (num != 0 && !(hasKey d num)) then d
  else
    let d := put 0x1C6 3 d.time.micro (put 0x1C6 2 addr (put 0x1C6 1 7 d))
    match parents.findIdx? (fun ok => ok) with
    | none => failSilent 5 { d with keys := { d.keys with rootLost := true } }
    | some up =>
      let n := if num = 0 then up + 1 else up
      let d := if n = 0 then d else put 0x1C4 0 (satU 32 (on d 0x1C4 0 + n)) (setStatus 0x1C0 0 3 d)
      if num = 0 then d
      else if norOk then remask num d
      else
        let d := { d with keys := { d.keys with inst := alDel d.keys.inst num, masks := alDel d.keys.masks num, nor := alDel d.keys.nor num } }
        raise 0x8401 noInst num (setStatus 0x502 0 5 (publishInstalled d))

/-- The session states and the life-cycle states in which a role may open (R478). -/
def lcRoleOk (lc role : Nat) : Bool :=
  match lc with
  | 0 => role == 3
  | 1 => decide (role < 4)
  | 2 => decide (role < 4)
  | 3 => role == 3
  | 5 => role == 3 || role == 1
  | _ => false

/-- The key a role proves under: its access key, or the initial key for SERVICE in PROVISION (R485). -/
def accessKey (d : Dev) (role : Nat) : Option Bytes :=
  match alGet d.keys.inst (0x508 + role) with
  | some k => some k
  | none => if role = 1 ∧ lcState d = 1 then some initSvc else none

/-- KEY.INIT_SVC is readable only by VENDOR in FACTORY (R491). -/
def initSvcReadable (d : Dev) (role : Nat) : Bool := role == 3 && lcState d == 0

end Sys2Proof.Machine
end

