-- ==== Sys2Proof/Machine/Supervision.lean ====
section
/-! DEFINITION. Loop supervision and stage faults (spec/08): the kernels MODEL_PHASE, MODEL_ADAPT and SUM_CHECK, missing
frames, HOLD and LOST, shorted outputs, and the group measurements of R151 that supervision masks. -/

namespace Sys2Proof.Machine

/-! ### MODEL_PHASE (R183 to R185) -/

/-- The values one run of MODEL_PHASE works on. -/
structure ModelIn where
  im : Int
  vin : Int
  dl : Int
  vout : Int
  gated : Bool
  standin : Bool
  zc : Nat
  al : Int
  av : Int
  br : Int
  deriving DecidableEq, Repr

/-- Wrapping sums (R185). -/
def wrapS (x : Int) : Int := toS 64 (ofS 64 x)
def wrapU (x : Int) : Int := (ofS 64 x : Nat)

/-- One run of MODEL_PHASE: state d1 d2 pp u1 m1 v1 GA NA GV GB NB N; gives (pred, SUP.01–.09, next state). -/
def modelStep (st : List Int) (x : ModelIn) : Int × List Int × List Int :=
  let e := decide (st = [])
  let d1 := if e then x.dl else st.getD 0 0
  let d2 := if e then x.dl else st.getD 1 0
  let pp := if e then x.im else st.getD 2 0
  let u1 := st.getD 3 0
  let m1 := st.getD 4 0
  let v1 := st.getD 5 0
  let r := satS 32 (x.im - pp)
  let ok := decide (v1 = 1) && x.gated && !x.standin && decide (x.zc = 0)
  let s := fun k => st.getD k 0
  let ga := if ok then wrapS (s 6 + rsh (r * u1) 8) else s 6
  let na := if ok then wrapU (s 7 + rsh (u1 * u1) 8) else s 7
  let gv := if ok then wrapS (s 8 + r * 256) else s 8
  let gb := if ok then wrapS (s 9 + rsh (r * m1) 8) else s 9
  let nb := if ok then wrapU (s 10 + rsh (m1 * m1) 8) else s 10
  let n := if ok then (s 11 + 1) % 2 ^ 32 else s 11
  let dm := (11796 * d2 + 49152 * d1 + 4588 * x.dl + 32768) / 65536
  let u := satS 32 (rsh (dm * x.vin) 16 - x.vout)
  let pred := satS 32 (x.im + q16 (x.al * u) - x.av - q16 (x.br * x.im))
  let f : Int := boolNat ok + 2 * boolNat x.standin + 4 * boolNat (x.zc != 0) + 8 * boolNat (!x.gated)
  (pred, [if ok then r else 0, x.im, f, ga, na, gv, gb, nb, n],
    [x.dl, d1, pred, u, x.im, boolNat x.gated, ga, na, gv, gb, nb, n])

/-- Width in bits of STG.PH_SUP.01–.09 (R203). -/
def supWidths : List Nat := [32, 32, 8, 64, 64, 64, 64, 64, 32]

def kModelPhase (d : Dev) (im : Image) (sl : SlotR) (st : List Int) : KOut :=
  let b0 := bindAt im sl 0
  let s := b0.sub
  let p := bindElem b0
  let mo := bindObj (bindAt im sl 3)
  let po := bindObj (bindAt im sl 4)
  let stand := (stgS d s).standin.testBit p
  let x : ModelIn := {
    im := inp d im sl 0
    vin := convQ (inNum d sl (bindAt im sl 1)) 1 20
    dl := inp d im sl 2
    vout := rdq d sl.cell mo 1
    gated := (rd d sl.cell mo 7).testBit p
    standin := stand
    zc := stageField (upBody d s) 0x10 p
    al := rdq d sl.cell po 1
    av := rdq d sl.cell po 2
    br := rdq d sl.cell po 3 }
  let o := modelStep st x
  let so := bindObj (bindAt im sl (sl.ins + 1))
  let sup := (List.zip (List.range 9) (List.zip supWidths o.2.1)).map (fun t => (okey so (t.1 + 1), ofS t.2.1 t.2.2))
  let k := outTo im sl 0 o.1 { st := o.2.2 }
  { k with outs := k.outs ++ sup }

/-! ### MODEL_ADAPT (R186, R187) -/

/-- The nominal parameters AL₀ and BR₀ in Q8.24: T in ns, L in Q16.16 µH, R in Q16.16 mΩ (R186). -/
def al0 (t l : Int) : Int := if l ≤ 0 then 0 else (t * 2 ^ 24 * 65536) / (1000 * l)
def br0 (t l r : Int) : Int := if l ≤ 0 then 0 else (t * r * 2 ^ 24) / (1000000 * l)

/-- A quotient rounded once to nearest, ties toward positive infinity, for a divisor of either sign. -/
def divNear (n dv : Int) : Int := if dv < 0 then divHalfUp (-n) (-dv) else divHalfUp n dv

/-- One phase of MODEL_ADAPT: params (AL, AV, BR), kept sums and armed flag; new sums; gives the next state. -/
def adaptStep (st sums : List Int) (en : Bool) (enough : Int) (a0 r0 vnom : Int) : List Int × Bool :=
  let g := fun k => st.getD k 0
  let al := if st = [] then a0 else g 0
  let av := if st = [] then 0 else g 1
  let br := if st = [] then r0 else g 2
  let old := fun k => if st = [] then 0 else g (3 + k)
  let nw := fun k => sums.getD k 0
  let dGA := wrapS (nw 0 - old 0)
  let dNA := wrapU (nw 1 - old 1)
  let dGV := wrapS (nw 2 - old 2)
  let dGB := wrapS (nw 3 - old 3)
  let dNB := wrapU (nw 4 - old 4)
  let dN := (nw 5 - old 5) % 2 ^ 32
  let change := en && decide (dN * 5 ≥ enough)
  let avb := rsh (a0 * vnom) 24
  let al' := if change && decide (dNA ≠ 0) then
    clampHi (a0 * 2 / 3) (a0 * 2) (al + clampHi (-(a0 / 256)) (a0 / 256) (divNear (dGA * 2 ^ 24) (4 * dNA))) else al
  let av' := if change && decide (dN ≠ 0) then
    clampHi (-(avb / 20)) (avb / 20) (av - clampHi (-(avb / 5120)) (avb / 5120) (divNear dGV (4 * dN * 256))) else av
  let br' := if change && decide (dNB ≠ 0) then
    clampHi 0 (4 * r0) (br - clampHi (-(r0 / 64)) (r0 / 64) (divNear (dGB * 2 ^ 24) (4 * dNB))) else br
  let drift := decide (al' = a0 * 2 / 3) || decide (al' = a0 * 2) || decide (av' = avb / 20) ||
    decide (av' = -(avb / 20)) || decide (br' = 0) || decide (br' = 4 * r0)
  let drift := drift && decide (a0 ≠ 0)
  let armed := if st = [] then true else g 9 = 1
  ([al', av', br', nw 0, nw 1, nw 2, nw 3, nw 4, nw 5, boolNat (!drift), boolNat drift], drift && armed)

def kModelAdapt (d : Dev) (im : Image) (sl : SlotR) (st : List Int) : KOut :=
  (List.range sl.p1).foldl (fun o j =>
    let so := bindObj (bindAt im sl j)
    let po := bindObj (bindAt im sl (sl.ins + j))
    match locate so with
    | some l =>
      let s := l.inst
      let p := l.off - 0x120
      let t : Int := tNs d
      let lq := rdq d sl.cell (oStg s 6) 0
      let sums := [rdi 64 d sl.cell so 4, (rd d sl.cell so 5 : Int), rdi 64 d sl.cell so 6, rdi 64 d sl.cell so 7,
        (rd d sl.cell so 8 : Int), (rd d sl.cell so 9 : Int)]
      let r := adaptStep (if st = [] then [] else (st.drop (11 * j)).take 11) sums (rd d sl.cell (oStg s 0x100) 4 == 1)
        (majorMicros d.time.code) (al0 t lq) (br0 t lq (rdq d sl.cell (oStg s 0x100) 3)) (rdq d sl.cell (oStg s 5) 0)
      let v := fun k => r.1.getD k 0
      { o with
        st := o.st ++ r.1
        outs := o.outs ++ [(okey po 1, ofS 32 (v 0)), (okey po 2, ofS 32 (v 1)), (okey po 3, ofS 32 (v 2)),
          (okey po 4, (v 10).toNat)]
        evs := o.evs ++ (if r.2 then [(0x2A03, s, p)] else []) }
    | none => o) {}

/-! ### SUM_CHECK (R188 to R194) -/

/-- The state of SUM_CHECK taken apart: per group settling count, idle set, SUM_FAULT runs, clearing runs, estimate
runs; the command sequence; PH_PERMIT, the fault masks; the counters by phase. -/
structure SumSt where
  settle : List Int
  idle : List Int
  ovr : List Int
  under : List Int
  estOver : List Int
  seq : Int
  permit : Nat
  open' : Nat
  sense : Nat
  est : Nat
  sumf : Nat
  cnt : List Int
  deriving DecidableEq, Repr

def sumUnpack (st : List Int) : SumSt :=
  { settle := st.take 4, idle := (st.drop 4).take 4, ovr := (st.drop 8).take 4, under := (st.drop 12).take 4,
    estOver := (st.drop 16).take 4, seq := st.getD 20 0, permit := (st.getD 21 0).toNat, open' := (st.getD 22 0).toNat,
    sense := (st.getD 23 0).toNat, est := (st.getD 24 0).toNat, sumf := (st.getD 25 0).toNat, cnt := st.drop 26 }

def sumPack (x : SumSt) : List Int :=
  x.settle ++ x.idle ++ x.ovr ++ x.under ++ x.estOver ++
    [x.seq, (x.permit : Int), (x.open' : Int), (x.sense : Int), (x.est : Int), (x.sumf : Int)] ++ x.cnt

/-- The entry state (R188): every driven phase permitted, no fault, counters 0, the sequence remembered. -/
def sumEntry (phases : List Nat) (seq : Nat) : SumSt :=
  { settle := [0, 0, 0, 0], idle := [-1, -1, -1, -1], ovr := [0, 0, 0, 0], under := [0, 0, 0, 0], estOver := [0, 0, 0, 0],
    seq := seq, permit := maskOf phases, open' := 0, sense := 0, est := 0, sumf := 0, cnt := List.replicate 32 0 }

/-- What one run of SUM_CHECK reads of one phase: number, group, RES, IM, F. -/
structure SumPh where
  p : Nat
  g : Nat
  r : Int
  im : Int
  f : Nat
  deriving DecidableEq, Repr

/-- The settings of one run: RES_PCT, SUM_PCT, rated current, settling runs, estimate permits, DESAT. -/
structure SumCfg where
  resPct : Int
  sumPct : Int
  rated : Int
  runs : Int
  estPermit : Nat
  expert : Bool
  desat : Bool
  deriving DecidableEq, Repr

/-- |r| exceeds RES_LIM (R189), the limit being an exact percentage. -/
def overRes (c : SumCfg) (r : Int) : Bool := decide (absI r * 100 > c.resPct * c.rated)

/-- A frame is common-mode for a group (R189). -/
def commonMode (c : SumCfg) (ps : List SumPh) : Bool :=
  let okp := ps.filter (fun x => x.f % 2 == 1)
  let up := (okp.filter (fun x => overRes c x.r && decide (x.r > 0))).length
  let dn := (okp.filter (fun x => overRes c x.r && decide (x.r < 0))).length
  (decide (up ≥ 2) && decide (2 * up > okp.length)) || (decide (dn ≥ 2) && decide (2 * dn > okp.length))

/-- One group of one run (R189 to R193): residual, counters, classification, SUM_FAULT, estimated operation. -/
def sumGroup (c : SumCfg) (s g : Nat) (ps : List SumPh) (iout : Int) (x : SumSt) :
    SumSt × List (Nat × Nat × Nat) × Int :=
  let res := satS 32 (iout - sumI (ps.map (·.im)))
  let idleNow : Int := (maskOf ((ps.filter (fun q => !(q.f.testBit 3))).map (·.p)) : Nat)
  let settle := if x.idle.getD g (-1) ≠ idleNow then c.runs else max 0 (x.settle.getD g 0 - 1)
  let frozen := decide (settle > 0) || commonMode c ps
  let x : SumSt := { x with settle := setAt x.settle g settle, idle := setAt x.idle g idleNow }
  -- counters (R189)
  let cnt : List Int := ps.foldl (fun l q =>
    if frozen || q.f % 2 == 0 then l
    else setAt l q.p (if overRes c q.r then l.getD q.p 0 + 1 else 0)) x.cnt
  let hit := ps.filter (fun (q : SumPh) => decide (cnt.getD q.p 0 ≥ 3) && decide (x.cnt.getD q.p 0 < 3))
  let x : SumSt := { x with cnt := cnt }
  -- SUM_FAULT (R191)
  let n := ps.length
  let big := decide (absI res * 100 > c.sumPct * c.rated * n)
  let none' := ps.all (fun q => !(overRes c q.r))
  let small := decide (absI res * 200 ≤ c.sumPct * c.rated * n)
  let ovr := if big && none' then x.ovr.getD g 0 + 1 else 0
  let under := if small then x.under.getD g 0 + 1 else 0
  let was := x.sumf.testBit g
  let sumf := if decide (ovr ≥ c.runs) then setBit x.sumf g else if was && decide (under ≥ c.runs) then clearBit x.sumf g else x.sumf
  let evs := if sumf.testBit g && !was then [(0x2C05, s, g)] else []
  let x := { x with ovr := setAt x.ovr g ovr, under := setAt x.under g under, sumf := sumf }
  -- classification (R190, R193)
  let r := hit.foldl (fun (a : SumSt × List (Nat × Nat × Nat)) q =>
    let y := a.1
    let isSense := decide (hit.length = 1) && !(sumf.testBit g) && decide (2 * absI (res + q.r) ≤ absI (q.r))
    if !isSense then
      ({ y with permit := clearBit y.permit q.p, open' := setBit y.open' q.p },
        a.2 ++ [(0x2C02, s, q.p + 256 * boolNat c.desat)])
    else if c.estPermit.testBit q.p && c.expert && !(ps.any (fun z => y.est.testBit z.p)) then
      ({ y with est := setBit y.est q.p }, a.2 ++ [(0x2A04, s, q.p)])
    else
      ({ y with permit := clearBit y.permit q.p, sense := setBit y.sense q.p },
        a.2 ++ [(0x2C03, s, q.p)])) (x, evs)
  -- estimated operation ends (R193)
  let x := r.1
  let estOver := if big && decide (ps.any (fun z => x.est.testBit z.p) = true) then x.estOver.getD g 0 + 1 else 0
  let x := { x with estOver := setAt x.estOver g estOver }
  let e := ps.foldl (fun (a : SumSt × List (Nat × Nat × Nat)) q =>
    let y := a.1
    if y.est.testBit q.p && (decide (estOver ≥ 3) || sumf.testBit g) then
      ({ y with permit := clearBit y.permit q.p, sense := setBit y.sense q.p, est := clearBit y.est q.p },
        a.2 ++ [(0x2C03, s, q.p + 256)])
    else a) (x, r.2)
  (e.1, e.2, res)

/-- The restore command (R194): in the first run after SEQ changed. -/
def sumRestore (s : Nat) (restore : Nat) (seq : Nat) (driven : Nat) (x : SumSt) : SumSt × List (Nat × Nat × Nat) :=
  if (seq : Int) = x.seq then (x, [])
  else
    let m := restore &&& driven
    ({ x with
        seq := seq, permit := x.permit ||| m, open' := clearMask x.open' m, sense := clearMask x.sense m,
        est := clearMask x.est m,
        cnt := ((List.range 32).zip x.cnt).map (fun p => if m.testBit p.1 then 0 else p.2) },
      if m = 0 then [] else [(0x2804, s, m)])

def kSumCheck (d : Dev) (im : Image) (sl : SlotR) (st : List Int) : KOut :=
  let ib := bindAt im sl sl.p1
  let s := ib.sub
  let e := im.stages.getD s {}
  let so := fun k => oStg s k
  let phs := (List.range sl.p1).map (fun j =>
    let o := bindObj (bindAt im sl j)
    let p := o - so 0x120
    ({ p := p, g := groupOf e p, r := rdq d sl.cell o 1, im := rdq d sl.cell o 2, f := rd d sl.cell o 3 } : SumPh))
  let cfg : SumCfg := {
    resPct := rd d sl.cell (so 0x100) 1, sumPct := rd d sl.cell (so 0x100) 2, rated := rdq d sl.cell (so 0) 0,
    runs := minMicros d.time.code, estPermit := rd d sl.cell (so 0x101) 0, expert := sn d 0x020 2 == 1,
    desat := (stageField (upBody d s) 0x40 0).testBit 10 }
  let seq := rd d sl.cell (so 0x102) 2
  let x := if st = [] then sumEntry (phs.map (·.p)) seq else sumUnpack st
  let r := sumRestore s (rd d sl.cell (so 0x102) 1) seq (maskOf (phs.map (·.p))) x
  let g := (List.range e.groups).foldl (fun (a : SumSt × List (Nat × Nat × Nat) × List Int) g =>
    let iout := convQ (toS 16 (stageField (upBody d s) 0x22 g)) 1 10
    let o := sumGroup cfg s g (phs.filter (fun q => q.g == g)) iout a.1
    (o.1, a.2.1 ++ o.2.1, a.2.2 ++ [o.2.2])) (r.1, r.2, [])
  let x := g.1
  { st := sumPack x
    outs := [(outKey im sl 0, x.permit), (okey (so 0x103) 1, x.open'), (okey (so 0x103) 2, x.sense),
      (okey (so 0x103) 3, x.est), (okey (so 0x103) 4, x.sumf)] ++
      ((List.range g.2.2.length).zip g.2.2).map (fun p => (okey (so 0x104) (p.1 + 1), ofS 32 p.2))
    evs := g.2.1 }

/-! ### Group measurements at the boundary swap (R151, R192, R197, R198) -/

/-- The group is latched off for a short (R199). -/
def shortSet (d : Dev) (s g : Nat) : Bool := (on d (oStg s 0x105) 0).testBit (4 + g)

/-- Publish G.MEAS.01–.04 and .0A of a group from the frame latched at the last sample token (R151). -/
def publishMeasFrame (s g : Nat) (fresh : Bool) (d : Dev) : Dev :=
  let mo := oGrp s g 0
  let body := upBody d s
  let sig : Int := if on d (oGrp s g 0x0B) 0 = 0 then 1 else -1
  if fresh then
    let vo : Int := stageField body 0x21 g
    let io := toS 16 (stageField body 0x22 g)
    let vi : Int := stageField body 0x20 0
    let dff := if vi < 1000 then 0 else clampI 0 65535 (divHalfUp (vo * 65536) vi)
    let d := putq mo 1 (convQ vo 1 20) d
    let d := putq mo 2 (convQ (sig * io) 1 10) d
    let d := putq mo 3 (convQ (sig * vo * io) 1 200000) d
    put mo 10 1 (putq mo 4 dff d)
  else put mo 10 (min 255 (on d mo 10 + 1)) d

/-- Publish G.MEAS.05–.09 and G.CAP_AVAIL of a group from values in force after the swap (R151, R192, R197, R199). -/
def publishMeasMask (s g : Nat) (d : Dev) : Dev :=
  let mo := oGrp s g 0
  let e := stageE d s
  let pm := phaseMask e g
  let avail := if shortSet d s g then 0 else (clearMask (on d (oStg s 9) 0) (on d (oStg s 0x0B) 0)) &&& pm
  let mask := if oflag d (oStg s 0x15) 0 then on d (oStg s 0x0A) (g + 1) &&& avail else 0
  let n := popCount 32 mask
  let share : Int := if n = 0 then 0 else divHalfUp 65536 n
  let sig : Int := if on d (oGrp s g 0x0B) 0 = 0 then 65536 else -65536
  let imax := oq d (oGrp s g 9) 3
  let np := (phasesOf e g).length
  let cap : Int := if (stgS d s).lost ∨ np = 0 then 0 else (imax * popCount 32 avail) / np
  putq (oGrp s g 0x15) 0 cap (putq mo 9 (oq d (oStg s 0) 0) (put mo 8 avail (put mo 7 mask
    (putq mo 6 share (putq mo 5 sig d)))))

/-- The short condition of R198 on values in force after the swap. -/
def shortCond (d : Dev) (s g : Nat) : Bool :=
  let mo := oGrp s g 0
  let vset := oq d (oGrp s g 0x0D) 0
  let vref := oq d (oGrp s g 3) 0
  let igref := oq d (oGrp s g 1) 0
  decide (on d mo 7 ≠ 0) && decide (vset > 0) && decide (5 * vref ≥ vset) && decide (10 * oq d mo 1 < vref) &&
    decide (on d (oGrp s g 2) 0 ≠ 0) && decide (igref > 0) && decide (10 * oq d mo 2 ≥ 9 * igref)

/-- Every phase the group has in PH_PERMIT stands blocked (R171, R198). -/
def allBlocked (d : Dev) (s g : Nat) : Bool :=
  let p := on d (oStg s 9) 0 &&& phaseMask (stageE d s) g
  decide (p ≠ 0) && decide (clearMask p (on d (oStg s 0x0B) 0) = 0)

/-- Count the short condition at a boundary swap (R198); a group already latched is not tested again. The time for which a retried group
has held its voltage is counted too (R200). -/
def countShort (s g : Nat) (d : Dev) : Dev :=
  let same := (on d (oStg s 0x105) 0).testBit (8 + g) && !(shortSet d s g) && decide (oq d (oGrp s g 3) 0 = oq d (oGrp s g 0x0D) 0)
  let d := modGrp s g (fun x => { x with vrefNs := if same then x.vrefNs + tNs d else 0 }) d
  if shortSet d s g then modGrp s g (fun x => { x with shortCnt := 0, allBlocked := false }) d
  else
    let c := shortCond d s g
    modGrp s g (fun x => { x with shortCnt := if c then x.shortCnt + 1 else 0, allBlocked := allBlocked d s g }) d

/-- The connector a group's busbar feeds, when its contactor shows closed in its feedback in force (R199). -/
def shortConn (d : Dev) (s g : Nat) : Bool :=
  let n := on d (oGrp s g 0x17) 0
  if n < 64 then
    match connDisp d n with
    | some (di, i) => (dispField d di 0x230 0).testBit i
    | none => false
  else false

/-- Latch a group off for a short (R198, R199): OUT_SHORT or SSTART_SHORT. It is part of the boundary swap, so the slots of this
micro-frame read the group without a phase. -/
def latchShort (s g : Nat) (d : Dev) : Dev :=
  let soft := decide (oq d (oGrp s g 3) 0 < oq d (oGrp s g 0x0D) 0) && !(((stgS d s).groups.getD g {}).allBlocked)
  let conn := shortConn d s g
  let st := oStg s 0x105
  let used := (on d st 0).testBit (8 + g)
  let d := wrStatus st 0 (12 + g) conn (setStatus st 0 (4 + g) d)
  let d := atSwap ([5, 6, 7, 8, 9].map (okey (oGrp s g 0)) ++ [okey (oGrp s g 0x15) 0, okey st 0]) (publishMeasMask s g d)
  let d := modGrp s g (fun x => { x with shortCnt := 0, allBlocked := false, retry := !conn && !used, retryAt := d.startup.t + 5000000000 }) d
  raise (if soft then 0x2E03 else 0x2E04) s (g + 256 * boolNat conn) d

/-- OUT_SHORT (R198): the fifth consecutive token with the condition, or every permitted phase blocked. -/
def outShort (s g : Nat) (d : Dev) : Dev :=
  let gs := (stgS d s).groups.getD g {}
  if running d && decide (s < 32) && decide (g < 4) && !(shortSet d s g) &&
      (decide (gs.shortCnt ≥ 5) || gs.allBlocked) then latchShort s g d else d

/-- A thermal latch of the stage stands (R200, R258). -/
def stageThermal (d : Dev) (s : Nat) : Bool := oflag d (oStg s 0x1C1) 2

/-- A thermal latch of the stage cancels the retries that wait; a later clear does not bring them back (R200, R266). -/
def cancelRetries (s : Nat) (d : Dev) : Dev :=
  if stageThermal d s then modStg s (fun x => { x with groups := x.groups.map (fun q => { q with retry := false }) }) d else d

/-- A stage-bus latch of the group waits for its retry, and 5 s have passed since the latch. -/
def retryWaits (d : Dev) (s g : Nat) : Bool :=
  let x := (stgS d s).groups.getD g {}
  x.retry && decide (x.retryAt ≤ d.startup.t)

/-- SHORT_RETRY (R200): one retry of a stage-bus latch, 5 s after it; none when the stage is then in HOLD or LOST. -/
def shortRetry (s g : Nat) (d : Dev) : Dev :=
  let st := oStg s 0x105
  let w := on d st 0
  if running d && decide (s < 32) && decide (g < 4) && retryWaits d s g then
    let go := w.testBit (4 + g) && !((stgS d s).hold) && !((stgS d s).lost) && !(stageThermal d s)
    let d := modGrp s g (fun x => { x with retry := false }) d
    if go then raise 0x2805 s g (setStatus st 0 (8 + g) (clrStatus st 0 (4 + g) d)) else d
  else d

/-- RETRY_USED_CLEAR (R200): G.VREF has equalled G.VSET for 1 s without a latch. -/
def retryUsedClear (s g : Nat) (d : Dev) : Dev :=
  let st := oStg s 0x105
  if running d && decide (s < 32) && decide (g < 4) && (on d st 0).testBit (8 + g) && !(shortSet d s g) &&
      decide (1000000000 ≤ ((stgS d s).groups.getD g {}).vrefNs) then clrStatus st 0 (8 + g) d
  else d

/-- |G.MEAS.02| of a group exceeds 1 % of its I2T.IMAX (R172, R194, R200). -/
def groupCarries (d : Dev) (s g : Nat) : Bool :=
  decide (100 * absI (oq d (oGrp s g 0) 2) > oq d (oGrp s g 9) 3)

/-- A group that contains one of the phases of a mask carries current (R172, R194). -/
def maskCarries (d : Dev) (s mask : Nat) : Bool :=
  (List.range (stageE d s).groups).any (fun g => decide (mask &&& phaseMask (stageE d s) g ≠ 0) && groupCarries d s g)

/-- STG.SHORT_CLEAR taking effect (R200). -/
def shortClearEffect (s m : Nat) (d : Dev) : Dev :=
  let st := oStg s 0x105
  let d := forEach (bitsSet 4 m) (fun g => modGrp s g (fun x => { x with retry := false })) d
  put st 0 (clearMask (on d st 0) ((m % 16) * 0x1110)) d

/-- STG.SC_CLEAR taking effect (R172): the bits leave STG.BLOCKED and the next STAGE_DOWN carries CLEAR_BLOCK. -/
def scClearEffect (s m : Nat) (d : Dev) : Dev :=
  let b := on d (oStg s 0x0B) 0
  if b &&& m = 0 then d
  else
    let d := put (oStg s 0x0B) 0 (clearMask b m) d
    { d with lanes := { d.lanes with clearBlock := alSet d.lanes.clearBlock s true } }

/-! ### Missing frames (R195 to R197, R586) -/

/-- A current in Q16.16 A put into a sample field of 10 mA, rounded down. -/
def toSample (i : Int) : Nat := ofS 16 (satS 16 ((i * 100) / 65536))

/-- Replace bytes of a frame body at an offset. -/
def patch (body : Bytes) (off : Nat) (b : Bytes) : Bytes := body.take off ++ b ++ body.drop (off + b.length)

/-- Put one current into I0–I3 of a phase. -/
def patchPhase (body : Bytes) (p : Nat) (i : Int) : Bytes :=
  let w := natLe 2 (toSample i)
  patch body (64 + 8 * p) (w ++ w ++ w ++ w)

/-- The prediction stands in for a missing frame (R195): I0–I3 of every driven phase take STG.PH_PRED, ZC is 0. -/
def standinBody (d : Dev) (s : Nat) (body : Bytes) : Bytes :=
  let b := (List.range (stageE d s).phases).foldl (fun b p => patchPhase b p (oq d (oStg s 0x107) (p + 1))) body
  patch b 48 (List.replicate 16 0)

/-- Estimated operation (R193): the samples of an EST phase are replaced by prediction plus the group residual. -/
def estBody (d : Dev) (s : Nat) (body : Bytes) : Bytes :=
  (bitsSet 32 (on d (oStg s 0x103) 3)).foldl (fun b p =>
    patchPhase b p (satS 32 (oq d (oStg s 0x107) (p + 1) + oq d (oStg s 0x104) (groupOf (stageE d s) p + 1)))) body

/-- FRAME_STANDIN (R195). -/
def frameStandin (s : Nat) (d : Dev) : Dev :=
  let d := modLane s (fun l => { l with cur := standinBody d s l.cur }) d
  let d := modStg s (fun x => { x with standin := maskOf (List.range (stageE d s).phases), prevValid := false }) d
  raise 0x2A02 s 0 (setStatus (oStg s 0x105) 0 2 d)

/-- A lane field that counts as missing by itself, since its snapshot word and the word at its source both failed (R80): the
samples of a phase take its prediction, its ZC bits 0, with the stand-in flag; every other field keeps its previous value. That
a sample takes the other three of its phase with it: DEDUCED from R153, a slot reads their mean (log entry 35). -/
def fieldStandin (b : Bind) (d : Dev) : Dev :=
  let code := bindCode b
  let k := bindElem b
  if b.kind = 2 then
    let body := fun (cur old : Bytes) =>
      if 1 ≤ code ∧ code ≤ 4 then patchPhase cur k (oq d (oStg b.sub 0x107) (k + 1))
      else if code = 0x10 then patch cur 48 (natLe 16 (clearMask (fieldLe cur 48 16) (15 <<< (4 * k))))
      else patch cur (upOff code k).1 (slice old (upOff code k).1 (upOff code k).2)
    let d := modLane b.sub (fun l => { l with cur := body l.cur l.old }) d
    let d := if code ≤ 4 then modStg b.sub (fun x => { x with standin := setBit x.standin k }) d else d
    raise 0x2A02 b.sub 0 (setStatus (oStg b.sub 0x105) 0 2 d)
  else if b.kind = 4 then
    let l := 32 + b.sub
    let first := (dispE d b.sub).first
    let recs := fun (c : Nat) (f : RecS → RecS) => { d with lanes := { d.lanes with recs := modAt d.lanes.recs (first + c) f } }
    if code = 0x201 ∨ code = 0x202 then
      let o := (if code = 0x201 then 16 else 32) + 2 * k
      modLane l (fun x => { x with cur := patch x.cur o (slice x.old o 2) }) d
    else if code = 0x210 then recs (k / 4) (fun r => { r with curThermal := setAt r.curThermal (k % 4) (r.oldThermal.getD (k % 4) 0) })
    else if 0x211 ≤ code ∧ code ≤ 0x213 then
      recs k (fun r => { r with curThermal := setAt r.curThermal (code - 0x20D) (r.oldThermal.getD (code - 0x20D) 0) })
    else if code = 0x220 then recs k (fun r => { r with curRiso := r.oldRiso })
    else if code = 0x221 then recs k (fun r => { r with curIso := r.oldIso })
    else if code = 0x230 then modLane l (fun x => { x with cur := patch x.cur 12 (slice x.old 12 2) }) d
    else modLane l (fun x => { x with cur := patch x.cur 0 (slice x.old 0 4) }) d
  else d

/-- STG_HOLD (R196). -/
def enterHold (s : Nat) (d : Dev) : Dev :=
  let d := modStg s (fun x => { x with hold := true, holdCnt := 1, prevValid := false, holdEnds := false }) d
  raise 0x2C04 s 0 (setStatus (oStg s 0x105) 0 0 d)

/-- The status of a frame that lets LOST end (R197). -/
def lostEndStatus (w : Nat) : Bool := w.testBit 15 || (!(w.testBit 13) && bitsOf w 7 4 == 0 && !(w.testBit 16))

/-- The frame latched for this micro-frame: a frame with any other SEQ counts as missing (R40, R121). -/
def latchedNow (micro : Nat) (l : LaneS) : Option Bytes := if l.latchSeq = micro % 65536 then l.latch else none

/-- The sample token of a bound stage (R40, R143, R195, R196, R197, R586). -/
def sampleStage (s : Nat) (d : Dev) : Dev :=
  let l := laneS d s
  let x := stgS d s
  match latchedNow d.time.micro l with
  | some body =>
    let d := modLane s (fun l => { l with cur := body, old := l.cur, latch := none, valid := true }) d
    let d := modLane s (fun l => { l with cur := estBody d s l.cur }) d
    modStg s (fun x => { x with
      standin := on d (oStg s 0x103) 3, prevValid := true, holdEnds := x.hold,
      holdCnt := 0, validCnt := if x.lost then x.validCnt + 1 else 0 }) d
  | none =>
    if l.upSleep then modLane s (fun l => { l with valid := true, old := l.cur }) d
    else
      let d := modLane s (fun l => { l with valid := false, old := l.cur }) d
      let d := if l.everUp then incr 32 0x202 (s + 1) d else d
      if x.startLost then modStg s (fun x => { x with validCnt := 0, prevValid := false }) d
      else if x.hold then modStg s (fun x => { x with holdCnt := x.holdCnt + 1, holdEnds := false, validCnt := 0 }) d
      else if x.prevValid then modStg s (fun x => { x with validCnt := 0 }) (frameStandin s d)
      else modStg s (fun x => { x with validCnt := 0 }) (enterHold s d)

/-- HOLD ends at the boundary token after a valid frame (R196). -/
def holdEnd (s : Nat) (d : Dev) : Dev :=
  if (stgS d s).hold && (stgS d s).holdEnds then
    let d := modStg s (fun x => { x with hold := false, holdEnds := false, holdCnt := 0 }) d
    raise 0x2803 s 0 (clrStatus (oStg s 0x105) 0 0 d)
  else d

/-- STG_LOST (R197): HOLD has lasted SYS.LANE_HOLD_LIMIT sample tokens. -/
def stgLost (s : Nat) (d : Dev) : Dev :=
  let x := stgS d s
  if running d && x.hold && !x.lost && decide (x.holdCnt ≥ on d 0x206 0) then
    let d := modStg s (fun x => { x with lost := true, validCnt := 0 }) d
    let d := forEach (List.range (stageE d s).groups) (fun g => putq (oGrp s g 0x15) 0 0) d
    raise 0x2E05 s 0 (setStatus (oStg s 0x105) 0 1 d)
  else d

/-- LOST_END (R197, R586): frames valid for a whole minor frame, the newest showing the stage ramped down; on a STANDBY unit the start-up LOST ends at
the first valid frame. The stage resumes with RUN 0 and every CLOSE bit 0. -/
def lostEnd (s : Nat) (d : Dev) : Dev :=
  let x := stgS d s
  let need := if x.startLost && d.pair.role == .standby then (if x.prevValid then 0 else 1) else minMicros d.time.code
  if running d && x.lost && decide (x.validCnt ≥ need) && (decide (need = 0) || lostEndStatus (fieldLe (upBody d s) 0 4)) &&
      (decide (need ≠ 0) || x.prevValid) then
    let d := modStg s (fun x => { x with
      lost := false, startLost := false, hold := false, holdEnds := false, holdCnt := 0,
      validCnt := 0, resume := true }) d
    let d := clrStatus (oStg s 0x105) 0 1 (clrStatus (oStg s 0x105) 0 0 d)
    { d with lanes := { d.lanes with lreg := alSet d.lanes.lreg (fkey 3 s 0x111 0) 0 } }
  else d

end Sys2Proof.Machine
end

