-- ==== Sys2Proof/Machine/Energy.lean ====
section
/-! DEFINITION. Energy budget and contactor sequencing (spec/10): the closing check, ENERGY_BUDGET, the stage and node
sequencers, refusals, contactor faults and their clears. -/

namespace Sys2Proof.Machine

/-! ### Objects of a node: a connector (0 to 63) or a tie (0x40 to 0x43) (R249, R250) -/

def nodeCfg (n : Nat) : Nat := if n < 64 then oCon n 0x30 else 0x1013 + 3 * (n - 64)
def nodeEb (n : Nat) : Nat := if n < 64 then oCon n 0x31 else 0x1014 + 3 * (n - 64)
def nodeSeqO (n : Nat) : Nat := if n < 64 then oCon n 0x32 else 0x1015 + 3 * (n - 64)

/-- The node of an energy-budget or sequencer object. -/
def nodeOfObj (num : Nat) : Nat :=
  match locate num with
  | some l => if l.blk = .con then l.inst else 64 + (num - 0x1013) / 3
  | none => 0

/-- A configuration value of the node that limits a group; the defaults when it has none (R242). -/
def cfgN (d : Dev) (cell : Nat) (n : Option Nat) (k : Nat) : Nat :=
  match n with
  | some n => rd d cell (nodeCfg n) k
  | none => valNat (dfltOf (okey (oCon 0 0x30) k))

/-- The node that gives a group its limits: G.NODE, else G.ASSIGN (R242). -/
def limNode (node asg : Nat) : Option Nat := if node ≠ 0xFF then some node else if asg ≠ 0xFF then some asg else none

/-! ### The closing check (R234) -/

/-- A side of a closing: its capacitance in Q16.16 µF, none when unbounded, and its voltage in Q16.16 V. -/
structure Side where
  c : Option Int
  v : Int
  deriving DecidableEq, Repr

/-- E_REL in Q16.16 J, rounded down. -/
def eRel (a b : Side) : Int :=
  let dv := a.v - b.v
  let e := fun (n dn : Int) => satS 32 (n * dv * dv / (dn * 2000000 * 2 ^ 32))
  match a.c, b.c with
  | some ca, some cb => if ca = 0 ∨ cb = 0 then 0 else e (ca * cb) (ca + cb)
  | some ca, none => e ca 1
  | none, some cb => e cb 1
  | none, none => satS 32 (2 ^ 31)

/-- The energy limit holds, exactly. -/
def eOk (a b : Side) (lim : Int) : Bool :=
  let dv := a.v - b.v
  match a.c, b.c with
  | some ca, some cb => ca = 0 || cb = 0 || decide (ca * cb * dv * dv ≤ lim * 2000000 * 2 ^ 32 * (ca + cb))
  | some ca, none => decide (ca * dv * dv ≤ lim * 2000000 * 2 ^ 32)
  | none, some cb => decide (cb * dv * dv ≤ lim * 2000000 * 2 ^ 32)
  | none, none => decide (dv = 0)

/-- The reason a closing check fails: 0 passes, 1 |ΔV|, 2 E_REL (R247). -/
def closeCheck (vClose eClose : Int) (a b : Side) : Nat :=
  if absI (a.v - b.v) > vClose then 1 else if eOk a b eClose then 0 else 2

/-! ### ENERGY_BUDGET (R235, R236) -/

/-- An edge of a node as the kernel sees it. -/
structure EbEdge where
  k : Nat
  s : Nat
  g : Nat
  vx : Int
  closed : Bool
  gfb : Bool
  deriving DecidableEq, Repr

/-- The group bindings of a node's ENERGY_BUDGET slot: the groups of edges 0, 1, … -/
def ebGroupsOf (im : Image) (sl : SlotR) : List (Nat × Nat) :=
  (List.range sl.p1).map (fun j =>
    match locate (bindObj (bindAt im sl j)) with
    | some l => (l.inst, l.sub)
    | none => (0, 0))

/-- The ENERGY_BUDGET slot of a node. -/
def ebSlot (im : Image) (n : Nat) : Option SlotR :=
  im.slots.find? (fun sl => sl.kernel == 0x30 && bindObj (bindAt im sl sl.ins) == nodeEb n)

/-- The groups of a node's edges, by number. -/
def nodeGroups (im : Image) (n : Nat) : List (Nat × Nat) := ((ebSlot im n).map (ebGroupsOf im)).getD []

/-- Bits of STG.SUP_STATUS as a slot of a cell reads them (R38, R204): HOLD or LOST, LOST, SHORT and CONN of a group. -/
def stgLostRd (d : Dev) (cell s : Nat) : Bool := (rd d cell (oStg s 0x105) 0).testBit 1
def stgHeldRd (d : Dev) (cell s : Nat) : Bool := (rd d cell (oStg s 0x105) 0).testBit 0 || stgLostRd d cell s
def shortRd (d : Dev) (cell s g : Nat) : Bool := (rd d cell (oStg s 0x105) 0).testBit (4 + g)
def connRd (d : Dev) (cell s g : Nat) : Bool := (rd d cell (oStg s 0x105) 0).testBit (12 + g)

/-- A lane is UP, asleep or not, by SYS.LANE_STATE at the boundary swap (R38, R147). -/
def laneUpRd (d : Dev) (cell l : Nat) : Bool := rd d cell 0x200 (l + 1) == 4 || rd d cell 0x200 (l + 1) == 7

/-- Group contactor feedback as latched: GFB of the stage STATUS (R123). -/
def gfbRaw (d : Dev) (s g : Nat) : Bool := (stageField (upBody d s) 0x40 0).testBit (4 + g)

/-- The same, open while the stage is LOST (R197): for the rows that act now, and as a slot reads it. -/
def gfbOf (d : Dev) (s g : Nat) : Bool := gfbRaw d s g && !((stgS d s).lost)
def gfbRd (d : Dev) (cell s g : Nat) : Bool := gfbRaw d s g && !(stgLostRd d cell s)

/-- The node-line voltage (R233): through the lowest closed edge whose group contactor is closed, then through the
connector contactor, else the last one. -/
def nodeVolt (es : List EbEdge) (conn : Bool) (vconn last : Int) : Int :=
  match es.find? (fun e => e.closed && e.gfb) with
  | some e => e.vx
  | none => if conn then vconn else last

/-- The connector contactor shows closed; with the lane down it counts as open 200 ms after the hold limit (R136, R248). -/
def conFbOf (d : Dev) (cell n : Nat) (field : Nat) : Bool :=
  match connDisp d n with
  | some (di, i) =>
    let gone := decide (rd d cell 0x206 0 * tNs d + 200000000 ≤ (laneS d (32 + di)).missRun * tNs d)
    field.testBit i && !(!(laneUpRd d cell (32 + di)) && gone)
  | none => false

/-- The connector contactor shows closed, by the frame in force (R235, R236). -/
def connShows (d : Dev) (cell n : Nat) : Bool :=
  match connDisp d n with
  | some (di, _) => conFbOf d cell n (dispField d di 0x230 0)
  | none => false

/-- The busbar contactor between group (s, g) and node n shows closed (R235). -/
def joinShows (d : Dev) (n s g : Nat) : Bool :=
  d.energy.edges.any (fun e => e.node == n && e.s == s && e.g == g && edgeShows d e)

/-- The edges of a node, from the groups and the output voltages of its ENERGY_BUDGET slot. -/
def ebEdges (d : Dev) (cell n : Nat) (gs : List (Nat × Nat)) (vx : Nat → Int) : List EbEdge :=
  (List.zip (List.range gs.length) gs).map (fun p =>
    { k := p.1, s := p.2.1, g := p.2.2, vx := vx p.1, closed := joinShows d n p.2.1 p.2.2, gfb := gfbRd d cell p.2.1 p.2.2 })

/-- The sections joined to a node line, as capacitance and voltage: the line, the busbars and converters of closed edges. -/
def ebSections (d : Dev) (cell n : Nat) (es : List EbEdge) (vn : Int) : List (Int × Int) :=
  (rdq d cell (nodeCfg n) 1, vn) ::
    (es.filter (·.closed)).flatMap (fun e =>
      (rdq d cell (oGrp e.s e.g 0x18) 2, rdq d cell (oGrp e.s e.g 0x19) 2) ::
        (if e.gfb then [(rdq d cell (oGrp e.s e.g 0x18) 1, e.vx)] else []))

/-- The cable of a connector, as far as its contactor joins it. -/
def ebCable (d : Dev) (cell n : Nat) (conn : Bool) (vconn : Int) : List (Int × Int) :=
  if conn then [(rdq d cell (nodeCfg n) 2, vconn)] else []

/-- The closing check of each contactor of a node (R234, R235): its bit in PERMIT, the reason it fails with, its two sides. -/
def ebChecks (d : Dev) (cell n : Nat) (es : List EbEdge) (vn : Int) (conn : Bool) (vconn : Int) : List (Nat × Nat × Side × Side) :=
  let secs := ebSections d cell n es vn
  let lineC := sumI ((secs ++ ebCable d cell n conn vconn).map (·.1))
  let vC := rdq d cell (nodeCfg n) 5
  let eC := rdq d cell (nodeCfg n) 4
  let chk := es.map (fun e =>
    let a : Side := { c := some (rdq d cell (oGrp e.s e.g 0x18) 1 + rdq d cell (oGrp e.s e.g 0x18) 2), v := e.vx }
    let b : Side := { c := some lineC, v := vn }
    (e.k, closeCheck vC eC a b, a, b))
  if n < 64 then
    let a : Side := { c := some (sumI (secs.map (·.1))), v := vn }
    let b : Side := { c := some (rdq d cell (nodeCfg n) 2), v := vconn }
    chk ++ [(16, closeCheck vC eC a b, a, b)]
  else chk

/-- Why PERMIT bit `b` of a node is clear, 1 |ΔV| or 2 E_REL: the check on the values in force, with V_NODE as published (R247);
1 where they pass by now. DEDUCED: PERMIT itself carries no reason (log entry 44). -/
def permitReason (d : Dev) (cell n : Nat) (gs : List (Nat × Nat)) (b : Nat) : Nat :=
  let conn := decide (n < 64) && connShows d cell n
  let vconn := if n < 64 then vConnRd d n else 0
  let es := ebEdges d cell n gs (fun k => rdq d cell (oGrp (gs.getD k (0, 0)).1 (gs.getD k (0, 0)).2 0) 1)
  match (ebChecks d cell n es (rdq d cell (nodeEb n) 5) conn vconn).find? (fun c => c.1 == b) with
  | some c => max 1 c.2.1
  | none => 1

/-- One run of an ENERGY_BUDGET slot (R235, R236). Its state word is 2 once the bleed time of the isolated line has passed (R233). -/
def kEnergyBudget (d : Dev) (im : Image) (sl : SlotR) (st : List Int) : KOut :=
  let cell := sl.cell
  let n := nodeOfObj (bindObj (bindAt im sl sl.ins))
  let conn := decide (n < 64) && connShows d cell n
  let vconn := if n < 64 then vConnRd d n else 0
  let es := ebEdges d cell n (ebGroupsOf im sl) (inp d im sl)
  let last := if st = [] then vconn else if st = [2] then 0 else rdq d cell (nodeEb n) 5
  let joined := conn || es.any (fun e => e.closed && e.gfb)
  let vn := nodeVolt es conn vconn last
  let cfg := fun k => rdq d cell (nodeCfg n) k
  let all := ebSections d cell n es vn ++ ebCable d cell n conn vconn
  let energy := sumI (all.map (fun p => p.1 * p.2 * p.2)) / (2000000 * 2 ^ 32)
  let lineC := sumI (all.map (·.1))
  let vC := cfg 5
  let eC := cfg 4
  let chk := ebChecks d cell n es vn conn vconn
  let permit := maskOf ((chk.filter (fun c => c.2.1 == 0)).map (·.1))
  let bad := (chk.filter (fun c => c.2.1 != 0)).getLast?
  let er := match bad with | some c => eRel c.2.2.1 c.2.2.2 | none => 0
  let dv := match bad with | some c => absI (c.2.2.1.v - c.2.2.2.v) | none => 0
  let ns := rd d cell (nodeSeqO n) 1
  let vehC := cfg 3
  let ready := conn && (ns == 3 || ns == 4) && decide (rd d cell (oCon n 0x34) 1 ≠ 4) &&
    decide (closeCheck vC eC { c := if vehC = 0 then none else some vehC, v := rdq d cell (oCon n 0x20) 9 }
      { c := some lineC, v := vconn } = 0)
  let eb := nodeEb n
  { st := if !joined ∧ st = [2] then [2] else [1]
    outs := [(okey eb 1, ofS 32 (satS 32 energy)), (okey eb 2, ofS 32 er), (okey eb 3, ofS 32 (satS 32 dv)), (okey eb 4, permit),
      (okey eb 5, ofS 32 vn)] ++ (if n < 64 then [(okey (oCon n 0x36) 0, boolNat ready)] else []) }

/-! ### Refusals (R247) -/

/-- A thermal latch of a connector (R258), of a stage, or of the device. -/
def conThermal (d : Dev) (c : Nat) : Bool := on d (oCon c 0x41) 3 != 0

/-- The dispenser lane of a connector is UP. -/
def dispUp (d : Dev) (c : Nat) : Bool :=
  match connDisp d c with
  | some (di, _) => (laneS d (32 + di)).st == .up
  | none => false

/-- ISO_STATE of a connector as in force at the boundary token (R38). -/
def isoRd (d : Dev) (c : Nat) : Nat := ((alGet d.sched.disp c).map (·.2.2)).getD 0

/-- ISO_STATE of a connector as latched (R129). -/
def isoState (d : Dev) (c : Nat) : Nat :=
  match connDisp d c with
  | some (di, i) => dispField d di 0x221 i
  | none => 0

/-- The lane of a connector's dispenser is UP, as a slot reads it (R38). -/
def dispUpRd (d : Dev) (cell c : Nat) : Bool :=
  match connDisp d c with
  | some (di, _) => laneUpRd d cell (32 + di)
  | none => false

/-- Reasons 3, 5 and 6 of a node's own path. -/
def nodeRefusal (d : Dev) (cell n : Nat) : Nat :=
  if n < 64 then
    (if rd d cell (oCon n 0x41) 3 ≠ 0 then 3 else if !(dispUpRd d cell n) then 5 else if isoRd d n = 3 then 6 else 0)
  else 0

/-- Reasons 3 to 7 of a closing on the path of group (s, g) to node n. -/
def pathRefusal (d : Dev) (cell s g n : Nat) : Nat :=
  if rd d cell (oStg s 0x1C1) 2 ≠ 0 then 3
  else if shortRd d cell s g then 4
  else if stgHeldRd d cell s then 5
  else if nodeRefusal d cell n ≠ 0 then nodeRefusal d cell n
  else if !(hasEdge (tableSnap d) s g n) then 7
  else 0

/-- The device latch of a unit without a partner holds the references at 0 and stops every node (R262): a SINGLE unit, or an
active one whose partner is not present. -/
def dieStop (d : Dev) (cell : Nat) : Bool :=
  rd d cell 0x285 5 != 0 && (d.pair.role == .single || (d.pair.role == .active && !((rd d cell 0x400 0).testBit 3)))

/-! ### The stage sequencer (R237, R238, R242, R243, R248) -/

/-- What a group's state machine sees in one run. -/
structure GrpIn where
  asg : Nat
  node : Nat
  /-- state of the node assigned, and of the node fed -/
  asgSt : Nat
  nodeSt : Nat
  gfb : Bool
  clr : Bool
  lost : Bool
  short : Bool
  /-- the edge's busbar contactor shows closed; any busbar contactor of the group shows closed -/
  edge : Bool
  vx : Int
  vbus : Int
  vnode : Int
  ig : Int
  imax : Int
  ic : Int
  vReq : Int
  reverse : Bool
  /-- PREP and TURN check of X against B; path refusal -/
  check : Nat
  path : Nat
  iPre : Int
  vSafe : Int
  tDis : Nat
  rampMs : Int
  tOp : Nat
  t : Nat
  deriving DecidableEq, Repr

def oneV : Int := 65536

/-- The current through the group is below 1 % of G.I2T.03 (R240). -/
def igLow (x : GrpIn) : Bool := decide (100 * x.ig < x.imax)

/-- G.I_EB in DOWN and in step 1 of TURN: max(0, |IG| − G.I2T.03 · T / RAMP_MS) (R242, R243). -/
def rampDown (x : GrpIn) : Int :=
  max 0 (x.ig - (if x.rampMs = 0 then x.imax else x.imax * (x.t : Int) / (x.rampMs * 1000000)))

/-- Node states in which groups may be built (R242). -/
def openSt (st : Nat) : Bool := decide (1 ≤ st) && decide (st ≤ 4)
def liveSt (st : Nat) : Bool := decide (2 ≤ st) && decide (st ≤ 4)

/-- Go to a state, its timer at 0. -/
def GSeq.goto (q : GSeq) (st : Nat) : GSeq := { q with state := st, t := 0, turn := 0 }

/-- Issue a contactor command. -/
def GSeq.command (q : GSeq) (c : Bool) : GSeq := if q.close = c then q else { q with close := c, tc := 0 }

/-- Issue a contactor command unless the last one still waits for its feedback within T_OP (R241). -/
def groupCmd (x : GrpIn) (c : Bool) (q : GSeq) : GSeq :=
  if q.close ≠ c ∧ q.close ≠ x.gfb ∧ q.tc < x.tOp then q else q.command c

/-- IDLE: no command, no reference. -/
def GSeq.idle (q : GSeq) : GSeq := { (q.command false).goto 0 with vset := 0, ieb := 0 }

/-- G.DIR becomes 0 on entry to IDLE (R242): it changes only with the output contactor open and the current below 1 % (R152), so
it follows in a later run where the current is not. -/
def toForward (x : GrpIn) (q : GSeq) : GSeq := if !x.gfb ∧ igLow x then { q with dir := false } else q

/-- The opening of a group's output contactor under R240: below 1 % and with every busbar contactor open. -/
def groupOpen (x : GrpIn) (q : GSeq) : GSeq := if igLow x ∧ !x.edge ∨ !x.gfb then groupCmd x false q else q

/-- What a group does in the state it has entered or keeps (R242, R243): its references and its opening. -/
def groupHold (x : GrpIn) (q : GSeq) : GSeq :=
  match q.state with
  | 1 | 2 => { q with vset := max x.vbus oneV, ieb := x.iPre }
  | 3 => { q with vset := max x.vnode oneV, ieb := x.iPre }
  | 4 => { q with vset := x.vReq, ieb := if x.nodeSt = 4 ∨ q.dir then x.imax else x.iPre }
  | 5 => if q.turn = 0 then { q with ieb := rampDown x } else q
  | 6 => { q with ieb := rampDown x }
  | 7 => { q with vset := max (x.vSafe / 2) oneV, ieb := 0 }
  | 8 | 9 => groupOpen x { q with vset := 0, ieb := 0 }
  | _ => q

/-- The group must leave its node: G.ASSIGN names another, the node stops, or a short latch stands (R242). -/
def groupLeaves (x : GrpIn) : Bool := decide (x.asg ≠ x.node) || !(liveSt x.nodeSt) || x.short

/-- The state a group is in after one run (R242, R243). -/
def groupNext (x : GrpIn) (q : GSeq) : GSeq :=
  match q.state with
  | 0 =>
    let q := toForward x q.idle
    if x.asg ≠ 0xFF ∧ openSt x.asgSt ∧ q.refused = none ∧ !q.dir then
      (if x.path = 0 then q.goto 1 else { q with refuse := x.path })
    else q
  | 1 =>
    if x.asg = 0xFF ∨ !(openSt x.asgSt) then q.idle
    else
      let r := if x.path ≠ 0 then x.path else x.check
      if r = 0 then (q.command true).goto 2 else { q with refuse := r }
  | 2 => if x.gfb then q.goto 3 else q
  | 3 =>
    if x.asg = 0xFF ∨ !(openSt x.asgSt) ∨ x.short then q.goto 6
    else if x.edge then q.goto 4 else q
  | 4 => if groupLeaves x then q.goto 6 else if x.reverse ∧ !q.dir then q.goto 5 else q
  | 5 =>
    if q.turn = 0 then
      (if groupLeaves x then q.goto 6 else if igLow x then { (groupCmd x false q) with turn := 1 } else q)
    else if q.turn = 1 then
      (if !(igLow x) then q else if x.gfb ∨ q.close then groupCmd x false q else { q with dir := true, turn := 2 })
    else if q.turn = 2 then
      if groupLeaves x then q.goto 8
      else
        let r := if x.path ≠ 0 then x.path else x.check
        if r = 0 then { (q.command true) with turn := 3 } else { q with refuse := r }
    else if x.gfb then q.goto 4 else q
  | 6 =>
    if x.edge then q
    else if x.asg ≠ 0xFF ∧ liveSt x.asgSt then q.goto 3
    else if q.dir then q.goto 8
    else q.goto 7
  | 7 => if (x.vx < x.vSafe ∧ igLow x) ∨ q.t ≥ x.tDis then q.goto 8 else q
  | 8 => if x.gfb ∨ q.close then q else toForward x q.idle
  | _ => if x.clr then q.idle else q

/-- One run of a group's state machine: its state, then what that state holds (R242, R243). -/
def groupRun (x : GrpIn) (q : GSeq) : GSeq :=
  let q := { q with t := q.t + x.t, tc := q.tc + x.t, refuse := 0,
                    refused := if q.refused = some x.asg ∧ openSt x.asgSt then q.refused else none }
  if x.lost ∧ q.state ≠ 9 then toForward x q.idle else groupHold x (groupNext x q)

/-- A busbar contactor of the group shows closed: to the node given, or to any when none is given. -/
def groupEdge (d : Dev) (s g : Nat) (n : Option Nat) : Bool :=
  d.energy.edges.any (fun e => e.s == s && e.g == g && edgeShows d e &&
    (match n with | some n => e.node == n | none => true))

/-- The node line is joined to a measured section: the cable, or a converter (R233). -/
def lineJoined (d : Dev) (cell n : Nat) : Bool :=
  (decide (n < 64) && connShows d cell n) || d.energy.edges.any (fun e => e.node == n && edgeShows d e && gfbRd d cell e.s e.g)

/-- The node whose line joins a busbar to a measured section (R233). -/
def busJoin (d : Dev) (cell s g : Nat) : Option Nat :=
  (d.energy.edges.find? (fun e => e.s == s && e.g == g && edgeShows d e && lineJoined d cell e.node)).map (·.node)

/-- What the state machine of group (s, g) sees; `bled` once the bleed time of its isolated busbar has passed. -/
def groupIn (d : Dev) (cell s g asg : Nat) (status : Nat) (clr : Nat) (bled : Bool) : GrpIn :=
  let mo := oGrp s g 0
  let node := rd d cell (oGrp s g 0x17) 0
  let lim := limNode node asg
  let cq := fun k => toS 32 (cfgN d cell lim k)
  let vx := rdq d cell mo 1
  let gfb := status.testBit (4 + g) && !(stgLostRd d cell s)
  let anyEdge := groupEdge d s g none
  let vnode := match lim with | some n => rdq d cell (nodeEb n) 5 | none => 0
  let vbus := if gfb then vx else match busJoin d cell s g with
    | some n => rdq d cell (nodeEb n) 5
    | none => if bled then 0 else rdq d cell (oGrp s g 0x19) 2
  let st := fun n => if n = 0xFF then 0 else rd d cell (nodeSeqO n) 1
  let here := lim.getD 0xFF
  let batt := isBattStage (rd d cell 0x1007 6) s
  let tie := decide (64 ≤ here) && decide (here ≠ 0xFF)
  let tieGrid := tie && d.energy.edges.any (fun e => e.node == here && edgeShows d e && !(isBattStage (rd d cell 0x1007 6) e.s))
  { asg := asg, node := node, asgSt := st asg, nodeSt := st here, gfb := gfb, clr := clr.testBit g,
    lost := stgLostRd d cell s, short := shortRd d cell s g, edge := anyEdge, vx := vx, vbus := vbus,
    vnode := if asg = 0xFF then vnode else rdq d cell (nodeEb asg) 5,
    ig := absI (rdq d cell mo 2), imax := rdq d cell (oGrp s g 9) 3, ic := rdq d cell (oGrp s g 9) 1,
    vReq := if tie then rdq d cell 0x1007 5 else if here < 64 then rdq d cell (oCon here 0x20) 9 else 0,
    reverse := if tie then batt && tieGrid else decide (here < 64) && rd d cell (oCon here 0x20) 1 == 2 && st here == 4,
    check := closeCheck (cq 5) (cq 4) { c := some (rdq d cell (oGrp s g 0x18) 1), v := vx }
      { c := some (rdq d cell (oGrp s g 0x18) 2), v := vbus },
    path := if asg = 0xFF then 7 else pathRefusal d cell s g asg, iPre := cq 8, vSafe := cq 6,
    tDis := cfgN d cell lim 7 * 1000000, rampMs := (cfgN d cell lim 11 : Int), tOp := cfgN d cell lim 10 * 1000000, t := tNs d }

/-- The stage sequencer: runs each group and writes the group objects and the launch fields (R238). From its entry state a group is in IDLE
with its direction as it stands, which only an open contactor lets change (R152). The
state words after the first tell which isolated busbars have bled (R233). -/
def kStageSeq (d : Dev) (im : Image) (sl : SlotR) (st : List Int) : KOut :=
  let sb := bindAt im sl sl.p1
  let s := sb.sub
  let status := stageField (upBody d s) 0x40 0
  let clr := (inp d im sl (sl.p1 + 1)).toNat
  let gs := (List.range sl.p1).map (fun g =>
    let x := groupIn d sl.cell s g (inp d im sl g).toNat status clr (st.getD (g + 1) 0 == 1)
    let q0 : GSeq := if st = [] then { dir := oflag d (oGrp s g 0x0B) 0 } else d.energy.groups.getD (4 * s + g) {}
    (g, x, groupRun x q0))
  let zero := dieStop d sl.cell
  let run := gs.any (fun p => decide (1 ≤ p.2.2.state) && decide (p.2.2.state ≤ 8))
  let close := maskOf ((gs.filter (fun p => p.2.2.close)).map (·.1))
  let de := rd d sl.cell (oStg s 0x10) 0
  let mask := gs.foldl (fun m p => m ||| rd d sl.cell (oGrp s p.1 0) 7) 0
  let bled := gs.map (fun p => if st.getD (p.1 + 1) 0 = 1 ∧ !p.2.1.gfb ∧ busJoin d sl.cell s p.1 = none then (1 : Int) else 0)
  { st := 1 :: bled
    outs := gs.flatMap (fun p =>
        let q := p.2.2
        [(outKey im sl p.1, boolNat q.close), (okey (oGrp s p.1 0x19) 1, q.state), (okey (oGrp s p.1 0x19) 2, ofS 32 p.2.1.vbus),
          (okey (oGrp s p.1 0x0B) 0, boolNat q.dir), (okey (oGrp s p.1 0x0D) 0, ofS 32 (if zero then 0 else q.vset)),
          (okey (oGrp s p.1 0x12) 0, ofS 32 (if zero then 0 else q.ieb))]) ++ [(okey (oStg s 0x15) 0, boolNat run)]
    lreg := [(fkey 3 s 0x110 0, mask), (fkey 3 s 0x111 0, close + 256 * boolNat run + 512 * (de % 2))]
    gseq := gs.map (fun p => (4 * s + p.1, p.2.2)) }

/-! ### The node sequencer (R244 to R246, R248) -/

/-- What an edge's busbar contactor of a node sees in one run. -/
structure EdgeIn where
  k : Nat
  fb : Bool
  /-- it may close now (R240, R244); otherwise the reason when its group waits in MATCH -/
  want : Bool
  refuse : Nat
  /-- it must open now (R244, R248) -/
  drop : Bool
  /-- its stage is LOST -/
  lost : Bool
  batt : Bool
  asgHere : Bool
  deriving DecidableEq, Repr

structure NodeIn where
  n : Nat
  req : Nat
  mode : Nat
  es : List EdgeIn
  conFb : Bool
  disFb : Bool
  /-- PERMIT bit 16 and the reasons 3, 5, 6 of the connector -/
  permit16 : Bool
  why16 : Nat
  refuse : Nat
  ready : Bool
  stop : Bool
  iLow : Bool
  vLow : Bool
  clr : Bool
  tOp : Nat
  t : Nat
  deriving DecidableEq, Repr

def NSeq.goto (q : NSeq) (st : Nat) : NSeq := { q with state := st, t := 0 }

/-- Ns since the last command change of contactor bit `b`. -/
def tcOf (q : NSeq) (b : Nat) : Nat := (alGet q.tc b).getD 0

/-- Command a contactor unless its last command still waits for feedback within T_OP (R241). -/
def nodeCmd (x : NodeIn) (fb : Bool) (b : Nat) (v : Bool) (q : NSeq) : NSeq :=
  if q.cmd.testBit b = v then q
  else if q.cmd.testBit b ≠ fb ∧ tcOf q b < x.tOp then q
  else { q with cmd := putBit q.cmd b v, tc := alSet q.tc b 0 }

/-- Open the busbar contactors whose group allows it. -/
def dropEdges (x : NodeIn) (q : NSeq) : NSeq := x.es.foldl (fun q e => if e.drop then nodeCmd x e.fb e.k false q else q) q

/-- Close the busbar contactors that may; on a tie the battery edge waits for the grid edge (R244). -/
def joinEdges (x : NodeIn) (q : NSeq) : NSeq :=
  let gridClosed := x.es.any (fun e => e.fb && !e.batt)
  x.es.foldl (fun q e =>
    if e.want && (decide (x.n < 64) || !e.batt || gridClosed) then nodeCmd x e.fb e.k true q
    else if e.refuse ≠ 0 ∧ q.refuse = 0 then { q with refuse := e.refuse } else q) q

/-- Open the connector contactor below 1 % (R240); the command of one that shows open is withdrawn. -/
def dropConn (x : NodeIn) (q : NSeq) : NSeq := if x.iLow ∨ !x.conFb then nodeCmd x x.conFb 16 false q else q

/-- DISCH while the connector contactor shows open (R246). -/
def discharge (x : NodeIn) (q : NSeq) : NSeq :=
  if x.n < 64 then { q with cmd := putBit q.cmd 17 (!x.conFb) } else q

def anyFb (x : NodeIn) : Bool := x.es.any (·.fb)
/-- Every contactor shows open, and no command to close awaits its feedback (R241, R248). -/
def allOpen (x : NodeIn) (q : NSeq) : Bool := !(anyFb x) && !x.conFb && q.cmd % 2 ^ 17 == 0

/-- IDLE: DISCH 0, every contactor open, under R241. -/
def idleCmds (x : NodeIn) (q : NSeq) : NSeq :=
  nodeCmd x x.conFb 16 false (x.es.foldl (fun q e => nodeCmd x e.fb e.k false q) { q with cmd := clearBit q.cmd 17 })

/-- Enter STOP, which opens what may open at once (R244). -/
def stopNode (x : NodeIn) (q : NSeq) : NSeq := discharge x (dropConn x (dropEdges x (q.goto 5)))

/-- One run of a connector's state machine (R244). -/
def connRun (x : NodeIn) (q : NSeq) : NSeq :=
  match q.state with
  | 0 =>
    let q := idleCmds x q
    if 1 ≤ x.req ∧ x.req ≤ 3 ∧ !q.need0 ∧ q.cmd = 0 then (if x.refuse = 0 then q.goto 1 else { q with refuse := x.refuse }) else q
  | 1 =>
    if x.stop then stopNode x q
    else if x.conFb then q.goto 2
    else if x.refuse ≠ 0 then { q with refuse := x.refuse }
    else if x.permit16 then nodeCmd x x.conFb 16 true q
    else { q with refuse := x.why16 }
  | 2 =>
    if x.stop then stopNode x q
    else
      let q := joinEdges x (dropEdges x q)
      if anyFb x ∧ (x.req = 2 ∨ x.req = 3) then q.goto 3 else q
  | 3 =>
    if x.stop then stopNode x q
    else
      let q := joinEdges x (dropEdges x q)
      if x.req = 3 ∧ x.ready then q.goto 4 else q
  | 4 => if x.stop then stopNode x q else joinEdges x (dropEdges x q)
  | 5 =>
    let q := discharge x (dropConn x (dropEdges x q))
    if allOpen x q then discharge x (q.goto 6) else q
  | 6 =>
    let q := dropConn x (dropEdges x q)
    if x.vLow then { q.goto 0 with cmd := clearBit q.cmd 17, need0 := true } else discharge x q
  | _ =>
    if x.clr then { q.goto 0 with cmd := clearBit q.cmd 17, need0 := true } else discharge x (dropConn x (dropEdges x q))

/-- ALLOC.SOLVE assigns a grid group and a battery group to a tie (R219, R244). -/
def tieBuilt (x : NodeIn) : Bool := x.es.any (fun e => e.asgHere && e.batt) && x.es.any (fun e => e.asgHere && !e.batt)

/-- One run of a tie's state machine (R244). A refusal or a fault is not retried (R247): the assignment must first have been
missing at one run. -/
def tieRun (x : NodeIn) (q : NSeq) : NSeq :=
  let built := tieBuilt x
  match q.state with
  | 0 =>
    let q := idleCmds x q
    if built ∧ !q.need0 ∧ q.cmd = 0 then (if x.refuse = 0 then q.goto 2 else { q with refuse := x.refuse }) else q
  | 2 =>
    if !built ∨ x.stop then dropEdges x (q.goto 5)
    else
      let q := joinEdges x (dropEdges x q)
      if x.es.any (fun e => e.fb && e.batt) ∧ x.es.any (fun e => e.fb && !e.batt) then q.goto 4 else q
  | 4 => if !built ∨ x.stop then dropEdges x (q.goto 5) else joinEdges x (dropEdges x q)
  | 7 => if x.clr then { q.goto 0 with need0 := true } else dropEdges x q
  | _ => let q := dropEdges x q; if allOpen x q then q.goto 0 else q

/-- One run of a node: timers, the request or assignment it waits to see gone, faults that no longer hold, then its state
machine. -/
def nodeRun (x : NodeIn) (q : NSeq) : NSeq :=
  let fb := maskOf ((x.es.filter (·.fb)).map (·.k)) + 2 ^ 16 * boolNat x.conFb + 2 ^ 17 * boolNat x.disFb
  let q := { q with t := q.t + x.t, tc := q.tc.map (fun p => (p.1, p.2 + x.t)), refuse := 0,
                    need0 := q.need0 && (if x.n < 64 then decide (x.req ≠ 0) else tieBuilt x), fb := fb,
                    faults := q.faults &&& (q.cmd ^^^ fb), disFail := q.disFail && !x.conFb && q.cmd.testBit 17 }
  if x.n < 64 then connRun x q else tieRun x q

/-- What edge `k` of node `n` sees. -/
def edgeIn (d : Dev) (cell n k : Nat) (gs : List (Nat × Nat)) (sg : Nat × Nat) (fb : Bool) (permit : Nat) : EdgeIn :=
  let s := sg.1
  let g := sg.2
  let gst := rd d cell (oGrp s g 0x19) 1
  let asg := rd d cell (oGrp s g 0x16) 0
  let low := decide (100 * absI (rdq d cell (oGrp s g 0) 2) < rdq d cell (oGrp s g 9) 3)
  let path := pathRefusal d cell s g n
  let waits := gst == 3 && asg == n && !fb
  let ok := waits && path == 0 && permit.testBit k && gfbRd d cell s g
  let lost := stgLostRd d cell s
  let lostLong := decide ((stgS d s).lostFor ≥ (rd d cell 0x207 0 + cfgN d cell (some n) 10) * 1000000)
  { k := k, fb := fb, want := ok,
    refuse := if waits && !ok then (if path ≠ 0 then path else if !(permit.testBit k) then permitReason d cell n gs k else 8) else 0,
    drop := if lost then lostLong else low && (gst == 6 || gst == 0 || gst == 8 || gst == 9),
    lost := lost, batt := isBattStage (rd d cell 0x1007 6) s, asgHere := asg == n }

/-- A stage that feeds the node is LOST, and no group remains that feeds it (R248). -/
def lostAll (es : List EdgeIn) : Bool := es.any (fun e => e.lost && e.fb) && !(es.any (fun e => e.fb && !e.lost))

/-- The same of a tie, which needs a grid group and a battery group (R244). -/
def lostTie (es : List EdgeIn) : Bool := lostAll (es.filter (·.batt)) || lostAll (es.filter (fun e => !e.batt))

/-- A stop condition of a connector (R244, R248, R262). -/
def connStop (d : Dev) (cell n req : Nat) (es : List EdgeIn) (groups : List (Nat × Nat)) : Bool :=
  req == 4 || rd d cell (oCon n 0x20) 1 == 0 || rd d cell (oCon n 0x41) 3 != 0 || isoRd d n == 3 || !(dispUpRd d cell n) ||
    dieStop d cell ||
    groups.any (fun p => rd d cell (oGrp p.1 p.2 0x17) 0 == n && connRd d cell p.1 p.2 && shortRd d cell p.1 p.2) ||
    lostAll es

/-- The node of a node sequencer slot, by its CON.EB or TIE_EB input (R237). -/
def seqNode (im : Image) (sl : SlotR) : Nat := nodeOfObj (bindObj (bindAt im sl sl.p1))

/-- One run of a node sequencer (R237, R238, R244). -/
def kNodeSeq (d : Dev) (im : Image) (sl : SlotR) (st : List Int) : KOut :=
  let cell := sl.cell
  let rb := bindAt im sl (sl.p1 + 1)
  let con := (locate (bindObj rb)).map (·.blk) == some .con
  let e := if con then sl.p1 - 1 else sl.p1
  let n := seqNode im sl
  let gsn := nodeGroups im n
  let permit := rd d cell (nodeEb n) 4
  let fbK := fun j => let b := bindAt im sl j; let v := inNum d sl b
    if (locate (bindObj b)).map (·.blk) == some .lch then v.testBit 0 else v != 0
  let es := (List.range e).map (fun k => edgeIn d cell n k gsn (gsn.getD k (0, 0)) (fbK k) permit)
  let ff := if con then inNum d sl (bindAt im sl e) else 0
  let req := if con then (inp d im sl (sl.p1 + 1)).toNat else 0
  let x : NodeIn := {
    n := n, req := req, mode := if con then rd d cell (oCon n 0x20) 1 else 0, es := es,
    conFb := con && conFbOf d cell n ff,
    disFb := con && (match connDisp d n with | some (_, i) => ff.testBit (8 + i) | none => false),
    permit16 := permit.testBit 16, why16 := permitReason d cell n gsn 16, refuse := nodeRefusal d cell n,
    ready := con && rd d cell (oCon n 0x36) 0 == 1,
    stop := if con then connStop d cell n req es gsn else dieStop d cell || lostTie es,
    iLow := decide (100 * iConnRd d n < rdq d cell (oCon n 0x21) 0),
    vLow := con && dispUpRd d cell n && decide (vConnRd d n < rdq d cell (nodeCfg n) 6),
    clr := if con then rd d cell (oCon n 0x35) 0 == 1 else (rd d cell 0x101F 0).testBit (n - 64),
    tOp := rd d cell (nodeCfg n) 10 * 1000000, t := tNs d }
  let q0 : NSeq := if st = [] then {} else d.energy.nodes.getD n {}
  let q := nodeRun x q0
  let so := nodeSeqO n
  let reason := if q.refuse ≠ 0 then q.refuse else rd d cell so 2
  let o : KOut := {
    st := [1], nseq := [(n, q)],
    outs := [(okey so 1, q.state), (okey so 2, reason), (okey so 3, satU 32 (q.t / 1000000)), (okey so 4, q.fb)] }
  let o := (List.range e).foldl (fun o k => outTo im sl k (boolNat (q.cmd.testBit k)) o) o
  if con then outTo im sl e (boolNat (q.cmd.testBit 16) + 2 * boolNat (q.cmd.testBit 17)) o else o

/-! ### Rows that act on the state machines (R233, R241, R242, R244, R246, R250) -/

/-- The current through a group is below 1 % (values in force). -/
def modGSeq (s g : Nat) (f : GSeq → GSeq) (d : Dev) : Dev :=
  { d with energy := { d.energy with groups := modAt d.energy.groups (4 * s + g) f } }
def modNSeq (n : Nat) (f : NSeq → NSeq) (d : Dev) : Dev :=
  { d with energy := { d.energy with nodes := modAt d.energy.nodes n f } }

def gSeq (d : Dev) (s g : Nat) : GSeq := d.energy.groups.getD (4 * s + g) {}
def nSeq (d : Dev) (n : Nat) : NSeq := d.energy.nodes.getD n {}

/-- CLOSE_REFUSED (R242 to R244): the refusal that holds has lasted T_MATCH: of a group in PREP or in its turn, of a node in
CONNECT, JOIN or RAISE. `ctc` names the contactor as DATA does. -/
def closeRefused (n ctc : Nat) (d : Dev) : Dev :=
  if !(running d) then d
  else if 0x80 ≤ ctc ∧ ctc < 0x100 then
    let s := (ctc - 0x80) / 4
    let g := (ctc - 0x80) % 4
    let q := gSeq d s g
    if q.refuse = 0 then d
    else if q.state = 1 then
      raise 0x3201 n (ctc + 256 * q.refuse)
        (modGSeq s g (fun q => { q.idle with refused := some (on d (oGrp s g 0x16) 0), refuse := 0 }) d)
    else if q.state = 5 then
      raise 0x3201 n (ctc + 256 * q.refuse) (modNSeq n (fun x => { x.goto 5 with need0 := true }) d)
    else d
  else
    let q := nSeq d n
    if n < 68 ∧ q.refuse ≠ 0 ∧ 1 ≤ q.state ∧ q.state ≤ 3 then
      raise 0x3201 n (ctc + 256 * q.refuse) (put (nodeSeqO n) 2 q.refuse (modNSeq n (fun x => { x.goto 5 with need0 := true }) d))
    else d

/-- CTC_FAULT and GROUP_CTC_FAULT (R241): the feedback differs from the command T_OP after it; each contactor of a node is in
fault by itself, also where another has brought the node into FAULT. -/
def ctcFault (n ctc : Nat) (d : Dev) : Dev :=
  if !(running d) then d
  else if 0x80 ≤ ctc ∧ ctc < 0x100 then
    let s := (ctc - 0x80) / 4
    let g := (ctc - 0x80) % 4
    let q := gSeq d s g
    let fb := gfbOf d s g
    if q.close = fb ∨ q.state = 9 then d
    else raise 0x2C06 s (ctc + 256 * boolNat fb)
      (modGSeq s g (fun q => { (q.command false).goto 9 with vset := 0, ieb := 0 }) d)
  else
    let q := nSeq d n
    if n < 68 ∧ ctc ≤ 16 ∧ !(q.faults.testBit ctc) ∧ q.cmd.testBit ctc ≠ q.fb.testBit ctc then
      raise 0x3401 n (ctc + 256 * boolNat (q.fb.testBit ctc))
        (modNSeq n (fun x => { (if x.state = 7 then x else x.goto 7) with
          cmd := clearBit x.cmd ctc, faults := setBit x.faults ctc }) d)
    else d

/-- DISCH_FAIL (R246): T_DIS after the connector contactor showed open, in STOP, DISCHARGE or FAULT, V_CONN is not below V_SAFE.
It is raised once while the discharge lasts. -/
def dischFail (c : Nat) (d : Dev) : Dev :=
  let q := nSeq d c
  if running d && decide (c < 64) && (q.state == 5 || q.state == 6 || q.state == 7) && !q.disFail && !(q.fb.testBit 16) &&
      q.cmd.testBit 17 &&
      decide (vConnQ d c ≥ oq d (nodeCfg c) 6) then
    raise 0x3402 c (match connDisp d c with | some (di, i) => dispField d di 0x201 i | none => 0)
      (modNSeq c (fun x => { (if x.state = 7 then x else x.goto 7) with disFail := true }) d)
  else d

/-- The slots of an image that keep the voltages of a node line and of a stage's busbars. -/
def ebIndex (im : Image) (n : Nat) : Option Nat :=
  (List.range im.slots.length).find? (fun i => match im.slots[i]? with
    | some sl => sl.kernel == 0x30 && bindObj (bindAt im sl sl.ins) == nodeEb n
    | none => false)

def seqIndex (im : Image) (s : Nat) : Option Nat :=
  (List.range im.slots.length).find? (fun i => match im.slots[i]? with
    | some sl => sl.kernel == 0x31 && bindObj (bindAt im sl sl.ins) == oGrp s 0 0x1A
    | none => false)

/-- A committed state word of a slot is changed, and the value the slot has output in this micro-frame, which is 0 from now on. -/
def zeroVolt (slot : Option Nat) (w : List Int → List Int) (num sub : Nat) (d : Dev) : Dev :=
  let outs := d.sched.outs.map (fun o => if o.key = okey num sub then { o with val := .num 0 } else o)
  let d := put num sub 0 { d with sched := { d.sched with outs := outs } }
  match slot with
  | some i => (match alGet d.sched.kst i with
    | some st => { d with sched := { d.sched with kst := alSet d.sched.kst i (w st) } }
    | none => d)
  | none => d

/-- BLEED_TIME_EXPIRY (R233): an isolated busbar or node line is taken as 0 V. -/
def bleedNode (n : Nat) (d : Dev) : Dev :=
  if running d && decide (n < 68) && !(lineJoined d 64 n) then
    zeroVolt ((img? d).bind (fun im => ebIndex im n)) (fun _ => [2]) (nodeEb n) 5 d
  else d

def bleedBus (s g : Nat) (d : Dev) : Dev :=
  if running d && decide (s < 32) && decide (g < 4) && !(gfbOf d s g) && (busJoin d 64 s g).isNone then
    zeroVolt ((img? d).bind (fun im => seqIndex im s)) (fun st => setAt st (g + 1) 1) (oGrp s g 0x19) 2 d
  else d

/-- CON.SEQ_CLEAR and ALLOC.TIE_CLEAR are refused with STATE unless every contactor shows open and V_CONN < V_SAFE. -/
def nodeClearOk (d : Dev) (n : Nat) : Bool :=
  decide ((nSeq d n).fb % 2 ^ 17 = 0) && (decide (64 ≤ n) || decide (vConnQ d n < oq d (nodeCfg n) 6))

/-- STG.SEQ_CLEAR is refused with STATE while GFB or GFAULT of a named group is set (R249). -/
def stgSeqClearOk (d : Dev) (s m : Nat) : Bool :=
  let w := stageField (upBody d s) 0x40 0
  (List.range 4).all (fun g => !(m.testBit g) || (!(w.testBit g) && !(w.testBit (4 + g))))

/-- The effects of the clears at their boundary: the state machine leaves FAULT at once (R242, R244). -/
def nodeClear (n : Nat) (d : Dev) : Dev :=
  if (nSeq d n).state = 7 then
    put (nodeSeqO n) 1 0 (modNSeq n (fun x => { x.goto 0 with cmd := clearBit x.cmd 17, need0 := true }) d) else d

def stgSeqClear (s m : Nat) (d : Dev) : Dev :=
  forEach (bitsSet 4 m) (fun g d => if (gSeq d s g).state = 9 then put (oGrp s g 0x19) 1 0 (modGSeq s g GSeq.idle d) else d) d

/-- The CLOSE and DISCH bits of a DISP_DOWN COMMAND word (R238): CLOSE in bits 7:0, DISCH in bits 15:8. -/
def dispCommand (d : Dev) (di : Nat) : Nat :=
  let e := dispE d di
  (List.range e.count).foldl (fun w i =>
    let c := on d (oCon (e.first + i) 0x33) 0
    w + (c % 2) * 2 ^ i + (c / 2 % 2) * 2 ^ (8 + i)) 0

end Sys2Proof.Machine
end

