-- ==== Sys2Proof/Machine/Metering.lean ====
section
/-! DEFINITION. Metering arithmetic (spec/14): intake samples, connector sample blocks, residues and units, pulse
outputs, supply events. -/

namespace Sys2Proof.Machine

/-! ### Channels and flags -/

/-- The legal core meters (BIL.STATUS READY). -/
def meters (d : Dev) : Bool := running d && (on d 0x2200 0).testBit 10

def modLegal (f : LegalS → LegalS) (d : Dev) : Dev := { d with legal := f d.legal }

def chanS (d : Dev) (m : Nat) : ChanS := d.legal.chans.getD m {}

def modCh (m : Nat) (f : ChanS → ChanS) : Dev → Dev := modLegal (fun l => { l with chans := modAt l.chans m f })

def intakeS (d : Dev) (k : Nat) : IntakeS := d.legal.intakes.getD k {}

def modIntake (k : Nat) (f : IntakeS → IntakeS) : Dev → Dev := modLegal (fun l => { l with intakes := modAt l.intakes k f })

/-- Run an update on an interval while it is open. -/
def onOpen (f : IntS → IntS) (x : IntS) : IntS := if x.isOpen then f x else x

/-- Update every open interval of a channel, and the open session records of a connector (R321). -/
def eachInt (m : Nat) (f : IntS → IntS) (g : SRec → SRec) : Dev → Dev :=
  modLegal (fun l => { l with
    p15 := modAt l.p15 m (onOpen f)
    p5 := modAt l.p5 m (onOpen f)
    dem := if 64 ≤ m then modAt l.dem (m - 64) (onOpen f) else l.dem
    recs := l.recs.map (fun r => if r.conn = m ∧ !r.signed then g r else r) })

/-- MET.AUX[m].01 shows the word of the open 15-min interval (R322). -/
def auxFlags (m : Nat) (d : Dev) : Dev :=
  let w := (d.legal.p15.getD m {}).iflags
  if on d (0x2180 + m) 1 = w then d else put (0x2180 + m) 1 w d

/-- A condition of the flags word sets its bit in every open word of the channel (R321). -/
def intFlag (m bit : Nat) (d : Dev) : Dev :=
  modCh m (fun c => { c with tf := setBit c.tf bit })
    (auxFlags m (eachInt m (fun x => { x with iflags := setBit x.iflags bit }) (fun r => { r with iflags := setBit r.iflags bit }) d))

/-- Counted samples of a sign; both signs give DIR_CHANGE (R321). -/
def intSign (m : Nat) (pos neg : Bool) (d : Dev) : Dev :=
  if !pos && !neg then d
  else auxFlags m (eachInt m
    (fun x => { x with pos := x.pos || pos, neg := x.neg || neg,
                       iflags := putBit x.iflags 0 (x.iflags.testBit 0 || ((x.pos || pos) && (x.neg || neg))) })
    (fun r => { r with pos := r.pos || pos, neg := r.neg || neg,
                       iflags := putBit r.iflags 0 (r.iflags.testBit 0 || ((r.pos || pos) && (r.neg || neg))) }) d)

/-! ### Residues and units (R316) -/

/-- N: samples of the moving sum (R315). -/
def intakeN (d : Dev) (k : Nat) : Nat := if on d (0x2001 + k) 1 = 60 then 267 else 320

/-- Dm of a channel (R316). -/
def dmOf (d : Dev) (m : Nat) : Nat := if m < 64 then 87890625000000 else 878906250 * intakeN d (m - 64)

/-- Sort one sample quantity. -/
def sortQ (dm : Nat) (q : Int) (c : ChanS) : ChanS :=
  if 0 < q then
    let t := c.rImp + q.toNat
    { c with uImp := c.uImp + t / dm, rImp := t % dm, msImp := c.msImp + t / dm, majImp := c.majImp + t / dm }
  else if q < 0 then
    let t := c.rExp + q.natAbs
    { c with uExp := c.uExp + t / dm, rExp := t % dm, msExp := c.msExp + t / dm, majExp := c.majExp + t / dm }
  else c

/-- Sort the samples of a channel in order, with the signs they show. -/
def sortAll (m : Nat) (qs : List Int) (d : Dev) : Dev :=
  let dm := dmOf d m
  let d := modCh m (fun c => qs.foldl (fun c q => sortQ dm q c) c) d
  intSign m (qs.any (fun q => decide (0 < q))) (qs.any (fun q => decide (q < 0))) d

/-! ### From ADC sample to primary value (R313) -/

/-- Nearest integer to a quotient, ties away from zero. -/
def roundAway (x d : Int) : Int := if 0 ≤ x then (2 * x + d) / (2 * d) else -((2 * (-x) + d) / (2 * d))

/-- The weights h0 to h3 in Q2.30 for mu = m/1024. -/
def lagrange (m : Int) : List Int :=
  let w := fun x => roundAway x 6
  [w (-(m * (m - 1024) * (m - 2048))), roundAway ((m + 1024) * (m - 1024) * (m - 2048)) 2,
    roundAway (-((m + 1024) * m * (m - 2048))) 2, w ((m + 1024) * m * (m - 1024))]

/-- x(n) of a channel from its history (newest first), in mV or mA. -/
def adcConvert (fs gain delay : Int) (b : List Int) : Int :=
  let dl := (5120 + delay).toNat
  let k := dl / 1024
  let h := lagrange ((dl % 1024 : Nat) : Int)
  let y := sumI ((List.range 4).map (fun j => h.getD j 0 * b.getD (k - 1 + j) 0))
  roundAway (y * gain * fs) (2 ^ 83)

def acCal (ch : Nat) : Nat := 0x2010 + ch

/-- A channel is fitted (R314). -/
def fitted (d : Dev) (ch : Nat) : Bool := on d (acCal ch) 1 != 0

/-- The intake is metered (R314). -/
def metered (d : Dev) (k : Nat) : Bool := [0, 1, 2, 4, 5, 6].all (fun j => fitted d (8 * k + j))

/-- METERED bits of MET.STATUS. -/
def publishMetered (d : Dev) : Dev := wrStatus 0x2000 0 11 (metered d 1) (wrStatus 0x2000 0 10 (metered d 0) d)

/-- The intake's RMS of a channel from its last N values in mV or mA, as Q16.16 V or A. -/
def rmsOf (n : Nat) (l : List Int) : Nat :=
  isqrt ((l.map (fun x => x.natAbs * x.natAbs)).foldl (· + ·) 0 * 2 ^ 32 / (n * 1000000))

/-- A threshold: a percentage of V_NOM, as Q16.16 V. -/
def pctV (d : Dev) (k pct : Nat) : Nat := on d (0x2001 + k) 2 * pct / 100

/-- Position of a positive-going crossing between two samples, in 1/65536 sample after the older one. -/
def crossing (older newer : Int) : Option Nat :=
  if older < 0 ∧ 0 ≤ newer then some (((-older) * 65536) / (newer - older)).toNat else none

/-- V1 to V3 of the intake and their last values. -/
def phaseLost (d : Dev) (k : Nat) : Bool := decide (bitsOf (on d 0x2000 0) (3 * k + 2) (3 * k) ≠ 0)

/-- One sample step of the phase-sequence check (R325); `x` holds the histories, newest first. -/
def seqStep (live : Bool) (q : IntakeS) (x : List (List Int)) : IntakeS :=
  if !live then { q with t1 := none, t2 := none, t3 := none, rev := 0, ok := 0, cyc := 0 }
  else
    let cr := fun j => crossing ((x.getD j []).getD 1 0) ((x.getD j []).getD 0 0)
    let at' := fun j => match q.t1, cr j with | some t, some f => some (t + f) | _, _ => none
    let q := { q with t2 := q.t2.or (at' 1), t3 := q.t3.or (at' 2) }
    match cr 0 with
    | none => { q with t1 := q.t1.map (· + 65536) }
    | some f =>
      let rest := 65536 - f
      match q.t1 with
      | none => { q with t1 := some rest, t2 := none, t3 := none }
      | some t =>
        let c := t + f
        let verdict : Nat := match q.t2, q.t3 with
          | some a, some b =>
            let l2 := a % c
            let l3 := (b + c - a % c) % c
            if c ≤ 6 * l2 ∧ 2 * l2 ≤ c ∧ c ≤ 6 * l3 ∧ 2 * l3 ≤ c then 1
            else if (c ≤ 2 * l2 ∧ 6 * l2 ≤ 5 * c) ∨ (c ≤ 2 * l3 ∧ 6 * l3 ≤ 5 * c) then 2 else 0
          | _, _ => 0
        { q with t1 := some rest, t2 := none, t3 := none, cyc := c,
                 ok := if verdict = 1 then q.ok + 1 else 0, rev := if verdict = 2 then q.rev + 1 else 0 }

/-- The voltage that shows a missing neutral is at least `scale` hundredths of the level of NEUTRAL_PCT (R327). -/
def neutralAt (d : Dev) (k : Nat) (q : IntakeS) (scale : Nat) : Bool :=
  let pct := on d (0x2001 + k) 4
  let lvl := on d (0x2001 + k) 2 * pct * scale / 10000
  let n := intakeN d k
  if fitted d (8 * k + 3) then decide (q.rms.getD 3 0 ≥ lvl ∧ 0 < lvl)
  else
    let sum := (List.zipWith (· + ·) (List.zipWith (· + ·) (q.x.getD 0 []) (q.x.getD 1 [])) (q.x.getD 2 [])).map (fun s => s.tdiv 3)
    decide (rmsOf n sum ≥ lvl ∧ 0 < lvl)

/-- The neutral is missing (R327): where VNE is not fitted, the neutral current must be low besides. -/
def neutralMissing (d : Dev) (k : Nat) (q : IntakeS) : Bool :=
  neutralAt d k q 100 && (fitted d (8 * k + 3) || !(fitted d (8 * k + 7)) || decide (q.rms.getD 7 0 * 200 < on d (0x2001 + k) 3))

/-- Update every 16 samples: gates, RMS values, lost phases, the neutral (R319, R326, R327). -/
def intakeUpdate (k : Nat) (d : Dev) : Dev :=
  let n := intakeN d k
  let q := intakeS d k
  let ir := on d (0x2001 + k) 3
  let sq := fun j => ((q.x.getD j []).map (fun x => x.natAbs * x.natAbs)).foldl (· + ·) 0
  let q := { q with
    cnt := 0
    gate := [4, 5, 6].map (fun j => decide (sq j * 2 ^ 32 ≥ n * ir * ir))
    rms := (List.range 8).map (fun j => if fitted d (8 * k + j) then rmsOf n (q.x.getD j []) else 0) }
  let v50 := pctV d k 50
  let v60 := pctV d k 60
  let q := { q with
    low := (List.range 3).map (fun j => if fitted d (8 * k + j) && decide (q.rms.getD j 0 < v50) then q.low.getD j 0 + 1 else 0)
    high := (List.range 3).map (fun j => if q.rms.getD j 0 ≥ v60 then q.high.getD j 0 + 1 else 0) }
  let q := { q with
    neut := if neutralMissing d k q then q.neut + 16 else 0
    neutOk := if neutralAt d k q 80 then 0 else q.neutOk + 16 }
  let d := modIntake k (fun _ => q) d
  forEach [0, 1, 2] (fun j d =>
    let bit := 3 * k + j
    if q.low.getD j 0 ≥ 10 ∧ !((on d 0x2000 0).testBit bit) then
      raise 0x4A03 k (j + 1) (intFlag (64 + k) 6 (setStatus 0x2000 0 bit d))
    else if q.high.getD j 0 ≥ 10 ∧ (on d 0x2000 0).testBit bit then
      raiseEnd 0x4A03 k (j + 1) (clrStatus 0x2000 0 bit d)
    else if (on d 0x2000 0).testBit bit then intFlag (64 + k) 6 d
    else d) d

/-- One sample of an intake's eight channels. -/
def intakeSample (k : Nat) (a : List Int) (d : Dev) : Dev :=
  let full := (List.range 8).filter (fun j => let v := a.getD j 0; decide (v ≥ 2 ^ 23 - 1) || decide (v ≤ -(2 ^ 23)))
  let d := forEach full (fun j d => raise 0x4A04 (8 * k + j) 0 (intFlag (64 + k) 3 (setStatus 0x2000 0 12 d))) d
  let q := intakeS d k
  let n := intakeN d k
  let cal := fun j => acCal (8 * k + j)
  let b := (List.range 8).map (fun j => ((a.getD j 0 - oi 32 d (cal j) 3) :: q.b.getD j []).take 12)
  let x := (List.range 8).map (fun j =>
    ((if fitted d (8 * k + j) then adcConvert (on d (cal j) 1 : Nat) (oi 32 d (cal j) 2) (oi 16 d (cal j) 4) (b.getD j []) else 0)
      :: q.x.getD j []).take n)
  let live := [0, 1, 2].all (fun j => decide (q.rms.getD j 0 ≥ pctV d k 50)) && !(phaseLost d k)
  let q := seqStep live { q with b := b, x := x } x
  let v := fun j => (x.getD j []).getD 0 0
  let p := sumI ([0, 1, 2].map (fun j => if q.gate.getD j false then v j * v (4 + j) else 0))
  let met := metered d k
  let s := q.s + p - q.p.getD (n - 1) 0
  let q := if met then { q with p := (p :: q.p).take n, s := s } else { q with p := [], s := 0 }
  let d := modIntake k (fun _ => { q with cnt := q.cnt + 1 }) d
  let d := if met then sortAll (64 + k) [s] d else d
  if q.cnt + 1 ≥ 16 then intakeUpdate k d else d

/-- ADC_SAMPLE (R312 to R319): one sample of the sixteen channels. -/
def adcSample (a : List Int) (d : Dev) : Dev :=
  if meters d then intakeSample 1 (a.drop 8) (intakeSample 0 (a.take 8) d) else d

/-- A change of N empties the window sum (R315, R329). -/
def emptyWindow (k : Nat) : Dev → Dev := modIntake k (fun q => { q with p := [], s := 0, x := q.x.map (fun l => l.take 267) })

/-- MET_PHASE_SEQ (R325): ten reversed cycles set the condition, ten correct ones end it. -/
def metPhaseSeq (k : Nat) (d : Dev) : Dev :=
  if !(meters d) || decide (2 ≤ k) then d
  else
    let on' := (on d 0x2000 0).testBit (6 + k)
    if (intakeS d k).rev ≥ 10 ∧ !on' then raise 0x4A01 k 0 (intFlag (64 + k) 4 (setStatus 0x2000 0 (6 + k) d))
    else if (intakeS d k).ok ≥ 10 ∧ on' then raiseEnd 0x4A01 k 0 (clrStatus 0x2000 0 (6 + k) d)
    else d

/-- MET_NEUTRAL (R327): one second of the condition sets it, one second below 80 % of the level ends it. -/
def metNeutral (k : Nat) (d : Dev) : Dev :=
  if !(meters d) || decide (2 ≤ k) then d
  else
    let on' := (on d 0x2000 0).testBit (8 + k)
    if (intakeS d k).neut ≥ 16000 ∧ !on' then raise 0x4A02 k 0 (intFlag (64 + k) 5 (setStatus 0x2000 0 (8 + k) d))
    else if (intakeS d k).neutOk ≥ 16000 ∧ on' then raiseEnd 0x4A02 k 0 (clrStatus 0x2000 0 (8 + k) d)
    else d

/-- MET.AC_VALUES, ALLOC.INTAKE.01 and the conditions that still stand, at a minor-frame boundary (R323, R326). -/
def metMinor (d : Dev) : Dev :=
  if !(meters d) then d
  else forEach [0, 1] (fun k d =>
    let q := intakeS d k
    let n := (intakeN d k : Int)
    let kw := q.s.tdiv (n * 1000000000)
    let set := putIf
    let d := forEach (List.range 8) (fun j d => set (0x2004 + k) (j + 1) (satU 31 (q.rms.getD j 0)) d) d
    let f := if q.cyc = 0 then 0 else 16000 * 65536 * 65536 / q.cyc
    let d := set (0x2004 + k) 10 (ofS 32 kw) (set (0x2004 + k) 9 f d)
    let d := set (0x2180 + 64 + k) 4 (ofS 32 kw) d
    let d := set (0x100E + k) 1 (ofS 32 kw) d
    let d := if (on d 0x2000 0).testBit (6 + k) then intFlag (64 + k) 4 d else d
    if (on d 0x2000 0).testBit (8 + k) then intFlag (64 + k) 5 d else d) d

/-- ALLOC.INTAKE.03 to .05 (R323, R344). -/
def publishIntake (d : Dev) : Dev :=
  forEach [0, 1] (fun k d =>
    let x := d.legal.dem.getD k {}
    let o := 0x100E + k
    let left := match d.legal.cl with | some cl => (max 0 (x.endCl - cl)).toNat * 1000 | none => 0
    put o 5 (satU 32 (x.len * 1000)) (put o 4 (satU 32 left)
      (put o 3 (ofS 64 ((x.imp + (chanS d (64 + k)).uImp : Nat) / 65536)) d))) d

/-- ALLOC.INTAKE.02 to .05 at a major-frame boundary (R209, R323). -/
def metMajor (d : Dev) : Dev :=
  if !(meters d) then d
  else
    let d := forEach [0, 1] (fun k d =>
      let c := chanS d (64 + k)
      put (0x100E + k) 2 (ofS 32 ((((c.majImp : Int) - c.majExp) * 36).tdiv 65536)) d) d
    publishIntake (modLegal (fun l => { l with chans := l.chans.map (fun c => { c with majImp := 0, majExp := 0 }) }) d)

/-! ### Pulse outputs (R324) -/

/-- MET.PULSE[x] just put into force: a new source empties the accumulator, CONST 0 disables the output. A new direction is a new
source too: DESIGN CHOICE (log entry 73). -/
def pulseConfig (x : Nat) (d : Dev) : Dev :=
  let src := on d (0x2008 + x) 1
  let dir := on d (0x2008 + x) 2
  let d := modLegal (fun l => { l with pulses := modAt l.pulses x (fun p =>
    if p.src = src ∧ p.dir = dir then p else { p with a := 0, src := src, dir := dir }) }) d
  if on d (0x2008 + x) 3 = 0 then
    putIf (0x2008 + x) 5 0
      (emit (.pulse x false) (modLegal (fun l => { l with pulses := modAt l.pulses x (fun p => { p with a := 0, busy := false, left := 0, back := false }) }) d))
  else d

/-- One millisecond of a pulse output. -/
def pulseStep (x : Nat) (d : Dev) : Dev :=
  let o := 0x2008 + x
  let const := on d o 3
  let p := d.legal.pulses.getD x {}
  let c := chanS d (on d o 1)
  if const = 0 then d
  else
    let a := p.a + (if on d o 2 = 0 then c.msImp else c.msExp)
    let w := on d o 4
    let left := p.left - 1
    let p := { p with a := a, left := left }
    let r : PulseS × List Bool :=
      if p.busy && decide (left = 0) then ({ p with busy := false, left := w }, [false])
      else if !p.busy && decide (left = 0) && decide (a ≥ const) && d.pair.role != .standby then
        ({ p with a := a - const, busy := true, left := w }, [true])
      else (p, [])
    let high := decide (a ≥ 1000 * const)
    let d := modLegal (fun l => { l with pulses := setAt l.pulses x { r.1 with back := high } }) d
    let d := forEach r.2 (fun v => emit (.pulse x v)) d
    let d := if on d o 5 = satU 32 (r.1.a / const) then d else put o 5 (satU 32 (r.1.a / const)) d
    if high && !p.back then raise 0x4A05 x 0 (setStatus 0x2000 0 13 d) else d

/-- PULSE_MS: every millisecond. A standby unit holds its outputs inactive. -/
def pulseMs (d : Dev) : Dev :=
  if !(meters d) then d
  else
    let d := forEach [0, 1, 2, 3] pulseStep d
    modLegal (fun l => { l with chans := l.chans.map (fun c => { c with msImp := 0, msExp := 0 }) }) d

/-! ### Connector sample blocks (R131, R317 to R319) -/

def metroS (d : Dev) (c : Nat) : MetroS := d.lanes.metro.getD c {}

def modMetro (c : Nat) (f : MetroS → MetroS) (d : Dev) : Dev :=
  { d with lanes := { d.lanes with metro := modAt d.lanes.metro c f } }

/-- VOLT and CURR of the sixteen samples. -/
def blockSamples (b : Bytes) : List (Int × Int) :=
  (List.range 16).map (fun j => (toS 32 (fieldLe b (8 * j) 4), toS 32 (fieldLe b (8 * j + 4) 4)))

/-- The quantities of a block, gated (R319). -/
def blockQ (rated : Nat) (b : Bytes) : List Int :=
  let xs := blockSamples b
  let open' := decide ((xs.map (fun x => x.2.natAbs)).foldl (· + ·) 0 * 65536 ≥ 16 * 50 * rated)
  xs.map (fun x => if open' then x.1 * x.2 else 0)

/-- Accept a block: number, count, power, energy; a connector not commissioned adds nothing (R314, R317). -/
def metroTake (c num : Nat) (b : Bytes) (d : Dev) : Dev :=
  let d := modMetro c (fun s => { s with lastAcc := some num, requested := s.requested.filter (fun n => decide (num < n)),
                                         wait := s.wait.filter (fun p => decide (num < p.1)), missing := s.missing.filter (fun p => decide (num < p.2)) }) d
  let d := incr 32 (0x2180 + c) 5 d
  let rated := on d (0x2040 + c) 1
  if rated = 0 then d
  else
    let qs := blockQ rated b
    let d := puti 32 (0x2180 + c) 4 ((sumI qs).tdiv (16 * 10 ^ 14)) d
    sortAll c qs d

/-- The number that is due after `l`: the runs declared missing are passed over. -/
def passMissing (runs : List (Nat × Nat)) : Nat → Nat → Nat
  | 0, l => l + 1
  | fuel + 1, l =>
    match runs.find? (fun p => decide (p.1 ≤ l + 1) && decide (l + 1 ≤ p.2)) with
    | some p => passMissing runs fuel p.2
    | none => l + 1

/-- The number that a connector's next block has in order, after the last accepted one. -/
def metroNext (s : MetroS) (l : Nat) : Nat := passMissing s.missing s.missing.length l

/-- Accept what now stands in order above the last accepted number (R317). -/
def metroDrain : Nat → Nat → Dev → Dev
  | 0, _, d => d
  | fuel + 1, c, d =>
    let s := metroS d c
    match s.lastAcc with
    | none => d
    | some l =>
      match alGet s.wait (metroNext s l) with
      | some b => metroDrain fuel c (metroTake c (metroNext s l) b d)
      | none => d

/-- Declare the numbers lo to hi missing: GAP, the count, the event, the estimate (R318). -/
def metroMissing (c lo hi : Nat) (d : Dev) : Dev :=
  if hi < lo then d
  else
    let n := hi + 1 - lo
    let d := modMetro c (fun s => { s with missing := s.missing ++ [(lo, hi)],
                                           requested := s.requested.filter (fun k => decide (k < lo) || decide (hi < k)) }) d
    let d := put 0x20A (c + 1) (satU 32 (on d 0x20A (c + 1) + n)) d
    let d := raise 0x0C14 c hi (intFlag c 1 d)
    -- each block's estimate in whole register units
    let e := if dispUp d c then vConnQ d c * iConnS d c else 0
    let u := n * (e.natAbs / (65536 * 3600000))
    let sub := if 0 ≤ e then 2 else 3
    put (0x2180 + c) sub (satU 96 (on d (0x2180 + c) sub + u)) d

/-- Ask for the numbers lo to hi again (R131). -/
def metroRequest (c lo hi : Nat) (d : Dev) : Dev :=
  let ns := (List.range (hi + 1 - lo)).map (fun i => lo + i)
  modMetro c (fun s => { s with requested := s.requested ++ ns, resend := s.resend ++ ns }) d

/-- The highest number already known of a connector: accepted, waiting, requested or missing. -/
def metroTop (s : MetroS) : Nat :=
  (s.wait.map (·.1) ++ s.requested ++ s.missing.map (·.2)).foldl max (s.lastAcc.getD 0)

/-- A block ahead of its turn: it waits, and what it reveals is requested or declared missing (R131, R317). -/
def metroAhead (c num : Nat) (b : Bytes) (d : Dev) : Dev :=
  let s := metroS d c
  if s.missing.any (fun p => decide (p.1 ≤ num) && decide (num ≤ p.2)) then d
  else
    let lo := metroTop s + 1
    let reqLo := max lo (num - 16)
    let d := modMetro c (fun s => { s with wait := alSet s.wait num b, requested := s.requested.filter (· != num) }) d
    let d := if lo < num then
        let d := if lo < reqLo then metroMissing c lo (reqLo - 1) d else d
        metroRequest c reqLo (num - 1) d
      else d
    let d := metroDrain 64 c d
    let s := metroS d c
    if s.wait.length ≥ 8 then
      match s.lastAcc, s.wait.head? with
      | some l, some w =>
        let lo := metroNext s l
        let d := forEach (List.range (w.1 - lo)) (fun i d =>
          let n := lo + i
          if (metroS d c).missing.any (fun p => decide (p.1 ≤ n) && decide (n ≤ p.2)) then d else metroMissing c n n d) d
        metroDrain 64 c d
      | _, _ => d
    else d

/-- A block that passes its MAC, in its place of the numbering (R317). -/
def metroAccept (c num : Nat) (b : Bytes) (d : Dev) : Dev :=
  let s := metroS d c
  match s.lastAcc with
  | none =>
    match s.prevAcc with
    | some p =>
      if p + 2 ≤ num ∧ num ≤ p + 17 then metroAhead c num b (modMetro c (fun s => { s with lastAcc := some p }) d)
      else intFlag c 1 (metroTake c num b d)
    | none => intFlag c 1 (metroTake c num b d)
  | some l => if num = metroNext s l then metroDrain 64 c (metroTake c num b d) else metroAhead c num b d

/-- A discarded block (R131). -/
def metroDiscard (c why : Nat) (d : Dev) : Dev :=
  raise 0x0C13 c why (intFlag c 2 (incr 32 0x209 (c + 1) d))

/-- Port number of the lanes of this unit (R140). -/
def portNo (d : Dev) : Nat := on d 0x403 0 % 2

/-- The port number that a part sees: 0 for a SINGLE unit (R140). -/
def lanePort (d : Dev) : Nat := if d.pair.role = .single then 0 else portNo d

/-- A METRO record has come through ring 2 to the metrology die, which checks its MAC and its number (R131, R317). -/
def metroTaken (c num : Nat) (body : Bytes) (d : Dev) : Dev :=
  match connDisp d c with
  | none => d
  | some (di, i) =>
    match (laneS d (32 + di)).kmac with
    | none => metroDiscard c 3 d
    | some k =>
      let mac := (hmac256 k (natLe 1 di ++ natLe 1 i ++ natLe 1 (lanePort d) ++ [0] ++ natLe 4 num ++ body.take 128)).take 8
      if mac ≠ body.drop 128 then metroDiscard c 1 d
      else
        match (metroS d c).lastAcc with
        | some l => if num ≤ l then metroDiscard c 2 d else if meters d then metroAccept c num (body.take 128) d else d
        | none => if meters d then metroAccept c num (body.take 128) d else d

/-- METRO: a record of a connector with its block number and 136-byte body goes by way of ring 2 (R129, R420). -/
def metroRecord (c num : Nat) (body : Bytes) (d : Dev) : Dev :=
  if !(running d) || body.length != 136 || (connDisp d c).isNone then d
  else ringPass 2 [.metro c num body] (metroTaken c num body) id d

/-- METRO_GAP: a requested block is still absent 4 ms after its request (R131, R317). -/
def metroGap (c num : Nat) (d : Dev) : Dev :=
  if running d && (metroS d c).requested.contains num then metroDrain 64 c (metroMissing c num num d) else d

/-- A link-up of a dispenser lane clears the last accepted numbers of its connectors (R317). -/
def metroLinkUp (di : Nat) (d : Dev) : Dev :=
  forEach (List.range (dispE d di).count) (fun i d =>
    modMetro ((dispE d di).first + i) (fun s => { prevAcc := s.lastAcc.or s.prevAcc }) d) d

end Sys2Proof.Machine
end

