-- ==== Sys2Proof/Machine/RecStore.lean ====
section
/-! DEFINITION. The record store and the fault recorder (spec/18 R432 to R445): partitions of pages, entries, captures,
reading by cursor. -/

namespace Sys2Proof.Machine

/-! ### Partitions: 0 legal records, 1 timeline, 2 session log, 3 event log, 4 fault recorder, 5 journal (R433) -/

def part (d : Dev) (i : Nat) : PartS := d.flash.parts.getD i {}

def modPart (i : Nat) (f : PartS → PartS) (d : Dev) : Dev :=
  { d with flash := { d.flash with parts := modAt d.flash.parts i f } }

/-- Size of a partition in MiB: the layout in force; journal and timeline are fixed. -/
def partMiB (d : Dev) (i : Nat) : Nat :=
  match i with
  | 0 => on d 0x3302 1
  | 1 => 128
  | 2 => on d 0x3302 2
  | 3 => on d 0x3302 3
  | 4 => on d 0x3302 4
  | _ => 64

/-- The store is mounted and online. -/
def storeUp (d : Dev) : Bool := (on d 0x3300 0).testBit 0 && !((on d 0x3300 0).testBit 1)

/-- Bytes of entries in a page (USED, R435). -/
def pageUsed (p : PageR) : Nat := (p.ents.map (fun e => 16 + e.body.length)).foldl (· + ·) 0

/-- LSEC_END of a legal record entry, for the 400 days of R439. -/
def recEnd (e : EntryR) : Nat := if e.typ = 0x31 then fieldLe e.body 0x48 8 else fieldLe e.body 0x10 8

/-- The oldest page may be reused (R439). -/
def mayReuse (d : Dev) (i : Nat) (p : PageR) : Bool :=
  match i with
  | 0 => p.ents.all (fun e => decide (recEnd e + 34560000 < on d 0x2201 0))
  | 1 => false
  | _ => true

/-- REC.PART of a partition (R446). -/
def partPublish (i : Nat) (d : Dev) : Dev :=
  if i < 5 then
    let p := part d i
    let oldest := ((p.pages.head?).bind (fun g => g.ents.head?)).map (·.seq) |>.getD p.nextSeq
    put (0x3310 + i) 3 (p.pages.length / 256) (put (0x3310 + i) 2 p.nextSeq (put (0x3310 + i) 1 oldest d))
  else d

/-- An entry as it stands in the store: header and body (R436). -/
def entryBytes (e : EntryR) : Bytes :=
  natLe 2 e.body.length ++ natLe 1 e.typ ++ natLe 1 e.flags ++ natLe 8 e.seq ++ natLe 4 0 ++ e.body

/-- The 4 KiB of a page: its header, its entries, 0x00 behind them (R435). -/
def pageBytes (i : Nat) (p : PageR) : Bytes :=
  let body := p.ents.flatMap entryBytes
  let body := body ++ List.replicate (4064 - body.length) 0
  let head := natLe 4 0x50434552 ++ natLe 1 i ++ natLe 1 1 ++ natLe 2 (pageUsed p) ++ natLe 8 p.pseq ++
    natLe 8 ((p.ents.head?.map (·.seq)).getD 0)
  head ++ natLe 4 (crc32 (body ++ head)) ++ natLe 4 0 ++ body

/-- No further entry fits into a page. -/
def pageFull (p : PageR) : Bool := decide (4064 < pageUsed p + 17)

/-- Reliable Writes are issued: of every page but the newest, and of that one when it is full or `all` are written (R437). -/
def issuePages (all : Bool) (p : PartS) : PartS :=
  let f := fun (g : PageR) => { g with issued := g.ents.length }
  let pages := p.pages.dropLast.map f ++ (p.pages.drop (p.pages.length - 1)).map (fun g => if all || pageFull g then f g else g)
  { p with pages := pages, writing := pages.any (fun g => decide (g.stored < g.issued)) }

/-- Pages of these partitions are written as soon as an entry is added (R437). -/
def legalPart (i : Nat) : Bool := decide (i ≤ 1) || decide (i = 5)

/-- An entry has been added: what is due is written, unless a write still awaits its answer. -/
def pagesDue (i : Nat) (p : PartS) : PartS := if p.writing then p else issuePages (legalPart i) p

/-- Take an entry into the page buffer, or hold it in its producer (R347, R439). -/
def recHold (i typ : Nat) (body : Bytes) (d : Dev) : Dev :=
  let d := { d with flash := { d.flash with held := d.flash.held ++ [(i, typ, body)] } }
  if i ≤ 1 ∧ !((on d 0x2200 0).testBit 5) then raise 0x5201 noInst 0 (setStatus 0x2200 0 5 d) else d

/-- Add an entry to the page buffer of a partition; none when the partition is full and may not reuse a page (R437, R439). -/
def partAdd (i typ : Nat) (body : Bytes) (d : Dev) : Option Dev :=
  let p := part d i
  let e : EntryR := { typ := typ, flags := boolNat (d.pair.role == .standby), seq := p.nextSeq, body := body }
  let fits := match p.pages.getLast? with
    | some g => decide (pageUsed g + 16 + body.length ≤ 4064)
    | none => false
  if fits then
    some (partPublish i (modPart i (fun p => pagesDue i { p with
      pages := modAt p.pages (p.pages.length - 1) (fun g => { g with ents := g.ents ++ [e] })
      nextSeq := p.nextSeq + 1 }) d))
  else
    let full := decide (partMiB d i * 256 ≤ p.pages.length)
    let g : PageR := { pseq := p.nextPseq, ents := [e] }
    if full ∧ !((p.pages.head?).map (mayReuse d i) |>.getD false) then none
    else
      let pages := (if full then p.pages.drop 1 else p.pages) ++ [g]
      let reused := if full then p.reused + 1 else p.reused
      let wrap := full && decide (i ≥ 2) && decide (i ≤ 4) && decide (reused ≥ partMiB d i * 256)
      let d := modPart i (fun p => pagesDue i { p with pages := pages, nextSeq := p.nextSeq + 1, nextPseq := p.nextPseq + 1,
                                                       reused := if wrap then 0 else reused }) d
      let d := if full ∧ 2 ≤ i ∧ i ≤ 4 then incr 32 (0x3310 + i) 4 d else d
      some (partPublish i (if wrap then raise 0x7003 i 0 d else d))

/-- The ring that carries the entries of a partition (R420). -/
def partRing (i : Nat) : Nat := if i = 2 then 5 else if i = 3 then 6 else if i = 4 then 7 else 4

/-- An entry has come through its ring: into its page buffer, or held where the partition cannot take it (R439, R440). -/
def recStore (i typ : Nat) (body : Bytes) (d : Dev) : Dev :=
  match if storeUp d then partAdd i typ body d else none with
  | some d => d
  | none => recHold i typ body (if i = 0 ∧ storeUp d then setStatus 0x3300 0 8 d else d)

/-- Post an entry: through its ring into its page buffer, or held in its producer while the store or the ring cannot take it
(R347, R420, R422, R440). In the RETURN state the legal core stores nothing (R478). -/
def recPost (i typ : Nat) (body : Bytes) (d : Dev) : Dev :=
  if i ≤ 1 ∧ on d 0x500 0 = 3 then d
  else if !(storeUp d) then recHold i typ body d
  else ringPass (partRing i) [.entry i typ body] (recStore i typ body) (recHold i typ body) d

/-- The entries of a partition that wait in their ring. -/
def inRing (d : Dev) (i : Nat) : Nat :=
  ((ring d (partRing i)).q.filter (fun x => match x.own with | some (.entry j _ _) => j == i | _ => false)).length

/-- Write the held entries again, in order; those that still do not fit stay held. -/
def recPostHeld (only : Nat → Bool) (d : Dev) : Dev :=
  let h := d.flash.held
  forEach h (fun x d =>
    if only x.1 then recPost x.1 x.2.1 x.2.2 d
    else { d with flash := { d.flash with held := d.flash.held ++ [x] } })
    { d with flash := { d.flash with held := [] } }

/-- STORE_RETRY (R347): the legal records held are written again. -/
def storeRetry (d : Dev) : Dev :=
  if running d then
    let d := recPostHeld (fun i => decide (i ≤ 1) || i == 5) d
    if d.flash.held.any (fun x => decide (x.1 ≤ 1)) then d else clrStatus 0x3300 0 8 d
  else d

/-! ### Page writes (R437) -/

/-- Held entries are posted as soon as their ring has a place again (R422); what the legal core holds waits for its second (R347). -/
def recRepost (d : Dev) : Dev :=
  if running d && storeUp d && d.flash.held.any (fun x => decide (2 ≤ x.1) && decide (x.1 ≤ 4) && ringIdle d (partRing x.1)) then
    recPostHeld (fun i => decide (2 ≤ i) && decide (i ≤ 4)) d
  else d

/-- The entries of a partition that are stored: SEQ below this. -/
def storedUpTo (p : PartS) : Nat :=
  match p.pages.find? (fun g => decide (g.stored < g.ents.length)) with
  | some g => (g.ents[g.stored]?).map (·.seq) |>.getD p.nextSeq
  | none => p.nextSeq

/-- Captures whose last entry is stored return their buffers; REC_CAPTURE (R442). -/
def captureStored (d : Dev) : Dev :=
  let up := storedUpTo (part d 4)
  let done := d.flash.caps.filter (fun c => c.frozen && decide (c.lastSeq < up))
  let d := { d with flash := { d.flash with caps := d.flash.caps.filter (fun c => !(c.frozen && decide (c.lastSeq < up))) } }
  let d := forEach done (fun c d => raise 0x7002 c.stage c.hdrSeq (put 0x3332 3 c.hdrSeq (incr 32 0x3332 1 d))) d
  wrStatus 0x3300 0 5 (decide (d.flash.caps ≠ [])) d

/-- PAGE_WRITTEN (R437): the eMMC has answered; the entries of the writes that it answers are stored. Entries that have joined
since then are due again. -/
def pageWritten (i : Nat) (d : Dev) : Dev :=
  let p := part d i
  if running d && decide (i < 6) && storeUp d && p.writing then
    let d := forEach (p.pages.filter (fun g => decide (g.stored < g.issued))) (fun g => emit (.page i (pageBytes i { g with ents := g.ents.take g.issued }))) d
    let d := modPart i (fun p => issuePages (legalPart i || p.flush) { p with
      flush := false
      pages := p.pages.map (fun g => { g with stored := g.issued }) }) d
    let d := { d with flash := { d.flash with fails := 0 } }
    if i = 4 then captureStored d else d
  else d

/-- PAGE_FLUSH_TIMER (R437): 1 s after its first unwritten entry a page is written, or as soon as the write before it is answered. -/
def pageFlush (i : Nat) (d : Dev) : Dev :=
  let p := part d i
  if running d && decide (i < 6) && p.pages.any (fun g => decide (g.stored < g.ents.length)) then
    modPart i (fun p => if p.writing then { p with flush := true } else issuePages true p) d
  else d

/-! ### Faults, mounting, formatting (R432, R434, R438, R440) -/

/-- Rings stopped while the store is OFFLINE (R440). -/
def storeRings : List Nat := [4, 5, 6, 7, 13, 14]

def stopRings (l : List Nat) (d : Dev) : Dev :=
  forEach l (fun r d =>
    if (ring d r).q = [] then putf (0x3200 + r) 7 true d
    else modRing r (fun x => { x with stopReq := true }) d) d

def startRings (l : List Nat) (d : Dev) : Dev :=
  forEach l (fun r d => putf (0x3200 + r) 7 false (modRing r (fun x => { x with stopReq := false }) d)) d

/-- REC_EMMC_FAIL (R440): retried; at the third failure in a row the store goes OFFLINE. -/
def emmcFail (d : Dev) : Dev :=
  if running d && (on d 0x3300 0).testBit 0 && !((on d 0x3300 0).testBit 1) then
    let n := d.flash.fails + 1
    let d := raise 0x7401 noInst 0 (setStatus 0x3300 0 7 { d with flash := { d.flash with fails := n } })
    if n ≥ 3 then stopRings storeRings (raise 0x7402 noInst 0 (setStatus 0x3300 0 1 d)) else d
  else d

/-- EMMC_REINIT (R440): a remount that succeeds clears OFFLINE and restarts the rings. -/
def emmcReinit (ok : Bool) (d : Dev) : Dev :=
  if running d && (on d 0x3300 0).testBit 1 && ok then
    let d := clrStatus 0x3300 0 1 { d with flash := { d.flash with fails := 0 } }
    recPostHeld (fun _ => true) (startRings storeRings d)
  else d

/-- REC_WEAR (R432): estimates A, B and PRE_EOL. -/
def recWear (a b eol : Nat) (d : Dev) : Dev :=
  if running d then
    let d := put 0x3301 4 (eol % 256) (put 0x3301 3 (b % 256) (put 0x3301 2 (a % 256) d))
    let bad := decide (a % 256 ≥ 9) || decide (b % 256 ≥ 9) || decide (eol % 256 ≥ 2)
    let d := wrStatus 0x3300 0 4 bad d
    if bad then raise 0x7202 noInst 0 d else d
  else d

/-- The session log's part of a capacity in MiB (R433). -/
def sessionMiB (cap legal ev fr : Nat) : Nat := cap - (4 + 64 + 128 + legal + ev + fr + 256)

/-- The pages of a partition that a mount finds: of a page that was being written at the supply loss the state before or, where
the write went through (`done`), after. A page whose CRC fails was never written; from the head hint on the scan ends at the first
such page, and what lies beyond is free (R437, R438). -/
def mountPages (i : Nat) (bad : List (Nat × Nat)) (done : Bool) (p : PartS) : PartS :=
  let pages := (p.pages.map (fun g =>
    let n := if done then g.issued else g.stored
    { g with ents := g.ents.take n, issued := n, stored := n })).takeWhile (fun g => !(g.ents.isEmpty))
  let sound := fun (g : PageR) => !(bad.contains (i, g.pseq))
  let pages := (pages.filter (fun g => decide (g.pseq < p.hint))).filter sound ++
    (pages.filter (fun g => decide (p.hint ≤ g.pseq))).takeWhile sound
  { p with
    pages := pages
    writing := false
    flush := false
    nextSeq := ((pages.getLast?).bind (fun g => g.ents.getLast?)).map (fun e => e.seq + 1) |>.getD p.nextSeq
    nextPseq := (pages.getLast?).map (fun g => g.pseq + 1) |>.getD p.nextPseq
    hint := (pages.getLast?).map (·.pseq) |>.getD p.hint }

/-- Mount at start (R434, R438): the table block found, the capacity in MiB, the CID, the pages that fail their CRC, the
partitions whose last write went through. The layout is the table block's (R433); the head hints are brought up to date at each
mount: DESIGN CHOICE (log entry 70). -/
def storeMount (found capMiB : Nat) (cid : Bytes) (bad : List (Nat × Nat)) (done : List Nat) (d : Dev) : Dev :=
  let d := put 0x3301 1 (capMiB * 2 ^ 20) { d with flash := { d.flash with fmt := found, fails := 0, caps := [], roll := [] } }
  let d := putb 0x3301 5 (cid.take 16 ++ List.replicate (16 - cid.length) 0) d
  if found = 1 then
    let d := forEach [1, 2, 3, 4] (fun k => put 0x3302 k (d.flash.layout.getD (k - 1) 0)) d
    let d := { d with flash := { d.flash with parts := ((List.range 6).zip d.flash.parts).map (fun p => mountPages p.1 bad (done.contains p.1) p.2) } }
    let d := forEach (List.range 5) partPublish d
    recPostHeld (fun _ => true) (setStatus 0x3300 0 0 d)
  else
    let d := forEach [1, 2, 3, 4] (fun k => put 0x3302 k 0) d
    raise 0x7403 noInst (if found = 0 then 1 else 2) (setStatus 0x3300 0 (if found = 0 then 2 else 3) d)

/-- The sizes in MiB that a format would give: legal records, session log, event log, fault recorder (R433). -/
def nextLayout (d : Dev) : List Nat :=
  let l := on d 0x3303 1
  let e := on d 0x3303 3
  let f := on d 0x3303 4
  [l, sessionMiB (on d 0x3301 1 / 2 ^ 20) l e f, e, f]

/-- REC.FORMAT is admitted: a store that is UNFORMATTED for SERVICE and VENDOR, a FOREIGN one for METROLOGY under the seal, and the
layout leaves the session log its least size (R433). -/
def formatOk (d : Dev) (role : Nat) : Bool :=
  let w := on d 0x3300 0
  decide (256 ≤ (nextLayout d).getD 1 0) && ((w.testBit 2 && (role == 1 || role == 3)) || (w.testBit 3 && role == 2 && (on d 0x2200 0).testBit 0))

/-- REC.FORMAT taking effect (R433, R434): the settable sizes come from REC.LAYOUT_NEXT; SEQ of the legal partitions goes on. -/
def storeFormat (d : Dev) : Dev :=
  let w := on d 0x3300 0
  if w.testBit 2 || w.testBit 3 then
    let l := nextLayout d
    let d := forEach [1, 2, 3, 4] (fun k => put 0x3302 k (l.getD (k - 1) 0)) d
    let d := { d with flash := { d.flash with
      fmt := 1, layout := l
      parts := ((List.range 6).zip d.flash.parts).map (fun p => if legalPart p.1 then { nextSeq := p.2.nextSeq } else {}) } }
    let d := setStatus 0x3300 0 0 (clrStatus 0x3300 0 3 (clrStatus 0x3300 0 2 d))
    recPostHeld (fun _ => true) (raise 0x7001 noInst 0 (forEach (List.range 5) partPublish d))
  else d

/-! ### Reading (R444) -/

/-- Take whole entries while they fit into `room` bytes. -/
def takeEntries : Nat → List EntryR → List EntryR
  | _, [] => []
  | room, e :: l => if 16 + e.body.length ≤ room then e :: takeEntries (room - (16 + e.body.length)) l else []

/-- The stored entries of a partition, ascending SEQ. -/
def storedEntries (p : PartS) : List EntryR := p.pages.flatMap (fun g => g.ents.take g.stored)

/-- The value of REC.DATA[k]; FROM becomes NEXT at the commit of the read. It comes by way of ring 14 (R420). A store that is not
mounted shows no entry. -/
def recRead (k : Nat) (d : Dev) : Bytes × Dev :=
  let cur := 0x3320 + k
  let i := on d cur 1
  let from' := on d cur 2
  let p := part d i
  let all := if storeUp d then storedEntries p else []
  let oldest := (all.head?).map (·.seq) |>.getD p.nextSeq
  let rest := all.filter (fun e => decide (max from' oldest ≤ e.seq))
  let got := takeEntries (on d cur 3 - 16) rest
  let next := match got.getLast? with | some e => e.seq + 1 | none => max from' (if rest = [] then from' else oldest)
  let gap := decide (from' < oldest) && decide (all ≠ [])
  let fin := decide (got.length = rest.length)
  (natLe 2 got.length ++ natLe 2 (boolNat gap + 2 * boolNat fin) ++ natLe 4 0 ++ natLe 8 next ++ got.flatMap entryBytes,
    put cur 2 next (ringPass 14 [.part] id id d))

/-! ### Fault recorder (R441 to R443) -/

/-- The launched DUTY and TRIM of a stage: two words of 16 bits a phase. -/
def launchedDuty (d : Dev) (s : Nat) : Bytes :=
  (List.range (stageE d s).phases).flatMap (fun p =>
    natLe 2 ((alGet d.lanes.lreg (fkey 3 s 0x101 p)).getD 0) ++ natLe 2 ((alGet d.lanes.lreg (fkey 3 s 0x102 p)).getD 0))

/-- A micro-frame of a stage has come through ring 1: into its rolling buffer, or into the capture that collects (R441, R442). -/
def rollTake (s : Nat) (f : FrameRec) (d : Dev) : Dev :=
  let post := on d 0x3330 2
  if d.flash.caps.any (fun c => c.stage == s && !c.frozen && decide (c.post.length < post)) then
    { d with flash := { d.flash with caps := d.flash.caps.map (fun c =>
      if c.stage = s ∧ !c.frozen ∧ c.post.length < post then { c with post := c.post ++ [f] } else c) } }
  else
    { d with flash := { d.flash with
      roll := alSet d.flash.roll s ((f :: (alGet d.flash.roll s).getD []).take (on d 0x3330 1)) } }

/-- The sample token's frame of a stage goes by the four descriptors of R441 on ring 1. `raw` is the frame body as received, none
when it is missing. -/
def rollFrame (s : Nat) (raw : Option Bytes) (d : Dev) : Dev :=
  if !((on d 0x3330 3).testBit s) then d
  else
    let f : FrameRec := { valid := raw.isSome, body := raw.getD [], down := launchedDuty d s }
    ringPass 1 [.part, .part, .part, .roll s f] (rollTake s f) id d

/-- Trigger a capture of a stage (R442). -/
def capTrigger (s code : Nat) (d : Dev) : Dev :=
  if !(laneBound d s) || !((on d 0x3330 3).testBit s) then d
  else if d.flash.caps.any (fun c => c.stage == s && !c.frozen) then
    { d with flash := { d.flash with caps := d.flash.caps.map (fun c =>
      if c.stage = s ∧ !c.frozen ∧ c.codes.length < 8 then { c with codes := c.codes ++ [code] } else c) } }
  else if d.flash.caps.length ≥ (stagesBound d).length + 4 then
    raise 0x7201 s 0 (setStatus 0x3300 0 6 (incr 32 0x3332 2 d))
  else
    let pre := ((alGet d.flash.roll s).getD []).reverse
    let c : CaptureS := { stage := s, codes := [code], micro := d.time.micro, civil := civilNs d, pre := pre }
    setStatus 0x3300 0 5 { d with flash := { d.flash with caps := d.flash.caps ++ [c], roll := alDel d.flash.roll s } }

/-- A trip-class event triggers (R442). -/
def capOnEvent (e : EvRec) (d : Dev) : Dev :=
  if evClass e.code ≠ 3 then d
  else if 0x2800 ≤ e.code ∧ e.code < 0x3000 ∧ (on d 0x3330 4).testBit 0 then capTrigger e.inst e.code d
  else if 0x3000 ≤ e.code ∧ e.code < 0x3800 ∧ (on d 0x3330 4).testBit 1 then
    forEach (((stagesBound d).filter (fun s => (List.range (stageE d s).groups).any (fun g =>
      on d (oGrp s g 0x17) 0 == e.inst))).take 4) (fun s => capTrigger s e.code) d
  else d

/-- Bits of a list packed into bytes, first bit least significant. -/
def packBits : List Bool → Bytes
  | b0 :: b1 :: b2 :: b3 :: b4 :: b5 :: b6 :: b7 :: l =>
    natLe 1 (boolNat b0 + 2 * boolNat b1 + 4 * boolNat b2 + 8 * boolNat b3 + 16 * boolNat b4 + 32 * boolNat b5 +
      64 * boolNat b6 + 128 * boolNat b7) ++ packBits l
  | [] => []
  | l => natLe 1 (maskOf ((List.range l.length).filter (fun i => l.getD i false)))

/-- The stream of planes of a capture (R443): frames oldest first; the four samples of a phase stand together, as R441 moves them. -/
def capStream (e : StageE) (fs : List FrameRec) : Bytes :=
  let ph := List.range e.phases
  ph.flatMap (fun p => fs.flatMap (fun f => natLe 8 (fieldLe f.body (64 + 8 * p) 8))) ++
  ph.flatMap (fun p => fs.flatMap (fun f => natLe 2 (fieldLe f.down (4 * p) 2))) ++
  ph.flatMap (fun p => fs.flatMap (fun f => natLe 2 (fieldLe f.down (4 * p + 2) 2))) ++
  ph.flatMap (fun p => (List.range 4).flatMap (fun k => packBits (fs.map (fun f => (stageField f.body 0x10 p).testBit k)))) ++
  fs.flatMap (fun f => natLe 2 (stageField f.body 0x20 0)) ++
  (List.range e.groups).flatMap (fun g => fs.flatMap (fun f => natLe 2 (stageField f.body 0x21 g))) ++
  (List.range e.groups).flatMap (fun g => fs.flatMap (fun f => natLe 2 (stageField f.body 0x22 g))) ++
  (List.range 8).flatMap (fun t => fs.flatMap (fun f => natLe 2 (stageField f.body 0x30 t))) ++
  fs.flatMap (fun f => natLe 4 (stageField f.body 0x40 0)) ++
  packBits (fs.map (·.valid))

/-- The header of a capture (R443). -/
def capHeader (d : Dev) (c : CaptureS) (size : Nat) : Bytes :=
  let e := stageE d c.stage
  let codes := c.codes ++ List.replicate (8 - c.codes.length) 0
  natLe 1 c.stage ++ natLe 1 e.phases ++ natLe 1 e.groups ++ natLe 1 c.codes.length ++ natLe 2 c.pre.length ++
    natLe 2 c.post.length ++ natLe 8 c.micro ++ natLe 8 c.civil ++ codes.flatMap (natLe 2) ++ natLe 4 (tNs d) ++
    natLe 2 (7 * e.phases + 2 * e.groups + 11) ++ natLe 2 0 ++ natLe 4 size ++ List.replicate 12 0

/-- The stream cut into chunks of at most 4,040 bytes with their offsets. -/
def chunks : Nat → Nat → Bytes → List (Nat × Bytes)
  | 0, _, _ => []
  | n + 1, off, b => if b = [] then [] else (off, b.take 4040) :: chunks n (off + 4040) (b.drop 4040)

/-- CAPTURE_FROZEN (R442): the buffer that has collected its micro-frames becomes entries. -/
def captureFrozen (s : Nat) (d : Dev) : Dev :=
  match d.flash.caps.find? (fun c => c.stage == s && !c.frozen) with
  | none => d
  | some c =>
    if !(running d) || decide (c.post.length < on d 0x3330 2) then d
    else
      let str := capStream (stageE d s) (c.pre ++ c.post)
      let cs := chunks (str.length / 4040 + 1) 0 str
      let hs := (part d 4).nextSeq + (d.flash.held.filter (fun x => x.1 == 4)).length + inRing d 4
      let d := recPost 4 0x41 (capHeader d c str.length) d
      let d := forEach cs (fun x => recPost 4 0x42 (natLe 4 x.1 ++ natLe 4 0 ++ x.2)) d
      let ls := hs + cs.length
      { d with flash := { d.flash with caps := d.flash.caps.map (fun x =>
        if x.stage = s ∧ !x.frozen then { x with frozen := true, hdrSeq := hs, lastSeq := ls } else x) } }

/-- REC.TRIGGER taking effect. -/
def recTrigger (m : Nat) (d : Dev) : Dev := forEach (bitsSet 32 m) (fun s => capTrigger s 0) d

end Sys2Proof.Machine
end

