-- ==== Sys2Proof/Machine/Billing.lean ====
section
/-! DEFINITION. The legal partition (spec/15): legal time, tariffs, intervals and their records, the timeline, session
records, supply cuts, the display port. -/

namespace Sys2Proof.Machine

def lsec (d : Dev) : Nat := on d 0x2201 0

/-- Cl, legal local seconds (R339). -/
def legalLocal (d : Dev) : Int := ((civilNs d / 1000000000 : Nat) : Int) - oi 16 d 0x2205 1 + 60 * oi 16 d 0x2205 2

/-- The tariff in force, 1 to 4. -/
def tariff (d : Dev) : Nat := on d 0x2203 1

/-- The ten registers of a channel. -/
def regsOf (d : Dev) (m : Nat) : List Nat := (List.range 10).map (fun i => on d (0x2100 + m) (i + 1))

def putRegs (m : Nat) (l : List Nat) (d : Dev) : Dev :=
  forEach ((List.range 10).zip l) (fun p d => if on d (0x2100 + m) (p.1 + 1) = p.2 then d else put (0x2100 + m) (p.1 + 1) p.2 d) d

/-- A block of legal data under the record sealing key: first 8 bytes of its HMAC (R346). -/
def sealMac (d : Dev) (b : Bytes) : Bytes := (hmac256 (sealKey d) b).take 8

/-! ### Timeline (R348 to R350) -/

def tlCapacity : Nat := 1048576
def tlHigh : Nat := 943718

/-- Bytes padded with zeros to `n`. -/
def padTo (n : Nat) (b : Bytes) : Bytes := (b ++ List.replicate (n - b.length) 0).take n

/-- Write a timeline entry with its own legal and civil time. -/
def tlEntryAt (lsecAt civilAt kind ch : Nat) (data : Bytes) (d : Dev) : Dev :=
  let used := on d 0x220C 1
  if used ≥ tlCapacity then incr 32 0x220C 4 d
  else
    let body := natLe 2 kind ++ natLe 2 ch ++ natLe 4 used ++ natLe 8 lsecAt ++ natLe 8 civilAt ++ padTo 24 data ++ d.legal.tlPrev
    let e := body ++ sealMac d body
    let d := recPost 1 0x50 e d
    let d := modLegal (fun l => { l with tlPrev := (sha256 e).take 8 }) (putb 0x220C 3 e (put 0x220C 1 (used + 1) d))
    let d := if used + 1 = tlHigh then raise 0x5202 noInst 0 (setStatus 0x2200 0 7 d) else d
    if used + 1 = tlCapacity then raise 0x5403 noInst 0 (setStatus 0x2200 0 8 d) else d

/-- BIL.LSEC as the billing tick in progress will have it: a tick whose token has been issued counts (R320). -/
def legalNow (d : Dev) : Nat := lsec d + boolNat d.legal.tickDue

/-- Write a timeline entry now. -/
def tlEntry (kind ch : Nat) (data : Bytes) (d : Dev) : Dev := tlEntryAt (legalNow d) (civilNs d) kind ch data d

/-! ### Increments (R320, R328) -/

/-- Change the intervals that an increment belongs to: those that close waiting for its tick, else the open ones. -/
def tickInts (i : IncS) (add : IntS → IntS) (d : Dev) : Dev :=
  let waits := d.legal.waits.filter (fun w => w.m == i.m && decide (i.lsec < w.lsecEnd))
  let has := fun (t : Nat) => waits.any (fun w => w.rtype == t)
  modLegal (fun l => { l with
    waits := l.waits.map (fun w => if w.m = i.m ∧ i.lsec < w.lsecEnd then { w with int := add w.int } else w)
    p15 := if has 0x21 then l.p15 else modAt l.p15 i.m (onOpen add)
    p5 := if has 0x22 then l.p5 else modAt l.p5 i.m (onOpen add)
    dem := if 64 ≤ i.m ∧ !(has 0x23) then modAt l.dem (i.m - 64) (onOpen add) else l.dem }) d

/-- The energy of an increment in its intervals. -/
def creditInts (i : IncS) : Dev → Dev := tickInts i (fun x => { x with imp := x.imp + i.imp, exp := x.exp + i.exp })

/-- Add an increment to the registers, to the tariff of its tick and to its intervals, and journal it. -/
def addInc (i : IncS) (d : Dev) : Dev :=
  if i.imp = 0 ∧ i.exp = 0 then d
  else
    let add := fun sub u d => if u = 0 then d else put (0x2100 + i.m) sub (satU 96 (on d (0x2100 + i.m) sub + u)) d
    let d := add 1 i.imp (add 2 i.exp (add (2 + i.tariff) i.imp (add (6 + i.tariff) i.exp d)))
    modLegal (fun l => { l with journal := l.journal ++ [i] }) (creditInts i d)

/-! ### Interval records (R346, R347) -/

/-- Write the record of a closed interval. -/
def intRecord (rtype m lsecEnd : Nat) (x : IntS) (d : Dev) : Dev :=
  let key := 256 * rtype + m
  let q := (alGet d.legal.seqs key).getD (0, List.replicate 8 0)
  let body := natLe 1 rtype ++ natLe 1 m ++ natLe 2 x.iflags ++ natLe 2 x.rflags ++ natLe 1 x.tariffs ++ natLe 1 0 ++
    natLe 8 x.lsec0 ++ natLe 8 lsecEnd ++ natLe 8 x.civil0 ++ natLe 4 x.ms ++ natLe 4 q.1 ++ natLe 12 x.imp ++ natLe 12 x.exp ++ q.2
  let r := body ++ sealMac d body
  recPost 0 rtype r (modLegal (fun l => { l with seqs := alSet l.seqs key (q.1 + 1, (sha256 r).take 8) }) d)

/-- Demand of an interval in kW (R344). -/
def demandKw (x : IntS) : Nat := if x.len = 0 then 0 else x.imp * 3600 / (65536 * x.len * 1000)

/-- What a closed demand interval publishes (R344). -/
def publishDemand (k lsecEnd : Nat) (x : IntS) (d : Dev) : Dev :=
  let o := 0x2208 + k
  let w := demandKw x
  let d := put o 2 x.rflags (put o 1 w d)
  if w > on d o 3 then put o 5 (tariff d) (put o 4 lsecEnd (put o 3 w d)) else d

/-- A closed interval: its demand, its record. Only metered intakes have demand records. -/
def finishInt (rtype m lsecEnd : Nat) (x : IntS) (d : Dev) : Dev :=
  if rtype = 0x23 then
    (if metered d (m - 64) then intRecord rtype m lsecEnd x (publishDemand (m - 64) lsecEnd x d) else d)
  else intRecord rtype m lsecEnd x d

/-- Closed intervals of a channel whose last increments have come are finished (R328). -/
def finishWaits (m : Nat) (d : Dev) : Dev :=
  let ready := fun (w : WaitInt) => w.m == m && !(d.legal.own.any (fun i => i.m == m && decide (i.lsec < w.lsecEnd)))
  let due := d.legal.waits.filter ready
  forEach due (fun w => finishInt w.rtype w.m w.lsecEnd w.int)
    (modLegal (fun l => { l with waits := l.waits.filter (fun w => !(ready w)) }) d)

def intsOf (d : Dev) (rtype : Nat) : List IntS := if rtype = 0x21 then d.legal.p15 else if rtype = 0x22 then d.legal.p5 else d.legal.dem

def setInt (rtype i : Nat) (x : IntS) : Dev → Dev :=
  modLegal (fun l => if rtype = 0x21 then { l with p15 := setAt l.p15 i x } else if rtype = 0x22 then { l with p5 := setAt l.p5 i x }
    else { l with dem := setAt l.dem i x })

/-- Channel of an interval index. -/
def intChan (rtype i : Nat) : Nat := if rtype = 0x23 then 64 + i else i

/-- Close an open interval at a tick: on a standby unit it waits for the mirrored increments of its last tick. -/
def closeInt (rtype i rfl lsecEnd : Nat) (d : Dev) : Dev :=
  let x := (intsOf d rtype).getD i {}
  let x := { x with rflags := x.rflags ||| rfl }
  let m := intChan rtype i
  let d := setInt rtype i {} d
  if d.legal.own.any (fun q => q.m == m && decide (q.lsec < lsecEnd)) then
    modLegal (fun l => { l with waits := l.waits ++ [{ rtype := rtype, m := m, lsecEnd := lsecEnd, int := x }] }) d
  else finishInt rtype m lsecEnd x d

/-- Nominal length in seconds (R340). -/
def intLen (d : Dev) (rtype : Nat) : Nat := if rtype = 0x21 then 900 else if rtype = 0x22 then 300 else 60 * on d 0x2206 0

/-- First multiple of L above Cl (R340). -/
def nextEnd (cl : Int) (l : Nat) : Int := if l = 0 then cl else (cl / (l : Int) + 1) * (l : Int)

/-- A repeated local second: Cl below the highest value that a tick has shown (R341). -/
def repeats (d : Dev) (cl : Int) : Bool := match d.legal.highCivil with | some h => decide (cl < h) | none => false

/-- The conditions of R322 that stand on an intake as an interval opens: lost phases, the neutral, the phase sequence (R321). -/
def standing (d : Dev) (m : Nat) : Nat :=
  if m < 64 then 0
  else
    let w := on d 0x2000 0
    let k := m - 64
    16 * boolNat (w.testBit (6 + k)) + 32 * boolNat (w.testBit (8 + k)) + 64 * boolNat (phaseLost d k)

/-- Open an interval (R340, R341, R345). -/
def openInt (rtype i rfl : Nat) (cl : Int) (d : Dev) : Dev :=
  let l := intLen d rtype
  let e := nextEnd cl l
  let short := if e - cl < (l : Int) then 2 else 0
  let rep := if repeats d cl then 8 else 0
  let sealed := if sealOpen d then 128 else 0
  setInt rtype i { isOpen := true, endCl := e, len := l, lsec0 := lsec d, civil0 := civilNs d,
                   iflags := standing d (intChan rtype i), rflags := rfl ||| short ||| rep ||| sealed, tariffs := setBit 0 (tariff d - 1) } d

/-- RFLAGS of every open interval and session record. -/
def rflagAll (m : Nat) : Dev → Dev :=
  modLegal (fun l => { l with
    p15 := l.p15.map (onOpen (fun x => { x with rflags := x.rflags ||| m }))
    p5 := l.p5.map (onOpen (fun x => { x with rflags := x.rflags ||| m }))
    dem := l.dem.map (onOpen (fun x => { x with rflags := x.rflags ||| m }))
    recs := l.recs.map (fun r => if r.signed then r else { r with rflags := r.rflags ||| m }) })

/-! ### Session records (R351 to R354) -/

/-- ECDSA P-256 with a drawn secret number; the digest is read big-endian (R353). -/
def ecdsaSign (key : Nat) (digest secret : Bytes) : Nat × Nat :=
  let e := beNat digest
  let k := beNat secret % (p256N - 1) + 1
  let r := ((p256Mul k (some p256G)).map (fun q => q.1 % p256N)).getD 0
  (r, invMod k p256N * (e + r * key) % p256N)

/-- A record opens when its context enters AUTHORIZE. -/
def sessionRecordOpen (n c : Nat) (d : Dev) : Dev :=
  let id := d.legal.nextRec
  let r : SRec := { ctx := n, conn := c, id := id }
  put (oSes n 0x0D) 0 id (modLegal (fun l => { l with nextRec := id + 1, recs := l.recs ++ [r] }) d)

/-- Update the open record of a context. -/
def modRec (n : Nat) (f : SRec → SRec) : Dev → Dev :=
  modLegal (fun l => { l with recs := l.recs.map (fun r => if r.ctx = n ∧ !r.signed then f r else r) })

/-- BIL.PENDING_REC: records closed and not yet stored. -/
def publishPending (d : Dev) : Dev := put 0x220F 0 ((d.legal.recs.filter (·.closing)).length) d

/-- What an open record takes from its context (R352). -/
def recFill (d : Dev) (r : SRec) : SRec :=
  if r.closing then r
  else
    let n := r.ctx
    { r with
      resumes := on d (oSes n 0x0C) 2, proto := on d (oSes n 2) 0, sid := padTo 8 (ob d (oSes n 3) 0)
      ident := if on d (oSes n 5) 1 = 1 then padTo 32 (ob d (oSes n 5) 2) else List.replicate 32 0 }

/-- The context enters CLOSING: what the record takes from it is kept, its closing reading falls due (R351). -/
def sessionRecordClose (n _c cause : Nat) (d : Dev) : Dev :=
  publishPending (modRec n (fun r => { recFill d r with closing := true, age := 0, cause := cause }) d)

/-- The entry of a session record is stored: its page stands in the legal partition (R354, R437). In the RETURN state nothing is
stored, and nothing is waited for (R478). -/
def entryStored (d : Dev) (id : Nat) : Bool :=
  lcState d == 3 || (part d 0).pages.any (fun g => (g.ents.take g.stored).any (fun e => e.typ == 0x31 && fieldLe e.body 4 4 == id))

/-- The record of a context is signed and stored. -/
def recSigned (d : Dev) (n : Nat) : Bool := d.legal.recs.any (fun r => r.ctx == n && r.signed && entryStored d r.id)

/-- A record is done with. -/
def sessionRecordDone (n : Nat) (d : Dev) : Dev :=
  publishPending (modLegal (fun l => { l with recs := l.recs.filter (fun r => !(r.ctx == n && r.signed)) }) d)

/-- The gap estimates of a record since its opening reading (R351): what was counted before the last start, and since. -/
def recGap (d : Dev) (r : SRec) : Nat × Nat :=
  if r.opening.isNone then (0, 0)
  else (r.accI + (on d (0x2180 + r.conn) 2 - r.gapI), r.accE + (on d (0x2180 + r.conn) 3 - r.gapE))

/-- Signature and storing of a record with the closing registers (R352, R353). A record whose two readings fall on one tick shows the
tariff in force then, since TARIFFS is never 0 (R346): DEDUCED (log entry 73); so does one that closes before its opening reading. -/
def signRecord (r : SRec) (closeRegs : List Nat) (lsecC civilC : Nat) (d : Dev) : Dev :=
  let r := if r.opening.isSome then r else { r with lsecO := lsecC, civilO := civilC }
  let o := r.opening.getD closeRegs
  let diff := fun i => closeRegs.getD i 0 - o.getD i 0
  let gap := recGap d r
  let tariffs := if r.tariffs = 0 then setBit 0 (tariff d - 1) else r.tariffs
  let body := natLe 1 0x31 ++ natLe 1 1 ++ natLe 1 r.conn ++ natLe 1 r.proto ++ natLe 4 r.id ++ padTo 16 (ob d 0x003 0) ++ padTo 8 r.sid ++
    padTo 32 r.ident ++ natLe 8 r.lsecO ++ natLe 8 lsecC ++ natLe 8 r.civilO ++ natLe 8 civilC ++
    natLe 12 (o.getD 0 0) ++ natLe 12 (o.getD 1 0) ++ natLe 12 (closeRegs.getD 0 0) ++ natLe 12 (closeRegs.getD 1 0) ++
    (List.range 8).flatMap (fun i => natLe 12 (diff (2 + i))) ++
    natLe 12 gap.1 ++ natLe 12 gap.2 ++ natLe 2 r.iflags ++ natLe 2 r.rflags ++
    natLe 1 r.cause ++ natLe 1 r.resumes ++ natLe 1 tariffs ++ natLe 1 0 ++ natLe 4 (on d 0x2202 0) ++ natLe 4 (keyGen d)
  let d := if lcState d = 3 then d else
    let k := draw 32 d
    let s := ecdsaSign (signKey d) (sha256 body) k.1
    recPost 0 0x31 (body ++ natLe 32 s.1 ++ natLe 32 s.2) k.2
  modLegal (fun l => { l with recs := l.recs.map (fun x => if x.id = r.id then { x with signed := true } else x) }) d

/-- The opening reading of a record at this tick, unless the connector's previous record has its closing reading before it (R351). -/
def recOpens (d : Dev) (r : SRec) : Bool :=
  r.opening.isNone && !(d.legal.recs.any (fun x => x.conn == r.conn && decide (x.id < r.id) && x.closing && !x.signed))

/-- Closing and opening readings at a tick; `step` tells that a civil step is detected at it, which marks them as it marks an interval
that closes at such a tick: DEDUCED (log entry 73), R345. Only the active or single unit signs and stores (R354). -/
def recTick (step : Bool) (d : Dev) : Dev :=
  let set := if step then 4 else 0
  let d := if d.pair.role == .standby then d
    else forEach (d.legal.recs.filter (fun r => r.closing && !r.signed && decide (r.age ≥ 10000000))) (fun r d =>
      signRecord { r with rflags := r.rflags ||| set } (regsOf d r.conn) (lsec d) (civilNs d) d) d
  let rep := if repeats d (legalLocal d) then 8 else 0
  forEach (d.legal.recs.filter (recOpens d)) (fun r d =>
    modLegal (fun l => { l with recs := l.recs.map (fun x => if x.id = r.id then
      { x with opening := some (regsOf d r.conn), lsecO := lsec d, civilO := civilNs d, rflags := x.rflags ||| set ||| rep
               gapI := on d (0x2180 + r.conn) 2, gapE := on d (0x2180 + r.conn) 3, accI := 0, accE := 0 } else x) }) d) d

/-- Time passes for the closing readings and the powered time of a tick. -/
def legalBoundary (ns : Nat) : Dev → Dev :=
  modLegal (fun l => { l with
    tickNs := l.tickNs + ns
    recs := l.recs.map (fun r => if r.closing then { r with age := r.age + ns } else r) })

/-! ### Tariffs (R342, R343) -/

/-- A tariff takes effect. -/
def setTariff (t src : Nat) (d : Dev) : Dev :=
  let old := tariff d
  let d := clrStatus 0x2200 0 9 (put 0x2203 3 0 d)
  if t = old then d
  else raise 0x5001 noInst (old + 256 * t) (tlEntry 8 0xFFFF (natLe 1 old ++ natLe 1 t ++ natLe 1 src) (put 0x2203 1 t d))

/-- The change of tariff at a tick. -/
def tariffTick (d : Dev) : Dev :=
  let src := on d 0x2204 0
  let code := on d 0x2203 2
  let d := if src ≠ 0 then setTariff src (if d.legal.tarRestored then 2 else 1) d
    else setTariff (code + 1) (if d.legal.tarRestored then 2 else 0) d
  modLegal (fun l => { l with tarRestored := false }) d

/-- TARIFF_SAMPLE (R342, R356 step 5): every millisecond; 200 equal samples, or 10 at a restoration. -/
def tariffSample (in1 in0 : Bool) (d : Dev) : Dev :=
  if !(meters d) then d
  else
    let code := 2 * boolNat in1 + boolNat in0
    let n := if d.legal.tarCode = code then d.legal.tarCount + 1 else 1
    let d := modLegal (fun l => { l with tarCode := code, tarCount := n }) d
    let need := if d.legal.tarRestored then 10 else 200
    if n < need ∨ on d 0x2203 2 = code then d
    else
      let d := put 0x2203 2 code d
      let pend := on d 0x2204 0 = 0 ∧ code + 1 ≠ tariff d
      wrStatus 0x2200 0 9 pend (put 0x2203 3 (if pend then code + 1 else 0) d)

/-! ### Legal parameters and settings (R314, R336) -/

/-- First 8 bytes of a value. -/
def first8 (size : Nat) (v : Val) : Bytes := padTo 8 ((natLe size (valNat v)).take 8)

/-- A legal parameter or setting has taken effect: timeline, event, and what hangs on it (R314, R336). The event of a setting, which
belongs to no channel, carries INSTANCE 0xFFFF: DESIGN CHOICE (log entry 73). -/
def legalChanged (num sub size : Nat) (old new : Val) (d : Dev) : Dev :=
  let d := tlEntry 4 0xFFFF (natLe 4 num ++ natLe 1 sub ++ natLe 3 0 ++ first8 size old ++ first8 size new) d
  let d := modLegal (fun l => { l with paramNow := true, clockChanged := l.clockChanged || decide (num = 0x2205) }) d
  let d := raise 0x4801 (if num < 0x2010 then num - 0x2001 else if num < 0x2020 then num - 0x2010
    else if num < 0x2080 then num - 0x2040 else noInst) num d
  let d := if 0x2010 ≤ num ∧ num < 0x2020 then publishMetered d else d
  if (num = 0x2001 ∨ num = 0x2002) ∧ sub = 1 ∧ old ≠ new then emptyWindow (num - 0x2001) d else d

/-- BIL.PERIOD_CLOSE at a tick (R344). -/
def periodClose (d : Dev) : Dev :=
  let d := tlEntry 0xB 0xFFFF (natLe 4 (on d 0x2208 3) ++ natLe 4 (on d 0x2209 3) ++ natLe 8 d.legal.periodLsec) d
  let d := forEach [0x2208, 0x2209] (fun o d => put o 5 0 (put o 4 0 (put o 3 0 d))) d
  raise 0x5004 noInst 0 (modLegal (fun l => { l with periodLsec := legalNow d }) d)

/-! ### The billing tick (R320, R338 to R344) -/

/-- The units of the tick just ended: registers, or on a standby unit the list that waits for the active unit's. -/
def tickUnits (d : Dev) : Dev :=
  let ls := lsec d
  let t := tariff d
  let ms := d.legal.tickNs / 1000000
  let d := modLegal (fun l =>
    let f := onOpen (fun x => { x with ms := x.ms + ms, tariffs := setBit x.tariffs (t - 1) })
    { l with p15 := l.p15.map f, p5 := l.p5.map f, dem := l.dem.map f, tickNs := 0
             recs := l.recs.map (fun r => if r.opening.isSome ∧ !r.signed then { r with tariffs := setBit r.tariffs (t - 1) } else r) }) d
  let incs : List IncS := ((List.range 66).zip d.legal.chans).map (fun p =>
    { lsec := ls, m := p.1, tariff := t, imp := p.2.uImp, exp := p.2.uExp, tick := d.time.tick, tf := p.2.tf })
  let d := modLegal (fun l => { l with chans := l.chans.map (fun c =>
    { c with uImp := 0, uExp := 0, tf := 0 }) }) d
  if d.pair.role == .standby then modLegal (fun l => { l with own := l.own ++ incs }) d
  else
    let d := forEach incs addInc d
    if d.pair.role == .active then modLegal (fun l => { l with toMirror := incs }) d else d

/-- E_DELIV of the connectors' contexts (R323). -/
def deliverTick (d : Dev) : Dev :=
  forEach (List.range 64) (fun c d =>
    let n := on d (oCon c 0x51) 0
    if n < 256 then
      let r := on d (0x2100 + c) 1
      let i0 := ((d.ses.ctx.getD n {}).i0).getD r
      let d := { d with ses := { d.ses with ctx := modAt d.ses.ctx n (fun x => { x with i0 := some i0 }) } }
      let v := satU 31 ((r - i0) / 1000)
      putIf (oCon c 0x20) 7 v d
    else d) d

/-- Deviation check of a channel on a standby unit over a 15-min interval (R328), and the sums of the next interval start. -/
def deviationOf (m : Nat) (d : Dev) : Dev :=
  let far := fun (a b : Nat) => decide (1000 * ((a : Int) - b).natAbs > 2 * b + 16000)
  let c := chanS d m
  let d := modCh m (fun c => { c with ownImp := 0, ownExp := 0, mirImp := 0, mirExp := 0, devDue := none }) d
  if far c.ownImp c.mirImp || far c.ownExp c.mirExp then raise 0x4A06 m 0 (setStatus 0x2000 0 14 d) else d

/-- The own increments of a channel that wait for mirrored ones of ticks before an LSEC. -/
def ownBefore (d : Dev) (m lsecEnd : Nat) : Bool := d.legal.own.any (fun i => i.m == m && decide (i.lsec < lsecEnd))

/-- A 15-min interval closes: each channel is checked once the mirrored increments of its ticks have come (R328). -/
def pairDeviation (d : Dev) : Dev :=
  if d.pair.role == .standby then
    forEach (List.range 66) (fun m d =>
      if ownBefore d m (lsec d) then modCh m (fun c => { c with devDue := some (lsec d) }) d else deviationOf m d) d
  else modLegal (fun l => { l with chans := l.chans.map (fun c => { c with ownImp := 0, ownExp := 0, mirImp := 0, mirExp := 0, devDue := none }) }) d

/-- The check of a channel falls due once no own increment of its interval waits. -/
def deviationDue (m : Nat) (d : Dev) : Dev :=
  match (chanS d m).devDue with
  | some e => if ownBefore d m e then d else deviationOf m d
  | none => d

/-- A tick whose own and mirrored increments are both known (R328); where it belongs to the next interval, the last one's check comes
first. -/
def devAdd (m lsecT : Nat) (own mir : Nat × Nat) (d : Dev) : Dev :=
  let d := match (chanS d m).devDue with
    | some e => if e ≤ lsecT then deviationOf m d else d
    | none => d
  modCh m (fun c => { c with ownImp := c.ownImp + own.1, ownExp := c.ownExp + own.2
                             mirImp := c.mirImp + mir.1, mirExp := c.mirExp + mir.2 }) d

/-- Checkpoint of the registers at the close of a 15-min interval (R88). -/
def checkpoint (d : Dev) : Dev :=
  modLegal (fun l => { l with ckpt := (List.range 66).map (regsOf d), journal := [], paged := 0, ckptLsec := lsec d }) d

/-- An increment in a journal page: LSEC, channel, tariff, import, export. The form of journal entries and their TYPE, 0x60, are the
model's own: DESIGN CHOICE (log entry 74). -/
def incBytes (i : IncS) : Bytes := natLe 8 i.lsec ++ natLe 1 i.m ++ natLe 1 i.tariff ++ natLe 4 i.imp ++ natLe 4 i.exp

/-- The increments of a journal entry, behind its LSEC. -/
def incsOf : Nat → Bytes → List IncS
  | 0, _ => []
  | n + 1, b => if b.length < 18 then []
    else { lsec := fieldLe b 0 8, m := byteAt b 8, tariff := byteAt b 9, imp := fieldLe b 10 4, exp := fieldLe b 14 4 } :: incsOf n (b.drop 18)

/-- Cut into entries of at most 200 increments. -/
def incChunks : Nat → List IncS → List (List IncS)
  | 0, l => [l]
  | n + 1, l => if l.length ≤ 200 then [l] else l.take 200 :: incChunks n (l.drop 200)

/-- The increments journaled since the last page go to the journal partition, with the LSEC of the tick (R355, R433). -/
def pageJournal (d : Dev) : Dev :=
  let l := d.legal.journal.drop d.legal.paged
  let at' := lsec d
  let d := modLegal (fun x => { x with paged := x.journal.length }) d
  forEach (incChunks (l.length / 200) l) (fun c => recPost 5 0x60 (natLe 8 at' ++ c.flatMap incBytes)) d

/-- The journal entries that stand in the legal partition. -/
def journalEntries (d : Dev) : List Bytes :=
  (part d 5).pages.flatMap (fun g => ((g.ents.take g.stored).filter (fun e => e.typ == 0x60)).map (·.body))

/-- The increments journaled since the last checkpoint that stand in the legal partition (R88). -/
def journalPages (d : Dev) : List IncS :=
  ((journalEntries d).flatMap (fun b => incsOf 200 (b.drop 8))).filter (fun i => decide (d.legal.ckptLsec ≤ i.lsec))

/-- The newest LSEC found in the checkpoint and the journal pages (R356). -/
def pagedLsec (d : Dev) : Nat := ((journalEntries d).map (fun b => fieldLe b 0 8)).foldl max d.legal.ckptLsec

/-- Close the intervals whose END has come, or all at a civil step; `due` is the Cl that this tick would have shown without a step.
An interval that a step closes before its END by that count is short (R340, R341, R357). -/
def closeDue (rtype : Nat) (cl due : Int) (step : Bool) (d : Dev) : Dev :=
  forEach (List.range (intsOf d rtype).length) (fun i d =>
    let x := (intsOf d rtype).getD i {}
    if x.isOpen && (decide (x.endCl ≤ cl) || step) then
      closeInt rtype i (if step then 4 + (if x.endCl ≤ due then 0 else 2) else 0) (lsec d) d
    else d) d

/-- Open the intervals that are not open. -/
def openDue (rtype rfl : Nat) (cl : Int) (d : Dev) : Dev :=
  if rtype = 0x22 ∧ on d 0x2207 0 = 0 then d
  else forEach (List.range (intsOf d rtype).length) (fun i d =>
    if ((intsOf d rtype).getD i {}).isOpen then d else openInt rtype i rfl cl d) d

/-- A decimal digit string of `n` digits. -/
def decDigits : Nat → Nat → Bytes
  | 0, _ => []
  | n + 1, v => decDigits n (v / 10) ++ [BitVec.ofNat 8 (48 + v % 10)]

/-- `n` uppercase hexadecimal digits. -/
def hexDigits : Nat → Nat → Bytes
  | 0, _ => []
  | n + 1, v => hexDigits n (v / 16) ++ [BitVec.ofNat 8 (if v % 16 < 10 then 48 + v % 16 else 55 + v % 16)]

/-- Name of a channel on the display. -/
def chanName (m : Nat) : Bytes := if 64 ≤ m then ascii "IN" ++ decDigits 1 (m - 64) else ascii "C" ++ decDigits 2 m

/-- The register lines of the display: channel, subindex (R358). -/
def displayRegs (d : Dev) : List (Nat × Nat) :=
  let ms := ([64, 65].filter (fun m => metered d (m - 64))) ++ ((List.range 64).filter (fun c => on d (0x2040 + c) 1 != 0))
  ms.flatMap (fun m => (if on d 0x220E 2 = 1 then [1, 2, 3, 4, 5, 6, 7, 8, 9, 10] else [1, 2]).map (fun s => (m, s)))

/-- Text between channel and value. -/
def regMark (s : Nat) : Bytes :=
  if s = 1 then ascii " +I " else if s = 2 then ascii " -E "
  else if s ≤ 6 then ascii " +I" ++ decDigits 1 (s - 2) ++ ascii " " else ascii " -E" ++ decDigits 1 (s - 6) ++ ascii " "

/-- A register is being recomputed (R88). -/
def recalcing (d : Dev) (m s : Nat) : Bool := d.guard.recalc.contains (m, s)

/-- The display line of this tick, with its line end (R358). -/
def displayTick (d : Dev) : Dev :=
  let rs := displayRegs d
  let n := 2 + rs.length
  let i := d.legal.item % n
  let p : Bytes × Dev :=
    if i = 0 then (ascii "CHK " ++ hexDigits 4 (on d 0x2202 0 / 65536) ++ ascii " " ++ hexDigits 4 (on d 0x2202 0 % 65536), d)
    else if i = 1 then (ascii "TAR T" ++ decDigits 1 (tariff d), d)
    else
      let r := rs.getD (i - 2) (0, 1)
      let key := 16 * r.1 + r.2
      let wh := if recalcing d r.1 r.2 then (alGet d.legal.lastShown key).getD 0 else on d (0x2100 + r.1) r.2 / 65536
      (chanName r.1 ++ regMark r.2 ++ decDigits 11 (wh / 1000) ++ ascii "." ++ decDigits 3 (wh % 1000) ++ ascii " kWh",
        modLegal (fun l => { l with lastShown := alSet l.lastShown key wh }) d)
  let d := emit (.display (p.1 ++ [0x0D, 0x0A])) p.2
  let d := if sealOpen d then emit (.display (ascii "SEAL OPEN" ++ [0x0D, 0x0A])) d else d
  let shown := d.legal.shown + 1
  modLegal (fun l => if shown ≥ on d 0x220E 1 then { l with item := (i + 1) % n, shown := 0 } else { l with item := i, shown := shown }) d

/-- The legal time does not follow the last tick's (R340, R341). -/
def clockStepped (d : Dev) : Bool :=
  match d.legal.cl with
  | some p => d.legal.clockChanged || decide ((legalLocal d - p - 1).natAbs ≥ 2)
  | none => false

/-- An interval of the kind closes at this tick. -/
def closesNow (d : Dev) (rtype : Nat) : Bool :=
  (intsOf d rtype).any (fun x => x.isOpen && (decide (x.endCl ≤ legalLocal d) || clockStepped d))

/-- The levels beyond the billing tick's own that swap at a billing-tick token (R35): the demand interval's where one closes, the
profile interval's where a 15-min interval closes. Where no demand interval is open, the demand interval's level swaps too:
DESIGN CHOICE (log entry 37), R35 names only a tick that closes one. -/
def tickLevels (d : Dev) : List Nat :=
  (if closesNow d 0x23 || d.legal.dem.all (fun x => !x.isOpen) then [6] else []) ++ (if closesNow d 0x21 then [7] else [])

/-- BILLING_TICK: what a billing-tick token does in the legal core, with the levels swapped at that token. -/
def billTick (d : Dev) : Dev :=
  if !(meters d) || !d.legal.tickDue then d
  else
    let moved := ((d.legal.chans.take 64).filter (fun c => c.uImp != 0 || c.uExp != 0)).length
    let d := modLegal (fun l => { l with tickDue := false }) (tickUnits d)
    let d := put 0x2201 0 (lsec d + 1) d
    let cl := legalLocal d
    let prev := d.legal.cl
    let step := clockStepped d
    let d := if step then
        raise 0x5002 noInst (ofS 64 (cl - prev.getD cl - 1))
          (tlEntry 3 0xFFFF (natLe 8 (d.legal.civilPrev + 1000000000) ++ natLe 8 (civilNs d)) d)
      else d
    let p15Closed := closesNow d 0x21
    let due := prev.getD (cl - 1) + 1
    let d := closeDue 0x23 cl due step (closeDue 0x22 cl due step (closeDue 0x21 cl due step d))
    let d := if p15Closed then checkpoint (pairDeviation d) else d
    let rfl' := if step then 4 else 0
    let d := modLegal (fun l => { l with cl := some cl, civilPrev := civilNs d }) d
    let d := tariffTick d
    let d := openDue 0x23 rfl' cl (openDue 0x22 rfl' cl (openDue 0x21 rfl' cl d))
    let d := wrStatus 0x2200 0 1 (repeats d cl) d
    let d := modLegal (fun l => { l with highCivil := some (match l.highCivil with | some h => max h cl | none => cl) }) d
    let d := if d.legal.paramNow then rflagAll 32 d else d
    let d := if sealOpen d then rflagAll 128 d else d
    let d := forEach (List.range 66) auxFlags d
    let d := ringPass 3 (if moved = 0 then [] else List.replicate (moved - 1) .part ++ [.energy]) deliverTick id (recTick step d)
    let d := displayTick (publishIntake d)
    let d := if lsec d % 10 = 0 then pageJournal d else d
    modLegal (fun l => { l with checkTicks := l.checkTicks + 1, paramNow := false, clockChanged := false }) d

/-! ### Mirrored increments (R145, R328) -/

/-- A BILLING record of the active unit arrives on a standby unit. -/
def billMirror (i : IncS) (d : Dev) : Dev :=
  match d.legal.own.find? (fun o => o.tick == i.tick && o.m == i.m) with
  | none => d
  | some o =>
    let d := addInc { i with lsec := o.lsec } (modLegal (fun l => { l with own := l.own.filter (fun x => !(x.tick == i.tick && x.m == i.m)) }) d)
    finishWaits i.m (deviationDue i.m (devAdd i.m o.lsec (o.imp, o.exp) (i.imp, i.exp) d))

/-- TAKEOVER in the intervals and the open record of an increment (R328). -/
def markTakeover (i : IncS) (d : Dev) : Dev :=
  auxFlags i.m (modLegal (fun l => { l with recs := l.recs.map (fun r =>
    if r.conn = i.m ∧ !r.signed then { r with iflags := setBit r.iflags 7 } else r) })
    (tickInts i (fun x => { x with iflags := setBit x.iflags 7 }) d))

/-- A takeover: the own increments whose records had not come are added, those of the tick in progress follow at its end, TAKEOVER marks
the intervals of both; the pulse accumulators start at 0 (R328). -/
def legalTakeover (d : Dev) : Dev :=
  let own := d.legal.own
  let d := modLegal (fun l => { l with own := [], pulses := l.pulses.map (fun p => { p with a := 0, back := false }) }) d
  let d := forEach own (fun i d => addInc i (markTakeover i d)) d
  if meters d then forEach (List.range 66) (fun m d => finishWaits m (intFlag m 7 d)) d else d

/-! ### Recomputation of a register (R88) -/

/-- A register failed its check: reads are refused as busy until it is recomputed. -/
def recalcStart (m s : Nat) (d : Dev) : Dev :=
  if d.guard.recalc.contains (m, s) then d else { d with guard := { d.guard with recalc := d.guard.recalc ++ [(m, s)] } }

/-- The part of an increment that a subindex takes. -/
def incPart (s : Nat) (i : IncS) : Nat :=
  if s = 1 then i.imp else if s = 2 then i.exp
  else if s = 2 + i.tariff ∧ s ≤ 6 then i.imp else if s = 6 + i.tariff ∧ 7 ≤ s then i.exp else 0

/-- A register as checkpoint plus journal. -/
def recomputed (l : LegalS) (m s : Nat) (js : List IncS) : Nat :=
  (l.ckpt.getD m []).getD (s - 1) 0 + ((js.filter (fun i => i.m == m)).map (incPart s)).foldl (· + ·) 0

/-- The journal of a recomputation: entries whose LSEC is listed failed their check as well and come from the legal partition;
one that stands in none of its pages is a free value (log entry 6). -/
def soundJournal (d : Dev) (lost : List Nat) : List IncS :=
  d.legal.journal.map (fun i =>
    if !(lost.contains i.lsec) then i
    else match (journalPages d).find? (fun p => p.lsec == i.lsec && p.m == i.m) with
      | some p => p
      | none => { i with imp := (Config.lostIncrement i.lsec i.m).1, exp := (Config.lostIncrement i.lsec i.m).2 })

/-- The recomputed register and what its completion leaves (R88). -/
def recalcDone (m s : Nat) (lost : List Nat) (d : Dev) : Dev :=
  let d := put (0x2100 + m) s (recomputed d.legal m s (soundJournal d lost)) d
  let d := { d with guard := { d.guard with recalc := d.guard.recalc.filter (· != (m, s)) } }
  let d := tlEntry 0xA m (natLe 1 s) (setStatus 0x1C0 0 4 (incr 32 0x1C5 0 d))
  eachInt m (fun x => { x with rflags := setBit x.rflags 6 }) (fun r => { r with rflags := setBit r.rflags 6 }) d

/-- BILL_RECALC (R88): the register has failed its check, at a word address, and its recomputation starts; or the recomputation
completes. The error is recorded when it is detected (R89). -/
def billRecalc (m s addr : Nat) (lost : List Nat) (done : Bool) (d : Dev) : Dev :=
  if !(meters d) || decide (66 ≤ m) || decide (s = 0) || decide (10 < s) then d
  else
    let d := if d.guard.recalc.contains (m, s) then d
      else recalcStart m s (put 0x1C6 3 d.time.micro (put 0x1C6 2 addr (put 0x1C6 1 8 d)))
    if done then recalcDone m s lost d else d

/-! ### Seal and tamper (R337) -/

/-- BIL_SEAL: MET_SEAL changed, debounced. -/
def bilSeal (asserted : Bool) (d : Dev) : Dev :=
  if !(running d) || sealOpen d == asserted then d
  else
    let d := modLegal (fun l => { l with sealWas := asserted }) (wrStatus 0x2200 0 0 asserted d)
    let d := raise 0x5005 noInst (boolNat asserted) (tlEntry 6 0xFFFF (natLe 1 (boolNat asserted)) d)
    if asserted then rflagAll 128 d else d

/-- State and latched bit of a tamper input. -/
def tamperLatch (i : Nat) (st : Bool) (d : Dev) : Dev :=
  put 0x220D 2 (setBit (on d 0x220D 2) i) (put 0x220D 1 (putBit (on d 0x220D 1) i st) d)

/-- BIL_TAMPER: an input changes. While the device does not run, the keep domain logs it, `ms` after the snapshot. -/
def bilTamper (i : Nat) (st : Bool) (ms : Nat) (d : Dev) : Dev :=
  if 2 ≤ i then d
  else if running d then
    if (on d 0x220D 1).testBit i = st then d
    else raise 0x5203 i 0 (setStatus 0x2200 0 4 (tlEntry 7 0xFFFF (natLe 1 i ++ natLe 1 (boolNat st)) (tamperLatch i st d)))
  else modLegal (fun l => { l with outTamper := l.outTamper ++ [(i, st, ms)] }) d

/-! ### Supply cuts (R355, R356) -/

/-- A record in the snapshot, with the gap estimates so far. -/
def recCut (d : Dev) (r : SRec) : SRec := { recFill d r with accI := (recGap d r).1, accE := (recGap d r).2, gapI := 0, gapE := 0 }

/-- The snapshot: the units of the running tick become a final increment; a billing tick whose token has been issued is carried out
first, and a parameter that took effect in the tick marks its intervals (R357). Before the legal core meters, the snapshot of the
previous run stands, and its time counts on (R355, R507). -/
def legalSnapshot (d : Dev) : Dev :=
  if d.legal.due then
    modLegal (fun l => { l with due := false, again := none, snap := l.again.map (fun p =>
      { p.1 with fMs := p.1.fMs + p.2 + d.startup.t / 1000000 }) }) d
  else if !((on d 0x2200 0).testBit 10) then d
  else
    let d := billTick d
    let ms := d.legal.tickNs / 1000000
    let d := tickUnits (if d.legal.paramNow then rflagAll 32 d else d)
    let own := d.legal.own
    let d := forEach (List.range 66) finishWaits (forEach own addInc (modLegal (fun l => { l with own := [] }) d))
    clrStatus 0x2200 0 10 (modLegal (fun l => { l with snap := some {
      lsec := lsec d, fMs := ms, civil := civilNs d, regs := (List.range 66).map (regsOf d), chans := l.chans, p15 := l.p15, p5 := l.p5
      dem := l.dem, recs := l.recs.map (recCut d), tariff := tariff d, highCivil := l.highCivil, journal := l.journal, ckpt := l.ckpt
      recalc := d.guard.recalc } }) d)

/-- An open interval at a restoration: closed when its END was passed, else it continues with PF. -/
def restoreInt (rtype i lsnap : Nat) (cl : Int) (d : Dev) : Dev :=
  let x := (intsOf d rtype).getD i {}
  if !x.isOpen then d
  else
    let x := { x with rflags := x.rflags ||| 1 }
    let d := setInt rtype i x d
    if x.endCl ≤ cl then openInt rtype i 0 cl (closeInt rtype i 0 lsnap d) else d

/-- Session records still open at a restoration, on a device that nobody stood in for, are closed and stored with the snapshot as the
closing reading (R356 step 6); no context waits for them. -/
def closeOpenRecs (o : OrphanS) (d : Dev) : Dev :=
  let l := d.legal.recs.filter (fun r => !r.signed)
  let d := forEach l (fun r d => signRecord { r with
    closing := true, cause := 0, rflags := setBit r.rflags 0
    gapI := on d (0x2180 + r.conn) 2, gapE := on d (0x2180 + r.conn) 3 } (o.regs.getD r.conn []) o.lsec o.civil d) d
  publishPending (modLegal (fun x => { x with recs := [] }) d)

/-- What becomes of the open session records of a restored snapshot once the role is known: a SINGLE unit, or a unit that becomes
active after both were lost, closes them; a standby unit takes the records of its partner (R354, R356 step 6). -/
def orphanToken (d : Dev) : Dev :=
  match d.legal.orphans with
  | none => d
  | some o =>
    let done := modLegal (fun l => { l with orphans := none })
    if (d.pair.role = .active ∨ d.pair.role = .single) ∧ meters d then closeOpenRecs o (done d)
    else if d.pair.role = .standby then publishPending (modLegal (fun l => { l with recs := [] }) (done d))
    else d

/-- The tamper changes of an outage are logged with their own LSEC (R337, R338). -/
def logTampers (lsnap fMs : Nat) (d : Dev) : Dev :=
  let d := forEach d.legal.outTamper (fun t d =>
    raise 0x5203 t.1 0 (setStatus 0x2200 0 4 (tlEntryAt (lsnap + (fMs + t.2.2) / 1000) 0 7 0xFFFF (natLe 1 t.1 ++ natLe 1 (boolNat t.2.1))
      (tamperLatch t.1 t.2.1 d)))) d
  modLegal (fun l => { l with outTamper := [] }) d

/-- Restoration from the snapshot, `tMs` after it. -/
def restoreSnap (s : SnapS) (tMs : Nat) (d : Dev) : Dev :=
  let d := put 0x2201 0 (s.lsec + max 1 ((s.fMs + tMs) / 1000)) d
  let d := forEach ((List.range 66).zip s.regs) (fun p => putRegs p.1 p.2) d
  let d := modLegal (fun l => { l with
    chans := s.chans, p15 := s.p15, p5 := s.p5, dem := s.dem, recs := s.recs, highCivil := s.highCivil, journal := s.journal
    ckpt := s.ckpt, tarRestored := true, tarCount := 0, snap := none, again := some (s, tMs)
    paged := s.journal.length
    orphans := if s.recs = [] then none else some { lsec := s.lsec, civil := s.civil, regs := s.regs } }) d
  let d := { d with guard := { d.guard with recalc := s.recalc } }
  let d := forEach s.recalc (fun p => eachInt p.1 (fun x => { x with rflags := setBit x.rflags 6 }) (fun r => { r with rflags := setBit r.rflags 6 })) d
  let d := put 0x2203 2 (s.tariff - 1) (put 0x2203 1 s.tariff d)
  let d := tlEntryAt s.lsec s.civil 1 0xFFFF (natLe 4 s.fMs) d
  let d := logTampers s.lsec s.fMs d
  let d := tlEntry 2 0xFFFF (natLe 4 (tMs / 1000) ++ natLe 1 1) d
  let d := raise 0x5003 noInst (tMs / 1000) (setStatus 0x2200 0 2 d)
  let cl := legalLocal d
  let d := forEach [0x21, 0x22, 0x23] (fun t d => forEach (List.range (intsOf d t).length) (fun i => restoreInt t i s.lsec cl) d) d
  modLegal (fun l => { l with recs := l.recs.map (fun r => if r.signed then r else { r with rflags := setBit r.rflags 0 }) }) d

/-- Restoration without the snapshot: checkpoint and journal pages (R356 step 2). -/
def restoreLost (d : Dev) : Dev :=
  let js := journalPages d
  let newest := pagedLsec d
  let l := d.legal
  let d := forEach (List.range 66) (fun m => putRegs m ((List.range 10).map (fun i => recomputed l m (i + 1) js))) d
  let d := put 0x2201 0 (newest + 1) d
  let d := modLegal (fun x => { x with journal := js, paged := js.length, chans := List.replicate 66 {}, recs := [], snap := none
                                       p15 := List.replicate 66 {}, p5 := List.replicate 66 {}, dem := List.replicate 2 {}
                                       outTamper := [], tarRestored := true, tarCount := 0, highCivil := some (legalLocal d) }) d
  let d := raise 0x5401 noInst 0 (setStatus 0x2200 0 3 (tlEntry 9 0xFFFF (natLe 8 newest) d))
  let cl := legalLocal d
  openDue 0x23 16 cl (openDue 0x22 16 cl (openDue 0x21 16 cl d))

/-- The legal core starts: its check value over the loaded code, once more after a reload, against the one in the signed
image (R334); restoration; FW_CHANGE (R335). `keep` tells that the keep domain is intact, `tMs` the time of the outage. -/
def legalStart (value again expected version : Nat) (keep : Bool) (tMs : Nat) (d : Dev) : Dev :=
  let d := put 0x2202 0 expected (modLegal (fun l => { l with
    intakes := List.replicate 2 {}, clockChanged := false, paramNow := false, tickDue := false, tickNs := 0
    own := [], waits := [], toMirror := [], item := 0, shown := 0, lastShown := [], checkTicks := 0
    pulses := (List.range 4).map (fun x => { src := on d (0x2008 + x) 1, dir := on d (0x2008 + x) 2 })
    chans := l.chans.map (fun c => { c with uImp := 0, uExp := 0, msImp := 0, msExp := 0, majImp := 0, majExp := 0,
                                            ownImp := 0, ownExp := 0, mirImp := 0, mirExp := 0, devDue := none }) }) d)
  let d := forEach (List.range 66) (fun m => forEach [2, 3, 5] (fun i => putIf (0x2180 + m) i 0)) d
  if value ≠ expected ∧ again ≠ expected then
    raise 0x5402 noInst again (setStatus 0x2200 0 6 (tlEntry 0xC 0xFFFF (natLe 4 again ++ natLe 4 expected) d))
  else
    let d := match keep, d.legal.snap with
      | true, some s => restoreSnap s tMs d
      | _, _ =>
        if pagedLsec d = 0 ∧ d.legal.journal = [] ∧ on d 0x220C 1 = 0 then logTampers (lsec d) 0 (modLegal (fun l => { l with tarRestored := true }) d)
        else restoreLost d
    let d := match d.legal.lastCheck with
      | some c => if c = expected then d else tlEntry 5 0xFFFF (natLe 4 c ++ natLe 4 expected ++ natLe 4 version) d
      | none => d
    let d := forEach (List.range 66) auxFlags d
    publishMetered (modLegal (fun l => { l with lastCheck := some expected, due := true }) d)

/-- The legal core meters: READY; the intervals that are not open open with their END from the current Cl (R340, R356, R499). -/
def legalReady (d : Dev) : Dev :=
  if d.legal.due then
    let cl := d.legal.cl.getD 0
    let d := openDue 0x23 0 cl (openDue 0x22 0 cl (openDue 0x21 0 cl d))
    let d := forEach (List.range 66) auxFlags d
    publishIntake (setStatus 0x2200 0 10 (modLegal (fun l => { l with due := false, again := none, tickNs := 0 }) d))
  else d

/-- LEGAL_CHECK (R334): the value over the running code every 3,600 ticks; on a mismatch the procedure of a supply cut, a
reload and a restart of the legal core, `tMs` later, with the value `again` over the reloaded code. -/
def legalCheck (value again tMs : Nat) (d : Dev) : Dev :=
  if !(meters d) || decide (d.legal.checkTicks < 3600) then d
  else
    let d := modLegal (fun l => { l with checkTicks := 0 }) d
    let want := on d 0x2202 0
    if value = want then d
    else
      let d := legalStart again again want 0 true tMs (tlEntry 0xC 0xFFFF (natLe 4 value ++ natLe 4 want) (legalSnapshot d))
      legalReady (modLegal (fun l => { l with orphans := none }) d)

end Sys2Proof.Machine
end

