-- ==== Sys2Proof/Machine/Memory.lean ====
section
/-! DEFINITION. The device's addressed memory, reached through the DMA address windows (R425): cells in one canonical form,
addresses strictly rising, no cell equal to what an unlisted address reads as. -/

namespace Sys2Proof.Machine

/-- The cells of the memory. -/
abbrev Mem := List Host.Cell

/-- What an address that nothing has written reads as: 0 (DESIGN CHOICE, log entry 4). -/
def memDefault : Byte := 0

/-- Read one byte. -/
def memRead : Mem → Nat → Byte
  | [], _ => memDefault
  | (a, b) :: m, k => if a = k then b else memRead m k

/-- Insert a cell, addresses kept rising. -/
def memIns : Mem → Nat → Byte → Mem
  | [], k, v => [(k, v)]
  | (a, b) :: m, k, v => if k < a then (k, v) :: (a, b) :: m else if k = a then (k, v) :: m else (a, b) :: memIns m k v

/-- Remove a cell. -/
def memDel (m : Mem) (k : Nat) : Mem := m.filter (fun p => p.1 != k)

/-- Write one byte, keeping the canonical form. -/
def memWrite (m : Mem) (k : Nat) (v : Byte) : Mem := if v = memDefault then memDel m k else memIns m k v

/-- Addresses above `lo` rise strictly and no cell holds the default. -/
def memWfFrom : Option Nat → Mem → Bool
  | _, [] => true
  | lo, (a, b) :: m =>
    (match lo with | some l => decide (l < a) | none => true) && decide (b ≠ memDefault) && memWfFrom (some a) m

/-- The canonical form. -/
def Memory.wf (m : Mem) : Bool := memWfFrom none m

/-- Read and write byte strings. -/
def memReadN (m : Mem) (k : Nat) : Nat → Bytes
  | 0 => []
  | n + 1 => memRead m k :: memReadN m (k + 1) n

def memWriteN (m : Mem) (k : Nat) : Bytes → Mem
  | [] => m
  | b :: bs => memWriteN (memWrite m k b) (k + 1) bs

end Sys2Proof.Machine
end

