-- ==== Sys2Proof/Machine/Dma.lean ====
section
/-! DEFINITION. The DMA engine (spec/18 R420 to R431): rings, descriptors, the address windows, the three transfers,
completion, bad descriptors and stops. -/

namespace Sys2Proof.Machine

/-! ### Address windows (R425) -/

/-- The window of an address: its first address, its length, readable, writable. -/
def window (a : Nat) : Option (Nat × Nat × Bool × Bool) :=
  if a < 0x3000000 then some (0, 0x3000000, true, true)
  else if 0x10000000 ≤ a ∧ a < 0x10000000 + 50 * 0x10000 then some (a / 0x10000 * 0x10000, 0x10000, true, false)
  else if 0x11000000 ≤ a ∧ a < 0x11000000 + 50 * 0x10000 then some (a / 0x10000 * 0x10000, 0x10000, false, true)
  else if 0x20000000 ≤ a ∧ a < 0x20010000 then some (0x20000000, 0x10000, true, true)
  else if 0x40000000 ≤ a ∧ a < 0x40010000 then some (0x40000000, 0x10000, true, true)
  else if 0x50000000 ≤ a ∧ a < 0x50010000 then some (0x50000000, 0x10000, true, true)
  else if 0x60000000 ≤ a ∧ a < 0x60010000 then some (0x60000000, 0x10000, true, true)
  else none

/-- A range lies within one window that allows the access. -/
def rangeOk (write : Bool) (a n : Nat) : Bool :=
  match window a with
  | some (b, l, r, w) => decide (a + n ≤ b + l) && (if write then w else r)
  | none => false

/-- One byte as a descriptor reads it: a receive buffer holds the frame latched at the sample token. -/
def dmaByte (d : Dev) (m : Mem) (a : Nat) : Byte :=
  if 0x10000000 ≤ a ∧ a < 0x10000000 + 50 * 0x10000 then ((laneS d ((a - 0x10000000) / 0x10000)).cur).getD (a % 0x10000) 0
  else memRead m a

def dmaBytes (d : Dev) (m : Mem) (a n : Nat) : Bytes := (List.range n).map (fun i => dmaByte d m (a + i))

/-! ### The transfers (R423, R426, R427) -/

/-- Element size and group count of DEINTERLEAVE; its rules (R426). P0 bits 31:16, which R426 gives no meaning, are not looked at:
DESIGN CHOICE (log entry 67). -/
def deintOk (x : Desc) : Bool :=
  let es := x.p0 % 256
  let g := x.p0 / 256 % 256
  (es == 1 || es == 2 || es == 4 || es == 8) && decide (1 ≤ g) && decide (g ≤ 128) && decide (x.len % (es * g) = 0) &&
    decide (x.p1 % es = 0) && decide (x.len / g ≤ x.p1)

/-- The rules of BITPLANE (R427). P0 bits 7:6 and 31:16, which R427 gives no meaning, are not looked at: DESIGN CHOICE (log entry
67). -/
def bitOk (x : Desc) : Bool :=
  let w := x.p0 % 64
  let es := x.p0 / 256 % 256
  (es == 1 || es == 2 || es == 4) && decide (1 ≤ w) && decide (w ≤ 32) && decide (x.len % es = 0) &&
    decide (x.len / es % 8 = 0) && decide (w ≤ 8 * es) && decide (x.len / es / 8 ≤ x.p1)

/-- The writes of a transfer: address and bytes, from the source bytes. -/
def dmaWrites (x : Desc) (src : Bytes) : List (Nat × Bytes) :=
  match x.op with
  | 1 => [(x.dst, src)]
  | 2 =>
    let es := x.p0 % 256
    let g := x.p0 / 256 % 256
    (List.range (x.len / (es * g))).flatMap (fun j => (List.range g).map (fun k =>
      (x.dst + k * x.p1 + j * es, slice src ((j * g + k) * es) es)))
  | 3 =>
    let w := x.p0 % 64
    let es := x.p0 / 256 % 256
    let n := x.len / es
    (List.range w).map (fun b => (x.dst + b * x.p1, (List.range (n / 8)).map (fun i =>
      BitVec.ofNat 8 (maskOf ((List.range 8).filter (fun t => (fieldLe src ((8 * i + t) * es) es).testBit b))))))
  | _ => []

/-- The cause with which a descriptor fails before or while it moves data; 0 none (R430). -/
def descCause (x : Desc) : Nat :=
  if x.bad then 3
  else if x.op > 3 then 4
  else if x.flags % 256 ≥ 2 ∨ x.rsv ≠ 0 then 6
  else if x.op = 0 then (if x.p0 = 0 ∧ x.p1 = 0 then 0 else 5)
  else if x.len = 0 ∨ x.len > 2 ^ 24 then 5
  else if (x.op = 1 ∧ (x.p0 ≠ 0 ∨ x.p1 ≠ 0)) ∨ (x.op = 2 ∧ !(deintOk x)) ∨ (x.op = 3 ∧ !(bitOk x)) then 5
  else if !(rangeOk false x.src x.len) then 1
  else 0

/-- Start a descriptor: its reads, and its writes as far as no bus error arises. -/
def descStart (d : Dev) (x : Desc) (m : Mem) : Mem × Nat :=
  let c := descCause x
  if c ≠ 0 ∨ x.op = 0 then (m, c)
  else
    let ws := dmaWrites x (dmaBytes d m x.src x.len)
    ws.foldl (fun (a : Mem × Nat) w =>
      if a.2 ≠ 0 then a else if rangeOk true w.1 w.2.length && window w.1 == window x.dst then (memWriteN a.1 w.1 w.2, 0) else (a.1, 2)) (m, 0)

/-! ### Rings (R420 to R422, R428 to R431) -/

/-- The 32 bytes of a descriptor with the STATUS and CAUSE that the engine has written (R423). Where in the SRAM the array of a ring
lies is not stated; its descriptors stand in the ring's own array: DESIGN CHOICE (log entry 67). -/
def descBytes (x : Desc) (status cause : Nat) : Bytes :=
  natLe 1 x.op ++ natLe 1 x.flags ++ natLe 1 status ++ natLe 1 cause ++ natLe 4 x.len ++ natLe 4 x.src ++ natLe 4 x.dst ++
    natLe 4 x.p0 ++ natLe 4 x.p1 ++ natLe 4 x.tag ++ natLe 4 x.rsv

/-- Write a descriptor into its place of the ring's array. -/
def putSlot (r i : Nat) (b : Bytes) (d : Dev) : Dev := modRing r (fun y => { y with slots := alSet y.slots i b }) d

/-- Start the next posted descriptor of a ring: in ring order, a FENCE only once all earlier ones have completed (R428). One of the
device's own moves its data when it comes to the head. -/
def startNext (d : Dev) : List DescS → Bool → Mem → List DescS × Mem
  | [], _, m => ([], m)
  | x :: l, first, m =>
    if x.started || x.own.isSome then
      let o := startNext d l false m
      (x :: o.1, o.2)
    else if x.desc.flags.testBit 0 && !first then (x :: l, m)
    else
      let s := descStart d x.desc m
      ({ x with started := true, cause := s.2 } :: l, s.1)

/-- The ring is not stopped, and no stop is due. -/
def ringRuns (d : Dev) (r : Nat) : Bool := !(oflag d (0x3200 + r) 7) && !(ring d r).stopReq

/-- One descriptor of a ring that is not stopped starts, if one may; the device's own at the head complete. -/
def pumpOne (r : Nat) (a : Dev × Mem) : Dev × Mem :=
  if ringRuns a.1 r then
    let d := ringTake r (ring a.1 r).q a.1
    let o := startNext d (ring d r).q true a.2
    (modRing r (fun x => { x with q := o.1 }) d, o.2)
  else a

/-- Rings of one class are served round-robin, one descriptor at a time, until no more may start (R428). -/
def serveRings (l : List Nat) : Nat → Dev × Mem → Dev × Mem
  | 0, a => a
  | n + 1, a => serveRings l n (l.foldl (fun a r => pumpOne r a) a)

/-- The engine serves the rings of a class. -/
def serveClass (l : List Nat) (d : Dev) (m : Mem) : Dev × Mem :=
  serveRings l (l.foldl (fun n r => max n (ring d r).q.length) 0) (d, m)

/-- The engine serves one ring. -/
def pump (r : Nat) (d : Dev) (m : Mem) : Dev × Mem := serveClass [r] d m

/-- A producer posts a descriptor and the engine serves the ring. That a ring carries only its own traffic binds the producers, which
the sender of the row stands for; the engine looks at no purpose (R420; log entry 67). -/
def dmaPost (r : Nat) (x : Desc) (d : Dev) (m : Mem) : Dev × Mem :=
  let sz := ringSize d r
  if !(running d) || decide (16 ≤ r) || decide (sz = 0) then (d, m)
  else if ringRoom d r = 0 then (ringFull r d, m)
  else
    let i := on d (0x3200 + r) 3
    pump r (ringStep r 3 1 (putSlot r i (descBytes x 0 0) (modRing r (fun y => { y with q := y.q ++ [{ desc := x, idx := i }] }) d))) m

/-- The destination range of a bad descriptor is undefined (R430): every byte that it could write is a free value. -/
def badDest (x : Desc) (d : Dev) (m : Mem) : Dev × Mem :=
  let ws := (dmaWrites x (List.replicate x.len 0)).filter (fun w => rangeOk true w.1 w.2.length)
  ({ d with draws := d.draws + 1 },
    ws.foldl (fun m w => memWriteN m w.1 ((List.range w.2.length).map (fun i => Config.undefinedByte d.draws (w.1 + i)))) m)

/-- The head descriptor completes with a cause: STATUS and CAUSE, then HEAD (R429, R430). -/
def descDone (r : Nat) (x : DescS) (cause : Nat) (d : Dev) (m : Mem) : Dev × Mem :=
  let b := if cause = 0 then (d, m) else badDest x.desc d m
  let d := b.1
  let m := b.2
  let o := 0x3200 + r
  let d := putSlot r x.idx (descBytes x.desc (if cause = 0 then 1 else 2) cause) d
  let d := modRing r (fun y => { y with q := y.q.drop 1 }) d
  let d := ringStep r 2 1 d
  let d := if cause = 0 then incr 32 o 4 d
    else raise 0x6A01 r (cause + x.desc.tag % 2 ^ 32 * 2 ^ 32) (put o 8 cause (incr 32 o 5 d))
  if (ring d r).stopReq then (putf o 7 true (modRing r (fun y => { y with stopReq := false }) d), m) else pump r d m

/-- DESCRIPTOR_COMPLETE (R429): every write has its response; `err` says one returned an error. A ring that has stopped completes
none (R431). -/
def dmaComplete (r : Nat) (err : Bool) (d : Dev) (m : Mem) : Dev × Mem :=
  match (ring d r).q with
  | x :: _ =>
    if running d && x.started && !(oflag d (0x3200 + r) 7) then
      descDone r x (if x.cause ≠ 0 then x.cause else if err then 2 else 0) d m
    else (d, m)
  | [] => (d, m)

/-- WRITE_RESPONSE_TIMEOUT (R430). -/
def dmaTimeout (r : Nat) (d : Dev) (m : Mem) : Dev × Mem :=
  match (ring d r).q with
  | x :: _ =>
    if running d && x.started && decide (x.desc.op ≠ 0) && !(oflag d (0x3200 + r) 7) then
      descDone r x (if x.cause ≠ 0 then x.cause else 7) d m
    else (d, m)
  | [] => (d, m)

/-- DMA.CTRL: STOP bits 15:13, START bits 31:29; another bit is refused with RANGE (R446). -/
def dmaCtrlOk (v : Nat) : Bool := decide (clearMask (v % 2 ^ 32) 0xE000E000 = 0)

def dmaCtrl (v : Nat) (d : Dev) : Dev :=
  startRings ([13, 14, 15].filter (fun r => v.testBit (r + 16))) (stopRings ([13, 14, 15].filter (fun r => v.testBit r)) d)

/-- The rings by class (R420). -/
def ringClasses : List (List Nat) := [[0, 1, 2], [3, 4, 6, 8, 9, 11, 12], [5, 7, 10, 13, 14, 15]]

/-- Every ring that a start has released resumes at HEAD, class 0 first (R428, R431). -/
def dmaResume (d : Dev) (m : Mem) : Dev × Mem := ringClasses.foldl (fun a l => serveClass l a.1 a.2) (d, m)

/-- A minor-frame boundary lets DMA_RING_FULL be raised again (R422). -/
def dmaMinor (d : Dev) : Dev := { d with dma := d.dma.map (fun x => { x with fullRaised := false }) }

/-- A ring size that DMA.RING.01 may take (R421). -/
def ringSizeOk (r v : Nat) : Bool :=
  (v == 0 && (r == 10 || decide (13 ≤ r))) || [16, 32, 64, 128, 256, 512, 1024, 2048, 4096].contains v

end Sys2Proof.Machine
end

