-- ==== Sys2Proof/Machine/FieldBus.lean ====
section
/-! DEFINITION. The CAN FD controllers, the time reference, discovery and external points (spec/16 R362 to R371, R381 to
R384). A received frame is handled and acknowledged within its row; that the firmware still holds earlier ones as it
arrives is a condition of the row (R367; log entry 66). -/

namespace Sys2Proof.Machine

def fbS (d : Dev) (b : Nat) : FbS := d.bus.getD b {}

def modFb (b : Nat) (f : FbS → FbS) (d : Dev) : Dev := { d with bus := modAt d.bus b f }

/-- Status bits: 0 ON, 1 LISTEN_ONLY, 2 ERR_WARN, 3 ERR_PASSIVE, 4 BUS_OFF, 5 SHADOW, 8 DISCOVERING. -/
def fbBit (d : Dev) (b i : Nat) : Bool := (on d (0x3004 + b) 0).testBit i

/-- The controller may put frames on its bus. -/
def fbMaySend (d : Dev) (b : Nat) : Bool := decide (b < 4) && fbBit d b 0 && !(fbBit d b 1) && !(fbBit d b 4)

/-- The controller receives. -/
def fbMayRecv (d : Dev) (b : Nat) : Bool := running d && decide (b < 4) && fbBit d b 0 && !(fbBit d b 4)

/-- Identifier (R368). -/
def canId (prio typ dest src : Nat) : Nat := prio * 2 ^ 26 + typ * 2 ^ 21 + dest * 2 ^ 13 + src * 2 ^ 5

def idType (id : Nat) : Nat := bitsOf id 25 21
def idDest (id : Nat) : Nat := bitsOf id 20 13

/-- Payload lengths of CAN FD: the next length that holds `n` bytes. -/
def canLen (n : Nat) : Nat := if n ≤ 8 then n else ([12, 16, 20, 24, 32, 48, 64].find? (fun l => decide (n ≤ l))).getD 64

/-- Queue a frame, padded with 0x00 (R372). -/
def fbSend (b prio typ dest : Nat) (p : Bytes) (d : Dev) : Dev :=
  if fbMaySend d b then
    modFb b (fun s => { s with tx := s.tx ++ [{ id := canId prio typ dest 0, payload := p ++ List.replicate (canLen p.length - p.length) 0 }] }) d
  else d

/-- Withdraw queued frames, each counted (R364). -/
def fbWithdraw (b : Nat) (f : CanFrame → Bool) (d : Dev) : Dev :=
  let n := ((fbS d b).tx.filter f).length
  if n = 0 then d
  else put (0x3008 + b) 8 (satU 32 (on d (0x3008 + b) 8 + n)) (modFb b (fun s => { s with tx := s.tx.filter (fun x => !(f x)) }) d)

/-- Error bits from the counters (R365). -/
def fbErrBits (b : Nat) (d : Dev) : Dev :=
  let t := on d (0x3008 + b) 3
  let r := on d (0x3008 + b) 4
  let pas := decide (t ≥ 128) || decide (r ≥ 128)
  let d := if pas && !(fbBit d b 3) then raise 0x5A01 b 0 d else d
  wrStatus (0x3004 + b) 0 3 pas (wrStatus (0x3004 + b) 0 2 (decide (t ≥ 96) || decide (r ≥ 96)) d)

/-- A frame received without error: counted, the receive error counter decreases. -/
def fbRecv (b : Nat) (d : Dev) : Dev :=
  let r := on d (0x3008 + b) 4
  let d := incr 32 (0x3008 + b) 2 d
  if r = 0 then d else fbErrBits b (put (0x3008 + b) 4 (if r > 127 then 127 else r - 1) d)

/-- A received frame that does not match R368, or has a reserved address or a reserved byte that is not 0 (R8), is discarded
and counted. -/
def fbDiscard (b : Nat) (d : Dev) : Dev := incr 32 (0x3008 + b) 7 d

/-- A frame is lost: the queue, or the shadow buffer of its node, is taken (R367). -/
def fbOverrun (b : Nat) (d : Dev) : Dev := setStatus (0x3004 + b) 0 6 (incr 32 (0x3008 + b) 6 d)

/-- A frame has arrived on a bus: one that is not `sound` is discarded, one that finds the queue `full` is lost (R362, R367). -/
def fbTake (b : Nat) (sound full : Bool) (f : Dev → Dev) (d : Dev) : Dev :=
  if !(fbMayRecv d b) then d
  else if !sound then fbDiscard b (fbRecv b d)
  else if full then fbOverrun b (fbRecv b d)
  else f (fbRecv b d)

/-- A node's own address (R369). -/
def nodeAddr (a : Nat) : Bool := decide (1 ≤ a) && decide (a ≤ 0xEF)

/-- Bus-off (R365): queued frames are withdrawn, recovery starts at once; a shadow mode whose feature has ended ends (R105). -/
def fbBusOff (b : Nat) (d : Dev) : Dev :=
  let d := fbWithdraw b (fun _ => true) d
  let d := modFb b (fun s => { s with prevSof := 0, resume := true }) d
  let d := if fbBit d b 5 && !((on d 0x011 0).testBit 4) then clrStatus (0x3004 + b) 0 5 d else d
  raise 0x5C01 b 0 (incr 32 (0x3008 + b) 5 (setStatus (0x3004 + b) 0 4 d))

/-- BUS_ERROR: `kind` 0 a transmit error (TEC + 8), 1 a receive error (REC + 1), 2 a primary receive error (REC + 8). -/
def busError (b kind : Nat) (d : Dev) : Dev :=
  if !(fbMayRecv d b) then d
  else if kind = 0 then
    if fbBit d b 1 then d
    else
      let t := on d (0x3008 + b) 3 + 8
      let d := fbErrBits b (put (0x3008 + b) 3 t d)
      if t > 255 then fbBusOff b d else d
  else fbErrBits b (put (0x3008 + b) 4 (min 255 (on d (0x3008 + b) 4 + (if kind = 1 then 1 else 8))) d)

/-- BUS_OFF_RECOVERY: both counters are 0 again. -/
def busOffRecovery (b : Nat) (d : Dev) : Dev :=
  if running d && decide (b < 4) && fbBit d b 4 then
    fbErrBits b (put (0x3008 + b) 4 0 (put (0x3008 + b) 3 0 (clrStatus (0x3004 + b) 0 4 d)))
  else d

/-- The queued frame that wins arbitration: the lowest identifier, the oldest among equals. -/
def fbWinner : List CanFrame → Option CanFrame
  | [] => none
  | x :: l => match fbWinner l with
    | some y => if y.id < x.id then some y else some x
    | none => some x

/-- CAN_FRAME_TRANSMITTED: the frame that wins arbitration has been sent; `sof` is the civil time of its start of frame. After
bus-off none is sent before the next reference message (R365). -/
def canSent (b sof : Nat) (d : Dev) : Dev :=
  if !(running d) || !(fbMaySend d b) || (fbS d b).resume then d
  else
    match fbWinner (fbS d b).tx with
    | none => d
    | some f =>
      let d := modFb b (fun s => { s with tx := s.tx.erase f, prevSof := if idType f.id = 0 then sof else s.prevSof }) d
      let t := on d (0x3008 + b) 3
      let d := fbErrBits b (put (0x3008 + b) 3 (t - 1) (incr 32 (0x3008 + b) 1 d))
      emit (.can b f.id f.payload) d

/-! ### Configuration (R363, R366, R367) -/

def rateOk (n dr : Nat) : Bool :=
  [125000, 250000, 500000, 1000000].contains n &&
    (dr == 0 || ([1000000, 2000000, 4000000, 5000000, 8000000].contains dr && decide (n ≤ dr)))

/-- FB.CFG[b] has taken effect at a major-frame boundary or at a start. Shadow mode needs FB_SHADOW in force, or that the bus has
been in it since before FB_SHADOW was cleared (R103, R105). A bus that has left it so returns to it at the next write of its FB.CFG or
the next start, not when FB_SHADOW is accepted again: DESIGN CHOICE (log entry 60), R105 does not say. -/
def fbConfig (b : Nat) (d : Dev) : Dev :=
  let en := on d (0x3000 + b) 1 = 1
  let d := wrStatus (0x3004 + b) 0 5 (on d (0x3000 + b) 7 == 1 && ((on d 0x011 0).testBit 4 || fbBit d b 5)) d
  let d := wrStatus (0x3004 + b) 0 0 en d
  if en && d.pair.role == .standby then setStatus (0x3004 + b) 0 1 (fbWithdraw b (fun _ => true) d) else clrStatus (0x3004 + b) 0 1 d

/-- At a minor-frame boundary of an active unit listen-only has ended (R366). -/
def fbActive (d : Dev) : Dev :=
  forEach [0, 1, 2, 3] (fun b d => if fbBit d b 1 then clrStatus (0x3004 + b) 0 1 (modFb b (fun s => { s with prevSof := 0 }) d) else d) d

/-- FB.SESSIONS.01. -/
def countSessions (d : Dev) : Dev :=
  if on d 0x3015 1 = d.malpen.ses.length then d else put 0x3015 1 d.malpen.ses.length d

/-- A session ends with its transfers; its queued frames are withdrawn (R364). -/
def endSession (c : Client) (d : Dev) : Dev :=
  if !(d.malpen.ses.any (fun s => s.client == c)) then d
  else
    let d := countSessions { d with malpen := { d.malpen with ses := d.malpen.ses.filter (fun s => !(s.client == c)), xf := d.malpen.xf.filter (fun x => !(x.client == c)) } }
    if c.bus < 4 then fbWithdraw c.bus (fun f => (idType f.id == 9 || idType f.id == 4) && idDest f.id == c.addr) d else d

/-- Every session ends, and every OPEN that waits for its PROVE: at a role change, and when the management cluster restarts (R379,
R504, R505). -/
def endSessions (d : Dev) : Dev :=
  let d := forEach (d.malpen.ses.map (·.client)) endSession d
  { d with malpen := { d.malpen with opens := [], xf := [] } }

/-- A unit becomes standby: queued frames are withdrawn, listen-only begins. -/
def fbStandby (d : Dev) : Dev :=
  forEach [0, 1, 2, 3] (fun b d => if fbBit d b 0 then setStatus (0x3004 + b) 0 1 (fbWithdraw b (fun _ => true) d) else d) d

/-! ### External points (R382, R383) -/

structure PointE where
  bus : Nat
  node : Nat
  slot : Nat
  ty : Nat
  isIn : Bool
  timeout : Nat
  rsv : Nat
  dir : Nat
  deriving DecidableEq, Repr, Inhabited

def pointOf (b : Bytes) : PointE :=
  { bus := byteAt b 0, node := byteAt b 1, slot := fieldLe b 2 2, ty := byteAt b 4, isIn := byteAt b 5 == 1, timeout := byteAt b 6
    rsv := byteAt b 7, dir := byteAt b 5 }

/-- Entry n of a points table. -/
def pointAt (t : Bytes) (n : Nat) : Option PointE := if 8 * n + 8 ≤ t.length then some (pointOf (slice t (8 * n) 8)) else none

/-- The entries of a table, with their numbers. -/
def pointsOf (t : Bytes) : List (Nat × PointE) := (List.range (t.length / 8)).map (fun n => (n, pointOf (slice t (8 * n) 8)))

def points (d : Dev) : List (Nat × PointE) := pointsOf (ob d 0x3014 0)

def pointFieldsOk (p : PointE) : Bool :=
  decide (p.bus < 4) && nodeAddr p.node && [1, 2, 3, 4, 7, 8, 0xA].contains p.ty && decide (p.dir < 2) && p.rsv == 0

/-- No two entries share BUS, NODE, SLOT and DIR. -/
def pointsDistinct : List PointE → Bool
  | [] => true
  | p :: l => l.all (fun q => !(q.bus == p.bus && q.node == p.node && q.slot == p.slot && q.dir == p.dir)) && pointsDistinct l

/-- A slot of the image accepted at this start binds the point as an output, so the control plane owns it (R382). -/
def pointOwned (d : Dev) (n : Nat) : Bool :=
  match ownImage d with
  | some im => im.binds.any (fun b => b.kind == 1 && bindOut b && bindObj b == oPoint n && b.sub == 1)
  | none => false

/-- A slot of the image in force binds the point as an output. -/
def pointBound (d : Dev) (n : Nat) : Bool :=
  match img? d with
  | some im => im.binds.any (fun b => b.kind == 1 && bindOut b && bindObj b == oPoint n && b.sub == 1)
  | none => false

/-- The point is named by the matrix table in force (R217). -/
def pointInMatrix (d : Dev) (n : Nat) : Bool := (tableInForce d).any (fun e => e.kind == 2 && (e.driver % 2 ^ 14 == n || bitsOf e.driver 27 14 == n))

/-- The checks of a FB.POINTS write (R382). -/
def pointsOk (d : Dev) (t : Bytes) : Bool :=
  let ps := pointsOf t
  t.length % 8 == 0 && ps.all (fun p => pointFieldsOk p.2) && pointsDistinct (ps.map (·.2)) &&
    (points d).all (fun p =>
      let q := pointAt t p.1
      let outGone := match q with | some e => e.isIn | none => true
      let changed := match q with | some e => e.dir != p.2.dir | none => true
      !(pointBound d p.1 && !p.2.isIn && outGone) && !(pointInMatrix d p.1 && changed))

/-- A point is no longer one that went stale (R383). -/
def notGone (n : Nat) (d : Dev) : Dev := { d with bus := d.bus.map (fun s => { s with gone := s.gone.filter (· != n) }) }

/-- A value has come to a point, or has gone out from it: AGE 0, STALE clear (R383). -/
def freshPoint (n : Nat) (d : Dev) : Dev := put (oPoint n) 3 0 (put (oPoint n) 2 0 (notGone n d))

/-- FB.POINTS has taken effect: new and changed points start with AGE 255 and STALE set (R386). -/
def pointsChanged (old : Bytes) (d : Dev) : Dev :=
  forEach (List.range (max old.length (ob d 0x3014 0).length / 8)) (fun n d =>
    if pointAt old n = pointAt (ob d 0x3014 0) n then d
    else put (oPoint n) 3 1 (put (oPoint n) 2 255 (put (oPoint n) 1 0 (notGone n d)))) d

/-- Type width of a point in bits. -/
def pointBits (p : PointE) : Nat := bindWidth p.ty

/-- The 4 bytes of an output point on the bus. -/
def pointWire (d : Dev) (n : Nat) (p : PointE) : Bytes :=
  let v := on d (oPoint n) 1
  natLe 4 (if bindSigned p.ty then ofS 32 (toS (pointBits p) v) else v % 2 ^ pointBits p)

/-- PUSH_OUT payload of a page of a node: its output slots, absent slots 0. A slot above 15 × 255 + 14 has no PAGE. -/
def pushOut (d : Dev) (outs : List (Nat × PointE)) (page : Nat) : Option Bytes :=
  let here := outs.filter (fun p => p.2.slot / 15 == page)
  if here = [] ∨ 255 < page then none
  else
    let cnt := (here.map (fun p => p.2.slot % 15)).foldl max 0 + 1
    some (natLe 1 page ++ natLe 1 cnt ++ natLe 2 0 ++ (List.range cnt).flatMap (fun i =>
      match here.find? (fun p => p.2.slot % 15 == i) with | some p => pointWire d p.1 p.2 | none => natLe 4 0))

/-- The PUSH_OUT frames with the output points of a node are queued: these points are refreshed (R383, R499 step 7). -/
def refreshOut (l : List (Nat × PointE)) (d : Dev) : Dev := forEach l (fun p d => freshPoint p.1 d) d

/-- MINOR_REFERENCE_TOKEN (R371, R383): REF, then the PUSH_OUT frames, on every enabled bus. -/
def minorReference (d : Dev) : Dev :=
  if !(running d) || !d.time.refDue then d
  else
    let d := { d with time := { d.time with refDue := false } }
    let ps := points d
    forEach [0, 1, 2, 3] (fun b d =>
      if !(fbMaySend d b) then d
      else
        let outs := ps.filter (fun p => p.2.bus == b && !p.2.isIn)
        let d := fbWithdraw b (fun f => idType f.id == 0 || (idType f.id == 1 && !outs.isEmpty)) (modFb b (fun s => { s with resume := false }) d)
        let d := fbSend b 0 0 0xFF (natLe 8 d.time.minor ++ natLe 8 (fbS d b).prevSof) d
        let nodes := (List.range 0xF0).filter (fun n => outs.any (fun p => p.2.node == n))
        forEach nodes (fun n d =>
          let mine := outs.filter (fun p => p.2.node == n)
          let pages := (List.range ((mine.map (fun p => p.2.slot)).foldl max 0 / 15 + 1))
          refreshOut (mine.filter (fun p => decide (p.2.slot / 15 ≤ 255))) (forEach pages (fun pg d => match pushOut d mine pg with
            | some x => fbSend b 1 1 n x d
            | none => d) d)) d) d

/-- The values of a PUSH_IN reach their points (R383). A value for a point the table does not define is discarded (R386). -/
def pushValues (b node page : Nat) (vals : List Nat) (d : Dev) : Dev :=
  let ps := (points d).filter (fun p => p.2.bus == b && p.2.node == node && p.2.isIn)
  forEach ((List.range vals.length).zip vals) (fun iv d =>
    match ps.find? (fun p => p.2.slot == 15 * page + iv.1) with
    | some p =>
      let v := if p.2.ty = 1 then boolNat (decide (iv.2 % 2 ^ 32 ≠ 0)) else iv.2 % 2 ^ pointBits p.2
      freshPoint p.1 (put (oPoint p.1) 1 v d)
    | none => d) d

/-- A node's shadow buffer becomes its current buffer (R367). -/
def shadowUp (b node : Nat) (d : Dev) : Dev :=
  match (fbS d b).shadow.find? (fun x => x.1 == node) with
  | some x => pushValues b node x.2.1 x.2.2 (modFb b (fun s => { s with shadow := s.shadow.filter (fun y => !(y.1 == node)) }) d)
  | none => d

/-- PUSH_IN (R383). `held`: the firmware holds the whole queue or, in shadow mode, the node's current buffer, so the frame waits
in the shadow buffer and replaces one that waits there (R367). -/
def pushIn (b node page : Nat) (vals : List Nat) (rsv : Nat) (held : Bool) (id : Option Nat) (d : Dev) : Dev :=
  let sound := id == some (canId 2 2 0 node) && nodeAddr node && decide (vals.length ≤ 15) && rsv == 0
  fbTake b sound (held && !(fbBit d b 5)) (fun d =>
    if held then
      let s := (fbS d b).shadow
      let d := if s.any (fun x => x.1 == node) then fbOverrun b d else d
      modFb b (fun f => { f with shadow := s.filter (fun x => !(x.1 == node)) ++ [(node, page, vals)] }) d
    else pushValues b node page vals (shadowUp b node d)) d

/-- At a minor-frame boundary token the firmware has released its current buffers: DESIGN CHOICE (log entry 66), R367 does not say when
it does. -/
def shadowRelease (d : Dev) : Dev :=
  forEach [0, 1, 2, 3] (fun b d => forEach ((fbS d b).shadow.map (·.1)) (shadowUp b) d) d

/-- AGE of the points at a minor-frame boundary. -/
def agePoints (d : Dev) : Dev :=
  forEach (points d) (fun p d =>
    if on d (oPoint p.1) 2 = 255 then d else put (oPoint p.1) 2 (on d (oPoint p.1) 2 + 1) d) d

/-- FB_POINT_STALE (R383): a point's AGE exceeds its TIMEOUT; raised once for the node, and again once every point of it that went stale
has had a value: DESIGN CHOICE (log entry 66). -/
def pointStale (n : Nat) (d : Dev) : Dev :=
  match pointAt (ob d 0x3014 0) n with
  | none => d
  | some p =>
    if !(running d) || p.timeout == 0 || decide (on d (oPoint n) 2 ≤ p.timeout) || oflag d (oPoint n) 3 then d
    else
      let already := (points d).any (fun q => q.2.bus == p.bus && q.2.node == p.node && (fbS d p.bus).gone.contains q.1)
      let d := setStatus (0x3004 + p.bus) 0 9 (put (oPoint n) 3 1 (modFb p.bus (fun s => { s with gone := s.gone ++ [n] }) d))
      if already then d else raise 0x5A03 p.bus p.node d

/-! ### Discovery (R381) -/

/-- FB.NODES[b]: the confirmed nodes by rising address. -/
def nodeBytes (n : FbNode) : Bytes :=
  natLe 1 n.addr ++ natLe 3 0 ++ natLe 4 n.vendor ++ natLe 4 n.model ++ natLe 4 0 ++ n.serial

def publishNodes (b : Nat) (d : Dev) : Dev :=
  putb (0x3010 + b) 0 ((List.range 0xF0).flatMap (fun a =>
    ((fbS d b).nodes.filter (fun n => n.addr == a)).flatMap nodeBytes)) d

/-- Discovery starts on a bus: the first DISCOVER. -/
def discStart (b : Nat) (d : Dev) : Dev :=
  if fbMaySend d b then
    let d := modFb b (fun s => { s with round := 0, newIdent := false, seen := [] }) (setStatus (0x3004 + b) 0 8 d)
    fbSend b 5 0x10 0xFF (natLe 1 0x18 ++ natLe 5 0 ++ natLe 2 4 ++ natLe 1 0 ++ natLe 3 0) d
  else d

/-- Discovery on the named buses. -/
def discStartMask (m : Nat) (d : Dev) : Dev := forEach (bitsSet 4 m) discStart d

/-- TEMP of an IDENT frame: the first 21 bits of SHA-256 of the node's SERIAL (R368). -/
def nodeTemp (serial : Bytes) : Nat :=
  let h := sha256 serial
  (byteAt h 0 * 2 ^ 16 + byteAt h 1 * 2 ^ 8 + byteAt h 2) / 8

/-- The identifier of an IDENT frame (R368, R370). -/
def identId (serial : Bytes) : Nat := 5 * 2 ^ 26 + 0x11 * 2 ^ 21 + nodeTemp serial

/-- The address that a node gets: its present one where that is free, else the lowest free one (R381); in listen-only mode the one that
the active unit is heard to assign (R366). -/
def pickAddr (d : Dev) (b addr asg : Nat) (serial : Bytes) : Option Nat :=
  let others := (fbS d b).nodes.filter (fun n => n.serial != serial)
  let free := fun a => nodeAddr a && !(others.any (fun n => n.addr == a))
  if fbBit d b 1 then (if free asg then some asg else none)
  else if free addr then some addr else (List.range 0xF0).find? free

/-- A node is confirmed (R381). FB_ADDR_CONFLICT is raised by the unit that assigns, where the node's present address is not kept; 0xFE
is no address: DEDUCED (log entry 66). -/
def confirmNode (b vendor model addr asg : Nat) (serial : Bytes) (d : Dev) : Dev :=
  let serial := (serial ++ List.replicate 16 0).take 16
  let s := fbS d b
  match pickAddr d b addr asg serial with
  | none => d
  | some a =>
    let known := s.nodes.any (fun n => n.serial == serial)
    let n : FbNode := { addr := a, vendor := vendor % 2 ^ 32, model := model % 2 ^ 32, serial := serial }
    let d := modFb b (fun s => { s with
      nodes := s.nodes.filter (fun n => n.serial != serial) ++ [n]
      newIdent := s.newIdent || !(s.seen.contains serial)
      seen := if s.seen.contains serial then s.seen else s.seen ++ [serial] }) d
    let d := fbSend b 5 0x12 0xFE (natLe 1 0x1A ++ natLe 5 0 ++ natLe 2 20 ++ serial ++ natLe 1 a ++ natLe 3 0) d
    let d := if a ≠ addr ∧ addr ≠ 0xFE ∧ !(fbBit d b 1) then raise 0x5A02 b (addr + 256 * a) (setStatus (0x3004 + b) 0 7 d) else d
    publishNodes b (if known then d else raise 0x5801 b a d)

/-- IDENT: the node's identity and present address; each is answered with ASSIGN (R381). -/
def identNode (b vendor model addr : Nat) (serial : Bytes) (rsv : Nat) (full : Bool) (id : Option Nat) (asg : Nat) (d : Dev) : Dev :=
  fbTake b (id == some (identId serial) && rsv == 0) full (confirmNode b vendor model addr asg serial) d

/-- DISCOVERY_ROUND_END: discovery ends after a round without a new IDENT or after FB.DISC.02 rounds. -/
def discRoundEnd (b : Nat) (d : Dev) : Dev :=
  if !(running d) || !(fbBit d b 8) then d
  else
    let s := fbS d b
    if s.newIdent ∧ s.round + 1 < on d 0x300C 2 then
      let d := modFb b (fun s => { s with round := s.round + 1, newIdent := false }) d
      fbSend b 5 0x10 0xFF (natLe 1 0x18 ++ natLe 5 0 ++ natLe 2 4 ++ natLe 1 (s.round + 1) ++ natLe 3 0) d
    else clrStatus (0x3004 + b) 0 8 d

end Sys2Proof.Machine
end

