-- ==== Sys2Proof/Machine/LoadChannels.lean ====
section
/-! DEFINITION. Protected load channels (spec/12): the load die's switching, protections, retries, locks, latches and
supply groups, and what the boundary publishes of them. -/

namespace Sys2Proof.Machine

def lch (d : Dev) (n : Nat) : LchS := d.lch.ch.getD n {}

def modLch (n : Nat) (f : LchS → LchS) (d : Dev) : Dev := { d with lch := { d.lch with ch := modAt d.lch.ch n f } }

/-- The sequencer slot that binds the channel as a busbar contactor driver, in the image accepted at this start (R273). -/
def ownerSlot (d : Dev) (n : Nat) : Option (Image × SlotR) :=
  match ownImage d with
  | some im => (im.slots.find? (fun sl =>
      sl.kernel == 0x31 && (outBinds im sl).any (fun b => b.kind == 1 && bindObj b == oLch n 0))).map (fun sl => (im, sl))
  | none => none

/-- The channel is control-owned. -/
def controlOwned (d : Dev) (n : Nat) : Bool := (ownerSlot d n).isSome

/-- The load die protects its channels while the unit runs and while they are held through LCH.FS_HOLD (R275, R282). -/
def loadLive (d : Dev) : Bool := running d || d.phase == .failSilent

/-- The supply group's VLOAD is in range (R272). -/
def supplyOk (d : Dev) (n : Nat) : Bool := d.lch.supply.getD (n / 8) 0 == 0

/-- The other channels of the group inside their inrush windows (R278). -/
def windowsOf (d : Dev) (n : Nat) : List Nat :=
  (List.range 32).filter (fun m => m / 8 == n / 8 && m != n && (lch d m).inrush)

/-- When a retry is due whose delay starts now: LCH.CFG.03 later, to the micro-frame (R277). -/
def retryDue (d : Dev) (n : Nat) : Nat := d.startup.t + on d (oLch n 2) 3 * 1000000

/-- The end of a channel's inrush window; delays that waited for it alone start (R278). -/
def closeWindow (n : Nat) (d : Dev) : Dev :=
  let d := modLch n (fun x => { x with inrush := false }) d
  forEach (List.range 32) (fun m d =>
    let w := (lch d m).waitFor.filter (· != n)
    if (lch d m).waitFor = w then d
    else modLch m (fun x => { x with waitFor := w, due := if w = [] then retryDue d m else x.due }) d) d

/-- Switch on, with an inrush window where LCH.CFG.01 is above 0; SHORT, OVERLOAD and THERMAL_DELTA clear (R275). -/
def switchOn (window : Bool) (n : Nat) (d : Dev) : Dev :=
  modLch n (fun x => { x with on := true, wait := false, waitFor := [], flags := 0, stay := false, hot := false,
                              inrush := window && decide (on d (oLch n 2) 1 > 0) }) d

/-- Switch off; the window ends. -/
def switchOff (n : Nat) (d : Dev) : Dev := closeWindow n (modLch n (fun x => { x with on := false, flags := clearBit x.flags 1 }) d)

/-- The command in force lets the channel be on: this unit drives its loads, and an image runs or LCH.EARLY names the
channel (R273, R274, R282). -/
def cmdOn (d : Dev) (n : Nat) : Bool :=
  isActive d && oflag d (oLch n 0) 0 && ((img? d).isSome || (on d 0x4002 0).testBit n)

/-- The load die applies the command in force after a boundary token (R273, R274, R277, R279). -/
def lchApply (n : Nat) (d : Dev) : Dev :=
  let c := cmdOn d n
  let x := lch d n
  let d :=
    if !c then modLch n (fun x => { x with wait := false, waitFor := [], stay := false }) (if x.on then switchOff n d else d)
    else if !x.on && !x.locked && !x.latch && !x.stay && supplyOk d n && (!x.cmd || !x.wait) then switchOn true n d
    else d
  modLch n (fun x => { x with cmd := c }) d

/-- The flags word of a channel (R285). -/
def lchStatus (x : LchS) : Nat :=
  boolNat x.on + x.flags + 0x20 * boolNat x.latch + 0x40 * boolNat x.clamp + 0x80 * boolNat x.inrush +
    0x100 * boolNat x.wait + 0x200 * boolNat x.locked + 0x400 * boolNat x.handover

/-- Publish a channel's objects at a boundary swap (R275, R284); a changed latch waits for its NOR copy (R279). -/
def lchPublish (n : Nat) (d : Dev) : Dev :=
  let x := lch d n
  let k := okey (oLch n 1) 0
  let changed := (on d (oLch n 1) 0).testBit 5 != x.latch
  let d := put (oLch n 6) 0 x.faults (put (oLch n 5) 0 x.clamps (put (oLch n 3) 0 x.retries (put (oLch n 1) 0 (lchStatus x) d)))
  if changed && !(d.os.norDirty.contains k) then { d with os := { d.os with norDirty := d.os.norDirty ++ [k] } } else d

/-- Publish the supply groups (R283). -/
def groupPublish (g : Nat) (d : Dev) : Dev :=
  let s := d.lch.supply.getD g 0
  let w := (List.range 8).any (fun i => (lch d (8 * g + i)).inrush)
  put 0x4001 (g + 1) ((if s = 1 then 1 else if s = 2 then 2 else 0) + 4 * boolNat w) (put 0x4000 (g + 1) (d.lch.vload.getD g 0) d)

/-! ### Protections (R275, R277, R280) -/

/-- LCH_LOCKED. -/
def lchLock (n : Nat) (d : Dev) : Dev := raise 0x7E01 n 0 (modLch n (fun x => { x with locked := true, wait := false, waitFor := [] }) d)

/-- A protective turn-off with its flag and event; then a retry waits, or the channel locks (R277, R280). -/
def lchTrip (flag ev data n : Nat) (d : Dev) : Dev :=
  let w := windowsOf d n
  let d := switchOff n d
  let d := raise ev n data (modLch n (fun x => { x with flags := flag, faults := incSat 32 x.faults }) d)
  if controlOwned d n ∨ (lch d n).retries ≥ on d (oLch n 2) 2 then lchLock n d
  else modLch n (fun x => { x with wait := true, waitFor := w, due := retryDue d n }) d

/-- A protection acts on a channel that conducts. -/
def lchTripIfOn (flag ev data n : Nat) (d : Dev) : Dev :=
  if loadLive d && decide (n < 32) && (lch d n).on then lchTrip flag ev data n d else d

def lchShort (n : Nat) : Dev → Dev := lchTripIfOn 8 0x7C02 1 n
def lchHeldShort (n : Nat) : Dev → Dev := lchTripIfOn 8 0x7C02 2 n
def lchOverload (n : Nat) : Dev → Dev := lchTripIfOn 4 0x7C01 0 n

/-- Thermal ΔT: a SHORT of the same instant is the one reported, but ΔT still holds the retry (R281). -/
def lchThermal (n : Nat) (d : Dev) : Dev :=
  if n < 32 then
    lchTripIfOn 16 0x7C03 0 n (modLch n (fun x => { x with dt := max x.dt 60, hot := x.hot || x.on || x.wait }) d)
  else d

/-- Junction latch (R279, R280). -/
def lchThermLatch (n : Nat) (d : Dev) : Dev :=
  if loadLive d && decide (n < 32) && !((lch d n).latch) then
    let d := switchOff n d
    let d := raise 0x7E02 n 0 (modLch n (fun x => { x with latch := true, wait := false, waitFor := [], tj := max x.tj 170 }) d)
    if controlOwned d n then lchLock n d else d
  else d

/-- Open load (R275): the channel stays on. -/
def lchOpenLoad (n : Nat) (d : Dev) : Dev :=
  let x := lch d n
  if loadLive d && decide (n < 32) && x.on && oflag d (oLch n 2) 4 && !x.olOff && !(x.flags.testBit 1) then
    raise 0x7A01 n 0 (modLch n (fun x => { x with flags := setBit x.flags 1 }) d)
  else d

/-- The clamp conducts at a turn-off (R275). -/
def lchClamp (n : Nat) (d : Dev) : Dev :=
  if loadLive d && decide (n < 32) && !((lch d n).on) then
    raise 0x7A02 n 0 (modLch n (fun x => { x with clamp := true, clamps := incSat 32 x.clamps }) d)
  else d

/-- A waiting retry may go now: its delay has run within this micro-frame, no window it waited for is open, after a ΔT trip ΔT is below
20 K, and the supply is there (R277, R278, R281). -/
def retryReady (d : Dev) (n : Nat) : Bool :=
  let x := lch d n
  x.wait && decide (x.waitFor = []) && decide (x.due ≤ d.startup.t + tNs d) && (!x.hot || decide (x.dt < 20)) && !x.latch && supplyOk d n &&
    cmdOn d n

/-- A lower channel of the group has a retry that may go now (R278). -/
def retryBefore (d : Dev) (n : Nat) : Bool := (List.range n).any (fun m => m / 8 == n / 8 && retryReady d m)

/-- The other retries of the group that may go at this moment follow 10 ms later (R278). -/
def retryShift (n now : Nat) (d : Dev) : Dev :=
  forEach (List.range 32) (fun m d =>
    if m / 8 = n / 8 ∧ m ≠ n ∧ retryReady d m then modLch m (fun x => { x with due := now + 10000000 }) d else d) d

/-- A retry (R277, R278). -/
def lchRetry (n : Nat) (d : Dev) : Dev :=
  let x := lch d n
  if running d && decide (n < 32) && retryReady d n && !(retryBefore d n) then
    let r := incSat 8 x.retries
    raise 0x7801 n r (retryShift n (max x.due d.startup.t) (modLch n (fun x => { x with retries := r }) (switchOn true n d)))
  else d

/-- The channel has been on for 60 s without a fault (R277). -/
def retryCountReset (n : Nat) (d : Dev) : Dev :=
  if running d && decide (n < 32) && (lch d n).on then modLch n (fun x => { x with retries := 0 }) d else d

/-- The end of an inrush window; a channel still at 8 A overloads (R275, R278). -/
def inrushEnd (n : Nat) (atLimit : Bool) (d : Dev) : Dev :=
  if loadLive d && decide (n < 32) && (lch d n).inrush then
    (if atLimit then lchTrip 4 0x7C01 0 n d else closeWindow n d)
  else d

/-- ΔT has fallen below 20 K (R277). -/
def deltaTBelow (n : Nat) (d : Dev) : Dev := if n < 32 then modLch n (fun x => { x with dt := min x.dt 19 }) d else d

/-! ### Supply groups (R272) -/

def groupChans (g : Nat) : List Nat := (List.range 8).map (fun i => 8 * g + i)

/-- VLOAD leaves 14.5–38.0 V: every channel of the group switches off. No event for an unfitted group (R565). -/
def lchVload (g mv : Nat) (d : Dev) : Dev :=
  if loadLive d && decide (g < 4) && (decide (mv < 14500) || decide (38000 < mv)) then
    let d := { d with lch := { d.lch with supply := setAt d.lch.supply g (if mv < 14500 then 1 else 2), vload := setAt d.lch.vload g mv } }
    (if d.lch.unfitted.contains g then id else raise 0x7A03 g mv) (forEach (groupChans g) (fun n d => if (lch d n).on then switchOff n d else d) d)
  else d

/-- VLOAD returns to 15.5–37.0 V: the channels commanded on switch on again. -/
def vloadReturn (g mv : Nat) (d : Dev) : Dev :=
  if loadLive d && decide (g < 4) && decide (15500 ≤ mv) && decide (mv ≤ 37000) && decide (d.lch.supply.getD g 0 ≠ 0) then
    let d := { d with lch := { d.lch with supply := setAt d.lch.supply g 0, vload := setAt d.lch.vload g mv } }
    forEach (groupChans g) (fun n d =>
      let x := lch d n
      if cmdOn d n && !x.on && !x.locked && !x.latch && !x.wait then switchOn true n d else d) d
  else d

/-! ### Clears (R277, R279, R280) -/

/-- The node whose busbar contactor a control-owned channel drives is IDLE or in FAULT (R280). -/
def lchNodeStill (d : Dev) (n : Nat) : Bool :=
  match ownerSlot d n with
  | some (im, sl) => let st := on d (nodeSeqO (seqNode im sl)) 1; st == 0 || st == 7
  | none => true

/-- LCH.CLEAR is refused with STATE on a control-owned channel whose node works, and bit 1 while the die is hot. -/
def lchClearOk (d : Dev) (n m : Nat) : Bool :=
  (!(controlOwned d n) || lchNodeStill d n) &&
    (!(m.testBit 1) || (decide ((lch d n).tj < 150) && decide ((lch d n).dt < 20)))

/-- LCH.CLEAR taking effect: the channel follows its command again. -/
def lchClear (n m : Nat) (d : Dev) : Dev :=
  let d := if m.testBit 0 then modLch n (fun x => if x.locked ∨ x.retries ≠ 0 then
    { x with locked := false, retries := 0, cmd := false, stay := false } else x) d else d
  if m.testBit 1 then modLch n (fun x => if x.latch then { x with latch := false, cmd := false, stay := false } else x) d else d

/-! ### Handover in a pair (R282) -/

/-- Switch on a mirrored channel: no inrush window, no open-load detection, HANDOVER. -/
def lchTake (n : Nat) (d : Dev) : Dev :=
  raise 0x7802 n 0 (modLch n (fun x => { x with on := true, inrush := false, wait := false, waitFor := [], flags := 0, hot := false,
                                                handover := true, olOff := true, cmd := true }) d)

/-- A unit takes the channels over in the state mirrored: ON goes on, unless it is LOCKED or latched, here or there; the locks
and latches hold on (R279); OFF stays off until its command has been off, so a retry that waited is not carried over (R281). One whose
supply is out of range here comes on when that returns (R272). -/
def lchTakeover (onMask locked latched : Nat) (d : Dev) : Dev :=
  forEach (List.range 32) (fun n d =>
    let d := modLch n (fun x => { x with locked := x.locked || locked.testBit n, latch := x.latch || latched.testBit n }) d
    if onMask.testBit n && !((lch d n).locked) && !((lch d n).latch) then (if supplyOk d n then lchTake n d else d)
    else modLch n (fun x => { x with stay := true, wait := false, waitFor := [] }) d) d

/-- The outgoing unit's channels that are ON: HANDOVER and LCH_HANDOVER (R282). -/
def lchLeave (d : Dev) : Dev :=
  forEach (List.range 32) (fun n d =>
    if (lch d n).on then raise 0x7802 n 0 (modLch n (fun x => { x with handover := true }) d) else d) d

/-- Every channel off (R282, R498). -/
def lchAllOff (d : Dev) : Dev :=
  { d with lch := { d.lch with ch := d.lch.ch.map (fun x => { x with
    on := false, inrush := false, wait := false, waitFor := [],
    handover := false, flags := 0, cmd := false }) } }

end Sys2Proof.Machine
end

