-- ==== Sys2Proof/Machine/Lanes.lean ====
section
/-! DEFINITION. Stage, dispenser and pair lanes (spec/06): frames and their checks, link-up and link loss, the latching of
upstream frames at the sample token, the frames of the launch token, the short-circuit block, sleep. -/

namespace Sys2Proof.Machine

/-! ### Frames (R117, R118) -/

/-- HCRC of the header bytes 0 to 5: the reflected register of the 8-bit code (R117). -/
def hcrcOf (h : Bytes) : Nat := reverseBits 8 (crcBits 8 0x2F 0xFF (bytesBitsLsb h))

/-- Header bytes 0 to 5 (R117). -/
def header6 (kind ver seq words : Nat) : Bytes := natLe 1 kind ++ natLe 1 ver ++ natLe 2 seq ++ natLe 2 words

/-- The seven header bytes and the body of a frame the device sends: a reserved U32 and CRC-32 end the body (R117, R118). -/
def laneFrame (kind seq : Nat) (fields : Bytes) : Bytes :=
  let h := header6 kind 1 (seq % 65536) ((fields.length + 8) / 8)
  let h := h ++ natLe 1 (hcrcOf h)
  let b := fields ++ natLe 4 0
  h ++ b ++ natLe 4 (crc32 (h ++ b))

/-- The control blocks of R116: idle, start with the seven header bytes, terminate, marker (R120). -/
def idleBlock : LineBlock := { sync := 2, payload := 0x1E :: List.replicate 7 0 }
def startBlock (h : Bytes) : LineBlock := { sync := 2, payload := 0x78 :: h }
def stopBlock : LineBlock := { sync := 2, payload := 0x87 :: List.replicate 7 0 }
def markerBlock (mk value : Nat) : LineBlock := { sync := 2, payload := [0x4B] ++ natLe 1 mk ++ natLe 4 value ++ natLe 2 0 }

/-- The data blocks of a body. -/
def dataBlocks (b : Bytes) : List LineBlock :=
  (List.range (b.length / 8)).map (fun i => { sync := 1, payload := slice b (8 * i) 8 })

/-- The blocks of a frame: start, body, terminate (R117). -/
def frameBlocks (f : Bytes) : List LineBlock := startBlock (f.take 7) :: (dataBlocks (f.drop 7) ++ [stopBlock])

/-- The self-synchronous scrambler x⁵⁸ + x³⁹ + 1 (R113): the line bits of payload bits, and its next 58-bit state, whose bit 0
is the newest line bit. -/
def scrambleBits : Nat → List Bool → List Bool × Nat
  | s, [] => ([], s)
  | s, b :: bs =>
    let o := b ^^ s.testBit 38 ^^ s.testBit 57
    let r := scrambleBits (2 * (s % 2 ^ 57) + boolNat o) bs
    (o :: r.1, r.2)

/-- The line bits of blocks, from a state of the scrambler: the sync header first, then the payload bytes, each least
significant bit first, scrambled (R113, R114). Of the sync header the left bit goes first, as clause 49 sends it (PRESUMED, log
entry 42). -/
def lineBits : Nat → List LineBlock → List Bool
  | _, [] => []
  | s, b :: bs =>
    let r := scrambleBits s (bytesBitsLsb b.payload)
    [b.sync.testBit 1, b.sync.testBit 0] ++ r.1 ++ lineBits r.2 bs

/-- Send blocks on a lane, after idle blocks (R116), of which one is recorded. The state in which those before it have left the scrambler
is a free value (log entry 42). -/
def sendBlocks (l : Nat) (bs : List LineBlock) (d : Dev) : Dev :=
  emit (.lane l (idleBlock :: bs) (lineBits (Config.scramblerState l d.time.micro d.sent.length) (idleBlock :: bs))) d

/-- Send a frame on a lane; send a marker (R117, R120). -/
def sendFrame (l kind : Nat) (fields : Bytes) (d : Dev) : Dev := sendBlocks l (frameBlocks (laneFrame kind d.time.micro fields)) d

def sendMarker (l mk value : Nat) : Dev → Dev := sendBlocks l [markerBlock mk value]

/-- HCRC, CRC-32, VER, the terminate block (R116) and WORDS of a received frame; the last word's first half is reserved (R118). -/
def frameSound (f : Frame) : Bool :=
  let h := header6 f.kind f.ver f.seq f.words
  let n := f.body.length
  f.hcrc == hcrcOf h && f.ver == 1 && f.stop == stopBlock && decide (8 ≤ n) && n == 8 * f.words &&
    fieldLe f.body (n - 8) 4 == 0 && fieldLe f.body (n - 4) 4 == crc32 (h ++ natLe 1 f.hcrc ++ f.body.take (n - 4))

/-- Reserved fields and layout of a STAGE_UP body (R122, R123). -/
def stageUpOk (e : StageE) (b : Bytes) : Bool :=
  b.length == 8 * (9 + e.phases) && decide (fieldLe b 0 4 < 2 ^ 17) && byteAt b 8 == e.phases && byteAt b 9 == 0 &&
    fieldLe b 14 2 == 0 &&
    (List.range 4).all (fun g => decide (g < e.groups) || (fieldLe b (16 + 2 * g) 2 == 0 && fieldLe b (24 + 2 * g) 2 == 0)) &&
    decide (fieldLe b 48 16 < 16 ^ e.phases)

/-- Take `n` records off a body; the rest follows. None where one does not fit or its padding is not zero. -/
def takeRecs : Nat → Bytes → Option (List LaneRec × Bytes)
  | 0, b => some ([], b)
  | n + 1, b =>
    let len := fieldLe b 2 2
    let pad := 8 * ((len + 7) / 8)
    if b.length < 8 + pad then none
    else if ((b.drop (8 + len)).take (pad - len)).any (fun x => x != 0) then none
    else
      match takeRecs n (b.drop (8 + pad)) with
      | none => none
      | some (rs, rest) =>
        some ({ rtype := byteAt b 0, index := byteAt b 1, info := fieldLe b 4 4, body := slice b 8 len } :: rs, rest)

/-- An upstream record is of a known type with its length, its INFO and reserved fields as R129 gives them. -/
def upRecOk (count : Nat) (r : LaneRec) : Bool :=
  decide (r.index < count) &&
    (if r.rtype = 1 then r.body.length == 136
     else if r.rtype = 2 then r.body.length == 16 && r.info == 0 && fieldLe r.body 14 2 == 0
     else if r.rtype = 3 then r.body.length == 8 && r.info == 0 && fieldLe r.body 5 3 == 0
     else if r.rtype = 4 then decide (1 ≤ r.body.length) && decide (r.body.length ≤ 1024) &&
       decide (clearMask r.info 0x107FF = 0)
     else false)

/-- Layout and reserved fields of a DISP_UP body; its records (R128, R129). -/
def dispUpRecs (count : Nat) (b : Bytes) : Option (List LaneRec) :=
  let ok := decide (56 ≤ b.length) && decide (fieldLe b 0 4 < 2 ^ 16) && !((byteAt b 1).testBit 0) &&
    !((byteAt b 1).testBit 6) && decide (byteAt b 0 < 2 ^ count) && byteAt b 8 == count &&
    decide (byteAt b 12 < 2 ^ count) && decide (byteAt b 13 < 2 ^ count) && fieldLe b 14 2 == 0 &&
    (List.range 8).all (fun i => decide (i < count) || (fieldLe b (16 + 2 * i) 2 == 0 && fieldLe b (32 + 2 * i) 2 == 0))
  if ok then
    match takeRecs (byteAt b 9) (b.drop 48) with
    | some (rs, rest) => if rest.length = 8 ∧ rs.all (upRecOk count) then some rs else none
    | none => none
  else none

/-! ### Link state -/

/-- The published state of a lane (R147). -/
def laneCode (x : LaneS) : Nat :=
  match x.st with
  | .unbound => 0 | .training => 1 | .ranging => 2 | .identifying => 3
  | .up => if x.downSleep || x.upSleep then 7 else 4
  | .identFail => 5 | .down => 6

/-- Publish SYS.LANE_STATE of a lane. -/
def publishLane (l : Nat) (d : Dev) : Dev :=
  if on d 0x200 (l + 1) = laneCode (laneS d l) then d else put 0x200 (l + 1) (laneCode (laneS d l)) d

/-- Change a lane and publish its state. -/
def setLane (l : Nat) (f : LaneS → LaneS) (d : Dev) : Dev := publishLane l (modLane l f d)

/-- The block time of a lane in ps (R113). -/
def blockPs (mode : Nat) : Nat := if mode = 2 then 12800 else 6400

/-- What a lane that is not UP no longer has. -/
def dropLink (x : LaneS) : LaneS :=
  { x with ctl := false, latch := none, downSleep := false, upSleep := false, wakeWait := 0, attempts := 0, echos := [] }

/-- Start link-up on a lane: step 1 of R138; idle blocks fill the line. -/
def linkStart (l mode : Nat) (d : Dev) : Dev :=
  sendBlocks l [] (setLane l (fun x => { dropLink x with mode := mode, st := .training, relink := false }) d)

/-- A step of link-up fails: IDENT_FAIL with its reason (R138, R141). -/
def linkFail (l reason : Nat) (d : Dev) : Dev :=
  raise 0x0C11 l reason (setLane l (fun x => { dropLink x with st := .identFail }) d)

/-- The two lanes of a pair that are UP. -/
def pairLanesUp (d : Dev) : List Nat := [48, 49].filter (fun l => (laneS d l).st == .up)

/-- PAIR.STATUS.LANE_DEGRADED: exactly one pair lane is down (R476). -/
def pairDegraded (d : Dev) : Dev :=
  let b := decide ((pairLanesUp d).length = 1)
  if (on d 0x400 0).testBit 7 = b then d else wrStatus 0x400 0 7 b d

/-- A lane is UP (R138); control frames go from the next micro-frame boundary. -/
def linkUp (l : Nat) (d : Dev) : Dev :=
  let d := setLane l (fun x => { x with st := .up, everUp := true, busyMajor := true, quiet := false, launched := [] }) d
  let d := raise 0x0810 l 0 d
  if l < 32 then d else if l < 48 then metroLinkUp (l - 32) d else pairDegraded d

/-- EXPECT of a stage or dispenser lane (R140). -/
def expectOf (d : Dev) (l : Nat) : Nat := if l < 32 then (stageE d l).phases else (dispE d (l - 32)).count

/-- UNIT of IDENT_REQ (R140). -/
def identUnit (d : Dev) : Nat := if d.pair.role = .single then 0 else portNo d + 2

/-- Send an IDENT_REQ (R140). -/
def identReq (l : Nat) (d : Dev) : Dev :=
  let (n, d) := draw 16 d
  let d := modLane l (fun x => { x with attempts := x.attempts + 1, devNonce := n, awaiting := true, identNs := 0 }) d
  sendFrame l 8 (n ++ natLe 4 (tNs d) ++ natLe 2 (on d 0x203 (l + 1)) ++ natLe 1 (expectOf d l) ++ natLe 1 (identUnit d) ++
    natLe 4 (on d 0x402 0) ++ natLe 4 0) d

/-- Block lock: the last 64 sync headers are valid, 0b01 or 0b10 (R113). -/
def locked (headers : List Nat) : Bool :=
  decide (64 ≤ headers.length) && (headers.drop (headers.length - 64)).all (fun h => h == 1 || h == 2)

/-- Loss of block lock: the last 16 invalid sync headers, by their times in ps, lie within 125 µs at 10.3125 Gb/s, 250 µs at
5.15625 Gb/s (R113). -/
def lockLost (mode : Nat) (times : List Nat) : Bool :=
  let w := times.drop (times.length - 16)
  decide (16 ≤ times.length) && decide (w.getLastD 0 ≤ w.headD 0 + (if mode = 2 then 250000000 else 125000000))

/-- BLOCK_LOCK: ranging starts with four RANGE markers; a pair lane, which is neither ranged nor identified, is UP
(R138, R139, R145). -/
def blockLock (l : Nat) (headers : List Nat) (d : Dev) : Dev :=
  let s := (laneS d l).st
  if !(running d) || !(s == .training || s == .down) || !(locked headers) then d
  else if 48 ≤ l then linkUp l d
  else
    let d := setLane l (fun x => { x with st := .ranging, echos := [] }) d
    forEach [0, 1, 2, 3] (sendMarker l 3) d

/-- BLOCK_LOCK_TIMEOUT: step 1 of link-up fails (R138). -/
def blockLockTimeout (l : Nat) (d : Dev) : Dev :=
  let s := (laneS d l).st
  if running d && (s == .training || s == .down) then linkFail l 7 d else d

/-- ECHO: the round trip of a tag in ps; the fourth gives D (R139). -/
def echo (l tag rt : Nat) (d : Dev) : Dev :=
  let x := laneS d l
  if !(running d) || x.st != .ranging || decide (4 ≤ tag) || (alGet x.echos tag).isSome then d
  else
    let es := alSet x.echos tag rt
    let d := modLane l (fun x => { x with echos := es }) d
    if es.length < 4 then d
    else
      let bt := 40 * blockPs x.mode
      let sum : Int := sumI (es.map (fun p => (p.2 : Int) - bt))
      let dns := (divHalfUp sum 8000).toNat
      let d := put 0x203 (l + 1) (satU 16 dns) d
      if 2000 < dns then linkFail l 1 d
      else identReq l (setLane l (fun x => { x with st := .identifying, attempts := 0 }) d)

/-- RANGING_TIMEOUT (R139). -/
def rangingTimeout (l : Nat) (d : Dev) : Dev :=
  if running d && (laneS d l).st == .ranging then linkFail l 8 d else d

/-- IDENT_RSP_TIMEOUT: the wait of 500 µs ends; the lane fails after three attempts (R138). -/
def identRspTimeout (l : Nat) (d : Dev) : Dev :=
  let x := laneS d l
  if running d && x.st == .identifying && x.awaiting then
    (if 3 ≤ x.attempts then linkFail l 2 d else modLane l (fun x => { x with awaiting := false, identNs := 0 }) d)
  else d

/-- A frame rejected under R118: it is counted, and a rejected dispenser frame discards the partial vehicle frames of its
connectors (R132). -/
def laneBad (l : Nat) (d : Dev) : Dev :=
  let d := raise 0x0A10 l 0 (incr 32 0x201 (l + 1) d)
  if 32 ≤ l ∧ l < 48 then
    let e := dispE d (l - 32)
    { d with lanes := { d.lanes with vethRx := d.lanes.vethRx.filter (fun p => decide (p.1 < e.first) || decide (e.first + e.count ≤ p.1)) } }
  else d

/-- The identification checks of R141 on an IDENT_RSP body; 0 when it passes. -/
def identCheck (d : Dev) (l : Nat) (b : Bytes) : Nat :=
  let disp := decide (32 ≤ l)
  let want := (dispE d (l - 32)).mcs
  if byteAt b 16 ≠ (if disp then 2 else 1) then 3
  else if byteAt b 17 < expectOf d l then 4
  else if disp && decide ((byteAt b 18) % 2 ^ expectOf d l ≠ want % 2 ^ expectOf d l) then 5
  else if byteAt b 19 ≠ 1 then 6
  else 0

/-- RATED of IDENT_RSP, in 10 mA, as Q16.16 A (R138, R153). -/
def ratedQ (body : Bytes) : Nat := (convQ (fieldLe body 48 4) 1 100).toNat

/-- IDENT_RSP: words 0 to 6 are published, checked, K_MAC derived or the rated current taken, and the lane is UP
(R138, R140, R141, R131, R167). -/
def identRsp (l : Nat) (f : Frame) (d : Dev) : Dev :=
  let x := laneS d l
  if !(running d) || !(laneBound d l) || decide (48 ≤ l) then d
  else if !(frameSound f) || f.kind != 9 || f.words != 8 || fieldLe f.body 52 4 != 0 then laneBad l d
  else if x.st != .identifying || !x.awaiting then d
  else
    let d := modLane l (fun x => { x with awaiting := false }) d
    let d := putb (0x210 + l) 0 (f.body.take 56) d
    let why := identCheck d l f.body
    if why ≠ 0 then linkFail l why d
    else
      let nonce := f.body.take 16
      let d :=
        if l < 32 then modStg l (fun s => { s with ratedNew := some (ratedQ f.body) }) d
        else
          let di := l - 32
          let d := forEach (List.range (dispE d di).count) (fun i d =>
            put (oCon ((dispE d di).first + i) 0x21) 0 (ratedQ f.body) d) d
          modLane l (fun x => { x with partNonce := nonce
                                       relink := false
                                       kmac := if hasKey d (0x520 + di)
                                         then some (kMac (instKey d (0x520 + di)) x.devNonce nonce di (lanePort d)) else none }) d
      linkUp l d

/-- LINKUP_RETRY: one second after a failure the lane starts again (R138). -/
def linkupRetry (l : Nat) (d : Dev) : Dev :=
  if running d && (laneS d l).st == .identFail then linkStart l (laneS d l).mode d else d

/-- LANE_DOWN: loss of block lock; link-up restarts at once (R113, R142). -/
def laneDown (l : Nat) (times : List Nat) (d : Dev) : Dev :=
  let s := (laneS d l).st
  if running d && (s == .ranging || s == .identifying || s == .up) && lockLost (laneS d l).mode times then
    let d := setLane l (fun x => { dropLink x with st := .down }) d
    raise 0x0C10 l 1 (if 48 ≤ l then pairDegraded d else d)
  else d

/-- Every node of a dispenser is IDLE (R131). -/
def dispIdle (d : Dev) (di : Nat) : Bool :=
  let e := dispE d di
  (List.range e.count).all (fun i => on d (oCon (e.first + i) 0x32) 1 == 0)

/-- At a major-frame boundary a dispenser lane whose pairing key is new links up again once its nodes are IDLE (R131). -/
def relinkDue (d : Dev) : Dev :=
  forEach (dispsBound d) (fun di d =>
    let l := 32 + di
    if (laneS d l).relink && dispIdle d di then linkStart l (laneS d l).mode d else d) d

/-! ### Upstream frames -/

/-- Publish EPOCH_SEEN of a lane; above this unit's own epoch it is EPOCH_SUPERSEDED (R134, R453, R462). A part that goes from an epoch
up to the own one to a higher one obeys another ACTIVE unit now: DEDUCED from R474 (log entry 57). -/
def epochSeen (l e : Nat) (d : Dev) : Dev :=
  let old := on d 0x208 (l + 1)
  let d := if old = e then d else put 0x208 (l + 1) e d
  let d := { d with pair := { d.pair with seen := max d.pair.seen e } }
  if isActive d && decide (on d 0x402 0 < e) then
    let rose := decide (old ≠ 0 ∧ old ≤ on d 0x402 0)
    raise 0x0C12 l e { d with pair := { d.pair with above := max d.pair.above e, rival := d.pair.rival || rose } }
  else d

/-- The SEQ of a frame belongs to the sample token to come (R121, R127). -/
def seqDue (d : Dev) (seq : Nat) : Bool :=
  (seq == d.time.micro % 65536 && !d.time.sampled) || seq == (d.time.micro + 1) % 65536

/-- The device sees the part's blocks: upstream is awake (R143). -/
def upAwake (l : Nat) (d : Dev) : Dev :=
  if (laneS d l).upSleep then setLane l (fun x => { x with upSleep := false }) d else d

/-- STAGE_UP: checked, its epoch and status edges taken, and latched for its micro-frame (R118, R121 to R123, R134, R171). A
frame that comes too late for its sample token is discarded (R40). -/
def stageUp (s : Nat) (f : Frame) (d : Dev) : Dev :=
  if !(running d) || decide (32 ≤ s) || !(laneBound d s) then d
  else
    let d := modStg s (fun x => { x with tripped := 0 }) d
    if !(frameSound f) || f.kind != 1 || !(stageUpOk (stageE d s) f.body) then laneBad s d
    else if (laneS d s).st != .up then d
    else
      let w := fieldLe f.body 0 4
      let old := (laneS d s).status
      let d := upAwake s d
      if !(seqDue d f.seq) then d
      else
        let d := if w.testBit 12 && !(old.testBit 12) then raise 0x0A11 s 0 d else d
        let d := if w.testBit 10 && !(old.testBit 10) then raise 0x2C01 s 0 d else d
        let busy := w.testBit 16 || decide (bitsOf w 7 4 ≠ 0)
        let d := modLane s (fun x => { x with status := w, busyMajor := x.busyMajor || busy, latch := some f.body, latchSeq := f.seq }) d
        epochSeen s (fieldLe f.body 4 4) d

/-- The newest THERMAL and ISO record of a connector (R129). -/
def takeRec (first : Nat) (r : LaneRec) (d : Dev) : Dev :=
  let c := first + r.index
  if r.rtype = 2 then
    { d with lanes := { d.lanes with recs := modAt d.lanes.recs c (fun x =>
      { x with thermal := (List.range 7).map (fun k => fieldLe r.body (2 * k) 2), thermalAge := 0, thermalSeen := true }) } }
  else if r.rtype = 3 then
    { d with lanes := { d.lanes with recs := modAt d.lanes.recs c (fun x =>
      { x with riso := fieldLe r.body 0 4, isoState := byteAt r.body 4 }) } }
  else d

/-- DISP_UP: checked, its records taken, its fixed part latched for its micro-frame (R118, R127 to R129). The METRO and VETH
records of the frame arrive as their own commands. The fixed part of a frame that comes too late for its sample token is
discarded, its records are taken (R127). -/
def dispUpFrame (di : Nat) (f : Frame) (d : Dev) : Dev :=
  let l := 32 + di
  if !(running d) || decide (16 ≤ di) || !(laneBound d l) then d
  else
    match (if frameSound f && f.kind == 3 then dispUpRecs (dispE d di).count f.body else none) with
    | none => laneBad l d
    | some rs =>
      if (laneS d l).st != .up then d
      else
        let w := fieldLe f.body 0 4
        let old := (laneS d l).status
        let d := forEach rs (takeRec (dispE d di).first) (upAwake l d)
        if !(seqDue d f.seq) then d
        else
          let d := if w.testBit 12 && !(old.testBit 12) then raise 0x0A11 l 0 d else d
          let d := modLane l (fun x => { x with
            status := w, busyMajor := x.busyMajor || decide (byteAt f.body 12 ≠ 0), latch := some f.body, latchSeq := f.seq }) d
          epochSeen l (fieldLe f.body 4 4) d

/-- METRO: a record taken from a valid frame of an UP lane (R129, R138). -/
def metroRow (c num : Nat) (body : Bytes) (d : Dev) : Dev :=
  match connDisp d c with
  | some (di, _) => if (laneS d (32 + di)).st == .up then metroRecord c num body d else d
  | none => d

/-- The device keeps an upstream vehicle frame: it is for the connector's MAC address, for a multicast address the device has joined,
or a LINK_STATE frame (R290). Joined are all nodes (R288) and the solicited-node address of the connector's link-local address:
PRESUMED (log entry 50). -/
def vehWanted (d : Dev) (c : Nat) (f : Bytes) : Bool :=
  let mac := conMac d c
  let dst := f.take 6
  dst == mac || dst == [0x33, 0x33, 0, 0, 0, 1] || dst == [0x33, 0x33, 0xFF] ++ mac.drop 3 || slice f 12 2 == natBe 2 0x88B5

/-- A vehicle frame of a connector has come through ring 8: it waits for its row. -/
def vehTake (c : Nat) (f : Bytes) (d : Dev) : Dev := { d with lanes := { d.lanes with vehIn := d.lanes.vehIn ++ [(c, f)] } }

/-- VETH: a fragment of a connector's vehicle Ethernet frame (R132); a whole frame that the device does not discard (R290) goes by
way of ring 8 (R420). -/
def veth (c off : Nat) (last : Bool) (bytes : Bytes) (d : Dev) : Dev :=
  match connDisp d c with
  | none => d
  | some (di, _) =>
    if !(running d) || (laneS d (32 + di)).st != .up then d
    else
      let got := (alGet d.lanes.vethRx c).getD []
      let drop := fun d : Dev => { d with lanes := { d.lanes with vethRx := alDel d.lanes.vethRx c } }
      let all := got ++ bytes
      if off ≠ got.length ∨ bytes = [] ∨ 1024 < bytes.length ∨ 1514 < all.length then drop d
      else if last then
        let d := drop d
        if all.length < 14 ∨ !(vehWanted d c all) then d
        else
          ringPass 8 [.vehicleUp c all] (vehTake c all) id d
      else { d with lanes := { d.lanes with vethRx := alSet d.lanes.vethRx c all } }

/-! ### The short-circuit block (R169 to R172) -/

/-- The limit in force in sample units of 10 mA (R169). -/
def scLimit (d : Dev) (s : Nat) : Nat :=
  let mA := on d (oStg s 8) 0
  (if mA = 0 then min 327670 (on d (oStg s 0) 0 * 1500 / 65536) else mA) / 10

/-- SC_BLOCK: a sample of a phase exceeds the limit (R126, R170, R171). -/
def scBlock (s p : Nat) (sample : Int) (d : Dev) : Dev :=
  if !(running d) || !(laneBound d s) || decide (32 ≤ s) || decide ((stageE d s).phases ≤ p) ||
      decide (sample.natAbs ≤ scLimit d s) || (laneS d s).st != .up then d
  else
    let d := modStg s (fun x => { x with tripped := setBit x.tripped p }) d
    let mask := (stgS d s).tripped
    let d := setStatus (oStg s 0x0B) 0 p (incr 32 (oStg s 0x0D) (p + 1) d)
    let d := raise 0x2E01 s mask d
    if isActive d && !((stgS d s).lost) then sendFrame s 6 (natLe 4 (on d 0x402 0) ++ natLe 4 mask) d else d

/-! ### Sleep (R143) -/

/-- A field of the launch register. -/
def lregGet (d : Dev) (kind inst code elem : Nat) : Nat := (alGet d.lanes.lreg (fkey kind inst code elem)).getD 0

/-- PUMP or FAN of a connector: the field a slot binds, else CON.COOL_CMD in force as round(value × 100), 0 to 10,000
(R265). -/
def coolField (d : Dev) (di code i : Nat) : Nat :=
  let bound := match img? d with
    | some im => im.binds.any (fun b => b.kind == 5 && b.sub == di && bindCode b == code && bindElem b == i)
    | none => false
  if bound then lregGet d 5 di code i
  else if i < (dispE d di).count then
    (clampI 0 10000 (divHalfUp (oq d (oCon ((dispE d di).first + i) 0x47) (code - 0x300) * 100) 65536)).toNat
  else 0

/-- The downstream fields of a lane as they stand, PUMP and FAN with the source they have. -/
def downFields (d : Dev) (l : Nat) : List (Nat × Nat) :=
  if l < 32 then d.lanes.lreg.filter (fun p => p.1 / (65536 * 64) == 3 * 64 + l)
  else d.lanes.lreg.filter (fun p => p.1 / (65536 * 64) == 5 * 64 + (l - 32)) ++ [(0, dispCommand d (l - 32))] ++
    (List.range (dispE d (l - 32)).count).flatMap (fun i => [(1, coolField d (l - 32) 0x301 i), (2, coolField d (l - 32) 0x302 i)])

/-- SLEEP_MARKER from the part. -/
def sleepMarker (l : Nat) (d : Dev) : Dev :=
  if running d && decide (l < 48) && (laneS d l).st == .up then setLane l (fun x => { x with upSleep := true }) d else d

/-- UPSTREAM_WAKE: the part's blocks are seen again. -/
def upstreamWake (l : Nat) (d : Dev) : Dev := if running d && decide (l < 48) then upAwake l d else d

/-- The stage and dispenser lanes that the image binds. -/
def attachedLanes (d : Dev) : List Nat := (List.range 48).filter (laneBound d)

/-- At a major-frame boundary a quiet lane goes to sleep downstream, after four SLEEP markers. -/
def sleepDue (d : Dev) : Dev :=
  forEach (attachedLanes d) (fun l d =>
    let x := laneS d l
    let busy := x.busyMajor || downFields d l != x.launched
    let d := modLane l (fun x => { x with quiet := !busy, busyMajor := false, launched := downFields d l }) d
    if x.st == .up && x.ctl && !busy && !x.downSleep && (on d 0x205 (l + 1)).testBit 0 && isActive d then
      let d := setLane l (fun x => { x with downSleep := true }) d
      forEach [0, 1, 2, 3] (fun _ => sendMarker l 2 0) d
    else d) d

/-- Micro-frames whose launch token lies less than 100 µs after a wake at the boundary. -/
def wakeSkip (d : Dev) : Nat := ceilDiv (1000000 - min 1000000 (6 * tNs d)) (10 * tNs d)

/-- The next attempt of identification, 1 ms after the last (R138). -/
def identNext (l : Nat) (d : Dev) : Dev :=
  let ns := (laneS d l).identNs + tNs d
  if 500000 ≤ ns then identReq l d else modLane l (fun x => { x with identNs := ns }) d

/-- At a micro-frame boundary a sleeping lane wakes when a field has changed or TX is cleared, and a lane that came UP sends
control frames from here on. -/
def laneBoundary (d : Dev) : Dev :=
  forEach (attachedLanes d) (fun l d =>
    let x := laneS d l
    if x.st == .identifying && !x.awaiting then identNext l d
    else if x.st != .up then d
    else
      let d := if x.ctl then d else modLane l (fun x => { x with ctl := true }) d
      if x.downSleep && (!((on d 0x205 (l + 1)).testBit 0) || downFields d l != x.launched) then
        setLane l (fun x => { x with downSleep := false, wakeWait := wakeSkip d, busyMajor := true }) d
      else d) d

/-! ### The sample token (R40) -/

/-- The sample token on a dispenser lane: the fixed part and the newest records are latched (R127, R133). -/
def sampleDisp (di : Nat) (d : Dev) : Dev :=
  let l := 32 + di
  let e := dispE d di
  let d := { d with lanes := { d.lanes with
    lanes := modAt d.lanes.lanes l (fun x =>
      match latchedNow d.time.micro x with
      | some b => { x with cur := b, old := x.cur, latch := none, valid := true, missRun := 0 }
      | none => { x with old := x.cur, valid := x.upSleep, missRun := if x.upSleep then 0 else x.missRun + 1 })
    recs := (List.range e.count).foldl (fun rs i => modAt rs (e.first + i) (fun x =>
      { x with
        curThermal := x.thermal, curRiso := x.riso, curIso := x.isoState
        oldThermal := x.curThermal, oldRiso := x.curRiso, oldIso := x.curIso })) d.lanes.recs } }
  let d := { d with lanes := { d.lanes with
    recs := if !(laneS d l).valid then d.lanes.recs else (List.range e.count).foldl (fun rs i => modAt rs (e.first + i) (fun r =>
      { r with iSum := r.iSum + toS 16 (dispField d di 0x202 i), iCount := r.iCount + 1 })) d.lanes.recs } }
  let x := laneS d l
  if !x.valid && x.everUp then incr 32 0x202 (l + 1) d else d

/-- The sample token on a pair lane: its receive buffer is latched (R425). -/
def samplePair (l : Nat) : Dev → Dev :=
  modLane l (fun x => match x.latch with | some b => { x with cur := b, latch := none } | none => x)

/-- SAMPLE_TOKEN: every bound stage and dispenser lane latches its frame; the rolling buffers take theirs (R40, R195, R441). -/
def sampleToken (d : Dev) : Dev :=
  if !(running d) || !d.time.begun || d.time.sampled then d
  else
    let d := forEach (stagesBound d) (fun s d =>
      let raw := latchedNow d.time.micro (laneS d s)
      rollFrame s raw (sampleStage s d)) d
    let d := forEach [48, 49] samplePair (forEach (dispsBound d) sampleDisp d)
    { d with time := { d.time with sampled := true } }

/-! ### The launch token (R41) -/

/-- The part may put its upstream direction to sleep: RX is set and the lane has been quiet for a major frame. -/
def upSleepBit (d : Dev) (l : Nat) : Bool :=
  let x := laneS d l
  (on d 0x205 (l + 1)).testBit 1 && x.quiet && !x.busyMajor

/-- The fields of a STAGE_DOWN frame (R124, R125). -/
def stageDown (d : Dev) (s : Nat) : Bytes :=
  let n := (stageE d s).phases
  let clr := (alGet d.lanes.clearBlock s).getD false
  let cmd := clearMask (lregGet d 3 s 0x111 0) (if (stgS d s).resume then 0xDFF else 0xC00) + 1024 * boolNat (upSleepBit d s) + 2048 * boolNat clr
  natLe 4 (on d 0x402 0) ++ natLe 4 cmd ++ natLe 4 (lregGet d 3 s 0x110 0) ++ natLe 1 (on d 0x206 0) ++ natLe 1 0 ++
    natLe 2 (on d 0x207 0) ++
    (List.range (2 * ((n + 1) / 2))).flatMap (fun p =>
      if p < n then natLe 2 (lregGet d 3 s 0x101 p) ++ natLe 2 (lregGet d 3 s 0x102 p) else natLe 4 0)

/-- The words a DISP_DOWN frame may hold within 0.30 of the micro-frame, beside start and terminate block (R127). -/
def dispWords (d : Dev) (l : Nat) : Nat := 300 * tNs d / blockPs (laneS d l).mode - 2

/-- The bytes of vehicle frames that a connector may still send in this minor frame (R291). -/
def vehLeft (spent : List (Nat × Nat)) (c : Nat) : Nat := 1250 - (alGet spent c).getD 0

/-- The vehicle frame fragments of connectors `first` on that fit into `room` words, `n` records and the bytes that each connector
may still send: the records, what remains to send, and the bytes sent (R132, R291). -/
def vethFill : Nat → Nat → Nat → Nat → Nat → List (Nat × Nat) → List (Nat × Bytes × Nat) →
    List LaneRec × List (Nat × Bytes × Nat) × List (Nat × Nat)
  | 0, _, _, _, _, u, q => ([], q, u)
  | _, _, _, _, _, u, [] => ([], [], u)
  | fuel + 1, first, count, n, room, u, (c, b, sent) :: q =>
    if c < first ∨ first + count ≤ c ∨ vehLeft u c = 0 then
      let r := vethFill fuel first count n room u q
      (r.1, (c, b, sent) :: r.2.1, r.2.2)
    else if n = 0 ∨ room < 2 then ([], (c, b, sent) :: q, u)
    else
      let k := min (min (vehLeft u c) (min 1024 (b.length - sent))) (8 * (room - 1))
      let fin := decide (b.length ≤ sent + k)
      let r : LaneRec := { rtype := 4, index := c - first, info := sent + 65536 * boolNat fin, body := (b.drop sent).take k }
      let used := 1 + (k + 7) / 8
      let u := alSet u c (1250 - vehLeft u c + k)
      let next := vethFill fuel first count (n - 1) (room - used) u (if fin then q else (c, b, sent + k) :: q)
      (r :: next.1, next.2)

/-- The bytes of a record (R129). -/
def recBytes (r : LaneRec) : Bytes :=
  natLe 1 r.rtype ++ natLe 1 r.index ++ natLe 2 r.body.length ++ natLe 4 r.info ++ r.body ++
    List.replicate (8 * ((r.body.length + 7) / 8) - r.body.length) 0

/-- The fields of a DISP_DOWN frame with its records (R132). A standby unit's carries EPOCH 0 and no record (R134). -/
def dispDown (d : Dev) (di : Nat) (rs : List LaneRec) : Bytes :=
  let c := dispCommand d di ||| lregGet d 5 di 0x310 0 ||| (65536 * boolNat (upSleepBit d (32 + di)))
  natLe 4 (if isActive d then on d 0x402 0 else 0) ++ natLe 4 c ++
    (List.range 8).flatMap (fun i => natLe 2 (coolField d di 0x301 i) ++ natLe 2 (coolField d di 0x302 i)) ++
    natLe 1 rs.length ++ natLe 1 (on d 0x206 0) ++ natLe 6 0 ++ rs.flatMap recBytes

/-- The RESEND records that wait for a dispenser's frame (R131). -/
def resends (d : Dev) (di : Nat) : List LaneRec :=
  let e := dispE d di
  (List.range e.count).flatMap (fun i => (metroS d (e.first + i)).resend.map (fun n =>
    { rtype := 5, index := i, info := n % 2 ^ 32, body := [] }))

/-- Launch the frame of a dispenser. -/
def launchDisp (di : Nat) (d : Dev) : Dev :=
  let l := 32 + di
  let e := dispE d di
  if isActive d then
    let room := dispWords d l - 7
    let rs := (resends d di).take (min 255 room)
    let kept := fun (i : Nat) (s : MetroS) =>
      { s with resend := s.resend.drop ((rs.filter (fun r => r.index == i)).length) }
    let d := forEach (List.range e.count) (fun i => modMetro (e.first + i) (kept i)) d
    let v := vethFill 600 e.first e.count (255 - rs.length) (room - rs.length) d.lanes.vehSent d.lanes.vethTx
    sendFrame l 4 (dispDown d di (rs ++ v.1)) { d with lanes := { d.lanes with vethTx := v.2.1, vehSent := v.2.2 } }
  else sendFrame l 4 (dispDown d di []) d

/-- A lane's turn at the launch token: the change of its fields is noted, and its frame goes unless the lane sleeps, wakes,
is down, or its stage is LOST (R41, R134, R142, R143, R197). -/
def launchLane (l : Nat) (d : Dev) : Dev :=
  let x := laneS d l
  if x.st != .up || !x.ctl || x.downSleep then d
  else if x.wakeWait ≠ 0 then modLane l (fun x => { x with wakeWait := x.wakeWait - 1 }) d
  else
    let fs := downFields d l
    let d := if fs = x.launched then d else modLane l (fun x => { x with launched := fs, busyMajor := true }) d
    if l < 32 then
      if isActive d && !((stgS d l).lost) then modStg l (fun x => { x with resume := false }) (sendFrame l 2 (stageDown d l) d) else d
    else launchDisp (l - 32) d

/-- LAUNCH_TOKEN (R41). -/
def launchToken (d : Dev) : Dev :=
  if !(running d) || !d.time.begun || d.time.launched then d
  else
    let d := if d.pair.role == .electing then d else forEach (attachedLanes d) launchLane d
    { d with time := { d.time with launched := true }, lanes := { d.lanes with clearBlock := [] } }

end Sys2Proof.Machine
end

