-- ==== Sys2Proof/Machine/YardPhy.lean ====
section
/-! DEFINITION. The physical layer of the yard powerline (spec/17 R390 to R394, R398, R399): sizes, maps, segments, codewords, spans and
the preamble, the frame header, and which carrier of a symbol carries which bits. The waveform that these make is analogue. -/

namespace Sys2Proof.Machine

def yardBit (d : Dev) (i : Nat) : Bool := (on d 0x3102 0).testBit i

def hcOf (d : Dev) : Nat := on d 0x3103 2

/-! ### Physical layer sizes (R390 to R394) -/

/-- Bit k of a mask: carrier 100 + k is masked. -/
def maskBit (m : Bytes) (k : Nat) : Bool := (byteAt m (k / 8)).testBit (k % 8)

/-- Unmasked carriers (R391). -/
def unmasked (m : Bytes) : Nat := ((List.range 1401).filter (fun k => !(maskBit m k))).length

/-- A YARD.MASK write is in range (R391). -/
def maskOk (m : Bytes) : Bool :=
  decide (400 ≤ unmasked m) && (List.range 7).all (fun i => !(maskBit m (1401 + i)))

/-- T_sym by GI code in units of 100 ns. -/
def tSym (gi : Nat) : Nat := if gi = 0 then 544 else if gi = 1 then 576 else 640

/-- Segment bytes and payload bytes of a rate code (R393). -/
def segBytes (rate : Nat) : Nat := if rate = 0 then 300 else if rate = 1 then 400 else 500
def segPay (rate : Nat) : Nat := segBytes rate - 3

/-- Bits per symbol of a map. -/
def mapBits (m : Bytes) : Nat := (m.map (fun b => b.toNat % 16 + b.toNat / 16)).foldl (· + ·) 0

/-- BASE: coded bits per symbol (R392). -/
def baseBits (d : Dev) : Nat := 2 * (unmasked (ob d 0x3101 0) / 3)

/-- A map is well formed: nibbles 0 to 10, the last high nibble 0, masked carriers 0. -/
def mapOk (mask m : Bytes) : Bool :=
  m.length == 701 && m.all (fun b => decide (b.toNat % 16 ≤ 10) && decide (b.toNat / 16 ≤ 10)) && decide (byteAt m 700 / 16 = 0) &&
    (List.range 1401).all (fun k => !(maskBit mask k) || decide ((byteAt m (k / 2) >>> (4 * (k % 2))) % 16 = 0))

def tmOk (mask : Bytes) (t : TmSet) : Bool := decide (t.rate ≤ 2) && decide (t.gi ≤ 2) && t.maps.length == 6 && t.maps.all (mapOk mask)

/-- BASE as rate, GI and capacity by slot. -/
structure Phy where
  rate : Nat
  gi : Nat
  caps : List Nat
  mapsel : Nat
  /-- the six maps; none for BASE -/
  maps : List Bytes := []
  deriving DecidableEq, Repr

def basePhy (d : Dev) : Phy := { rate := 0, gi := 1, caps := List.replicate 6 (baseBits d), mapsel := 0 }

/-- The set of a link in a version. -/
def setPhy (mapsel : Nat) (t : TmSet) : Phy := { rate := t.rate, gi := t.gi, caps := t.maps.map mapBits, mapsel := mapsel, maps := t.maps }

/-- The set used toward a neighbour: BASE while the zero crossing is lost or no set is held. -/
def phyTo (d : Dev) (a : Nat) : Phy :=
  let p := (alGet d.yard.tm a).getD {}
  if yardBit d 3 then basePhy d
  else
    match p.cur with
    | some 0 => (p.v0.map (setPhy 1)).getD (basePhy d)
    | some _ => (p.v1.map (setPhy 2)).getD (basePhy d)
    | none => basePhy d

/-- The slot of the half-cycle in which a time (100 ns from BP start) lies (R396). -/
def slotAtTime (hc t : Nat) : Nat := if hc = 0 then 0 else (t % hc) * 6 / hc

/-- The capacities of the payload symbols of a frame from `t` (100 ns from BP start) on, until `bits` coded bits are held: a symbol
uses the map of the slot in which its prefix starts (R392, R394). -/
def symCaps (hc : Nat) (p : Phy) : Nat → Nat → Nat → Option (List Nat)
  | 0, _, _ => none
  | f + 1, t, bits =>
    let c := p.caps.getD (slotAtTime hc t) 0
    if bits ≤ c then some [c] else (symCaps hc p f (t + tSym p.gi) (bits - c)).map (c :: ·)

/-- The symbols of `nseg` segments in a frame that starts at `start`: preamble and header take 192.0 µs. -/
def symsOf (d : Dev) (p : Phy) (start nseg : Nat) : Option (List Nat) := symCaps (hcOf d) p 1200 (start + 1920) (4800 * nseg)

/-- NSYM (R394). -/
def nsymOf (d : Dev) (p : Phy) (start nseg : Nat) : Option Nat := (symsOf d p start nseg).map List.length

/-! ### Segments and codewords (R393) -/

/-- The CRC-24 of RFC 4880. -/
def crc24 (b : Bytes) : Nat := crcBits 24 0x864CFB 0xB704CE (bytesBitsMsb b)

/-- Segment `s` of a message at a payload size: padded with 0x00, its CRC-24 last (R393). -/
def segmentOf (pay : Nat) (msg : Bytes) (s : Nat) : Bytes :=
  let b := slice msg (s * pay) pay
  let b := b ++ List.replicate (pay - b.length) 0
  b ++ natLe 3 (crc24 b)

/-- A segment as decoded at a rate: its payload where the CRC-24 is valid. -/
def segmentIn (rate : Nat) (b : Bytes) : Option Bytes :=
  if b.length = segBytes rate ∧ crc24 (b.take (segPay rate)) = fieldLe b (segPay rate) 3 then some (b.take (segPay rate)) else none

/-- `n` bits of the scrambler x¹⁰ + x³ + 1 from a state on (R393). -/
def plcScrambler : Nat → Nat → List Bool
  | 0, _ => []
  | n + 1, s =>
    let o := s.testBit 9 ^^ s.testBit 2
    o :: plcScrambler n ((2 * s + boolNat o) % 1024)

/-- Rows of the base matrix of a rate, and where it begins among the entries of YARD.LDPC_BASE. -/
def ldpcRows (rate : Nat) : Nat := if rate = 0 then 12 else if rate = 1 then 8 else 4
def ldpcFirst (rate : Nat) : Nat := if rate = 0 then 0 else if rate = 1 then 288 else 480

/-- The codeword bits of parity check `i` of base row `r`: each column's 200 × 200 circulant puts its one (i + shift) mod 200 places
in (R393; that a shift moves to the right: DESIGN CHOICE, log entry 71). -/
def ldpcCheck (rate r i : Nat) : List Nat :=
  (List.range 24).filterMap (fun c =>
    let s := Config.ldpcShift (ldpcFirst rate + 24 * r + c)
    if s = 0xFFFF then none else some (200 * c + (i + s) % 200))

/-- The checks of a rate over the parity bits, as numbers whose bit j is parity bit j; bit `m` above them is the sum of the
information bits of the check. -/
def ldpcEquations (rate : Nat) (info : List Bool) : List Nat :=
  let k := info.length
  let m := 200 * ldpcRows rate
  (List.range (ldpcRows rate)).flatMap (fun r => (List.range 200).map (fun i =>
    (ldpcCheck rate r i).foldl (fun a b =>
      if b < k then (if info.getD b false then a ^^^ 2 ^ m else a) else a ^^^ 2 ^ (b - k)) 0))

/-- One step of the elimination: the solved equations, and those still open; none where no open equation holds bit `j`. -/
def eliminate (j : Nat) (x : List Nat × List Nat) : Option (List Nat × List Nat) :=
  match x.2.find? (fun e => e.testBit j) with
  | none => none
  | some p =>
    let f := fun (e : Nat) => if e.testBit j then e ^^^ p else e
    some (x.1.map f ++ [p], (x.2.erase p).map f)

/-- The parity bits that meet every check of R393; a free value where the checks do not fix them. -/
def ldpcParity (rate : Nat) (info : List Bool) : List Bool :=
  let m := 200 * ldpcRows rate
  match (List.range m).foldl (fun (x : Option (List Nat × List Nat)) j => x.bind (eliminate j)) (some ([], ldpcEquations rate info)) with
  | some s => s.1.map (fun e => e.testBit m)
  | none => (Config.ldpcParity rate info ++ List.replicate m false).take m

/-- The 4,800 bits of a codeword: information bits first, then the parity bits (R393). -/
def codeword (rate : Nat) (info : List Bool) : List Bool := info ++ ldpcParity rate info

/-- Pieces of `k` bits. -/
def pieces (k : Nat) : Nat → List Bool → List (List Bool)
  | 0, _ => []
  | n + 1, b => b.take k :: pieces k n (b.drop k)

/-- The coded bits of segments, and the scrambler's bits that follow (R393, R394). -/
def codedBits (rate : Nat) (segs : List Bytes) (fill : Nat) : List Bool :=
  let info := segs.flatMap bytesBitsLsb
  let s := plcScrambler (info.length + fill) 1023
  ((pieces (8 * segBytes rate) segs.length (List.zipWith (· ^^ ·) info s)).flatMap (codeword rate)) ++ s.drop info.length

/-- One bit to each symbol that is not yet full, in order. -/
def dealRound : List (Nat × List Bool) → List Bool → List (Nat × List Bool) × List Bool
  | (n + 1, a) :: l, x :: b => let r := dealRound l b; ((n, x :: a) :: r.1, r.2)
  | p :: l, b => let r := dealRound l b; (p :: r.1, r.2)
  | [], b => ([], b)

/-- Bits dealt over the symbols of a span until all are full (R394). -/
def dealSpan : Nat → List (Nat × List Bool) → List Bool → List (List Bool) × List Bool
  | 0, syms, b => (syms.map (fun p => p.2.reverse), b)
  | k + 1, syms, b => let r := dealRound syms b; dealSpan k r.1 r.2

/-- The symbols of a frame, span after span (R394). -/
def spansOf (span : Nat) : Nat → List Nat → List Bool → List (List Bool)
  | 0, _, _ => []
  | k + 1, caps, b =>
    if caps = [] then []
    else
      let here := caps.take span
      let r := dealSpan (here.foldl max 0) (here.map (fun c => (c, []))) b
      r.1 ++ spansOf span k (caps.drop span) r.2

/-- Interleaving span in ms (R399). -/
def yardIlv : Nat := min Config.yardIlv 10

/-- The payload symbols of a frame. -/
def frameSymbols (p : Phy) (caps : List Nat) (segs : List Bytes) : List (List Bool) :=
  let total := caps.foldl (· + ·) 0
  spansOf (max 1 (yardIlv * 10000 / tSym p.gi)) caps.length caps (codedBits p.rate segs (total - 4800 * segs.length))

/-! ### Carriers (R390 to R392) -/

/-- The unmasked carriers, by index. -/
def carriers (mask : Bytes) : List Nat := ((List.range 1401).filter (fun k => !(maskBit mask k))).map (100 + ·)

/-- A payload symbol under a map: its carriers in ascending order, each with its bits (that a symbol's bits go to its carriers in
ascending order: DEDUCED, log entry 71). -/
def mapCarriers (m : Bytes) : List Nat → List Bool → List (Nat × List Bool)
  | k :: l, b =>
    let n := (byteAt m (k / 2) >>> (4 * (k % 2))) % 16
    if n = 0 then mapCarriers m l b else (100 + k, b.take n) :: mapCarriers m l (b.drop n)
  | [], _ => []

/-- Pairs of bits. -/
def bitPairs : List Bool → List (List Bool)
  | a :: b :: l => [a, b] :: bitPairs l
  | _ => []

/-- A symbol in BASE: carrier u belongs to group u mod 3; the groups carry the pairs in order, in reverse order, and in order with
the two bits exchanged (R392). -/
def baseCarriers (mask : Bytes) (b : List Bool) : List (Nat × List Bool) :=
  let n := unmasked mask / 3
  let ps := bitPairs b
  (((List.range (3 * n)).zip (carriers mask)).map (fun p =>
    let j := p.1 / 3
    (p.2, if p.1 % 3 = 0 then ps.getD j [] else if p.1 % 3 = 1 then ps.getD (n - 1 - j) [] else (ps.getD j []).reverse)))

/-- The payload symbols of a frame that starts at `start`, on their carriers. -/
def onCarriers (d : Dev) (p : Phy) (start : Nat) (syms : List (List Bool)) : List (List (Nat × List Bool)) :=
  ((List.range syms.length).zip syms).map (fun q =>
    match p.maps[slotAtTime (hcOf d) (start + 1920 + q.1 * tSym p.gi)]? with
    | some m => mapCarriers m (List.range 1401) q.2
    | none => baseCarriers (ob d 0x3101 0) q.2)

/-! ### The preamble and the frame header (R398, R399) -/

/-- The carriers of TRAIN and of MARK with their phases in units of π/706: π·m(m + 1)/353 for k = 4·m, MARK a quarter turn more. -/
def trainCarriers (mask : Bytes) (turn : Nat) : List (Nat × Nat) :=
  ((carriers mask).filter (fun k => k % 4 == 0)).map (fun k => (k, (2 * (k / 4) * (k / 4 + 1) + turn) % 1412))

/-- CRC-16 of a frame header: generator 0x8005, initial value 0xFFFF, most significant bit first. -/
def fhCrc (b : Bytes) : Nat := crcBits 16 0x8005 0xFFFF (bytesBitsMsb b)

/-- A frame header from its bytes 6 to 12. -/
def fhBytes (d : Dev) (kind ldst : Nat) (rest : Bytes) : Bytes :=
  let b := natLe 1 kind ++ natLe 1 (on d 0x3100 2 % 256) ++ natLe 2 0 ++ natLe 2 ldst ++ rest ++ natLe 1 0
  b ++ natLe 2 (fhCrc b)

/-- The header of a BEACON or DATA frame. -/
def dataHeader (d : Dev) (kind ldst mapsel nseg nsym seq : Nat) : Bytes :=
  fhBytes d kind ldst (natLe 1 mapsel ++ natLe 1 yardIlv ++ natLe 2 nseg ++ natLe 2 nsym ++ natLe 1 seq)

/-- The header of a RECEIPT: SEQ_ACKED and the 48 bits of SEGMASK. -/
def receiptHeader (d : Dev) (ldst seq mask : Nat) : Bytes := fhBytes d 0x13 ldst (natLe 1 seq ++ natLe 6 mask)

/-- Addresses in use (R407). -/
def addrOk (a : Nat) : Bool := a == 0 || (decide (0x100 ≤ a) && decide (a < 0x300)) || a == 0xFFFE || a == 0xFFFF

/-- A header is taken: its CRC and NET are right, its addresses are not reserved, byte 13 is 0. -/
def fhSound (d : Dev) (b : Bytes) : Bool :=
  b.length == 16 && fhCrc (b.take 14) == fieldLe b 14 2 && byteAt b 1 == on d 0x3100 2 % 256 && byteAt b 13 == 0 &&
    addrOk (fieldLe b 2 2) && addrOk (fieldLe b 4 2)

/-- The fields of a DATA header are in range, for so many segments. -/
def fhDataOk (b : Bytes) (segs : Nat) : Bool :=
  byteAt b 0 == 0x12 && decide (byteAt b 6 < 3) && decide (byteAt b 7 ≤ 10) && fieldLe b 8 2 == segs && decide (1 ≤ segs) &&
    decide (segs ≤ 48) && decide (1 ≤ fieldLe b 10 2)

/-- The parity of the taps of a generator over the present bit and the eight before it, the present bit on the left tap. -/
def convTap (g : Nat) (w : List Bool) : Bool := ((List.range 9).zip w).foldl (fun a p => a ^^ (p.2 && g.testBit (8 - p.1))) false

/-- The 128 bits of a header under the tail-biting code of rate 1/2, constraint length 9, generators 561 and 753 octal (R398). -/
def fhCode (b : Bytes) : List Bool :=
  let v := bytesBitsLsb b
  (List.range v.length).flatMap (fun i =>
    let w := (List.range 9).map (fun k => v.getD ((i + v.length - k) % v.length) false)
    [convTap 0x171 w, convTap 0x1EB w])

/-- The two symbols of the header: the unmasked carriers of both, numbered u = 0, 1, …, carry pair u mod 128 (R398). -/
def fhSymbols (mask b : Bytes) : List (List (Nat × List Bool)) :=
  let ps := bitPairs (fhCode b)
  let cs := carriers mask
  [0, 1].map (fun h => ((List.range cs.length).zip cs).map (fun p => (p.2, ps.getD ((h * cs.length + p.1) % 128) [])))

/-- A frame on the air, from its header and its payload (R390, R398). -/
def airFrame (d : Dev) (psd : Int) (fh : Bytes) (gi : Nat) (symbols : List (List (Nat × List Bool))) : YardAir :=
  let mask := ob d 0x3101 0
  { psd := psd, train := trainCarriers mask 0, mark := trainCarriers mask 353, head := fhSymbols mask fh, gi := gi, symbols := symbols }

end Sys2Proof.Machine
end

