-- ==== Sys2Proof/Machine/Yard.lean ====
section
/-! DEFINITION. The yard powerline network (spec/17): mains timing, frames as segments and headers, medium access,
association, routing, points. The AES modes are open functions of Config. -/

namespace Sys2Proof.Machine

def modYard (f : YardS → YardS) (d : Dev) : Dev := { d with yard := f d.yard }

/-- The powerline runs: it is enabled, and ring 10 has a size (R416, R421). -/
def yardOn (d : Dev) : Bool := running d && oflag d 0x3100 1 && decide (ringSize d 10 ≠ 0)

/-- The device may transmit (R395, R414). -/
def yardMaySend (d : Dev) : Bool := yardOn d && isActive d && !d.yard.drvOff && !d.yard.vplcLow

def bpn (d : Dev) : Nat := on d 0x3103 3

/-- The transmit level in dBm/Hz (R390): YARD.CFG.03, 6 dB lower while DIE_THROTTLE stands (R262). -/
def yardPsd (d : Dev) : Int := oi 8 d 0x3100 3 - (if d.therm.plReduced then 6 else 0)

/-! ### Mains timing (R396, R397) -/

/-- An interval of 45 to 65 Hz, in ns. -/
def cycleOk (dt : Nat) : Bool := decide (1000000000 ≤ 65 * dt) && decide (45 * dt ≤ 1000000000)

/-- Tone maps are estimated afresh: none is held, and which version was in use stays known. -/
def forgetMaps : Dev → Dev := modYard (fun y =>
  let f := fun (l : List (Nat × TmPair)) => l.map (fun p => (p.1, { p.2 with v0 := none, v1 := none }))
  { y with tm := f y.tm, rxTm := f y.rxTm })

/-- PL_ZC_EDGE at time `t` ns: HC and the frequency, measured whether the powerline is enabled or not (R396, R397). -/
def zcEdge (t : Nat) (d : Dev) : Dev :=
  if !(running d) then d
  else
    let y := d.yard
    let ok := match y.lastEdge with | some p => decide (p < t) && cycleOk (t - p) | none => false
    let edges := if ok then (t :: (if y.edges = [] then [y.lastEdge.getD t] else y.edges)).take 9 else []
    let okc := if ok then y.okCyc + 1 else 0
    let d := modYard (fun y => { y with lastEdge := some t, edges := edges, okCyc := okc, cycles := if ok then y.cycles + 1 else y.cycles }) d
    let d := match edges[8]? with
      | some t0 =>
        put 0x3103 2 ((t - t0 + 800) / 1600) (put 0x3103 1 ((2 * 8000000000 * 65536 + (t - t0)) / (2 * (t - t0))) d)
      | none => d
    if yardBit d 2 ∧ okc ≥ 8 then raiseEnd 0x6201 noInst 0 (forgetMaps (clrStatus 0x3102 0 3 (clrStatus 0x3102 0 2 d))) else d

/-- YARD_ZC_LOST: no valid edge for 30 ms. -/
def zcLost (d : Dev) : Dev :=
  if running d && !(yardBit d 2) then
    raise 0x6201 noInst 0 (setStatus 0x3102 0 2 (modYard (fun y => { y with okCyc := 0, edges := [] }) d))
  else d

/-- ZC_BASE_TIMEOUT: one second without a valid edge. -/
def zcBase (d : Dev) : Dev := if running d && yardBit d 2 then setStatus 0x3102 0 3 d else d

/-- The zero-crossing offset in µs (YARD.CFG.08). -/
def zcOffset (d : Dev) : Int := oi 16 d 0x3100 8

/-- A beacon period may start: at every second rising edge plus the offset, where a negative offset puts the start before that edge;
without edges the last HC goes on (R396, R397). -/
def bpDue (d : Dev) : Bool :=
  yardBit d 2 || decide (2 ≤ d.yard.cycles) || (decide (zcOffset d < 0) && decide (1 ≤ d.yard.cycles))

/-- The start in ns of the beacon period that begins: from the edge two cycles after the last, or 4 × HC after the last start while
the zero crossing is lost. -/
def bpBegin (d : Dev) : Dev :=
  modYard (fun y =>
    if yardBit d 2 then { y with cycles := 0, bpStart := y.bpStart + 400 * hcOf d }
    else
      { y with cycles := y.cycles - 2
               bpStart := (y.lastEdge.getD 0 : Nat) - 200 * hcOf d * ((y.cycles : Int) - 2) + 1000 * zcOffset d }) d

/-! ### Nodes -/

def yNode (i : Nat) : Nat := oYard i 0

/-- Node index of an address. -/
def nodeIdx (a : Nat) : Option Nat := if 0x100 ≤ a ∧ a < 0x300 then some (a - 0x100) else none

def nodeState (d : Dev) (i : Nat) : Nat := on d (yNode i) 2

/-- Indices of the associated nodes. -/
def associated (d : Dev) : List Nat := (List.range 512).filter (fun i => nodeState d i == 2)

/-- Bindings: serial and address. -/
def bindings (d : Dev) : List (Bytes × Nat) :=
  let b := ob d 0x3104 0
  (List.range (b.length / 20)).map (fun n => (slice b (20 * n) 16, fieldLe b (20 * n + 16) 2))

def putBindings (l : List (Bytes × Nat)) (d : Dev) : Dev :=
  wrStatus 0x3102 0 4 (decide (l.length ≥ 512)) (putb 0x3104 0 (l.flatMap (fun p => p.1 ++ natLe 2 p.2 ++ natLe 2 0)) d)

/-- A node has been heard (R412). -/
def heard (a : Nat) (d : Dev) : Dev :=
  match nodeIdx a with
  | some i => if on d (yNode i) 10 = 0 then d else put (yNode i) 10 0 d
  | none => d

/-! ### Messages (R401) -/

/-- Header of a message from the device. -/
def msgHeader (mtype dst mseq : Nat) (route : List Nat) (len : Nat) : Bytes :=
  natLe 1 mtype ++ natLe 1 0 ++ natLe 2 0 ++ natLe 2 dst ++ natLe 2 mseq ++ natLe 1 8 ++ natLe 1 route.length ++ natLe 2 len ++
    route.flatMap (natLe 2)

/-- The intermediate addresses and the first hop toward an address. -/
def downPath (d : Dev) (a : Nat) : List Nat × Nat :=
  match alGet d.yard.routes a with
  | some r => (match r.down with | h :: _ => (r.down.filter (· != a), h) | [] => ([], (alGet d.yard.via a).getD a))
  | none => ([], (alGet d.yard.via a).getD a)

/-- The stations that carry a message, counted in this beacon period (R405). -/
def carry (l : List Nat) : Dev → Dev :=
  modYard (fun y =>
    let add := fun (c : List (Nat × Nat)) => l.foldl (fun c a => alSet c a ((alGet c a).getD 0 + 1)) c
    { y with carried := match y.carried with | c :: r => add c :: r | [] => [add []] })

/-- The stations on the way up from a node, by the routes held. -/
def upPath (d : Dev) : Nat → Nat → List Nat
  | 0, _ => []
  | n + 1, a => match alGet d.yard.routes a with
    | some r => if r.up = 0 then [] else r.up :: upPath d n r.up
    | none => []

/-- Queue a message; `plain` for ASSOC_RSP, whose MIC is all zeros. -/
def sendMsg (mtype dst : Nat) (body : Bytes) (plain : Bool) (d : Dev) : Dev :=
  if !(isActive d) || !(oflag d 0x3100 1) || decide (ringSize d 10 = 0) then d
  else
    let p := if dst = 0xFFFF then ([], 0xFFFF) else downPath d dst
    let h := msgHeader mtype dst d.yard.mseq (p.1.take 7) body.length
    let msg := h ++ (if plain then body ++ List.replicate 8 0 else Config.ccmSeal (yardNetKey d) h body)
    let sq := (alGet d.yard.seqs p.2).getD 0
    carry (0 :: ((p.2 :: p.1).filter (fun a => a != dst)).eraseDups)
      (modYard (fun y => { y with mseq := (y.mseq + 1) % 65536, seqs := alSet y.seqs p.2 ((sq + 1) % 256)
                                  tx := y.tx ++ [{ ldst := p.2, msg := msg, seq := sq }] }) d)

/-- A message as received: header fields and body; none when it is malformed, names a reserved address, has come to the end of its
hops, or its MIC fails (R401, R407, R411). The body of a HELLO is authenticated, not encrypted (R401). -/
def openMsg (key : Bytes) (lsrc : Nat) (m : Bytes) : Option YMsg :=
  let mt := byteAt m 0
  let rc := byteAt m 9
  let len := fieldLe m 10 2
  let h := m.take (12 + 2 * rc)
  let rest := slice m (12 + 2 * rc) (len + 8)
  if byteAt m 1 ≠ 0 ∨ 7 < rc ∨ byteAt m 8 = 0 ∨ 8 < byteAt m 8 ∨ len = 0 ∨ rest.length ≠ len + 8 ∨
      !(addrOk (fieldLe m 2 2)) ∨ !(addrOk (fieldLe m 4 2)) ∨
      (List.range rc).any (fun k => !(addrOk (fieldLe m (12 + 2 * k) 2))) then none
  else
    let body := if mt = 1 ∨ mt = 2 then (if (rest.drop len).all (· == 0) then some (rest.take len) else none)
      else if mt = 3 then (if Config.ccmOpen key (h ++ rest.take len) (rest.drop len) = some [] then some (rest.take len) else none)
      else Config.ccmOpen key h rest
    body.map (fun b => { mtype := mt, src := fieldLe m 2 2, lsrc := lsrc, mseq := fieldLe m 6 2, body := b })

/-! ### Frames received (R399, R400, R409) -/

/-- The next message of a type waits for its row. -/
def takeMsg (mt : Nat) (d : Dev) : Option (YMsg × Dev) :=
  match d.yard.inbox.find? (fun m => m.mtype == mt) with
  | some m => some (m, modYard (fun y => { y with inbox := y.inbox.erase m }) d)
  | none => none

/-- Error rate of a link to this device, as a moving average of weight 1/16 (R409). -/
def errStep (e bad total : Nat) : Nat := e - e / 16 + (bad * 2 ^ 28) / total

/-- Rate of a link in kbit/s for a set (R409). -/
def rateKbps (p : Phy) : Nat :=
  let sum := p.caps.foldl (· + ·) 0
  let num := if p.rate = 0 then 3 else if p.rate = 1 then 4 else 5
  sum * num * 10000 / (36 * tSym p.gi)

/-- Link cost (R409): min(65535, ceil(10^6 / (R (1 − e)))). -/
def linkCost (r e : Nat) : Nat := if r = 0 ∨ e ≥ 2 ^ 32 then 65535 else min 65535 (ceilDiv (1000000 * 2 ^ 32) (r * (2 ^ 32 - e)))

/-- The set that the device has chosen for receiving from a node, by MAPSEL; none where it holds no such version. -/
def rxSet (d : Dev) (a mapsel : Nat) : Option TmSet :=
  let p := (alGet d.yard.rxTm a).getD {}
  if mapsel = 1 then p.v0 else p.v1

/-- The link from a neighbour as the device receives it (R409). -/
def phyFrom (d : Dev) (a : Nat) : Phy :=
  let p := (alGet d.yard.rxTm a).getD {}
  let set := match p.cur with | some 0 => p.v0.map (setPhy 1) | some _ => p.v1.map (setPhy 2) | none => none
  if yardBit d 3 then basePhy d else set.getD (basePhy d)

/-- The receiver chooses the maps of a link and sends them in TM_UPDATE, in the version that is not in use (R392): once for each
associated neighbour after its first frame, and again after maps were forgotten; which maps is a free value (log entry 51). -/
def chooseMaps (a : Nat) (d : Dev) : Dev :=
  match nodeIdx a with
  | none => d
  | some i =>
    let p := (alGet d.yard.rxTm a).getD {}
    if !(yardMaySend d) || yardBit d 3 || nodeState d i != 2 || p.v0.isSome || p.v1.isSome then d
    else
      let c := Config.toneMaps a (bpn d)
      let t : TmSet := { rate := c.1, gi := c.2.1, maps := c.2.2 }
      let ver := if p.cur = some 0 then 1 else 0
      let p : TmPair := if ver = 0 then { v0 := some t, cur := some 0 } else { v1 := some t, cur := some 1 }
      if tmOk (ob d 0x3101 0) t then
        sendMsg 7 a (natLe 1 ver ++ natLe 1 t.rate ++ natLe 1 t.gi ++ natLe 1 0 ++ t.maps.flatten) false
          (modYard (fun y => { y with rxTm := alSet y.rxTm a p }) d)
      else d

/-- The payload of a frame's segments, none where a CRC-24 fails or the frame uses a set the device does not hold. -/
def rxSegs (d : Dev) (fh : Bytes) (segs : List Bytes) : Option (List (Option Bytes)) :=
  let rate := if byteAt fh 6 = 0 then some 0 else (rxSet d (fieldLe fh 2 2) (byteAt fh 6)).map (·.rate)
  rate.map (fun r => segs.map (segmentIn r))

/-- The missing segments, filled in order. -/
def fillMissing : List (Option Bytes) → List (Option Bytes) → List (Option Bytes)
  | none :: l, s :: r => s :: fillMissing l r
  | x :: l, r => x :: fillMissing l r
  | [], _ => []

/-- What a frame adds to the SEQ in progress, and which of its segments the RECEIPT names. A repeat of a SEQ carries all its
segments, or the missing ones in ascending order (log entry 52). -/
def rxMerge (old : Option YRx) (segs : List (Option Bytes)) : List (Option Bytes) × List Bool :=
  let got := segs.map (fun x => x.isSome)
  match old with
  | none => (segs, got)
  | some r =>
    if r.delivered then (r.segs, segs.map (fun _ => true))
    else if segs.length = r.segs.length then
      let m := List.zipWith (fun a b => a.or b) r.segs segs
      (m, m.map (fun x => x.isSome))
    else if segs.length = (r.segs.filter (fun x => x.isNone)).length then (fillMissing r.segs segs, got)
    else (segs, got)

/-- A RECEIPT starts 95 to 105 µs after the frame it answers; it keeps clear of the beacon slot and ends before the guard (R400,
R402, R415). -/
def receiptFits (d : Dev) (stop : Nat) : Bool := decide (25000 ≤ stop + 950) && decide (stop + 1050 + 1920 + 10000 ≤ 4 * hcOf d)

/-- A frame leaves by way of ring 10 (R420). -/
def yardOut (f : YardAir) (d : Dev) : Dev := ringPass 10 [.part] (emit (.yardFrame f)) id d

/-- A node is associated from this beacon period on (R408). -/
def nodeJoins (i : Nat) (serial : Bytes) (d : Dev) : Dev :=
  modYard (fun y => { y with since := alSet y.since (0x100 + i) (bpn d) })
    (put (yNode i) 10 0 (putb (yNode i) 3 serial (put (yNode i) 2 2 (put (yNode i) 1 (0x100 + i) d))))

/-- A standby unit keeps the bindings of the ASSOC_RSP messages it hears: their nodes are associated (R414). -/
def assocHeard (m : YMsg) (d : Dev) : Dev :=
  let serial := slice m.body 0 16
  let addr := fieldLe m.body 16 2
  match nodeIdx addr with
  | none => d
  | some i =>
    if m.body.length ≠ 60 ∨ byteAt m.body 18 ≠ 0 ∨ byteAt m.body 19 ≠ 0 then d
    else nodeJoins i serial (if (bindings d).any (fun p => p.1 == serial) then d else putBindings (bindings d ++ [(serial, addr)]) d)

/-- A bound node whose report arrives is associated, though this unit has not seen it join (R414). -/
def nodeFound (a : Nat) (d : Dev) : Dev :=
  match nodeIdx a, (bindings d).find? (fun p => p.2 == a) with
  | some i, some p => if nodeState d i = 0 then nodeJoins i p.1 d else d
  | _, _ => d

/-- A whole message has arrived: one for the device waits for its row, and is counted for the stations that carried it. -/
def deliver (lsrc : Nat) (m : Bytes) (d : Dev) : Dev :=
  match openMsg (yardNetKey d) lsrc m with
  | none => d
  | some msg =>
    let dst := fieldLe m 4 2
    if dst = 0 ∨ dst = 0xFFFF then
      let via := modYard (fun y => { y with inbox := y.inbox ++ [msg], via := if msg.src = 0xFFFE then y.via else alSet y.via msg.src lsrc })
      carry (0 :: upPath d 8 msg.src) (via (heard msg.src d))
    else if msg.mtype = 2 ∧ !(isActive d) then assocHeard msg d
    else d

/-- SEGMENTS and RETRIES of a neighbour whose NEXT_UP is the device (R417). -/
def countLink (lsrc segs : Nat) (again : Bool) (d : Dev) : Dev :=
  match nodeIdx lsrc with
  | some i =>
    if on d (yNode i) 7 ≠ 0 then d
    else
      let o := oYard i 1
      let d := put o 3 (satU 32 (on d o 3 + segs)) d
      if again then put o 4 (satU 32 (on d o 4 + segs)) d else d
  | none => d

/-- A DATA frame for the device has come through ring 10: its segments, the error rate of the link, the RECEIPT, the message. SEQ
runs for each link direction, the broadcast one apart (R399, R400). -/
def yardTake (fh : Bytes) (segs : List Bytes) (stop : Nat) (d : Dev) : Dev :=
  let lsrc := fieldLe fh 2 2
  let ldst := fieldLe fh 4 2
  let seq := byteAt fh 12
  let bc := ldst == 0xFFFF
  match rxSegs d fh segs with
  | none => d
  | some got =>
    let d := incr 32 0x3106 4 d
    let bad := (got.filter (fun x => x.isNone)).length
    let d := modYard (fun y => { y with errs := alSet y.errs lsrc (errStep ((alGet y.errs lsrc).getD 0) bad segs.length) }) d
    let old := d.yard.rx.find? (fun r => r.lsrc == lsrc && r.bcast == bc && r.seq == seq)
    let d := countLink lsrc segs.length old.isSome d
    let done := match old with | some r => r.delivered | none => false
    let m := rxMerge old got
    let full := m.1.all (fun x => x.isSome)
    let d := modYard (fun y => { y with rx := (y.rx.filter (fun r => r.lsrc != lsrc || r.bcast != bc)) ++
      [{ lsrc := lsrc, bcast := bc, seq := seq, segs := m.1, delivered := done || full }] }) d
    let mask := maskOf ((List.range m.2.length).filter (fun i => m.2.getD i false))
    let d := if ldst = 0 ∧ yardMaySend d ∧ receiptFits d stop then yardOut (airFrame d (yardPsd d) (receiptHeader d lsrc seq mask) 1 []) d else d
    chooseMaps lsrc (if full && !done then deliver lsrc (m.1.flatMap (fun x => x.getD [])) d else d)

/-- YARD_DATA_FRAME: its header, its segments as decoded, and its end in 100 ns from BP start. A standby unit only receives, and
takes the frames for other stations too (R414); the active unit hears their source (R412). -/
def yardData (fh : Bytes) (segs : List Bytes) (stop : Nat) (d : Dev) : Dev :=
  let ldst := fieldLe fh 4 2
  if !(yardOn d) || !(fhSound d fh) || !(fhDataOk fh segs.length) then d
  else
    let d := heard (fieldLe fh 2 2) d
    if ldst = 0 ∨ ldst = 0xFFFF ∨ !(isActive d) then ringPass 10 [.yardIn fh segs stop] (yardTake fh segs stop) id d else d

/-! ### Frames sent (R400, R404) -/

/-- Segments of a message at a payload size. -/
def segsOf (n : Nat) (msg : Bytes) : Nat := max 1 (ceilDiv msg.length n)

/-- The frame at the head of the queue that does not wait for a RECEIPT. -/
def txHead (d : Dev) : Option YTx := d.yard.tx.find? (fun t => !t.wait)

/-- The end, in 100 ns from BP start, of the region in which the device may start a frame at `start`, and whether it needs the
backoff there: its own relay window, another's window that was left idle for 500 µs, or the open region (R402, R404). `idleFrom` is
since when the medium has been idle. -/
def regionEnd (d : Dev) (start idleFrom : Nat) : Option (Nat × Bool) :=
  match d.yard.windows.find? (fun w => decide (100 * w.2.1 ≤ start) && decide (start < 100 * (w.2.1 + w.2.2))) with
  | some w =>
    if w.1 = 0 then some (100 * (w.2.1 + w.2.2), false)
    else if max idleFrom (100 * w.2.1) + 5000 ≤ start then some (100 * (w.2.1 + w.2.2), true)
    else none
  | none => if 100 * d.yard.relayEnd ≤ start then some (4 * hcOf d - 10000, true) else none

/-- A backoff count of 0 to W − 1 access slots is drawn where none is held and a frame waits; the device's W is 4 (R404). -/
def drawBackoff (d : Dev) : Dev :=
  if d.yard.backoff.isSome ∨ (txHead d).isNone then d
  else
    let r := draw 1 d
    modYard (fun y => { y with backoff := some (leNat r.1 % 4) }) r.2

/-- The medium has been idle for 120 µs, and for the access slots of the count (R404). -/
def backoffDone (d : Dev) (start idleFrom slots : Nat) : Bool :=
  decide (idleFrom + 1200 ≤ start) && decide (d.yard.backoff.getD 0 ≤ slots)

/-- YARD_FRAME_SEND at `start` (100 ns from BP start), when the medium has been idle since `idleFrom` and for `slots` access slots since
the count was drawn. A frame that could not end, with its RECEIPT, before its region does keeps its count. -/
def yardSend (start idleFrom slots : Nat) (d : Dev) : Dev :=
  if !(yardMaySend d) || !(ringIdle d 10) then d
  else
    let d := drawBackoff d
    match txHead d with
    | none => d
    | some t =>
      let p := if t.ldst = 0xFFFF then basePhy d else phyTo d t.ldst
      let again := decide (t.nseg ≠ 0 ∧ t.rate = p.rate)
      let n := if again then t.nseg else segsOf (segPay p.rate) t.msg
      let left := if again then t.left else List.range n
      match symsOf d p start left.length, regionEnd d start idleFrom with
      | some caps, some last =>
        let stop := start + 1920 + caps.length * tSym p.gi + (if t.ldst = 0xFFFF then 0 else 1050 + 1920)
        if last.1 < stop || (last.2 && !(backoffDone d start idleFrom slots)) then d
        else
          let fh := dataHeader d 0x12 t.ldst p.mapsel left.length caps.length t.seq
          let d := yardOut (airFrame d (yardPsd d) fh p.gi
            (onCarriers d p start (frameSymbols p caps (left.map (segmentOf (segPay p.rate) t.msg))))) d
          let d := incr 32 0x3106 3 d
          let t' := { t with nseg := n, rate := p.rate, left := left, tries := t.tries + 1, wait := true }
          drawBackoff (modYard (fun y => { y with
            backoff := none
            tx := if t.ldst = 0xFFFF then y.tx.erase t else y.tx.map (fun x => if x = t then t' else x) }) d)
      | _, _ => d

/-- After a frame's RECEIPT, or its absence: the missing segments are sent again, at most 4 more times (R400). -/
def txAgain (t : YTx) (left : List Nat) (d : Dev) : Dev :=
  if left = [] then modYard (fun y => { y with tx := y.tx.erase t }) d
  else if t.tries ≥ 5 then
    put 0x3106 5 (satU 32 (on d 0x3106 5 + left.length)) (modYard (fun y => { y with tx := y.tx.erase t }) d)
  else
    modYard (fun y => { y with tx := y.tx.map (fun x => if x = t then { t with left := left, wait := false } else x) }) d

/-- RECEIPT of a neighbour: bit s of its SEGMASK is for segment s of the frame answered (R400). -/
def yardReceipt (fh : Bytes) (d : Dev) : Dev :=
  let lsrc := fieldLe fh 2 2
  if !(yardOn d) || !(fhSound d fh) || byteAt fh 0 != 0x13 || fieldLe fh 4 2 != 0 then d
  else
    match d.yard.tx.find? (fun t => t.wait && t.ldst == lsrc && t.seq == byteAt fh 6) with
    | none => d
    | some t =>
      txAgain t (((List.range t.left.length).zip t.left).filterMap (fun p => if (fieldLe fh 7 6).testBit p.1 then none else some p.2)) (heard lsrc d)

/-- RECEIPT_MISSING: a unicast frame drew no RECEIPT. The device's backoff window stays 4. -/
def receiptMissing (ldst seq : Nat) (d : Dev) : Dev :=
  if !(yardOn d) then d
  else
    match d.yard.tx.find? (fun t => t.wait && t.ldst == ldst && t.seq == seq) with
    | some t => txAgain t t.left d
    | none => d

/-! ### Points (R413) -/

def yPoint (i j : Nat) : Nat := oYard i (8 + j)

/-- A POINT message with the outputs named: each has its value from now (R413). -/
def sendPoints (i : Nat) (js : List Nat) (d : Dev) : Dev :=
  if js = [] then d
  else
    let d := forEach js (fun j d => put (yPoint i j) 3 0 (modYard (fun y => { y with ptLast := alSet y.ptLast (24 * i + j) (bpn d) }) d)) d
    let d := sendMsg 8 (0x100 + i) (natLe 1 js.length ++ natLe 3 0 ++ js.flatMap (fun j =>
      natLe 1 j ++ natLe 1 0 ++ natLe 2 0 ++ natLe 4 (on d (yPoint i j) 1))) false d
    modYard (fun y => { y with dirty := y.dirty.filter (fun k => !(k / 24 == i && js.contains (k % 24))) }) d

/-- A written output waits for its message. -/
def pointWritten (i j : Nat) : Dev → Dev :=
  modYard (fun y => { y with dirty := if y.dirty.contains (24 * i + j) then y.dirty else y.dirty ++ [24 * i + j] })

/-- Outputs written since the last beacon period. -/
def sendDirty (d : Dev) : Dev :=
  forEach ((List.range 512).filter (fun i => d.yard.dirty.any (fun k => k / 24 == i))) (fun i d =>
    sendPoints i ((d.yard.dirty.filter (fun k => k / 24 == i)).map (· % 24)) d) d

/-- Outputs of a node, as it has declared them. -/
def outputsOf (d : Dev) (i : Nat) : List Nat :=
  (List.range 24).filter (fun j => on d (yPoint i j) 2 == 0 && (alGet d.yard.ptLast (24 * i + j)).isSome)

/-- YARD_POINT_REFRESH: every REFRESH_BP beacon periods the outputs of every associated node are sent again (R413). -/
def pointRefresh (d : Dev) : Dev :=
  if yardMaySend d && decide (d.yard.refreshAt + on d 0x3100 7 ≤ bpn d) then
    forEach (associated d) (fun i d => sendPoints i (outputsOf d i) d) (modYard (fun y => { y with refreshAt := bpn d }) d)
  else d

/-- The body of a POINT message: its length by COUNT, the reserved fields 0 (R8, R401). -/
def pointBodyOk (b : Bytes) : Bool :=
  let n := byteAt b 0
  decide (n ≤ 24) && b.length == 4 + 8 * n && fieldLe b 1 3 == 0 && (List.range n).all (fun k => fieldLe b (4 + 8 * k + 2) 2 == 0)

/-- POINT: the values of a node's message. -/
def pointMsg (d : Dev) : Dev :=
  match takeMsg 8 d with
  | none => d
  | some (m, d) =>
    match nodeIdx m.src with
    | none => d
    | some i =>
      if nodeState d i ≠ 2 ∨ !(pointBodyOk m.body) then d
      else
        forEach (List.range (byteAt m.body 0)) (fun n d =>
          let e := slice m.body (4 + 8 * n) 8
          let j := byteAt e 0
          if 24 ≤ j ∨ 1 < byteAt e 1 then d
          else
            let o := yPoint i j
            let d := put o 2 (byteAt e 1) d
            let d := modYard (fun y => { y with ptLast := alSet y.ptLast (24 * i + j) (bpn d) }) d
            if byteAt e 1 = 1 then put o 3 0 (put o 1 (fieldLe e 4 4) d) else put o 3 0 d) d

/-- YARD_POINT_STALE: no value for 3 × REFRESH_BP, counted from the last value, or from when the node was associated. -/
def yardPointStale (i j : Nat) (d : Dev) : Dev :=
  if yardOn d && decide (i < 512) && decide (j < 24) then
    match (alGet d.yard.ptLast (24 * i + j)).or (alGet d.yard.since (0x100 + i)) with
    | some b => if b + 3 * on d 0x3100 7 ≤ bpn d then put (yPoint i j) 3 1 d else d
    | none => d
  else d

/-- All points of a node become stale (R412). -/
def stalePoints (i : Nat) (d : Dev) : Dev := forEach (List.range 24) (fun j d => put (yPoint i j) 3 1 d) d

/-! ### Association (R408) -/

/-- A joining node's serial finds its binding or the lowest free address. -/
def bindAddr (d : Dev) (serial : Bytes) : Option Nat :=
  match (bindings d).find? (fun p => p.1 == serial) with
  | some p => some p.2
  | none => ((List.range 512).map (0x100 + ·)).find? (fun a => !((bindings d).any (fun p => p.2 == a)))

/-- The answer to an ASSOC_REQ. -/
def assocResult (d : Dev) (serial nonce : Bytes) : Nat :=
  let bound := (bindings d).any (fun p => p.1 == serial)
  if !bound && on d 0x3100 5 == 0 then 1
  else if !bound && decide ((bindings d).length ≥ 512) then 2
  else if Config.nonceProof (yardInstKey d serial) serial nonce then 0 else 3

/-- ASSOC_REQ: at most 16 are answered in a beacon period; later ones wait. -/
def assocReq (d : Dev) : Dev :=
  if !(yardOn d) || decide (d.yard.assoc ≥ 16) then d
  else
    match takeMsg 1 d with
    | none => d
    | some (m, d) =>
      let serial := slice m.body 0 16
      if m.body.length ≠ 44 ∨ fieldLe m.body 26 2 ≠ 0 ∨ !(addrOk (fieldLe m.body 24 2)) then d
      else if !(isActive d) then d
      else
        let d := modYard (fun y => { y with assoc := y.assoc + 1 }) d
        let res := assocResult d serial (slice m.body 28 16)
        let addr := if res = 0 then (bindAddr d serial).getD 0xFFFE else 0xFFFE
        let wrap := (Config.keyWrap (yardInstKey d serial) (yardNetKey d ++ natLe 4 (gen d 9) ++ List.replicate 12 0)).take 40
        let d := modYard (fun y => { y with via := alSet y.via (if res = 0 then addr else m.src) m.lsrc }) d
        let d := sendMsg 2 (if m.src = 0xFFFE then addr else m.src)
          (serial ++ natLe 2 addr ++ natLe 1 res ++ natLe 1 0 ++ (if res = 0 then wrap ++ List.replicate (40 - wrap.length) 0 else List.replicate 40 0)) true d
        match res, nodeIdx addr with
        | 0, some i =>
          let d := if (bindings d).any (fun p => p.1 == serial) then d else putBindings (bindings d ++ [(serial, addr)]) d
          let n := yNode i
          let d := put n 5 (fieldLe m.body 20 4) (put n 4 (fieldLe m.body 16 4) (nodeJoins i serial d))
          raise 0x6001 addr 0 (incr 32 0x3106 1 d)
        | r, _ => raise 0x6203 noInst r d

/-- HELLO: the node is heard; its cost and hops are shown. -/
def helloMsg (d : Dev) : Dev :=
  match takeMsg 3 d with
  | none => d
  | some (m, d) =>
    match nodeIdx m.src with
    | some i => if yardOn d && decide (nodeState d i = 2) && m.body.length == 16 && byteAt m.body 15 == 0 then put (yNode i) 8 (fieldLe m.body 12 2) (heard m.src d) else d
    | none => d

/-- NEIGH_REPORT: the links toward the reporting node. -/
def neighReport (d : Dev) : Dev :=
  match takeMsg 4 d with
  | none => d
  | some (m, d) =>
    let n := byteAt m.body 0
    let clean := fieldLe m.body 1 3 == 0 &&
      (List.range n).all (fun k => byteAt m.body (4 + 8 * k + 7) == 0 && addrOk (fieldLe m.body (4 + 8 * k) 2))
    if !(yardOn d) || decide (32 < n) || m.body.length != 4 + 8 * n || !clean || (nodeIdx m.src).isNone then d
    else
      let ls := (List.range n).map (fun k =>
        let e := slice m.body (4 + 8 * k) 8
        ({ src := fieldLe e 0 2, dst := m.src, cost := fieldLe e 2 2, rate := fieldLe e 4 2, err := byteAt e 6 } : YLink))
      modYard (fun y => { y with links := y.links.filter (fun l => l.dst != m.src) ++ ls }) (nodeFound m.src (heard m.src d))

/-- TM_UPDATE: the version of the set toward the sender that is not in use is replaced; it is used from the next frame. -/
def tmUpdate (d : Dev) : Dev :=
  match takeMsg 7 d with
  | none => d
  | some (m, d) =>
    let ver := byteAt m.body 0
    let t : TmSet := { rate := byteAt m.body 1, gi := byteAt m.body 2, maps := (List.range 6).map (fun q => slice m.body (4 + 701 * q) 701) }
    let p := (alGet d.yard.tm m.src).getD {}
    if !(yardOn d) || decide (1 < ver) || p.cur == some ver || m.body.length != 4210 || byteAt m.body 3 != 0 || !(tmOk (ob d 0x3101 0) t) then d
    else
      let p := if ver = 0 then { p with v0 := some t, cur := some 0 } else { p with v1 := some t, cur := some 1 }
      modYard (fun y => { y with tm := alSet y.tm m.src p }) d

/-! ### Routing (R411, R412) -/

/-- A path found: next hop (or whole path), hops, cost. -/
structure PathC where
  node : Nat
  next : Nat
  path : List Nat
  hops : Nat
  cost : Nat
  deriving DecidableEq, Repr, Inhabited

def pathBetter (a b : PathC) : Bool :=
  decide (a.cost < b.cost) || (a.cost == b.cost && (decide (a.hops < b.hops) || (a.hops == b.hops && decide (a.next < b.next))))

/-- Keep the better path of a node. -/
def pathAdd (l : List PathC) (p : PathC) : List PathC :=
  match l.find? (fun q => q.node == p.node) with
  | some q => if pathBetter p q then p :: l.filter (fun x => x.node != p.node) else l
  | none => p :: l

/-- Paths of up to `h` hops: `up` from a node to the device, else from the device to a node. -/
def pathRounds (links : List YLink) (up : Bool) : Nat → List PathC
  | 0 => [{ node := 0, next := 0, path := [], hops := 0, cost := 0 }]
  | h + 1 =>
    let l := pathRounds links up h
    links.foldl (fun acc k =>
      let near := if up then k.dst else k.src
      let far := if up then k.src else k.dst
      match l.find? (fun p => p.node == near) with
      | some p => if p.hops ≤ h ∧ far ≠ 0 then
          pathAdd acc { node := far, next := if up then near else (if p.path = [] then far else p.next)
                        path := p.path ++ [far], hops := p.hops + 1, cost := p.cost + k.cost + 20 }
        else acc
      | none => acc) l

/-- A station of the graph: the device, or an associated node (R412). -/
def inGraph (d : Dev) (a : Nat) : Bool := a == 0 || (match nodeIdx a with | some i => nodeState d i == 2 | none => false)

/-- The graph: reported links whose error rate is at most one half, and the links measured by this device, between its stations. -/
def graphOf (d : Dev) : List YLink :=
  let own : List YLink := (d.yard.errs.filter (fun p => decide (p.2 ≤ 2 ^ 31))).map (fun p =>
    { src := p.1, dst := 0, cost := linkCost (rateKbps (phyFrom d p.1)) p.2 })
  (d.yard.links.filter (fun l => decide (l.err ≤ 128)) ++ own).filter (fun l => inGraph d l.src && inGraph d l.dst)

/-- The cost, over the present links, of the way up that the routes held give a node; none where a link of it is gone (R411). -/
def heldCost (links : List YLink) (routes : List (Nat × YRoute)) : Nat → Nat → Option Nat
  | 0, _ => none
  | n + 1, a => match alGet routes a with
    | none => none
    | some r => match links.find? (fun l => l.src == a && l.dst == r.up) with
      | none => none
      | some l => if r.up = 0 then some (l.cost + 20) else (heldCost links routes n r.up).map (l.cost + 20 + ·)

/-- A node's route after a computation, and whether its next hop changed: the held one goes when a link of it is gone, or when a
path of less than 0.8 × its cost was found three times in a row. -/
def routeStep (held : Option Nat) (old : Option YRoute) (p : PathC) (down : Option PathC) : YRoute × Bool :=
  let dn := (down.map (·.path)).getD []
  let dc := (down.map (·.cost)).getD 0
  let fresh : YRoute := { up := p.next, hops := p.hops, cost := p.cost, down := dn, downCost := dc }
  match old, held with
  | some r, some h =>
    if r.up = p.next then (fresh, false)
    else
      let keep := { r with cost := h, down := dn, downCost := dc }
      if 5 * p.cost < 4 * h then (if r.better + 1 ≥ 3 then (fresh, true) else ({ keep with better := r.better + 1 }, false))
      else ({ keep with better := 0 }, false)
  | some r, none => (fresh, decide (r.up ≠ p.next))
  | none, _ => (fresh, true)

/-- YARD.LINK.01 and .02 of a node: rate and error rate of its link toward NEXT_UP, as the receiver measures it (R409, R417). -/
def publishLink (i : Nat) (d : Dev) : Dev :=
  let up := on d (yNode i) 7
  let a := 0x100 + i
  let x := if up = 0 then (alGet d.yard.errs a).map (fun e => (rateKbps (phyFrom d a), e / 65536))
    else (d.yard.links.find? (fun l => l.src == a && l.dst == up)).map (fun l => (100 * l.rate, 256 * l.err))
  match x with
  | some r => put (oYard i 1) 2 r.2 (put (oYard i 1) 1 r.1 d)
  | none => d

/-- ROUTE_COMPUTATION, every ROUTE_BP beacon periods, on the unit that sends; routing tables are not mirrored (R411, R414). -/
def routeComputation (d : Dev) : Dev :=
  if !(yardOn d) || !(isActive d) || decide (bpn d < d.yard.routeAt + on d 0x3100 6) then d
  else
    let d := modYard (fun y => { y with routeAt := bpn d }) d
    let links := graphOf d
    let ups := pathRounds links true 8
    let downs := pathRounds links false 8
    let all := d.yard.sendAll
    let held := d.yard.routes
    let d := forEach (associated d) (fun i d =>
      let a := 0x100 + i
      match ups.find? (fun p => p.node == a) with
      | none => d
      | some p =>
        let r := routeStep (heldCost links held 8 a) (alGet d.yard.routes a) p (downs.find? (fun q => q.node == a))
        let n := yNode i
        let d := put n 9 (satU 16 r.1.downCost) (put n 8 (satU 16 r.1.cost) (put n 7 r.1.up (put n 6 r.1.hops d)))
        let d := publishLink i d
        let d := modYard (fun y => { y with routes := alSet y.routes a r.1, routeVer := if r.2 then (y.routeVer + 1) % 65536 else y.routeVer }) d
        let d := if r.2 then raise 0x6002 a r.1.up d else d
        if r.2 || all then
          sendMsg 5 a (natLe 2 d.yard.routeVer ++ natLe 2 r.1.up ++ natLe 1 r.1.hops ++ natLe 1 0 ++ natLe 2 (satU 16 r.1.cost)) false d
        else d) d
    modYard (fun y => { y with sendAll := false }) d

/-- YARD_NODE_LOST: no frame of a node for 50 beacon periods. -/
def nodeLost (i : Nat) (d : Dev) : Dev :=
  if yardOn d && decide (i < 512) && decide (nodeState d i = 2) && decide (50 ≤ on d (yNode i) 10) then
    let a := 0x100 + i
    let d := modYard (fun y => { y with links := y.links.filter (fun l => l.src != a && l.dst != a), routes := alDel y.routes a, errs := alDel y.errs a }) d
    raise 0x6202 a 0 (incr 32 0x3106 2 (stalePoints i (put (yNode i) 2 3 d)))
  else d

/-- YARD.FORGET: the binding goes, the node receives LEAVE. -/
def yardForget (a : Nat) (d : Dev) : Dev :=
  match (bindings d).find? (fun p => p.2 == a), nodeIdx a with
  | some p, some i =>
    let d := sendMsg 9 a p.1 false d
    let d := putBindings ((bindings d).filter (fun q => q.2 != a)) d
    let d := modYard (fun y => { y with links := y.links.filter (fun l => l.src != a && l.dst != a), routes := alDel y.routes a
                                        tm := alDel y.tm a, rxTm := alDel y.rxTm a, errs := alDel y.errs a
                                        since := alDel y.since a, ptLast := y.ptLast.filter (fun q => q.1 / 24 != i), dirty := y.dirty.filter (fun k => k / 24 != i) }) d
    forEach [1, 2, 4, 5, 6, 7, 8, 9, 10] (fun k d => put (yNode i) k 0 d) (putb (yNode i) 3 (List.replicate 16 0) d)
  | _, _ => d

def forgetOk (d : Dev) (a : Nat) : Bool := (bindings d).any (fun p => p.2 == a)

/-- A roll of the network key, or a new KEY.SITE, takes effect within two beacon periods (R488). -/
def leaveDue (d : Dev) : Bool :=
  d.os.pend.any (fun p => p.num == 0x510 || (p.num == 0x504 && (valNat p.val).testBit 8)) &&
    decide (microsToMajor d * tNs d ≤ 800 * hcOf d)

/-- Before a roll of the network key: LEAVE under the old key to every associated node; its points are stale (R488). -/
def yardLeaveAll (d : Dev) : Dev :=
  forEach (associated d) (fun i d => put (yNode i) 2 1 (stalePoints i (sendMsg 9 (0x100 + i) (ob d (yNode i) 3) false d))) d

/-! ### Beacon periods (R402 to R406) -/

/-- Messages carried by a holder in the last 25 beacon periods. -/
def carriedBy (d : Dev) (a : Nat) : Nat := (d.yard.carried.map (fun c => (alGet c a).getD 0)).foldl (· + ·) 0

/-- The holders: the device, and each node that another node's route goes through. -/
def relayHolders (d : Dev) : List Nat :=
  0 :: (((List.range 512).map (0x100 + ·)).filter (fun a => d.yard.routes.any (fun r => r.1 != a && (r.2.up == a || (r.2.down.dropLast).contains a))))

/-- One round of scaling: windows that would fall below 1 ms get it, the others share what is left in proportion. -/
def scaleRound (room : Nat) (ws : List Nat) (fixed : List Bool) : List Bool :=
  let n := (fixed.filter id).length
  let rest := ((ws.zip fixed).map (fun p => if p.2 then 0 else p.1)).foldl (· + ·) 0
  (ws.zip fixed).map (fun p => p.2 || decide (p.1 * (room - 100 * n) < 100 * rest))

/-- Window lengths in 10 µs: in proportion to the messages carried, each at least 1 ms; where they would leave too little open region
all are scaled down in proportion, none below 1 ms (R405). -/
def windowLens (room : Nat) (ws : List Nat) : List Nat :=
  let want := ws.map (fun w => max 100 (w * Config.relayUnit))
  if want.foldl (· + ·) 0 ≤ room then want
  else
    let fixed := (List.range want.length).foldl (fun f _ => scaleRound room want f) (want.map (fun _ => false))
    let n := (fixed.filter id).length
    let rest := ((want.zip fixed).map (fun p => if p.2 then 0 else p.1)).foldl (· + ·) 0
    (want.zip fixed).map (fun p => if p.2 then 100 else p.1 * (room - 100 * n) / max 1 rest)

/-- The holders that windows of 1 ms leave room for, those that carried most first: DESIGN CHOICE (log entry 71). -/
def holdersFit (d : Dev) (room : Nat) : List Nat :=
  let hs := relayHolders d
  if 100 * hs.length ≤ room then hs
  else
    let best := hs.mergeSort (fun a b => decide (carriedBy d b ≤ carriedBy d a))
    hs.filter (fun a => (best.take (room / 100)).contains a)

/-- Windows placed one after another from 2.5 ms on. -/
def placeWindows : Nat → List (Nat × Nat) → List (Nat × Nat × Nat)
  | _, [] => []
  | t, (a, n) :: l => (a, t, n) :: placeWindows (t + n) l

/-- New windows, with a SCHED message to each node whose windows change (R405). -/
def schedule (d : Dev) : Dev :=
  let room := 4 * hcOf d / 100 - 250 - 100 - 100 * on d 0x3100 4
  let hs := holdersFit d room
  let ws := placeWindows 250 (hs.zip (windowLens room (hs.map (carriedBy d))))
  let old := d.yard.windows
  let nodes := ((ws.map (·.1)) ++ (old.map (·.1))).eraseDups.filter (fun a => a != 0)
  let stop := (ws.map (fun w => w.2.1 + w.2.2)).foldl max 250
  let d := modYard (fun y => { y with windows := ws, relayEnd := stop }) d
  forEach nodes (fun a d =>
    let mine := ws.filter (fun w => w.1 == a)
    if mine = old.filter (fun w => w.1 == a) then d
    else sendMsg 6 a (natLe 1 mine.length ++ natLe 3 0 ++ mine.flatMap (fun w => natLe 2 w.2.1 ++ natLe 2 w.2.2)) false d) d

/-- A BEACON: one BASE segment, at the start of the beacon period (R399, R403). -/
def sendBeacon (body : Bytes) (d : Dev) : Dev :=
  match symsOf d (basePhy d) 0 1 with
  | none => d
  | some caps =>
    let sq := (alGet d.yard.seqs 0xFFFF).getD 0
    let d := yardOut (airFrame d (yardPsd d) (dataHeader d 0x11 0xFFFF 0 1 caps.length sq) 1
      (onCarriers d (basePhy d) 0 (frameSymbols (basePhy d) caps [segmentOf 297 body 0]))) d
    incr 32 0x3106 3 (modYard (fun y => { y with seqs := alSet y.seqs 0xFFFF ((sq + 1) % 256) }) d)

/-- BEACON_PERIOD: a beacon period starts; the active unit sends its BEACON. -/
def beaconPeriod (d : Dev) : Dev :=
  if !(yardOn d) || !(bpDue d) then d
  else
    let d := bpBegin d
    let d := put 0x3103 3 ((bpn d + 1) % 2 ^ 32) d
    let d := modYard (fun y => { y with assoc := 0, carried := ([] :: y.carried).take 25 }) d
    let d := forEach (associated d) (fun i d => put (yNode i) 10 (satU 16 (on d (yNode i) 10 + 1)) d) d
    let d := wrStatus 0x3102 0 1 (!(isActive d)) d
    if !(yardMaySend d) then clrStatus 0x3102 0 0 d
    else
      let d := schedule (if leaveDue d then yardLeaveAll d else d)
      let flags := boolNat (on d 0x3100 5 == 1) + 2 * boolNat (yardBit d 3)
      let body := natLe 4 (on d 0x3100 2) ++ natLe 4 (bpn d) ++ natLe 4 (on d 0x402 0) ++ natLe 4 (hcOf d) ++ natLe 8 (civilNs d) ++
        natLe 2 d.yard.relayEnd ++ natLe 1 flags ++ natLe 1 (on d 0x403 0) ++ natLe 2 d.yard.routeVer ++ natLe 2 0
      let d := sendBeacon (body ++ (Config.cmac (yardNetKey d) body).take 8) (setStatus 0x3102 0 0 d)
      drawBackoff (sendDirty d)

/-! ### The line driver (R395) -/

/-- YARD_DRIVER_FAULT. -/
def driverFault (d : Dev) : Dev :=
  if yardOn d && !d.yard.drvOff then
    raise 0x6401 noInst 0 (clrStatus 0x3102 0 0 (setStatus 0x3102 0 5 (modYard (fun y => { y with drvOff := true }) d)))
  else d

/-- DRIVER_RESUME, one second later. -/
def driverResume (d : Dev) : Dev := if running d then modYard (fun y => { y with drvOff := false }) d else d

/-- VPLC_LOW: below 10.0 V the driver is high-impedance. -/
def vplcLow (d : Dev) : Dev :=
  let d := modYard (fun y => { y with vplcLow := true }) d
  if running d then clrStatus 0x3102 0 0 d else d

/-- VPLC_RESTORED: above 10.5 V. -/
def vplcRestored : Dev → Dev := modYard (fun y => { y with vplcLow := false })

/-- A takeover: beacons go on with the new epoch; every route is sent again after the next computation (R414). The unit is no longer
one that only receives (R418). -/
def yardActive (d : Dev) : Dev :=
  clrStatus 0x3102 0 1 (modYard (fun y => { y with sendAll := true, routeVer := (y.routeVer + 1) % 65536 }) d)

/-- A unit that becomes standby only receives. -/
def yardStandby (d : Dev) : Dev :=
  if oflag d 0x3100 1 then clrStatus 0x3102 0 0 (setStatus 0x3102 0 1 (modYard (fun y => { y with tx := [], backoff := none }) d)) else d

end Sys2Proof.Machine
end

