-- ==== Sys2Proof/Machine/Pair.lean ====
section
/-! DEFINITION. The pair (spec/19): roles and epochs, election, the two heartbeat paths, takeover, demotion, the planned
switchover and the return. What PAIR frames carry stands in Machine/Mirror.lean. -/

namespace Sys2Proof.Machine

def modPair (f : PairS → PairS) (d : Dev) : Dev := { d with pair := f d.pair }

/-- A bit of PAIR.STATUS (R476). -/
def pairBit (d : Dev) (i : Nat) : Bool := (on d 0x400 0).testBit i

/-- Set or clear a bit of PAIR.STATUS where it changes. -/
def putPairBit (i : Nat) (b : Bool) (d : Dev) : Dev := if pairBit d i = b then d else wrStatus 0x400 0 i b d

/-- The partner is present, HANDOVER is set (R476). -/
def partnerPresent (d : Dev) : Bool := pairBit d 3
def inHandover (d : Dev) : Bool := pairBit d 4

/-- The unit belongs to a pair: its declared pair flag is 1 (R450). -/
def inPair (d : Dev) : Bool := d.pair.declared && d.pair.role != .single

/-- Time since t0 in ns of a moment `off` ns after the last boundary token. -/
def nowNs (d : Dev) (off : Nat) : Nat := d.startup.t + off

/-! ### Roles and epochs (R451, R453) -/

def roleCode : Role → Nat
  | .electing => 0 | .active => 1 | .standby => 2 | .single => 3

/-- Take a role: PAIR.ROLE and PAIR.STATUS.ACTIVE follow. The rings that the device stops at a role change (R431) start again at their
HEAD in the same row: DESIGN CHOICE (log entry 67). -/
def setRole (r : Role) (d : Dev) : Dev :=
  let d := modPair (fun p => { p with role := r }) (put 0x401 0 (roleCode r) d)
  putPairBit 0 (r == .active || r == .single) d

/-- The smallest epoch above a value whose bit 0 is this unit's number (R453). -/
def epochAbove (unit v : Nat) : Nat := if (v + 1) % 2 = unit then v + 1 else v + 2

/-- Write an epoch. -/
def putEpoch (e : Nat) (d : Dev) : Dev := put 0x402 0 (satU 32 e) d

/-- The epoch of a unit that becomes ACTIVE, above its own and every one it has seen; a SINGLE unit takes its own plus one. -/
def takeEpoch (d : Dev) : Dev :=
  if d.pair.role = .single then putEpoch (on d 0x402 0 + 1) d
  else putEpoch (epochAbove (portNo d) (max (on d 0x402 0) d.pair.seen)) d

/-- PAIR_ELECTED with the role and the epoch (R477). -/
def raiseElected (d : Dev) : Dev := raise 0x2001 noInst (roleCode d.pair.role + 2 ^ 32 * on d 0x402 0) d

/-- Phase lock ends: an active unit, or one without a partner, shows 0 (R48). -/
def unlock (d : Dev) : Dev :=
  let d := { d with time := { d.time with lockCount := 0 } }
  if (on d 0x185 0).testBit 3 then clrStatus 0x185 0 3 d else d

/-- Become ACTIVE: the sessions end (R379), the role, then the epoch, whatever it is computed by. -/
def toActive (epoch : Dev → Dev) (d : Dev) : Dev :=
  putPairBit 1 false (unlock (epoch (setRole .active (endSessions d))))

/-- Become STANDBY: the sessions end (R379), field buses listen only, queued frames and yard messages are withdrawn, pulse outputs are inactive, what
waited for the partner is lost (R366, R414, R328, R474). -/
def toStandby (d : Dev) : Dev :=
  let d := forEach [0, 1, 2, 3] (fun x d => if (d.legal.pulses.getD x {}).busy then emit (.pulse x false) d else d) d
  let d := modPair (fun p => { p with queue := [], sendingW := [], deferred := [], billTx := [] }) d
  let d := { d with ses := { d.ses with held := [], ready := [], deltas := [] } }
  yardStandby (fbStandby (setRole .standby (endSessions d)))

/-! ### Election (R452, R454) -/

/-- Elected ACTIVE. -/
def electActive (d : Dev) : Dev := raiseElected (toActive takeEpoch d)

/-- Elected STANDBY. -/
def electStandby (d : Dev) : Dev := raiseElected (toStandby d)

/-- Rules 2 to 4 of R452 on a valid PAIR frame with a UNIT and a ROLE. -/
def electOn (unit role : Nat) (d : Dev) : Dev :=
  if d.pair.role ≠ .electing then d
  else if unit = portNo d then
    if d.pair.clash then d else raise 0x2402 noInst 0 (modPair (fun p => { p with clash := true }) d)
  else if role = 1 then electStandby d
  else if role = 0 ∧ portNo d = 0 then electActive d
  else d

/-- Rule 5 of R452: without a frame the unit elects by HB_IN. -/
def electAlone (d : Dev) : Dev :=
  if d.pair.role ≠ .electing ∨ d.pair.clash then d
  else if d.pair.missB = 0 ∧ d.pair.validEdge.isSome ∧ portNo d = 1 then d
  else electActive d

/-- ELECTION_TIMEOUT: ELECT_MS has passed without a valid PAIR frame. -/
def electionTimeout (d : Dev) : Dev :=
  if running d && d.pair.declared && d.pair.role == .electing && d.pair.lastHb.isNone then electAlone d else d

/-- A unit elected ACTIVE whose check at start fails becomes STANDBY (R454). -/
def noImageStandby (d : Dev) : Dev := if d.pair.role = .active then electStandby d else d

/-! ### Heartbeats (R455 to R458) -/

/-- HB_IN_EDGE at `off` ns after the boundary token: valid 7.0 to 13.0 µs after the edge before it. -/
def hbInEdge (off : Nat) (d : Dev) : Dev :=
  if !(running d) then d
  else
    let t := nowNs d off
    let ok := match d.pair.edge with | some e => decide (e + 7000 ≤ t) && decide (t ≤ e + 13000) | none => false
    modPair (fun p => { p with edge := some t, validEdge := if ok then some t else p.validEdge }) d

/-- HB_OUT_TOGGLE: while the unit runs, the time keeper toggles HB_OUT. -/
def hbOutToggle (d : Dev) : Dev :=
  if running d && d.pair.hbRun then
    let b := !d.pair.hbOut
    emit (.heartbeat b) (modPair (fun p => { p with hbOut := b }) d)
  else d

/-- Path A was missed since the last boundary token; path B in the 15 µs before this one (R455, R456). -/
def missedA (d : Dev) : Bool := !d.pair.gotA

def missedB (d : Dev) : Bool :=
  match d.pair.validEdge with
  | some e => decide (e + 15000 < d.startup.t)
  | none => true

/-- Count both paths at a boundary token, publish HB_IN_OK and the age of the partner's report (R455 to R458, R475). -/
def pairCount (d : Dev) : Dev :=
  let a := missedA d
  let b := missedB d
  let d := put 0x406 0x0A (if a then incSat 16 (on d 0x406 0x0A) else 0) d
  let d := modPair (fun p =>
    { p with missA := if a then p.missA + 1 else 0, okA := if a then 0 else p.okA + 1
             missB := if b then p.missB + 1 else 0, okB := if b then 0 else p.okB + 1
             gotGrants := p.gotGrants && !(a && p.missA == 2), gotContactors := p.gotContactors && !(a && p.missA == 2)
             gotA := false }) d
  putPairBit 2 (!b) d

/-- Both paths have been missed at three boundary tokens in a row (R457). -/
def bothSilent (d : Dev) : Bool := decide (3 ≤ d.pair.missA) && decide (3 ≤ d.pair.missB)

/-- PARTNER_PRESENT at a boundary token; when a partner falls silent an ACTIVE unit goes on alone and an ELECTING unit
elects at once (R457). The takeover of a STANDBY unit is its own row. -/
def partnerToken (d : Dev) : Dev :=
  if d.pair.missA = 0 ∨ d.pair.missB = 0 then putPairBit 3 true d
  else if bothSilent d && partnerPresent d then
    if d.pair.role = .active then raise 0x2401 noInst 0 (putPairBit 3 false d)
    else if d.pair.role = .electing then electAlone (putPairBit 3 false d)
    else d
  else d

/-- PAIR_PATH_FAULT: one path missed three times in a row while the other was not. -/
def pathFault (path : Nat) (d : Dev) : Dev :=
  let p := d.pair
  let due := if path = 1 then decide (3 ≤ p.missA) && p.missB == 0 else path == 2 && decide (3 ≤ p.missB) && p.missA == 0
  let bit := if path = 1 then 5 else 6
  if running d && inPair d && due && !(pairBit d bit) then
    raise 0x2201 noInst path (incr 32 0x407 (2 + path) (putPairBit bit true d))
  else d

/-- PATH_FAULT_CLEAR: the path has not been missed at 16 tokens in a row. -/
def pathFaultClear (path : Nat) (d : Dev) : Dev :=
  let n := if path = 1 then d.pair.okA else if path = 2 then d.pair.okB else 0
  if running d && inPair d && decide (16 ≤ n) then putPairBit (if path = 1 then 5 else 6) false d else d

/-! ### Takeover (R460) -/

/-- The slots of a stage that HOLD would suspend (R196, R460). -/
def stageSlots (im : Image) (s : Nat) : List Nat :=
  ((List.range im.slots.length).zip im.slots).filterMap (fun p =>
    let sl := p.2
    let held := holdKernels.contains sl.kernel &&
      ((inBinds im sl ++ outBinds im sl).any (fun b => (b.kind == 2 || b.kind == 3) && b.sub == s) ||
        (inBinds im sl).any (fun b => b.kind == 1 && (match locate (bindObj b) with
          | some l => l.blk == .grp && l.off == 0 && l.inst == s
          | none => false)))
    if held then some p.1 else none)

/-- The committed states of the micro-frame whose number ends in `seq`; where it is older than those kept, the oldest. -/
def histOf (h : List (Nat × List (Nat × List Int))) (seq : Nat) : Option (List (Nat × List Int)) :=
  match h.find? (fun p => p.1 % 65536 == seq) with
  | some p => some p.2
  | none => h.getLast?.map (·.2)

/-- Restore the slots of a stage to the micro-frame that the stage last obeyed (R460). -/
def restoreStage (im : Image) (s : Nat) (d : Dev) : Dev :=
  match histOf d.sched.hist (fieldLe (upBody d s) 10 2) with
  | none => d
  | some st =>
    let kst := (stageSlots im s).foldl (fun k i =>
      match alGet st i with
      | some w => alSet k i w
      | none => alDel k i) d.sched.kst
    { d with sched := { d.sched with kst := kst } }

/-- The state machines resume in the state mirrored, with their timers restarted (R248). -/
def restartTimers (d : Dev) : Dev :=
  { d with energy := { d.energy with groups := d.energy.groups.map (fun q => { q with t := 0, tc := 0 }), nodes := d.energy.nodes.map (fun q => { q with t := 0, tc := [] }) } }

/-- What every change to ACTIVE brings with it: the mirrored load channels, the own billing increments, the yard's new
routes, timers (R248, R282, R328, R414). -/
def assume (d : Dev) : Dev :=
  let c := d.pair.lastContactors
  let d := lchTakeover (fieldLe c 4 4) (fieldLe c 8 4) (fieldLe c 12 4) d
  let d := modPair (fun p => { p with lastGrants := [], lastContactors := [], complete := true, rx := [], rxWrite := none }) d
  restartTimers (yardActive (legalTakeover d))

/-- NO_IMAGE_TAKEOVER: the partner has reported NO_IMAGE as STANDBY at three tokens in a row (R454). -/
def noImageTakeover (d : Dev) : Dev :=
  if running d && inPair d && (d.pair.role == .electing || d.pair.role == .standby) && (img? d).isSome && decide (3 ≤ d.pair.noImg) then
    (if d.pair.role == .standby then assume (electActive d) else electActive d)
  else d

/-- Record a change to ACTIVE (R475). -/
def lastTakeover (saddle cause : Nat) (wasReady : Bool) (d : Dev) : Dev :=
  put 0x408 5 (on d 0x402 0) (putf 0x408 4 wasReady (put 0x408 3 cause (put 0x408 2 (satU 32 saddle) (put 0x408 1 d.time.micro d))))

/-- The Saddle: from the last good heartbeat to the launch token of this micro-frame (R460, R461). -/
def saddleNs (d : Dev) : Nat := nowNs d (6 * tNs d / 10) - max d.pair.lastA (d.pair.validEdge.getD 0)

/-- PAIR_TAKEOVER (R457, R460). -/
def pairTakeover (d : Dev) : Dev :=
  if !(running d && d.pair.role == .standby && bothSilent d) then d
  else match img? d with
  | none => d
  | some im =>
    let ready := pairBit d 1
    let saddle := saddleNs d
    let cause := d.pair.announced.getD 0
    let d := toActive takeEpoch d
    let d := forEach ((List.range 32).filter (laneBound d)) (restoreStage im) d
    let d := assume d
    let d := modPair (fun p => { p with switchAt := none, tookOver := decide (cause = 0), announced := none, handingOver := true, handNs := 0 }) d
    let d := putPairBit 3 false (putPairBit 4 false d)
    let d := lastTakeover saddle cause ready (incr 32 0x407 1 d)
    raise 0x2601 noInst (satU 32 saddle + 2 ^ 32 * boolNat ready) d

/-! ### Demotion (R453, R462) -/

/-- At a boundary token an ACTIVE unit acts on a higher epoch it has seen: it raises its own while the partner is not
ACTIVE, else it becomes STANDBY. The partner is ACTIVE when it says so, or when a part has gone over to it (R474). -/
def demoteToken (d : Dev) : Dev :=
  let e := d.pair.above
  let rival := d.pair.rival
  let d := modPair (fun p => { p with above := 0, rival := false }) d
  if e ≤ on d 0x402 0 ∨ !(isActive d) then d
  else
    if d.pair.role = .single then putEpoch (e + 1) d
    else if rival || (partnerPresent d && on d 0x406 2 == 1) then
      let d := incr 32 0x407 7 (putPairBit 11 false (putPairBit 8 true (lchLeave (toStandby d))))
      let d := modPair (fun p => { p with handingOver := true, handNs := 0, onSeen := 0, switchAt := none }) d
      raise 0x2403 noInst e (putPairBit 4 true d)
    else putEpoch (epochAbove (portNo d) e) d

/-! ### Planned switchover (R472, R473) -/

/-- The partner is READY as last reported. -/
def partnerReady (d : Dev) : Bool := partnerPresent d && oflag d 0x406 4

/-- A planned switchover may be requested: this unit is ACTIVE, its partner READY, HANDOVER clear and none is under way. -/
def switchOk (d : Dev) : Bool := d.pair.role == .active && partnerReady d && !(inHandover d) && d.pair.switchAt.isNone &&
  !(d.pair.queue.any (fun q => q.pend.num == 0x405)) && !(d.pair.sendingW.any (fun q => q.pend.num == 0x405))

/-- H: the first major-frame boundary at least 10 ms on, as a micro-frame count. -/
def switchH (d : Dev) : Nat :=
  let n := microsToMajor d
  d.time.micro + (if 10000000 ≤ n * tNs d then n else n + majorMicros d.time.code)

/-- The value of a switchover request on its way to both units: H and the cause. -/
def switchVal (h cause : Nat) : Nat := cause + 256 * h

/-- The mirrored request takes effect on a unit: H is set, HANDOVER is set (R472). -/
def switchSet (v : Nat) (d : Dev) : Dev :=
  putPairBit 4 true (modPair (fun p => { p with switchAt := some (v / 256, v % 256) }) d)

/-- The body of a BANKED_WRITE record (R470). -/
def writeBody (sub level role off effect : Nat) (last : Bool) (v : Bytes) : Bytes :=
  natLe 1 sub ++ natLe 1 level ++ natLe 1 (boolNat last) ++ natLe 1 role ++ natLe 4 off ++ natLe 4 effect ++ natLe 4 0 ++ v

/-- The BANKED_WRITE records of a value: pieces of 1,024 bytes in ascending OFFSET, LAST on the last (R470). -/
def writeRecs (num sub level role effect : Nat) : Nat → Nat → Bytes → List LaneRec
  | 0, _, _ => []
  | n + 1, off, v =>
    let last := decide (v.length ≤ 1024)
    { rtype := 0x17, index := 0, info := num, body := writeBody sub level role off effect last (v.take 1024) } ::
      (if last then [] else writeRecs num sub level role effect n (off + 1024) (v.drop 1024))

/-- Queue a write for the partner with its records (R464). -/
def queueWrite (q : QWrite) (rs : List LaneRec) : Dev → Dev :=
  modPair (fun p => { p with queue := p.queue ++ [q], deferred := p.deferred ++ rs })

/-- Request a planned switchover: the request is mirrored before it takes effect (R472). -/
def requestSwitch (cause role : Nat) (reply : Reply) (d : Dev) : Dev :=
  let h := switchH d
  queueWrite
    { pend := { num := 0x405, sub := 0, val := .num (switchVal h cause), level := 0, cmd := true, role := role }, reply := reply }
    (writeRecs 0x405 0 0 role (h % 2 ^ 32) 1 0 (natLe 1 cause)) d

/-- A request from inside the device, not acted on where it may not be made. -/
def requestSwitchIf (cause : Nat) (d : Dev) : Dev := if switchOk d then requestSwitch cause 1 .none d else d

/-- READY of the standby unit fell before H: both units cancel the switchover (R472). -/
def switchCancel (d : Dev) : Dev :=
  match d.pair.switchAt with
  | some (_, c) =>
    if (d.pair.role == .active && !(partnerReady d)) || (d.pair.role == .standby && !(pairBit d 1)) then
      raise 0x2002 noInst (c + 256) (putPairBit 4 false (modPair (fun p => { p with switchAt := none }) d))
    else d
  | none => d

/-- SWITCHOVER at H (R472, R282): the outgoing unit becomes STANDBY, the incoming one ACTIVE with the next epoch. -/
def switchover (d : Dev) : Dev :=
  match d.pair.switchAt with
  | none => d
  | some (h, cause) =>
    if !(running d) || decide (d.time.micro < h) then d
    else
      let fin := fun d => raise 0x2002 noInst cause (clrStatus 0x700 0 4 (putPairBit 11 false (incr 32 0x407 2
        (modPair (fun p => { p with switchAt := none, tookOver := false, handingOver := true, handNs := 0, onSeen := 0 }) d))))
      if d.pair.role = .active then fin (putPairBit 4 true (lchLeave (toStandby d)))
      else if d.pair.role = .standby then
        let ready := pairBit d 1
        let e := on d 0x406 3 + 1
        fin (putPairBit 4 true (lastTakeover 0 cause ready (assume (toActive (putEpoch e) d))))
      else d

/-- READY of the partner at a boundary token (R471, R473): its changes are events; the first time after an unplanned
takeover RETURN_PENDING is set unless PAIR_STAY_STANDBY is in force. -/
def readyToken (d : Dev) : Dev :=
  if d.pair.role ≠ .active then modPair (fun p => { p with wasReady := false }) d
  else
    let r := partnerReady d
    let was := d.pair.wasReady
    let d := modPair (fun p => { p with wasReady := r }) d
    if r && !was then
      let d := if d.pair.tookOver then
          modPair (fun p => { p with tookOver := false }) (if (on d 0x011 0).testBit 0 then d else putPairBit 11 true d)
        else d
      raise 0x2003 noInst 0 d
    else if !r && was then raise 0x2204 noInst 0 d
    else d

/-- RETURN_HOLDOFF: the partner has been READY for HOLDOFF while a return was pending (R473). -/
def returnHoldoff (d : Dev) : Dev :=
  if running d && pairBit d 11 && d.pair.wasReady then requestSwitchIf 4 d else d

/-! ### The overlap of the load channels (R282) -/

/-- The outgoing unit switches off the channels that the incoming one has reported ON, 10 ms after the switchover at the
earliest. -/
def handOff (d : Dev) : Dev :=
  if d.pair.handingOver && !(isActive d) && decide (10000000 ≤ d.pair.handNs) then
    forEach (bitsSet 32 d.pair.onSeen) (fun n d => if (lch d n).on then switchOff n (modLch n (fun x => { x with cmd := false, handover := false }) d) else d) d
  else d

/-- End of the overlap on this unit: HANDOVER clears. -/
def overlapEnd (d : Dev) : Dev :=
  let d := { d with lch := { d.lch with ch := d.lch.ch.map (fun x => { x with handover := false, olOff := false }) } }
  putPairBit 4 false (modPair (fun p => { p with handingOver := false, handNs := 0 }) d)

/-- How long the incoming unit counts the overlap: 10 ms after a planned switchover; LCH.FS_HOLD and 100 ms after an
unplanned takeover. -/
def overlapNs (d : Dev) : Nat := if inHandover d then 10000000 + 2 * tNs d else (on d 0x4003 0 + 100) * 1000000

/-- The overlap at a boundary token that ends a micro-frame of `ns`. -/
def overlapToken (ns : Nat) (d : Dev) : Dev :=
  if !d.pair.handingOver then d
  else
    let d := modPair (fun p => { p with handNs := p.handNs + ns }) d
    if isActive d then (if overlapNs d ≤ d.pair.handNs then overlapEnd d else d)
    else
      let d := handOff d
      if (List.range 32).all (fun n => !(lch d n).on) then overlapEnd d else d

end Sys2Proof.Machine
end

