-- ==== Sys2Proof/Machine/Thermal.lean ====
section
/-! DEFINITION. Cable cooling and thermal limits (spec/11): sensor levels, THERM3, latches and their clears, die
supervision, and what the data plane publishes. -/

namespace Sys2Proof.Machine

/-! ### Levels (R253, R254, R256) -/

/-- Thresholds of a class: WARN, THROTTLE, SHUTDOWN, HYST (0.1 °C). -/
structure ThLim where
  w : Int
  t : Int
  s : Int
  h : Int
  deriving DecidableEq, Repr

def thUp (c : ThLim) (x : Int) : Nat := if x ≥ c.s then 3 else if x ≥ c.t then 2 else if x ≥ c.w then 1 else 0

def thDn (c : ThLim) (x : Int) : Nat :=
  if x ≥ c.s - c.h then 3 else if x ≥ c.t - c.h then 2 else if x ≥ c.w - c.h then 1 else 0

/-- Level of a sensor from its reading and its level before (R253). -/
def thLevel (c : ThLim) (x : Int) (old : Nat) : Nat := if thUp c x > old then thUp c x else min old (thDn c x)

/-- The reading lies outside −50.0 °C to +200.0 °C (R254). -/
def thOut (x : Int) : Bool := decide (x < -500) || decide (2000 < x)

/-! ### THERM3 (R256) -/

/-- The regime state of a slot. -/
structure ThReg where
  lim : Nat := 100
  t : Nat := 0
  reg1 : Nat := 0
  latch : Bool := false
  deriving DecidableEq, Repr

/-- A sensor in one run: its reading, its fault and its level before. -/
structure ThSens where
  x : Int
  fault : Bool
  old : Nat
  deriving DecidableEq, Repr

/-- A faulted sensor takes level 2; else the level follows the reading. -/
def thNew (c : ThLim) (s : ThSens) : Nat := if s.fault then 2 else thLevel c s.x s.old

/-- The result of a run: levels, regime state, latch cleared by a command. -/
structure ThOut where
  lvls : List Nat
  reg : ThReg
  cleared : Bool
  deriving DecidableEq, Repr

/-- One run of THERM3: R = STEP_S × 10 runs. -/
def thermStep (c : ThLim) (step r floor : Nat) (clearDue : Bool) (ss : List ThSens) (q : ThReg) : ThOut :=
  let lvls := ss.map (thNew c)
  let hot := ss.any (fun s => s.fault || decide (thUp c s.x ≥ 2))
  let shut := ss.any (fun s => !s.fault && decide (thUp c s.x = 3))
  let latch := q.latch || shut
  let cleared := clearDue && latch && !shut
  let latch := latch && !cleared
  let lim := if cleared then floor else q.lim
  let t := if cleared then 0 else q.t
  let l := lvls.foldl max 0
  let reg := if latch then 3 else if l = 2 ∧ hot then 2 else if l = 2 then 1 else 0
  let p : Nat × Nat :=
    if reg = 3 then (0, t)
    else if reg = 2 ∧ (q.reg1 ≠ 2 ∨ t ≥ r) then (max floor (lim - step), 0)
    else if reg = 0 ∧ t ≥ r ∧ lim < 100 then (min 100 (lim + step), 0)
    else (lim, t)
  { lvls := lvls, reg := { lim := p.1, t := min (p.2 + 1) r, reg1 := reg, latch := latch }, cleared := cleared }

/-- The key of an owner's class in the list of clears due: 2·c + k, 128 + s, 200 for the dies. -/
def thKey (stage : Bool) (inst k : Nat) : Nat := if stage then 128 + inst else 2 * inst + k

/-- The thresholds of class k as the slot reads them. -/
def thLimOf (d : Dev) (cell k : Nat) : ThLim :=
  let o := 0x280 + k
  { w := rdi 16 d cell o 1, t := rdi 16 d cell o 2, s := rdi 16 d cell o 3, h := (rd d cell o 4 : Int) }

/-- LIM as a current of a group (R257). -/
def iTherm (d : Dev) (cell s g lim : Nat) : Int :=
  if lim = 100 then rdq d cell (oGrp s g 9) 3 else lim * rdq d cell (oGrp s g 9) 1 / 100

/-- THERM3: state words are the levels of the sensors, then lim, t, reg1, latch. -/
def kTherm3 (d : Dev) (im : Image) (sl : SlotR) (st : List Int) : KOut :=
  let cell := sl.cell
  let n := sl.p1
  let k := bindObj (bindAt im sl n) - 0x280
  let c := thLimOf d cell k
  let step := rd d cell (0x280 + k) 5
  let r := 10 * rd d cell (0x280 + k) 6
  let floor := rd d cell (0x280 + k) 7
  let o0 := locate (bindObj (bindAt im sl sl.ins))
  let inst := (o0.map (·.inst)).getD 0
  let stage := o0.map (·.blk) == some .stg
  let tn := if stage then oStg inst 0x1C1 else oCon inst 0x41
  let lsub := if stage then 2 else 3
  let lbit := if stage then 0 else k
  let fm := rd d cell (if stage then oStg inst 0x1C2 else oCon inst 0x42) 0
  let sens := (List.range n).map (fun j => (bindAt im sl (sl.ins + j)).sub - 1)
  let ss := (List.range n).map (fun j =>
    let x := inp d im sl j
    ({ x := x, fault := fm.testBit (sens.getD j 0) || thOut x, old := (st.getD j 0).toNat } : ThSens))
  let latched := (rd d cell tn lsub).testBit lbit
  let q : ThReg := if st = [] then { lim := 100, t := r, reg1 := 0, latch := latched }
    else { lim := (st.getD n 0).toNat, t := (st.getD (n + 1) 0).toNat, reg1 := (st.getD (n + 2) 0).toNat,
           latch := st.getD (n + 3) 0 == 1 }
  let key := thKey stage inst k
  let due := d.therm.clearDue.contains key
  let o := thermStep c step r floor due ss q
  let data := fun (x : Nat) => if stage then x else k + 256 * x
  let l0 := (List.range n).foldl (fun m j => max m (st.getD j 0).toNat) 0
  let l1 := o.lvls.foldl max 0
  let first := ((List.zip sens o.lvls).find? (fun p => decide (p.2 ≥ 1))).map (·.1) |>.getD 0
  let shutS := ((List.zip sens ss).find? (fun p => !p.2.fault && decide (thUp c p.2.x = 3))).map (·.1) |>.getD 0
  let ev := fun (a b : Nat) => if stage then a else b
  { st := o.lvls.map (fun (x : Nat) => (x : Int)) ++ [(o.reg.lim : Int), (o.reg.t : Int), (o.reg.reg1 : Int), (boolNat o.reg.latch : Int)]
    outs := ((List.range n).zip o.lvls).map (fun p => (outKey im sl p.1, p.2)) ++ [(outKey im sl n, o.reg.lim * 65536)] ++
      (if stage then (List.range (im.stages.getD inst {}).groups).map (fun g =>
        (okey (oGrp inst g 0x10) 0, ofS 32 (iTherm d cell inst g o.reg.lim))) else [])
    evs := (if o.reg.reg1 = 2 ∧ q.reg1 ≠ 2 then [(ev 0x2A06 0x3203, inst, if stage then o.reg.lim else k + 256 * o.reg.lim)] else []) ++
      (if l0 = 0 ∧ l1 ≥ 1 then [(ev 0x2A05 0x3202, inst, first)] else []) ++
      (if o.reg.latch ∧ !q.latch then [(ev 0x2E06 0x3601, inst, data shutS)] else []) ++
      (if o.cleared then [(ev 0x2806 0x3001, inst, if stage then 0 else k)] else [])
    stat := [(okey tn lsub, lbit, o.reg.latch)]
    thermDone := if due then [key] else [] }

/-! ### Published at the boundary (R254, R257, R264) -/

/-- The sensors of an owner that the image binds (R255). -/
def supervised (d : Dev) (stage : Bool) (inst : Nat) : Nat :=
  match img? d with
  | some im => (im.slots.filter (fun sl => sl.kernel == 0x40)).foldl (fun m sl =>
      (List.range sl.p1).foldl (fun m j =>
        let b := bindAt im sl (sl.ins + j)
        if bindObj b = (if stage then oStg inst 0x1C0 else oCon inst 0x40) then setBit m (b.sub - 1) else m) m) 0
  | none => 0

/-- The temperatures of a connector as latched: pins, COOL_IN, COOL_OUT. -/
def conTemps (d : Dev) (di i : Nat) : List Int :=
  (List.range 4).map (fun p => toS 16 (dispField d di 0x210 (4 * i + p))) ++
    [toS 16 (dispField d di 0x211 i), toS 16 (dispField d di 0x212 i)]

/-- The sensor-fault mask of a connector (R254). -/
def conFaultMask (d : Dev) (c : Nat) : Nat :=
  match connDisp d c with
  | none => 0
  | some (di, i) =>
    let l := laneS d (32 + di)
    let r := d.lanes.recs.getD c {}
    if l.st ≠ .up ∨ !r.thermalSeen ∨ r.thermalAge > majorMicros d.time.code then 0x3F
    else
      let outs := maskOf (((List.range 6).zip (conTemps d di i)).filterMap (fun p => if thOut p.2 then some p.1 else none))
      let cool := (dispField d di 0x231 0).testBit i || d.therm.flowFault.contains c
      outs ||| (if cool then 0x30 else 0)

/-- The sensor-fault mask of a stage (R254). -/
def stgFaultMask (d : Dev) (s : Nat) : Nat :=
  if (stgS d s).hold ∨ (stgS d s).lost then 0xFF
  else maskOf ((List.range 8).filter (fun t => thOut (toS 16 (stageField (upBody d s) 0x30 t))))

/-- Put a fault mask into force and raise the event of each supervised sensor that became faulted. -/
def putFault (stage : Bool) (inst m : Nat) (d : Dev) : Dev :=
  let o := if stage then oStg inst 0x1C2 else oCon inst 0x42
  let new := clearMask m (on d o 0) &&& supervised d stage inst
  forEach (bitsSet 8 new) (fun b => raise (if stage then 0x2C07 else 0x3403) inst b) (put o 0 m d)

def publishConFault (c : Nat) (d : Dev) : Dev := putFault false c (conFaultMask d c) d
def publishStgFault (s : Nat) (d : Dev) : Dev := putFault true s (stgFaultMask d s) d

/-- The connectors of the bound dispensers. -/
def consBound (d : Dev) : List Nat :=
  (dispsBound d).flatMap (fun di => (List.range (dispE d di).count).map (fun i => (dispE d di).first + i))

/-- CON.I_THROTTLE (R257). -/
def publishThrottle (c : Nat) (d : Dev) : Dev :=
  let t := oCon c 0x41
  let a := (min (oq d t 1) (oq d t 2)) * oq d (oCon c 0x21) 0 / (100 * 65536)
  let gs := (stagesBound d).flatMap (fun s => ((List.range (stageE d s).groups).filter (fun g => on d (oGrp s g 0x16) 0 == c)).map (fun g => (s, g)))
  let b := sumI (gs.map (fun p => oq d (oGrp p.1 p.2 0x10) 0))
  putq (oCon c 0x43) 0 (satS 32 (if gs = [] then a else min a b)) d

/-- CON.COOL_FLOOR (R264). -/
def publishFloor (c : Nat) (d : Dev) : Dev :=
  let hot := (List.range 6).any (fun k => decide (on d (oCon c 0x40) (k + 1) ≥ 2)) ||
    decide (on d (oCon c 0x42) 0 &&& supervised d false c ≠ 0)
  let st := on d (oCon c 0x32) 1
  let wasDisch := d.therm.wasDisch.contains c
  let left := if wasDisch ∧ st ≠ 6 then on d (oCon c 0x44) 4 * 1000000000 else (alGet d.therm.runOn c).getD 0 - tNs d
  let f := if hot then 100 else if st ≠ 0 ∨ left > 0 then on d (oCon c 0x44) 3 else 0
  let d := { d with therm := { d.therm with
    runOn := if left > 0 then alSet d.therm.runOn c left else alDel d.therm.runOn c
    wasDisch := if st = 6 then (if wasDisch then d.therm.wasDisch else c :: d.therm.wasDisch) else d.therm.wasDisch.filter (· != c) } }
  put (oCon c 0x46) 0 (f * 65536) d

/-- The flow condition at a housekeeping boundary (R254): counted here, carried out by COOL_FLOW_LOW. -/
def countFlow (c : Nat) (d : Dev) : Dev :=
  match connDisp d c with
  | none => d
  | some (di, i) =>
    let low := decide (oq d (oCon c 0x47) 1 ≥ 20 * 65536) && decide (dispField d di 0x213 i < on d (oCon c 0x44) 5)
    let n := if low then (alGet d.therm.flowLow c).getD 0 + 1 else 0
    { d with therm := { d.therm with
      flowLow := if n = 0 then alDel d.therm.flowLow c else alSet d.therm.flowLow c n
      flowFault := if n = 0 then d.therm.flowFault.filter (· != c) else d.therm.flowFault } }

/-- COOL_FLOW_LOW (R254). -/
def coolFlowLow (c : Nat) (d : Dev) : Dev :=
  if running d && decide (3 ≤ (alGet d.therm.flowLow c).getD 0) && !(d.therm.flowFault.contains c) then
    let d := { d with therm := { d.therm with flowFault := c :: d.therm.flowFault } }
    let flow := match connDisp d c with | some (di, i) => dispField d di 0x213 i | none => 0
    publishConFault c (raise 0x3204 c flow d)
  else d

/-! ### Dies (R260, R262) -/

/-- Once per housekeeping round, with the arithmetic of R256: grade the four die temperatures, a faulted one at level 2 (R254),
publish them, set or clear the device latch. -/
def dieRound (temps : List Int) (d : Dev) : Dev :=
  let c : ThLim := { w := oi 16 d 0x283 1, t := oi 16 d 0x283 2, s := oi 16 d 0x283 3, h := (on d 0x283 4 : Int) }
  let shut := temps.any (fun x => !(thOut x) && decide (thUp c x = 3))
  let was := oflag d 0x285 5
  let d := ((List.range 4).zip temps).foldl (fun d p =>
    let old := on d 0x285 (p.1 + 1)
    let new := thNew c { x := p.2, fault := thOut p.2, old := old }
    let d := puti 16 0x284 (p.1 + 1) p.2 (put 0x285 (p.1 + 1) new d)
    let d := whenD (decide (old = 0) && decide (new ≥ 1)) (raise 0x0A20 p.1 0) d
    let d := whenD (decide (old < 2) && decide (new ≥ 2)) (raise 0x0A21 p.1 0) d
    whenD (decide (new = 3) && decide (old < 3) && !was) (raise 0x0E20 p.1 0) d) d
  let due := d.therm.clearDue.contains 200
  let clr := due && was && !shut
  let d := { d with therm := { d.therm with clearDue := d.therm.clearDue.filter (· != 200) } }
  let d := if shut && !was then putf 0x285 5 true d
    else if clr then raise 0x0820 noInst 0 (putf 0x285 5 false d) else d
  let lv := (List.range 4).map (fun k => on d 0x285 (k + 1))
  let red := if lv.any (fun l => decide (l ≥ 2)) then true else if lv.all (· == 0) then false else d.therm.plReduced
  { d with therm := { d.therm with plReduced := red } }

/-! ### Clears (R260) -/

/-- Every sensor of each named class has level 0 and none is faulted, in force at the commit. -/
def conThermClearOk (d : Dev) (c m : Nat) : Bool :=
  let l := fun k => on d (oCon c 0x40) (k + 1)
  let f := on d (oCon c 0x42) 0 &&& supervised d false c
  (!(m.testBit 0) || ((List.range 4).all (fun k => l k == 0) && decide (f &&& 0x0F = 0))) &&
    (!(m.testBit 1) || ((List.range 2).all (fun k => l (4 + k) == 0) && decide (f &&& 0x30 = 0)))

def stgThermClearOk (d : Dev) (s : Nat) : Bool :=
  (List.range 8).all (fun k => on d (oStg s 0x1C0) (k + 1) == 0) && decide (on d (oStg s 0x1C2) 0 &&& supervised d true s = 0)

def dieThermClearOk (d : Dev) : Bool := (List.range 4).all (fun k => on d 0x285 (k + 1) == 0 && !(thOut (oi 16 d 0x284 (k + 1))))

/-- A class without a latch is ignored. -/
def addClear (key : Nat) (latched : Bool) (d : Dev) : Dev :=
  if latched && !(d.therm.clearDue.contains key) then
    { d with therm := { d.therm with clearDue := d.therm.clearDue ++ [key] } } else d

/-- The effects at the major-frame boundary: the clear is due. -/
def conThermClear (c m : Nat) (d : Dev) : Dev :=
  let w := on d (oCon c 0x41) 3
  addClear (thKey false c 1) (m.testBit 1 && w.testBit 1) (addClear (thKey false c 0) (m.testBit 0 && w.testBit 0) d)

def stgThermClear (s m : Nat) (d : Dev) : Dev := addClear (thKey true s 2) (m.testBit 0 && oflag d (oStg s 0x1C1) 2) d

def dieThermClear (m : Nat) (d : Dev) : Dev := addClear 200 (m.testBit 0 && oflag d 0x285 5) d

end Sys2Proof.Machine
end

