-- ==== Sys2Proof/Machine/Sessions.lean ====
section
/-! DEFINITION. Vehicle sessions (spec/13): contexts, the requests to the control plane, authorization, ends, pauses and
resumption, certificate slots. The wire forms of the vehicle protocols are outside the spec: messages arrive taken apart,
and the bytes of an answer are an open function of Config. -/

namespace Sys2Proof.Machine

/-! ### Contexts -/

def sesState (d : Dev) (n : Nat) : Nat := on d (oSes n 0) 0
def sesConn (d : Dev) (n : Nat) : Nat := on d (oSes n 1) 0
def ctx (d : Dev) (n : Nat) : CtxS := d.ses.ctx.getD n {}

def modCtx (n : Nat) (f : CtxS → CtxS) (d : Dev) : Dev := { d with ses := { d.ses with ctx := modAt d.ses.ctx n f } }

/-- The context of a connector in states 1 to 9 (CON.SESSION). -/
def conCtx (d : Dev) (c : Nat) : Option Nat :=
  let n := on d (oCon c 0x51) 0
  if n < 256 then some n else none

/-- SES.COUNT (R306). -/
def sesCount (d : Dev) : Dev :=
  let st := (List.range 256).map (sesState d)
  put 0x301 2 ((st.filter (· == 10)).length) (put 0x301 1 ((st.filter (fun x => decide (1 ≤ x) && decide (x ≤ 9))).length) d)

/-- A changed context waits for its SESSION_DELTA record (R303). -/
def sesDelta (n : Nat) (d : Dev) : Dev :=
  if d.pair.role == .active && !(d.ses.deltas.contains n) then { d with ses := { d.ses with deltas := d.ses.deltas ++ [n] } } else d

/-! ### Answers to the vehicle -/

/-- A message's frame has come through ring 9: into the downstream vehicle queue of the connector (R132, R291). -/
def vehGo (c msg : Nat) (args : List Nat) (f : Bytes) (d : Dev) : Dev :=
  let d := emit (.vehicle c msg args) d
  { d with lanes := { d.lanes with vethTx := d.lanes.vethTx ++ [(c, f, 0)] } }

/-- Send an answer: its frame goes by way of ring 9 (R420). -/
def sendVeh (c msg : Nat) (args : List Nat) (d : Dev) : Dev :=
  let f := (Config.vehFrame c msg args d.draws).take 1514
  ringPass 9 [.vehicleDown c msg args f] (vehGo c msg args f) id { d with draws := d.draws + 1 }

/-! Message numbers of the answers. -/
def mDiscovery : Nat := 1
def mAppProtocol : Nat := 2
def mTls : Nat := 3
def mSetup : Nat := 4
def mAuth : Nat := 5
def mParams : Nat := 6
def mCable : Nat := 7
def mPrecharge : Nat := 8
def mPower : Nat := 9
def mLoop : Nat := 10
def mWelding : Nat := 11
def mStop : Nat := 12
def mNotice : Nat := 13

/-- DIN SPEC 70121 and ISO 15118-2 (R297). -/
def oldProto (d : Dev) (n : Nat) : Bool := decide (on d (oSes n 2) 0 ≤ 2)

def ebReady (d : Dev) (c : Nat) : Bool := oflag d (oCon c 0x36) 0

def vConnRaw (d : Dev) (c : Nat) : Nat := ofS 32 (vConnQ d c)

/-- The present limits of a charge-loop response: current, and power in 2^-16 kW capped by CON.GRANT.02 (R298). -/
def loopLimits (d : Dev) (c : Nat) : List Nat :=
  let i := oq d (oCon c 0x24) 0
  let p := powerQ (vConnQ d c) i
  [ofS 32 i, (max 0 (min p (on d (oCon c 0x22) 2 * 65536 : Nat))).toNat]

/-- Send an answer: the limits of the charge loop are those in force now (R223, R298), and the vehicle is told that pre-charge is
complete only while CON.EB_READY is 1 now (R297). -/
def sendAnswer (c msg : Nat) (args : List Nat) (d : Dev) : Dev :=
  if msg = mLoop then sendVeh c msg (loopLimits d c ++ args) d
  else if msg = mPrecharge ∧ args.getD 1 0 = 1 ∧ !(ebReady d c) then
    match conCtx d c with
    | some n =>
      if oldProto d n then sendVeh c msg ([vConnRaw d c, 0] ++ args.drop 2) d
      else if sesState d n = 6 then modCtx n (fun x => { x with pcPending := true }) d
      else d
    | none => d
  else sendVeh c msg args d

/-- Answer, with the notice of a station-side end that has not been told yet (R300). On the active unit of a pair whose partner is
present the answer waits for the PAIR frame with its delta (R303). -/
def respond (n c msg : Nat) (args : List Nat) (d : Dev) : Dev :=
  let x := ctx d n
  let args := if x.notice = 0 then args else args ++ [x.notice]
  let d := modCtx n (fun x => { x with notice := 0, wire := Config.transport n d.draws }) { d with draws := d.draws + 1 }
  if d.pair.role == .active && oflag d 0x400 3 then
    { sesDelta n d with ses := { (sesDelta n d).ses with held := (sesDelta n d).ses.held ++ [(c, msg, args)] } }
  else sendAnswer c msg args (sesDelta n d)

/-- The PAIR frame with the deltas has been sent on both pair lanes: the answers go out (R303). -/
def releaseReady (d : Dev) : Dev :=
  forEach d.ses.ready (fun x => sendAnswer x.1 x.2.1 x.2.2) { d with ses := { d.ses with ready := [] } }

/-! ### Connector requests (R295) -/

/-- The highest of CON.SES_CFG.04 and the vehicle's maximum voltage, capped at CON.SES_CFG.03 (R296). -/
def vTest (d : Dev) (n c : Nat) : Nat := min (on d (oCon c 0x50) 3) (max (on d (oCon c 0x50) 4) (on d (oSes n 0x0A) 1))

/-- Put a number into force only when it changes. -/
def setReq (c k v : Nat) (d : Dev) : Dev := if on d (oCon c 0x20) k = v then d else put (oCon c 0x20) k v d

def setStep (c v : Nat) (d : Dev) : Dev := if on d (oCon c 0x34) 1 = v then d else put (oCon c 0x34) 1 v d

/-- MODE, STEP and, where the table fixes it, V_TARGET of a context's connector. -/
def sesReq (n : Nat) (d : Dev) : Dev :=
  let c := sesConn d n
  match sesState d n with
  | 5 => setReq c 9 (vTest d n c) (setStep c 2 (setReq c 1 1 d))
  | 6 => setStep c 2 (setReq c 1 1 d)
  | 7 => setStep c 3 (if on d (oCon c 0x20) 1 = 0 then setReq c 1 1 d else d)
  | 8 => setStep c 4 (setReq c 1 3 d)
  | _ => setReq c 9 0 (setStep c 0 (setReq c 1 0 d))

/-- Enter a state. -/
def sesEnter (n st : Nat) (d : Dev) : Dev := sesDelta n (sesCount (sesReq n (put (oSes n 0) 0 st d)))

/-- The class of a session (R295). -/
def sesClass (d : Dev) (n c : Nat) : Nat := if on d (oSes n 7) 0 ≤ 3 then on d (oSes n 7) 0 else on d (oCon c 0x50) 1

/-- SES.EV and the other CON.REQ fields from a vehicle message (R295, R305). -/
def sesLimits (n : Nat) (m : VehLimits) (d : Dev) : Dev :=
  let c := sesConn d n
  let ev := oSes n 0x0A
  let d := put ev 6 m.soc (put ev 5 m.pDis (put ev 4 m.iDis (put ev 3 m.pMax (put ev 2 m.iMax (put ev 1 m.vMax d)))))
  let iChg := min m.iMax (m.iTarget.getD m.iMax)
  let pChg := min m.pMax (m.pTarget.getD m.pMax)
  let disOk := decide (0 < m.iDis) && decide (0 < m.pDis) && m.soc != 0xFF && decide (m.minSoc < m.soc)
  let d := modCtx n (fun x => { x with disOk := disOk, iChg := iChg, pChg := pChg }) d
  let dis := on d (oCon c 0x20) 1 = 2
  let d := setReq c 3 (if dis then m.iDis else iChg) d
  let d := setReq c 4 (if dis then m.pDis else pChg) d
  let d := setReq c 5 (m.iMin.getD (on d (oCon c 0x50) 2)) d
  let d := setReq c 6 m.eTarget d
  let d := setReq c 8 (if m.depart = 0 then 0 else civilNs d + m.depart * 1000000000) d
  sesDelta n (setReq c 2 (sesClass d n c) d)

/-! ### Taking and freeing contexts (R293, R294) -/

/-- The next FREE context after the last one taken, wrapping round. -/
def nextFree (d : Dev) : Option Nat :=
  ((List.range 256).map (fun i => (d.ses.last + 1 + i) % 256)).find? (fun n => sesState d n == 0)

/-- The defaults of a context's objects. -/
def sesClearObjs (n : Nat) (d : Dev) : Dev :=
  forEach (List.range 15) (fun off d =>
    forEach [0, 1, 2, 3, 4, 5, 6] (fun sub d =>
      let k := okey (oSes n off) sub
      if (storeFind d.os.cur k).isSome then { d with os := putV d.os k (dfltOf k) } else d) d) d

/-- Take a context for a connector, or raise SES_NO_CONTEXT. -/
def takeCtx (c : Nat) (d : Dev) : Dev :=
  match nextFree d with
  | some n =>
    let d := modCtx n (fun _ => { feat := on d 0x011 0 }) (sesClearObjs n d)
    let d := { d with ses := { d.ses with last := n } }
    sesEnter n 1 (put (oCon c 0x51) 0 n (put (oSes n 1) 0 c d))
  | none => raise 0x3A01 noInst c d

/-- The session log entry of a context (R433, R436). -/
def sesLogEntry (d : Dev) (n : Nat) : Bytes :=
  natLe 4 (on d (oSes n 0x0D) 0) ++ natLe 2 n ++ natLe 1 (sesConn d n) ++ natLe 1 (on d (oSes n 2) 0) ++
    natLe 1 (on d (oSes n 0x0C) 1) ++ natLe 1 (on d (oSes n 0x0C) 2) ++ natLe 2 0 ++ natLe 8 (on d (oSes n 0x0B) 1) ++
    natLe 8 (on d (oSes n 0x0B) 2) ++ padTo 8 (ob d (oSes n 3) 0) ++ padTo 24 ((ob d (oSes n 4) 0).take 24) ++ natLe 4 0

/-- A context returns to FREE: SES_CLOSED (R309); the session log takes an entry (R433). -/
def freeCtx (n : Nat) (d : Dev) : Dev :=
  let d := recPost 2 0x38 (sesLogEntry d n) d
  let c := sesConn d n
  let d := if on d (oCon c 0x51) 0 = n then put (oCon c 0x51) 0 0xFFFF (setStep c 0 (setReq c 1 0 d)) else d
  let d := sesDelta n (sesCount (put (oSes n 1) 0 0xFF (put (oSes n 0) 0 0 d)))
  raise 0x3803 n (c + 256 * on d (oSes n 0x0C) 1) d

/-- No ended context has its connection with this connector's vehicle open any longer. -/
def hush (c : Nat) (d : Dev) : Dev :=
  { d with ses := { d.ses with ctx := d.ses.ctx.map (fun x => if x.linger = some c then { x with linger := none } else x) } }

/-- The connection of an ended context stays open, so that the vehicle's next requests are answered (R300), but where the vehicle
cannot be reached: after causes 4, 9 and 11. -/
def keepTalking (n c : Nat) (d : Dev) : Dev :=
  let d := hush c d
  if [4, 9, 11].contains (on d (oSes n 0x0C) 1) then d else modCtx n (fun x => { x with linger := some c }) d

/-- The ended context whose connection the vehicle of a connector still has open. -/
def lingering (d : Dev) (c : Nat) : Option Nat := d.ses.ctx.findIdx? (fun x => x.linger == some c)

/-- A context enters CLOSING: its record closes, and its connector is free for another context (R294). -/
def closeCtx (n : Nat) (d : Dev) : Dev :=
  let c := sesConn d n
  let d := sesEnter n 10 d
  let d := if on d (oCon c 0x51) 0 = n then put (oCon c 0x51) 0 0xFFFF d else d
  keepTalking n c (sessionRecordClose n c (on d (oSes n 0x0C) 1) d)

/-- A contactor of the connector's node shows closed. -/
def anyClosed (d : Dev) (c : Nat) : Bool := decide (on d (oCon c 0x32) 4 % 2 ^ 17 ≠ 0)

/-- The handshake of a context begins anew: with its discovery, and when it is suspended (R301). -/
def unshaken (x : CtxS) : CtxS := { x with sec := false, tls := false, appDone := false }

/-- STOPPING is left once no contactor shows closed: SUSPENDED or CLOSING (R294, R300). Where the vehicle has ended the transfer, its
session stop request comes first, since it says whether the vehicle ends or pauses: DESIGN CHOICE (log entry 72). -/
def stopDone (n : Nat) (d : Dev) : Dev :=
  if sesState d n = 8 ∧ !(anyClosed d (sesConn d n)) ∧ !((ctx d n).vehWaits) then
    (if (ctx d n).resumable then sesEnter n 9 (modCtx n (fun x => { unshaken x with suspended := 0 }) d) else closeCtx n d)
  else d

/-- How a vehicle is told of an end (R300): 0 not at all, 1 EVSE_Shutdown, 2 EVSE_EmergencyShutdown, 3 FAILED, 4 Terminate. -/
def noticeOf (old : Bool) (cause : Nat) : Nat :=
  match cause with
  | 3 | 8 | 12 => if old then 1 else 4
  | 6 | 7 | 13 => if old then 2 else 3
  | 5 | 10 => 3
  | _ => 0

/-- End a session with a cause (R300). Before AUTHORIZE the context returns to FREE without a record (R294). A context in SUSPENDED
stays for a resumable cause; any other closes it under that cause: DESIGN CHOICE (log entry 48). A context in STOPPING keeps its
cause and waits for its vehicle no longer (log entry 72). A pre-charge response that waits is the current response and carries the
notice. -/
def sesStop (n cause : Nat) (resumable : Bool) (d : Dev) : Dev :=
  let st := sesState d n
  let c := sesConn d n
  let booked := fun (d : Dev) =>
    let d := put (oSes n 0x0C) 1 cause d
    if 3 ≤ cause then raise 0x3E01 n (c + 256 * cause) d else d
  let told := fun (d : Dev) => modCtx n (fun x => { x with notice := noticeOf (oldProto d n) cause }) d
  if st = 0 ∨ st = 10 then d
  else if st = 8 then (if (ctx d n).vehWaits then stopDone n (modCtx n (fun x => { x with vehWaits := false }) d) else d)
  else if st = 9 then (if resumable then d else closeCtx n (told (booked d)))
  else if st ≤ 2 then keepTalking n c (freeCtx n (told (put (oSes n 0x0B) 2 (civilNs d) (booked d))))
  else
    let waiting := (ctx d n).pcPending
    let d := put (oSes n 0x0B) 2 (civilNs d) (booked d)
    let d := modCtx n (fun x => { x with
      resumable := resumable, pcPending := false, dirWait := false, vehWaits := false, notice := noticeOf (oldProto d n) cause }) d
    let d := stopDone n (sesEnter n 8 d)
    if waiting then respond n c mPrecharge [vConnRaw d c, 2] d else d

/-- A message in a state that does not admit it: a sequence error, told in its response (R300). -/
def seqError (n c : Nat) (d : Dev) : Dev :=
  modCtx n (fun x => { x with notice := 0 }) (sesStop n 10 false (respond n c mNotice [3] d))

/-- A message that the context's state does not admit: after a station-side end that the vehicle has not been told, its own response
tells it (R300); else a sequence error. -/
def toldOrError (n c msg : Nat) (args : List Nat) (d : Dev) : Dev :=
  if (ctx d n).notice ≠ 0 then respond n c msg args d else seqError n c d

/-- A failed negotiation ends the context: it returns to FREE, by way of CLOSING where it has a record (R288, R289, R294). -/
def dropCtx (n : Nat) (d : Dev) : Dev := if sesState d n = 9 then closeCtx n d else freeCtx n d

/-- The management plane has taken the frames of a connector that carry a message (R420). -/
def takeFrames (c : Nat) (d : Dev) : Dev :=
  { d with lanes := { d.lanes with vehIn := d.lanes.vehIn.filter (fun p => p.1 != c || slice p.2 12 2 == natBe 2 0x88B5) } }

/-- Serve a vehicle message of a connector that has a context. -/
def onCtx (c : Nat) (f : Nat → Dev → Dev) (d : Dev) : Dev :=
  if running d && isActive d && decide (c < 64) then
    match conCtx d c with
    | some n => f n (takeFrames c d)
    | none => takeFrames c d
  else d

/-- Serve a message that comes on an open connection: that of the ended context which the vehicle still talks to, if any, else that of
the connector's context. -/
def onTalk (c : Nat) (f : Nat → Dev → Dev) (d : Dev) : Dev :=
  match lingering d c with
  | some n => if running d && isActive d && decide (c < 64) then f n (takeFrames c d) else d
  | none => onCtx c f d

/-! ### LINK_STATE (R292, R293, R300) -/

def linkObj (c : Nat) : Nat := oCon c 0x53

/-- A well-formed LINK_STATE frame for a connector: 60 bytes, address, Ethertype, SUBTYPE 1, reserved fields 0. -/
def linkFrameOk (d : Dev) (c : Nat) (f : Bytes) : Bool :=
  f.length == 60 && f.take 6 == conMac d c && slice f 12 2 == natBe 2 0x88B5 && byteAt f 14 == 1 &&
    decide (byteAt f 17 < 4) && (f.drop 20).all (· == 0)

def pilot (d : Dev) (c : Nat) : Nat := on d (linkObj c) 1

/-- The connector's kind: MCS by the dispenser table (R54). -/
def isMcs (d : Dev) (c : Nat) : Bool :=
  match connDisp d c with
  | some (di, i) => (dispE d di).mcs.testBit i
  | none => false

def featOn (d : Dev) (bit : Nat) : Bool := (on d 0x011 0).testBit bit

/-- A connector takes a context: PILOT 2 or 3 with LINK 2 (R293), MCS in force on an MCS connector (R287). -/
def mayTake (d : Dev) (c : Nat) : Bool :=
  (pilot d c == 2 || pilot d c == 3) && on d (linkObj c) 2 == 2 && (!(isMcs d c) || featOn d 2)

/-- A new LINK_STATE payload: publish it, take a context, end a session. A context that a lost dispenser lane suspended stays
resumable while PILOT stays 2 or 3 (R304). -/
def linkState (c : Nat) (f : Bytes) (d : Dev) : Dev :=
  if !(running d) || !(linkFrameOk d c f) || decide (64 ≤ c) then d
  else
    let l := linkObj c
    let d := put l 4 0 (put l 3 (byteAt f 17) (put l 2 (byteAt f 16) (put l 1 (byteAt f 15) d)))
    let d := { d with
      lanes := { d.lanes with vehIn := d.lanes.vehIn.filter (fun p => !(p.1 == c && p.2 == f)) }
      ses := { d.ses with age := alSet d.ses.age c 0,
                          link0 := if byteAt f 16 = 0 then d.ses.link0 else alDel d.ses.link0 c } }
    if !(isActive d) then d
    else
      let unplugged := decide (byteAt f 15 = 1)
      match conCtx d c with
      | some n =>
        if (byteAt f 17).testBit 1 then sesStop n 13 false d
        else if unplugged then sesStop n 4 false d
        else if sesState d n = 9 ∧ on d (oSes n 0x0C) 1 = 9 ∧ !(pilot d c == 2 || pilot d c == 3) then
          modCtx n (fun x => { x with resumable := false }) d
        else d
      | none => if mayTake d c then takeCtx c d else d

/-- LINK_STATE_TIMEOUT: no frame for 300 ms; the connector counts as PILOT 0, LINK 0 (R292). What LINK 0 for 300 ms does follows at
a boundary token (`sesWatch`). -/
def linkTimeout (c : Nat) (d : Dev) : Dev :=
  let l := linkObj c
  if running d && decide (c < 64) && decide (300 < on d l 4) then put l 2 0 (put l 1 0 d) else d

/-- CON.LINK.04 and the timers of a boundary of `ns` (R292, R296, R300, R301). -/
def sesTick (ns : Nat) (d : Dev) : Dev :=
  let cs := consBound d
  let d := { d with ses := { d.ses with
    age := cs.map (fun c => (c, (alGet d.ses.age c).getD 0 + ns))
    link0 := (cs.filter (fun c => on d (linkObj c) 2 == 0)).map (fun c => (c, (alGet d.ses.link0 c).getD 0 + ns)) } }
  let d := forEach d.ses.age (fun p d =>
    let ms := satU 16 (p.2 / 1000000)
    if on d (linkObj p.1) 4 = ms then d else put (linkObj p.1) 4 ms d) d
  forEach (bitsSet 256 (maskOf ((List.range 64).filterMap (conCtx d)))) (fun n d =>
    if sesState d n = 5 then
      let c := sesConn d n
      let vt := (vTest d n c : Int)
      let v := vConnQ d c
      let good := decide (20 * absI (v - vt) ≤ vt) && decide (isoState d c = 1)
      modCtx n (fun x => { x with isoFor := if good then x.isoFor + ns else 0 }) d
    else if sesState d n = 9 then modCtx n (fun x => { x with suspended := x.suspended + ns }) d
    else d) d

/-! ### Discovery, application protocol, TLS, setup (R288, R289, R301) -/

/-- Slot k holds a valid chain (R302). -/
def slotValid (d : Dev) (k : Nat) : Bool :=
  let ch := ob d (0x311 + 2 * k) 0
  decide (ch ≠ []) && Config.certCurrent ch (civilNs d) &&
    Config.leafKey ch == Config.p521Pub (seccKey d k)

/-- SECC_DISCOVERY_REQUEST (R287, R288, R294): answered in every state; a new handshake begins with it in MATCHED, HANDSHAKE and
SUSPENDED. -/
def seccDiscovery (c : Nat) (tls : Bool) : Dev → Dev :=
  onCtx c (fun n d =>
    if isMcs d c && !((ctx d n).feat.testBit 2) then d
    else
      let sec := tls && slotValid d (on d (oCon c 0x50) 11)
      let d := hush c d
      let d := if sesState d n = 1 ∨ sesState d n = 2 ∨ sesState d n = 9 then modCtx n (fun x => { unshaken x with sec := sec }) d else d
      let d := if sesState d n = 1 then sesEnter n 2 d else d
      respond n c mDiscovery ([if sec then 0 else 0x10, 61000 + c] ++ (linkLocal d c).map (·.toNat)) d)

/-- The protocols the device may select on a connector (R287, R288): those of ISO 15118-20 only over TLS 1.3, with the feature view of
the time when the context was taken (R105). -/
def protoOk (d : Dev) (n c p : Nat) : Bool :=
  let cfg := on d (oCon c 0x50) 8
  let x := ctx d n
  let plain := !x.sec && !x.tls
  let tls := x.sec && x.tls
  let mcs := isMcs d c
  match p with
  | 1 => plain && !mcs && cfg.testBit 0
  | 2 => plain && !mcs && cfg.testBit 1
  | 3 => tls && !mcs && cfg.testBit 2
  | 4 => tls && !mcs && cfg.testBit 2 && x.feat.testBit 1
  | 5 => tls && mcs && cfg.testBit 2 && x.feat.testBit 2
  | 6 => tls && mcs && cfg.testBit 2 && x.feat.testBit 2 && x.feat.testBit 1
  | _ => false

/-- The best of the allowed entries: the lowest priority number. -/
def bestProto : List (Nat × Nat) → Option (Nat × Nat)
  | [] => none
  | x :: l => match bestProto l with
    | some y => if y.2 < x.2 then some y else some x
    | none => some x

/-- SUPPORTED_APP_PROTOCOL: entries (protocol, priority); the vehicle's highest-priority allowed entry wins (R288). -/
def appProtocol (c : Nat) (offers : List (Nat × Nat)) : Dev → Dev :=
  onTalk c (fun n d =>
    if sesState d n = 2 ∨ sesState d n = 9 then
      match bestProto (offers.filter (fun o => protoOk d n c o.1)) with
      | some p => respond n c mAppProtocol [0, p.1] (put (oSes n 2) 0 p.1 (modCtx n (fun x => { x with appDone := true }) d))
      | none => dropCtx n (respond n c mAppProtocol [1, 0] d)
    else toldOrError n c mAppProtocol [1, 0] d)

/-- A handshake that the device accepts: TLS was offered, suite and key share are its own, and a certificate that the vehicle
presents verifies against SES.ROOTS (R289). -/
def tlsGood (d : Dev) (n : Nat) (m : TlsHello) : Bool :=
  (ctx d n).sec && m.ok && (m.suite == 0x1302 || m.suite == 0x1303) && (m.grp == 0x19 || m.grp == 0x1E) &&
    (decide (m.chain = []) || Config.chainVerifies m.chain (ob d 0x300 0))

/-- TLS_HANDSHAKE (R289): the server signs with the key of the connector's slot. -/
def tlsHandshake (c : Nat) (m : TlsHello) : Dev → Dev :=
  onTalk c (fun n d =>
    if sesState d n = 2 ∨ sesState d n = 9 then
      if tlsGood d n m then
        let t := oSes n 0x0E
        let k := on d (oCon c 0x50) 11
        let sig := Config.p521Sign (seccKey d k) m.transcript d.draws
        let d := modCtx n (fun x => { x with tls := true, appDone := false }) { d with draws := d.draws + 1 }
        respond n c mTls (sig.map (·.toNat)) (putf t 4 (decide (m.chain ≠ [])) (put t 3 k (put t 2 m.grp (put t 1 m.suite d))))
      else dropCtx n (raise 0x3A02 n c d)
    else d)

/-- A thermal latch of the connector or of one of its stages (R258, R301). -/
def sesThermal (d : Dev) (c : Nat) : Bool :=
  conThermal d c || (stagesBound d).any (fun s => oflag d (oStg s 0x1C1) 2 &&
    (List.range (stageE d s).groups).any (fun g => on d (oGrp s g 0x16) 0 == c || on d (oGrp s g 0x17) 0 == c))

/-- The session opens: AUTHORIZE, SES_OPEN, its record (R294). -/
def sesOpen (n c : Nat) (evccid : Bytes) (d : Dev) : Dev :=
  let r := draw 8 d
  let d := putb (oSes n 4) 0 (evccid.take 255) (putb (oSes n 3) 0 r.1 r.2)
  let d := put (oSes n 0x0B) 3 (on d 0x2201 0) (put (oSes n 0x0B) 1 (civilNs d) d)
  let d := sessionRecordOpen n c d
  let d := raise 0x3801 n (c + 256 * on d (oSes n 2) 0) (sesEnter n 3 d)
  respond n c mSetup [0] d

/-- What a new context takes over from the one that closed before it: the handshake, as far as the feature view that it is taken with
(R105) admits the protocol. -/
def carryOver (c : Nat) (x : CtxS) (p : Nat) (t : List Nat) (d : Dev) : Dev :=
  match conCtx d c with
  | some m =>
    let d := modCtx m (fun y => { y with sec := x.sec, tls := x.tls }) (sesEnter m 2 (put (oSes m 2) 0 p d))
    let d := modCtx m (fun y => { y with appDone := x.appDone && protoOk d m c p }) d
    forEach (([1, 2, 3, 4] : List Nat).zip t) (fun q d => put (oSes m 0x0E) q.1 q.2 d) d
  | none => d

/-- Close a context and take a new one with its handshake (R301). -/
def renewCtx (n c : Nat) (d : Dev) : Dev :=
  let x := ctx d n
  let p := on d (oSes n 2) 0
  let t := [1, 2, 3, 4].map (on d (oSes n 0x0E))
  carryOver c x p t (takeCtx c (hush c (closeCtx n d)))

/-- SESSION_SETUP (R294, R301). A setup that does not match a suspended context opens a new one under the features in force now; where
they no longer admit the protocol agreed, the negotiation has failed (R105, R288). -/
def sessionSetup (c : Nat) (id evccid : Bytes) : Dev → Dev :=
  onTalk c (fun n d =>
    if sesState d n = 2 ∧ (ctx d n).appDone then sesOpen n c evccid d
    else if sesState d n = 9 ∧ (ctx d n).appDone then
      if id = ob d (oSes n 3) 0 ∧ evccid = ob d (oSes n 4) 0 ∧ !(sesThermal d c) ∧ (ctx d n).resumable ∧
          (pilot d c = 2 ∨ pilot d c = 3) ∧ (ctx d n).suspended ≤ on d (oCon c 0x50) 9 * 1000000000 then
        let d := put (oSes n 0x0C) 2 (incSat 8 (on d (oSes n 0x0C) 2)) d
        let d := put (oSes n 0x0C) 1 0 (put (oSes n 0x0B) 2 0 d)
        respond n c mSetup [1] (raise 0x3802 n c (sesEnter n 4 d))
      else
        let d := renewCtx n c d
        match conCtx d c with
        | some m => if (ctx d m).appDone then sesOpen m c evccid d else dropCtx m (respond m c mSetup [2] d)
        | none => d
    else toldOrError n c mSetup [2] d)

/-! ### Authorization (R299) -/

/-- Accept or reject, or go on waiting. -/
def authDecide (n c : Nat) (d : Dev) : Dev :=
  if on d (oSes n 6) 0 = 2 then respond n c mAuth [2] (sesStop n 5 false d)
  else if on d (oSes n 6) 0 = 1 ∨ (on d (oCon c 0x50) 7).testBit 2 then respond n c mAuth [0] (sesEnter n 4 d)
  else respond n c mAuth [1] d

/-- The request of a vehicle that CON.SES_CFG.07 and its protocol admit. -/
def authAllowed (d : Dev) (n c : Nat) (pnc : Bool) : Bool :=
  if pnc then (on d (oCon c 0x50) 7).testBit 1 && decide (3 ≤ on d (oSes n 2) 0) else (on d (oCon c 0x50) 7).testBit 0

/-- AUTHORIZATION: EIM, or PnC with its contract certificate chain and its EMAID. Each request is verified, the one also that comes
after a write of SES.AUTH has already led to PARAMETERS. -/
def authorization (c : Nat) (pnc : Bool) (chain emaid : Bytes) : Dev → Dev :=
  onTalk c (fun n d =>
    if sesState d n = 3 ∨ sesState d n = 4 then
      let d := put (oSes n 5) 1 (boolNat pnc) d
      if !(authAllowed d n c pnc) then respond n c mAuth [2] (sesStop n 5 false d)
      else if pnc && !(Config.chainVerifies chain (ob d 0x300 0)) then respond n c mAuth [3] (sesStop n 5 false d)
      else
        let d := modCtx n (fun x => { x with asked := true }) (if pnc then putb (oSes n 5) 2 (emaid.take 32) d else d)
        if sesState d n = 3 then authDecide n c d else respond n c mAuth [0] d
    else toldOrError n c mAuth [1] d)

/-- AUTH_TIMEOUT: CON.SES_CFG.05 ran out (R299). -/
def authTimeout (n : Nat) (d : Dev) : Dev :=
  if running d && isActive d && decide (sesState d n = 3) then sesStop n 5 false d else d

/-- SES.AUTH written in AUTHORIZE: a reject ends the session; an accept decides once the vehicle's request has been admitted, and until
then waits for it. -/
def sesAuthEffect (n : Nat) (d : Dev) : Dev :=
  if sesState d n = 3 then
    if on d (oSes n 6) 0 = 2 then sesStop n 5 false d
    else if on d (oSes n 6) 0 = 1 ∧ (ctx d n).asked then sesEnter n 4 d else d
  else d

/-- SES.STOP (R308). -/
def sesStopEffect (n : Nat) (v : Nat) (d : Dev) : Dev :=
  if v = 1 ∧ 2 ≤ sesState d n ∧ sesState d n ≤ 7 then sesStop n 3 false d else d

/-! ### Charging (R295 to R298, R300, R305) -/

/-- The seconds until DEPART, or 24 h when it is 0 (R298). -/
def scheduleSpan (d : Dev) (c : Nat) : Nat :=
  let dep := on d (oCon c 0x20) 8
  if dep = 0 then 86400 else (dep - civilNs d) / 1000000000

/-- CHARGE_PARAMETER_DISCOVERY with its service selection: DC_BPT is served in Dynamic control mode only, and a selection of
Scheduled is refused there (R287). In Scheduled control mode the answer offers one schedule entry: its length and CON.GRANT.02
(R298). -/
def chargeParams (c : Nat) (m : VehLimits) : Dev → Dev :=
  onTalk c (fun n d =>
    let p := on d (oSes n 2) 0
    if sesState d n = 4 then
      if (p = 4 ∨ p = 6) ∧ !m.dynamic then respond n c mParams [1] d
      else
        let d := modCtx n (fun x => { x with dynamic := m.dynamic }) (sesLimits n m d)
        respond n c mParams (if oldProto d n || m.dynamic then [0] else [0, scheduleSpan d c, on d (oCon c 0x22) 2]) d
    else toldOrError n c mParams [0] d)

/-- CABLE_CHECK (R296). -/
def cableCheck (c : Nat) : Dev → Dev :=
  onTalk c (fun n d =>
    if sesState d n = 4 ∨ sesState d n = 5 then
      let d := if sesState d n = 4 then sesEnter n 5 (modCtx n (fun x => { x with isoFor := 0, isoDone := false }) d) else d
      let iso := isoState d c
      if iso = 3 then respond n c mCable [0] (sesStop n 6 false d)
      else
        let d := if iso = 2 then raise 0x3A03 n c d else d
        if (ctx d n).isoFor ≥ on d (oCon c 0x50) 10 * 1000000 then
          respond n c mCable [1] (modCtx n (fun x => { x with isoDone := true }) d)
        else respond n c mCable [0] d
    else toldOrError n c mCable [0] d)

/-- PRECHARGE_REQUEST (R295, R297). -/
def prechargeRequest (c vTarget : Nat) : Dev → Dev :=
  onTalk c (fun n d =>
    if (sesState d n = 5 ∧ (ctx d n).isoDone) ∨ sesState d n = 6 then
      let d := if sesState d n = 5 then sesEnter n 6 d else d
      let d := setReq c 9 vTarget d
      if oldProto d n then respond n c mPrecharge [vConnRaw d c, boolNat (ebReady d c)] d
      else if ebReady d c then respond n c mPrecharge [vConnRaw d c, 1] (modCtx n (fun x => { x with pcPending := false }) d)
      else sesDelta n (modCtx n (fun x => { x with pcPending := true }) d)
    else toldOrError n c mPrecharge [vConnRaw d c, 2] d)

/-- PRECHARGE_TIMEOUT: 1,500 ms after the request CON.EB_READY is still 0 (R297). -/
def prechargeTimeout (c : Nat) : Dev → Dev :=
  onCtx c (fun n d =>
    if sesState d n = 6 ∧ (ctx d n).pcPending ∧ !(ebReady d c) then
      sesStop n 12 false d
    else d)

/-- The session has ended, and its connection is still open (R300). -/
def sesEnded (d : Dev) (n : Nat) : Bool := decide (8 ≤ sesState d n) || (ctx d n).linger.isSome

/-- The vehicle ends the transfer: STOPPING, until its session stop request says whether it ends or pauses. -/
def vehStop (n : Nat) (d : Dev) : Dev :=
  let d := put (oSes n 0x0B) 2 (civilNs d) (put (oSes n 0x0C) 1 1 d)
  sesEnter n 8 (modCtx n (fun x => { x with resumable := false, pcPending := false, dirWait := false, vehWaits := true }) d)

/-- POWER_DELIVERY: start or stop of transfer (R294, R297). -/
def powerDelivery (c : Nat) (start : Bool) : Dev → Dev :=
  onTalk c (fun n d =>
    if start then
      if sesState d n = 6 then
        if ebReady d c then respond n c mPower [0] (sesEnter n 7 d) else respond n c mPower [1] d
      else if sesState d n = 7 then respond n c mPower [0] d
      else toldOrError n c mPower [1] d
    else if 4 ≤ sesState d n ∧ sesState d n ≤ 7 then vehStop n (respond n c mPower [0] d)
    else if sesEnded d n then respond n c mPower [0] d
    else seqError n c d)

/-- The mode an ISO 15118-20 session asks for (R298, R305). Where SES.DIR asks for a discharge that the vehicle's limits do not admit,
nothing flows, MODE 3: DESIGN CHOICE (log entry 48). -/
def wantMode (d : Dev) (n : Nat) : Nat :=
  if on d (oSes n 9) 0 = 1 ∧ (on d (oSes n 2) 0 = 4 ∨ on d (oSes n 2) 0 = 6) then (if (ctx d n).disOk then 2 else 3) else 1

/-- CHARGE_LOOP (R295, R298, R305). -/
def chargeLoop (c vTarget : Nat) (m : VehLimits) : Dev → Dev :=
  onTalk c (fun n d =>
    if sesState d n = 7 then
      let d := setReq c 9 vTarget (sesLimits n m d)
      let d := if !((ctx d n).dirWait) ∧ on d (oCon c 0x20) 1 ≠ wantMode d n then
        modCtx n (fun x => { x with dirWait := true }) (setReq c 1 3 d) else d
      respond n c mLoop [] d
    else if sesEnded d n then respond n c mLoop [] d
    else seqError n c d)

/-- A major-frame boundary: a waiting change of direction ends once the grant is 0 (R305). -/
def sesMajor (d : Dev) : Dev :=
  forEach (List.range 64) (fun c d =>
    match conCtx d c with
    | some n =>
      if (ctx d n).dirWait ∧ sesState d n = 7 ∧ on d (oCon c 0x22) 1 = 0 then
        let m := wantMode d n
        let ev := oSes n 0x0A
        let d := modCtx n (fun x => { x with dirWait := false }) d
        let d := if m = 2 then setReq c 4 (on d ev 5) (setReq c 3 (on d ev 4) d)
          else setReq c 4 (ctx d n).pChg (setReq c 3 (ctx d n).iChg d)
        sesDelta n (setReq c 1 m d)
      else d
    | none => d) d

/-- CHARGE_LOOP_TIMEOUT (R298, R300). -/
def chargeLoopTimeout (c : Nat) : Dev → Dev :=
  onCtx c (fun n d => if sesState d n = 7 then sesStop n 10 true d else d)

/-- WELDING_DETECTION: answered with V_CONN (R300). -/
def weldingDetection (c : Nat) : Dev → Dev :=
  onTalk c (fun n d => if sesEnded d n then respond n c mWelding [vConnRaw d c] d
    else if sesState d n = 7 then respond n c mWelding [vConnRaw d c] (vehStop n d) else seqError n c d)

/-- SESSION_STOP_REQUEST: the vehicle ends or pauses (R300). -/
def sessionStopRequest (c : Nat) (pause : Bool) : Dev → Dev :=
  onTalk c (fun n d =>
    let d := modCtx n (fun x => { x with linger := none }) (respond n c mStop [] d)
    if sesState d n = 8 ∧ (ctx d n).vehWaits then
      stopDone n (modCtx n (fun x => { x with vehWaits := false, resumable := pause }) (if pause then put (oSes n 0x0C) 1 2 d else d))
    else sesStop n (if pause then 2 else 1) pause d)

/-- RESUME_TIMEOUT: T_RESUME ran out in SUSPENDED (R294, R301). Where the vehicle's handshake is under way, the connector takes a new
context with it, so that the setup that follows opens a new session: DESIGN CHOICE (log entry 72). -/
def resumeTimeout (n : Nat) (d : Dev) : Dev :=
  if running d && isActive d && decide (sesState d n = 9) then
    let c := sesConn d n
    let x := ctx d n
    if mayTake d c && (x.sec || x.appDone) then renewCtx n c d else hush c (closeCtx n d)
  else d

/-- SESSION_RECORD_STORED: the legal core reports the record stored (R294). -/
def sessionRecordStored (n : Nat) (d : Dev) : Dev :=
  if running d && decide (sesState d n = 10) && recSigned d n then freeCtx n (sessionRecordDone n d) else d

/-! ### What ends a session from the station side (R300) -/

/-- A group that feeds the connector has a short latch with CONN set (R199). -/
def sesShort (d : Dev) (c : Nat) : Bool :=
  (stagesBound d).any (fun s => (List.range (stageE d s).groups).any (fun g =>
    shortSet d s g && (on d (oStg s 0x105) 0).testBit (12 + g) && on d (oGrp s g 0x17) 0 == c))

/-- Watch one context: station-side ends, a waiting pre-charge answer, the end of STOPPING. -/
def sesWatch1 (c : Nat) (d : Dev) : Dev :=
  match conCtx d c with
  | none => d
  | some n =>
    let st := sesState d n
    let node := on d (oCon c 0x32) 1
    if 1 ≤ st ∧ st ≤ 8 ∧ !(dispUp d c) then stopDone n (sesStop n 9 true d)
    else if 1 ≤ st ∧ st ≤ 8 ∧ 300000000 ≤ (alGet d.ses.link0 c).getD 0 then stopDone n (sesStop n 4 false d)
    else if 5 ≤ st ∧ st ≤ 7 ∧ isoState d c = 3 then sesStop n 6 false d
    else if 5 ≤ st ∧ st ≤ 7 ∧ sesShort d c then sesStop n 7 false d
    else if 3 ≤ st ∧ st ≤ 7 ∧ sesThermal d c then sesStop n 8 false d
    else if 5 ≤ st ∧ st ≤ 7 ∧ (node = 7 ∨ node = 5) then sesStop n 12 false d
    else if st = 6 ∧ (ctx d n).pcPending ∧ ebReady d c then
      respond n c mPrecharge [vConnRaw d c, 1] (modCtx n (fun x => { x with pcPending := false }) d)
    else stopDone n d

/-- Watch every context that a connector holds. -/
def sesWatch (d : Dev) : Dev :=
  if running d && isActive d then forEach (List.range 64) sesWatch1 d else d

/-! ### Certificate slots (R302) -/

/-- A chain write is admitted: the leaf key is the slot's, and the chain verifies to SES.ROOTS. -/
def chainOk (d : Dev) (k : Nat) (ch : Bytes) : Bool :=
  Config.leafKey ch == Config.p521Pub (seccKey d k) && Config.chainVerifies ch (ob d 0x300 0)

/-- SES.KEY_ROLL: the named slots' generations advance and new requests are made. -/
def sesKeyRoll (m : Nat) (d : Dev) : Dev := forEach (bitsSet 4 m) (fun k => rollNode (4 + k)) d

end Sys2Proof.Machine
end

