-- ==== Sys2Proof/Machine/Guard.lean ====
section
/-! DEFINITION. The guard outside the slots (spec/04): overruns and their limit, the scrubber, granule reloads, TLS keys
fetched back. Re-runs of slots stand in Machine/Slots.lean, derived keys in Machine/Keys.lean, legal registers in
Machine/Billing.lean. -/

namespace Sys2Proof.Machine

/-! ### Overruns (R43, R68, R69) -/

/-- The slots of a cell's sections that are due at this position and have neither completed nor been stopped or held, in
order. -/
def slotsOpen (d : Dev) (im : Image) (cell : Nat) (sect : Nat → Bool) : List Nat :=
  (List.range im.slots.length).filter (fun i =>
    let s := im.slots.getD i default
    s.cell == cell && sect s.sect && slotDue s d.time.k d.time.m && !(d.sched.ran.contains i) && !(d.sched.stopped.contains i) &&
      !(slotHeld d im i s))

/-- The books of an overrun of slot `i` (R68). Of a slot still open at the boundary token the section recorded is 2, that of the deadline
that has passed: DESIGN CHOICE (log entry 56), R68 does not say which section OVERRUN_LAST.02 shows then. -/
def overrunBooks (cell sect i : Nat) (d : Dev) : Dev :=
  let d := setStatus 0x1A0 0 2 (incr 32 0x1AB (cell + 1) d)
  let d := put 0x1AC 3 d.time.micro (put 0x1AC 2 sect (put 0x1AC 1 i d))
  let d := { d with sched := { d.sched with overrun := d.sched.overrun ++ [(cell, sect)] } }
  if d.sched.overRaised.contains cell then d
  else raise 0x1C01 cell 0 { d with sched := { d.sched with overRaised := cell :: d.sched.overRaised } }

/-- The slots that a deadline finds open: at the launch token those of the launch section, at the boundary token those of the
tail section, with every other slot of the frame still open (R39, R43). -/
def lateSlots (d : Dev) (im : Image) (cell sect : Nat) : List Nat :=
  if sect = 1 then slotsOpen d im cell (fun t => t == 1) else slotsOpen d im cell (fun _ => true)

/-- OVERRUN at the deadline of section 1 or 2 (the lead section has none, R39): the first open slot is stopped, the others are
not started; all hold their outputs. An ALLOC iteration among them discards the major frame's allocation result (R43, R68). -/
def slotOverrun (cell sect : Nat) (d : Dev) : Dev :=
  match img? d with
  | none => d
  | some im =>
    match lateSlots d im cell sect with
    | [] => d
    | i :: rest =>
      if !(running d && d.time.sampled && (sect == 1 || sect == 2)) then d
      else
        let d := forEach (i :: rest) slotHold (overrunBooks cell sect i d)
        let al := ((i :: rest).map (fun j => im.slots.getD j default)).filter (fun sl => sl.kernel == 0x50)
        if al = [] then d else allocDiscard cell (al.any (fun sl => sl.variant == 0)) d

/-- LAUNCH_OVERRUN_LIMIT: launch-section overruns of a cell in three consecutive micro-frames (R69). -/
def launchOverrunLimit (cell : Nat) (d : Dev) : Dev :=
  if 3 ≤ (alGet d.sched.launchRun cell).getD 0 then failSilent 2 d else d

/-! ### The scrubber (R77, R78) -/

/-- The 64-bit words of the 48 MiB SRAM. -/
def sramWords : Nat := 6291456

/-- The scrubber goes on to the next word; a complete pass is counted. -/
def scrubStep (d : Dev) : Dev :=
  let n := d.guard.scrubPos + 1
  if n < sramWords then { d with guard := { d.guard with scrubPos := n } }
  else incr 32 0x1C7 0 { d with guard := { d.guard with scrubPos := 0 } }

/-- The committed state of a slot failed its code while the slot did not run: its next run starts from the entry state
(R81). -/
def scrubSlot (i : Nat) (d : Dev) : Dev :=
  match slotAt d i with
  | none => d
  | some sl =>
    setStatus 0x1C0 0 1 (incr 32 0x1C2 0 { d with sched := { d.sched with
      kst := alDel d.sched.kst i
      alloc := if sl.kernel = 0x50 then d.sched.alloc.cleared else d.sched.alloc } })

/-- A word that fails its code is handled by its class (R79); KEY_REDERIVE is the row for what follows a class 7 error. -/
def wordFault (w : WordRead) (h : ScrubHit) (d : Dev) : Dev :=
  match h with
  | .other => d
  | .slotState i => scrubSlot i (guardLast 3 i d)
  | .granule g => reloadStart g (guardLast 5 w.addr d)
  | .object num sub => if (findObj num).isSome then restoreObj num sub w.addr d else d
  | .key _ => guardLast 7 w.addr d
  | .management core => guardLast 9 w.addr { d with startup := { d.startup with stalled := some (core % 4) } }

/-- A word is read: its code is checked (R77). -/
def wordRead (w : WordRead) (h : ScrubHit) (d : Dev) : Dev := if wordOk w then d else wordFault w h d

/-- A read of an object value reads its word (R77, R86). -/
def accessWord (w : Option WordRead) (num sub : Nat) (d : Dev) : Dev :=
  match w with
  | some w => wordRead w (.object num sub) d
  | none => d

/-- SCRUB_READ. -/
def scrubRead (w : WordRead) (h : ScrubHit) (d : Dev) : Dev := if running d then wordRead w h (scrubStep d) else d

/-! ### Granules and their reloads (R85) -/

/-- The 4 KiB granules of a run of bytes with their CRC-32, under the names that `g` gives them. -/
def granulesOf (g : Nat → Granule) (b : Bytes) : List (Granule × Nat) :=
  (List.range ((b.length + 4095) / 4096)).map (fun n => (g n, crc32 (slice b (4096 * n) 4096)))

/-- The CRCs of every granule: of the image, and of the firmware and lane microcode that run with it. A granule of loop-cell
code is that of cell 0: every cell holds the same code. -/
def granuleCrcs (image firmware lane : Bytes) : List (Granule × Nat) :=
  granulesOf Granule.image image ++ granulesOf Granule.constants firmware ++ granulesOf (Granule.cellCode 0) firmware ++
    granulesOf Granule.laneCode lane

/-- The name under which a granule's CRC is kept. -/
def crcName : Granule → Granule
  | .cellCode _ n => .cellCode 0 n
  | g => g

/-- At acceptance the CRCs are kept in two copies. -/
def keepCrcs (image firmware lane : Bytes) (d : Dev) : Dev :=
  let l := granuleCrcs image firmware lane
  { d with guard := { d.guard with crcA := l, crcB := l } }

/-- The bytes of a granule as NOR gave them agree with either stored copy of its CRC; none where no CRC is kept for it. -/
def granuleOk (d : Dev) (g : Granule) (data : Bytes) : Option Bool :=
  match d.guard.crcA.lookup (crcName g), d.guard.crcB.lookup (crcName g) with
  | none, none => none
  | a, b => some (a == some (crc32 data) || b == some (crc32 data))

/-- GRANULE_RELOAD: the reload completes; when the granule fails its CRC a second time the device is fail-silent. -/
def granuleReload (g : Granule) (data : Bytes) (d : Dev) : Dev :=
  match granuleOk d g data with
  | none => d
  | some ok =>
    if !(running d) then d
    else
      let fails := ((d.guard.reload.find? (fun p => p.1 == g)).map (·.2)).getD 0
      let others := d.guard.reload.filter (fun p => p.1 != g)
      if ok then setStatus 0x1C0 0 2 (incr 32 0x1C3 0 { d with guard := { d.guard with reload := others } })
      else if fails = 0 then { d with guard := { d.guard with reload := others ++ [(g, 1)] } }
      else failSilent 4 d

/-! ### TLS keys (R87) -/

/-- TLS_KEY_FETCH: with a partner the key comes back from the mirror copy; without one the TLS connection of context `n` is
closed and the session may be resumed (cause 11 of R300). `addr` is the word address of the key. -/
def tlsKeyFetch (n addr : Nat) (d : Dev) : Dev :=
  if !(running d && isActive d && decide (n < 256) && (ctx d n).tls) then d
  else
    let d := guardLast 7 addr d
    if partnerPresent d then setStatus 0x1C0 0 3 d
    else modCtx n unshaken (sesStop n 11 true d)

end Sys2Proof.Machine
end

