-- ==== Sys2Proof/Machine/Image.lean ====
section
/-! DEFINITION. The schedule image of spec/03: its layout (R49 to R58), the kernel library (R61, R584) and the acceptance
checks in their order (R63 to R66), with the conditions that other chapters add to them. -/

namespace Sys2Proof.Machine

/-! ### Layout (R49 to R58) -/

def imgU8 (b : Bytes) (o : Nat) : Nat := byteAt b o
def imgU16 (b : Bytes) (o : Nat) : Nat := fieldLe b o 2
def imgU32 (b : Bytes) (o : Nat) : Nat := fieldLe b o 4

/-- Records of `size` bytes at an offset, `n` of them. -/
def recordsAt {α : Type} (size : Nat) (f : Bytes → α) : Nat → Bytes → List α
  | 0, _ => []
  | n + 1, b => f (b.take size) :: recordsAt size f n (b.drop size)

def stageOf (b : Bytes) : StageE := { phases := byteAt b 0, groups := byteAt b 1, map := fieldLe b 4 8 }

def dispOf (b : Bytes) : DispE := { count := byteAt b 0, first := byteAt b 1, mcs := byteAt b 2 }

def dirOf (b : Bytes) : DirE := { cell := byteAt b 0, sect := byteAt b 1, count := fieldLe b 2 2, first := fieldLe b 4 4 }

def slotOf (b : Bytes) : SlotR :=
  { kernel := fieldLe b 0 2, rate := byteAt b 2, variant := byteAt b 3, microOfs := fieldLe b 4 2, minorOfs := byteAt b 6,
    rsv7 := byteAt b 7, p1 := fieldLe b 8 2, p2 := fieldLe b 10 2, declared := fieldLe b 12 2, ins := byteAt b 14,
    outs := byteAt b 15, firstBind := fieldLe b 16 4, state := fieldLe b 20 4, slotId := fieldLe b 24 4, rsv1C := fieldLe b 28 4 }

def bindOf (b : Bytes) : Bind :=
  { kind := byteAt b 0, ty := byteAt b 1, attr := byteAt b 2, sub := byteAt b 3, target := fieldLe b 4 4 }

/-- Give each slot the cell and section of its frame table (R55). -/
def placeSlots : List DirE → List SlotR → List SlotR
  | [], l => l
  | e :: es, l => (l.take e.count).map (fun s => { s with cell := e.cell, sect := e.sect }) ++ placeSlots es (l.drop e.count)

/-- LENGTH, the counts and the offsets that R49 derives from them. -/
def imgLength (b : Bytes) : Nat := imgU32 b 8
def imgDirs (b : Bytes) : Nat := imgU16 b 0x1C
def imgSlots (b : Bytes) : Nat := imgU32 b 0x20
def imgBinds (b : Bytes) : Nat := imgU32 b 0x24
def imgOfsSlots (b : Bytes) : Nat := 0x278 + 8 * imgDirs b
def imgOfsBinds (b : Bytes) : Nat := imgOfsSlots b + 32 * imgSlots b

/-- The digest that the signature covers (R51, SCH.DIGEST). -/
def imgDigest (b : Bytes) : Bytes := sha256 (b.take (imgLength b - 72))

def imgDir (b : Bytes) : List DirE := recordsAt 8 dirOf (imgDirs b) (b.drop 0x278)

/-- An image taken apart; meaningful once LAYOUT has passed. -/
def parseImage (b : Bytes) : Image :=
  { micro := imgU8 b 0x18 % 16, flags := imgU8 b 0x19, cells := imgU8 b 0x1A, sequence := imgU32 b 0x0C, siteId := fieldLe b 0x10 8,
    lanes := (List.range 50).map (fun i => imgU8 b (0x80 + i) % 4),
    stages := recordsAt 12 stageOf 32 (b.drop 0xB8), disps := recordsAt 4 dispOf 16 (b.drop 0x238),
    dir := imgDir b, slots := placeSlots (imgDir b) (recordsAt 32 slotOf (imgSlots b) (b.drop (imgOfsSlots b))),
    binds := recordsAt 8 bindOf (imgBinds b) (b.drop (imgOfsBinds b)), digest := imgDigest b,
    ofsSlots := imgOfsSlots b, ofsBinds := imgOfsBinds b }

/-- Every byte of a range is 0 (R8). -/
def zeros (b : Bytes) (o n : Nat) : Bool := (slice b o n).all (· == 0)

/-! ### Checks 1 to 7 (R64) -/

/-- HEADER (R50). -/
def headerOk (b : Bytes) : Bool :=
  imgU32 b 0 == 0x4843534B && imgU16 b 4 == 1 && microNs (imgU8 b 0x18) != 0 && fieldLe b 0x10 8 != 0 && imgU8 b 0x1A != 0 &&
    decide (704 ≤ imgLength b) && decide (imgLength b ≤ 8388608) && imgLength b == b.length &&
    decide (imgU8 b 0x19 < 4) && zeros b 0x1B 1 && zeros b 0x1E 2 && zeros b 0x44 60

/-- A key slot may sign schedule images in the life-cycle state in force (R478). -/
def imageSlotOk (d : Dev) (n : Nat) : Bool := lcState d != 4 && (decide (n < 8) || (lcState d != 0 && lcState d != 3))

/-- SIGNATURE (R51, R486). -/
def signatureOk (d : Dev) (b : Bytes) : Bool :=
  let o := imgLength b - 72
  imageSlotOk d (imgU32 b o) && imgU32 b (o + 4) == 0 &&
    (match pubFor d (imgU32 b o) 1 with
     | some k => ecdsaVerify k (imgDigest b) (slice b (o + 8) 32) (slice b (o + 40) 32)
     | none => false)

/-- The directory is sorted, within CELLS, and counts every slot once (R55): the next cell and section, the next FIRST. An
image whose CELLS is above 1 + the highest cell number used passes: DESIGN CHOICE (log entry 30), R50 names no check that
would fail. -/
def dirOk (cells : Nat) : List DirE → Option Nat → Nat → Nat → Bool
  | [], _, first, n => first == n
  | e :: es, prev, first, n =>
    let k := 4 * e.cell + e.sect
    decide (e.cell < cells) && decide (e.sect < 3) && e.first == first && (match prev with | some p => decide (p < k) | none => true) &&
      dirOk cells es (some k) (first + e.count) n

/-- LAYOUT (R49, R50, R55). -/
def layoutOk (b : Bytes) : Bool :=
  decide (imgDirs b ≤ 192) && decide (imgSlots b ≤ 131072) && decide (imgBinds b ≤ 524288) && (imgDirs b != 0 || imgSlots b == 0) &&
    imgU32 b 0x28 == 0x80 && imgU32 b 0x2C == 0xB8 && imgU32 b 0x30 == 0x238 && imgU32 b 0x34 == 0x278 &&
    imgU32 b 0x38 == imgOfsSlots b && imgU32 b 0x3C == imgOfsBinds b && imgU32 b 0x40 == imgLength b - 72 &&
    imgLength b == imgOfsBinds b + 8 * imgBinds b + 72 && dirOk (imgU8 b 0x1A) (imgDir b) none 0 (imgSlots b)

def sumN (l : List Nat) : Nat := l.foldl (· + ·) 0

/-- LIMITS (R17). -/
def limitsOk (im : Image) : Bool :=
  decide (sumN (im.stages.map (·.phases)) ≤ 1024) && decide (sumN (im.disps.map (·.count)) ≤ 64) && decide (im.cells ≤ 64)

/-- The stage entry of a bound lane (R53). -/
def stageEntryOk (e : StageE) (rsv : Nat) : Bool :=
  rsv == 0 && decide (e.phases ≤ 32) && decide (e.groups ≤ 4) && (e.groups == 0) == (e.phases == 0) && e.map >>> (2 * e.phases) == 0 &&
    (List.range e.phases).all (fun p => decide (groupOf e p < e.groups)) &&
    (List.range e.groups).all (fun g => !(phasesOf e g).isEmpty)

/-- The dispenser entry of a bound lane (R54). -/
def dispEntryOk (e : DispE) (rsv : Nat) : Bool :=
  rsv == 0 && decide (e.count ≤ 8) && decide (e.first + e.count ≤ 64) && e.mcs >>> e.count == 0 && (e.count != 0 || e.first == 0)

/-- No connector belongs to two dispensers (R54). -/
def dispsDisjoint (l : List DispE) : Bool :=
  (List.range 64).all (fun c => decide ((l.filter (fun e => decide (e.first ≤ c) && decide (c < e.first + e.count))).length ≤ 1))

/-- The whole mirror stream fits each pair lane (R146), at the slower rate. -/
def pairFits (im : Image) : Bool :=
  let ps := if im.lanes.getD 48 0 = 2 ∨ im.lanes.getD 49 0 = 2 then 12800 else 6400
  decide ((6 * sumN (im.stages.map (·.phases)) + 12 * sumN (im.stages.map (·.groups)) + 1536) * ps * 10
    ≤ 9 * 8 * 1000 * microNs im.micro)

/-- SITE (R52 to R54, R146). -/
def siteOk (b : Bytes) (im : Image) : Bool :=
  (List.range 50).all (fun i => decide (imgU8 b (0x80 + i) < 3)) && zeros b 0xB2 6 &&
    (List.range 32).all (fun s =>
      if im.lanes.getD s 0 = 0 then zeros b (0xB8 + 12 * s) 12 else stageEntryOk (im.stages.getD s {}) (imgU16 b (0xB8 + 12 * s + 2))) &&
    (List.range 16).all (fun i =>
      if im.lanes.getD (32 + i) 0 = 0 then zeros b (0x238 + 4 * i) 4 else dispEntryOk (im.disps.getD i {}) (imgU8 b (0x238 + 4 * i + 3))) &&
    dispsDisjoint im.disps &&
    (if im.flags.testBit 0 then im.lanes.getD 48 0 != 0 && im.lanes.getD 49 0 != 0 && pairFits im
     else im.lanes.getD 48 0 == 0 && im.lanes.getD 49 0 == 0)

/-! ### The kernel library (R61, R584) -/

/-- One row of the kernel library: sections and rates allowed, ranges of P1 and P2 (none: not used). -/
structure KRow where
  sects : List Nat := [0, 1, 2]
  rates : List Nat := [0, 1, 2]
  p1 : Option (Nat × Nat) := none
  p2 : Option (Nat × Nat) := none
  ins : Nat
  outs : Nat
  steps : Nat
  words : Nat
  deriving DecidableEq, Repr

/-- The row of a kernel for its P1 and P2. -/
def kernelRow (k p1 p2 : Nat) : Option KRow :=
  match k with
  | 0x01 => some { ins := 4, outs := 1, steps := 18, words := 1 }
  | 0x02 => some { ins := 4, outs := 1, steps := 26, words := 2 }
  | 0x03 => some { ins := 4, outs := 1, steps := 22, words := 2 }
  | 0x04 => some { ins := 4, outs := 1, steps := 30, words := 3 }
  | 0x10 => some { p1 := some (2, 8), ins := p1, outs := 2, steps := 6 + 6 * p1, words := 0 }
  | 0x11 => some { ins := 3, outs := 1, steps := 12, words := 2 }
  | 0x12 => some { ins := 3, outs := 1, steps := 8, words := 0 }
  | 0x20 => some { sects := [1], rates := [0], ins := 5, outs := 2, steps := 54, words := 9 }
  | 0x21 => some { sects := [1], rates := [0], p1 := some (1, 32), ins := p1 + 1, outs := p1, steps := 6 * p1, words := 0 }
  | 0x22 => some { sects := [1], rates := [0], p1 := some (1, 32), ins := 2 * p1, outs := 2 * p1, steps := 10 * p1, words := 0 }
  | 0x23 => some { sects := [1], rates := [0], p1 := some (1, 6), ins := 2 * p1, outs := p1, steps := 8 * p1, words := (p1 + 1) / 2 }
  | 0x24 => some { sects := [2], rates := [0], p1 := some (1, 32), ins := p1 + 1, outs := 1, steps := 4 + 2 * p1, words := 8 + p1 }
  | 0x25 => some { sects := [2], rates := [2], p1 := some (1, 32), ins := p1, outs := p1, steps := 20 + 120 * p1, words := 8 * p1 }
  | 0x26 => some { sects := [2], rates := [1], p1 := some (2, 32), ins := 2, outs := 1, steps := 16 + 4 * p1, words := 1 }
  | 0x27 => some { sects := [2], rates := [1], ins := 2, outs := 1, steps := 14, words := 2 }
  | 0x30 => some { sects := [2], rates := [0], p1 := some (1, 16), ins := 2 * p1, outs := 2, steps := 20 + 10 * p1, words := 2 }
  | 0x31 => some { sects := [1, 2], rates := [0], p1 := some (1, 16), ins := p1 + 2, outs := p1, steps := 12 + 8 * p1, words := 4 + 2 * p1 }
  | 0x40 => some { sects := [2], rates := [2], p1 := some (1, 64), ins := p1 + 1, outs := p1 + 1, steps := 10 + 16 * p1, words := 2 + (p1 + 7) / 8 }
  | 0x50 => some { sects := [2], rates := [2], p1 := some (1, 64), p2 := some (1, 128), ins := p1 + p2 + 4, outs := p1 + p2
                   steps := 40 + 24 * p1 + 6 * p2, words := 16 + 4 * p1 + 2 * p2 }
  | 0x51 => some { sects := [2], rates := [1], p1 := some (1, 64), p2 := some (1, 128), ins := p1 + p2 + 2, outs := p2
                   steps := 30 + 10 * p1 + 2 * p2, words := 0 }
  | 0x52 => some { sects := [2], rates := [2], p1 := some (1, 64), ins := 2 * p1, outs := p1, steps := 20 + 12 * p1, words := 0 }
  | 0x53 => some { sects := [2], rates := [2], p1 := some (1, 2), ins := p1 + 2, outs := 2, steps := 60 + 40 * p1, words := 0 }
  | _ => none

def slotRow (s : SlotR) : Option KRow := kernelRow s.kernel s.p1 s.p2

/-- KERNEL (R61): known, in a section and at a rate its row allows; a RATE above 2 is judged by SLOT. -/
def kernelOk (s : SlotR) : Bool :=
  match slotRow s with
  | none => false
  | some r => r.sects.contains s.sect && (decide (2 < s.rate) || r.rates.contains s.rate)

/-! ### Slots (R56, R62, R206, R584) -/

/-- A size parameter within its range, 0 where the kernel does not use it (R56). -/
def paramOk (range : Option (Nat × Nat)) (v : Nat) : Bool :=
  match range with
  | none => v == 0
  | some r => decide (r.1 ≤ v) && decide (v ≤ r.2)

/-- The fields of one slot record (R56, R584). -/
def slotFieldsOk (micro : Nat) (s : SlotR) (r : KRow) : Bool :=
  s.rsv7 == 0 && s.rsv1C == 0 && decide (s.rate ≤ 2) && (s.variant == 0 || s.kernel == 0x50) &&
    (if s.rate = 0 then s.microOfs == 0 else decide (s.microOfs < minMicros micro)) &&
    (if s.rate = 2 then decide (s.minorOfs ≤ 99) else s.minorOfs == 0) && paramOk r.p1 s.p1 && paramOk r.p2 s.p2 &&
    s.declared != 0 && decide (r.steps ≤ s.declared) && (r.words != 0 || s.state == 0) && decide (s.state + r.words ≤ 65536)

/-- The state areas of two slots of one cell collide (R56, R584): the ALLOC slots of the solver share one area. -/
def stateClash (a b : SlotR) : Bool :=
  match slotRow a, slotRow b with
  | some x, some y =>
    if a.cell ≠ b.cell then false
    else if a.kernel = 0x50 ∧ b.kernel = 0x50 then a.state != b.state
    else x.words != 0 && y.words != 0 && decide (a.state < b.state + y.words) && decide (b.state < a.state + x.words)
  | _, _ => false

/-- The first slot that breaks R56 or R584, given those before it (newest first). Where two slots break a rule together, the
later one of the slot array is the failing slot: DESIGN CHOICE (log entry 31). -/
def badSlot (micro : Nat) : List SlotR → List SlotR → Option Nat
  | [], _ => none
  | s :: l, seen =>
    match slotRow s with
    | none => some s.slotId
    | some r =>
      if slotFieldsOk micro s r && !(seen.any (fun t => t.slotId == s.slotId || stateClash t s)) then badSlot micro l (s :: seen)
      else some s.slotId

/-- Position of a slot as one number. -/
def posOf (s : SlotR) : Nat := 128 * s.minorOfs + s.microOfs

/-- No SLOT_ID applies (R72). -/
def noSlot : Nat := 0xFFFFFFFF

/-- The first slot of the allocation solver that breaks R62 or R206; `noSlot` where a slot is missing. That every slot record
is judged by itself before R62 and R206, in this order, and that no slot is named where SPILL or ALLOC_FAST is missing:
DESIGN CHOICE (log entry 31). -/
def badSolver (slots : List SlotR) : Option Nat :=
  let al := slots.filter (fun s => s.kernel == 0x50)
  let of' := fun k => slots.filter (fun s => s.kernel == k)
  match al with
  | [] => none
  | f :: _ =>
    let n := al.length
    let at' := fun (v : Nat) => al.find? (fun s => s.variant == v)
    match al.find? (fun s => s.cell != f.cell || s.p1 != f.p1 || s.p2 != f.p2 || decide (n ≤ s.variant) ||
        decide ((al.filter (fun t => t.variant == s.variant)).length ≠ 1)) with
    | some s => some s.slotId
    | none =>
      if 16 < n then some ((al.getD 16 f).slotId)
      else match (List.range (n - 1)).findSome? (fun v =>
          match at' v, at' (v + 1) with
          | some a, some b => if posOf a < posOf b then none else some b.slotId
          | _, _ => none) with
        | some i => some i
        | none =>
          match of' 0x52, of' 0x51, of' 0x53 with
          | [], _, _ => some noSlot
          | _, [], _ => some noSlot
          | _ :: y :: _, _, _ => some y.slotId
          | _, _ :: y :: _, _ => some y.slotId
          | _, _, _ :: y :: _ => some y.slotId
          | sp :: _, fa :: _, _ =>
            if sp.p1 ≠ f.p1 ∨ posOf sp ≤ ((at' (n - 1)).map posOf).getD 0 then some sp.slotId
            else if fa.p1 ≠ f.p1 ∨ fa.p2 ≠ f.p2 then some fa.slotId
            else none

/-! ### Bindings (R58, R59, R133) -/

/-- Which elements a lane field has (R133). -/
inductive Elem | phase | group | temp | conn | pin | one
  deriving DecidableEq, Repr

/-- The type code and elements of a lane field that R133 lists for a KIND. -/
def fieldRow (kind code : Nat) : Option (Nat × Elem) :=
  match kind, code with
  | 2, 0x01 => some (7, .phase) | 2, 0x02 => some (7, .phase) | 2, 0x03 => some (7, .phase) | 2, 0x04 => some (7, .phase)
  | 2, 0x10 => some (2, .phase) | 2, 0x20 => some (3, .one) | 2, 0x21 => some (3, .group) | 2, 0x22 => some (7, .group)
  | 2, 0x30 => some (7, .temp) | 2, 0x40 => some (4, .one) | 2, 0x41 => some (4, .one)
  | 3, 0x101 => some (3, .phase) | 3, 0x102 => some (7, .phase) | 3, 0x110 => some (4, .one) | 3, 0x111 => some (4, .one)
  | 4, 0x201 => some (3, .conn) | 4, 0x202 => some (7, .conn) | 4, 0x210 => some (7, .pin) | 4, 0x211 => some (7, .conn)
  | 4, 0x212 => some (7, .conn) | 4, 0x213 => some (3, .conn) | 4, 0x220 => some (4, .conn) | 4, 0x221 => some (2, .conn)
  | 4, 0x230 => some (3, .one) | 4, 0x231 => some (4, .one)
  | 5, 0x301 => some (3, .conn) | 5, 0x302 => some (3, .conn) | 5, 0x310 => some (4, .one)
  | _, _ => none

/-- How many elements the image gives a field of a lane instance (R59). -/
def elemCount (im : Image) (kind inst : Nat) (e : Elem) : Nat :=
  let st := im.stages.getD inst {}
  let di := im.disps.getD inst {}
  match e with
  | .phase => st.phases
  | .group => st.groups
  | .temp => 8
  | .conn => if kind = 4 ∨ kind = 5 then di.count else 0
  | .pin => 4 * di.count
  | .one => 1

/-- The image binds a load channel's command as a sequencer output (R237, R273). -/
def imgOwnsChannel (im : Image) (n : Nat) : Bool :=
  im.slots.any (fun sl => sl.kernel == 0x31 && (outBinds im sl).any (fun b => b.kind == 1 && bindObj b == oLch n 0))

/-- The type code and owning plane of an object subindex for this image: load-channel commands (R273) and external points
(R382) follow what the image binds and FB.POINTS defines. -/
def objTypePlane (d : Dev) (im : Image) (num sub : Nat) : Option (Nat × Nat) :=
  match findObj num with
  | none => none
  | some (o, l) =>
    match findSub o sub with
    | none => none
    | some s =>
      if l.blk = .lch ∧ l.off = 0 then some (tyCode s.ty, if imgOwnsChannel im l.inst then 0 else 2)
      else if 0x1C000 ≤ num then
        match pointAt (ob d 0x3014 0) (num - 0x1C000) with
        | none => none
        | some p =>
          if sub = 1 then
            some (p.ty, if !p.isIn && im.binds.any (fun b => b.kind == 1 && bindOut b && bindObj b == num && b.sub == 1) then 0 else 2)
          else some (tyCode s.ty, 2)
      else some (tyCode s.ty, planeCode o.plane)

/-- One binding of a slot (R58, R59); `out` says whether it stands among the outputs. -/
def bindOk (d : Dev) (im : Image) (sl : SlotR) (out : Bool) (b : Bind) : Bool :=
  decide (1 ≤ b.ty) && decide (b.ty ≤ 0x0E) && bitsOf b.attr 6 2 == 0 && bindPlane b != 3 && bindOut b == out &&
    (if b.kind = 1 then
      decide (b.target < 2 ^ 17) &&
        (match objTypePlane d im (bindObj b) b.sub with
         | some tp => tp.1 == b.ty && tp.2 == bindPlane b && (!out || tp.2 == 0)
         | none => false)
     else
      decide (b.target < 2 ^ 21) && decide (2 ≤ b.kind) && decide (b.kind ≤ 5) && (out == (b.kind == 3 || b.kind == 5)) &&
        bindPlane b == (if out then 0 else 1) &&
        (match fieldRow b.kind (bindCode b) with
         | some r => r.1 == b.ty && decide (bindElem b < elemCount im b.kind b.sub r.2)
         | none => false) &&
        (if b.kind ≤ 3 then decide (b.sub < 32) && im.lanes.getD b.sub 0 != 0 else decide (b.sub < 16) && im.lanes.getD (32 + b.sub) 0 != 0) &&
        (b.kind != 3 || (sl.sect == 1 && (bindCode b == 0x111 || decide (0 < (im.stages.getD b.sub {}).phases)))) &&
        !(sl.sect == 0 && (b.kind == 2 || b.kind == 4)))

/-- Where a KIND 1 binding points: block, instance, sub-instance, offset, subindex. -/
def objRef (b : Bind) : Option (Loc × Nat) := if b.kind = 1 then (locate (bindObj b)).map (fun l => (l, b.sub)) else none

/-- A binding to an object of a block at an offset and subindex; its instance, groups as 4·s + g. -/
def boundTo (blk : Blk) (off sub : Nat) (b : Bind) : Option Nat :=
  match objRef b with
  | some (l, s) => if l.blk = blk ∧ l.off = off ∧ s = sub then some (if blk = .grp then 4 * l.inst + l.sub else l.inst) else none
  | none => none

/-- A binding to a device-wide object. -/
def boundDev (num sub : Nat) (b : Bind) : Bool := b.kind == 1 && bindObj b == num && b.sub == sub

/-- Every element of a list of bindings points to one kind of object; their instances in order. -/
def boundAll (blk : Blk) (off sub : Nat) (l : List Bind) : Option (List Nat) := l.mapM (boundTo blk off sub)

/-- The connectors and groups that an allocation kernel's bindings name in the order of R207; none where the order is
broken. -/
def allocRefs (k p1 p2 : Nat) (ins outs : List Bind) : Option (List Nat × List Nat) :=
  match k with
  | 0x50 =>
    match boundAll .con 0x20 1 (ins.take p1), boundAll .grp 0x15 0 ((ins.drop p1).take p2),
        boundAll .con 0x22 1 (outs.take p1), boundAll .grp 0x0E 0 (outs.drop p1) with
    | some c, some g, some c', some g' =>
      let r := ins.drop (p1 + p2)
      if c = c' ∧ g = g' ∧ boundDev 0x1000 0 (r.getD 0 default) ∧ boundDev 0x1010 1 (r.getD 1 default) ∧
        boundDev 0x1005 1 (r.getD 2 default) ∧ boundDev 0x1007 1 (r.getD 3 default) then some (c, g) else none
    | _, _, _, _ => none
  | 0x51 =>
    match boundAll .con 0x23 0 (ins.take p1), boundAll .grp 0x15 0 ((ins.drop p1).take p2), boundAll .grp 0x0C 0 outs with
    | some c, some g, some g' =>
      let r := ins.drop (p1 + p2)
      if g = g' ∧ boundDev 0x1000 0 (r.getD 0 default) ∧ boundDev 0x1010 1 (r.getD 1 default) then some (c, g) else none
    | _, _, _ => none
  | 0x52 =>
    match boundAll .con 0x22 1 (ins.take p1), boundAll .con 0x25 0 (ins.drop p1), boundAll .con 0x23 0 outs with
    | some c, some c', some c'' => if c = c' ∧ c = c'' then some (c, []) else none
    | _, _, _ => none
  | 0x53 =>
    if (List.range p1).all (fun i => boundDev (0x100E + i) 1 (ins.getD i default)) ∧ boundDev 0x1002 0 (ins.getD p1 default) ∧
      boundDev 0x1000 0 (ins.getD (p1 + 1) default) ∧ boundDev 0x1010 1 (outs.getD 0 default) ∧ boundDev 0x1010 2 (outs.getD 1 default)
    then some ([], []) else none
  | _ => some ([], [])

/-- A duty or trim binding of PACK and DIODE_EMU: an array element of a stage, as (stage, phase). -/
def phaseRef (off : Nat) (b : Bind) : Option (Nat × Nat) :=
  match objRef b with
  | some (l, s) => if l.blk = .stg ∧ l.off = off ∧ 0 < s then some (l.inst, s - 1) else none
  | none => none

/-- A lane field of a phase, as (stage, phase). -/
def fieldRef (kind code : Nat) (b : Bind) : Option (Nat × Nat) :=
  if b.kind = kind ∧ bindCode b = code then some (b.sub, bindElem b) else none

/-- Every listed phase is a phase of one stage. -/
def oneStage : List (Nat × Nat) → Bool
  | [] => true
  | p :: l => l.all (fun q => q.1 == p.1)

/-- PACK: four lists of the same phases of one stage, position by position (R166). -/
def packOk (p1 : Nat) (ins outs : List Bind) : Bool :=
  let duty := fun b => (phaseRef 0x12 b).orElse (fun _ => phaseRef 0x13 b)
  match (ins.take p1).mapM duty, (ins.drop p1).mapM (phaseRef 0x14), (outs.take p1).mapM (fieldRef 3 0x101), (outs.drop p1).mapM (fieldRef 3 0x102) with
  | some a, some b, some c, some e => a == b && a == c && a == e && oneStage a
  | _, _, _, _ => false

/-- DIODE_EMU: its three lists name the same phases position by position (R175). -/
def diodeOk (p1 : Nat) (ins outs : List Bind) : Bool :=
  match (ins.take p1).mapM (phaseRef 0x12), (ins.drop p1).mapM (fieldRef 2 0x10), outs.mapM (phaseRef 0x13) with
  | some a, some b, some c => a == b && a == c && oneStage a
  | _, _, _ => false

/-- The class, owner and T_LEVEL subindex of a temperature sensor (R255): class 0 pins, 1 coolant, 2 heatsink. -/
def sensorRef (im : Image) (b : Bind) : Option (Nat × Nat × Nat) :=
  let c := fun i => (im.disps.getD b.sub {}).first + i
  if b.kind = 4 ∧ bindCode b = 0x210 then some (0, c (bindElem b / 4), bindElem b % 4 + 1)
  else if b.kind = 4 ∧ bindCode b = 0x211 then some (1, c (bindElem b), 5)
  else if b.kind = 4 ∧ bindCode b = 0x212 then some (1, c (bindElem b), 6)
  else if b.kind = 2 ∧ bindCode b = 0x30 then some (2, b.sub, bindElem b + 1)
  else none

/-- The class and owner of a THERM3 slot whose bindings follow R255. -/
def thermRef (im : Image) (p1 : Nat) (ins outs : List Bind) : Option (Nat × Nat) :=
  match (ins.take p1).mapM (sensorRef im) with
  | some (x :: l) =>
    let cls := x.1
    let owner := x.2.1
    let same := l.all (fun y => y.1 == cls && y.2.1 == owner)
    let lev := ((x :: l).zip outs).all (fun p =>
      if cls = 2 then boundTo .stg 0x1C0 p.1.2.2 p.2 == some owner else boundTo .con 0x40 p.1.2.2 p.2 == some owner)
    let last := outs.getD p1 default
    let lim := if cls = 2 then boundTo .stg 0x1C1 1 last == some owner else boundTo .con 0x41 (cls + 1) last == some owner
    if same && lev && lim && boundDev (0x280 + cls) 1 (ins.getD p1 default) then some (cls, owner) else none
  | _ => none

/-- G.ISET: an output of ALLOC alone, since ALLOC_FAST reads it (R208). -/
def isetOut (b : Bind) : Bool :=
  match objRef b with
  | some (l, _) => l.blk == .grp && l.off == 0x0E
  | none => false

/-- Objects that a kernel writes or reads of itself: no slot may bind them as an output (R188, R208, R238, R255). -/
def reservedOut (b : Bind) : Bool :=
  match objRef b with
  | none => false
  | some (l, s) =>
    match l.blk with
    | .dev => (decide (0x1001 ≤ l.off) && decide (l.off ≤ 0x100D)) || (l.off == 0x1010 && s == 3) || l.off == 0x1011 || l.off == 0x1012 || (decide (0x1013 ≤ l.off) && decide (l.off ≤ 0x101E) && (l.off - 0x1013) % 3 == 2)
    | .con => (l.off == 0x22 && decide (2 ≤ s)) || l.off == 0x24 || l.off == 0x32 || (l.off == 0x41 && s == 3)
    | .grp => [0x09, 0x0B, 0x0D, 0x0F, 0x10, 0x11, 0x12, 0x16, 0x19].contains l.off
    | .stg => l.off == 0x15 || l.off == 0x103 || l.off == 0x104 || (l.off == 0x1C1 && s == 2)
    | _ => false

/-- Objects whose only writer is a THERM3 slot (R255). -/
def thermOut (b : Bind) : Bool :=
  match objRef b with
  | some (l, _) => (l.blk == .con && (l.off == 0x40 || l.off == 0x41)) || (l.blk == .stg && (l.off == 0x1C0 || l.off == 0x1C1))
  | none => false

/-- A SEQ slot is a stage sequencer: its first output is G.CLOSE (R237); the stage. -/
def stageSeqOf (im : Image) (sl : SlotR) : Option Nat :=
  if sl.kernel = 0x31 then (boundTo .grp 0x1A 0 (bindAt im sl sl.ins)).map (· / 4) else none

/-- The connector whose CON.CTC a SEQ slot writes (R237). -/
def conSeqOf (im : Image) (sl : SlotR) : Option Nat :=
  if sl.kernel = 0x31 ∧ 0 < sl.outs then boundTo .con 0x33 0 (bindAt im sl (sl.ins + sl.outs - 1)) else none

/-- What identifies an output: an object subindex or a lane field and element (R59). -/
def outIdent (b : Bind) : Nat × Nat × Nat := if b.kind = 1 then (1, bindObj b, b.sub) else (b.kind, b.sub, b.target)

/-- The bindings of one slot by themselves: their number, R58 and R59, and the order its kernel asks for. -/
def slotBindsOk (d : Dev) (im : Image) (sl : SlotR) : Bool :=
  match slotRow sl with
  | none => false
  | some r =>
    let ins := inBinds im sl
    let outs := outBinds im sl
    sl.ins == r.ins && sl.outs == r.outs && decide (sl.firstBind + sl.ins + sl.outs ≤ im.binds.length) &&
      ins.all (bindOk d im sl false) && outs.all (bindOk d im sl true) && (allocRefs sl.kernel sl.p1 sl.p2 ins outs).isSome &&
      (sl.kernel != 0x22 || packOk sl.p1 ins outs) && (sl.kernel != 0x23 || diodeOk sl.p1 ins outs) &&
      (sl.kernel != 0x40 || (thermRef im sl.p1 ins outs).isSome) &&
      outs.all (fun b => !(reservedOut b) && (sl.kernel == 0x40 || !(thermOut b)) && (sl.kernel == 0x50 || !(isetOut b)))

/-- The conditions that tie the bindings of several slots together (R59, R206, R238, R255, R265), for one slot against the
slots before it. The ALLOC slots of one solver write the same outputs; they count as one writer where they name the same
binding records (DEDUCED from R62 and R207, log entry 32). -/
def slotsTogether (im : Image) (seen : List SlotR) (sl : SlotR) : Bool :=
  let outs := outBinds im sl
  let refs := fun (t : SlotR) => (allocRefs t.kernel t.p1 t.p2 (inBinds im t) (outBinds im t)).getD ([], [])
  let therm := fun (t : SlotR) => if t.kernel = 0x40 then thermRef im t.p1 (inBinds im t) (outBinds im t) else none
  let seqs := im.slots.filterMap (fun t => (stageSeqOf im t).map (fun s => (s, t.slotId)))
  let cons := im.slots.filterMap (conSeqOf im)
  (outs.map outIdent).Nodup &&
    seen.all (fun t => (t.kernel == 0x50 && sl.kernel == 0x50 && t.firstBind == sl.firstBind) ||
      (outBinds im t).all (fun b => !((outs.map outIdent).contains (outIdent b)))) &&
    (match im.slots.find? (fun t => t.kernel == 0x50) with
     | some a =>
       !([0x50, 0x51, 0x52].contains sl.kernel) || ((refs sl).1 == (refs a).1 && (sl.kernel == 0x52 || (refs sl).2 == (refs a).2))
     | none => true) &&
    (sl.kernel != 0x40 || seen.all (fun t => t.kernel != 0x40 || therm t != therm sl)) &&
    outs.all (fun b =>
      (b.kind != 3 || !(bindCode b == 0x110 || bindCode b == 0x111) || !(seqs.any (fun q => q.1 == b.sub))) &&
      (b.kind != 5 || bindCode b != 0x310 ||
        (let e := im.disps.getD b.sub {}; !((List.range e.count).any (fun i => cons.contains (e.first + i))))) &&
      (b.kind != 5 || bindCode b == 0x310 ||
        !(im.slots.any (fun t => (inBinds im t ++ outBinds im t).any (fun q =>
          match objRef q with
          | some (l, _) => l.blk == .con && l.off == 0x47 && l.inst == (im.disps.getD b.sub {}).first + bindElem b
          | none => false)))))

/-- The records of the binding table by themselves, also those that no slot names: R58, what R59 asks of a record, and its
single writer. -/
def tableOk (d : Dev) (im : Image) : Bool :=
  im.binds.all (fun b => bindOk d im { (default : SlotR) with sect := 1 } (bindOut b) b) &&
    decide ((im.binds.filter bindOut).map outIdent).Nodup

/-- The first slot with a wrong binding: each slot by itself, then against the others; then the table's records that no
slot names, for which no slot applies (check BINDING; that order is a DESIGN CHOICE, log entry 31). -/
def badBinding (d : Dev) (im : Image) : List SlotR → List SlotR → Option Nat
  | [], _ => if tableOk d im then none else some noSlot
  | s :: l, seen => if slotBindsOk d im s && slotsTogether im seen s then badBinding d im l (s :: seen) else some s.slotId

/-! ### Capacity and reserve (R65, R66) -/

/-- The window of a section, 3 for the whole frame, in steps. -/
def windowOf (micro sect : Nat) : Nat :=
  let c := microNs micro * 4 / 5
  if sect = 0 then c / 5 else if sect = 3 then c else 2 * c / 5

/-- The positions of a cell at which a distinct set of slots may run, at their lowest (k, m): every position of a rate-2
slot, and for each m one position with none. -/
def positions (micro : Nat) (cs : List SlotR) : List (Nat × Nat) :=
  (List.range (minMicros micro)).flatMap (fun m =>
    let ks := ((cs.filter (fun s => s.rate == 2 && s.microOfs == m)).map (·.minorOfs)).eraseDups
    let free := (List.range 100).find? (fun k => !(ks.contains k))
    (ks ++ free.toList).map (fun k => (k, m)))

/-- The slots of a cell that run at a position (R57). -/
def runsAt (cs : List SlotR) (p : Nat × Nat) : List SlotR := cs.filter (fun s => slotDue s p.1 p.2)

def declaredSum (l : List SlotR) : Nat := sumN (l.map (·.declared))

/-- The slot with the largest DECLARED, the first of equals (R72). -/
def largest : List SlotR → Option SlotR
  | [] => none
  | s :: l =>
    match largest l with
    | some t => if s.declared < t.declared then some t else some s
    | none => some s

/-- A section, or the whole frame, breaks the 70 % rule (`reserve` false) or the reserve rule. -/
def overWindow (micro : Nat) (reserve : Bool) (sect : Nat) (run : List SlotR) : Bool :=
  let w := windowOf micro sect
  if run = [] then false
  else if reserve then decide (w < declaredSum run + ((largest run).map (·.declared)).getD 0)
  else decide (7 * w < 10 * declaredSum run)

/-- The first section that breaks a rule at a position: lead, launch, tail, then the frame. -/
def overSect (micro : Nat) (reserve : Bool) (run : List SlotR) : Option (Nat × Nat) :=
  [0, 1, 2, 3].findSome? (fun s =>
    let r := if s = 3 then run else run.filter (fun t => t.sect == s)
    if overWindow micro reserve s r then some (s, ((largest r).map (·.slotId)).getD noSlot) else none)

/-- The lowest failing position of a cell. -/
def lowestOver (micro : Nat) (reserve : Bool) (cs : List SlotR) : Option (Nat × Nat × Nat × Nat) :=
  (positions micro cs).foldl (fun best p =>
    match overSect micro reserve (runsAt cs p) with
    | none => best
    | some (s, id) =>
      match best with
      | some (k, m, _, _) => if 128 * p.1 + p.2 < 128 * k + m then some (p.1, p.2, s, id) else best
      | none => some (p.1, p.2, s, id)) none

def cellSlots (im : Image) (c : Nat) : List SlotR := im.slots.filter (fun s => s.cell == c)

/-- CAPACITY or RESERVE: the first failing cell, position and section. Of several failures the lowest cell is reported, then
its lowest (k, m), then lead, launch, tail and frame in this order: DESIGN CHOICE (log entry 33), R64 says only the first. -/
def badWindow (im : Image) (reserve : Bool) : Option CheckRes :=
  (List.range 64).findSome? (fun c =>
    (lowestOver im.micro reserve (cellSlots im c)).map (fun r =>
      { code := if reserve then 0x0C else 0x0B, slotId := r.2.2.2, pos := some (r.1, r.2.1, c, r.2.2.1) }))

/-- SCH.PEAK_STEPS of a cell (R72). -/
def peakSteps (im : Image) (c : Nat) : Nat :=
  let cs := cellSlots im c
  (positions im.micro cs).foldl (fun m p => max m (declaredSum (runsAt cs p))) 0

/-! ### The whole check (R63, R64) -/

/-- The acceptance check; the image taken apart where it passes. -/
def checkImage (d : Dev) (b : Bytes) : CheckRes × Option Image :=
  let im := parseImage b
  if !(headerOk b) then ({ code := 1 }, none)
  else if !(signatureOk d b) then ({ code := 2 }, none)
  else if imgU16 b 6 = 0 ∨ on d 0x1A3 0 < imgU16 b 6 then ({ code := 3 }, none)
  else if (imgU8 b 0x19).testBit 1 ∧ lcState d ≠ 5 then ({ code := 4 }, none)
  else if !(layoutOk b) then ({ code := 5 }, none)
  else if !(limitsOk im) then ({ code := 6 }, none)
  else if !(siteOk b im) then ({ code := 7 }, none)
  else match im.slots.find? (fun s => !(kernelOk s)) with
  | some s => ({ code := 8, slotId := s.slotId }, none)
  | none =>
    match (badSlot im.micro im.slots []).orElse (fun _ => badSolver im.slots) with
    | some i => ({ code := 9, slotId := i }, none)
    | none =>
      match badBinding d im im.slots [] with
      | some i => ({ code := 0x0A, slotId := i }, none)
      | none =>
        match (badWindow im false).orElse (fun _ => badWindow im true) with
        | some r => (r, none)
        | none => ({ code := 0 }, some im)

/-- The word of SCH.LOAD_RESULT and SCH.STAGED_RESULT (R74). -/
def resultWord (r : CheckRes) : Nat :=
  match r.pos with
  | none => r.code
  | some (k, m, c, s) => 2 ^ 30 + s * 2 ^ 28 + k * 2 ^ 21 + m * 2 ^ 14 + c * 2 ^ 8 + r.code

/-- Publish the result of the check at start (R72). -/
def publishLoad (r : CheckRes) (d : Dev) : Dev := put 0x1A5 0 r.slotId (put 0x1A4 0 (resultWord r) d)

end Sys2Proof.Machine
end

