-- ==== Sys2Proof/Machine/Matrix.lean ====
section
/-! DEFINITION. The check of a matrix table at its write and at every start (R217, R218, R239). -/

namespace Sys2Proof.Machine

/-- The fields of an edge record are legal by themselves (R217). -/
def edgeFieldsOk (e : Edge) : Bool :=
  decide (e.node < 0x44) && ((e.kind == 1 && decide (e.driver < 32)) || (e.kind == 2 && decide (e.driver < 2 ^ 28)))

/-- The connector belongs to a bound dispenser of the image. -/
def imgConn (im : Image) (c : Nat) : Bool :=
  (List.range 16).any (fun i => let e := im.disps.getD i {}
    im.lanes.getD (32 + i) 0 != 0 && decide (e.first ≤ c) && decide (c < e.first + e.count))

/-- The objects of an edge's driver and feedback, as an object number and a subindex (R237). -/
def driverOf (e : Edge) : Nat × Nat := if e.kind = 1 then (oLch (e.driver % 32) 0, 0) else (oPoint (e.driver % 2 ^ 14), 1)
def feedbackOf (e : Edge) : Nat × Nat := if e.kind = 1 then (oLch (e.driver % 32) 1, 0) else (oPoint (bitsOf e.driver 27 14), 1)

/-- The node sequencer of a node: its last input but one is the node's energy-budget output. -/
def nodeSlot (im : Image) (n : Nat) : Option SlotR :=
  im.slots.find? (fun sl => sl.kernel == 0x31 && decide (2 ≤ sl.ins) && (stageSeqOf im sl).isNone &&
    boundDev (nodeEb n) 1 (bindAt im sl (sl.ins - 2)))

/-- R239: the group is among the node's ENERGY_BUDGET groups, and driver and feedback are the node sequencer's. -/
def edgeBoundOk (im : Image) (e : Edge) : Bool :=
  match (nodeGroups im e.node).findIdx? (fun p => p.1 == e.s && p.2 == e.g), nodeSlot im e.node with
  | some k, some sl => boundDev (driverOf e).1 (driverOf e).2 (bindAt im sl (sl.ins + k)) &&
      boundDev (feedbackOf e).1 (feedbackOf e).2 (bindAt im sl k)
  | _, _ => false

/-- One edge against the image and the points in force (R218, R239). -/
def edgeOk (d : Dev) (im : Image) (e : Edge) : Bool :=
  edgeFieldsOk e && decide (e.s < 32) && decide (e.g < (im.stages.getD e.s {}).groups) && (decide (0x40 ≤ e.node) || imgConn im e.node) &&
    (if e.kind = 1 then imgOwnsChannel im e.driver
     else (match pointAt (ob d 0x3014 0) (e.driver % 2 ^ 14), pointAt (ob d 0x3014 0) (bitsOf e.driver 27 14) with
       | some o, some f => !o.isIn && f.isIn && (f.ty == 1 || f.ty == 2)
       | _, _ => false)) &&
    edgeBoundOk im e

/-- No edge repeats its stage, group and node, nor a load channel or output point (R218). -/
def edgesDistinct : List Edge → Bool
  | [] => true
  | e :: l => !(l.any (fun x => (x.s == e.s && x.g == e.g && x.node == e.node) ||
      (x.kind == e.kind && driverOf x == driverOf e))) && edgesDistinct l

/-- Every tie named has an edge from a grid group and one from a battery group (R218). -/
def tiesOk (batt : Nat) (l : List Edge) : Bool :=
  l.all (fun e => decide (e.node < 0x40) ||
    (l.any (fun x => x.node == e.node && isBattStage batt x.s) && l.any (fun x => x.node == e.node && !(isBattStage batt x.s))))

/-- A matrix table passes its check. -/
def matrixOk (d : Dev) (im : Option Image) (t : Bytes) : Bool :=
  let l := edgesOf t
  decide (8 ≤ t.length) && decide (fieldLe t 0 2 ≤ 1024) && t.length == 8 + 8 * fieldLe t 0 2 && zeros t 2 6 &&
    l.all (fun e => match im with | some i => edgeOk d i e | none => false) && edgesDistinct l && tiesOk (on d 0x1007 6) l

/-- The check at start: a table that fails is treated as empty, TOPO_INVALID is set (R218). -/
def matrixStart (d : Dev) : Dev :=
  let t := ob d (0x100C + on d 0x100B 0 % 2) 0
  wrStatus 0x1012 0 8 (!(t.isEmpty || matrixOk d (img? d) t)) d

end Sys2Proof.Machine
end

