-- ==== Sys2Proof/Machine/Update.lean ====
section
/-! DEFINITION. Firmware update (spec/22): delivery in pieces, verification, staging, activation, the copies of a start,
trial, confirmation and fallback. Checks answer an abort code of R378, 0 where they admit. -/

namespace Sys2Proof.Machine

def modUpd (f : UpdS → UpdS) (d : Dev) : Dev := { d with update := f d.update }

/-- A bit of UPD.STATUS (R529). -/
def updBit (d : Dev) (i : Nat) : Bool := (on d 0x700 0).testBit i

/-- A unit number names this unit: its own, or every unit (R519). -/
def namesMe (d : Dev) (unit : Nat) : Bool := unit == 0xFF || unit == portNo d

/-- STG.RUN of some stage is 1. -/
def anyRun (d : Dev) : Bool := (List.range 32).any (fun s => oflag d (oStg s 0x15) 0)

/-! ### Bundles (R511, R512) -/

/-- The component of a kind. -/
def compOf (b : Bundle) (k : Nat) : Option Comp := b.comps.find? (fun c => c.kind == k)

/-- The schedule image of a bundle, and its kernel library edition. -/
def bundleImage (b : Bundle) : Option Bytes := (compOf b 5).map (·.bytes)
def bundleLib (b : Bundle) : Nat := ((compOf b 1).map (·.library)).getD 0

/-- USAGE of the key slot that signs a kind (R486, R512). -/
def usageOf (k : Nat) : Nat := if k = 1 then 2 else if k = 2 then 3 else if k = 5 then 1 else 4

/-- A signature block of 72 bytes at the end of a byte string verifies under a slot of a USAGE (R51, R512). -/
def blockOk (d : Dev) (usage : Nat) (b : Bytes) : Bool :=
  let o := b.length - 72
  decide (72 ≤ b.length) && fieldLe b (o + 4) 4 == 0 &&
    (match pubFor d (fieldLe b o 4) usage with
     | some k => ecdsaVerify k (sha256 (b.take o)) (slice b (o + 8) 32) (slice b (o + 40) 32)
     | none => false)

/-- The signature of a component; a schedule image carries its own. -/
def compSigned (d : Dev) (c : Comp) : Bool := if c.kind = 5 then signatureOk d c.bytes else blockOk d (usageOf c.kind) c.bytes

/-- The boot code may start a bundle: every signature of R512 verifies and its SVN is at least UPD.ARB (R523). -/
def bootOk (d : Dev) (b : Option Bundle) : Bool :=
  match b with
  | none => false
  | some b => decide (on d 0x709 0 ≤ b.svn) &&
      [1, 2, 3, 4].all (fun k => match compOf b k with | some c => blockOk d (usageOf k) c.bytes | none => false)

/-- A bundle changes loop arithmetic against another (R518). -/
def changesLoops (a b : Bundle) : Bool := bundleImage a != bundleImage b || bundleLib a != bundleLib b

/-- SVN of a region, 0 when empty. -/
def regionSvn (b : Option Bundle) : Nat := (b.map (·.svn)).getD 0

/-- Publish UPD.REGION. -/
def publishRegions (d : Dev) : Dev :=
  put 0x70A 3 (regionSvn d.update.keep) (put 0x70A 2 (regionSvn d.update.stage) (put 0x70A 1 (regionSvn d.update.run) d))

/-! ### Delivery (R514 to R516) -/

/-- The number of pieces, and the length of piece `i`. -/
def pieceCount (u : UpdS) : Nat := if u.piece = 0 then 0 else ceilDiv u.size u.piece
def pieceLen (u : UpdS) (i : Nat) : Nat := if i + 1 = pieceCount u then u.size - i * u.piece else u.piece

/-- Admission of UPD.BEGIN (R514), once all three subindices are written. -/
def updBeginCheck (d : Dev) (size piece : Nat) : Nat :=
  if size = 0 ∨ 33554432 < size ∨ !([1024, 2048, 4096, 8192, 16384, 32768, 65536].contains piece) then 8
  else if updBit d 2 ∨ lcState d = 3 ∨ lcState d = 4 then 9
  else 0

/-- UPD.STAGED as a whole. -/
def putStaged (st reason svn len kinds : Nat) (d : Dev) : Dev :=
  put 0x704 5 kinds (put 0x704 4 len (put 0x704 3 svn (put 0x704 2 reason (put 0x704 1 st d))))

/-- STAGE no longer holds a bundle: STAGED, STAGED_OK and the staged result end (R527). -/
def clearStage (d : Dev) : Dev :=
  let d := publishRegions (modUpd (fun u => { u with stage := none, built := none }) d)
  clrStatus 0x1A0 0 4 (put 0x1A7 0 0xFFFFFFFF (put 0x1A6 0 0xFF (clrStatus 0x700 0 1 d)))

/-- UPD.BEGIN commits (R514). -/
def updBegin (size piece : Nat) (digest : Bytes) (d : Dev) : Dev :=
  let d := modUpd (fun u => { u with isOpen := true, size := size, piece := piece, digest := digest, got := [], metro := true,
                                     sealFirst := false, sealLast := false }) (clearStage d)
  let d := putStaged 1 0 0 0 0 (setStatus 0x700 0 0 (clrStatus 0x700 0 4 d))
  putb 0x703 0 (List.replicate (ceilDiv (pieceCount d.update) 8) 0) d

/-- Admission of UPD.PIECE (R515), in the order of R97: LENGTH, RANGE, STATE. Without a delivery open neither the length nor the
number of pieces is defined; CRC is. -/
def updPieceCheck (d : Dev) (v : Bytes) : Nat :=
  let u := d.update
  let i := fieldLe v 0 4
  if u.isOpen ∧ v.length ≠ 8 + pieceLen u i then 7
  else if (u.isOpen ∧ pieceCount u ≤ i) ∨ fieldLe v 4 4 ≠ crc32 (v.drop 8) then 8
  else if !u.isOpen ∨ ringSize d 13 = 0 ∨ !(storeUp d) then 9
  else 0

/-- A piece has come through ring 13: it is stored and its bit is set; the last one starts the verification (R515, R516). -/
def pieceTake (role : Nat) (v : Bytes) (d : Dev) : Dev :=
  let i := fieldLe v 0 4
  let first := d.update.got.isEmpty
  let d := modUpd (fun u => { u with got := alSet u.got i (v.drop 8), metro := u.metro && role == 2,
                                     sealFirst := if first then sealOpen d else u.sealFirst }) d
  let bm := ob d 0x703 0
  let d := putb 0x703 0 (modAt bm (i / 8) (fun b => b ||| BitVec.ofNat 8 (1 <<< (i % 8)))) d
  if (List.range (pieceCount d.update)).all (fun j => (alGet d.update.got j).isSome) then
    put 0x704 1 2 (clrStatus 0x700 0 0 (modUpd (fun u => { u with isOpen := false, sealLast := sealOpen d }) d))
  else d

/-- UPD.PIECE commits: the piece goes by way of ring 13 (R420). -/
def updPiece (role : Nat) (v : Bytes) : Dev → Dev := ringPass 13 [.piece role v] (pieceTake role v) id

/-! ### Verification (R513, R517) -/

/-- The package that the pieces make up. -/
def packageOf (u : UpdS) : Bytes := (List.range (pieceCount u)).flatMap (fun i => (alGet u.got i).getD [])

/-- The entries of a package from the next free byte on; none where an entry breaks R513. -/
def takeEntriesUpd (b : Bytes) : Nat → Nat → Nat → List Comp → Option (Nat × List Comp)
  | 0, _, next, acc => some (next, acc)
  | n + 1, at', next, acc =>
    let k := byteAt b at'
    let off := fieldLe b (at' + 8) 4
    let size := fieldLe b (at' + 12) 4
    let lib := fieldLe b (at' + 16) 2
    if decide (1 ≤ k) && decide (k ≤ 5) && !(acc.any (fun c => c.kind == k)) && zeros b (at' + 1) 3 && off == next && size != 0 &&
        (k == 1 || lib == 0) && zeros b (at' + 18) 14 && decide (off + size + 72 ≤ b.length) then
      takeEntriesUpd b n (at' + 32) (next + size)
        (acc ++ [{ kind := k, version := fieldLe b (at' + 4) 4, library := lib, bytes := slice b off size }])
    else none

/-- FORMAT (R513): LEGAL, SVN and the components. -/
def parsePackage (b : Bytes) : Option (Bool × Nat × List Comp) :=
  let n := byteAt b 6
  if fieldLe b 0 4 == 0x4855504B && fieldLe b 4 2 == 1 && decide (1 ≤ n) && decide (n ≤ 5) && decide (byteAt b 7 < 2) &&
      decide (1 ≤ fieldLe b 8 4) && fieldLe b 12 4 == b.length && decide (b.length ≤ 33554432) && zeros b 16 48 then
    match takeEntriesUpd b n 64 (64 + 32 * n) [] with
    | none => none
    | some (next, cs) =>
      if next + 72 = b.length ∧ cs.any (fun c => c.kind == 2) = decide (byteAt b 7 = 1) then some (decide (byteAt b 7 = 1), fieldLe b 8 4, cs)
      else none
  else none

/-- SIGNATURE: USAGE 1 for a package of one schedule image, USAGE 2 otherwise; then every component. -/
def packageSigned (d : Dev) (b : Bytes) (cs : List Comp) : Bool :=
  blockOk d (if cs.all (fun c => c.kind == 5) then 1 else 2) b && cs.all (compSigned d)

/-- The bundle that a package makes: its components and those of RUN that it does not replace (R518). -/
def bundleFrom (run : Option Bundle) (svn : Nat) (cs : List Comp) : Bundle :=
  { svn := svn, comps := cs ++ ((run.map (·.comps)).getD []).filter (fun c => !(cs.any (fun x => x.kind == c.kind))) }

/-- The pre-check of the bundle's schedule image against the library that the bundle provides (R63, R517). -/
def precheck (d : Dev) (b : Bundle) : Option CheckRes :=
  (bundleImage b).map (fun i => (checkImage (put 0x1A3 0 (bundleLib b) d) i).1)

/-- The checks of R517: the reason, 0 where all pass, the pre-check's result, and the bundle with its kinds. -/
def packageCheck (d : Dev) (storeOk : Bool) : Nat × Option CheckRes × Option (Bundle × Nat) :=
  let u := d.update
  let b := packageOf u
  if sha256 b ≠ u.digest then (1, none, none)
  else match parsePackage b with
  | none => (2, none, none)
  | some (legal, svn, cs) =>
    let bundle := bundleFrom u.run svn cs
    if !(packageSigned d b cs) then (3, none, none)
    else if svn < on d 0x709 0 then (4, none, none)
    else if legal && !(u.metro && u.sealFirst && u.sealLast) then (5, none, none)
    else if (match bundleImage bundle with | some i => decide (bundleLib bundle < imgU16 i 6) | none => false) then (6, none, none)
    else
      let r := precheck d bundle
      if (match r with | some r => decide (r.code ≠ 0) | none => false) then (7, r, none)
      else if !storeOk then (8, r, none)
      else (0, r, some (bundle, maskOf (cs.map (fun c => c.kind - 1))))

/-- The staged pre-check's result is published; STAGED_OK waits for the bundle in STAGE (R63, R518). -/
def putStagedResult (r : Option CheckRes) (d : Dev) : Dev :=
  match r with
  | some r => put 0x1A7 0 r.slotId (put 0x1A6 0 (resultWord r) d)
  | none => d

/-- PACKAGE_VERIFIED (R517). -/
def packageVerified (storeOk : Bool) (d : Dev) : Dev :=
  if !(running d) || on d 0x704 1 != 2 || d.update.built.isSome then d
  else
    let r := packageCheck d storeOk
    let d := putStagedResult r.2.1 d
    match r.2.2 with
    | some (b, kinds) => putStaged 2 0 b.svn d.update.size kinds (modUpd (fun u => { u with built := some b }) d)
    | none => raise 0x8A01 noInst r.1 (setStatus 0x700 0 5 (putStaged 4 r.1 0 0 0 d))

/-- UPD_STAGED (R518). -/
def updStaged (d : Dev) : Dev :=
  match d.update.built with
  | none => d
  | some b =>
    if !(running d) then d
    else
      let d := publishRegions (modUpd (fun u => { u with stage := some b, built := none }) d)
      let d := if (bundleImage b).isSome then setStatus 0x1A0 0 4 d else d
      raise 0x8801 noInst b.svn (put 0x704 1 3 (setStatus 0x700 0 1 d))

/-! ### Activation (R519, R520) -/

/-- The partner may take over from a quiet handover: STANDBY, PHASE_LOCKED, both paths good for 16 tokens (R520). -/
def quietOk (d : Dev) : Bool :=
  partnerPresent d && on d 0x406 2 == 2 && d.pair.peerFlags.testBit 1 && decide (16 ≤ d.pair.okA) && decide (16 ≤ d.pair.okB)

/-- The role rules of a restart under R519, as an abort code. -/
def restartCheck (d : Dev) (quiet : Bool) : Nat :=
  match d.pair.role with
  | .standby => 0
  | .electing => 0
  | .single => if anyRun d then 9 else 0
  | .active => if quiet then (if quietOk d then 0 else 9) else if switchOk d then 0 else 9

/-- Admission of UPD.ACTIVATE (R519): inert on a unit that it does not name. -/
def updActivateCheck (d : Dev) (unit : Nat) (quiet : Bool) : Nat :=
  if !([0, 1, 0xFF].contains unit) then 8
  else if !(namesMe d unit) then 0
  else if on d 0x704 1 ≠ 3 then 9
  else restartCheck d quiet

/-- The restart of R519 by role. -/
def updRestart (quiet : Bool) (d : Dev) : Dev :=
  let d := setStatus 0x700 0 2 d
  if d.pair.role = .active then
    if quiet then modUpd (fun u => { u with quietDue := true }) d
    else requestSwitch 3 1 .none { d with startup := { d.startup with restartAfterHandover := true } }
  else { d with startup := { d.startup with restartDue := true } }

/-- UPD.ACTIVATE commits. On the partner of the unit named, a quiet handover is thereby announced (R520). -/
def updActivate (unit : Nat) (quiet : Bool) (d : Dev) : Dev :=
  if namesMe d unit then
    if updActivateCheck d unit quiet = 0 then updRestart quiet (modUpd (fun u => { u with activate := true }) d) else d
  else if quiet then modPair (fun p => { p with announced := some 3 }) d
  else d

/-- QUIET_HANDOVER: the active unit goes silent as R459 states, without a cause in SYS.GUARD_FS_CAUSE (R520). -/
def quietHandover (d : Dev) : Dev :=
  if running d && d.update.quietDue && d.pair.role == .active then
    stopOutputs 2 (modUpd (fun u => { u with quietDue := false }) d)
  else d

/-! ### Trial (R524, R525) -/

/-- RUN is on trial; ns of the trial that are left. -/
def inTrial (d : Dev) : Bool := updBit d 3
def trialLeft (d : Dev) : Nat := on d 0x707 1 * 60000000000 - d.startup.t

/-- The trial has failed: its reason, and the restart under R519 with QUIET 0 (R525). -/
def trialFail (reason : Nat) (d : Dev) : Dev := updRestart false (modUpd (fun u => { u with fall := some reason }) d)

/-- Admission of UPD.REJECT on a unit that it names. -/
def updRejectCheck (d : Dev) (unit : Nat) : Nat :=
  if !([0, 1, 0xFF].contains unit) then 8 else if namesMe d unit && inTrial d then restartCheck d false else 0

/-- UPD.REJECT commits. -/
def updReject (unit : Nat) (d : Dev) : Dev :=
  if namesMe d unit && inTrial d && restartCheck d false == 0 then trialFail 2 d else d

/-- TRIAL_TIMEOUT. -/
def trialTimeout (d : Dev) : Dev :=
  if running d && inTrial d && trialLeft d == 0 && d.update.fall.isNone && restartCheck d false == 0 then trialFail 1 d else d

/-- UPD_CONFIRMED: the conditions of R524 have held together for UPD.CFG.02. -/
def updConfirmed (d : Dev) : Dev :=
  if running d && inTrial d && d.update.fall.isNone && decide (on d 0x707 2 * 1000000000 ≤ d.update.dwell) then
    let d := put 0x709 0 (max (on d 0x709 0) (regionSvn d.update.run)) d
    let d := put 0x706 2 0 (put 0x706 1 2 (setStatus 0x700 0 7 (clrStatus 0x700 0 3 d)))
    raise 0x8802 noInst (on d 0x709 0) d
  else d

/-- The trial at a boundary token that ends a micro-frame of `ns`; `ready` tells that a standby unit meets its condition. -/
def trialToken (ready : Bool) (ns : Nat) (d : Dev) : Dev :=
  if !(inTrial d) then d
  else
    let ok := (on d 0x2200 0).testBit 10 && (if isActive d then (on d 0x601 0).testBit 0 else d.pair.role == .standby && ready)
    modUpd (fun u => { u with dwell := if ok then u.dwell + ns else 0 }) d

/-- UPD.TRIAL.02 and .03 at a major-frame boundary. -/
def publishTrial (d : Dev) : Dev :=
  if inTrial d then put 0x706 3 (satU 32 (d.update.dwell / 1000000000)) (put 0x706 2 (ceilDiv (trialLeft d) 1000000000) d) else d

/-! ### The copies of a start (R522, R523, R525) -/

/-- KEEP is copied back to RUN. -/
def fallBack (reason : Nat) (d : Dev) : Dev :=
  let d := modUpd (fun u => { u with run := u.keep, fall := none, activate := false }) d
  raise 0x8C01 noInst reason (put 0x706 2 0 (put 0x706 1 3 (setStatus 0x700 0 6 (clrStatus 0x700 0 3 d))))

/-- STAGE is taken into use: RUN goes to KEEP, STAGE to RUN, and the trial begins (R522). -/
def takeStage (d : Dev) : Dev :=
  let d := clearStage (modUpd (fun u => { u with keep := u.run, run := u.stage, activate := false, dwell := 0 }) d)
  put 0x704 1 0 (put 0x706 3 0 (put 0x706 1 1 (setStatus 0x700 0 3 d)))

/-- Another legal core component than RUN's stands in STAGE. -/
def newLegal (u : UpdS) : Bool :=
  match u.stage, u.run with
  | some s, some r => (compOf s 2).map (·.bytes) != (compOf r 2).map (·.bytes)
  | _, _ => true

/-- The regions at a start of a cause: fallback, activation, then the test of R523. The flag says that RUN may start. -/
def bootRegions (cause : Nat) (metSeal norFail : Bool) (d : Dev) : Dev × Bool :=
  let trial := on d 0x706 1 == 1
  let d := if trial && (cause == 3 || cause == 4) && d.update.fall.isNone then modUpd (fun u => { u with fall := some 3 }) d else d
  if norFail && (d.update.fall.isSome || d.update.activate) then (d, false)
  else
    let d := match d.update.fall with
      | some r => fallBack r d
      | none =>
        if d.update.activate && d.update.stage.isSome then
          if newLegal d.update && !metSeal then
            raise 0x8A02 noInst 0 (setStatus 0x700 0 8 (modUpd (fun u => { u with activate := false }) d))
          else takeStage d
        else modUpd (fun u => { u with activate := false }) d
    if bootOk d d.update.run then (publishRegions d, true)
    else if bootOk d d.update.keep then (publishRegions (fallBack 4 d), true)
    else (publishRegions d, false)

/-- The versions and the library of RUN in force (R518, SYS.FW_VERSION, SCH.LIBRARY). -/
def publishVersions (d : Dev) : Dev :=
  match d.update.run with
  | none => d
  | some b =>
    let ver := fun k => ((compOf b k).map (·.version)).getD 0
    put 0x1A3 0 (bundleLib b) (put 4 4 (ver 4) (put 4 3 (ver 3) (put 4 2 (ver 2) (put 4 1 (ver 1) d))))

/-- What UPD.STATUS and the staged result show after a start (R504, R529). -/
def publishUpdate (d : Dev) : Dev :=
  let d := wrStatus 0x700 0 3 (on d 0x706 1 == 1) (wrStatus 0x700 0 1 d.update.stage.isSome (wrStatus 0x700 0 0 d.update.isOpen d))
  if (d.update.stage.bind bundleImage).isSome then setStatus 0x1A0 0 4 (put 0x1A7 0 0xFFFFFFFF (put 0x1A6 0 0 d)) else d

/-- ANNOUNCE at a boundary token (R521): the partner runs what this unit has staged. -/
def announceToken (d : Dev) : Dev :=
  match d.update.stage with
  | none => if updBit d 4 then clrStatus 0x700 0 4 d else d
  | some b =>
    let dig := padTo 16 (((bundleImage b).map (fun i => (imgDigest i).take 16)).getD [])
    let ver := fun k => ((compOf b k).map (·.version)).getD 0
    if d.pair.role = .active ∧ !(updBit d 4) ∧ on d 0x406 2 = 2 ∧ ob d 0x406 5 = dig ∧
        [1, 2, 3, 4].all (fun k => on d 0x406 (5 + k) == ver k) then setStatus 0x700 0 4 d
    else d

end Sys2Proof.Machine
end

