-- ==== Sys2Proof/Machine/StartUp.lean ====
section
/-! DEFINITION. Reset, KEEP, the start sequence, the management watchdog and what persists (spec/21). -/

namespace Sys2Proof.Machine

def modStart (f : StartS → StartS) (d : Dev) : Dev := { d with startup := f d.startup }

/-! ### What persists (R100, R504) -/

/-- Objects that every start keeps: life cycle, generations, epoch, legal parameters and registers, factory calibration,
the record store's layout, the update state. -/
def keptAlways (num sub : Nat) : Bool :=
  [0x500, 0x503, 0x541, 0x402, 0x408, 0x2001, 0x2002, 0x2201, 0x220C, 0x220D, 0x3302, 0x703, 0x704, 0x706, 0x709, 0x70A].contains num ||
    (decide (0x2010 ≤ num) && decide (num < 0x2020)) || (decide (0x2040 ≤ num) && decide (num < 0x2080)) ||
    (decide (0x2100 ≤ num) && decide (num < 0x2142)) || (decide (0x2180 ≤ num) && decide (num < 0x21C2) && (sub == 2 || sub == 3)) ||
    (decide (0x2204 ≤ num) && decide (num < 0x220A)) || (decide (0x3310 ≤ num) && decide (num < 0x3315))

/-- The thermal latches of connectors, stages and the device (R261). -/
def thermLatch (num sub : Nat) : Bool :=
  (num == 0x285 && sub == 5) ||
    (match locate num with
     | some l => (l.blk == .con && l.off == 0x41 && sub == 3) || (l.blk == .stg && l.off == 0x1C1 && sub == 2)
     | none => false)

/-- What the keep domain keeps: the start count, the fail-silent cause, the latches. -/
def keptKeep (num sub : Nat) : Bool := (num == 0x600 && sub == 2) || num == 0x1C8 || thermLatch num sub

/-- The key belongs to the row "Persistent configuration and user calibration" of R504. -/
def userConfig (k : Nat) : Bool :=
  isPersistK k && !(keptAlways (k / 256) (k % 256)) && !(thermLatch (k / 256) (k % 256)) &&
    !(decide (0x530 ≤ k / 256) && decide (k / 256 < 0x540))

/-- The NOR copies that a restore-factory, interrupted by a reset, has not rewritten yet are completed as their defaults, before
step 2 of the start (R506). -/
def restoredNor (d : Dev) : Dev :=
  if !d.startup.factoryNor then d
  else
    let stale := fun (k : Nat) => userConfig k && d.os.norDirty.contains k
    let d := forEach (List.range 32) (fun s d => forEach (List.range 4) (fun g d =>
      if (List.range 8).any (fun i => stale (okey (oGrp s g 9) i)) then modGrp s g (fun x => { x with i2tNor := none }) d else d) d) d
    { d with os := { d.os with nor := d.os.nor.filter (fun p => !(stale p.1)) } }

/-- The latches of R261 whose copy in the keep domain the NOR copy does not show yet. -/
def latchesDirty (b : Store) (os : ObjS) : List Nat :=
  let ks := (os.cur.map (·.1)) ++ ((os.nor.map (·.1)).filter (fun k => (storeFind os.cur k).isNone))
  ks.filter (fun k => thermLatch (k / 256) (k % 256) && decide (storeGet b k ≠ storeGet os.nor k))

/-- The object store after a start: NOR copies of persistent values where the copy passes its check (R100), and what is kept
over them. A latch that the keep domain alone holds still goes to NOR (R261). -/
def bootStore (kept : Bool) (bad : List Nat) (os : ObjS) : ObjS :=
  let keep := fun (k : Nat) => keptAlways (k / 256) (k % 256) || (kept && keptKeep (k / 256) (k % 256))
  let a := os.nor.foldl (fun st p => if isPersistK p.1 && !(keep p.1) && !(bad.contains (p.1 / 256)) then storeSet st p.1 p.2 else st) []
  let b := os.cur.foldl (fun st p => if keep p.1 then storeSet st p.1 p.2 else st) a
  { cur := b, snap := b, nor := os.nor.filter (fun p => keep p.1 || !(bad.contains (p.1 / 256))), norDirty := latchesDirty b os }

/-- With the NOR copy of G.I2T goes what it was derived from (R167). -/
def keepI2t (num : Nat) (d : Dev) : Dev :=
  match locate num with
  | some l => if l.blk = .grp ∧ l.off = 9 then modGrp l.inst l.sub (fun x => { x with i2tNor := x.i2tFrom }) d else d
  | none => d

/-- NOR_COPY_WRITTEN: the NOR copy of a persistent value, a latch or an installed key is complete (R100, R261, R484). After
a restore-factory the last one lets the rings start again (R506). -/
def norCopyWritten (num sub : Nat) (d : Dev) : Dev :=
  let k := okey num sub
  if !(running d && d.os.norDirty.contains k) then d
  else
    let d := { d with
      os := { d.os with nor := storeIns d.os.nor k (storeGet d.os.cur k), norDirty := d.os.norDirty.filter (· != k) }
      keys := if hasKey d num then { d.keys with nor := alSet d.keys.nor num (instKey d num) } else d.keys }
    let d := keepI2t num d
    if d.startup.factoryNor && d.os.norDirty.isEmpty then
      raise 0x0804 noInst 0 (setStatus 0x601 0 3 (startRings (List.range 16) (modStart (fun s => { s with factoryNor := false }) d)))
    else d

/-! ### Reset and KEEP (R494, R495, R503) -/

/-- The device enters internal reset: snapshot first, outputs as R498 states. -/
def enterReset (cause : Nat) (ph : Phase) (d : Dev) : Dev :=
  let d := lchAllOff (legalSnapshot d)
  let d := forEach [0, 1, 2, 3] (fun x d => if (d.legal.pulses.getD x {}).busy then emit (.pulse x false) d else d) d
  emit .heartbeatLow { d with
    phase := ph
    pair := { d.pair with hbOut := false, hbRun := false, sending := false }
    startup := { d.startup with nextCause := cause } }

/-- A restart that the device decides itself (R519). -/
def unitRestart (d : Dev) : Dev := enterReset 2 .reset d

/-- SUPPLY_DROP: one of the six main supplies leaves its range (bits 0–5 of the mask). -/
def supplyDrop (mask : Nat) (d : Dev) : Dev :=
  if mask % 64 = 0 ∨ d.phase = .keep then d
  else if d.phase = .reset then { d with phase := .keep, startup := { d.startup with nextCause := 1 } }
  else enterReset 1 .keep d

/-- RST_N_LOW. -/
def rstNLow (d : Dev) : Dev :=
  if d.phase = .running ∨ d.phase = .failSilent then enterReset 2 .reset d else d

/-- VKEEP_LOSS: the keep domain is lost. -/
def vkeepLoss (d : Dev) : Dev :=
  if d.phase = .keep then modLegal (fun l => { l with snap := none, outTamper := [] }) (modStart (fun s => { s with keepLost := true, nextCause := 0 }) d)
  else d

/-- FS_HOLD_EXPIRY: the channels switch off and the unit restarts (R282, R459). -/
def fsHoldExpiry (d : Dev) : Dev := if d.phase = .failSilent then enterReset d.startup.nextCause .reset d else d

/-! ### Times and bounds of the start (R499) -/

/-- ms since t0; the steps after the reload end no earlier than the reload. -/
def startMs (d : Dev) : Nat := max d.startup.t d.startup.readyNs / 1000000

/-- A step is late: START_LATE once. -/
def startLate (step : Nat) (d : Dev) : Dev :=
  if d.startup.late.contains step then d
  else raise 0x0A01 noInst step (modStart (fun s => { s with late := step :: s.late }) d)

/-- The end of a step: its time in SYS.START, and START_LATE where a bound is exceeded. -/
def startStep (sub step bound : Nat) (d : Dev) : Dev :=
  if on d 0x600 sub ≠ 0xFFFFFFFF then d
  else
    let ms := startMs d
    let d := put 0x600 sub (satU 32 ms) d
    if bound < ms then startLate step d else d

/-- The bytes of the schedule image in RUN. -/
def runImage (d : Dev) : Option Bytes := d.update.run.bind bundleImage

/-- The time bound of step 5 in ms after step 3: verification and the next major-frame boundary. -/
def verifyBound (d : Dev) : Nat :=
  min 1200 (200 + 125 * ceilDiv ((runImage d).map (·.length) |>.getD 0) 1048576) + 100

/-- The role is known: step 3 ends, the image has been checked; without one in order R454 applies, with one it waits for
its major-frame boundary (R63, R499). Field buses join as R366 says. -/
def roleKnown (d : Dev) : Dev :=
  if d.startup.elected || d.pair.role == .electing then d
  else
    let ms := d.startup.readyNs / 1000000
    let d := modStart (fun s => { s with elected := true }) d
    let d := startStep 5 3 (if d.pair.role = .single then ms else ms + on d 0x404 1) d
    let d := forEach [0, 1, 2, 3] fbConfig d
    match d.startup.verified with
    | none => d
    | some r =>
      let d := publishLoad r d
      match d.startup.image with
      | some im =>
        forEach (List.range 64) (fun c d => put 0x1AD (c + 1) (peakSteps im c) d) { d with sched := { d.sched with next := some im } }
      | none => noImageStandby (if r.code = 0xFF then d else raise 0x1E01 noInst r.code d)

/-! ### The image in force (R63, R499 step 5) -/

/-- Nominal model parameters of a phase, until its MODEL_ADAPT slot completes (R186). -/
def nominalModel (s p : Nat) (d : Dev) : Dev :=
  let adapted := match img? d with
    | some im => ((List.range im.slots.length).zip im.slots).any (fun x => x.2.kernel == 0x25 &&
        (outBinds im x.2).any (fun b => b.kind == 1 && bindObj b == oStg s (0x140 + p)) && d.sched.adapted.contains x.1)
    | none => false
  if adapted then d
  else
    let l := oq d (oStg s 6) 0
    let n := oStg s (0x140 + p)
    puti 32 n 3 (br0 (tNs d) l (oq d (oStg s 0x100) 3)) (putq n 2 0 (puti 32 n 1 (al0 (tNs d) l) d))

/-- Nominal model parameters of every driven phase. -/
def nominalModels (d : Dev) : Dev :=
  forEach (stagesBound d) (fun s d => forEach (List.range (stageE d s).phases) (nominalModel s) d) d

/-- Some slot of the image writes an object subindex. -/
def slotWrites (im : Image) (num sub : Nat) : Bool := im.binds.any (fun b => b.kind == 1 && bindOut b && bindObj b == num && b.sub == sub)

/-- Some slot of a kernel binds an object subindex as an output. -/
def kernelWrites (im : Image) (kern num sub : Nat) : Bool :=
  im.slots.any (fun sl => sl.kernel == kern && (outBinds im sl).any (fun b => b.kind == 1 && bindObj b == num && b.sub == sub))

/-- A reference of a group that a slot writes, by a binding or with its bound outputs (R208, R238, R255). -/
def refWritten (im : Image) (s g off : Nat) : Bool :=
  slotWrites im (oGrp s g off) 0 || (off == 0x0F && kernelWrites im 0x50 (oGrp s g 0x0E) 0) ||
    (off == 0x11 && kernelWrites im 0x51 (oGrp s g 0x0C) 0) || (off == 0x12 && kernelWrites im 0x31 (oGrp s g 0x1A) 0) ||
    (off == 0x10 && kernelWrites im 0x40 (oStg s 0x1C1) 1)

/-- References that no slot writes hold their defaults (R154), and G.IG_CUT does until its slot first writes it (R162). -/
def defaultRefs (d : Dev) : Dev :=
  match img? d with
  | none => d
  | some im =>
    forEach (stagesBound d) (fun s d => forEach (List.range (stageE d s).groups) (fun g d =>
      let imax := on d (oGrp s g 9) 3
      let k := okey (oGrp s g 0x0C) 0
      let d := if refWritten im s g 0x0C && (storeFind d.os.prev k).isNone then putDflt (oGrp s g 0x0C) 0 imax d else d
      let d := forEach [0x0E, 0x10, 0x11, 0x12, 0x0C] (fun o d =>
        if refWritten im s g o || on d (oGrp s g o) 0 == imax then d else put (oGrp s g o) 0 imax d) d
      if refWritten im s g 0x0F || on d (oGrp s g 0x0F) 0 == 32767 * 65536 then d
      else put (oGrp s g 0x0F) 0 (32767 * 65536) d) d) d

/-- What a stage's objects hold when its image comes into force: every driven phase permitted, DE_ENABLE by the number of
phases where NOR holds none and no write has given one, the derived values at the basic level, G.I2T anew where the image changed the number of phases; the stage is LOST until LOST first ends, without
STG_LOST and STG_HOLD (R167, R176, R179, R188, R586). -/
def stageInForce (s : Nat) (d : Dev) : Dev :=
  let e := stageE d s
  let d := put (oStg s 9) 0 (2 ^ e.phases - 1) d
  let d := setStatus (oStg s 0x105) 0 1 (modStg s (fun x => { x with lost := true, startLost := true }) d)
  let d := match img? d with
    | none => d
    | some im => forEach (List.range e.groups) (fun g d =>
        if slotWrites im (oStg s 0x0A) (g + 1) then d else put (oStg s 0x0A) (g + 1) (phaseMask e g) d) d
  let k := okey (oStg s 0x10) 0
  let d := if (storeFind d.os.nor k).isNone && (storeFind d.os.prev k).isNone then putDflt (oStg s 0x10) 0 (valNat (dfltAt d k)) d else d
  let d := forEach (List.range e.groups) (i2tPhases s) d
  if expertLevel d 1 then d else deriveAll s d

/-- The accepted image takes effect at a major-frame boundary token: the micro-frame length, the schedule objects, the
lanes' link-up, discovery (R29, R63, R72, R138, R381). -/
def imageInForce (im : Image) (d : Dev) : Dev :=
  let d := { d with
    sched := { image := some im }
    time := { d.time with code := im.micro, begun := true } }
  let d := put 0x185 0 (on d 0x185 0 % 256 + 256 * im.micro + (on d 0x185 0 / 4096) * 4096) (put 0x180 0 (microNs im.micro) d)
  let d := putb 0x1A2 0 im.digest (put 0x1A1 0 im.sequence (setStatus 0x1A0 0 0 d))
  let d := forEach (stagesBound d) stageInForce d
  let d := matrixStart (nominalModels (defaultRefs d))
  let d := startStep 6 5 (on d 0x600 5 + verifyBound d) d
  let d := forEach (List.range 50) (fun l d => if laneBound d l then linkStart l (im.lanes.getD l 0) d else d) d
  if isActive d then forEach [0, 1, 2, 3] (fun b d => if on d (0x3000 + b) 1 = 1 then discStart b d else d) d else d

/-! ### The monitor's lock (R545, R546) -/

/-- MON.STATUS but for BREAK, from the monitor's state (R553). -/
def monPublish (d : Dev) : Dev :=
  let w := on d 0x3401 0 &&& 32
  let v := w + boolNat d.mon.role.isSome + 2 * d.mon.role.getD 0 + 8 * boolNat (decide (on d 0x3402 1 ≠ 0)) + 16 * boolNat d.mon.lockout
  if on d 0x3401 0 = v then d else put 0x3401 0 v d

/-- The monitor locks again: trace stops (R546). -/
def monRelock (d : Dev) : Dev :=
  if d.mon.role.isSome then
    raise 0x9002 noInst 0 (monPublish (put 0x3402 1 0 { d with mon := { d.mon with role := none } }))
  else d

/-- The monitor at start: unlocked as VENDOR in FACTORY and DEVELOP, at the rate of MON.CFG.01 (R542, R545). -/
def monStart (d : Dev) : Dev :=
  monPublish { d with mon := { baud := on d 0x3400 1, role := if lcState d = 0 ∨ lcState d = 5 then some 3 else none } }

/-! ### START (R481, R494 to R499) -/

/-- The civil time of the newest timeline entry, in ns (R504). -/
def timelineCivil (d : Dev) : Nat := fieldLe (ob d 0x220C 3) 16 8

/-- A load channel's junction latch as a start finds it: the keep domain's copy, or the NOR copy (R261, R279). -/
def bootLatch (kept : Bool) (d : Dev) (n : Nat) : Bool :=
  if kept then (lch d n).latch else (valNat (storeGet d.os.nor (okey (oLch n 1) 0))).testBit 5

/-- LCH.STATUS shows the latches from the start on; one that the NOR copy does not show goes to NOR (R261). -/
def bootLatches (kept : Bool) (d : Dev) (os : ObjS) : ObjS :=
  (List.range 32).foldl (fun os n =>
    let k := okey (oLch n 1) 0
    let l := bootLatch kept d n
    { os with
      cur := storeSet os.cur k (.num (0x20 * boolNat l)), snap := storeSet os.snap k (.num (0x20 * boolNat l))
      norDirty := if (valNat (storeGet os.nor k)).testBit 5 = l then os.norDirty else os.norDirty ++ [k] }) os

/-- The device as the start finds it: what persists, everything else at its reset value. -/
def bootDev (x : StartIn) (kept : Bool) (cause : Nat) (d : Dev) : Dev :=
  let civil := if cause = 0 then timelineCivil d * 10000 else if cause = 1 then x.rtc * 10000 else d.time.civil + x.outageMs * 10000000000
  { phase := .running
    os := bootLatches kept d (bootStore kept x.objBad d.os)
    time := { civil := civil }
    stg := ((List.range 32).zip d.stg).map (fun s => { groups := ((List.range 4).zip s.2.groups).map (fun g =>
      let nor := if x.objBad.contains (oGrp s.1 g.1 9) then none else g.2.i2tNor
      { i2tFrom := nor, i2tNor := nor }) })
    lch := {
      ch := (List.range 32).map (fun n => { latch := bootLatch kept d n })
      supply := (List.range 4).map (fun g => boolNat (decide (x.vload.getD g 24000 < 14500)))
      unfitted := (List.range 4).filter (fun g => decide (x.vload.getD g 24000 < 2000)) }
    flash := { d.flash with held := d.flash.held.filter (fun h => decide (h.1 ≤ 1)) }
    keys := { d.keys with
      inst := d.keys.nor.filter (fun p => !(x.norBad.contains p.1)), nor := d.keys.nor.filter (fun p => !(x.norBad.contains p.1))
      masks := [], lcT := 0, lcU := 0 }
    legal := d.legal
    update := { d.update with dwell := 0, quietDue := false, args := [], built := none }
    startup := { keepLost := d.startup.keepLost || !x.keepOk, nextCause := cause, wdog := d.startup.wdog,
                 factoryNor := d.startup.factoryNor, readyNs := x.reloadMs * 1000000
                 legalNs := x.legalMs * 1000000 }
    yard := { vplcLow := d.yard.vplcLow }
    draws := d.draws
    sent := d.sent }

/-- What a restore-factory that a reset interrupted still has to do (R506). -/
def resumeFactory (d : Dev) : Dev :=
  if d.startup.factoryNor then raise 0x0804 noInst 0 (setStatus 0x601 0 3 (modStart (fun s => { s with factoryNor := false }) d)) else d

/-- A bundle and its keys programmed from outside, in FACTORY (R511). -/
def programRun (x : StartIn) (d : Dev) : Dev :=
  if lcState d ≠ 0 then d
  else
    let d := forEach x.pubs (fun p d => if p.1 < 8 then
      let d := putb (0x530 + p.1) 2 p.2.2 (put (0x530 + p.1) 1 p.2.1 d)
      { d with os := { d.os with nor := storeSet (storeSet d.os.nor (okey (0x530 + p.1) 1) (.num p.2.1)) (okey (0x530 + p.1) 2) (.bytes p.2.2) } }
      else d) d
    match x.factory with
    | some b => modUpd (fun u => { u with run := some b }) d
    | none => d

/-- The first status words of a start. -/
def startStatus (x : StartIn) (cause : Nat) (d : Dev) : Dev :=
  let d := put 0x180 0 20000 (put 0x185 0 (0x400 + 3 + (if cause = 0 then 32 else 0)) d)
  let d := setStatus 0x1C0 0 6 (put 0x403 0 (boolNat x.unitSel) d)
  let d := put 0x600 2 (satU 32 (on d 0x600 2 + 1)) (put 0x600 1 cause d)
  let d := if d.startup.wdog then raise 0x0E01 noInst 0 (modStart (fun s => { s with wdog := false }) d) else d
  if d.keys.rootLost then raise 0x8601 noInst 0 { d with keys := { d.keys with rootLost := false } } else d

/-- The version of the legal core in RUN (R513). -/
def legalVersion (d : Dev) : Nat := (((d.update.run.bind (fun b => compOf b 2))).map (·.version)).getD 0

/-- The check value of the legal core: the first four bytes of SHA-256 over its image in RUN, big-endian (R334). -/
def legalDigest (d : Dev) : Nat := beNat ((sha256 ((((d.update.run.bind (fun b => compOf b 2))).map (·.bytes)).getD [])).take 4)

/-- Step 2: the legal core and the record store, the derived keys, the load channels' command latches. -/
def reload (x : StartIn) (kept : Bool) (d : Dev) : Dev :=
  let d := storeMount x.emmc x.emmcMiB x.emmcCid x.badPages x.pagesDone d
  let d := publishVersions (publishUpdate d)
  let used := on d 0x220C 1
  let d := wrStatus 0x2200 0 8 (decide (tlCapacity ≤ used)) (wrStatus 0x2200 0 7 (decide (tlHigh ≤ used)) d)
  let d := wrStatus 0x2200 0 0 d.legal.sealWas d
  let check := legalDigest d
  let d := if lcState d = 4 then d else
    legalStart (x.legalValue.getD check) (x.legalAgain.getD check) check (legalVersion d) kept x.outageMs (modLegal (fun l => { l with cl := some (legalLocal d) }) d)
  let d := bilSeal x.metSeal d
  let d := forEach (d.keys.inst.map (·.1)) remask (publishInstalled (publishSign d))
  let d := forEach x.norBad (fun n d => raise 0x8401 noInst n (setStatus 0x502 0 5 d)) d
  let d := siteRolled d
  let d := if d.legal.due then put 0x600 3 x.legalMs d else d
  let d := put 0x600 4 x.reloadMs d
  let d := if 150 < x.bootMs then startLate 1 d else d
  if 300 < x.legalMs ∨ 400 < x.reloadMs then startLate 2 d else d

/-- FLAGS.PAIR of the image in RUN before its check: the declared pair flag (R450). -/
def declaredPair (d : Dev) : Bool :=
  match runImage d with
  | some b => !(headerOk b) || (imgU8 b 0x19).testBit 0
  | none => true

/-- The check of the image in RUN, its result kept until the role is known (R63); the CRCs of its granules (R85). -/
def verifyRun (d : Dev) : Dev :=
  let r := match runImage d with
    | some b => checkImage d b
    | none => ({ code := 0xFF }, none)
  let part := fun k => (((d.update.run.bind (fun b => compOf b k))).map (·.bytes)).getD []
  let d := if r.2.isSome then keepCrcs (part 5) (part 1) (part 3) d else d
  modStart (fun s => { s with verified := some r.1, image := r.2 }) d

/-- Steps 3 and 4: SINGLE at once, or ELECTING with the pair lanes in training at 10.3125 Gb/s (R450, R452). -/
def electStart (d : Dev) : Dev :=
  let pair := declaredPair d
  let d := modPair (fun p => { p with declared := pair, hbRun := true }) (verifyRun d)
  if pair then linkStart 49 1 (linkStart 48 1 (setRole .electing d))
  else roleKnown (takeEpoch (setRole .single d))

/-- START. With TEST_EN high the device stays out of operation: only the test access port runs (R564). -/
def startUp (x : StartIn) (d : Dev) : Dev :=
  if (d.phase ≠ .reset ∧ d.phase ≠ .keep) ∨ x.testEn then d
  else
    let kept := x.keepOk && !d.startup.keepLost
    let cause := if d.startup.nextCause ≤ 1 then (if kept then 1 else 0) else d.startup.nextCause
    let d := startStatus x cause (bootDev x kept cause (restoredNor d))
    if !x.rootOk then failSilent 5 { d with keys := { d.keys with rootLost := true } }
    else
      let d := programRun x (lcCarryOut (setStatus 0x502 0 0 d))
      let b := bootRegions cause x.metSeal x.norFail d
      if !b.2 then { b.1 with phase := .reset }
      else
        let d := modStart (fun s => { s with keepLost := false }) b.1
        monStart (electStart (reload x kept (resumeFactory d)))

/-! ### After the image is in force (R499 steps 6 to 9, R500, R501) -/

/-- Lanes whose first link-up attempt has ended. -/
def markTried (d : Dev) : Dev :=
  let l := (attachedLanes d).filter (fun l => !(d.startup.tried.contains l) &&
    ((laneS d l).everUp || (laneS d l).st == .identFail))
  if l.isEmpty then d else modStart (fun s => { s with tried := s.tried ++ l }) d

/-- Discovery has ended on every enabled bus. -/
def discEnded (d : Dev) : Bool := (List.range 4).all (fun b => !(fbBit d b 0) || !(fbBit d b 8))

/-- Steps 6 and 7 end; then START_DONE (R510). Step 8 is late where discovery has not ended 8 s after t0 (R507). -/
def startToken (d : Dev) : Dev :=
  if (img? d).isNone then d
  else
    let d := markTried d
    let img := on d 0x600 6
    let was := d.startup.lanesDone && d.startup.fbDone
    let d := if !d.startup.lanesDone && (attachedLanes d).all (fun l => d.startup.tried.contains l) then
      startStep 7 6 (img + 5) (modStart (fun s => { s with lanesDone := true }) d) else d
    let d := if !d.startup.fbDone && discEnded d then
      startStep 8 7 (img + on d 0x300C 2 * (on d 0x300C 1 + 20) + 2) (modStart (fun s => { s with fbDone := true }) d) else d
    let d := if !was && d.startup.lanesDone && d.startup.fbDone then raise 0x0801 noInst (on d 0x600 1) d else d
    if isActive d && !d.startup.fbDone && decide (8000 ≤ startMs d) then startLate 8 d else d

/-- The output points that a sequencer drives are not stale (R500). -/
def seqPointsFresh (d : Dev) (im : Image) : Bool :=
  im.slots.all (fun sl => sl.kernel != 0x31 ||
    (outBinds im sl).all (fun b => b.kind != 1 || decide (bindObj b < 0x1C000) || on d (bindObj b) 3 == 0))

/-- CHARGE_READY at a minor-frame boundary (R500). -/
def chargeReady (d : Dev) : Dev :=
  match img? d with
  | none => d
  | some im =>
    if running d && isActive d && d.time.m == 0 && !((on d 0x601 0).testBit 0) && (on d 0x2200 0).testBit 10 &&
        (attachedLanes d).all (fun l => d.startup.tried.contains l) && discEnded d && seqPointsFresh d im then
      let late := (attachedLanes d).any (fun l => (laneS d l).st != .up)
      let d := startStep 9 8 8000 (setStatus 0x601 0 0 d)
      let d := if late then setStatus 0x601 0 2 d else d
      raise 0x0802 noInst (on d 0x600 9) d
    else d

/-- The bound nodes of the yard that are not associated (R501). -/
def yardMissing (d : Dev) : List (Bytes × Nat) :=
  (bindings d).filter (fun p => match nodeIdx p.2 with | some i => nodeState d i != 2 | none => true)

/-- Every bound yard node is associated: YARD_DONE (R501). -/
def yardToken (d : Dev) : Dev :=
  if (on d 0x601 0).testBit 1 || !(yardOn d) || !(isActive d) || !(yardMissing d).isEmpty then d
  else raise 0x0803 noInst (bindings d).length (startStep 10 9 120000 (setStatus 0x601 0 1 d))

/-- YARD_ASSOC_DEADLINE: 120 s after t0 bound nodes are missing. -/
def yardAssocDeadline (d : Dev) : Dev :=
  if running d && yardOn d && !((on d 0x601 0).testBit 1) && !(yardMissing d).isEmpty && decide (120000 ≤ startMs d) then startLate 9 d else d

/-! ### The management watchdog (R497) -/

/-- MGMT_KICK. -/
def mgmtKick (core : Nat) (d : Dev) : Dev :=
  if running d && decide (core < 4) then modStart (fun s => { s with kicked := setAt s.kicked core true }) d else d

/-- Kicks at a major-frame boundary token: a core missed at two in a row is found stalled. -/
def kickToken (d : Dev) : Dev :=
  let m := (d.startup.missed.zip d.startup.kicked).map (fun p => if p.2 then 0 else p.1 + 1)
  let st := match d.startup.stalled with
    | some c => some c
    | none => (List.range 4).find? (fun c => decide (2 ≤ m.getD c 0))
  modStart (fun s => { s with missed := m, kicked := [false, false, false, false], stalled := st }) d

/-- The management cluster restarts alone: its sessions and transfers end, yard routes are computed again (R504). -/
def mgmtRestartNow (core : Nat) (d : Dev) : Dev :=
  let d := endSessions { d with yard := { d.yard with routes := [] } }
  let d := modUpd (fun u => { u with dwell := 0 }) d
  let d := modStart (fun s => { s with stalled := none, missed := [0, 0, 0, 0], kicked := [false, false, false, false]
                                       restarts := s.t :: s.restarts.filter (fun r => decide (s.t < r + 60000000000)) }) d
  monRelock (raise 0x0C01 core 0 (put 0x602 2 d.time.micro (incr 32 0x602 1 (setStatus 0x601 0 4 d))))

/-- MGMT_RESTART: the cluster restarts, or the device where it stalls again within 10 s or for the third time within 60 s. -/
def mgmtRestart (d : Dev) : Dev :=
  match d.startup.stalled with
  | none => d
  | some c =>
    if !(running d) then d
    else
      let near := d.startup.restarts.filter (fun r => decide (d.startup.t < r + 60000000000))
      if near.any (fun r => decide (d.startup.t < r + 10000000000)) || decide (2 ≤ near.length) then
        watchdogRestart (modStart (fun s => { s with wdog := true }) d)
      else mgmtRestartNow c d

end Sys2Proof.Machine
end

