-- ==== Sys2Proof/Machine/Effects.lean ====
section
/-! DEFINITION. What a committed write does when it takes effect: a banked value and what hangs on it, a WO command, a W1C
clear, the swap of a frame level, restore-factory (R35, R37, R95, R102, R506). -/

namespace Sys2Proof.Machine

/-! ### Control levels (R101, R102) -/

/-- The objects of a stage, a stage group, a connector or the device that carry EXPERT, by control-level group. -/
def expertObjs (g : Nat) : List Nat :=
  match g with
  | 1 => (List.range 32).flatMap (fun s => [oStg s 1, oStg s 2, oStg s 3, oStg s 4] ++
      (List.range 4).flatMap (fun j => [oGrp s j 4, oGrp s j 5, oGrp s j 8, oGrp s j 0x1B, oGrp s j 0x1C]))
  | 2 => (List.range 32).map (fun s => oStg s 0x101)
  | 3 => [0x1004, 0x100A]
  | 5 => (List.range 64).map (fun c => oCon c 0x45)
  | _ => []

/-- The object number carries EXPERT in a control-level group. -/
def isExpertOf (g num : Nat) : Bool :=
  match findObj num with
  | some p => p.1.expert && p.1.group == g
  | none => false

/-- Every subindex of an object takes its default. -/
def defaultObj (num : Nat) (d : Dev) : Dev :=
  forEach (d.os.cur.filter (fun p => p.1 / 256 == num)) (fun p d => { d with os := putV d.os p.1 (dfltOf p.1) }) d

/-- A group returns to basic: its expert objects take their basic source, a derivation or their default (R102, R167); where
STG.COEF_SEL changes by that it is a COEF_SWAP (R182). -/
def toBasic (g : Nat) (d : Dev) : Dev :=
  let sel := (List.range 32).map (fun s => (s, on d (oStg s 1) 0))
  let d := forEach ((expertObjs g).filter (fun n => d.os.cur.any (fun p => p.1 / 256 == n))) defaultObj d
  if g = 1 then forEach (stagesBound d) deriveAll (forEach sel (fun p => coefSwap p.1 p.2) d) else d

/-- The groups that the pending writes of SYS.CTRL_LEVEL take back to basic. -/
def basicNext (d : Dev) (ps : List Pend) : List Nat :=
  (ps.filter (fun p => p.num == 0x020 && expertLevel d p.sub && valNat p.val == 0)).map (·.sub)

/-! ### Values (R95, R36) -/

/-- What follows from a value of the object numbers below the blocks. -/
def devHook (num sub : Nat) (old new : Val) (d : Dev) : Dev :=
  if num = 0x100B then (if old = new then d else clrStatus 0x1012 0 8 d)
  else if num = 0x1008 then put 0x1008 2 0 d
  else if 0x3000 ≤ num ∧ num < 0x3004 then fbConfig (num - 0x3000) d
  else if num = 0x3014 then pointsChanged (valBytes old) d
  else if num = 0x3100 then (if oflag d 0x3100 1 then d else clrStatus 0x3102 0 0 d)
  else if num = 0x3101 then (if old = new then d else forgetMaps d)
  else if 0x2008 ≤ num ∧ num < 0x200C then pulseConfig (num - 0x2008) d
  else if (0x2001 ≤ num ∧ num < 0x2003) ∨ (0x2010 ≤ num ∧ num < 0x2020) ∨ (0x2040 ≤ num ∧ num < 0x2080) ∨
      (0x2204 ≤ num ∧ num < 0x2208) then
    legalChanged num sub (((findObj num).bind (fun p => findSub p.1 sub)).map (fun s => tySize s.ty) |>.getD 0) old new d
  else d

/-- What follows from a value that has just been put into force. -/
def valueHook (num sub : Nat) (old new : Val) (d : Dev) : Dev :=
  match locate num with
  | none => d
  | some l =>
    match l.blk with
    | .dev => devHook num sub old new d
    | .stg =>
      if l.off = 1 then coefSwap l.inst (valNat old) d
      else if 5 ≤ l.off ∧ l.off ≤ 7 then (if expertLevel d 1 then d else deriveStage l.inst d)
      else d
    | .grp =>
      if l.off = 6 ∨ l.off = 9 then (if expertLevel d 1 then d else deriveGroup l.inst l.sub d) else d
    | .ses =>
      if l.off = 6 then sesDelta l.inst (sesAuthEffect l.inst d)
      else if l.off = 7 ∨ l.off = 9 then sesDelta l.inst d
      else d
    | .yard => if 8 ≤ l.off ∧ sub = 1 then pointWritten l.inst (l.off - 8) d else d
    | _ => d

/-- Put a committed value into force. A write to TIME.NOW waits for the next minor-frame boundary (R46). -/
def applyValue (p : Pend) (d : Dev) : Dev :=
  let k := okey p.num p.sub
  let old := storeGet d.os.cur k
  if p.num = 0x188 then { d with time := { d.time with civilStep := some (valNat p.val) } }
  else valueHook p.num p.sub old p.val { d with os := putV d.os k p.val }

/-! ### Commands (R13, R95) -/

/-- REF_LOSS is cleared, and the PLL returns to REFCLK, only while REF_OK reads 1 (R27, R48): at the write, which loses its bit
2 otherwise (`entered`), and still at the boundary where the clear takes effect. -/
def timeStatusClear (m : Nat) (d : Dev) : Dev :=
  let w := on d 0x185 0
  if m.testBit 2 && w.testBit 2 && w.testBit 0 then
    put 0x185 0 (clearMask w m) { d with time := { d.time with src := .refclk } }
  else put 0x185 0 (clearMask w (clearBit m 2)) d

/-- TIME.ADJUST: a new offset replaces what remains of the last one (R46). -/
def timeAdjust (off : Int) (d : Dev) : Dev := { d with time := { d.time with slew := off * 10000 } }

/-- The confirmation of a life-cycle change (R480); a change requested locks the monitor (R546). -/
def lcWrite (sub : Nat) (v : Val) (d : Dev) : Dev :=
  if sub = 1 then { d with keys := { d.keys with lcT := valNat v } }
  else if sub = 2 then { d with keys := { d.keys with lcU := valNat v } }
  else
    let e := lcRequest d.keys.lcT d.keys.lcU d
    if e.keys.lcReq.isSome && d.keys.lcReq.isNone then monRelock e else e

/-- UPD.BEGIN and UPD.ACTIVATE act on their last subindex. -/
def updArg (d : Dev) (num sub : Nat) : Nat := valNat ((alGet d.update.args (okey num sub)).getD (.num 0))

def updStageArg (num sub : Nat) (v : Val) : Dev → Dev := modUpd (fun u => { u with args := alSet u.args (okey num sub) v })

/-- KEY.ROLL: a new network key is preceded by LEAVE under the old one (R488). -/
def keyRollEffect (m : Nat) (d : Dev) : Dev := keyRoll m (if m.testBit 8 then yardLeaveAll d else d)

/-- REC.FORMAT: only the value 1 formats. -/
def formatEffect (v : Nat) (d : Dev) : Dev := if v = 1 then storeFormat d else d

/-- PAIR.SWITCH: the value written is 1; a mirrored request carries H and its cause (R470, R472). -/
def switchEffect (v role : Nat) (d : Dev) : Dev := if 256 ≤ v then switchSet v d else if v = 1 then requestSwitch 1 role .none d else d

/-- A W1C clear of plain bits. -/
def clearBits (num sub m : Nat) (d : Dev) : Dev := if on d num sub &&& m = 0 then d else put num sub (clearMask (on d num sub) m) d

/-- Commands of the object numbers below the blocks. -/
def devCmd (p : Pend) (d : Dev) : Dev :=
  let v := valNat p.val
  match p.num with
  | 0x185 => timeStatusClear v d
  | 0x189 => timeAdjust (toS 64 v) d
  | 0x286 => dieThermClear v d
  | 0x318 => sesKeyRoll v d
  | 0x405 => switchEffect v p.role d
  | 0x501 => lcWrite p.sub p.val d
  | 0x504 => keyRollEffect v d
  | 0x701 => if p.sub = 3 then updBegin (updArg d 0x701 1) (updArg d 0x701 2) (valBytes p.val) d else updStageArg 0x701 p.sub p.val d
  | 0x702 => updPiece p.role (valBytes p.val) d
  | 0x705 => if p.sub = 2 then updActivate (updArg d 0x705 1) (decide (v ≠ 0)) d else updStageArg 0x705 p.sub p.val d
  | 0x708 => updReject v d
  | 0x101F => forEach (bitsSet 4 v) (fun t => nodeClear (64 + t)) d
  | 0x220A => if v = 1 then periodClose d else d
  | 0x300C => discStartMask v d
  | 0x3105 => yardForget v d
  | 0x3210 => dmaCtrl v d
  | 0x3304 => formatEffect v d
  | 0x3331 => recTrigger v d
  | n =>
    if (0x508 ≤ n ∧ n < 0x50C) ∨ n = 0x510 ∨ n = 0x511 ∨ (0x520 ≤ n ∧ n < 0x530) then keyInstall n (valBytes p.val) (if n = 0x510 then yardLeaveAll d else d)
    else clearBits n p.sub v d

/-- A committed command acts. A command that has nothing to act on does nothing (R95). -/
def applyCmd (p : Pend) (d : Dev) : Dev :=
  let v := valNat p.val
  match locate p.num with
  | none => d
  | some l =>
    match l.blk with
    | .dev => devCmd p d
    | .stg =>
      if l.off = 0x0C then scClearEffect l.inst v d
      else if l.off = 0x106 then shortClearEffect l.inst v d
      else if l.off = 0x180 then stgSeqClear l.inst v d
      else if l.off = 0x1C3 then stgThermClear l.inst v d
      else clearBits p.num p.sub v d
    | .con =>
      if l.off = 0x35 then (if v = 1 then nodeClear l.inst d else d)
      else if l.off = 0x48 then conThermClear l.inst v d
      else d
    | .lch =>
      if l.off = 4 then lchClear l.inst v d
      else if v.testBit 6 then modLch l.inst (fun x => { x with clamp := false }) (clearBits p.num p.sub 64 d)
      else d
    | .ses => sesStopEffect l.inst v d
    | _ => d

/-! ### Restore-factory (R506) -/

/-- A session context is in states 2 to 9. -/
def sessionOpen (d : Dev) : Bool := (List.range 256).any (fun n => decide (2 ≤ sesState d n) && decide (sesState d n ≤ 9))

/-- The restore at its major-frame boundary. -/
def restoreFactory (d : Dev) : Dev :=
  if anyRun d || sessionOpen d then raise 0x0804 noInst 1 d
  else
    let ks := (d.os.cur.map (·.1)).filter userConfig
    let ks := ks ++ ((stagesBound d).map (fun s => okey (oStg s 0x10) 0)).filter (fun k => !(ks.contains k))
    let d := { d with os := { d.os with pend := d.os.pend.filter (fun p => p.cmd || !(userConfig (okey p.num p.sub))) } }
    let groups := (List.range 14).filter (fun g => expertLevel d g)
    let d := forEach ks (fun k d =>
      let old := storeGet d.os.cur k
      valueHook (k / 256) (k % 256) old (dfltAt d k) { d with os := putV d.os k (dfltAt d k) }) d
    let d := forEach groups toBasic d
    let d := forEach (stagesBound d) (fun s d => deriveAll s
      (forEach (List.range (stageE d s).groups) (deriveI2t s) d)) d
    modStart (fun s => { s with factoryNor := true }) (stopRings (List.range 16) d)

/-! ### The swap of a frame level (R23, R35 to R38) -/

/-- A ring's new size waits while the ring holds a posted descriptor (R421). -/
def ringWaits (d : Dev) (p : Pend) : Bool :=
  !p.cmd && decide (0x3200 ≤ p.num) && decide (p.num < 0x3210) && !((ring d (p.num - 0x3200)).q.isEmpty)

/-- The pending entry of O:num.sub that is a value. -/
def pendVal (d : Dev) (num sub : Nat) : Option Val :=
  (d.os.pend.find? (fun p => !p.cmd && p.num == num && p.sub == sub)).map (·.val)

/-- One entry takes effect. -/
def applyPend (p : Pend) (d : Dev) : Dev :=
  if p.cmd then (if p.num = 0x603 then restoreFactory d else applyCmd p d) else applyValue p d

/-- The entries of the levels named take effect, in commit order. A group that returns to basic first loses the pending
writes of its expert objects, and takes its basic source last (R102). -/
def applyLevels (ls : List Nat) (d : Dev) : Dev :=
  let due := d.os.pend.filter (fun p => ls.contains p.level && !(ringWaits d p))
  if due.isEmpty then d
  else
    let back := basicNext d due
    let drop := fun (p : Pend) => back.any (fun g => isExpertOf g p.num)
    let rest := d.os.pend.filter (fun p => !(ls.contains p.level && !(ringWaits d p)) && !(drop p))
    let d := { d with os := { d.os with pend := rest } }
    forEach back toBasic (forEach (due.filter (fun p => !(drop p))) applyPend d)

/-- The entry is a W1C clear. -/
def isClearing (p : Pend) : Bool :=
  p.cmd && (match findObj p.num with
    | some (o, _) => (match findSub o p.sub with
      | some s => subAcc o s == .w1c || subAcc o s == .roW1c
      | none => false)
    | none => false)

/-- The W1C clears that are due take effect ahead of everything that a boundary token sets, so that a bit whose condition recurs
at that token stays set (R13, R95; that a recurrence before the token is covered by the clear: DEDUCED, log entry 36). -/
def applyClears (d : Dev) : Dev :=
  let due := d.os.pend.filter (fun p => decide (p.level = 1) && isClearing p)
  if due.isEmpty then d
  else forEach due applyPend { d with os := { d.os with pend := d.os.pend.filter (fun p => !(decide (p.level = 1) && isClearing p)) } }

/-! ### Commit (R96) -/

/-- The frame level of a write: that of a banked object; the micro-frame for a clear or command of the control or data
plane; 0, at once, for the management plane, unless the object's chapter names a level (R92, R95). -/
def writeLevel (o : ObjD) (a : Acc) : Nat :=
  match a with
  | .rwb => o.level
  | .rw => 0
  | _ => if o.acc == .rwb then 0 else if o.level ≠ 0 then o.level else if o.plane = .m then 0 else 1

/-- A write is entered: the value replaces a pending one of the same subindex, a command is an entry of its own; what has no
level takes effect at once. Each subindex of a record has an entry of its own: DESIGN CHOICE (log entry 60), R37 does not say. -/
def enterWrite (p : Pend) (d : Dev) : Dev :=
  if p.level = 0 then applyPend p d
  else
    let rest := if p.cmd then d.os.pend else d.os.pend.filter (fun q => q.cmd || q.num != p.num || q.sub != p.sub)
    { d with os := { d.os with pend := rest ++ [p] } }

end Sys2Proof.Machine
end

