-- ==== Sys2Proof/Machine/Admit.lean ====
section
/-! DEFINITION. Admission (R97, R585): the checks of an access in their order, the reading of a value, and the two ways of a
write: through the pair or straight into the object store (R96, R464). A check answers an abort code of R378; 0 admits. -/

namespace Sys2Proof.Machine

/-! ### Abort codes (R378) -/

def aUnassigned : Nat := 1
def aNoSub : Nat := 2
def aAccess : Nat := 4
def aRole : Nat := 5
def aLevel : Nat := 6
def aLength : Nat := 7
def aRange : Nat := 8
def aState : Nat := 9
def aBusy : Nat := 10
def aStandby : Nat := 0x010A

/-- The first check that fails decides. -/
def firstCode : List Nat → Nat
  | [] => 0
  | c :: l => if c = 0 then firstCode l else c

/-- A code where a condition does not hold. -/
def need (c : Bool) (code : Nat) : Nat := if c then 0 else code

/-! ### What is pending (R37, R464) -/

/-- The entries that wait: in the object store, and in the pair's queue. -/
def allPend (d : Dev) : List Pend :=
  d.os.pend ++ (d.pair.sendingW.map (·.pend)) ++ (d.pair.queue.map (·.pend))

/-- The value that O:num.sub has in force or pending. -/
def nextVal (d : Dev) (num sub : Nat) : Val :=
  (((allPend d).reverse.find? (fun p => !p.cmd && p.num == num && p.sub == sub)).map (·.val)).getD (ov d num sub)

/-- The record value as it will stand when the write of `v` to O:num.sub takes effect (R585). -/
def asWritten (d : Dev) (num sub : Nat) (v : Nat) (n s : Nat) : Nat :=
  if n = num ∧ s = sub then v else valNat (nextVal d n s)

/-- The object, in force or pending, has a value. -/
def namedBank (d : Dev) (sel : Nat) (k : Nat) : Bool := on d sel 0 == k || valNat (nextVal d sel 0) == k

/-! ### The subindex as this device has it (R273, R382, R417) -/

/-- The type of a point's VALUE by its code. -/
def pointTy : Nat → Ty
  | 1 => .bool | 2 => .u8 | 3 => .u16 | 7 => .s16 | 8 => .s32 | 0xA => .q16 | _ => .u32

/-- The type of a VALUE subindex: that of the entry of FB.POINTS. -/
def effTy (d : Dev) (num sub : Nat) (s : SubD) : Ty :=
  if 0x1C000 ≤ num ∧ sub = 1 then
    match pointAt (ob d 0x3014 0) (num - 0x1C000) with
    | some p => pointTy p.ty
    | none => s.ty
  else s.ty

/-- A point object exists where FB.POINTS defines it (R382). -/
def assigned (d : Dev) (num : Nat) : Bool := decide (num < 0x1C000) || (pointAt (ob d 0x3014 0) (num - 0x1C000)).isSome

/-- The access code in force: a load channel or point that a slot owns, and an input, are read only. -/
def effAcc (d : Dev) (num sub : Nat) (o : ObjD) (s : SubD) : Acc :=
  match locate num with
  | some l =>
    if l.blk = .lch ∧ l.off = 0 ∧ controlOwned d l.inst then .ro
    else if 0x1C000 ≤ num ∧ sub = 1 ∧
        (pointOwned d (num - 0x1C000) || (((pointAt (ob d 0x3014 0) (num - 0x1C000)).map (·.isIn)).getD true)) then .ro
    else if l.blk = .yard ∧ 8 ≤ l.off ∧ sub = 1 ∧ on d num 2 = 1 then .ro
    else subAcc o s
  | none => subAcc o s

/-- The owning plane in force: a load channel or an output point that a slot owns belongs to the control plane (R273, R382). -/
def effPlane (d : Dev) (num : Nat) (o : ObjD) : Plane :=
  match locate num with
  | some l => if (l.blk = .lch ∧ l.off = 0 ∧ controlOwned d l.inst) ∨ (0x1C000 ≤ num ∧ pointOwned d (num - 0x1C000)) then .c else o.plane
  | none => o.plane

/-- The descriptor as in force (R91, R273, R382): no write right is ever granted to what a slot or an input writes (R94). -/
def effDescriptor (d : Dev) (num sub : Nat) (o : ObjD) (s : SubD) : Bytes :=
  let owned := effAcc d num sub o s == .ro && subAcc o s != .ro
  descriptor { o with plane := effPlane d num o, wr := if owned then 0 else o.wr } { s with
    ty := effTy d num sub s, ro := s.ro || effAcc d num sub o s == .ro
    d := match dfltAt d (okey num sub) with | .num n => n | .bytes _ => s.d }

/-! ### Range (check 8) -/

/-- A number lies in the range of its type and subindex. -/
def numOk (ty : Ty) (s : SubD) (v : Nat) : Bool :=
  let i : Int := if tySigned ty then toS (8 * tySize ty) v else v
  (match ty with | .bool => decide (v ≤ 1) | _ => true) &&
    (match s.mn with | some m => decide (m ≤ i) | none => true) && (match s.mx with | some m => decide (i ≤ m) | none => true)

/-- Baud rates of the monitor (R542). -/
def baudOk (v : Nat) : Bool := [115200, 230400, 460800, 921600, 1500000, 3000000].contains v

/-- The conditions of a class record (R252). -/
def thermOk (w : Nat → Nat) : Bool :=
  let s := fun k => toS 16 (w k)
  decide (s 1 + w 4 ≤ s 2) && decide (s 2 + w 4 ≤ s 3)

/-- The basic objects of a stage and its groups: bandwidths and derived coefficients (R167). -/
def basicOk (d : Dev) (s : Nat) (w : Nat → Nat → Nat) : Bool :=
  let t := tNs d
  let fc := w (oStg s 7) 0
  decide (fc * t * 10 ≤ 1000000000) &&
    basicPhaseOk fc (toS 32 (w (oStg s 6) 0)) (toS 32 (w (oStg s 5) 0)) t &&
    (List.range (stageE d s).groups).all (fun g =>
      let b := oGrp s g 6
      decide (5 * w b 1 ≤ fc) && decide (w b 2 ≤ w b 1) &&
        basicLoopsOk (w b 1) (w b 2) (toS 32 (w b 3)) (toS 32 (w b 4)) t)

/-- The conditions of one group's BASIC against its stage. -/
def groupBasicOk (d : Dev) (s g : Nat) (w : Nat → Nat → Nat) : Bool :=
  let b := oGrp s g 6
  decide (5 * w b 1 ≤ w (oStg s 7) 0) && decide (w b 2 ≤ w b 1) &&
    basicLoopsOk (w b 1) (w b 2) (toS 32 (w b 3)) (toS 32 (w b 4)) (tNs d)

/-- A record's lower bound does not exceed its upper one. -/
def leQ (w : Nat → Nat) (a b : Nat) : Bool := decide (toS 32 (w a) ≤ toS 32 (w b))

/-- No two bits of EST_PERMIT lie in one group (R193). -/
def estOk (d : Dev) (s m : Nat) : Bool :=
  (List.range (stageE d s).groups).all (fun g => decide (popCount 32 (m &&& phaseMask (stageE d s) g) ≤ 1))

/-- REC.LAYOUT_NEXT leaves the session log its least size (R433). -/
def recLayoutOk (d : Dev) (w : Nat → Nat) : Bool :=
  let cap := on d 0x3301 1 / 2 ^ 20
  decide (cap = 0) || decide (256 ≤ sessionMiB cap (w 1) (w 3) (w 4))

/-- Conditions of objects below the blocks. -/
def devRange (d : Dev) (role num sub : Nat) (v : Val) (w : Nat → Nat → Nat) : Bool :=
  let n := valNat v
  let b := valBytes v
  let r := w num
  if num = 0x2001 ∨ num = 0x2002 then sub != 1 || n == 50 || n == 60
  else if 0x2040 ≤ num ∧ num < 0x2080 then n == 0 || decide (65536 ≤ n)
  else if num = 0x2206 then [1, 2, 3, 5, 10, 15, 20, 30, 60].contains n
  else if num = 0x2205 then sub != 2 || decide (toS 16 n % 15 = 0)
  else if 0x3000 ≤ num ∧ num < 0x3004 then rateOk (r 2) (r 3) && (sub != 7 || n == 0 || featOn d 4)
  else if num = 0x3014 then pointsOk d b
  else if num = 0x3101 then maskOk b
  else if num = 0x3105 then forgetOk d n
  else if num = 0x100C ∨ num = 0x100D then matrixOk d (img? d) b
  else if 0x3200 ≤ num ∧ num < 0x3210 then sub != 1 || ringSizeOk (num - 0x3200) n
  else if num = 0x3210 then dmaCtrlOk n
  else if num = 0x3303 then recLayoutOk d r
  else if num = 0x3400 then sub != 1 || baudOk n
  else if num = 0x512 then !b.isEmpty
  else if num = 0x311 ∨ num = 0x313 ∨ num = 0x315 ∨ num = 0x317 then b.isEmpty || chainOk d ((num - 0x311) / 2) b
  else if num = 0x504 then decide (n < 512)
  else if num = 0x501 then sub != 3 || lcCheck d d.keys.lcT role b (anyRun d) != 3
  else if (0x508 ≤ num ∧ num < 0x50C) ∨ num = 0x510 ∨ num = 0x511 ∨ (0x520 ≤ num ∧ num < 0x530) then b.any (· != 0)
  else if 0x530 ≤ num ∧ num < 0x540 then
    pubCheck d (num - 0x530) sub (if sub = 1 then natLe 1 n else b) != 3
  else if num = 0x603 then b == (sha256 (ob d 0x003 0 ++ ascii "FACTORY")).take 8
  else if num = 0x701 then
    if sub = 3 then updBeginCheck d (updArg d 0x701 1) (updArg d 0x701 2) != 8
    else if sub = 2 then [1024, 2048, 4096, 8192, 16384, 32768, 65536].contains n else true
  else if num = 0x702 then updPieceCheck d b != 8
  else if num = 0x705 then if sub = 1 then [0, 1, 0xFF].contains n else updActivateCheck d (updArg d 0x705 1) (decide (n ≠ 0)) != 8
  else if num = 0x708 then updRejectCheck d n != 8
  else if num = 0x1007 then decide (r 1 < r 2)
  else if 0x280 ≤ num ∧ num < 0x283 then thermOk r
  else if num = 0x283 then thermOk r
  else true

/-- Conditions of the value and between the subindices of its record (R585). -/
def valueOk (d : Dev) (role num sub : Nat) (v : Val) : Bool :=
  let n := valNat v
  let w := asWritten d num sub n
  let r := w num
  match locate num with
  | none => true
  | some l =>
    match l.blk with
    | .dev => devRange d role num sub v w
    | .stg =>
      if l.off = 2 ∨ l.off = 3 then leQ r 6 7
      else if l.off = 4 then decide (toS 32 (r 1) < toS 32 (r 2))
      else if 5 ≤ l.off ∧ l.off ≤ 7 then basicOk d l.inst w
      else if l.off = 8 then n == 0 || (decide (1000 ≤ n) && decide (n ≤ 327670))
      else if l.off = 0x10 then n == 0 || decide ((stageE d l.inst).phases ≤ 6)
      else if l.off = 0x11 then decide (r 1 < r 2)
      else if l.off = 0x101 then estOk d l.inst n
      else true
    | .grp =>
      if l.off = 4 ∨ l.off = 5 then (List.range 6).all (fun j => leQ r (3 + 4 * j) (4 + 4 * j))
      else if l.off = 6 then groupBasicOk d l.inst l.sub w
      else if l.off = 9 then decide (toS 32 (r 2) < toS 32 (r 1)) && decide (toS 32 (r 1) < toS 32 (r 3))
      else if l.off = 0x1B ∨ l.off = 0x1C then (List.range 6).all (fun j => leQ r (3 + 5 * j) (4 + 5 * j))
      else true
    | .con =>
      if l.off = 0x45 then leQ r 3 4 && leQ r 7 8
      else if l.off = 0x50 then leQ r 4 3
      else true
    | .ses => l.off != 7 || decide (n ≤ 3) || n == 0xFF
    | _ => true

/-! ### State (check 9) -/

/-- MET.AC_CFG, MET.AC_CAL and MET.DC_CFG, the legal parameters (R314). -/
def legalParam (num : Nat) : Bool :=
  (decide (0x2001 ≤ num) && decide (num < 0x2003)) || (decide (0x2010 ≤ num) && decide (num < 0x2020)) ||
    (decide (0x2040 ≤ num) && decide (num < 0x2080))

/-- Conditions that do not depend on the value, of objects below the blocks. -/
def devFixed (d : Dev) (role num : Nat) : Bool :=
  if legalParam num then
    sealOpen d && !((on d 0x2200 0).testBit 8)
  else if 0x2204 ≤ num ∧ num < 0x2208 then !((on d 0x2200 0).testBit 8)
  else if num = 0x100C ∨ num = 0x100D then !(namedBank d 0x100B (num - 0x100C))
  else if num = 0x3304 then formatOk d role
  else if (0x508 ≤ num ∧ num < 0x50C) ∨ num = 0x510 ∨ num = 0x511 ∨ (0x520 ≤ num ∧ num < 0x530) then
    keyWriteCheck d num role (sessionOpen d) != 2
  else if num = 0x603 then !(anyRun d) && !(sessionOpen d)
  else true

/-- Conditions that depend on the value, of objects below the blocks. -/
def devState (d : Dev) (role num sub : Nat) (v : Val) : Bool :=
  let n := valNat v
  let b := valBytes v
  if num = 0x206 then decide (8 ≤ n) || !(((img? d).map (fun i => i.flags.testBit 0)).getD false)
  else if num = 0x286 then !(n.testBit 0) || dieThermClearOk d
  else if num = 0x101F then (bitsSet 4 n).all (fun t => nodeClearOk d (64 + t))
  else if num = 0x3100 then sub != 1 || n == 0 || (ringSize d 10 != 0 && !d.yard.vplcLow)
  else if num = 0x405 then decide (n ≠ 1) || switchOk d
  else if num = 0x501 then sub != 3 || lcCheck d d.keys.lcT role b (anyRun d) != 2
  else if num = 0x504 then rollCheck d n role != 2
  else if 0x530 ≤ num ∧ num < 0x540 then pubCheck d (num - 0x530) sub (if sub = 1 then natLe 1 n else b) != 2
  else if num = 0x701 then sub != 3 || updBeginCheck d (updArg d 0x701 1) (updArg d 0x701 2) != 9
  else if num = 0x702 then updPieceCheck d b != 9
  else if num = 0x705 then sub != 2 || updActivateCheck d (updArg d 0x705 1) (decide (n ≠ 0)) != 9
  else if num = 0x708 then updRejectCheck d n != 9
  else true

/-- The state conditions of the chapters that do not depend on the value. -/
def stateFixed (d : Dev) (role num _sub : Nat) : Bool :=
  match locate num with
  | none => true
  | some l =>
    let i := l.inst
    match l.blk with
    | .dev => devFixed d role num
    | .stg => !(decide (l.off = 2 ∨ l.off = 3)) || !(namedBank d (oStg i 1) (l.off - 2))
    | .grp =>
      if l.off = 4 ∨ l.off = 5 then !(namedBank d (oStg i 1) (l.off - 4))
      else if l.off = 0x1B ∨ l.off = 0x1C then !(namedBank d (oStg i 1) (l.off - 0x1B))
      else true
    | .con => true
    | .ses =>
      if l.off = 6 then sesState d i == 3
      else if l.off = 8 then decide (2 ≤ sesState d i) && decide (sesState d i ≤ 7)
      else true
    | .lch => l.off != 0 || (((img? d).isSome || (on d 0x4002 0).testBit i) && !(d.lch.unfitted.contains (i / 8)))
    | .yard => true

/-- The state conditions of the chapters that depend on the value. -/
def stateValue (d : Dev) (role num sub : Nat) (v : Val) : Bool :=
  let n := valNat v
  match locate num with
  | none => true
  | some l =>
    let i := l.inst
    match l.blk with
    | .dev => devState d role num sub v
    | .stg =>
      if l.off = 0x0C then !(maskCarries d i n)
      else if l.off = 0x102 then !(maskCarries d i (asWritten d num sub n num 1))
      else if l.off = 0x106 then !((bitsSet 4 n).any (fun g => groupCarries d i g)) && !(stageThermal d i)
      else if l.off = 0x180 then stgSeqClearOk d i n
      else if l.off = 0x1C3 then !(n.testBit 0) || stgThermClearOk d i
      else true
    | .con =>
      if l.off = 0x35 then decide (n ≠ 1) || nodeClearOk d i
      else if l.off = 0x48 then conThermClearOk d i n
      else true
    | .ses => if l.off = 9 then n == 0 || ((on d (oSes i 2) 0 == 4 || on d (oSes i 2) 0 == 6) && sesState d i != 0) else true
    | .lch => if l.off = 4 then lchClearOk d i n else true
    | _ => true

/-- The state conditions that the chapters state. -/
def stateOk (d : Dev) (role num sub : Nat) (v : Val) : Bool := stateFixed d role num sub && stateValue d role num sub v

/-! ### Roles and levels (checks 5 and 6) -/

/-- The role may write this value: the object's right, and what its chapter adds (R107, R480, R484, R487). -/
def roleOk (d : Dev) (role num : Nat) (o : ObjD) (sub : Nat) (v : Bytes) : Bool :=
  o.wr.testBit role &&
    (if num = 0x011 then leNat v == on d 0x011 0 || role == 1 || role == 3
     else if num = 0x504 then rollCheck d (leNat v) role != 1
     else if num = 0x501 then sub != 3 || !(lcKnown (lcState d) d.keys.lcT) || lcAllowed (lcState d) d.keys.lcT role
     else if (0x508 ≤ num ∧ num < 0x50C) ∨ (0x520 ≤ num ∧ num < 0x530) then keyWriteCheck d num role false != 1
     else true)

/-- An expert object needs its group at the expert level in force, and no change to basic pending (R102). -/
def levelOk (d : Dev) (o : ObjD) : Bool :=
  !o.expert || (expertLevel d o.group && !((allPend d).any (fun p => p.num == 0x020 && p.sub == o.group && valNat p.val == 0)))

/-! ### The checks in order (R97) -/

/-- Objects that each unit of a pair writes on its own (R464). -/
def ownWrite (num : Nat) : Bool :=
  num == 0x204 || (decide (0x3320 ≤ num) && decide (num < 0x3328)) || num == 0x3304 || num == 0x3331 || num == 0x3210

/-- The value of written bytes. -/
def parseVal (ty : Ty) (v : Bytes) : Val := if tyBytes ty then .bytes v else .num (leNat v)

/-- The length matches (check 7); an installed key is 32 bytes (R484). -/
def lengthOk (num : Nat) (ty : Ty) (v : Bytes) : Bool :=
  if 0x508 ≤ num ∧ num < 0x530 ∧ num ≠ 0x512 then v.length == 32
  else if num = 0x702 then decide (v.length ≤ 65544)
  else if tyVar ty then decide (v.length ≤ tySize ty) else v.length == tySize ty

/-- A piece of an update package has its own length rule (R515). -/
def pieceLength (d : Dev) (num : Nat) (v : Bytes) : Bool := num != 0x702 || updPieceCheck d v != 7

/-- Room for one more pending entry of the level (check 10, R37): a banked write may replace its own. A pending W1C
clear counts as an entry like a command: DESIGN CHOICE (log entry 60), R37 and R95 name banked writes and WO commands only. -/
def roomOk (d : Dev) (num sub level : Nat) (cmd : Bool) : Bool :=
  decide (level = 0) || (!cmd && (allPend d).any (fun p => !p.cmd && p.num == num && p.sub == sub)) ||
    decide (((allPend d).filter (fun p => p.level == level)).length < 1024)

/-- Admission of a read: the object, the subindex, the access kind, the role, state and busy (R97, R88, R421, R491). -/
def readCheck (d : Dev) (role num sub : Nat) : Nat :=
  match findObj num with
  | none => aUnassigned
  | some (o, _) =>
    if !(assigned d num) then aUnassigned
    else match findSub o sub with
    | none => aNoSub
    | some s =>
      if subAcc o s = .wo then aAccess
      else if !(o.rd.testBit role) && num != 0x542 then aRole
      else if num = 0x542 ∧ !(initSvcReadable d role) then aState
      else if 0x3328 ≤ num ∧ num < 0x3330 ∧ (ringSize d 14 = 0 ∨ !(ringIdle d 14)) then aState
      else if 0x2100 ≤ num ∧ num < 0x2142 ∧ recalcing d (num - 0x2100) sub then aBusy
      else 0

/-- The value that a write enters: a clear of REF_LOSS has no effect while REF_OK reads 0 (R27, R48). -/
def entered (d : Dev) (num : Nat) (v : Val) : Val :=
  if num = 0x185 ∧ !((on d 0x185 0).testBit 0) then .num (clearBit (valNat v) 2) else v

/-- Admission of a write: an abort code, or the entry it makes. -/
def writeCheck (d : Dev) (role num sub : Nat) (v : Bytes) : Nat × Pend :=
  let no := fun c => (c, (default : Pend))
  match findObj num with
  | none => no aUnassigned
  | some (o, _) =>
    if !(assigned d num) then no aUnassigned
    else match findSub o sub with
    | none => no aNoSub
    | some s =>
      let a := effAcc d num sub o s
      let ty := effTy d num sub s
      let isClear := a == .w1c || a == .roW1c
      let cmd := a == .wo || isClear
      let level := writeLevel o a
      let val := parseVal ty v
      let code := firstCode [
        need (a != .ro && a != .lro && (!isClear || clearMask (leNat v) s.w1c == 0)) aAccess,
        need (roleOk d role num o sub v) aRole,
        need (levelOk d o) aLevel,
        need (lengthOk num ty v && pieceLength d num v) aLength,
        need ((tyBytes ty || numOk ty s (valNat val)) && valueOk d role num sub val) aRange,
        need (stateOk d role num sub val) aState,
        need (roomOk d num sub level cmd && !(decide (0x2100 ≤ num) && decide (num < 0x2142) && recalcing d (num - 0x2100) sub)) aBusy]
      (code, { num := num, sub := sub, val := entered d num val, level := level, cmd := cmd, role := role })

/-! ### Reading (R110 to R112, R444) -/

/-- SYS.PENDING of a level. -/
def pendCount (d : Dev) (level : Nat) : Nat := (d.os.pend.filter (fun p => p.level == level)).length

/-- SYS.EVENT_WINDOW: 64 records of 32 bytes, newest first. -/
def windowBytes (d : Dev) : Bytes := padTo 2048 (d.ev.window.flatMap evBytes)

/-- The bytes of a value of a type. -/
def valOut (ty : Ty) (v : Val) : Bytes := if tyBytes ty then valBytes v else natLe (tySize ty) (valNat v)

/-- The value of an admitted read, as a session of `role` sees it. A read of REC.DATA moves its cursor (R444). -/
def readVal (role num sub : Nat) (d : Dev) : Bytes × Dev :=
  match findObj num with
  | none => ([], d)
  | some (o, _) =>
    match findSub o sub with
    | none => ([], d)
    | some s =>
      if o.multi && sub == 0 then (natLe 1 (topSub o), d)
      else if num = 0x006 then (natLe 1 role, d)
      else if num = 0x100 then (natLe 4 (satU 32 d.ev.count), d)
      else if num = 0x101 then (((d.ev.last).map evBytes).getD (List.replicate 32 0), d)
      else if num = 0x102 then (windowBytes d, d)
      else if num = 0x103 then (natLe 4 (satU 32 d.ev.lost), d)
      else if num = 0x104 then (natLe 2 (pendCount d sub), d)
      else if num = 0x542 then (initSvc, d)
      else if 0x3328 ≤ num ∧ num < 0x3330 then recRead (num - 0x3328) d
      else (valOut (effTy d num sub s) (ov d num sub), d)

/-! ### The two ways of a write (R96, R464) -/

/-- A PDU. OBJ and SUB carry an OFFSET in DATA and ACK. -/
def pduBytes (op tag obj sub : Nat) (data : Bytes) : Bytes :=
  natLe 1 op ++ natLe 1 tag ++ natLe 3 obj ++ natLe 1 sub ++ natLe 2 data.length ++ data

/-- ABORT with a code. -/
def abortBytes (tag obj sub code : Nat) : Bytes := pduBytes 0x0E tag obj sub (natLe 2 code ++ natLe 2 0)

/-- A client is answered: over UDP with counter and MAC by way of ring 12, on a field bus by a frame of TYPE 9 (R370, R380,
R420). -/
def sendPdu (c : Client) (b : Bytes) (d : Dev) : Dev :=
  if b.isEmpty then d
  else if c.bus < 4 then fbSend c.bus 4 9 c.addr b d
  else match d.malpen.ses.find? (fun s => s.client == c) with
  | some s =>
    let mac := (hmac256 s.key (natLe 2 s.num ++ natLe 4 s.txc ++ b)).take 8
    ringPass 12 [.udp c.addr (b ++ mac)] (emit (.udp c.addr (b ++ mac))) id { d with malpen := { d.malpen with
      ses := d.malpen.ses.map (fun x => if x.client == c then { x with txc := x.txc + 1 } else x) } }
  | none => ringPass 12 [.udp c.addr b] (emit (.udp c.addr b)) id d

/-- The session whose write of SYS.FEATURE_ACCEPTED commits takes the value as its view (R107). -/
def takeView (c : Client) (v : Nat) (d : Dev) : Dev :=
  { d with malpen := { d.malpen with ses := d.malpen.ses.map (fun x => if x.client == c then { x with want := v } else x) } }

/-- What a commit answers: a PDU, or a monitor frame built when the write commits. -/
def replyTo (r : Reply) (p : Pend) (monFrame : Nat → Nat → Dev → Dev) (d : Dev) : Dev :=
  match r with
  | .none => d
  | .pdu c b => sendPdu c b (if p.num = 0x011 then takeView c (valNat p.val) d else d)
  | .monitor seq => monFrame 0 seq (if p.num = 0x011 then { d with mon := { d.mon with want := valNat p.val } } else d)

/-- What a write that is refused when it would commit answers. -/
def refuseTo (r : Reply) (p : Pend) (code : Nat) (monFrame : Nat → Nat → Dev → Dev) (d : Dev) : Dev :=
  match r with
  | .none => d
  | .pdu c b => if b.isEmpty then d else sendPdu c (abortBytes (byteAt b 1) p.num p.sub code) d
  | .monitor seq => monFrame code seq d

/-- TIME.MICRO_COUNT at the boundary at which a write of a level takes effect (R470). -/
def effectAt (d : Dev) (level : Nat) : Nat :=
  if level = 0 then 0xFFFFFFFF
  else if level = 1 then (d.time.micro + 1) % 2 ^ 32
  else if level = 2 then (d.time.micro + (microsOf d.time.code d.time.minor - d.time.m)) % 2 ^ 32
  else (d.time.micro + microsToMajor d) % 2 ^ 32

/-- The bytes of an entry on its way to the partner. -/
def pendBytes (p : Pend) : Bytes :=
  match p.val with
  | .bytes b => b
  | .num n => natLe (((findObj p.num).bind (fun o => findSub o.1 p.sub)).map (fun s => tySize s.ty) |>.getD 4) n

/-- The write of a session on the active unit of a pair goes through the partner (R464). -/
def viaPartner (d : Dev) (num : Nat) : Bool := d.pair.role == .active && partnerPresent d && !(ownWrite num)

/-- An admitted write: it commits at once, or when the PAIR frame with its last record has been sent. -/
def acceptWrite (p : Pend) (reply : Reply) (monFrame : Nat → Nat → Dev → Dev) (d : Dev) : Dev :=
  if viaPartner d p.num then
    if p.num = 0x405 then (if valNat p.val = 1 then requestSwitch 1 p.role reply d else replyTo reply p monFrame d)
    else
      let b := pendBytes p
      queueWrite { pend := p, reply := reply } (writeRecs p.num p.sub p.level p.role (effectAt d p.level) (b.length / 1024 + 1) 0 b) d
  else replyTo reply p monFrame (enterWrite p d)

/-- A write command that names no session: OBJECT_WRITE and the other write rows. A standby unit refuses (R379). -/
def directWrite (role num sub : Nat) (v : Bytes) (d : Dev) : Dev :=
  if !(running d) then d
  else if d.pair.role = .standby ∧ !(ownWrite num) then emit (.result aStandby) d
  else
    let c := writeCheck d role num sub v
    if c.1 ≠ 0 then emit (.result c.1) d
    else emit (.result 0) (acceptWrite c.2 .none (fun _ _ d => d) d)

/-- A direct write of a number of `n` bytes. -/
def directNum (role num sub n v : Nat) (d : Dev) : Dev :=
  if v < 256 ^ n then directWrite role num sub (natLe n v) d else if running d then emit (.result aLength) d else d

end Sys2Proof.Machine
end

