-- ==== Sys2Proof/Machine/Malpen.lean ====
section
/-! DEFINITION. The Malpen server (R372 to R380, R385): requests, transfers, sessions, datagrams and event notification. -/

namespace Sys2Proof.Machine

def modMal (f : MalpenS → MalpenS) (d : Dev) : Dev := { d with malpen := f d.malpen }

/-! ### PDUs (R372, R373) -/

/-- A DATA or ACK with its OFFSET. -/
def offsetPdu (op tag off : Nat) (data : Bytes) : Bytes := pduBytes op tag (off % 2 ^ 24) (off / 2 ^ 24) data

/-! Further abort codes (R378). -/
def aBadPdu : Nat := 0x0101
def aTimeout : Nat := 0x0102
def aNoSession : Nat := 0x0103
def aAuth : Nat := 0x0104
def aNoBlock : Nat := 0x0105
def aKind : Nat := 0x0106
def aTagBusy : Nat := 0x0107
def aLimit : Nat := 0x0108

/-- Answer a request with ABORT. -/
def abortTo (p : PduIn) (code : Nat) (d : Dev) : Dev := sendPdu p.c (abortBytes p.tag p.obj p.sub code) d

/-- The longest expedited value and segment of a client (R374). -/
def segMax (c : Client) : Nat := if c.bus < 4 then 56 else 1216

/-- The session of a client. -/
def sesOf? (d : Dev) (c : Client) : Option MSes := d.malpen.ses.find? (fun s => s.client == c)

/-- The transfer of a client with a TAG. -/
def xferOf? (d : Dev) (c : Client) (tag : Nat) : Option Xfer := d.malpen.xf.find? (fun x => x.client == c && x.tag == tag)

/-- The frame of a REQ has the identifier of its client (R368, R370); one with another is discarded (DEDUCED, log entry 66). -/
def pduSound (p : PduIn) : Bool := p.id == some (canId 4 8 0 p.c.addr) && nodeAddr p.c.addr

/-- LEN is the number of data bytes, and what a CAN frame has beyond them is 0 (R372); else BAD_PDU: DEDUCED (log entry 66). -/
def whole (p : PduIn) (f : Dev → Dev) (d : Dev) : Dev :=
  if p.len ≠ p.data.length ∨ (if p.c.bus < 4 then p.pad.any (· != 0) else !p.pad.isEmpty) then abortTo p aBadPdu d else f d

/-- A datagram given as its PDU has come through ring 11. One within a session carries a counter and a MAC: without them it is dropped
(R380). `inner` marks a PDU that has passed them, or one of the OPEN exchange, which is outside a session (R379). -/
def serveUdp (inner : Bool) (p : PduIn) (f : Dev → Dev) (d : Dev) : Dev :=
  if !inner ∧ (sesOf? d p.c).isSome then incr 32 0x300B 9 d else whole p f d

/-- A frame or datagram that carries a PDU with an OP has arrived. On a field bus the server hears a node while its controller may answer;
a datagram comes by ring 11 (R420). -/
def serve (inner : Bool) (op : Nat) (p : PduIn) (f : Dev → Dev) (d : Dev) : Dev :=
  if !(running d) then d
  else if p.c.bus < 4 then fbTake p.c.bus (pduSound p) p.full (fun d => if fbMaySend d p.c.bus then whole p f d else d) d
  else ringPass 11 [.pdu op p] (serveUdp inner p f) id d

/-- Within a session, else NO_SESSION; a reserved bit or a wrong LEN is BAD_PDU (R373, R379). -/
def inSession (p : PduIn) (lenOk : Bool) (f : MSes → Dev → Dev) (d : Dev) : Dev :=
  if 2 ^ 17 ≤ p.obj ∨ !lenOk then abortTo p aBadPdu d
  else match sesOf? d p.c with
  | none => abortTo p aNoSession d
  | some s => f s d

/-- A write of the client with the TAG awaits its commit in the pair's queue (R470). -/
def tagWaits (d : Dev) (c : Client) (tag : Nat) : Bool :=
  (d.pair.queue ++ d.pair.sendingW).any (fun q => match q.reply with
    | .pdu x b => x == c && !b.isEmpty && byteAt b 1 == tag
    | _ => false)

/-- The answer of a queued write goes to a Malpen client: its transfer is in progress. -/
def answersPdu (q : QWrite) : Bool := match q.reply with | .pdu _ b => !b.isEmpty | _ => false

def answersTo (c : Client) (q : QWrite) : Bool := match q.reply with | .pdu x b => x == c && !b.isEmpty | _ => false

/-- The transfers in progress (R377): those that exchange DATA, and the writes that await their commit. -/
def xfersOf (d : Dev) (c : Client) : Nat :=
  (d.malpen.xf.filter (fun x => x.client == c)).length + ((d.pair.queue ++ d.pair.sendingW).filter (answersTo c)).length

def xfersAll (d : Dev) : Nat := d.malpen.xf.length + ((d.pair.queue ++ d.pair.sendingW).filter answersPdu).length

/-- A request with a TAG in use is refused, and one beyond the limits of R377. -/
def freshTag (p : PduIn) (f : Dev → Dev) (d : Dev) : Dev :=
  if (xferOf? d p.c p.tag).isSome || tagWaits d p.c p.tag then abortTo p aTagBusy d
  else if 4 ≤ xfersOf d p.c ∨ 64 ≤ xfersAll d then abortTo p aLimit d
  else f d

/-- The object is a DOMAIN. -/
def isDomain (d : Dev) (num sub : Nat) : Bool :=
  match (findObj num).bind (fun o => findSub o.1 sub) with
  | some s => (match effTy d num sub s with | .dom _ => true | _ => false)
  | none => false

/-- The first two checks of R97. -/
def objCode (d : Dev) (num sub : Nat) : Nat :=
  match findObj num with
  | none => aUnassigned
  | some (o, _) => if !(assigned d num) then aUnassigned else if (findSub o sub).isNone then aNoSub else 0

/-- A standby unit refuses writes and commands (R379, R464). -/
def refusesWrite (d : Dev) (num : Nat) : Bool := d.pair.role == .standby && !(ownWrite num)

/-! ### READ, WRITE, DESCRIBE -/

/-- READ (R374). -/
def mReadObj (p : PduIn) (d : Dev) : Dev :=
  inSession p p.data.isEmpty (fun s => freshTag p (fun d =>
    let e := objCode d p.obj p.sub
    if e ≠ 0 then abortTo p e d
    else if isDomain d p.obj p.sub then abortTo p aKind d
    else
      let c := readCheck d s.role p.obj p.sub
      if c ≠ 0 then abortTo p c d
      else
        let r := readVal s.role p.obj p.sub (accessWord p.word p.obj p.sub d)
        if segMax p.c < r.1.length then abortTo p aKind d
        else sendPdu p.c (pduBytes 2 p.tag p.obj p.sub r.1) r.2)) d

/-- WRITE (R374). -/
def mWriteObj (mon : Nat → Nat → Dev → Dev) (p : PduIn) (d : Dev) : Dev :=
  inSession p true (fun s => freshTag p (fun d =>
    if refusesWrite d p.obj then abortTo p aStandby d
    else
      let e := objCode d p.obj p.sub
      if e ≠ 0 then abortTo p e d
      else if isDomain d p.obj p.sub ∨ segMax p.c < p.data.length then abortTo p aKind d
      else
        let w := writeCheck d s.role p.obj p.sub p.data
        if w.1 ≠ 0 then abortTo p w.1 d
        else acceptWrite w.2 (.pdu p.c (pduBytes 4 p.tag p.obj p.sub [])) mon d)) d

/-- DESCRIBE (R373): the descriptor of R91. -/
def mDescribe (p : PduIn) (d : Dev) : Dev :=
  inSession p p.data.isEmpty (fun _ => freshTag p (fun d =>
    let e := objCode d p.obj p.sub
    if e ≠ 0 then abortTo p e d
    else match findObj p.obj with
    | none => d
    | some (o, _) =>
      match findSub o p.sub with
      | none => d
      | some s => sendPdu p.c (pduBytes 0x0D p.tag p.obj p.sub (effDescriptor d p.obj p.sub o s)) d)) d

/-! ### Transfers (R375 to R377) -/

/-- Forget a transfer. -/
def dropXfer (c : Client) (tag : Nat) : Dev → Dev :=
  modMal (fun m => { m with xf := m.xf.filter (fun x => !(x.client == c && x.tag == tag)) })

def modXfer (c : Client) (tag : Nat) (f : Xfer → Xfer) : Dev → Dev :=
  modMal (fun m => { m with xf := m.xf.map (fun x => if x.client == c && x.tag == tag then f x else x) })

/-- INIT_RSP (R373). -/
def initRsp (p : PduIn) (size blk : Nat) : Bytes := pduBytes 9 p.tag p.obj p.sub (natLe 4 size ++ natLe 1 blk ++ natLe 3 0)

/-- Up to `n` DATA PDUs of a read from an offset on. -/
def sendData : Nat → Client → Nat → Bytes → Nat → Dev → Dev
  | 0, _, _, _, _, d => d
  | n + 1, c, tag, v, off, d =>
    if v.length ≤ off then d
    else
      let b := (v.drop off).take (segMax c)
      sendData n c tag v (off + b.length) (modXfer c tag (fun x => { x with sent := off + b.length })
        (sendPdu c (offsetPdu 0x0A tag off b) d))

/-- A read initiate: the value is taken whole, INIT_RSP and the first DATA or block go out (R375). -/
def mInitRead (p : PduIn) (role blk : Nat) (d : Dev) : Dev :=
  let c := readCheck d role p.obj p.sub
  if c ≠ 0 then abortTo p c d
  else
    let r := readVal role p.obj p.sub (accessWord p.word p.obj p.sub d)
    let d := sendPdu p.c (initRsp p r.1.length blk) r.2
    if r.1.isEmpty then d
    else
      let x : Xfer := { client := p.c, tag := p.tag, num := p.obj, sub := p.sub, read := true, blk := blk, size := r.1.length, data := r.1 }
      sendData (max blk 1) p.c p.tag r.1 0 (modMal (fun m => { m with xf := m.xf ++ [x] }) d)

/-- SEG_READ. -/
def mSegRead (p : PduIn) (d : Dev) : Dev :=
  inSession p p.data.isEmpty (fun s => freshTag p (mInitRead p s.role 0)) d

/-- MALPEN_BLOCK is in the session's view (R107). -/
def blockView (d : Dev) (s : MSes) : Bool := (s.want &&& on d 0x011 0).testBit 3

/-- BLK_READ. -/
def mBlkRead (p : PduIn) (d : Dev) : Dev :=
  let n := byteAt p.data 0
  inSession p (p.data.length == 4 && n != 0 && fieldLe p.data 1 3 == 0) (fun s => freshTag p (fun d =>
    if !(blockView d s) then abortTo p aNoBlock d
    else mInitRead p s.role (min n (on d 0x3016 4)) d)) d

/-- The checks of R97 at the initiate of a write whose value is still to come: those that need the value are left to the commit (R375;
log entry 58). -/
def initCheck (d : Dev) (role num sub size : Nat) : Nat :=
  match findObj num with
  | none => aUnassigned
  | some (o, _) =>
    if !(assigned d num) then aUnassigned
    else match findSub o sub with
    | none => aNoSub
    | some s =>
      let a := effAcc d num sub o s
      let ty := effTy d num sub s
      let isClear := a == .w1c || a == .roW1c
      firstCode [need (a != .ro && a != .lro) aAccess,
        need (o.wr.testBit role && (num == 0x011 || num == 0x504 || roleOk d role num o sub [])) aRole, need (levelOk d o) aLevel,
        need (if num = 0x702 then decide (size ≤ 65544) else if tyVar ty then decide (size ≤ tySize ty) else size == tySize ty) aLength,
        need (stateFixed d role num sub) aState,
        need (roomOk d num sub (writeLevel o a) (a == .wo || isClear) && !(decide (0x2100 ≤ num) && decide (num < 0x2142) && recalcing d (num - 0x2100) sub)) aBusy]

/-- The write of a transfer, or of an empty value, commits after all checks have run again; its answer goes out at the commit
(R375). -/
def mCommit (mon : Nat → Nat → Dev → Dev) (p : PduIn) (v answer : Bytes) (d : Dev) : Dev :=
  match sesOf? d p.c with
  | none => d
  | some s =>
    if refusesWrite d p.obj then abortTo p aStandby d
    else
      let w := writeCheck d s.role p.obj p.sub v
      if w.1 ≠ 0 then abortTo p w.1 d else acceptWrite w.2 (.pdu p.c answer) mon d

/-- A write initiate of a size (R375, R376). -/
def mInitWrite (mon : Nat → Nat → Dev → Dev) (p : PduIn) (role size blk : Nat) (d : Dev) : Dev :=
  if refusesWrite d p.obj then abortTo p aStandby d
  else
    let c := initCheck d role p.obj p.sub size
    if c ≠ 0 then abortTo p c d
    else if size = 0 then (if blk = 0 then mCommit mon p [] (initRsp p 0 0) d else abortTo p aLength d)
    else
      let x : Xfer := { client := p.c, tag := p.tag, num := p.obj, sub := p.sub, read := false, blk := blk, size := size, data := [] }
      sendPdu p.c (initRsp p size blk) (modMal (fun m => { m with xf := m.xf ++ [x] }) d)

/-- SEG_WRITE. -/
def mSegWrite (mon : Nat → Nat → Dev → Dev) (p : PduIn) (d : Dev) : Dev :=
  inSession p (p.data.length == 4) (fun s => freshTag p (mInitWrite mon p s.role (fieldLe p.data 0 4) 0)) d

/-- BLK_WRITE. -/
def mBlkWrite (mon : Nat → Nat → Dev → Dev) (p : PduIn) (d : Dev) : Dev :=
  let n := byteAt p.data 4
  inSession p (p.data.length == 8 && n != 0 && fieldLe p.data 5 3 == 0) (fun s => freshTag p (fun d =>
    if !(blockView d s) then abortTo p aNoBlock d
    else mInitWrite mon p s.role (fieldLe p.data 0 4) (min n (on d 0x3016 4)) d)) d

/-- OFFSET of a DATA or ACK. -/
def pduOffset (p : PduIn) : Nat := p.obj % 2 ^ 24 + 2 ^ 24 * (p.sub % 256)

/-- A DATA or ACK of a transfer in progress; outside one it is BAD_PDU, outside a session NO_SESSION. -/
def inXfer (p : PduIn) (read lenOk : Bool) (f : Xfer → Dev → Dev) (d : Dev) : Dev :=
  if !lenOk then abortTo p aBadPdu d
  else if (sesOf? d p.c).isNone then abortTo p aNoSession d
  else match xferOf? d p.c p.tag with
  | none => abortTo p aBadPdu d
  | some x => if x.read = read then f x d else abortTo p aBadPdu d

/-- DATA of a write (R375). -/
def mData (mon : Nat → Nat → Dev → Dev) (p : PduIn) (d : Dev) : Dev :=
  inXfer p false (decide (1 ≤ p.data.length) && decide (p.data.length ≤ segMax p.c)) (fun x d =>
    let ack := fun (n : Nat) => offsetPdu 0x0B p.tag n []
    let k := x.k + 1
    if pduOffset p ≠ x.data.length then
      (if x.blk = 0 then sendPdu p.c (ack x.data.length) d
       else if k < x.blk then modXfer p.c p.tag (fun y => { y with k := k }) d
       else sendPdu p.c (ack x.data.length) (modXfer p.c p.tag (fun y => { y with k := 0 }) d))
    else
      let v := x.data ++ p.data
      let q : PduIn := { p with obj := x.num, sub := x.sub }
      if x.size < v.length then abortTo q aLength (dropXfer p.c p.tag d)
      else if v.length = x.size then mCommit mon q v (ack x.size) (dropXfer p.c p.tag d)
      else if x.blk = 0 ∨ x.blk ≤ k then sendPdu p.c (ack v.length) (modXfer p.c p.tag (fun y => { y with data := v, k := 0 }) d)
      else modXfer p.c p.tag (fun y => { y with data := v, k := k }) d) d

/-- ACK of a read: DATA from the offset it names; at the end the transfer is over. -/
def mAck (p : PduIn) (d : Dev) : Dev :=
  inXfer p true p.data.isEmpty (fun x d =>
    let off := pduOffset p
    if x.sent < off then abortTo p aBadPdu d
    else if off = x.size then dropXfer p.c p.tag d
    else sendData (max x.blk 1) p.c p.tag x.data off d) d

/-- ABORT from a client: its transfer ends and commits nothing. -/
def mAbort (p : PduIn) (d : Dev) : Dev :=
  inSession p (p.data.length == 4 && fieldLe p.data 2 2 == 0) (fun _ => dropXfer p.c p.tag) d

/-- TRANSFER_TIMEOUT (R377). -/
def transferTimeout (c : Client) (tag : Nat) (d : Dev) : Dev :=
  match xferOf? d c tag with
  | some x => if running d then sendPdu c (abortBytes tag x.num x.sub aTimeout) (dropXfer c tag d) else d
  | none => d

/-! ### Sessions (R379) -/

/-- OPEN: the session of this identity ends, and CHALLENGE is sent. -/
def mOpen (p : PduIn) (d : Dev) : Dev :=
  let role := byteAt p.data 0
  let notify := byteAt p.data 1
  if 2 ^ 17 ≤ p.obj ∨ p.data.length ≠ 20 ∨ 3 < role ∨ 4 < notify ∨ fieldLe p.data 2 2 ≠ 0 then abortTo p aBadPdu d
  else
    let d := endSession p.c d
    if 32 ≤ d.malpen.ses.length then abortTo p aLimit d
    else
      let n := draw 16 d
      let o : MOpen := { client := p.c, role := role, notify := notify, cn := p.data.drop 4, dn := n.1 }
      let d := modMal (fun m => { m with opens := (m.opens.filter (fun x => !(x.client == p.c))) ++ [o] }) n.2
      sendPdu p.c (pduBytes 0x11 p.tag p.obj p.sub (n.1 ++ padTo 16 (ob d 0x003 0))) d

/-- PROVE: the proof under the role's access key opens the session (R379, R485). -/
def mProve (p : PduIn) (d : Dev) : Dev :=
  if 2 ^ 17 ≤ p.obj ∨ p.data.length ≠ 16 then abortTo p aBadPdu d
  else match d.malpen.opens.find? (fun o => o.client == p.c) with
  | none => abortTo p aNoSession d
  | some o =>
    let d := modMal (fun m => { m with opens := m.opens.filter (fun x => !(x.client == p.c)) }) d
    let fail := fun d => abortTo p aAuth (raise 0x5A04 (if p.c.bus < 4 then p.c.bus else noInst) o.role d)
    match (if lcRoleOk (lcState d) o.role then accessKey d o.role else none) with
    | none => fail d
    | some k =>
      if (hmac256 k (natLe 1 o.role ++ o.cn ++ o.dn ++ padTo 16 (ob d 0x003 0))).take 16 ≠ p.data then fail d
      else if 32 ≤ d.malpen.ses.length then abortTo p aLimit d
      else
        let num := d.malpen.nextNum % 65536
        let s : MSes := { client := p.c, role := o.role, key := hmac256 k (ascii "MLPNSES" ++ o.cn ++ o.dn), num := num, notify := o.notify }
        let d := countSessions (modMal (fun m => { m with ses := m.ses ++ [s], nextNum := num + 1 }) d)
        sendPdu p.c (pduBytes 0x13 p.tag p.obj p.sub (natLe 2 num ++ natLe 2 0)) d

/-- CLOSE: answered with CLOSE, and the session ends. -/
def mClose (p : PduIn) (d : Dev) : Dev :=
  let b := pduBytes 0x14 p.tag p.obj p.sub []
  inSession p p.data.isEmpty (fun _ d => if p.c.bus < 4 then sendPdu p.c b (endSession p.c d) else endSession p.c (sendPdu p.c b d)) d

/-- SESSION_IDLE_TIMEOUT. -/
def sessionIdleTimeout (c : Client) (d : Dev) : Dev := if running d then endSession c d else d

/-! ### UDP (R380) -/

/-- One PDU by its OP. -/
def mDispatch (mon : Nat → Nat → Dev → Dev) (op : Nat) (p : PduIn) (d : Dev) : Dev :=
  match op with
  | 1 => mReadObj p d
  | 3 => mWriteObj mon p d
  | 5 => mSegRead p d
  | 6 => mSegWrite mon p d
  | 7 => mBlkRead p d
  | 8 => mBlkWrite mon p d
  | 0x0A => mData mon p d
  | 0x0B => mAck p d
  | 0x0C => mDescribe p d
  | 0x0E => mAbort p d
  | 0x10 => mOpen p d
  | 0x12 => mProve p d
  | 0x14 => mClose p d
  | _ => abortTo p aBadPdu d

/-- A datagram taken apart: OP and the PDU; none where it is shorter than a header or LEN is not what follows. -/
def pduOf (c : Client) (b : Bytes) (word : Option WordRead) : Option (Nat × PduIn) :=
  if b.length < 8 ∨ fieldLe b 6 2 + 8 ≠ b.length then none
  else some (byteAt b 0, { c := c, tag := byteAt b 1, obj := fieldLe b 2 3, sub := byteAt b 5, data := b.drop 8, word := word })

/-- The link-local address of a management port: its MAC address (FB.ETH.04, .05) as a modified EUI-64 (R380). -/
def portLinkLocal (d : Dev) (m : Nat) : Bytes := eui64 (padTo 6 (ob d 0x3017 (4 + m)))

/-- The device's own IPv6 addresses: a link-local one for each management port, and the global one when it is not all 0. -/
def ownAddrs (d : Dev) : List Bytes :=
  let g := padTo 16 (ob d 0x3017 1)
  [portLinkLocal d 0, portLinkLocal d 1] ++ (if g.all (· == 0) then [] else [g])

/-- A datagram is for the Malpen server: an own address and UDP port FB.ETH.03 (R380). -/
def ownUdp (d : Dev) (dst : Bytes) (port : Nat) : Bool := (ownAddrs d).contains dst && port == on d 0x3017 3

/-- Multicast group FF02::4B36 (R380). -/
def discoveryGroup : Bytes := [0xFF, 2, 0, 0, 0, 0, 0, 0, 0, 0, 0, 0, 0, 0, 0x4B, 0x36]

/-- The PDU of a datagram is served, or answered with BAD_PDU where it is none (R372, R373). -/
def servePdu (mon : Nat → Nat → Dev → Dev) (c : Client) (pdu : Bytes) (word : Option WordRead) (d : Dev) : Dev :=
  match pduOf c pdu word with
  | none => sendPdu c (abortBytes (byteAt pdu 1) (fieldLe pdu 2 3) (byteAt pdu 5) aBadPdu) d
  | some (op, p) => whole p (mDispatch mon op p) d

/-- A datagram has come through ring 11. One without a MAC is outside a session: the OPEN exchange, which a source may begin again
(R379); within a session counter and MAC are checked first (R380). -/
def udpTaken (mon : Nat → Nat → Dev → Dev) (src ses counter : Nat) (pdu mac : Bytes) (word : Option WordRead) (d : Dev) : Dev :=
  let c : Client := { bus := 4, addr := src }
  match sesOf? d c with
  | none => if mac = [] then servePdu mon c pdu word d else incr 32 0x300B 9 d
  | some s =>
    let new := match s.rx with | some r => decide (r < counter) | none => true
    if mac = [] ∧ (byteAt pdu 0 = 0x10 ∨ byteAt pdu 0 = 0x12) then servePdu mon c pdu word d
    else if s.num ≠ ses ∨ !new ∨ 2 ^ 32 ≤ counter ∨ (hmac256 s.key (natLe 2 ses ++ natLe 4 counter ++ pdu)).take 8 ≠ mac then
      incr 32 0x300B 9 d
    else
      servePdu mon c pdu word
        (modMal (fun m => { m with ses := m.ses.map (fun x => if x.client == c then { x with rx := some counter } else x) }) d)

/-- UDP_DATAGRAM. -/
def udpDatagram (mon : Nat → Nat → Dev → Dev) (src : Nat) (dst : Bytes) (port ses counter : Nat) (pdu mac : Bytes) (word : Option WordRead)
    (d : Dev) : Dev :=
  if !(running d) || !(ownUdp d dst port) then d
  else ringPass 11 [.datagram src ses counter pdu mac word] (udpTaken mon src ses counter pdu mac word) id d

/-- The device's own identity, as IDENT carries it, with the TAG of the request (R372, R380, R381). -/
def ownIdent (tag : Nat) (d : Dev) : Bytes :=
  pduBytes 0x19 tag 0 0
    (natLe 4 Config.vendorId ++ natLe 4 Config.modelId ++ natLe 1 0 ++ natLe 7 0 ++ padTo 16 (ob d 0x003 0))

/-- A discovery request has come through ring 11: it is answered by way of ring 12. -/
def identTaken (src tag : Nat) (d : Dev) : Dev :=
  ringPass 12 [.udpIdent src (ownIdent tag d)] (emit (.udpIdent src (ownIdent tag d))) id d

/-- UDP_DISCOVERY: the device's own identity (R380, R381). -/
def udpDiscovery (src tag : Nat) (dst : Bytes) (port : Nat) (d : Dev) : Dev :=
  if running d && (ownUdp d dst port || (dst == discoveryGroup && port == on d 0x3017 3)) then
    ringPass 11 [.discovery src tag] (identTaken src tag) id d
  else d

/-! ### Writes and reads that name a session -/

/-- FEATURE_ACCEPTED_WRITE (R104, R107): at its commit the session's view follows. -/
def featureAccepted (mon : Nat → Nat → Dev → Dev) (c : Client) (v : Nat) (d : Dev) : Dev :=
  match sesOf? d c with
  | none => d
  | some s =>
    if !(running d) then d
    else if refusesWrite d 0x011 then emit (.result aStandby) d
    else
      let w := writeCheck d s.role 0x011 0 (natLe 8 v)
      let code := if 2 ^ 64 ≤ v then aLength else w.1
      if code ≠ 0 then emit (.result code) d else emit (.result 0) (acceptWrite w.2 (.pdu c []) mon d)

/-- REC_DATA_READ (R444): the bytes read through cursor `k`. -/
def recDataRead (k : Nat) (d : Dev) : Dev :=
  if !(running d) || decide (8 ≤ k) then d
  else
    let c := readCheck d 0 (0x3328 + k) 0
    if c ≠ 0 then emit (.result c) d
    else let r := recRead k d; emit (.data r.1) r.2

/-! ### Event notification (R385) -/

/-- A new record goes to every session that asked for its class, at most 100 in a second. -/
def notifyEvent (e : EvRec) (d : Dev) : Dev :=
  forEach d.malpen.ses (fun s d =>
    if s.notify = 0 ∨ evClass e.code + s.notify < 4 ∨ 100 ≤ ((sesOf? d s.client).map (·.evSent)).getD 100 then d
    else
      let b := pduBytes 0x1C 0 0 0 (evBytes e)
      let d := modMal (fun m => { m with ses := m.ses.map (fun x => if x.client == s.client then { x with evSent := x.evSent + 1 } else x) }) d
      if s.client.bus < 4 then fbSend s.client.bus 3 4 s.client.addr b d else sendPdu s.client b d) d

/-- A second of notifications begins. -/
def notifySecond : Dev → Dev := modMal (fun m => { m with ses := m.ses.map (fun s => { s with evSent := 0 }) })

end Sys2Proof.Machine
end

