-- ==== Sys2Proof/Machine/Mirror.lean ====
section
/-! DEFINITION. What PAIR frames carry (R144 to R146, R463 to R471): the frame and its checks, loop state with its
corrections, grants, contactors, session contexts, billing increments, mirrored writes, and readiness. -/

namespace Sys2Proof.Machine

/-! ### Loop state (R465, R466) -/

/-- The index and slot of a kernel set, by position in the image. -/
def slotsOf (im : Image) (ks : List Nat) : List (Nat × SlotR) :=
  ((List.range im.slots.length).zip im.slots).filter (fun p => ks.contains p.2.kernel)

/-- The compensator slot of a phase: that whose MEAS binding names it (R163). -/
def compSlot (im : Image) (s p : Nat) : Option Nat :=
  ((slotsOf im [3, 4]).find? (fun x => let b := bindAt im x.2 1; b.sub == s && bindElem b == p)).map (·.1)

/-- The slot of a kernel whose binding `j` is an object of group (s, g). -/
def grpSlot (im : Image) (ks : List Nat) (j : SlotR → Nat) (off s g : Nat) : Option (Nat × SlotR) :=
  (slotsOf im ks).find? (fun x => let b := bindAt im x.2 (j x.2); b.kind == 1 && bindObj b == oGrp s g off)

/-- A word of a slot's committed state. -/
def kstWord (d : Dev) (i : Option Nat) (k : Nat) : Int := ((i.map (kstOf d)).getD []).getD k 0

/-- V1 and V2 of a phase (R465). -/
def phaseVals (d : Dev) (im : Image) (s p : Nat) : Int × Int :=
  let i := compSlot im s p
  (kstWord d i 3, kstWord d i 4)

/-- SEL, VREF, WINNER, RAMP_ACT and I2T_ST of a group (R465). -/
def groupVals (d : Dev) (im : Image) (s g : Nat) : List Int :=
  let ramp := (grpSlot im [0x11] (fun _ => 0) 0x0D s g).map (·.1)
  let i2t := (grpSlot im [0x27] (fun _ => 0) 0 s g).map (·.1)
  [oq d (oGrp s g 0x14) 0, kstWord d ramp 0, on d (oGrp s g 2) 0, kstWord d ramp 1, kstWord d i2t 1]

/-- Keep the own loop values of the micro-frame that has just ended, for eight micro-frames (R466). -/
def keepLoops (micro : Nat) (d : Dev) : Dev :=
  match img? d with
  | none => d
  | some im =>
    let h : LoopH := {
      micro := micro
      phases := (stagesBound d).flatMap (fun s => (List.range (stageE d s).phases).map (fun p => (32 * s + p, phaseVals d im s p)))
      groups := (stagesBound d).flatMap (fun s => (List.range (stageE d s).groups).map (fun g => (4 * s + g, groupVals d im s g))) }
    modPair (fun p => { p with hist := (h :: p.hist).take 8 }) d

/-- The loop-state records of the newest micro-frame kept (R465). -/
def loopRecs (d : Dev) : List LaneRec :=
  match d.pair.hist.head? with
  | none => []
  | some h =>
    (stagesBound d).flatMap (fun s =>
      let e := stageE d s
      [{ rtype := 0x11, index := s, info := 256 * e.phases
         body := (List.range e.phases).flatMap (fun p =>
           let v := (alGet h.phases (32 * s + p)).getD (0, 0); natLe 3 (ofS 24 v.1) ++ natLe 3 (ofS 24 v.2)) },
       { rtype := 0x12, index := s, info := 256 * e.groups
         body := (List.range e.groups).flatMap (fun g =>
           let v := (alGet h.groups (4 * s + g)).getD []
           natLe 4 (ofS 32 (v.getD 0 0)) ++ natLe 4 (ofS 32 (v.getD 1 0)) ++ natLe 1 (ofS 8 (v.getD 2 0)) ++
             natLe 1 (ofS 8 (v.getD 3 0)) ++ natLe 1 (ofS 8 (v.getD 4 0)) ++ natLe 1 0) }])

/-- First element and count of a record's INFO. -/
def infoFirst (r : LaneRec) : Nat := r.info % 256
def infoCount (r : LaneRec) : Nat := bitsOf r.info 15 8

/-- The mirrored values of the phases of a record: key, V1, V2. -/
def phaseRecVals (r : LaneRec) : List (Nat × (Int × Int)) :=
  (List.range (infoCount r)).map (fun j =>
    (32 * r.index + infoFirst r + j, (toS 24 (fieldLe r.body (6 * j) 3), toS 24 (fieldLe r.body (6 * j + 3) 3))))

/-- The mirrored values of the groups of a record. -/
def groupRecVals (r : LaneRec) : List (Nat × List Int) :=
  (List.range (infoCount r)).map (fun j =>
    let o := 12 * j
    (4 * r.index + infoFirst r + j,
      [toS 32 (fieldLe r.body o 4), toS 32 (fieldLe r.body (o + 4) 4), byteAt r.body (o + 8), byteAt r.body (o + 9), byteAt r.body (o + 10)]))

/-- DIVERGED, the counter and the event of one correction (R466). -/
def diverged (s data : Nat) (d : Dev) : Dev := raise 0x2202 s data (incr 32 0x407 5 (setStatus 0x400 0 9 d))

/-- Replace a word of a slot's committed state, the words before it kept. -/
def setKst (i : Nat) (ws : List (Nat × Int)) (len : Nat) (d : Dev) : Dev :=
  let st := kstOf d i
  let st := st ++ List.replicate (len - st.length) 0
  { d with sched := { d.sched with kst := alSet d.sched.kst i (ws.foldl (fun l w => setAt l w.1 w.2) st) } }

/-- Update the own loop values kept of a micro-frame. -/
def modHist (micro : Nat) (f : LoopH → LoopH) : Dev → Dev :=
  modPair (fun p => { p with hist := p.hist.map (fun h => if h.micro = micro then f h else h) })

/-- The correction of a phase at boundary token k + 2 (R466); `own` are the own values of k, `next` micro-frame k + 1. -/
def correctPhase (im : Image) (next key : Nat) (m own : Int × Int) (d : Dev) : Dev :=
  let s := key / 32
  let d1 := m.1 - own.1
  let d2 := m.2 - own.2
  match compSlot im s (key % 32) with
  | none => d
  | some i =>
    if d1 = 0 ∧ d2 = 0 then d
    else
      let bk := oStg s 2 + on d (oStg s 1) 0 % 2
      let c := q16 (satS 64 (-(oq d bk 4) * d1 - oq d bk 5 * d2))
      let t1 := (kstOf d i).getD 3 0
      let d := setKst i [(3, clampHi (oq d bk 6) (oq d bk 7) (t1 + c)), (4, m.1)] 6 d
      let d := modHist next (fun h => { h with phases := alSet h.phases key (t1 + c, m.1) }) d
      diverged s (key % 32) d

/-- The correction of a group: none where WINNER, RAMP_ACT or I2T_ST differs (R466). -/
def correctGroup (im : Image) (next key : Nat) (m own : List Int) (d : Dev) : Dev :=
  let s := key / 4
  let g := key % 4
  let dS := m.getD 0 0 - own.getD 0 0
  let dV := m.getD 1 0 - own.getD 1 0
  if m.drop 2 ≠ own.drop 2 ∨ (dS = 0 ∧ dV = 0) then d
  else
    let win := (m.getD 2 0).toNat
    let pi? := (slotsOf im [1, 2]).find? (fun x =>
      let b := bindAt im x.2 x.2.ins; b.kind == 1 && bindObj b == oGrp s g 0x13 && b.sub == 1 + win)
    let d := match pi? with
      | some x => setKst x.1 [(0, satS 64 ((kstOf d x.1).getD 0 0 + dS * 2 ^ 24))] (if x.2.kernel = 2 then 2 else 1) d
      | none => d
    let d := match grpSlot im [0x11] (fun _ => 0) 0x0D s g with
      | some x => setKst x.1 [(0, satS 32 ((kstOf d x.1).getD 0 0 + dV))] 3 d
      | none => d
    let d := modHist next (fun h => { h with groups := h.groups.map (fun p =>
      if p.1 = key then (key, [p.2.getD 0 0 + dS, p.2.getD 1 0 + dV] ++ p.2.drop 2) else p) }) d
    diverged s (0x80 + g) d

/-- The loop-state records received for micro-frame k are compared with the own values of k, and each difference is
corrected once at token k + 2 (R466). The count of micro-frames that compared equal follows (R471). -/
def compareLoops (old : Nat) (d : Dev) : Dev :=
  let k := (old + 65535) % 65536
  let rs := d.pair.loopRx.filter (fun p => p.1 == k)
  let d := modPair (fun p => { p with loopRx := [] }) d
  match img? d, d.pair.hist.find? (fun h => h.micro % 65536 == k) with
  | some im, some h =>
    if d.pair.role ≠ .standby then d
    else
      let ph := (rs.filter (fun p => p.2.rtype == 0x11)).flatMap (fun p => phaseRecVals p.2)
      let gr := (rs.filter (fun p => p.2.rtype == 0x12)).flatMap (fun p => groupRecVals p.2)
      let same := h.phases.all (fun p => alGet ph p.1 == some p.2) && h.groups.all (fun p => alGet gr p.1 == some p.2)
      let d := forEach ph (fun p => correctPhase im old p.1 p.2 ((alGet h.phases p.1).getD p.2)) d
      let d := forEach gr (fun p => correctGroup im old p.1 p.2 ((alGet h.groups p.1).getD p.2)) d
      modPair (fun p => { p with equal := if same then p.equal + 1 else 0 }) d
  | _, _ => modPair (fun p => { p with equal := 0 }) d

/-! ### Grants and contactors (R463, R467) -/

/-- The 16 bytes of a connector's grant. -/
def grantEntry (d : Dev) (c : Nat) : Bytes :=
  natLe 4 (on d (oCon c 0x22) 1) ++ natLe 4 (on d (oCon c 0x23) 0) ++ natLe 4 (on d (oCon c 0x24) 0) ++
    natLe 1 (on d (oCon c 0x22) 3) ++ natLe 1 (on d (oCon c 0x22) 6) ++ natLe 2 0

def grantsBody (d : Dev) : Bytes := (List.range 64).flatMap (grantEntry d)

/-- The entries of a stage group and of a node. -/
def groupEntry (d : Dev) (s g : Nat) : Bytes :=
  natLe 1 (4 * s + g) ++ natLe 1 (on d (oGrp s g 0x19) 1) ++ natLe 1 (on d (oGrp s g 0x16) 0) ++
    natLe 1 (on d (oGrp s g 0x0B) 0 % 2 + 2 * (on d (oGrp s g 0x1A) 0 % 2))

def nodeEntry (d : Dev) (n : Nat) : Bytes :=
  natLe 1 n ++ natLe 1 (on d (nodeSeqO n) 1) ++ natLe 1 (if n < 64 then on d (oCon n 0x33) 0 else 0) ++ natLe 1 (on d (nodeSeqO n) 2)

def groupEntries (d : Dev) : List Bytes :=
  (stagesBound d).flatMap (fun s => (List.range (stageE d s).groups).map (groupEntry d s))

/-- The nodes of the image: the connectors of bound dispensers and the four ties. -/
def mirroredNodes (d : Dev) : List Nat :=
  (dispsBound d).flatMap (fun i => (List.range (dispE d i).count).map (fun k => (dispE d i).first + k)) ++ [64, 65, 66, 67]

def nodeEntries (d : Dev) : List Bytes := (mirroredNodes d).map (nodeEntry d)

/-- ON, LOCKED and LATCH of the load channels as masks. -/
def lchMasks (d : Dev) : List Nat :=
  let m := fun (f : LchS → Bool) => maskOf ((List.range 32).filter (fun n => f (lch d n)))
  [m (·.on), m (·.locked), m (·.latch)]

/-- A CONTACTORS body of some entries (R467). -/
def contactorsBody (d : Dev) (gs ns : List Bytes) : Bytes :=
  let b := natLe 1 gs.length ++ natLe 1 ns.length ++ natLe 2 0 ++ (lchMasks d).flatMap (natLe 4) ++ gs.flatten ++ ns.flatten
  b ++ List.replicate (8 * ((b.length + 7) / 8) - b.length) 0

/-- The 4-byte entries of a CONTACTORS body. -/
def entriesOf (b : Bytes) : List Bytes := (List.range ((b.length - 16) / 4)).map (fun i => slice b (16 + 4 * i) 4)

/-- The GRANTS and CONTACTORS records due in this frame: complete in the first two micro-frames of a major frame, else what
has changed since it was last sent (R463). -/
def stateRecs (d : Dev) : List LaneRec × Dev :=
  let g := grantsBody d
  let gs := groupEntries d
  let ns := nodeEntries d
  let full := contactorsBody d gs ns
  let first := decide (d.time.k = 0 ∧ d.time.m = 0)
  let second := decide (d.time.k = 0 ∧ d.time.m = 1)
  let ch := (List.range 64).filter (fun c => slice g (16 * c) 16 != slice d.pair.lastGrants (16 * c) 16)
  let lo := ch.headD 0
  let n := (ch.getLast?.getD 0) + 1 - lo
  let grants : List LaneRec :=
    if first then [{ rtype := 0x13, index := 0, info := 256 * 64, body := g }]
    else if ch.isEmpty then [] else [{ rtype := 0x13, index := 0, info := lo + 256 * n, body := slice g (16 * lo) (16 * n) }]
  let old := entriesOf d.pair.lastContactors
  let gc := gs.filter (fun e => !(old.contains e))
  let nc := ns.filter (fun e => !(old.contains e))
  let cons : List LaneRec :=
    if second then [{ rtype := 0x14, index := 0, info := 0, body := full }]
    else if full == d.pair.lastContactors then [] else [{ rtype := 0x14, index := 0, info := 0, body := contactorsBody d gc nc }]
  (grants ++ cons, modPair (fun p => { p with lastGrants := g, lastContactors := full }) d)

/-- A GRANTS record replaces the own values (R463). -/
def takeGrants (r : LaneRec) (d : Dev) : Dev :=
  forEach (List.range (infoCount r)) (fun j d =>
    let c := infoFirst r + j
    let b := slice r.body (16 * j) 16
    putIf (oCon c 0x22) 6 (byteAt b 13) (putIf (oCon c 0x22) 3 (byteAt b 12) (putIf (oCon c 0x24) 0 (fieldLe b 8 4)
      (putIf (oCon c 0x23) 0 (fieldLe b 4 4) (putIf (oCon c 0x22) 1 (fieldLe b 0 4) d))))) d

/-- A group entry replaces the own values and the state machine's. -/
def takeGroup (b : Bytes) (d : Dev) : Dev :=
  let s := byteAt b 0 / 4
  let g := byteAt b 0 % 4
  let st := byteAt b 1
  let fl := byteAt b 3
  let d := putIf (oGrp s g 0x1A) 0 (fl / 2 % 2) (putIf (oGrp s g 0x0B) 0 (fl % 2) (putIf (oGrp s g 0x16) 0 (byteAt b 2)
    (putIf (oGrp s g 0x19) 1 st d)))
  modGSeq s g (fun q =>
    let q := if q.state = st then q else { q with state := st, t := 0, turn := 0 }
    { (q.command (fl.testBit 1)) with dir := fl.testBit 0 }) d

/-- A node entry replaces the own values and the state machine's. -/
def takeNode (b : Bytes) (d : Dev) : Dev :=
  let n := byteAt b 0
  let st := byteAt b 1
  let c := byteAt b 2
  let d := putIf (nodeSeqO n) 2 (byteAt b 3) (putIf (nodeSeqO n) 1 st d)
  let d := if n < 64 then putIf (oCon n 0x33) 0 c d else d
  modNSeq n (fun q =>
    let q := if q.state = st then q else { q with state := st, t := 0 }
    if n < 64 then { q with cmd := putBit (putBit q.cmd 16 (c.testBit 0)) 17 (c.testBit 1) } else q) d

/-- A CONTACTORS record replaces the own values (R463); the channels' states wait for a takeover (R282). -/
def takeContactors (r : LaneRec) (d : Dev) : Dev :=
  let ng := byteAt r.body 0
  let es := entriesOf r.body
  let d := forEach (es.take ng) takeGroup d
  let d := forEach ((es.drop ng).take (byteAt r.body 1)) takeNode d
  modPair (fun p => { p with lastContactors := r.body }) d

/-- The mirror records received since the last boundary token take effect on a standby unit (R463). -/
def applyMirror (d : Dev) : Dev :=
  let rs := d.pair.rx
  let d := modPair (fun p => { p with rx := [] }) d
  if d.pair.role ≠ .standby then d
  else forEach rs (fun r d => if r.rtype = 0x13 then takeGrants r d else takeContactors r d) d

/-! ### Session contexts (R303, R468) -/

/-- The item numbers of a context: its objects, CON.REQ, CON.SEQ_REQ. -/
def ctxItems (n c : Nat) : List (Nat × Nat × Nat) :=
  let keysOf := fun (num base : Nat) =>
    match findObj num with
    | some (o, _) => ((List.range 16).filter (fun s => (findSub o s).isSome && !(o.multi && s == 0))).map (fun s => (base + s, num, s))
    | none => []
  (List.range 15).flatMap (fun off => keysOf (oSes n off) (8 * off)) ++ (if c < 64 then keysOf (oCon c 0x20) 0x80 ++ keysOf (oCon c 0x34) 0x90 else [])

/-- An item of a plaintext: ID, a reserved byte, LEN, the value padded to 4 bytes (R468). -/
def ctxItem (id : Nat) (v : Bytes) : Bytes :=
  natLe 1 id ++ natLe 1 0 ++ natLe 2 v.length ++ v ++ List.replicate (4 * ((v.length + 3) / 4) - v.length) 0

def objTyOf (num sub : Nat) : Option Ty := ((findObj num).bind (fun o => findSub o.1 sub)).map (·.ty)

/-- What a context holds beside its objects, as an item. -/
def ctxOwn (x : CtxS) : Bytes :=
  natLe 2 (boolNat x.tls + 2 * boolNat x.resumable + 4 * boolNat x.isoDone + 8 * boolNat x.pcPending + 16 * boolNat x.dirWait +
    32 * boolNat x.disOk + 64 * boolNat x.i0.isSome + 128 * boolNat x.sec + 256 * boolNat x.appDone + 512 * boolNat x.dynamic +
    1024 * boolNat x.asked + 2048 * boolNat x.vehWaits) ++
    natLe 8 x.isoFor ++ natLe 8 (x.i0.getD 0) ++ natLe 1 x.notice ++ natLe 8 x.feat ++ natLe 4 x.iChg ++ natLe 4 x.pChg ++
    natLe 8 x.suspended ++ natLe 1 (x.linger.getD 0xFF)

/-- The open record of a context with its opening reading, as an item (R354). -/
def ctxRec (d : Dev) (r : SRec) : Bytes :=
  ([r.id, r.proto, boolNat r.closing, r.cause, r.resumes, boolNat r.opening.isSome, r.lsecO, r.civilO, (recGap d r).1, (recGap d r).2, r.iflags,
    r.rflags, r.tariffs, boolNat r.pos, boolNat r.neg, r.age] ++ (r.opening.getD (List.replicate 10 0))).flatMap (natLe 12) ++
    padTo 8 r.sid ++ padTo 32 r.ident

/-- The plaintext of a context's record. -/
def ctxPlain (d : Dev) (n : Nat) : Bytes :=
  (ctxItems n (sesConn d n)).flatMap (fun x => ctxItem x.1 (valOut ((objTyOf x.2.1 x.2.2).getD .u8) (ov d x.2.1 x.2.2))) ++
    ctxItem 0xA0 (ctxOwn (ctx d n)) ++ ctxItem 0xA2 (ctx d n).wire ++
    (match d.legal.recs.find? (fun r => r.ctx == n && !r.signed) with
     | some r => ctxItem 0xA1 (ctxRec d r)
     | none => [])

/-- Nonce and associated data of a SESSION_DELTA record of a unit (R468). -/
def deltaNonce (unit n seq : Nat) : Bytes := natLe 1 unit ++ natLe 1 0 ++ natLe 2 n ++ natLe 4 seq ++ natLe 4 0

def deltaHeader (n len : Nat) : Bytes := natLe 1 0x15 ++ natLe 1 0 ++ natLe 2 len ++ natLe 4 n

/-- The SESSION_DELTA record of a context; its SEQ counts on. -/
def deltaRec (n : Nat) (d : Dev) : Dev :=
  let seq := (ctx d n).seq
  let p := ctxPlain d n
  let c := Config.gcmSeal (deltaKey d) (deltaNonce (portNo d) n seq) (deltaHeader n (p.length + 24)) p
  let r : LaneRec := { rtype := 0x15, index := 0, info := n, body := natLe 4 seq ++ natLe 4 0 ++ c }
  modPair (fun q => { q with deferred := q.deferred ++ [r] }) (modCtx n (fun x => { x with seq := seq + 1 }) d)

/-- The contexts whose record is due: each changed one, and every tenth major frame each open one (R463). -/
def deltaRecs (d : Dev) : Dev :=
  let every := decide (d.time.k = 0 ∧ d.time.m = 0) && decide (10 ≤ d.pair.ctxMajors)
  let opens := if every then (List.range 256).filter (fun n => sesState d n != 0 && !(d.ses.deltas.contains n)) else []
  let ns := d.ses.deltas ++ opens
  let d := { d with ses := { d.ses with deltas := [] } }
  forEach ns deltaRec (if every then modPair (fun p => { p with ctxMajors := 0 }) d else d)

/-- The items of a plaintext. -/
def itemsOf : Nat → Bytes → List (Nat × Bytes)
  | 0, _ => []
  | n + 1, b =>
    if b.length < 4 then []
    else
      let len := fieldLe b 2 2
      (byteAt b 0, slice b 4 len) :: itemsOf n (b.drop (4 + 4 * ((len + 3) / 4)))

/-- The items of a plaintext fill it, and their reserved bytes are 0 (R8, R468). -/
def itemsSound : Nat → Bytes → Bool
  | 0, _ => false
  | n + 1, b =>
    if b.isEmpty then true
    else
      let len := 4 + 4 * ((fieldLe b 2 2 + 3) / 4)
      decide (4 ≤ b.length) && byteAt b 1 == 0 && decide (len ≤ b.length) && itemsSound n (b.drop len)

/-- Put mirrored items into the objects they name. -/
def putItems (keys : List (Nat × Nat × Nat)) (items : List (Nat × Bytes)) (d : Dev) : Dev :=
  forEach keys (fun k d =>
    match alGet items k.1, objTyOf k.2.1 k.2.2 with
    | some b, some ty => { d with os := putV d.os (okey k.2.1 k.2.2) (parseVal ty b) }
    | _, _ => d) d

/-- A mirrored open record (R354). -/
def takeRecord (n c : Nat) (b : Bytes) (d : Dev) : Dev :=
  let w := fun i => fieldLe b (12 * i) 12
  let f := fun (r : SRec) =>
    { r with ctx := n, conn := c, id := w 0, proto := w 1, closing := w 2 != 0, cause := w 3, resumes := w 4
             opening := if w 5 = 1 then some ((List.range 10).map (fun i => w (16 + i))) else none
             lsecO := w 6, civilO := w 7, accI := w 8, accE := w 9, gapI := on d (0x2180 + c) 2, gapE := on d (0x2180 + c) 3, iflags := w 10, rflags := w 11, tariffs := w 12
             pos := w 13 != 0, neg := w 14 != 0, age := w 15, sid := slice b 312 8, ident := slice b 320 32 }
  modLegal (fun l =>
    if l.recs.any (fun r => r.ctx == n && !r.signed) then
      { l with recs := l.recs.map (fun r => if r.ctx = n ∧ !r.signed then f r else r), nextRec := max l.nextRec (w 0 + 1) }
    else { l with recs := l.recs ++ [f default], nextRec := max l.nextRec (w 0 + 1) }) d

/-- A SESSION_DELTA record on a standby unit: kept as the context (R303, R468). -/
def takeDelta (unit : Nat) (r : LaneRec) (d : Dev) : Dev :=
  let n := r.info
  let seq := fieldLe r.body 0 4
  let old : Bool := match alGet d.pair.deltaSeq n with | some s => decide (seq ≤ s) | none => false
  if old ∨ 256 ≤ n then d
  else match Config.gcmOpen (deltaKey d) (deltaNonce unit n seq) (deltaHeader n r.body.length) (r.body.drop 8) with
  | none => d
  | some p =>
    if !(itemsSound 512 p) then d else
    let items := itemsOf 512 p
    let c0 := sesConn d n
    let st0 := sesState d n
    let d := putItems (ctxItems n 64) items d
    let c := sesConn d n
    let st := sesState d n
    let d := if c < 64 then putItems (ctxItems n c) items d else d
    let own := (alGet items 0xA0).getD []
    let fl := fieldLe own 0 2
    let d := modCtx n (fun x => { x with
      tls := fl.testBit 0, resumable := fl.testBit 1, isoDone := fl.testBit 2, pcPending := fl.testBit 3, dirWait := fl.testBit 4
      disOk := fl.testBit 5, isoFor := fieldLe own 2 8, i0 := if fl.testBit 6 then some (fieldLe own 10 8) else none, seq := seq + 1
      sec := fl.testBit 7, appDone := fl.testBit 8, dynamic := fl.testBit 9, notice := byteAt own 18, feat := fieldLe own 19 8
      iChg := fieldLe own 27 4, pChg := fieldLe own 31 4, suspended := fieldLe own 35 8, asked := fl.testBit 10
      vehWaits := fl.testBit 11, linger := if byteAt own 43 < 64 then some (byteAt own 43) else none, wire := (alGet items 0xA2).getD [] }) d
    let d := if c0 < 64 ∧ on d (oCon c0 0x51) 0 = n then putIf (oCon c0 0x51) 0 0xFFFF d else d
    let d := if 1 ≤ st ∧ st ≤ 9 ∧ c < 64 then putIf (oCon c 0x51) 0 n d else d
    let d := if st0 = 0 ∧ st ≠ 0 then { d with ses := { d.ses with last := n } } else d
    let d := match alGet items 0xA1 with
      | some b => takeRecord n c b d
      | none => modLegal (fun l => { l with recs := l.recs.filter (fun x => x.ctx != n || x.signed) }) d
    let d := modPair (fun q => { q with deltaSeq := if st = 0 then alDel q.deltaSeq n else alSet q.deltaSeq n seq }) d
    publishPending (sesCount d)

/-! ### Billing increments (R469) -/

/-- E: the number of micro-frames in 2 ms, rounded up. -/
def billE (d : Dev) : Nat := ceilDiv 2000000 (tNs d)

/-- Micro-frames since the last billing-tick token. -/
def microsInTick (d : Dev) : Nat :=
  ((List.range (d.time.minor % 1000)).map (fun j => microsOf d.time.code j)).foldl (· + ·) 0 + d.time.m

/-- The BILLING record of an increment, with the registers after the tick. -/
def billRec (d : Dev) (i : IncS) : LaneRec :=
  { rtype := 0x16, index := i.m, info := i.tick % 2 ^ 32
    body := natLe 4 i.imp ++ natLe 4 i.exp ++ natLe 4 (on d (0x2100 + i.m) 1 % 2 ^ 32) ++ natLe 4 (on d (0x2100 + i.m) 2 % 2 ^ 32) ++
      natLe 1 i.tariff ++ natLe 1 0 ++ natLe 2 i.tf ++ natLe 4 0 }

/-- BILLING_RECORD_COMMIT: in micro-frame E + m after the tick (R469). -/
def billingRecordCommit (m : Nat) (d : Dev) : Dev :=
  if !(running d && d.pair.role == .active && microsInTick d == billE d + m) then d
  else match d.legal.toMirror.find? (fun i => i.m == m) with
  | none => d
  | some i =>
    modPair (fun p => { p with billTx := p.billTx ++ [billRec d i] })
      (modLegal (fun l => { l with toMirror := l.toMirror.filter (fun x => x.m != m) }) d)

/-- A BILLING record on a standby unit: the increments are added, and what a lost record left out (R328, R469). -/
def takeBilling (r : LaneRec) (d : Dev) : Dev :=
  let m := r.index
  match d.legal.own.find? (fun o => o.tick % 2 ^ 32 == r.info && o.m == m) with
  | none => d
  | some o =>
    let i : IncS := { lsec := o.lsec, m := m, tariff := byteAt r.body 16, imp := fieldLe r.body 0 4, exp := fieldLe r.body 4 4, tick := o.tick }
    let d := billMirror i d
    let gap := fun k off => (fieldLe r.body off 4 + 2 ^ 32 - on d (0x2100 + m) k % 2 ^ 32) % 2 ^ 32
    let gi := gap 1 8
    let ge := gap 2 12
    let gone := d.legal.own.filter (fun x => x.m == m && decide (x.lsec ≤ o.lsec))
    let d := modLegal (fun l => { l with own := l.own.filter (fun x => x.m != m || decide (o.lsec < x.lsec)) }) d
    let d := devAdd m o.lsec ((gone.map (·.imp)).foldl (· + ·) 0, (gone.map (·.exp)).foldl (· + ·) 0) (gi, ge) d
    let d := if gi = 0 ∧ ge = 0 then d
      else raise 0x2203 m 0 (incr 32 0x407 6 (setStatus 0x400 0 10 (addInc { i with imp := gi, exp := ge } d)))
    finishWaits m (deviationDue m d)

/-! ### Mirrored writes (R464, R470) -/

/-- A W1C clear or WO command, and not a value. -/
def isCommand (d : Dev) (num sub : Nat) : Bool :=
  match findObj num with
  | some (o, _) =>
    (match findSub o sub with
     | some s => let a := effAcc d num sub o s; a == .wo || a == .w1c || a == .roW1c
     | none => false)
  | none => false

/-- TIME.MICRO_COUNT whose low 32 bits are given, at or after now. -/
def microFrom (d : Dev) (low : Nat) : Nat := d.time.micro + (low + 2 ^ 32 - d.time.micro % 2 ^ 32) % 2 ^ 32

/-- A mirrored write takes the way it took on the active unit (R464). -/
def enterMirrored (num sub level role effect : Nat) (v : Bytes) (d : Dev) : Dev :=
  if num = 0x405 then
    enterWrite { num := num, sub := sub, val := .num (switchVal (microFrom d effect) (leNat v)), level := 0, cmd := true, role := role } d
  else
    match findObj num with
    | none => d
    | some (o, _) =>
      match findSub o sub with
      | none => d
      | some s => enterWrite { num := num, sub := sub, val := parseVal (effTy d num sub s) v, level := level, cmd := isCommand d num sub, role := role } d

/-- The PEER record: DIGEST and FW of the partner (R470). -/
def takePeer (v : Bytes) (d : Dev) : Dev :=
  let d := putb 0x406 5 (slice v 7 16) d
  forEach [0, 1, 2, 3] (fun k d => putIf 0x406 (6 + k) (fieldLe v (23 + 4 * k) 4) d) d

/-- The image digest and the versions that a unit gives in its PEER record: its own, and with ANNOUNCE set those of the bundle in
STAGE (R470, R521). -/
def peerDigest (d : Dev) : Bytes :=
  match updBit d 4, d.update.stage with
  | true, some b => ((bundleImage b).map (fun i => (imgDigest i).take 16)).getD []
  | _, _ => (ob d 0x1A2 0).take 16

def peerVersion (d : Dev) (k : Nat) : Nat :=
  match updBit d 4, d.update.stage with
  | true, some b => ((compOf b k).map (·.version)).getD 0
  | _, _ => on d 4 k

/-- PAIR.PEER as this unit sends it, carrying its own subindices. -/
def peerRec (d : Dev) : LaneRec :=
  let v := natLe 1 (portNo d) ++ natLe 1 (roleCode d.pair.role) ++ natLe 4 (on d 0x402 0) ++ natLe 1 (boolNat (pairBit d 1)) ++
    padTo 16 (peerDigest d) ++ [1, 2, 3, 4].flatMap (fun k => natLe 4 (peerVersion d k))
  { rtype := 0x17, index := 0, info := 0x406, body := writeBody 0 0 0 0 0xFFFFFFFF true v }

/-- A BANKED_WRITE record: pieces are joined in ascending OFFSET, the last one enters the write (R470). -/
def takeWrite (r : LaneRec) (d : Dev) : Dev :=
  let sub := byteAt r.body 0
  let off := fieldLe r.body 4 4
  let v := r.body.drop 16
  if r.info = 0x406 then takePeer v d
  else if d.pair.role ≠ .standby then d
  else
    let got : Option Bytes :=
      if off = 0 then some v
      else match d.pair.rxWrite with
      | some (n, s, b) => if n = r.info ∧ s = sub ∧ b.length = off then some (b ++ v) else none
      | none => none
    let d := modPair (fun p => { p with rxWrite := none }) d
    match got with
    | none => d
    | some b =>
      if (byteAt r.body 2).testBit 0 then enterMirrored r.info sub (byteAt r.body 1) (byteAt r.body 3) (fieldLe r.body 8 4) b d
      else modPair (fun p => { p with rxWrite := some (r.info, sub, b) }) d

/-! ### Readiness (R471) -/

/-- READY of a standby unit. -/
def readyCond (d : Dev) : Bool :=
  d.pair.role == .standby && (img? d).isSome && (on d 0x185 0).testBit 3 && ob d 0x406 5 == (ob d 0x1A2 0).take 16 &&
    [1, 2, 3, 4].all (fun k => on d 0x406 (5 + k) == on d 4 k) && (attachedLanes d).all (fun l => (laneS d l).st == .up) &&
    decide (16 ≤ d.pair.okA) && decide (16 ≤ d.pair.equal) && d.pair.gotGrants && d.pair.gotContactors && !(oflag d 0x285 5)

/-- READY at a boundary token. -/
def readyPublish (d : Dev) : Dev := putPairBit 1 (readyCond d) d

/-! ### Sending (R144 to R146) -/

/-- FLAGS of a PAIR frame. -/
def pairFlags (d : Dev) : Nat :=
  boolNat (pairBit d 1) + 2 * boolNat ((on d 0x185 0).testBit 3) + 4 * boolNat (pairBit d 2) +
    8 * boolNat (img? d).isNone

/-- The words of a record in a frame. -/
def recWords (r : LaneRec) : Nat := 1 + (r.body.length + 7) / 8

/-- The words for records that a PAIR frame may still hold within 0.90 of the micro-frame on the slower lane that is up. -/
def pairRoom (d : Dev) (fixed : List LaneRec) : Nat :=
  let bt := ((pairLanesUp d).map (fun l => blockPs (laneS d l).mode)).foldl max 1
  900 * tNs d / bt - 6 - (fixed.map recWords).foldl (· + ·) 0

/-- Deferrable records in commit order, as long as they fit. -/
def takeFit : Nat → List LaneRec → List LaneRec × List LaneRec
  | _, [] => ([], [])
  | room, r :: l => if recWords r ≤ room then let x := takeFit (room - recWords r) l; (r :: x.1, x.2) else ([], r :: l)

/-- The last record of a queued write. -/
def lastOfWrite (r : LaneRec) : Bool := r.rtype == 0x17 && r.info != 0x406 && (byteAt r.body 2).testBit 0

/-- A queued write commits (R96, R464). MET_SEAL must be asserted when a legal parameter commits (R314). -/
def commitQueued (monFrame : Nat → Nat → Dev → Dev) (q : QWrite) (d : Dev) : Dev :=
  if legalParam q.pend.num && !(sealOpen d) then refuseTo q.reply q.pend aState monFrame d
  else replyTo q.reply q.pend monFrame (enterWrite q.pend d)

/-- MARK_RX of a pair lane (R144). -/
def markRxOf (d : Dev) (l : Nat) : Int := d.pair.markRx.getD (l - 48) 0

/-- Take MARK_RX of a pair lane. -/
def markRxPut (l : Nat) (v : Int) : Dev → Dev := modPair (fun p => { p with markRx := setAt p.markRx (l - 48) v })

/-- The body of this unit's PAIR frame on a lane (R145). MARK_RX is that of the lane that carries the frame (DESIGN CHOICE, log
entry 43). -/
def pairBody (recs : List LaneRec) (d : Dev) (l : Nat) : Bytes :=
  natLe 1 (portNo d) ++ natLe 1 (roleCode d.pair.role) ++ natLe 2 (pairFlags d) ++ natLe 4 (on d 0x402 0) ++
    natLe 4 (ofS 32 (markRxOf d l)) ++ natLe 2 (d.pair.hb % 65536) ++ natLe 2 recs.length ++ recs.flatMap recBytes

/-- The frame of this micro-frame, on every pair lane that is up. Its records go through DMA ring 0 (R24, R420). -/
def pairSend (recs : List LaneRec) (d : Dev) : Dev :=
  let d := ringPass 0 (recs.map (fun _ => .part)) id id d
  let d := forEach (pairLanesUp d) (fun l d => sendFrame l 5 (pairBody recs d l) d) d
  modPair (fun p => { p with hb := p.hb + 1, sending := true }) d

/-- The pair's turn after a boundary token: TIMING markers, the records due, the frame (R144 to R146, R463). With no pair lane
up, queued writes and answers wait for nothing. While ring 0 is stopped or serves others the frame goes without records, and
what may wait does (R420, R422). -/
def pairTransmit (monFrame : Nat → Nat → Dev → Dev) (d : Dev) : Dev :=
  if !(d.pair.declared && d.pair.role != .single) then d
  else
    let act := d.pair.role == .active
    let major := decide (d.time.k = 0 ∧ d.time.m = 0)
    let d := if major then modPair (fun p => { p with ctxMajors := p.ctxMajors + 1, deferred := p.deferred ++ [peerRec d] }) d else d
    let d := if act then deltaRecs d else d
    if (pairLanesUp d).isEmpty then
      let q := d.pair.queue
      let d := modPair (fun p => { p with queue := [], deferred := [], billTx := [], sending := false, hb := p.hb + 1 }) d
      let d := { d with ses := { d.ses with ready := d.ses.ready ++ d.ses.held, held := [] } }
      releaseReady (forEach q (commitQueued monFrame) d)
    else
      let d := forEach (pairLanesUp d) (fun l d => sendMarker l 1 (d.time.micro % 2 ^ 32) d) d
      if !(ringIdle d 0) then pairSend [] (if ringRoom d 0 = 0 then ringFull 0 d else d)
      else
      let sr := if act then stateRecs d else ([], d)
      let d := sr.2
      let fixed := if act then loopRecs d ++ sr.1 ++ d.pair.billTx else []
      let x := takeFit (pairRoom d fixed) d.pair.deferred
      let n := (x.1.filter lastOfWrite).length
      let d := modPair (fun p => { p with billTx := [], deferred := x.2, sendingW := p.sendingW ++ p.queue.take n, queue := p.queue.drop n }) d
      let d := if x.2.any (fun r => r.rtype == 0x15) then d
        else { d with ses := { d.ses with ready := d.ses.ready ++ d.ses.held, held := [] } }
      pairSend (fixed ++ x.1) d

/-- PAIR_FRAME_SENT: the writes whose last record it carried commit, the answers whose deltas it carried go out (R303,
R464). -/
def pairFrameSent (monFrame : Nat → Nat → Dev → Dev) (d : Dev) : Dev :=
  if !(running d && d.pair.sending) then d
  else
    let q := d.pair.sendingW
    releaseReady (forEach q (commitQueued monFrame) (modPair (fun p => { p with sending := false, sendingW := [] }) d))

/-! ### Receiving -/

/-- A mirror record has the layout of its type (R145, R465 to R470). -/
def mirrorOk (r : LaneRec) : Bool :=
  let n := r.body.length
  let f := infoFirst r
  let c := infoCount r
  if r.rtype = 0x11 then decide (r.index < 32) && decide (r.info < 65536) && decide (f + c ≤ 32) && n == 6 * c
  else if r.rtype = 0x12 then decide (r.index < 32) && decide (r.info < 65536) && decide (f + c ≤ 4) && n == 12 * c &&
    (List.range c).all (fun j => byteAt r.body (12 * j + 11) == 0)
  else if r.rtype = 0x13 then r.index == 0 && decide (r.info < 65536) && decide (f + c ≤ 64) && n == 16 * c &&
    (List.range c).all (fun j => fieldLe r.body (16 * j + 14) 2 == 0)
  else if r.rtype = 0x14 then
    let ng := byteAt r.body 0
    let nn := byteAt r.body 1
    let used := 16 + 4 * ng + 4 * nn
    r.index == 0 && r.info == 0 && decide (16 ≤ n) && n == 8 * ((used + 7) / 8) && fieldLe r.body 2 2 == 0 &&
      ((entriesOf r.body).take ng).all (fun e => decide (byteAt e 0 < 128) && decide (byteAt e 3 < 4)) &&
      (((entriesOf r.body).drop ng).take nn).all (fun e => decide (byteAt e 0 < 0x44)) && (r.body.drop used).all (· == 0)
  else if r.rtype = 0x15 then r.index == 0 && decide (24 ≤ n) && decide (r.info < 65536) && fieldLe r.body 4 4 == 0
  else if r.rtype = 0x16 then decide (r.index < 66) && n == 24 && byteAt r.body 17 == 0 && fieldLe r.body 20 4 == 0
  else if r.rtype = 0x17 then r.index == 0 && decide (16 ≤ n) && decide (n ≤ 1040) && decide (byteAt r.body 2 < 2) && fieldLe r.body 12 4 == 0
  else false

/-- The records of a PAIR frame; none where its layout or a reserved field is wrong. -/
def pairParse (f : Frame) : Option (List LaneRec) :=
  let b := f.body
  if frameSound f && f.kind == 5 && decide (24 ≤ b.length) && decide (byteAt b 0 ≤ 1) && decide (byteAt b 1 ≤ 2) &&
      decide (fieldLe b 2 2 < 16) then
    match takeRecs (fieldLe b 14 2) (b.drop 16) with
    | some (rs, rest) => if rest.length = 8 ∧ rs.all mirrorOk then some rs else none
    | none => none
  else none

/-- A record of the partner's frame. Only a standby unit takes those of an active partner; the PEER record is taken by
either. -/
def takeMirror (unit role seq : Nat) (r : LaneRec) (d : Dev) : Dev :=
  if r.rtype = 0x17 ∧ r.info = 0x406 then takeWrite r d
  else if d.pair.role ≠ .standby ∨ role ≠ 1 then d
  else if r.rtype = 0x11 ∨ r.rtype = 0x12 then modPair (fun p => { p with loopRx := p.loopRx ++ [((seq + 65535) % 65536, r)] }) d
  else if r.rtype = 0x13 then
    modPair (fun p => { p with rx := p.rx ++ [r], gotGrants := p.gotGrants || decide (infoFirst r = 0 ∧ infoCount r = 64) }) d
  else if r.rtype = 0x14 then
    let full := byteAt r.body 0 == (groupEntries d).length && byteAt r.body 1 == (nodeEntries d).length
    handOff (modPair (fun p => { p with
      rx := p.rx ++ [r], gotContactors := p.gotContactors || full, onSeen := p.onSeen ||| fieldLe r.body 4 4 }) d)
  else if r.rtype = 0x15 then takeDelta unit r d
  else if r.rtype = 0x16 then takeBilling r d
  else takeWrite r d

/-- With both values of MARK_RX of a lane: its delay in ns (R144). -/
def pairDelay (l : Nat) (theirs : Int) (d : Dev) : Dev :=
  putIf 0x203 (l + 1) (satU 16 (divHalfUp (theirs + markRxOf d l) 2000).toNat) d

/-- With both values of MARK_RX of the lane whose frame is accepted: the offset of the boundaries (R144). Where the TIMING marker of a
micro-frame is missing and its PAIR frame arrives, the last MARK_RX stands and the micro-frame counts toward the 16 of R45: DESIGN CHOICE
(log entry 41). -/
def pairMeasure (l : Nat) (theirs : Int) (d : Dev) : Dev :=
  { d with time := { d.time with offsetPs := (theirs - markRxOf d l) / 2 } }

/-- MARK_RX as a PAIR frame gives it, from a unit with the other number. -/
def frameDelay (l : Nat) (f : Frame) (d : Dev) : Dev :=
  if byteAt f.body 0 = portNo d then d else pairDelay l (toS 32 (fieldLe f.body 8 4)) d

/-- The frame's fields take effect: the heartbeat of path A, the partner as reported, roles and epochs (R145, R451 to R462,
R475). -/
def pairAccept (l t : Nat) (f : Frame) (rs : List LaneRec) (d : Dev) : Dev :=
  let b := f.body
  let unit := byteAt b 0
  let role := byteAt b 1
  let flags := fieldLe b 2 2
  let epoch := fieldLe b 4 4
  let d := modPair (fun p => { p with
    lastHb := some (fieldLe b 12 2), gotA := true, lastA := t, peerFlags := flags, seen := max p.seen epoch }) d
  let d := putIf 0x406 4 (flags % 2) (putIf 0x406 3 epoch (putIf 0x406 2 role (putIf 0x406 1 unit d)))
  let d := electOn unit role d
  if unit = portNo d then d
  else
    let d := if role = 1 ∧ d.pair.role = .active ∧ on d 0x402 0 < epoch then modPair (fun p => { p with above := max p.above epoch }) d else d
    let d := pairMeasure l (toS 32 (fieldLe b 8 4)) d
    forEach rs (takeMirror unit role f.seq) d

/-- HB of a PAIR frame. -/
def hbOf (f : Frame) : Nat := fieldLe f.body 12 2

/-- Accept a valid frame of lane `l` whose HB is new. -/
def pairTake (l t : Nat) (f : Frame) (d : Dev) : Dev :=
  match pairParse f with
  | none => d
  | some rs => if d.pair.lastHb = some (hbOf f) then d else pairAccept l t f rs d

/-- The frame of PAIR1 that waits is used: PAIR0 has delivered none with its HB (R145). -/
def pairWaited (d : Dev) : Dev :=
  match d.pair.waits with
  | some (t, f) => pairTake 49 t f (modPair (fun p => { p with waits := none }) d)
  | none => d

/-- PAIR_FRAME at `arrival` ns after the boundary token: rejected under R118, or accepted where its HB is new (R145, R455). With
PAIR0 up, a frame of PAIR1 waits for that of PAIR0 until the next boundary token. -/
def pairFrame (l : Nat) (f : Frame) (arrival : Nat) (d : Dev) : Dev :=
  if !(running d) || !(l == 48 || l == 49) || (laneS d l).st != .up || d.pair.role == .single then d
  else if (pairParse f).isNone then laneBad l d
  else
    let d := modLane l (fun x => { x with latch := some f.body }) (frameDelay l f d)
    let other := match d.pair.waits with | some (_, w) => hbOf w != hbOf f | none => false
    let d := if other then pairWaited d else d
    if d.pair.lastHb = some (hbOf f) then d
    else if l = 49 ∧ (laneS d 48).st = .up then modPair (fun p => { p with waits := some (nowNs d arrival, f) }) d
    else pairTake l (nowNs d arrival) f (modPair (fun p => { p with waits := none }) d)

/-! ### Timing markers (R45, R144) -/

/-- Frame counters are adopted and published (R32, R45, R47). -/
def adoptCounts (x : FrameCounts) (d : Dev) : Dev :=
  let d := { d with time := { d.time with micro := x.micro, minor := x.minor, major := x.major, tick := x.tick, k := x.k, m := x.m } }
  put 0x184 0 x.tick (put 0x183 0 x.major (put 0x182 0 x.minor (put 0x181 0 x.micro d)))

/-- This unit's counters moved by a number of micro-frames. -/
def shiftedCounts (micro : Nat) (d : Dev) : FrameCounts :=
  let t := d.time
  let mm := majorMicros t.code
  let off := if t.code = 3 then t.k / 2 * 125 + t.k % 2 * 62 + t.m else t.k * minMicros t.code + t.m
  let pos := (((t.major * mm + off : Nat) : Int) + ((micro : Int) - t.micro)).toNat
  let r := pos % mm
  let km : Nat × Nat :=
    if t.code = 3 then (if r % 125 < 62 then (2 * (r / 125), r % 125) else (2 * (r / 125) + 1, r % 125 - 62))
    else (r / minMicros t.code, r % minMicros t.code)
  { micro := micro, minor := 100 * (pos / mm) + km.1, major := pos / mm, tick := pos / mm / 10, k := km.1, m := km.2 }

/-- The count nearest to `own` whose low 32 bits are `v`. -/
def nearCount (own v : Nat) : Nat :=
  let c : Int := (own : Int) + toS 32 ((v + 2 ^ 32 - own % 2 ^ 32) % 2 ^ 32)
  if c < 0 then (c + 2 ^ 32).toNat else c.toNat

/-- TIMING_MARKER: MARK_RX; a standby unit whose count differs adopts the active unit's frame counters (R32, R45). The marker
itself carries 32 bits of one of them: the environment gives the others in `active`; where it gives none, the standby unit
takes the nearest count with those bits and moves its other counters by as many micro-frames (DESIGN CHOICE, log entry 40). -/
def timingMarker (l value : Nat) (arrival : Int) (active : Option FrameCounts) (d : Dev) : Dev :=
  if !(running d) || !(l == 48 || l == 49) || (laneS d l).st != .up || d.pair.role == .single then d
  else
    let tps : Int := 1000 * tNs d
    let far := decide (tps < 2 * arrival)
    let x := if far then arrival - tps else arrival
    let own := d.time.micro % 2 ^ 32
    let known := match active with
      | some a => a.micro == d.time.micro && a.minor == d.time.minor && a.major == d.time.major && a.tick == d.time.tick &&
          a.k == d.time.k && a.m == d.time.m
      | none => true
    if known && (value == own || (far && value == (own + 1) % 2 ^ 32)) then
      markRxPut l (satS 32 x) d
    else if d.pair.role = .standby then
      let v := if far then (value + 2 ^ 32 - 1) % 2 ^ 32 else value
      markRxPut l (satS 32 x) (adoptCounts (active.getD (shiftedCounts (nearCount d.time.micro v) d)) d)
    else d

/-- PHASE_LOCKED at a boundary token: 16 micro-frames in a row within 20 ns (R45). A micro-frame without a measurement begins
the count anew and leaves a lock standing: DESIGN CHOICE (log entry 41). -/
def lockToken (d : Dev) : Dev :=
  if d.pair.role ≠ .standby then (if (on d 0x185 0).testBit 3 then unlock d else d)
  else if !d.pair.gotA then { d with time := { d.time with lockCount := 0 } }
  else if d.time.offsetPs.natAbs ≤ 20000 then
    let d := { d with time := { d.time with lockCount := d.time.lockCount + 1 } }
    if 16 ≤ d.time.lockCount ∧ !((on d 0x185 0).testBit 3) then setStatus 0x185 0 3 d else d
  else unlock d

end Sys2Proof.Machine
end

