-- ==== Sys2Proof/Machine/Monitor.lean ====
section
/-! DEFINITION. The development monitor (spec/24): frames, unlocking, commands, trace. -/

namespace Sys2Proof.Machine

def modMon (f : MonS → MonS) (d : Dev) : Dev := { d with mon := f d.mon }

/-! ### Frames (R543, R544) -/

/-- The CRC of a frame, over the bytes between SYNC and CRC. -/
def monCrc (b : Bytes) : Nat := crcBits 16 0x1021 0xFFFF (b.flatMap (fun x => bitsMsb x.toNat 8))

/-- A frame without its SYNC and CRC. -/
def monBody (cmd seq : Nat) (payload : Bytes) : Bytes := natLe 2 payload.length ++ natLe 1 cmd ++ natLe 1 seq ++ payload

/-- Send a frame on MON_TX. -/
def monSend (cmd seq : Nat) (payload : Bytes) (d : Dev) : Dev :=
  let b := monBody cmd seq payload
  emit (.monitor (natLe 1 0xA5 ++ b ++ natLe 2 (monCrc b))) (incr 32 0x3403 2 d)

/-- A response: bit 7 of CMD set, the CODE, what follows it. -/
def monAnswer (f : MonIn) (code : Nat) (rest : Bytes) (d : Dev) : Dev := monSend (f.cmd % 128 + 128) f.seq (natLe 2 code ++ rest) d

/-- The response to a WRITE, sent at its commit. -/
def monWriteDone (code seq : Nat) (d : Dev) : Dev := monSend 0x91 seq (natLe 2 code) d

/-! Codes of the monitor (R544). -/
def mLocked : Nat := 0x0201
def mLockout : Nat := 0x0202
def mUnknown : Nat := 0x0203
def mLcState : Nat := 0x0204

/-- A frame that is discarded (R543). -/
def monBad (f : MonIn) : Bool :=
  decide (1040 < f.len) || f.payload.length != f.len ||
    f.crc != monCrc (natLe 2 f.len ++ natLe 1 f.cmd ++ natLe 1 f.seq ++ f.payload)

/-- The command codes that R547 lists. -/
def monCmds : List Nat := [1, 2, 3, 4, 5, 0x10, 0x11, 0x12, 0x20, 0x30]

/-- A frame of one command: discarded where it is not sound; else its length, then its role, then the command. In SCRAP nothing is
answered (R545). A CMD that is not the row's is answered as that CMD would be only where it is not listed: UNKNOWN. -/
def monServe (cmd : Nat) (lenOk : Nat → Bool) (needRole : Bool) (k : Dev → Dev) (f : MonIn) (d : Dev) : Dev :=
  if !(running d) then d
  else if monBad f then incr 32 0x3403 3 d
  else
    let d := incr 32 0x3403 1 d
    if lcState d = 4 then d
    else if f.cmd ≠ cmd then (if monCmds.contains f.cmd then d else monAnswer f mUnknown [] d)
    else if !(lenOk f.len) then monAnswer f aLength [] d
    else if needRole && d.mon.role.isNone then monAnswer f mLocked [] d
    else k d

/-! ### Unlocking (R545, R546) -/

/-- PING. -/
def monPing (f : MonIn) : Dev → Dev :=
  monServe 1 (· == 0) false (fun d => monAnswer f 0 (padTo 16 (ob d 0x003 0) ++ natLe 4 (on d 0x3401 0)) d) f

/-- CHALLENGE: a fresh nonce. -/
def monChallenge (f : MonIn) : Dev → Dev :=
  monServe 2 (· == 0) false (fun d =>
    let n := draw 16 d
    monAnswer f 0 (n.1 ++ padTo 16 (ob d 0x003 0)) (modMon (fun m => { m with nonce := some n.1 }) n.2)) f

/-- A failed attempt; the third in a row locks out. -/
def monFail (f : MonIn) (role : Nat) (d : Dev) : Dev :=
  let d := raise 0x9201 noInst role (incr 32 0x3403 4 d)
  let n := d.mon.fails + 1
  monAnswer f aAuth [] (monPublish (modMon (fun m => { m with fails := n, lockout := m.lockout || decide (3 ≤ n) }) d))

/-- UNLOCK. -/
def monUnlock (f : MonIn) : Dev → Dev :=
  monServe 3 (· == 20) false (fun d =>
    if d.mon.lockout then monAnswer f mLockout [] d
    else
      let role := byteAt f.payload 0
      let nonce := d.mon.nonce
      let d := modMon (fun m => { m with nonce := none }) d
      if fieldLe f.payload 1 3 ≠ 0 then monAnswer f aRange [] d
      else if lcState d = 3 ∧ role ≠ 3 then monAnswer f mLcState [] d
      else match (if role = 1 ∨ role = 3 then accessKey d role else none), nonce with
      | some k, some n =>
        if (hmac256 k (ascii "AQPOL" ++ natLe 1 role ++ n ++ padTo 16 (ob d 0x003 0))).take 16 = f.payload.drop 4 then
          monAnswer f 0 [] (raise 0x9001 noInst role (monPublish (modMon (fun m => { m with role := some role, fails := 0 }) d)))
        else monFail f role d
      | _, _ => monFail f role d) f

/-- LOCK. -/
def monLock (f : MonIn) : Dev → Dev := monServe 4 (· == 0) false (fun d => monAnswer f 0 [] (monRelock d)) f

/-- STATUS. -/
def monStatus (f : MonIn) : Dev → Dev :=
  monServe 5 (· == 0) false (fun d => monAnswer f 0 ([0x3401, 0x1A0, 0x400, 0x680].flatMap (fun o => natLe 4 (on d o 0))) d) f

/-- MON_BREAK: 115,200 baud until the next start; a WRITE that waits is not answered (R542, R551). -/
def monBreak (d : Dev) : Dev :=
  if !(running d) then d
  else
    let mute := fun (q : QWrite) => match q.reply with | .monitor _ => { q with reply := .none } | _ => q
    let d := modPair (fun p => { p with queue := p.queue.map mute, sendingW := p.sendingW.map mute }) d
    setStatus 0x3401 0 5 (monRelock (modMon (fun m => { m with baud := 115200, broke := true }) d))

/-- MON_IDLE_TIMEOUT. -/
def monIdleTimeout (d : Dev) : Dev := if running d then monRelock d else d

/-- LOCKOUT_END. -/
def lockoutEnd (d : Dev) : Dev :=
  if running d && d.mon.lockout then monPublish (modMon (fun m => { m with lockout := false, fails := 0 }) d) else d

/-- MON_FRAME_GAP_TIMEOUT: the partial frame is discarded (R543). -/
def monGap (d : Dev) : Dev := if running d then incr 32 0x3403 3 d else d

/-- A new rate takes effect once what was to be sent has been sent (R542). -/
def monRate (d : Dev) : Dev := if d.mon.broke || d.mon.baud == on d 0x3400 1 then d else modMon (fun m => { m with baud := on d 0x3400 1 }) d

/-! ### Objects (R547) -/

/-- READ. -/
def monRead (f : MonIn) : Dev → Dev :=
  monServe 0x10 (· == 12) true (fun d =>
    let num := fieldLe f.payload 0 3
    let sub := byteAt f.payload 3
    let n := fieldLe f.payload 8 2
    let role := d.mon.role.getD 0
    if n = 0 ∨ 1024 < n ∨ fieldLe f.payload 10 2 ≠ 0 then monAnswer f aRange [] d
    else
      let c := readCheck d role num sub
      if c ≠ 0 then monAnswer f c [] d
      else let r := readVal role num sub (accessWord f.word num sub d); monAnswer f 0 (slice r.1 (fieldLe f.payload 4 4) n) r.2) f

/-- WRITE. -/
def monWrite (f : MonIn) : Dev → Dev :=
  monServe 0x11 (fun n => decide (4 ≤ n)) true (fun d =>
    let num := fieldLe f.payload 0 3
    let sub := byteAt f.payload 3
    let v := f.payload.drop 4
    if refusesWrite d num then monAnswer f aStandby [] d
    else
      let e := objCode d num sub
      if e ≠ 0 then monAnswer f e [] d
      else if isDomain d num sub ∨ 1000 < v.length then monAnswer f aKind [] d
      else
        let w := writeCheck d (d.mon.role.getD 0) num sub v
        if w.1 ≠ 0 then monAnswer f w.1 [] d else acceptWrite w.2 (.monitor f.seq) monWriteDone d) f

/-- DESCRIBE. -/
def monDescribe (f : MonIn) : Dev → Dev :=
  monServe 0x12 (· == 4) true (fun d =>
    let num := fieldLe f.payload 0 3
    let sub := byteAt f.payload 3
    let e := objCode d num sub
    if e ≠ 0 then monAnswer f e [] d
    else match findObj num with
    | none => d
    | some (o, _) =>
      match findSub o sub with
      | none => d
      | some s => monAnswer f 0 (effDescriptor d num sub o s) d) f

/-- A byte that MEM_READ shows. The key store's memory is not in the SRAM window (R425); where key shares stand there they read
as 0. -/
def monMem (m : Mem) (a : Nat) : Byte := memRead m a

/-- MEM_READ: in FACTORY or DEVELOP, as VENDOR, within the SRAM window of R425. -/
def monMemRead (mem : Mem) (f : MonIn) : Dev → Dev :=
  monServe 0x30 (· == 8) true (fun d =>
    let a := fieldLe f.payload 0 4
    let n := fieldLe f.payload 4 2
    if d.mon.role ≠ some 3 then monAnswer f mLocked [] d
    else if lcState d ≠ 0 ∧ lcState d ≠ 5 then monAnswer f mLcState [] d
    else if n = 0 ∨ 1024 < n ∨ fieldLe f.payload 6 2 ≠ 0 ∨ 0x3000000 < a + n then monAnswer f aRange [] d
    else monAnswer f 0 ((List.range n).map (fun i => monMem mem (a + i))) d) f

/-! ### Trace (R548, R549) -/

/-- TRACE. -/
def monTrace (f : MonIn) : Dev → Dev :=
  monServe 0x20 (· == 4) true (fun d =>
    let m := fieldLe f.payload 0 4
    if 16 ≤ m then monAnswer f aRange [] d
    else if m ≠ 0 ∧ ringSize d 15 = 0 then monAnswer f aState [] d
    else monAnswer f 0 [] (monPublish (put 0x3402 1 m d))) f

/-- A trace record: TYPE, LEN, MICRO, body. -/
def traceRec (d : Dev) (typ : Nat) (b : Bytes) : Bytes :=
  natLe 1 typ ++ natLe 1 0 ++ natLe 2 b.length ++ natLe 4 (d.time.micro % 2 ^ 32) ++ b

/-- Pack records into frames of at most 1,040 bytes, in order. -/
def traceFrames : List Bytes → Bytes → List Bytes
  | [], acc => if acc.isEmpty then [] else [acc]
  | r :: l, acc => if !acc.isEmpty && decide (1040 < acc.length + r.length) then acc :: traceFrames l r else traceFrames l (acc ++ r)

/-- Trace records have come through ring 15: they are sent. -/
def traceSend (rs : List Bytes) (d : Dev) : Dev := forEach (traceFrames rs []) (fun b => monSend 0x80 0 b) d

/-- Trace records find ring 15 full: they are dropped. -/
def traceDrop (n : Nat) (d : Dev) : Dev :=
  put 0x3402 2 (satU 32 (on d 0x3402 2 + n)) (modMon (fun m => { m with lost := m.lost + n, drops := m.drops + n }) d)

/-- Post trace records on ring 15; a full ring drops them, and the first record after a drop is a LOST record (R422, R549). -/
def tracePost (rs : List Bytes) (d : Dev) : Dev :=
  if rs.isEmpty then d
  else
    let all := if d.mon.lost = 0 then rs else traceRec d 5 (natLe 4 (satU 32 d.mon.lost)) :: rs
    let posted := fun d => modMon (fun m => { m with lost := 0 }) d
    if ringSize d 15 ≠ 0 ∧ (ringIdle d 15 ∨ all.length ≤ ringRoom d 15) then
      ringPass 15 (List.replicate (all.length - 1) .part ++ [.trace all]) (traceSend all) id (posted d)
    else ringPass 15 (List.replicate (all.length - 1) .part ++ [.trace all]) id (traceDrop rs.length) d

/-- The sources of a major-frame boundary: SLACK, RINGS, STEP; MON_TRACE_LOST once for a major frame with drops. -/
def traceMajor (d : Dev) : Dev :=
  let d := if d.mon.drops = 0 then d else raise 0x9202 noInst d.mon.drops (modMon (fun m => { m with drops := 0 }) d)
  let src := on d 0x3402 1
  let slack := (List.range 64).flatMap (fun c => natLe 2 (on d 0x1A8 (c + 1)) ++ natLe 2 (on d 0x1A9 (c + 1)))
  let rings := (List.range 16).flatMap (fun r => natLe 2 (on d (0x3200 + r) 2) ++ natLe 2 (on d (0x3200 + r) 3) ++ natLe 4 (on d (0x3200 + r) 6))
  let step := natLe 2 (on d 0x186 0) ++ natLe 2 (on d 0x187 0)
  tracePost ((if src.testBit 0 then [traceRec d 1 slack] else []) ++ (if src.testBit 1 then [traceRec d 2 rings] else []) ++
    (if src.testBit 3 then [traceRec d 4 step] else [])) d

/-- A new event record, of class at least MON.CFG.03. -/
def traceEvent (e : EvRec) (d : Dev) : Dev :=
  if (on d 0x3402 1).testBit 2 && decide (on d 0x3400 3 ≤ evClass e.code) then tracePost [traceRec d 3 (evBytes e)] d else d

/-- A resize of ring 15 to 0 stops trace (R551). -/
def traceResize (d : Dev) : Dev :=
  if on d 0x3402 1 ≠ 0 ∧ ringSize d 15 = 0 then monPublish (put 0x3402 1 0 d) else d

end Sys2Proof.Machine
end

