-- ==== Sys2Proof/Machine/Boundary.lean ====
section
/-! DEFINITION. The time keeper (R26 to R36, R44 to R48) and the boundary token: what ends with a micro-frame, the swap, what
the planes publish and do at the boundary of each frame level, and what settles after any command. -/

namespace Sys2Proof.Machine

/-! ### The clock source (R27) -/

/-- REFCLK is found absent or out of tolerance. -/
def refLost (d : Dev) : Dev :=
  if running d && (on d 0x185 0).testBit 0 then
    raise 0x1401 noInst 0 (setStatus 0x185 0 2 (clrStatus 0x185 0 0 { d with time := { d.time with src := .laneRef } }))
  else d

/-- LANE_REFERENCE_LOSS: with neither reference the time keeper issues no tokens. A loss of the lane reference while REFCLK is in use
leaves no trace, so a loss of REFCLK after it switches to the lane reference all the same: DESIGN CHOICE (log entry 56), R27 gives the
other order only. -/
def laneRefLost (d : Dev) : Dev :=
  if running d && d.time.src == .laneRef then failSilent 3 { d with time := { d.time with src := .none } } else d

/-- The frequency of REFCLK over the minor frame that ends. -/
def refMinor (out : Bool) (d : Dev) : Dev :=
  if out then refLost d else if (on d 0x185 0).testBit 0 then d else setStatus 0x185 0 0 d

/-! ### The replica (R26) -/

def stepMinor (ps : Nat) (d : Dev) : Dev :=
  let d := { d with time := { d.time with
    repSum := d.time.repSum + ps, repCount := d.time.repCount + 1, repMax := max d.time.repMax ps } }
  if 1250 < ps then setStatus 0x185 0 4 d else d

/-- The mean is rounded down to whole ps: DESIGN CHOICE (log entry 38), R26 gives no rounding. -/
def stepMajor (d : Dev) : Dev :=
  let t := d.time
  if t.repCount = 0 then d
  else
    let d := putIf 0x187 0 (satU 16 t.repMax) (putIf 0x186 0 (satU 16 (t.repSum / t.repCount)) d)
    let d := { d with time := { d.time with repSum := 0, repCount := 0, repMax := 0 } }
    if 1250 < t.repMax then raise 0x1201 noInst t.repMax d else d

/-! ### Slack (R44, R70, R71) -/

/-- Slack of a cell in the micro-frame that ends, in 0.1 µs, rounded down from ticks of 2.5 ns (R44). -/
def cellSlack (d : Dev) (c : Nat) : Nat :=
  if d.sched.overrun.any (fun p => p.1 == c) then 0
  else match alGet d.sched.stamp c with
  | some t => (2 * tNs d / 5 - t) / 40
  | none => tNs d / 100

/-- The slack books and the launch overruns in a row of the micro-frame that ends (R44, R69). -/
def frameBooks (d : Dev) : Dev :=
  let s := d.sched
  let cells := (List.range 64).filter (fun c => s.overrun.any (fun p => p.1 == c) || (alGet s.stamp c).isSome)
  let slack := cells.foldl (fun l c =>
    let x := cellSlack d c
    let o := (alGet l c).getD (x, 0, 0)
    alSet l c (min o.1 x, o.2.1 + x, o.2.2 + 1)) s.slack
  let late := (List.range 64).filter (fun c => s.overrun.contains (c, 1))
  { d with sched := { s with
    slack := slack
    frames := s.frames + 1
    launchRun := late.map (fun c => (c, (alGet s.launchRun c).getD 0 + 1)) } }

/-- The SLACK_LOW threshold in 0.1 µs (R65). -/
def slackLow : Nat → Nat
  | 1 => 15 | 2 => 19 | 3 => 24 | 4 => 30 | 5 => 38 | 6 => 60 | 7 => 75 | _ => 0

/-- Minimum and mean slack of a cell over the major frame that ends. -/
def slackOf (d : Dev) (full c : Nat) : Nat × Nat :=
  let n := d.sched.frames
  match alGet d.sched.slack c with
  | some (mn, sum, k) => (if k < n then min mn full else mn, (sum + full * (n - k)) / n)
  | none => (full, full)

/-- Publish the slack of the major frame that ends; SLACK_LOW. -/
def slackMajor (full code : Nat) (d : Dev) : Dev :=
  if d.sched.frames = 0 then d
  else
    let v := (List.range 64).map (slackOf d full)
    let d := forEach ((List.range 64).zip v) (fun p d => putIf 0x1A9 (p.1 + 1) (satU 16 p.2.2) (putIf 0x1A8 (p.1 + 1) (satU 16 p.2.1) d)) d
    let low := ((List.range 64).zip v).filterMap (fun p => if p.2.1 < slackLow code then some p.1 else none)
    let armed := d.sched.slackArmed
    let d := { d with sched := { d.sched with slack := [], frames := 0, slackArmed := low.isEmpty } }
    match low with
    | [] => d
    | c :: _ =>
      let d := setStatus 0x1A0 0 1 (put 0x1AA 0 (on d 0x1AA 0 ||| maskOf low) d)
      if armed then raise 0x1A01 c 0 d else d

/-! ### Civil time (R46) -/

/-- Civil time over `ns`, slewed by at most 100 ppm. -/
def civilTick (ns : Nat) (d : Dev) : Dev :=
  let adj := clampI (-(ns : Int)) ns d.time.slew
  { d with time := { d.time with civil := ((d.time.civil : Int) + ns * 10000 + adj).toNat, slew := d.time.slew - adj } }

/-- A write to TIME.NOW takes effect at a minor-frame boundary. What remains of a TIME.ADJUST offset goes on: DESIGN CHOICE (log
entry 39), R46 does not say whether a step ends it. -/
def civilMinor (d : Dev) : Dev :=
  match d.time.civilStep with
  | some v => setStatus 0x185 0 5 { d with time := { d.time with civil := v * 10000, civilStep := none } }
  | none => d

/-! ### The frame counters (R30 to R32) -/

/-- The next boundary: its level (R92; 4 for every major-frame boundary that is no billing tick) and the counters. -/
def nextTime (t : TimeS) : TimeS :=
  let t := { t with sampled := false, launched := false, refDue := false }
  if !t.begun then { t with begun := true, lastLevel := 5, refDue := true }
  else
    let t := { t with micro := t.micro + 1 }
    if t.m + 1 < microsOf t.code t.minor then { t with m := t.m + 1, lastLevel := 1 }
    else
      let t := { t with m := 0, minor := t.minor + 1, refDue := true }
      if t.k + 1 < 100 then { t with k := t.k + 1, lastLevel := 2 }
      else
        let t := { t with k := 0, major := t.major + 1 }
        if t.major % 10 = 0 then { t with tick := t.tick + 1, lastLevel := 5 } else { t with lastLevel := 4 }

/-- Publish the counters and civil time (R47). -/
def publishTime (d : Dev) : Dev :=
  let t := d.time
  putIf 0x188 0 (civilNs d) (putIf 0x184 0 t.tick (putIf 0x183 0 t.major (putIf 0x182 0 t.minor (putIf 0x181 0 t.micro d))))

/-! ### The end of a micro-frame -/

/-- The outputs and status bits of completed slots come into force for everyone, oldest first (R38). -/
def publishOuts (d : Dev) : Dev :=
  let l := d.sched.outs.reverse
  let b := d.sched.stats
  let d := forEach l (fun o d => { d with os := putV d.os o.key o.val }) { d with sched := { d.sched with outs := [], stats := [] } }
  forEach b (fun x => wrStatus (x.1 / 256) (x.1 % 256) x.2.1 x.2.2) d

/-- The committed states of the last eight micro-frames are kept (R460, R466). -/
def keepHist (micro : Nat) (d : Dev) : Dev :=
  { d with sched := { d.sched with hist := (micro, d.sched.kst) :: d.sched.hist.take 7 } }

/-- The slots of the next micro-frame have not run yet. -/
def clearFrame (d : Dev) : Dev :=
  { d with sched := { d.sched with ran := [], stopped := [], reran := [], stamp := [], overrun := [] } }

/-- The records of the minor frame that ends are final and go to the event log (R111). -/
def eventsFinal (d : Dev) : Dev :=
  let l := d.ev.opened
  let close := fun (e : EvRec) => { e with isOpen := false }
  let d := { d with
    ev := { d.ev with opened := [], window := d.ev.window.map close, last := d.ev.last.map close }
    sched := { d.sched with overRaised := [] } }
  forEach l (fun e d => recPost 3 0x01 (evBytes e) d) d

/-! ### What the data plane publishes at the swap (R151, R198, R225, R254, R257, R264, R285) -/

/-- The groups of a bound stage, from the frame latched in the micro-frame that ended. -/
def publishStage (sampled : Bool) (s : Nat) (d : Dev) : Dev :=
  let gs := List.range (stageE d s).groups
  let l := laneS d s
  let d := cancelRetries s (holdEnd s d)
  let d := modStg s (fun x => { x with lostFor := if x.lost then x.lostFor + tNs d else 0 }) d
  let d := forEach gs (fun g d => publishNode s g (publishMeasFrame s g (sampled && l.valid && !l.upSleep) d)) d
  publishStgFault s (forEach gs (fun g d => countShort s g (publishMeasMask s g d)) d)

def publishCon (c : Nat) (d : Dev) : Dev := publishFloor c (publishThrottle c (publishConFault c d))

/-- Micro-frames since the newest THERMAL record of each connector. -/
def ageRecords (d : Dev) : Dev :=
  { d with lanes := { d.lanes with recs := d.lanes.recs.map (fun r => { r with thermalAge := r.thermalAge + 1 }) } }

/-- The load die: what it measures, its flags at the swap, then the commands in force, which show at the next swap
(R272 to R275, R282). -/
def lchBoundary (x : BoundaryIn) (d : Dev) : Dev :=
  let d := forEach ((List.range 32).zip x.channels) (fun p d => modLch p.1 (fun c => { c with tj := p.2.1, dt := p.2.2 }) d) d
  let d := if x.vload.length = 4 then { d with lch := { d.lch with vload := x.vload } } else d
  let d := forEach (List.range 4) groupPublish (forEach (List.range 32) lchPublish d)
  if !(isActive d) && d.pair.handingOver then d else forEach (List.range 32) lchApply d

def dataPlane (sampled : Bool) (x : BoundaryIn) (d : Dev) : Dev :=
  let d := forEach (stagesBound d) (publishStage sampled) (trackEdges (ageRecords d))
  let d := publishReassign (forEach (consBound d) publishCon d)
  lchBoundary x d

/-! ### Minor and major frames -/

def minorDuties (d : Dev) : Dev :=
  let d := dmaMinor (agePoints (shadowRelease (ageSoc 1 (metMinor { d with lanes := { d.lanes with vehSent := [] } }))))
  if isActive d then fbActive d else d

/-- Mean delivered current of a connector over the major frame that ends (R209). -/
def publishMean (c : Nat) (d : Dev) : Dev :=
  let r := d.lanes.recs.getD c {}
  if r.iCount = 0 then putIf (oCon c 0x25) 0 0 d
  else
    let d := putIf (oCon c 0x25) 0 (ofS 32 (convQ r.iSum 1 (10 * r.iCount))) d
    { d with lanes := { d.lanes with recs := modAt d.lanes.recs c (fun r => { r with iSum := 0, iCount := 0 }) } }

/-- SYS.SUPPLY (R573). -/
def publishSupply (x : BoundaryIn) (d : Dev) : Dev :=
  putIf 0x690 9 (satU 16 x.supplyOut) (forEach ((List.range 8).zip x.supply) (fun p d => putIf 0x690 (p.1 + 1) (satU 16 p.2) d) d)

/-- SYS.COVER but for COVERED (R540). -/
def coverBits (d : Dev) : Nat :=
  let st := on d 0x185 0
  let b : List Bool :=
    [ (if isActive d then partnerReady d else pairBit d 1) && d.pair.declared && (img? d).isSome,
      decide (8 ≤ on d 0x206 0),
      !(pairBit d 5) && !(pairBit d 6) && !(pairBit d 7),
      (attachedLanes d).all (fun l => (laneS d l).st == .up),
      (on d 0x1A0 0).testBit 0,
      decide (on d 0x690 9 % 64 = 0),
      st.testBit 0 && !(st.testBit 2),
      storeUp d ]
  maskOf (((List.range 8).zip b).filterMap (fun p => if p.2 then some p.1 else none))

/-- SYS.COVER (R539, R541). -/
def publishCover (d : Dev) : Dev :=
  let b := coverBits d
  let all := b == 255 && d.pair.role != .single
  let v := b + (if all then 0x8000 else 0)
  let was := (on d 0x680 0).testBit 15
  let d := putIf 0x680 0 v d
  if all && !was then raise 0x0830 noInst v d else if !all && was then raise 0x0A30 noInst v d else d

/-- The die temperatures; a latch that they set asks for a planned switchover (R262, R472). -/
def diesMajor (dies : List Int) (d : Dev) : Dev :=
  if dies.length = 4 then
    let was := oflag d 0x285 5
    let d := dieRound dies d
    if !was && oflag d 0x285 5 then requestSwitchIf 2 d else d
  else d

/-- The accepted image comes into force (R63), with the connectors' MAC addresses (R290). -/
def imageToken (d : Dev) : Dev :=
  match d.sched.next with
  | some im =>
    if d.startup.readyNs ≤ d.startup.t then
      let d := imageInForce im d
      forEach (List.range 64) (fun c d => putb (oCon c 0x52) 0 (conMac d c) d) d
    else d
  | none => d

def majorDuties (x : BoundaryIn) (d : Dev) : Dev :=
  let d := forEach (consBound d) publishMean d
  let d := defaultRefs d
  let d := diesMajor x.dies (publishSupply x d)
  let d := publishTrial (kickToken (sesMajor (metMajor d)))
  sleepDue (relinkDue d)

/-! ### The legal core's tick (R320, R347) -/

/-- A billing-tick token reaches a legal core that meters: its BILLING_TICK is due. -/
def tickToken (d : Dev) : Dev := if meters d then modLegal (fun l => { l with tickDue := true }) d else d

/-! ### The pair -/

/-- NO_IMAGE in the partner's frames at tokens in a row (R454). -/
def noImageToken (d : Dev) : Dev :=
  let seen := d.pair.gotA && d.pair.peerFlags.testBit 3 && on d 0x406 2 == 2
  modPair (fun p => { p with noImg := if seen then p.noImg + 1 else 0 }) d

/-- What the pair does at a boundary token that ends a micro-frame of `ns`, before its frame is sent. -/
def pairToken (ns : Nat) (d : Dev) : Dev :=
  let d := pairWaited d
  if inPair d then
    let d := partnerToken (pairCount (noImageToken (lockToken d)))
    let d := switchCancel (readyToken (demoteToken d))
    readyPublish (overlapToken ns (applyMirror d))
  else overlapToken ns (demoteToken (lockToken d))

/-! ### Updates and restarts (R519, R524) -/

/-- The condition of a standby unit in TRIAL: READY, without loop-state equality where the bundle changes loop arithmetic. -/
def trialReady (d : Dev) : Bool :=
  pairBit d 1 ||
    ((match d.update.run, d.update.keep with
      | some a, some b => changesLoops a b
      | _, _ => false) && readyCond (modPair (fun p => { p with equal := 16 }) d))

/-- A switchover asked for by the update agent was cancelled: the activation is dropped (R472, R519). -/
def dropActivation (d : Dev) : Dev :=
  clrStatus 0x700 0 2 (modUpd (fun u => { u with activate := false, fall := none }) (modStart (fun s => { s with restartAfterHandover := false }) d))

/-- Restarts that fall due. -/
def restartToken (major : Bool) (d : Dev) : Dev :=
  if d.startup.restartDue && major then unitRestart d
  else if d.startup.restartAfterHandover && !(inHandover d) then
    (if d.pair.role = .standby then unitRestart d else if d.pair.switchAt.isNone then dropActivation d else d)
  else d

/-! ### BOUNDARY_TOKEN (R36) -/

/-- What ends with the micro-frame. -/
def frameEnd (minorEnds : Bool) (d : Dev) : Dev :=
  let d := keepHist d.time.micro (publishOuts (frameBooks d))
  let d := clearFrame (compareLoops d.time.micro (keepLoops d.time.micro d))
  if minorEnds then eventsFinal d else d

/-- Time goes on by one micro-frame of `ns`. -/
def timeToken (ns : Nat) (d : Dev) : Dev :=
  let d := modStart (fun s => { s with t := s.t + ns }) (civilTick ns d)
  { d with time := nextTime d.time }

/-- The levels beyond the billing tick's own follow the clock settings that swap with it. -/
def intervalSwap (d : Dev) : Dev := if meters d then applyLevels (tickLevels d) d else d

/-- The swap of the levels that are due (R34, R35). -/
def swapToken (minor major tick : Bool) (d : Dev) : Dev :=
  let ls := if tick then [1, 2, 3, 4, 5] else if major then [1, 2, 3, 4] else if minor then [1, 2] else [1]
  let busy := major || d.os.pend.any (fun p => ls.contains p.level)
  let d := applyLevels ls (if tick then tickToken d else d)
  let d := if tick then intervalSwap d else d
  let d := if major then forEach (stagesBound d) applyRated d else d
  if busy then defaultRefs (nominalModels d) else d

/-- STALE_OBJ ends once every restored object has been rewritten (R86, R89). -/
def staleToken (d : Dev) : Dev :=
  if d.os.stale.isEmpty && (on d 0x1C0 0).testBit 5 then clrStatus 0x1C0 0 5 d else d

/-- What every control slot of the new micro-frame reads (R38): every object, and the connectors' lane fields that kernels read
beyond their bindings. -/
def holdInputs (d : Dev) : Dev :=
  { d with
    os := { d.os with snap := d.os.cur }
    sched := { d.sched with disp := (consBound d).map (fun c => (c, vConnQ d c, iConnQ d c, isoState d c)) } }

/-- BOUNDARY_TOKEN. -/
def boundary (x : BoundaryIn) (d : Dev) : Dev :=
  if !(running d) then d
  else
    let begun := d.time.begun
    let ns := if begun then tNs d else 0
    let full := tNs d / 100
    let d := applyClears (forEach x.reads (fun w => wordRead w.1 w.2) d)
    let code := d.time.code
    let sampled := d.time.sampled
    let minorEnds := begun && decide (microsOf code d.time.minor ≤ d.time.m + 1)
    let majorEnds := minorEnds && decide (99 ≤ d.time.k)
    let d := if begun then timeToken ns (frameEnd minorEnds d) else timeToken ns d
    let minor := decide (2 ≤ d.time.lastLevel)
    let major := decide (4 ≤ d.time.lastLevel)
    let tick := decide (d.time.lastLevel = 5)
    let d := if d.startup.legalNs ≤ d.startup.t then legalReady d else d
    let d := if minor then civilMinor d else d
    let d := if minorEnds then refMinor x.refOut (stepMinor x.step d) else d
    let d := if majorEnds then slackMajor full code (stepMajor d) else d
    let d := roleKnown (publishTime d)
    let d := if major then imageToken d else d
    let d := swapToken minor major tick d
    let d := if major then forEach (consBound d) countFlow d else d
    let d := dataPlane sampled x (pairToken ns d)
    let d := laneBoundary (sesWatch (sesTick ns (legalBoundary ns d)))
    let d := orphanToken d
    let d := if minor then minorDuties d else d
    let d := if major then majorDuties x d else d
    let d := if tick then notifySecond d else d
    let d := yardToken (startToken (announceToken (trialToken (trialReady d) ns d)))
    let d := if major then traceMajor (traceResize (publishCover d)) else d
    let d := holdInputs (staleToken (pairTransmit monWriteDone d))
    restartToken major d

/-! ### What settles after a command -/

/-- Each event just opened is told to the sessions, the monitor and the captures (R376, R442, R549). -/
def tellEvent (e : EvRec) (d : Dev) : Dev := capOnEvent e (traceEvent e (notifyEvent e d))

/-- What every command is followed by: the monitor's new rate, and the telling of the events that it raised. -/
def settle (d : Dev) : Dev :=
  if running d then
    let d := monRate d
    let l := d.ev.fresh
    forEach l tellEvent { d with ev := { d.ev with fresh := [] } }
  else { d with ev := { d.ev with fresh := [] } }

end Sys2Proof.Machine
end

