-- ==== Sys2Proof/Machine/Command.lean ====
section
/-! DEFINITION. How a command acts on the machine: on the device, or on the device and its addressed memory; what the device
sends is collected from one command, and what follows in the management plane settles at once. The few helpers that
several command rows share stand here too. -/

namespace Sys2Proof.Machine

/-- The outcome of every command of this block. -/
abbrev Ans := Host.Outcome State Fault Refusal

/-- A command that acts on the device alone. -/
def act (f : Dev → Dev) (s : State) : Ans := .next { s with dev := settle (f { s.dev with sent := [] }) }

/-- A command that acts on the device and on the memory that DMA addresses. -/
def actMem (f : Dev → Mem → Dev × Mem) (s : State) : Ans :=
  .next { s with dev := settle (f { s.dev with sent := [] } s.mem).1, mem := (f { s.dev with sent := [] } s.mem).2 }

/-- A row whose index names nothing on this part has no condition that could hold (log entry 2). -/
def onPart (named : Bool) (f : Dev → Dev) (d : Dev) : Dev := if named then f d else d

def onPartMem (named : Bool) (f : Dev → Mem → Dev × Mem) (d : Dev) (m : Mem) : Dev × Mem := if named then f d m else (d, m)

/-- What a descriptor of one of the device's own producers has moved reaches its consumer (R420). -/
def deliverItem : RingItem → Dev → Dev
  | .part, d => d
  | .roll s f, d => rollTake s f d
  | .metro c num body, d => metroTaken c num body d
  | .energy, d => deliverTick d
  | .entry i typ body, d => recStore i typ body d
  | .vehicleUp c f, d => vehTake c f d
  | .vehicleDown c msg args f, d => vehGo c msg args f d
  | .yardIn fh segs stop, d => yardTake fh segs stop d
  | .datagram src ses counter pdu mac word, d => udpTaken monWriteDone src ses counter pdu mac word d
  | .pdu op p, d => serveUdp (op == 0x10 || op == 0x12) p (mDispatch monWriteDone op p) d
  | .discovery src tag, d => identTaken src tag d
  | .udp a b, d => emit (.udp a b) d
  | .udpIdent a b, d => emit (.udpIdent a b) d
  | .piece role v, d => pieceTake role v d
  | .trace rs, d => traceSend rs d

/-- What the engine has moved is delivered, in the order of the completions; a ring that has room again takes what a producer holds back
(R422). -/
def delivered (o : Dev × Mem) : Dev × Mem :=
  (recRepost (forEach o.1.moved.reverse deliverItem { o.1 with moved := [] }), o.2)

/-- A row of the engine, with what it has moved. -/
def moving (f : Dev → Mem → Dev × Mem) (d : Dev) (m : Mem) : Dev × Mem := delivered (f d m)

/-- After an update, rings that it has started serve their descriptors (R431). -/
def resumed (f : Dev → Dev) (d : Dev) (m : Mem) : Dev × Mem := delivered (dmaResume (f d) m)

/-- BOUNDARY_TOKEN with the rings that a swap starts. -/
def boundaryMem (x : BoundaryIn) (d : Dev) (m : Mem) : Dev × Mem := resumed (boundary x) d m

/-- START: memory that nothing has written since reads as at reset (log entry 4). -/
def startMem (x : StartIn) (d : Dev) (m : Mem) : Dev × Mem :=
  (startUp x d, if (d.phase = .reset ∨ d.phase = .keep) ∧ !x.testEn then [] else m)

/-- A SEQ slot of a stage (R242), or of a node (R244). -/
def runSeq (stage : Bool) (f : Dev → Image → SlotR → List Int → KOut) (i : Nat) (r : SlotReport) (d : Dev) : Dev :=
  match img? d, slotAt d i with
  | some im, some sl => if (stageSeqOf im sl).isSome = stage then runSlot 0x31 fieldStandin f i r d else d
  | _, _ => d

/-- A write that names no object is refused (R94). -/
def noObject (d : Dev) : Dev := if running d then emit (.result aUnassigned) d else d

/-- A write of a number to an object of a stage, a connector, a load channel or a session context. -/
def writeStg (role s off sub n v : Nat) (d : Dev) : Dev :=
  if s < 32 then directNum role (oStg s off) sub n v d else noObject d

def writeCon (role c off sub n v : Nat) (d : Dev) : Dev :=
  if c < 64 then directNum role (oCon c off) sub n v d else noObject d

def writeLch (role n off sub w v : Nat) (d : Dev) : Dev :=
  if n < 32 then directNum role (oLch n off) sub w v d else noObject d

def writeSes (role n off sub w v : Nat) (d : Dev) : Dev :=
  if n < 256 then directNum role (oSes n off) sub w v d else noObject d

/-- The line of a bleed is taken as 0 V (R233). -/
def bleedLine : BleedLine → Dev → Dev
  | .bus s g => bleedBus s g
  | .node n => bleedNode n

/-- The descriptor of a row: its OP, but for an OP that R423 does not list, which the engine itself rejects (R430). -/
def descOf (op : Nat) (x : Desc) : Desc := if 3 < x.op then x else { x with op := op }

end Sys2Proof.Machine
end

