-- ==== Sys2Proof/Machine/CmdFieldBus.lean ====
section
/-! DEFINITION. The commands of the field buses (spec/16): one meaning per row of the opcode table. -/

namespace Sys2Proof.Machine

/-- PUSH_IN (R383). -/
def execPushIn (b node page : Nat) (values : List Nat) (rsv : Nat) (f : CanIn) : State → Ans :=
  act (onPart (decide (b < 4)) (pushIn b node page values rsv f.held f.id))

/-- FB_POINT_STALE (R383). -/
def execFbPointStale (n : Nat) : State → Ans := act (onPart (decide (n < 0x4000)) (pointStale n))

/-- FB_POINTS_WRITE (R382). -/
def execFbPointsWrite (role : Nat) (table : Bytes) : State → Ans := act (directWrite role 0x3014 0 table)

/-- DISCOVERY_START_WRITE (R381). -/
def execDiscoveryStartWrite (role mask : Nat) : State → Ans := act (directNum role 0x300C 3 1 mask)

/-- IDENT (R381). -/
def execIdentFrame (b vendor model addr : Nat) (serial : Bytes) (rsv : Nat) (f : CanIn) : State → Ans :=
  act (onPart (decide (b < 4)) (identNode b vendor model addr serial rsv f.held f.id f.assign))

/-- DISCOVERY_ROUND_END (R381). -/
def execDiscoveryRoundEnd (b : Nat) : State → Ans := act (onPart (decide (b < 4)) (ifRun (discRoundEnd b)))

/-- BUS_ERROR (R365). -/
def execBusError (b kind : Nat) : State → Ans := act (onPart (decide (b < 4)) (ifRun (busError b kind)))

/-- BUS_OFF_RECOVERY (R365). -/
def execBusOffRecovery (b : Nat) : State → Ans := act (onPart (decide (b < 4)) (ifRun (busOffRecovery b)))

/-- CAN_FRAME_TRANSMITTED (R371). -/
def execCanFrameTransmitted (b sof : Nat) : State → Ans := act (onPart (decide (b < 4)) (ifRun (canSent b sof)))

end Sys2Proof.Machine
end

