-- ==== Sys2Proof/Machine/CmdGuard.lean ====
section
/-! DEFINITION. The commands of overruns, the guard, recomputation, the management watchdog (spec/03, spec/04, spec/21): one meaning per row of the opcode table. -/

namespace Sys2Proof.Machine

/-- OVERRUN (R43). -/
def execSlotOverrun (cell sect : Nat) : State → Ans := act (onPart (decide (cell < 64)) (ifRun (slotOverrun cell sect)))

/-- LAUNCH_OVERRUN_LIMIT (R69). -/
def execLaunchOverrunLimit (cell : Nat) : State → Ans := act (onPart (decide (cell < 64)) (ifRun (launchOverrunLimit cell)))

/-- SCRUB_READ (R78). -/
def execScrubRead (w : WordRead) (hit : ScrubHit) : State → Ans := act (scrubRead w hit)

/-- GRANULE_RELOAD (R85). -/
def execGranuleReload (g : Granule) (data : Bytes) : State → Ans := act (ifRun (granuleReload g data))

/-- KEY_REDERIVE (R87). -/
def execKeyRederive (num addr : Nat) (norOk : Bool) (parents : List Bool) : State → Ans :=
  act (ifRun (keyRederive num addr norOk parents))

/-- TLS_KEY_FETCH (R87). -/
def execTlsKeyFetch (n addr : Nat) : State → Ans := act (onPart (decide (n < 256)) (ifRun (tlsKeyFetch n addr)))

/-- BILL_RECALC (R88). -/
def execBillRecalc (m sub addr : Nat) (lost : List Nat) (done : Bool) : State → Ans :=
  act (onPart (decide (m < 66) && decide (1 ≤ sub) && decide (sub ≤ 10)) (ifRun (billRecalc m sub addr lost done)))

/-- MGMT_KICK (R497). -/
def execMgmtKick (core : Nat) : State → Ans := act (onPart (decide (core < 4)) (mgmtKick core))

/-- MGMT_RESTART (R497). -/
def execMgmtRestart : State → Ans := act mgmtRestart

end Sys2Proof.Machine
end

