-- ==== Sys2Proof/Machine/CmdKernels.lean ====
section
/-! DEFINITION. The commands of the kernels of the schedule (spec/03, spec/07 to spec/11): one meaning per row of the opcode table. -/

namespace Sys2Proof.Machine

/-- PI (R155). -/
def execPiKernel (i : Nat) (r : SlotReport) : State → Ans := act (runSlot 1 fieldStandin (kPi false) i r)

/-- PID (R155). -/
def execPidKernel (i : Nat) (r : SlotReport) : State → Ans := act (runSlot 2 fieldStandin (kPi true) i r)

/-- KERNEL_2P2Z (R163). -/
def execKernel2p2z (i : Nat) (r : SlotReport) : State → Ans := act (runSlot 3 fieldStandin (kComp false) i r)

/-- KERNEL_3P3Z (R163). -/
def execKernel3p3z (i : Nat) (r : SlotReport) : State → Ans := act (runSlot 4 fieldStandin (kComp true) i r)

/-- MINSEL (R157). -/
def execMinselKernel (i : Nat) (r : SlotReport) : State → Ans := act (runSlot 0x10 fieldStandin kMinsel i r)

/-- RAMP (R159). -/
def execRampKernel (i : Nat) (r : SlotReport) : State → Ans := act (runSlot 0x11 fieldStandin kRamp i r)

/-- LIMIT (R158). -/
def execLimitKernel (i : Nat) (r : SlotReport) : State → Ans := act (runSlot 0x12 fieldStandin kLimit i r)

/-- MODEL_PHASE (R184). -/
def execModelPhase (i : Nat) (r : SlotReport) : State → Ans := act (runSlot 0x20 fieldStandin kModelPhase i r)

/-- BALANCE (R165). -/
def execBalanceKernel (i : Nat) (r : SlotReport) : State → Ans := act (runSlot 0x21 fieldStandin kBalance i r)

/-- PACK (R166). -/
def execPackKernel (i : Nat) (r : SlotReport) : State → Ans := act (runSlot 0x22 fieldStandin kPack i r)

/-- DIODE_EMU (R175). -/
def execDiodeEmu (i : Nat) (r : SlotReport) : State → Ans := act (runSlot 0x23 fieldStandin kDiode i r)

/-- SUM_CHECK (R189). -/
def execSumCheck (i : Nat) (r : SlotReport) : State → Ans := act (runSlot 0x24 fieldStandin kSumCheck i r)

/-- MODEL_ADAPT (R187). -/
def execModelAdapt (i : Nat) (r : SlotReport) : State → Ans := act (runSlot 0x25 fieldStandin kModelAdapt i r)

/-- SHED (R176). -/
def execShedKernel (i : Nat) (r : SlotReport) : State → Ans := act (runSlot 0x26 fieldStandin kShed i r)

/-- I2T (R173). -/
def execI2tKernel (i : Nat) (r : SlotReport) : State → Ans := act (runSlot 0x27 fieldStandin kI2t i r)

/-- ENERGY_BUDGET (R235). -/
def execEnergyBudget (i : Nat) (r : SlotReport) : State → Ans := act (runSlot 0x30 fieldStandin kEnergyBudget i r)

/-- STAGE_SEQUENCER (R242). -/
def execStageSequencer (i : Nat) (r : SlotReport) : State → Ans := act (runSeq true kStageSeq i r)

/-- NODE_SEQUENCER (R244). -/
def execNodeSequencer (i : Nat) (r : SlotReport) : State → Ans := act (runSeq false kNodeSeq i r)

/-- THERM3 (R256). -/
def execTherm3 (i : Nat) (r : SlotReport) : State → Ans := act (runSlot 0x40 fieldStandin kTherm3 i r)

/-- ALLOC (R214). -/
def execAllocKernel (i : Nat) (r : SlotReport) : State → Ans := act (runSlot 0x50 fieldStandin kAlloc i r)

/-- ALLOC_FAST (R222). -/
def execAllocFast (i : Nat) (r : SlotReport) : State → Ans := act (runSlot 0x51 fieldStandin kAllocFast i r)

/-- SPILL (R216). -/
def execSpillKernel (i : Nat) (r : SlotReport) : State → Ans := act (runSlot 0x52 fieldStandin kSpill i r)

/-- PROFILE_CLOSE (R210). -/
def execProfileClose (i : Nat) (r : SlotReport) : State → Ans := act (runSlot 0x53 fieldStandin kProfileClose i r)

end Sys2Proof.Machine
end

