-- ==== Sys2Proof/Machine/CmdKeys.lean ====
section
/-! DEFINITION. The commands of keys and firmware update (spec/20, spec/22): one meaning per row of the opcode table. -/

namespace Sys2Proof.Machine

/-- LC_REQ_WRITE (R480). -/
def execLcReqWrite (role sub : Nat) (value : Bytes) : State → Ans := act (directWrite role 0x501 sub value)

/-- KEY_ROLL_WRITE (R487). -/
def execKeyRollWrite (role value : Nat) : State → Ans := act (directNum role 0x504 0 2 value)

/-- KEY_INSTALL_WRITE (R484). -/
def execKeyInstallWrite (role num : Nat) (key : Bytes) : State → Ans := act (directWrite role num 0 key)

/-- KEY_PUB_WRITE (R486). -/
def execKeyPubWrite (role k sub : Nat) (value : Bytes) : State → Ans := act (if k < 16 then directWrite role (0x530 + k) sub value else noObject)

/-- KEY_REMASK (R489). -/
def execKeyRemask : State → Ans := act keyRemask

/-- UPD_BEGIN_WRITE (R514). -/
def execUpdBeginWrite (role sub : Nat) (value : Bytes) : State → Ans := act (directWrite role 0x701 sub value)

/-- UPD_PIECE_WRITE (R515). -/
def execUpdPieceWrite (role : Nat) (value : Bytes) : State → Ans := act (directWrite role 0x702 0 value)

/-- PACKAGE_VERIFIED (R517). -/
def execPackageVerified (storeOk : Bool) : State → Ans := act (ifRun (packageVerified storeOk))

/-- UPD_STAGED (R518). -/
def execUpdStaged : State → Ans := act (ifRun updStaged)

/-- UPD_ACTIVATE_WRITE (R519). -/
def execUpdActivateWrite (role sub value : Nat) : State → Ans := act (directNum role 0x705 sub 1 value)

/-- QUIET_HANDOVER (R520). -/
def execQuietHandover : State → Ans := act quietHandover

/-- UPD_REJECT_WRITE (R525). -/
def execUpdRejectWrite (role value : Nat) : State → Ans := act (directNum role 0x708 0 1 value)

/-- UPD_CONFIRMED (R524). -/
def execUpdConfirmed : State → Ans := act updConfirmed

/-- TRIAL_TIMEOUT (R525). -/
def execTrialTimeout : State → Ans := act trialTimeout

end Sys2Proof.Machine
end

