-- ==== Sys2Proof/Machine/CmdLanes.lean ====
section
/-! DEFINITION. The commands of the stage and dispenser lanes (spec/06, spec/07): one meaning per row of the opcode table. -/

namespace Sys2Proof.Machine

/-- STAGE_UP (R122). -/
def execStageUp (s : Nat) (f : Frame) : State → Ans := act (onPart (decide (s < 32)) (ifRun (stageUp s f)))

/-- DISP_UP (R128). -/
def execDispUp (di : Nat) (f : Frame) : State → Ans := act (onPart (decide (di < 16)) (ifRun (dispUpFrame di f)))

/-- METRO (R131). -/
def execMetroRecord (c number : Nat) (body : Bytes) : State → Ans := act (onPart (decide (c < 64)) (ifRun (metroRow c number body)))

/-- METRO_GAP (R131). -/
def execMetroGap (c number : Nat) : State → Ans := act (onPart (decide (c < 64)) (ifRun (metroGap c number)))

/-- VETH (R132). -/
def execVethRecord (c offset : Nat) (last : Bool) (bytes : Bytes) : State → Ans := act (onPart (decide (c < 64)) (ifRun (veth c offset last bytes)))

/-- SC_BLOCK (R170). -/
def execScBlock (s p : Nat) (sample : Int) : State → Ans := act (onPart (decide (s < 32) && decide (p < 32)) (ifRun (scBlock s p sample)))

/-- SC_CLEAR_WRITE (R172). -/
def execScClearWrite (role s mask : Nat) : State → Ans := act (writeStg role s 0x0C 0 4 mask)

/-- BLOCK_LOCK (R138). -/
def execBlockLock (l : Nat) (headers : List Nat) : State → Ans := act (onPart (decide (l < 50)) (ifRun (blockLock l headers)))

/-- BLOCK_LOCK_TIMEOUT (R138). -/
def execBlockLockTimeout (l : Nat) : State → Ans := act (onPart (decide (l < 50)) (ifRun (blockLockTimeout l)))

/-- ECHO (R139). -/
def execEchoMarker (l tag roundTrip : Nat) : State → Ans := act (onPart (decide (l < 48)) (ifRun (echo l tag roundTrip)))

/-- RANGING_TIMEOUT (R139). -/
def execRangingTimeout (l : Nat) : State → Ans := act (onPart (decide (l < 48)) (ifRun (rangingTimeout l)))

/-- IDENT_RSP (R140). -/
def execIdentRsp (l : Nat) (f : Frame) : State → Ans := act (onPart (decide (l < 48)) (ifRun (identRsp l f)))

/-- IDENT_RSP_TIMEOUT (R138). -/
def execIdentRspTimeout (l : Nat) : State → Ans := act (onPart (decide (l < 48)) (ifRun (identRspTimeout l)))

/-- LINKUP_RETRY (R138). -/
def execLinkupRetry (l : Nat) : State → Ans := act (onPart (decide (l < 50)) (linkupRetry l))

/-- LANE_DOWN (R142). -/
def execLaneDown (l : Nat) (times : List Nat) : State → Ans := act (onPart (decide (l < 50)) (ifRun (laneDown l times)))

/-- SLEEP_MARKER (R143). -/
def execSleepMarker (l : Nat) : State → Ans := act (onPart (decide (l < 48)) (sleepMarker l))

/-- UPSTREAM_WAKE (R143). -/
def execUpstreamWake (l : Nat) : State → Ans := act (onPart (decide (l < 48)) (upstreamWake l))

end Sys2Proof.Machine
end

