-- ==== Sys2Proof/Machine/CmdLoads.lean ====
section
/-! DEFINITION. The commands of the load channels (spec/12): one meaning per row of the opcode table. -/

namespace Sys2Proof.Machine

/-- LCH_CMD_WRITE (R273). -/
def execLchCmdWrite (role n value : Nat) : State → Ans := act (writeLch role n 0 0 1 value)

/-- LCH_SHORT (R275). -/
def execLchShort (n : Nat) : State → Ans := act (onPart (decide (n < 32)) (lchShort n))

/-- HELD_SHORT (R275). -/
def execHeldShort (n : Nat) : State → Ans := act (onPart (decide (n < 32)) (lchHeldShort n))

/-- LCH_OVERLOAD (R275). -/
def execLchOverload (n : Nat) : State → Ans := act (onPart (decide (n < 32)) (lchOverload n))

/-- LCH_THERMAL (R275). -/
def execLchThermal (n : Nat) : State → Ans := act (onPart (decide (n < 32)) (lchThermal n))

/-- LCH_THERM_LATCH (R279). -/
def execLchThermLatch (n : Nat) : State → Ans := act (onPart (decide (n < 32)) (lchThermLatch n))

/-- LCH_OPEN_LOAD (R275). -/
def execLchOpenLoad (n : Nat) : State → Ans := act (onPart (decide (n < 32)) (lchOpenLoad n))

/-- LCH_CLAMP (R275). -/
def execLchClamp (n : Nat) : State → Ans := act (onPart (decide (n < 32)) (lchClamp n))

/-- LCH_RETRY (R277). -/
def execLchRetry (n : Nat) : State → Ans := act (onPart (decide (n < 32)) (lchRetry n))

/-- RETRY_COUNT_RESET (R277). -/
def execRetryCountReset (n : Nat) : State → Ans := act (onPart (decide (n < 32)) (retryCountReset n))

/-- INRUSH_WINDOW_END (R278). -/
def execInrushWindowEnd (n : Nat) (atLimit : Bool) : State → Ans := act (onPart (decide (n < 32)) (inrushEnd n atLimit))

/-- LCH_VLOAD (R272). -/
def execLchVload (g mv : Nat) : State → Ans := act (onPart (decide (g < 4)) (lchVload g mv))

/-- VLOAD_RETURN (R272). -/
def execVloadReturn (g mv : Nat) : State → Ans := act (onPart (decide (g < 4)) (vloadReturn g mv))

/-- LOCK_CLEAR_WRITE (R277). -/
def execLockClearWrite (role n : Nat) : State → Ans := act (writeLch role n 4 0 1 1)

/-- LATCH_CLEAR_WRITE (R279). -/
def execLatchClearWrite (role n : Nat) : State → Ans := act (writeLch role n 4 0 1 2)

/-- FS_HOLD_EXPIRY (R282). -/
def execFsHoldExpiry : State → Ans := act fsHoldExpiry

/-- DELTA_T_BELOW_RESTART (R277). -/
def execDeltaTBelowRestart (n : Nat) : State → Ans := act (onPart (decide (n < 32)) (deltaTBelow n))

end Sys2Proof.Machine
end

