-- ==== Sys2Proof/Machine/CmdMalpen.lean ====
section
/-! DEFINITION. The commands of Malpen, UDP and the writes of the object dictionary (spec/05, spec/16): one meaning per row of the opcode table. -/

namespace Sys2Proof.Machine

/-- READ (R374). -/
def execReadObj (p : PduIn) : State → Ans := act (serve false 1 p (mReadObj p))

/-- WRITE (R374). -/
def execWriteObj (p : PduIn) : State → Ans := act (serve false 3 p (mWriteObj monWriteDone p))

/-- SEG_READ (R375). -/
def execSegRead (p : PduIn) : State → Ans := act (serve false 5 p (mSegRead p))

/-- SEG_WRITE (R375). -/
def execSegWrite (p : PduIn) : State → Ans := act (serve false 6 p (mSegWrite monWriteDone p))

/-- BLK_READ (R375). -/
def execBlkRead (p : PduIn) : State → Ans := act (serve false 7 p (mBlkRead p))

/-- BLK_WRITE (R375). -/
def execBlkWrite (p : PduIn) : State → Ans := act (serve false 8 p (mBlkWrite monWriteDone p))

/-- DATA (R375). -/
def execDataPdu (p : PduIn) : State → Ans := act (serve false 0x0A p (mData monWriteDone p))

/-- ACK (R375). -/
def execAckPdu (p : PduIn) : State → Ans := act (serve false 0x0B p (mAck p))

/-- DESCRIBE (R373). -/
def execDescribeObj (p : PduIn) : State → Ans := act (serve false 0x0C p (mDescribe p))

/-- ABORT (R378). -/
def execAbortPdu (p : PduIn) : State → Ans := act (serve false 0x0E p (mAbort p))

/-- OPEN (R379). -/
def execOpenSession (p : PduIn) : State → Ans := act (serve true 0x10 p (mOpen p))

/-- PROVE (R379). -/
def execProveSession (p : PduIn) : State → Ans := act (serve true 0x12 p (mProve p))

/-- CLOSE (R379). -/
def execCloseSession (p : PduIn) : State → Ans := act (serve false 0x14 p (mClose p))

/-- UDP_DATAGRAM (R380). -/
def execUdpDatagram (src : Nat) (dst : Bytes) (port ses counter : Nat) (pdu : Bytes) (mac : UdpEnd) : State → Ans :=
  act (udpDatagram monWriteDone src dst port ses counter pdu mac.mac mac.word)

/-- UDP_DISCOVERY (R380). -/
def execUdpDiscovery (src : Asker) (dst : Bytes) (port : Nat) : State → Ans := act (udpDiscovery src.addr src.tag dst port)

/-- TRANSFER_TIMEOUT (R377). -/
def execTransferTimeout (c : Client) (tag : Nat) : State → Ans := act (ifRun (transferTimeout c tag))

/-- SESSION_IDLE_TIMEOUT (R379). -/
def execSessionIdleTimeout (c : Client) : State → Ans := act (sessionIdleTimeout c)

/-- OBJECT_WRITE (R96). -/
def execObjectWrite (role num sub : Nat) (value : Bytes) : State → Ans := act (directWrite role num sub value)

/-- FEATURE_ACCEPTED_WRITE (R107). -/
def execFeatureAcceptedWrite (c : Client) (value : Nat) : State → Ans := act (featureAccepted monWriteDone c value)

/-- CTRL_LEVEL_WRITE (R102). -/
def execCtrlLevelWrite (role group value : Nat) : State → Ans := act (directNum role 0x020 group 1 value)

end Sys2Proof.Machine
end

