-- ==== Sys2Proof/Machine/CmdMetering.lean ====
section
/-! DEFINITION. The commands of metering and billing (spec/14, spec/15): one meaning per row of the opcode table. -/

namespace Sys2Proof.Machine

/-- ADC_SAMPLE (R315). -/
def execAdcSample (samples : List Int) : State → Ans := act (adcSample samples)

/-- PULSE_MS (R324). -/
def execPulseMs : State → Ans := act pulseMs

/-- MET_PHASE_SEQ (R325). -/
def execMetPhaseSeq (k : Nat) : State → Ans := act (onPart (decide (k < 2)) (metPhaseSeq k))

/-- MET_NEUTRAL (R327). -/
def execMetNeutral (k : Nat) : State → Ans := act (onPart (decide (k < 2)) (metNeutral k))

/-- LEGAL_PARAMETER_WRITE (R314). -/
def execLegalParameterWrite (role num sub : Nat) (value : Bytes) : State → Ans := act (directWrite role num sub value)

/-- LEGAL_SETTING_WRITE (R336). -/
def execLegalSettingWrite (role num sub : Nat) (value : Bytes) : State → Ans := act (directWrite role num sub value)

/-- BILLING_TICK (R320). -/
def execBillingTick : State → Ans := act billTick

/-- TARIFF_SAMPLE (R342). -/
def execTariffSample (in1 in0 : Bool) : State → Ans := act (tariffSample in1 in0)

/-- LEGAL_CHECK (R334). -/
def execLegalCheck (value again tMs : Nat) : State → Ans := act (ifRun (legalCheck value again tMs))

/-- BIL_SEAL (R337). -/
def execBilSeal (asserted : Bool) : State → Ans := act (ifRun (bilSeal asserted))

/-- BIL_TAMPER (R337). -/
def execBilTamper (i : Nat) (active : Bool) (ms : Nat) : State → Ans := act (onPart (decide (i < 2)) (bilTamper i active ms))

/-- STORE_RETRY (R347). -/
def execStoreRetry : State → Ans := act storeRetry

/-- PERIOD_CLOSE_WRITE (R344). -/
def execPeriodCloseWrite (role value : Nat) : State → Ans := act (directNum role 0x220A 0 1 value)

/-- BILLING_RECORD_COMMIT (R469). -/
def execBillingRecordCommit (m : Nat) : State → Ans := act (onPart (decide (m < 66)) (billingRecordCommit m))

end Sys2Proof.Machine
end

