-- ==== Sys2Proof/Machine/CmdMonitor.lean ====
section
/-! DEFINITION. The commands of the development monitor (spec/24): one meaning per row of the opcode table. -/

namespace Sys2Proof.Machine

/-- MON_PING (R547). -/
def execMonPing (f : MonIn) : State → Ans := act (monPing f)

/-- MON_CHALLENGE (R546). -/
def execMonChallenge (f : MonIn) : State → Ans := act (monChallenge f)

/-- MON_UNLOCK (R546). -/
def execMonUnlock (f : MonIn) : State → Ans := act (monUnlock f)

/-- MON_LOCK (R546). -/
def execMonLock (f : MonIn) : State → Ans := act (monLock f)

/-- MON_STATUS (R547). -/
def execMonStatus (f : MonIn) : State → Ans := act (monStatus f)

/-- MON_READ (R547). -/
def execMonRead (f : MonIn) : State → Ans := act (monRead f)

/-- MON_WRITE (R547). -/
def execMonWrite (f : MonIn) : State → Ans := act (monWrite f)

/-- MON_DESCRIBE (R547). -/
def execMonDescribe (f : MonIn) : State → Ans := act (monDescribe f)

/-- MON_TRACE (R548). -/
def execMonTrace (f : MonIn) : State → Ans := act (monTrace f)

/-- MON_MEM_READ (R547). -/
def execMonMemRead (f : MonIn) : State → Ans := fun s => act (monMemRead s.mem f) s

/-- MON_BREAK (R542). -/
def execMonBreak : State → Ans := act monBreak

/-- MON_IDLE_TIMEOUT (R546). -/
def execMonIdleTimeout : State → Ans := act monIdleTimeout

/-- LOCKOUT_END (R546). -/
def execLockoutEnd : State → Ans := act lockoutEnd

/-- MON_FRAME_GAP_TIMEOUT (R543). -/
def execMonFrameGapTimeout : State → Ans := act monGap

end Sys2Proof.Machine
end

