-- ==== Sys2Proof/Machine/CmdPair.lean ====
section
/-! DEFINITION. The commands of the pair (spec/06, spec/19): one meaning per row of the opcode table. -/

namespace Sys2Proof.Machine

/-- TIMING_MARKER (R144). -/
def execTimingMarker (l value : Nat) (arrival : Int) (active : Option FrameCounts) : State → Ans :=
  act (onPart (l == 48 || l == 49) (timingMarker l value arrival active))

/-- PAIR_FRAME (R145). -/
def execPairFrame (l : Nat) (f : Frame) (arrival : Nat) : State → Ans := act (onPart (l == 48 || l == 49) (pairFrame l f arrival))

/-- PAIR_FRAME_SENT (R464). -/
def execPairFrameSent : State → Ans := act (pairFrameSent monWriteDone)

/-- ELECTION_TIMEOUT (R452). -/
def execElectionTimeout : State → Ans := act (ifRun electionTimeout)

/-- HB_IN_EDGE (R456). -/
def execHbInEdge (time : Nat) : State → Ans := act (hbInEdge time)

/-- HB_OUT_TOGGLE (R456). -/
def execHbOutToggle : State → Ans := act hbOutToggle

/-- PAIR_TAKEOVER (R460). -/
def execPairTakeover : State → Ans := act pairTakeover

/-- PAIR_PATH_FAULT (R458). -/
def execPairPathFault (path : Nat) : State → Ans := act (onPart (path == 1 || path == 2) (pathFault path))

/-- PATH_FAULT_CLEAR (R458). -/
def execPathFaultClear (path : Nat) : State → Ans := act (onPart (path == 1 || path == 2) (pathFaultClear path))

/-- NO_IMAGE_TAKEOVER (R454). -/
def execNoImageTakeover : State → Ans := act noImageTakeover

/-- PAIR_SWITCH_WRITE (R472). -/
def execPairSwitchWrite (role value : Nat) : State → Ans := act (directNum role 0x405 0 1 value)

/-- SWITCHOVER (R472). -/
def execSwitchover : State → Ans := act switchover

/-- RETURN_HOLDOFF (R473). -/
def execReturnHoldoff : State → Ans := act returnHoldoff

end Sys2Proof.Machine
end

