-- ==== Sys2Proof/Machine/CmdSessions.lean ====
section
/-! DEFINITION. The commands of vehicle sessions (spec/13): one meaning per row of the opcode table. -/

namespace Sys2Proof.Machine

/-- LINK_STATE (R292). -/
def execLinkState (c : Nat) (frame : Bytes) : State → Ans := act (onPart (decide (c < 64)) (ifRun (linkState c frame)))

/-- LINK_STATE_TIMEOUT (R292). -/
def execLinkStateTimeout (c : Nat) : State → Ans := act (onPart (decide (c < 64)) (ifRun (linkTimeout c)))

/-- SECC_DISCOVERY_REQUEST (R288). -/
def execSeccDiscoveryRequest (c : Nat) (tls : Bool) : State → Ans := act (onPart (decide (c < 64)) (seccDiscovery c tls))

/-- SUPPORTED_APP_PROTOCOL (R288). -/
def execSupportedAppProtocol (c : Nat) (offers : List (Nat × Nat)) : State → Ans := act (onPart (decide (c < 64)) (appProtocol c offers))

/-- TLS_HANDSHAKE (R289). -/
def execTlsHandshake (c : Nat) (m : TlsHello) : State → Ans := act (onPart (decide (c < 64)) (tlsHandshake c m))

/-- SESSION_SETUP (R294). -/
def execSessionSetup (c : Nat) (id evccid : Bytes) : State → Ans := act (onPart (decide (c < 64)) (sessionSetup c id evccid))

/-- AUTHORIZATION (R299). -/
def execAuthorization (c : Nat) (pnc : Bool) (chain emaid : Bytes) : State → Ans := act (onPart (decide (c < 64)) (authorization c pnc chain emaid))

/-- AUTH_TIMEOUT (R299). -/
def execAuthTimeout (n : Nat) : State → Ans := act (onPart (decide (n < 256)) (authTimeout n))

/-- CHARGE_PARAMETER_DISCOVERY (R295). -/
def execChargeParameterDiscovery (c : Nat) (m : VehLimits) : State → Ans := act (onPart (decide (c < 64)) (chargeParams c m))

/-- CABLE_CHECK (R296). -/
def execCableCheck (c : Nat) : State → Ans := act (onPart (decide (c < 64)) (cableCheck c))

/-- PRECHARGE_REQUEST (R297). -/
def execPrechargeRequest (c vTarget : Nat) : State → Ans := act (onPart (decide (c < 64)) (prechargeRequest c vTarget))

/-- PRECHARGE_TIMEOUT (R297). -/
def execPrechargeTimeout (c : Nat) : State → Ans := act (onPart (decide (c < 64)) (prechargeTimeout c))

/-- POWER_DELIVERY (R297). -/
def execPowerDelivery (c : Nat) (start : Bool) : State → Ans := act (onPart (decide (c < 64)) (powerDelivery c start))

/-- CHARGE_LOOP (R298). -/
def execChargeLoop (c vTarget : Nat) (m : VehLimits) : State → Ans := act (onPart (decide (c < 64)) (chargeLoop c vTarget m))

/-- CHARGE_LOOP_TIMEOUT (R298). -/
def execChargeLoopTimeout (c : Nat) : State → Ans := act (onPart (decide (c < 64)) (chargeLoopTimeout c))

/-- WELDING_DETECTION (R300). -/
def execWeldingDetection (c : Nat) : State → Ans := act (onPart (decide (c < 64)) (weldingDetection c))

/-- SESSION_STOP_REQUEST (R300). -/
def execSessionStopRequest (c : Nat) (pause : Bool) : State → Ans := act (onPart (decide (c < 64)) (sessionStopRequest c pause))

/-- RESUME_TIMEOUT (R294). -/
def execResumeTimeout (n : Nat) : State → Ans := act (onPart (decide (n < 256)) (resumeTimeout n))

/-- SESSION_RECORD_STORED (R354). -/
def execSessionRecordStored (n : Nat) : State → Ans := act (onPart (decide (n < 256)) (sessionRecordStored n))

/-- SES_AUTH_WRITE (R299). -/
def execSesAuthWrite (role n value : Nat) : State → Ans := act (writeSes role n 6 0 1 value)

/-- SES_STOP_WRITE (R300). -/
def execSesStopWrite (role n value : Nat) : State → Ans := act (writeSes role n 8 0 1 value)

/-- SES_DIR_WRITE (R305). -/
def execSesDirWrite (role n value : Nat) : State → Ans := act (writeSes role n 9 0 1 value)

/-- SES_KEY_ROLL_WRITE (R302). -/
def execSesKeyRollWrite (role mask : Nat) : State → Ans := act (directNum role 0x318 0 1 mask)

/-- SES_CHAIN_WRITE (R302). -/
def execSesChainWrite (role k : Nat) (chain : Bytes) : State → Ans := act (if k < 4 then directWrite role (0x311 + 2 * k) 0 chain else noObject)

end Sys2Proof.Machine
end

