-- ==== Sys2Proof/Machine/CmdStages.lean ====
section
/-! DEFINITION. The commands of stage supervision, matrix, contactors, cooling (spec/08 to spec/11): one meaning per row of the opcode table. -/

namespace Sys2Proof.Machine

/-- STG_LOST (R197). -/
def execStgLost (s : Nat) : State → Ans := act (onPart (decide (s < 32)) (stgLost s))

/-- LOST_END (R197). -/
def execLostEnd (s : Nat) : State → Ans := act (onPart (decide (s < 32)) (lostEnd s))

/-- SUP_CMD_WRITE (R194). -/
def execSupCmdWrite (role s sub value : Nat) : State → Ans := act (writeStg role s 0x102 sub (if sub = 1 then 4 else 1) value)

/-- OUT_SHORT (R198). -/
def execOutShort (s g : Nat) : State → Ans := act (onPart (decide (s < 32) && decide (g < 4)) (outShort s g))

/-- SHORT_RETRY (R200). -/
def execShortRetry (s g : Nat) : State → Ans := act (onPart (decide (s < 32) && decide (g < 4)) (shortRetry s g))

/-- RETRY_USED_CLEAR (R200). -/
def execRetryUsedClear (s g : Nat) : State → Ans := act (onPart (decide (s < 32) && decide (g < 4)) (retryUsedClear s g))

/-- SHORT_CLEAR_WRITE (R200). -/
def execShortClearWrite (role s mask : Nat) : State → Ans := act (writeStg role s 0x106 0 1 mask)

/-- MATRIX_TABLE_WRITE (R218). -/
def execMatrixTableWrite (role k : Nat) (table : Bytes) : State → Ans := act (if k < 2 then directWrite role (0x100C + k) 0 table else noObject)

/-- CLOSE_REFUSED (R244). -/
def execCloseRefused (n ctc : Nat) : State → Ans := act (onPart (decide (n < 0x200)) (ifRun (closeRefused n ctc)))

/-- CTC_FAULT (R241). -/
def execCtcFault (n ctc : Nat) : State → Ans := act (onPart (decide (n < 0x200)) (ifRun (ctcFault n ctc)))

/-- DISCH_FAIL (R246). -/
def execDischFail (c : Nat) : State → Ans := act (onPart (decide (c < 64)) (ifRun (dischFail c)))

/-- BLEED_TIME_EXPIRY (R233). -/
def execBleedTimeExpiry (line : BleedLine) : State → Ans := act (ifRun (bleedLine line))

/-- CON_SEQ_CLEAR_WRITE (R244). -/
def execConSeqClearWrite (role c value : Nat) : State → Ans := act (writeCon role c 0x35 0 1 value)

/-- STG_SEQ_CLEAR_WRITE (R242). -/
def execStgSeqClearWrite (role s mask : Nat) : State → Ans := act (writeStg role s 0x180 0 1 mask)

/-- TIE_CLEAR_WRITE (R250). -/
def execTieClearWrite (role mask : Nat) : State → Ans := act (directNum role 0x101F 0 1 mask)

/-- COOL_FLOW_LOW (R254). -/
def execCoolFlowLow (c : Nat) : State → Ans := act (onPart (decide (c < 64)) (coolFlowLow c))

/-- CON_THERM_CLEAR_WRITE (R260). -/
def execConThermClearWrite (role c mask : Nat) : State → Ans := act (writeCon role c 0x48 0 1 mask)

/-- STG_THERM_CLEAR_WRITE (R260). -/
def execStgThermClearWrite (role s mask : Nat) : State → Ans := act (writeStg role s 0x1C3 0 1 mask)

/-- DIE_THERM_CLEAR_WRITE (R260). -/
def execDieThermClearWrite (role mask : Nat) : State → Ans := act (directNum role 0x286 0 1 mask)

end Sys2Proof.Machine
end

