-- ==== Sys2Proof/Machine/CmdStart.lean ====
section
/-! DEFINITION. The commands of resets, starts and persistence (spec/21): one meaning per row of the opcode table. -/

namespace Sys2Proof.Machine

/-- SUPPLY_DROP (R495). -/
def execSupplyDrop (mask : Nat) : State → Ans := act (supplyDrop mask)

/-- RST_N_LOW (R495). -/
def execRstNLow : State → Ans := act rstNLow

/-- START (R499). -/
def execStartUp (x : StartIn) : State → Ans := actMem (startMem x)

/-- CHARGE_READY (R500). -/
def execChargeReady : State → Ans := act chargeReady

/-- YARD_ASSOC_DEADLINE (R501). -/
def execYardAssocDeadline : State → Ans := act yardAssocDeadline

/-- RESTORE_FACTORY_WRITE (R506). -/
def execRestoreFactoryWrite (role : Nat) (value : Bytes) : State → Ans := act (directWrite role 0x603 0 value)

/-- NOR_COPY_WRITTEN (R100). -/
def execNorCopyWritten (num sub : Nat) : State → Ans := actMem (resumed (norCopyWritten num sub))

/-- VKEEP_LOSS (R503). -/
def execVkeepLoss : State → Ans := act vkeepLoss

end Sys2Proof.Machine
end

