-- ==== Sys2Proof/Machine/CmdStore.lean ====
section
/-! DEFINITION. The commands of DMA descriptors and the record store (spec/18): one meaning per row of the opcode table. -/

namespace Sys2Proof.Machine

/-- NULL (R424). -/
def execNullDesc (r : Nat) (x : Desc) : State → Ans := actMem (onPartMem (decide (r < 16)) (moving (dmaPost r (descOf 0 x))))

/-- COPY (R423). -/
def execCopyDesc (r : Nat) (x : Desc) : State → Ans := actMem (onPartMem (decide (r < 16)) (moving (dmaPost r (descOf 1 x))))

/-- DEINTERLEAVE (R426). -/
def execDeinterleaveDesc (r : Nat) (x : Desc) : State → Ans := actMem (onPartMem (decide (r < 16)) (moving (dmaPost r (descOf 2 x))))

/-- BITPLANE (R427). -/
def execBitplaneDesc (r : Nat) (x : Desc) : State → Ans := actMem (onPartMem (decide (r < 16)) (moving (dmaPost r (descOf 3 x))))

/-- DESCRIPTOR_COMPLETE (R429). -/
def execDescriptorComplete (r : Nat) (err : Bool) : State → Ans := actMem (onPartMem (decide (r < 16)) (moving (dmaComplete r err)))

/-- WRITE_RESPONSE_TIMEOUT (R430). -/
def execWriteResponseTimeout (r : Nat) : State → Ans := actMem (onPartMem (decide (r < 16)) (moving (dmaTimeout r)))

/-- RING_STOP_WRITE (R431). -/
def execRingStopWrite (role mask : Nat) : State → Ans := act (directNum role 0x3210 0 4 mask)

/-- RING_START_WRITE (R431). -/
def execRingStartWrite (role mask : Nat) : State → Ans := actMem (resumed (directNum role 0x3210 0 4 (65536 * mask)))

/-- PAGE_WRITTEN (R437). -/
def execPageWritten (part : Nat) : State → Ans := act (onPart (decide (part < 6)) (pageWritten part))

/-- PAGE_FLUSH_TIMER (R437). -/
def execPageFlushTimer (part : Nat) : State → Ans := act (onPart (decide (part < 6)) (ifRun (pageFlush part)))

/-- REC_EMMC_FAIL (R440). -/
def execRecEmmcFail : State → Ans := act (ifRun emmcFail)

/-- EMMC_REINIT (R440). -/
def execEmmcReinit (ok : Bool) : State → Ans := actMem (resumed (ifRun (emmcReinit ok)))

/-- REC_WEAR (R432). -/
def execRecWear (a b eol : Nat) : State → Ans := act (ifRun (recWear a b eol))

/-- REC_FORMAT_WRITE (R434). -/
def execRecFormatWrite (role : Nat) : State → Ans := act (directNum role 0x3304 0 1 1)

/-- REC_TRIGGER_WRITE (R442). -/
def execRecTriggerWrite (role mask : Nat) : State → Ans := act (directNum role 0x3331 0 4 mask)

/-- CAPTURE_FROZEN (R442). -/
def execCaptureFrozen (s : Nat) : State → Ans := act (onPart (decide (s < 32)) (ifRun (captureFrozen s)))

/-- REC_DATA_READ (R444). -/
def execRecDataRead (k : Nat) : State → Ans := act (onPart (decide (k < 8)) (recDataRead k))

end Sys2Proof.Machine
end

