-- ==== Sys2Proof/Machine/CmdTime.lean ====
section
/-! DEFINITION. The commands of the time keeper: tokens, references, civil time (spec/02): one meaning per row of the opcode table. -/

namespace Sys2Proof.Machine

/-- BOUNDARY_TOKEN (R36). -/
def execBoundaryToken (x : BoundaryIn) : State → Ans := actMem (boundaryMem x)

/-- SAMPLE_TOKEN (R40). -/
def execSampleToken : State → Ans := act (ifRun sampleToken)

/-- LAUNCH_TOKEN (R41). -/
def execLaunchToken : State → Ans := act (ifRun launchToken)

/-- MINOR_REFERENCE_TOKEN (R371). -/
def execMinorReferenceToken : State → Ans := act minorReference

/-- REF_LOSS (R27). -/
def execRefLoss : State → Ans := act refLost

/-- LANE_REFERENCE_LOSS (R27). -/
def execLaneReferenceLoss : State → Ans := act laneRefLost

/-- REF_LOSS_CLEAR (R27). -/
def execRefLossClear (role : Nat) : State → Ans := act (directNum role 0x185 0 4 4)

/-- TIME_NOW_WRITE (R46). -/
def execTimeNowWrite (role value : Nat) : State → Ans := act (directNum role 0x188 0 8 value)

/-- TIME_ADJUST_WRITE (R46). -/
def execTimeAdjustWrite (role : Nat) (offset : Int) : State → Ans := act (directWrite role 0x189 0 (natLe 8 (ofS 64 offset)))

end Sys2Proof.Machine
end

