-- ==== Sys2Proof/Machine/CmdYard.lean ====
section
/-! DEFINITION. The commands of the yard powerline (spec/17): one meaning per row of the opcode table. -/

namespace Sys2Proof.Machine

/-- PL_ZC_EDGE (R396). -/
def execPlZcEdge (time : Nat) : State → Ans := act (zcEdge time)

/-- YARD_ZC_LOST (R397). -/
def execYardZcLost : State → Ans := act zcLost

/-- ZC_BASE_TIMEOUT (R397). -/
def execZcBaseTimeout : State → Ans := act zcBase

/-- BEACON_PERIOD (R402). -/
def execBeaconPeriod : State → Ans := act (ifRun beaconPeriod)

/-- YARD_DATA_FRAME (R401). -/
def execYardDataFrame (fh : Bytes) (segs : List Bytes) (stop : Nat) : State → Ans := act (ifRun (yardData fh segs stop))

/-- RECEIPT (R400). -/
def execReceiptFrame (fh : Bytes) : State → Ans := act (ifRun (yardReceipt fh))

/-- RECEIPT_MISSING (R404). -/
def execReceiptMissing (ldst seq : Nat) : State → Ans := act (ifRun (receiptMissing ldst seq))

/-- YARD_FRAME_SEND (R404). -/
def execYardFrameSend (start : Nat) (idle : Idle) : State → Ans := act (ifRun (yardSend start idle.since idle.slots))

/-- ASSOC_REQ (R408). -/
def execAssocReq : State → Ans := act (ifRun assocReq)

/-- HELLO (R410). -/
def execHelloMessage : State → Ans := act (ifRun helloMsg)

/-- NEIGH_REPORT (R410). -/
def execNeighReport : State → Ans := act (ifRun neighReport)

/-- TM_UPDATE (R392). -/
def execTmUpdate : State → Ans := act (ifRun tmUpdate)

/-- POINT (R413). -/
def execPointMessage : State → Ans := act (ifRun pointMsg)

/-- ROUTE_COMPUTATION (R411). -/
def execRouteComputation : State → Ans := act (ifRun routeComputation)

/-- YARD_NODE_LOST (R412). -/
def execYardNodeLost (i : Nat) : State → Ans := act (onPart (decide (i < 512)) (ifRun (nodeLost i)))

/-- YARD_POINT_REFRESH (R413). -/
def execYardPointRefresh : State → Ans := act pointRefresh

/-- YARD_POINT_STALE (R413). -/
def execYardPointStale (i j : Nat) : State → Ans := act (onPart (decide (i < 512) && decide (j < 24)) (ifRun (yardPointStale i j)))

/-- YARD_DRIVER_FAULT (R395). -/
def execYardDriverFault : State → Ans := act (ifRun driverFault)

/-- DRIVER_RESUME (R395). -/
def execDriverResume : State → Ans := act driverResume

/-- VPLC_LOW (R572). -/
def execVplcLow : State → Ans := act vplcLow

/-- VPLC_RESTORED (R572). -/
def execVplcRestored : State → Ans := act vplcRestored

/-- YARD_FORGET_WRITE (R416). -/
def execYardForgetWrite (role addr : Nat) : State → Ans := act (directNum role 0x3105 0 2 addr)

end Sys2Proof.Machine
end

