-- ==== Sys2Proof/Machine/Dispatch.lean ====
section
/-! DEFINITION. The one dispatch of a command to its meaning. -/

namespace Sys2Proof.Machine

open Sys2Proof

/-- The effect of a command on everything but the queue. -/
def exec (i : Instr) (s : State) : Host.Outcome State Fault Refusal :=
  match i with
  | .boundaryToken x => Sys2Proof.Machine.execBoundaryToken x s
  | .sampleToken => Sys2Proof.Machine.execSampleToken s
  | .launchToken => Sys2Proof.Machine.execLaunchToken s
  | .minorReferenceToken => Sys2Proof.Machine.execMinorReferenceToken s
  | .refLoss => Sys2Proof.Machine.execRefLoss s
  | .laneReferenceLoss => Sys2Proof.Machine.execLaneReferenceLoss s
  | .refLossClear role => Sys2Proof.Machine.execRefLossClear role s
  | .timeNowWrite role value => Sys2Proof.Machine.execTimeNowWrite role value s
  | .timeAdjustWrite role offset => Sys2Proof.Machine.execTimeAdjustWrite role offset s
  | .piKernel idx r => Sys2Proof.Machine.execPiKernel idx r s
  | .pidKernel idx r => Sys2Proof.Machine.execPidKernel idx r s
  | .kernel2p2z idx r => Sys2Proof.Machine.execKernel2p2z idx r s
  | .kernel3p3z idx r => Sys2Proof.Machine.execKernel3p3z idx r s
  | .minselKernel idx r => Sys2Proof.Machine.execMinselKernel idx r s
  | .rampKernel idx r => Sys2Proof.Machine.execRampKernel idx r s
  | .limitKernel idx r => Sys2Proof.Machine.execLimitKernel idx r s
  | .modelPhase idx r => Sys2Proof.Machine.execModelPhase idx r s
  | .balanceKernel idx r => Sys2Proof.Machine.execBalanceKernel idx r s
  | .packKernel idx r => Sys2Proof.Machine.execPackKernel idx r s
  | .diodeEmu idx r => Sys2Proof.Machine.execDiodeEmu idx r s
  | .sumCheck idx r => Sys2Proof.Machine.execSumCheck idx r s
  | .modelAdapt idx r => Sys2Proof.Machine.execModelAdapt idx r s
  | .shedKernel idx r => Sys2Proof.Machine.execShedKernel idx r s
  | .i2tKernel idx r => Sys2Proof.Machine.execI2tKernel idx r s
  | .energyBudget idx r => Sys2Proof.Machine.execEnergyBudget idx r s
  | .stageSequencer idx r => Sys2Proof.Machine.execStageSequencer idx r s
  | .nodeSequencer idx r => Sys2Proof.Machine.execNodeSequencer idx r s
  | .therm3 idx r => Sys2Proof.Machine.execTherm3 idx r s
  | .allocKernel idx r => Sys2Proof.Machine.execAllocKernel idx r s
  | .allocFast idx r => Sys2Proof.Machine.execAllocFast idx r s
  | .spillKernel idx r => Sys2Proof.Machine.execSpillKernel idx r s
  | .profileClose idx r => Sys2Proof.Machine.execProfileClose idx r s
  | .slotOverrun cell sect => Sys2Proof.Machine.execSlotOverrun cell sect s
  | .launchOverrunLimit cell => Sys2Proof.Machine.execLaunchOverrunLimit cell s
  | .scrubRead w hit => Sys2Proof.Machine.execScrubRead w hit s
  | .granuleReload g data => Sys2Proof.Machine.execGranuleReload g data s
  | .keyRederive num addr norOk parents => Sys2Proof.Machine.execKeyRederive num addr norOk parents s
  | .tlsKeyFetch n addr => Sys2Proof.Machine.execTlsKeyFetch n addr s
  | .billRecalc m sub addr lost done => Sys2Proof.Machine.execBillRecalc m sub addr lost done s
  | .mgmtKick core => Sys2Proof.Machine.execMgmtKick core s
  | .mgmtRestart => Sys2Proof.Machine.execMgmtRestart s
  | .readObj p => Sys2Proof.Machine.execReadObj p s
  | .writeObj p => Sys2Proof.Machine.execWriteObj p s
  | .segRead p => Sys2Proof.Machine.execSegRead p s
  | .segWrite p => Sys2Proof.Machine.execSegWrite p s
  | .blkRead p => Sys2Proof.Machine.execBlkRead p s
  | .blkWrite p => Sys2Proof.Machine.execBlkWrite p s
  | .dataPdu p => Sys2Proof.Machine.execDataPdu p s
  | .ackPdu p => Sys2Proof.Machine.execAckPdu p s
  | .describeObj p => Sys2Proof.Machine.execDescribeObj p s
  | .abortPdu p => Sys2Proof.Machine.execAbortPdu p s
  | .openSession p => Sys2Proof.Machine.execOpenSession p s
  | .proveSession p => Sys2Proof.Machine.execProveSession p s
  | .closeSession p => Sys2Proof.Machine.execCloseSession p s
  | .udpDatagram src dst port ses counter pdu mac => Sys2Proof.Machine.execUdpDatagram src dst port ses counter pdu mac s
  | .udpDiscovery src dst port => Sys2Proof.Machine.execUdpDiscovery src dst port s
  | .transferTimeout c tag => Sys2Proof.Machine.execTransferTimeout c tag s
  | .sessionIdleTimeout c => Sys2Proof.Machine.execSessionIdleTimeout c s
  | .objectWrite role num sub value => Sys2Proof.Machine.execObjectWrite role num sub value s
  | .featureAcceptedWrite c value => Sys2Proof.Machine.execFeatureAcceptedWrite c value s
  | .ctrlLevelWrite role group value => Sys2Proof.Machine.execCtrlLevelWrite role group value s
  | .stageUp st f => Sys2Proof.Machine.execStageUp st f s
  | .dispUp di f => Sys2Proof.Machine.execDispUp di f s
  | .metroRecord c number body => Sys2Proof.Machine.execMetroRecord c number body s
  | .metroGap c number => Sys2Proof.Machine.execMetroGap c number s
  | .vethRecord c offset last bytes => Sys2Proof.Machine.execVethRecord c offset last bytes s
  | .scBlock st p sample => Sys2Proof.Machine.execScBlock st p sample s
  | .scClearWrite role st mask => Sys2Proof.Machine.execScClearWrite role st mask s
  | .blockLock l headers => Sys2Proof.Machine.execBlockLock l headers s
  | .blockLockTimeout l => Sys2Proof.Machine.execBlockLockTimeout l s
  | .echoMarker l tag roundTrip => Sys2Proof.Machine.execEchoMarker l tag roundTrip s
  | .rangingTimeout l => Sys2Proof.Machine.execRangingTimeout l s
  | .identRsp l f => Sys2Proof.Machine.execIdentRsp l f s
  | .identRspTimeout l => Sys2Proof.Machine.execIdentRspTimeout l s
  | .linkupRetry l => Sys2Proof.Machine.execLinkupRetry l s
  | .laneDown l times => Sys2Proof.Machine.execLaneDown l times s
  | .sleepMarker l => Sys2Proof.Machine.execSleepMarker l s
  | .timingMarker l value arrival active => Sys2Proof.Machine.execTimingMarker l value arrival active s
  | .pairFrame l f arrival => Sys2Proof.Machine.execPairFrame l f arrival s
  | .pairFrameSent => Sys2Proof.Machine.execPairFrameSent s
  | .stgLost st => Sys2Proof.Machine.execStgLost st s
  | .lostEnd st => Sys2Proof.Machine.execLostEnd st s
  | .supCmdWrite role st sub value => Sys2Proof.Machine.execSupCmdWrite role st sub value s
  | .outShort st g => Sys2Proof.Machine.execOutShort st g s
  | .shortRetry st g => Sys2Proof.Machine.execShortRetry st g s
  | .retryUsedClear st g => Sys2Proof.Machine.execRetryUsedClear st g s
  | .shortClearWrite role st mask => Sys2Proof.Machine.execShortClearWrite role st mask s
  | .matrixTableWrite role k table => Sys2Proof.Machine.execMatrixTableWrite role k table s
  | .closeRefused n ctc => Sys2Proof.Machine.execCloseRefused n ctc s
  | .ctcFault n ctc => Sys2Proof.Machine.execCtcFault n ctc s
  | .dischFail c => Sys2Proof.Machine.execDischFail c s
  | .bleedTimeExpiry line => Sys2Proof.Machine.execBleedTimeExpiry line s
  | .conSeqClearWrite role c value => Sys2Proof.Machine.execConSeqClearWrite role c value s
  | .stgSeqClearWrite role st mask => Sys2Proof.Machine.execStgSeqClearWrite role st mask s
  | .tieClearWrite role mask => Sys2Proof.Machine.execTieClearWrite role mask s
  | .coolFlowLow c => Sys2Proof.Machine.execCoolFlowLow c s
  | .conThermClearWrite role c mask => Sys2Proof.Machine.execConThermClearWrite role c mask s
  | .stgThermClearWrite role st mask => Sys2Proof.Machine.execStgThermClearWrite role st mask s
  | .dieThermClearWrite role mask => Sys2Proof.Machine.execDieThermClearWrite role mask s
  | .lchCmdWrite role n value => Sys2Proof.Machine.execLchCmdWrite role n value s
  | .lchShort n => Sys2Proof.Machine.execLchShort n s
  | .heldShort n => Sys2Proof.Machine.execHeldShort n s
  | .lchOverload n => Sys2Proof.Machine.execLchOverload n s
  | .lchThermal n => Sys2Proof.Machine.execLchThermal n s
  | .lchThermLatch n => Sys2Proof.Machine.execLchThermLatch n s
  | .lchOpenLoad n => Sys2Proof.Machine.execLchOpenLoad n s
  | .lchClamp n => Sys2Proof.Machine.execLchClamp n s
  | .lchRetry n => Sys2Proof.Machine.execLchRetry n s
  | .retryCountReset n => Sys2Proof.Machine.execRetryCountReset n s
  | .inrushWindowEnd n atLimit => Sys2Proof.Machine.execInrushWindowEnd n atLimit s
  | .lchVload g mv => Sys2Proof.Machine.execLchVload g mv s
  | .vloadReturn g mv => Sys2Proof.Machine.execVloadReturn g mv s
  | .lockClearWrite role n => Sys2Proof.Machine.execLockClearWrite role n s
  | .latchClearWrite role n => Sys2Proof.Machine.execLatchClearWrite role n s
  | .fsHoldExpiry => Sys2Proof.Machine.execFsHoldExpiry s
  | .linkState c frame => Sys2Proof.Machine.execLinkState c frame s
  | .linkStateTimeout c => Sys2Proof.Machine.execLinkStateTimeout c s
  | .seccDiscoveryRequest c tls => Sys2Proof.Machine.execSeccDiscoveryRequest c tls s
  | .supportedAppProtocol c offers => Sys2Proof.Machine.execSupportedAppProtocol c offers s
  | .tlsHandshake c m => Sys2Proof.Machine.execTlsHandshake c m s
  | .sessionSetup c id evccid => Sys2Proof.Machine.execSessionSetup c id evccid s
  | .authorization c pnc chain emaid => Sys2Proof.Machine.execAuthorization c pnc chain emaid s
  | .authTimeout n => Sys2Proof.Machine.execAuthTimeout n s
  | .chargeParameterDiscovery c m => Sys2Proof.Machine.execChargeParameterDiscovery c m s
  | .cableCheck c => Sys2Proof.Machine.execCableCheck c s
  | .prechargeRequest c vTarget => Sys2Proof.Machine.execPrechargeRequest c vTarget s
  | .prechargeTimeout c => Sys2Proof.Machine.execPrechargeTimeout c s
  | .powerDelivery c start => Sys2Proof.Machine.execPowerDelivery c start s
  | .chargeLoop c vTarget m => Sys2Proof.Machine.execChargeLoop c vTarget m s
  | .chargeLoopTimeout c => Sys2Proof.Machine.execChargeLoopTimeout c s
  | .weldingDetection c => Sys2Proof.Machine.execWeldingDetection c s
  | .sessionStopRequest c pause => Sys2Proof.Machine.execSessionStopRequest c pause s
  | .resumeTimeout n => Sys2Proof.Machine.execResumeTimeout n s
  | .sessionRecordStored n => Sys2Proof.Machine.execSessionRecordStored n s
  | .sesAuthWrite role n value => Sys2Proof.Machine.execSesAuthWrite role n value s
  | .sesStopWrite role n value => Sys2Proof.Machine.execSesStopWrite role n value s
  | .sesDirWrite role n value => Sys2Proof.Machine.execSesDirWrite role n value s
  | .sesKeyRollWrite role mask => Sys2Proof.Machine.execSesKeyRollWrite role mask s
  | .sesChainWrite role k chain => Sys2Proof.Machine.execSesChainWrite role k chain s
  | .adcSample samples => Sys2Proof.Machine.execAdcSample samples s
  | .pulseMs => Sys2Proof.Machine.execPulseMs s
  | .metPhaseSeq k => Sys2Proof.Machine.execMetPhaseSeq k s
  | .metNeutral k => Sys2Proof.Machine.execMetNeutral k s
  | .legalParameterWrite role num sub value => Sys2Proof.Machine.execLegalParameterWrite role num sub value s
  | .legalSettingWrite role num sub value => Sys2Proof.Machine.execLegalSettingWrite role num sub value s
  | .billingTick => Sys2Proof.Machine.execBillingTick s
  | .tariffSample in1 in0 => Sys2Proof.Machine.execTariffSample in1 in0 s
  | .legalCheck value again tMs => Sys2Proof.Machine.execLegalCheck value again tMs s
  | .bilSeal asserted => Sys2Proof.Machine.execBilSeal asserted s
  | .bilTamper idx active ms => Sys2Proof.Machine.execBilTamper idx active ms s
  | .storeRetry => Sys2Proof.Machine.execStoreRetry s
  | .periodCloseWrite role value => Sys2Proof.Machine.execPeriodCloseWrite role value s
  | .billingRecordCommit m => Sys2Proof.Machine.execBillingRecordCommit m s
  | .supplyDrop mask => Sys2Proof.Machine.execSupplyDrop mask s
  | .rstNLow => Sys2Proof.Machine.execRstNLow s
  | .startUp x => Sys2Proof.Machine.execStartUp x s
  | .chargeReady => Sys2Proof.Machine.execChargeReady s
  | .yardAssocDeadline => Sys2Proof.Machine.execYardAssocDeadline s
  | .restoreFactoryWrite role value => Sys2Proof.Machine.execRestoreFactoryWrite role value s
  | .pushIn b node page values rsv f => Sys2Proof.Machine.execPushIn b node page values rsv f s
  | .fbPointStale n => Sys2Proof.Machine.execFbPointStale n s
  | .fbPointsWrite role table => Sys2Proof.Machine.execFbPointsWrite role table s
  | .discoveryStartWrite role mask => Sys2Proof.Machine.execDiscoveryStartWrite role mask s
  | .identFrame b vendor model addr serial rsv f => Sys2Proof.Machine.execIdentFrame b vendor model addr serial rsv f s
  | .discoveryRoundEnd b => Sys2Proof.Machine.execDiscoveryRoundEnd b s
  | .busError b kind => Sys2Proof.Machine.execBusError b kind s
  | .busOffRecovery b => Sys2Proof.Machine.execBusOffRecovery b s
  | .plZcEdge time => Sys2Proof.Machine.execPlZcEdge time s
  | .yardZcLost => Sys2Proof.Machine.execYardZcLost s
  | .zcBaseTimeout => Sys2Proof.Machine.execZcBaseTimeout s
  | .beaconPeriod => Sys2Proof.Machine.execBeaconPeriod s
  | .yardDataFrame fh segs stop => Sys2Proof.Machine.execYardDataFrame fh segs stop s
  | .receiptFrame fh => Sys2Proof.Machine.execReceiptFrame fh s
  | .receiptMissing ldst seq => Sys2Proof.Machine.execReceiptMissing ldst seq s
  | .yardFrameSend start idle => Sys2Proof.Machine.execYardFrameSend start idle s
  | .assocReq => Sys2Proof.Machine.execAssocReq s
  | .helloMessage => Sys2Proof.Machine.execHelloMessage s
  | .neighReport => Sys2Proof.Machine.execNeighReport s
  | .tmUpdate => Sys2Proof.Machine.execTmUpdate s
  | .pointMessage => Sys2Proof.Machine.execPointMessage s
  | .routeComputation => Sys2Proof.Machine.execRouteComputation s
  | .yardNodeLost idx => Sys2Proof.Machine.execYardNodeLost idx s
  | .yardPointRefresh => Sys2Proof.Machine.execYardPointRefresh s
  | .yardPointStale idx j => Sys2Proof.Machine.execYardPointStale idx j s
  | .yardDriverFault => Sys2Proof.Machine.execYardDriverFault s
  | .driverResume => Sys2Proof.Machine.execDriverResume s
  | .vplcLow => Sys2Proof.Machine.execVplcLow s
  | .vplcRestored => Sys2Proof.Machine.execVplcRestored s
  | .yardForgetWrite role addr => Sys2Proof.Machine.execYardForgetWrite role addr s
  | .nullDesc r x => Sys2Proof.Machine.execNullDesc r x s
  | .copyDesc r x => Sys2Proof.Machine.execCopyDesc r x s
  | .deinterleaveDesc r x => Sys2Proof.Machine.execDeinterleaveDesc r x s
  | .bitplaneDesc r x => Sys2Proof.Machine.execBitplaneDesc r x s
  | .descriptorComplete r err => Sys2Proof.Machine.execDescriptorComplete r err s
  | .writeResponseTimeout r => Sys2Proof.Machine.execWriteResponseTimeout r s
  | .ringStopWrite role mask => Sys2Proof.Machine.execRingStopWrite role mask s
  | .ringStartWrite role mask => Sys2Proof.Machine.execRingStartWrite role mask s
  | .pageWritten part => Sys2Proof.Machine.execPageWritten part s
  | .pageFlushTimer part => Sys2Proof.Machine.execPageFlushTimer part s
  | .recEmmcFail => Sys2Proof.Machine.execRecEmmcFail s
  | .emmcReinit ok => Sys2Proof.Machine.execEmmcReinit ok s
  | .recWear a b eol => Sys2Proof.Machine.execRecWear a b eol s
  | .recFormatWrite role => Sys2Proof.Machine.execRecFormatWrite role s
  | .recTriggerWrite role mask => Sys2Proof.Machine.execRecTriggerWrite role mask s
  | .captureFrozen st => Sys2Proof.Machine.execCaptureFrozen st s
  | .recDataRead k => Sys2Proof.Machine.execRecDataRead k s
  | .electionTimeout => Sys2Proof.Machine.execElectionTimeout s
  | .hbInEdge time => Sys2Proof.Machine.execHbInEdge time s
  | .hbOutToggle => Sys2Proof.Machine.execHbOutToggle s
  | .pairTakeover => Sys2Proof.Machine.execPairTakeover s
  | .pairPathFault path => Sys2Proof.Machine.execPairPathFault path s
  | .pathFaultClear path => Sys2Proof.Machine.execPathFaultClear path s
  | .noImageTakeover => Sys2Proof.Machine.execNoImageTakeover s
  | .pairSwitchWrite role value => Sys2Proof.Machine.execPairSwitchWrite role value s
  | .switchover => Sys2Proof.Machine.execSwitchover s
  | .returnHoldoff => Sys2Proof.Machine.execReturnHoldoff s
  | .lcReqWrite role sub value => Sys2Proof.Machine.execLcReqWrite role sub value s
  | .keyRollWrite role value => Sys2Proof.Machine.execKeyRollWrite role value s
  | .keyInstallWrite role num key => Sys2Proof.Machine.execKeyInstallWrite role num key s
  | .keyPubWrite role k sub value => Sys2Proof.Machine.execKeyPubWrite role k sub value s
  | .keyRemask => Sys2Proof.Machine.execKeyRemask s
  | .updBeginWrite role sub value => Sys2Proof.Machine.execUpdBeginWrite role sub value s
  | .updPieceWrite role value => Sys2Proof.Machine.execUpdPieceWrite role value s
  | .packageVerified storeOk => Sys2Proof.Machine.execPackageVerified storeOk s
  | .updStaged => Sys2Proof.Machine.execUpdStaged s
  | .updActivateWrite role sub value => Sys2Proof.Machine.execUpdActivateWrite role sub value s
  | .quietHandover => Sys2Proof.Machine.execQuietHandover s
  | .updRejectWrite role value => Sys2Proof.Machine.execUpdRejectWrite role value s
  | .updConfirmed => Sys2Proof.Machine.execUpdConfirmed s
  | .trialTimeout => Sys2Proof.Machine.execTrialTimeout s
  | .monPing f => Sys2Proof.Machine.execMonPing f s
  | .monChallenge f => Sys2Proof.Machine.execMonChallenge f s
  | .monUnlock f => Sys2Proof.Machine.execMonUnlock f s
  | .monLock f => Sys2Proof.Machine.execMonLock f s
  | .monStatus f => Sys2Proof.Machine.execMonStatus f s
  | .monRead f => Sys2Proof.Machine.execMonRead f s
  | .monWrite f => Sys2Proof.Machine.execMonWrite f s
  | .monDescribe f => Sys2Proof.Machine.execMonDescribe f s
  | .monTrace f => Sys2Proof.Machine.execMonTrace f s
  | .monMemRead f => Sys2Proof.Machine.execMonMemRead f s
  | .monBreak => Sys2Proof.Machine.execMonBreak s
  | .monIdleTimeout => Sys2Proof.Machine.execMonIdleTimeout s
  | .lockoutEnd => Sys2Proof.Machine.execLockoutEnd s
  | .norCopyWritten num sub => Sys2Proof.Machine.execNorCopyWritten num sub s
  | .upstreamWake l => Sys2Proof.Machine.execUpstreamWake l s
  | .vkeepLoss => Sys2Proof.Machine.execVkeepLoss s
  | .deltaTBelowRestart n => Sys2Proof.Machine.execDeltaTBelowRestart n s
  | .canFrameTransmitted b sof => Sys2Proof.Machine.execCanFrameTransmitted b sof s
  | .monFrameGapTimeout => Sys2Proof.Machine.execMonFrameGapTimeout s

end Sys2Proof.Machine
end

