-- ==== Sys2Proof/Safety.lean ====
section
/-! DEFINITION. The terms in which the statements speak of a run: a command that completes, what it raises, what it leaves as
it was, and the invariant of the machine. -/

namespace Sys2Proof

open Machine

/-- The command runs to a next state of the device in which `P` holds; the queue and the memory are as they were. -/
def Completes (c : Instr) (s : State) (P : Dev → Prop) : Prop :=
  ∃ t, exec c s = .next t ∧ t.pending = s.pending ∧ t.mem = s.mem ∧ P t.dev

/-- The same for a command that reaches the memory which DMA addresses. -/
def CompletesMem (c : Instr) (s : State) (P : Dev → Mem → Prop) : Prop :=
  ∃ t, exec c s = .next t ∧ t.pending = s.pending ∧ P t.dev t.mem

/-- An event of the running minor frame: its code, its instance, and whether it reports an end (R110, R111). -/
def raised (d : Dev) (code inst : Nat) (ended : Bool := false) : Bool :=
  d.ev.opened.any (fun r => r.isOpen && r.code == code && r.inst == inst && r.flags.testBit 1 == ended)

/-- The device answers a write command with a code of R378; 0 is acceptance. -/
def answered (d : Dev) (code : Nat) : Bool := d.sent.contains (.result code)

/-- The objects that what follows a command may move: those that a capture, a trace record or a frame to the monitor counts or
marks. -/
def mayMove : List Nat := [0x3300, 0x3332, 0x3402, 0x3403]

/-- The books of a DMA ring: HEAD, TAIL, DONE and FULL (R420, R422). What follows a command passes through rings as well. -/
def ringBook (num sub : Nat) : Bool := decide (0x3200 ≤ num) && decide (num < 0x3210) && [2, 3, 4, 6].contains sub

/-- What follows a command may move the object. -/
def moves (num sub : Nat) : Bool := mayMove.contains num || ringBook num sub

/-- The blocks went out on a lane, after idle blocks (R113 to R117); the frame of a KIND with its fields (R118, R120). -/
def onLane (e : Dev) (l : Nat) (bs : List LineBlock) : Bool :=
  e.sent.any (fun t => match t with | .lane k b _ => k == l && b == idleBlock :: bs | _ => false)

def launched (e : Dev) (l kind seq : Nat) (fields : Bytes) : Bool := onLane e l (frameBlocks (laneFrame kind seq fields))

/-- The objects that count or mark what follows any command: those of the record store and the monitor (0x3300 to 0x34FF), and the
books of the DMA rings. -/
def counted (num sub : Nat) : Bool := (decide (0x3300 ≤ num) && decide (num ≤ 0x34FF)) || ringBook num sub

/-- The objects outside `ks` read as before, those left out that what follows any command may move. -/
def SameObjects (ks : List (Nat × Nat)) (d e : Dev) : Prop :=
  ∀ num sub, sub < 256 → counted num sub = false → (num, sub) ∉ ks → ov e num sub = ov d num sub

/-- The monitor but for its line rate and its books of dropped trace records. -/
def monCore (m : MonS) : MonS := { m with baud := 0, lost := 0, drops := 0 }

/-- Client sessions and transfers but for the counters of what was sent. -/
def malpenCore (m : MalpenS) : MalpenS := { m with ses := m.ses.map (fun x => { x with txc := 0, evSent := 0 }) }

/-- The record store but for captures and their rolling buffers. -/
def flashCore (f : FlashS) : FlashS := { f with caps := [], roll := [] }

/-- A field bus but for the frames that wait to be sent. -/
def busCore (b : FbS) : FbS := { b with tx := [] }

/-- A DMA ring but for the device's own descriptors that wait in it. -/
def ringCore (r : RingS) : RingS := { r with q := r.q.filter (·.own.isNone), fullRaised := false }

/-- The components of the device that a statement can hold still. What is left out of `mon`, `malpen`, `flash`, `bus` and `dma`, and
the events, may follow from any command (an event told to a session, the monitor or a capture). -/
inductive Part where
  | phase | time | sched | guard | lanes | stg | energy | therm | lch | ses | dma | keys | legal | yard | pair | startup
  | update | draws | mon | malpen | flash | bus
  deriving DecidableEq, Repr

/-- The component is the same in both. -/
def Part.Same : Part → Dev → Dev → Prop
  | .phase, d, e => e.phase = d.phase
  | .time, d, e => e.time = d.time
  | .sched, d, e => e.sched = d.sched
  | .guard, d, e => e.guard = d.guard
  | .lanes, d, e => e.lanes = d.lanes
  | .stg, d, e => e.stg = d.stg
  | .energy, d, e => e.energy = d.energy
  | .therm, d, e => e.therm = d.therm
  | .lch, d, e => e.lch = d.lch
  | .ses, d, e => e.ses = d.ses
  | .dma, d, e => ∀ r, ringCore (ring e r) = ringCore (ring d r)
  | .keys, d, e => e.keys = d.keys
  | .legal, d, e => e.legal = d.legal
  | .yard, d, e => e.yard = d.yard
  | .pair, d, e => e.pair = d.pair
  | .startup, d, e => e.startup = d.startup
  | .update, d, e => e.update = d.update
  | .draws, d, e => e.draws = d.draws
  | .mon, d, e => monCore e.mon = monCore d.mon
  | .malpen, d, e => malpenCore e.malpen = malpenCore d.malpen
  | .flash, d, e => flashCore e.flash = flashCore d.flash
  | .bus, d, e => ∀ b, busCore (fbS e b) = busCore (fbS d b)

/-- Only the components of the list may differ. -/
def OnlyParts (ps : List Part) (d e : Dev) : Prop := ∀ p, p ∉ ps → p.Same d e

/-- What a command leaves as it was: the components outside `ps`, the objects outside `ks`, and the writes that wait. -/
def Framed (ps : List Part) (ks : List (Nat × Nat)) (d e : Dev) : Prop :=
  OnlyParts ps d e ∧ SameObjects ks d e ∧ e.os.pend = d.os.pend

/-- The commands that may change the memory that DMA addresses (R38, R425, R431). -/
def reachesMemory : Instr → Bool
  | .startUp _ => true
  | .norCopyWritten _ _ => true
  | .nullDesc _ _ => true
  | .copyDesc _ _ => true
  | .deinterleaveDesc _ _ => true
  | .bitplaneDesc _ _ => true
  | .descriptorComplete _ _ => true
  | .writeResponseTimeout _ => true
  | .ringStartWrite _ _ => true
  | .emmcReinit _ => true
  | .boundaryToken _ => true
  | _ => false

/-! ### The write rows -/

/-- A write: the role that makes it, the object and subindex it names, the bytes of the value (R97). -/
structure Write where
  role : Nat
  num : Nat
  sub : Nat
  value : Bytes
  deriving DecidableEq, Repr

/-- The write of a number to an object of `n` bytes; none where the number does not fit them. -/
def numWrite (role num sub n v : Nat) : Option Write := if v < 256 ^ n then some ⟨role, num, sub, natLe n v⟩ else none

/-- A write to an object of a block with `k` instances. -/
def blockWrite (i k : Nat) (w : Option Write) : Option Write := if i < k then w else none

/-- The object that each write row names, by the object tables of spec/02 to spec/22. RING_START_WRITE stands apart: the rings
that it starts work at once. -/
def writeOf : Instr → Option Write
  | .refLossClear role => some ⟨role, 0x185, 0, natLe 4 4⟩
  | .timeNowWrite role v => numWrite role 0x188 0 8 v
  | .timeAdjustWrite role off => some ⟨role, 0x189, 0, natLe 8 (ofS 64 off)⟩
  | .objectWrite role num sub v => some ⟨role, num, sub, v⟩
  | .ctrlLevelWrite role g v => numWrite role 0x020 g 1 v
  | .scClearWrite role s m => blockWrite s 32 (numWrite role (oStg s 0x0C) 0 4 m)
  | .supCmdWrite role s sub v => blockWrite s 32 (numWrite role (oStg s 0x102) sub (if sub = 1 then 4 else 1) v)
  | .shortClearWrite role s m => blockWrite s 32 (numWrite role (oStg s 0x106) 0 1 m)
  | .matrixTableWrite role k b => blockWrite k 2 (some ⟨role, 0x100C + k, 0, b⟩)
  | .conSeqClearWrite role c v => blockWrite c 64 (numWrite role (oCon c 0x35) 0 1 v)
  | .stgSeqClearWrite role s m => blockWrite s 32 (numWrite role (oStg s 0x180) 0 1 m)
  | .tieClearWrite role m => numWrite role 0x101F 0 1 m
  | .conThermClearWrite role c m => blockWrite c 64 (numWrite role (oCon c 0x48) 0 1 m)
  | .stgThermClearWrite role s m => blockWrite s 32 (numWrite role (oStg s 0x1C3) 0 1 m)
  | .dieThermClearWrite role m => numWrite role 0x286 0 1 m
  | .lchCmdWrite role n v => blockWrite n 32 (numWrite role (oLch n 0) 0 1 v)
  | .lockClearWrite role n => blockWrite n 32 (numWrite role (oLch n 4) 0 1 1)
  | .latchClearWrite role n => blockWrite n 32 (numWrite role (oLch n 4) 0 1 2)
  | .sesAuthWrite role n v => blockWrite n 256 (numWrite role (oSes n 6) 0 1 v)
  | .sesStopWrite role n v => blockWrite n 256 (numWrite role (oSes n 8) 0 1 v)
  | .sesDirWrite role n v => blockWrite n 256 (numWrite role (oSes n 9) 0 1 v)
  | .sesKeyRollWrite role m => numWrite role 0x318 0 1 m
  | .sesChainWrite role k b => blockWrite k 4 (some ⟨role, 0x311 + 2 * k, 0, b⟩)
  | .legalParameterWrite role num sub v => some ⟨role, num, sub, v⟩
  | .legalSettingWrite role num sub v => some ⟨role, num, sub, v⟩
  | .periodCloseWrite role v => numWrite role 0x220A 0 1 v
  | .restoreFactoryWrite role b => some ⟨role, 0x603, 0, b⟩
  | .fbPointsWrite role b => some ⟨role, 0x3014, 0, b⟩
  | .discoveryStartWrite role m => numWrite role 0x300C 3 1 m
  | .yardForgetWrite role a => numWrite role 0x3105 0 2 a
  | .ringStopWrite role m => numWrite role 0x3210 0 4 m
  | .recFormatWrite role => numWrite role 0x3304 0 1 1
  | .recTriggerWrite role m => numWrite role 0x3331 0 4 m
  | .pairSwitchWrite role v => numWrite role 0x405 0 1 v
  | .lcReqWrite role sub b => some ⟨role, 0x501, sub, b⟩
  | .keyRollWrite role v => numWrite role 0x504 0 2 v
  | .keyInstallWrite role num b => some ⟨role, num, 0, b⟩
  | .keyPubWrite role k sub b => blockWrite k 16 (some ⟨role, 0x530 + k, sub, b⟩)
  | .updBeginWrite role sub b => some ⟨role, 0x701, sub, b⟩
  | .updPieceWrite role b => some ⟨role, 0x702, 0, b⟩
  | .updActivateWrite role sub v => numWrite role 0x705 sub 1 v
  | .updRejectWrite role v => numWrite role 0x708 0 1 v
  | _ => none

/-! ### The runs of control slots -/

/-- A run of a control slot as its command reports it: the kernel's code, for a SEQ slot whether it serves a stage, the slot, the
report, and the arithmetic of the kernel. -/
structure SlotRun where
  kern : Nat
  seq : Option Bool := none
  slot : Nat
  report : SlotReport
  f : Dev → Image → SlotR → List Int → KOut

/-- The kernel that each command of the schedule runs, by the kernel table of spec/03. -/
def runOf : Instr → Option SlotRun
  | .piKernel i r => some ⟨0x01, none, i, r, kPi false⟩
  | .pidKernel i r => some ⟨0x02, none, i, r, kPi true⟩
  | .kernel2p2z i r => some ⟨0x03, none, i, r, kComp false⟩
  | .kernel3p3z i r => some ⟨0x04, none, i, r, kComp true⟩
  | .minselKernel i r => some ⟨0x10, none, i, r, kMinsel⟩
  | .rampKernel i r => some ⟨0x11, none, i, r, kRamp⟩
  | .limitKernel i r => some ⟨0x12, none, i, r, kLimit⟩
  | .modelPhase i r => some ⟨0x20, none, i, r, kModelPhase⟩
  | .balanceKernel i r => some ⟨0x21, none, i, r, kBalance⟩
  | .packKernel i r => some ⟨0x22, none, i, r, kPack⟩
  | .diodeEmu i r => some ⟨0x23, none, i, r, kDiode⟩
  | .sumCheck i r => some ⟨0x24, none, i, r, kSumCheck⟩
  | .modelAdapt i r => some ⟨0x25, none, i, r, kModelAdapt⟩
  | .shedKernel i r => some ⟨0x26, none, i, r, kShed⟩
  | .i2tKernel i r => some ⟨0x27, none, i, r, kI2t⟩
  | .energyBudget i r => some ⟨0x30, none, i, r, kEnergyBudget⟩
  | .stageSequencer i r => some ⟨0x31, some true, i, r, kStageSeq⟩
  | .nodeSequencer i r => some ⟨0x31, some false, i, r, kNodeSeq⟩
  | .therm3 i r => some ⟨0x40, none, i, r, kTherm3⟩
  | .allocKernel i r => some ⟨0x50, none, i, r, kAlloc⟩
  | .allocFast i r => some ⟨0x51, none, i, r, kAllocFast⟩
  | .spillKernel i r => some ⟨0x52, none, i, r, kSpill⟩
  | .profileClose i r => some ⟨0x53, none, i, r, kProfileClose⟩
  | _ => none

/-- The run is due now (R39, R57): its slot stands in the image with that kernel at this place of the schedule, its section is
open, what stands before it is done, and it has neither run, nor been stopped, nor been left in a re-run in this micro-frame. -/
def RunDue (d : Dev) (x : SlotRun) (im : Image) (sl : SlotR) : Prop :=
  running d = true ∧ img? d = some im ∧ slotAt d x.slot = some sl ∧ sl.kernel = x.kern ∧
    (∀ b, x.seq = some b → (stageSeqOf im sl).isSome = b) ∧ slotDue sl d.time.k d.time.m = true ∧
    sectOpen d sl.sect = true ∧ earlierDone d im x.slot sl = true ∧ x.slot ∉ d.sched.ran ∧ x.slot ∉ d.sched.stopped ∧
    x.slot ∉ d.sched.reran

/-- The run of slot `i` has committed what the kernel gave (R81): its state, its outputs, its launch-register fields, its events,
and nothing else; the status bits that the kernel names wait for the next boundary token (R38). -/
def Commits (i : Nat) (sl : SlotR) (stamp : Nat) (o : KOut) (d e : Dev) : Prop :=
  e.sched = { d.sched with
    kst := alSet d.sched.kst i o.st, alloc := o.alloc.getD d.sched.alloc, ran := i :: d.sched.ran
    outs := o.outs.map (fun p => { key := p.1, cell := sl.cell, val := .num p.2 }) ++ d.sched.outs
    adapted := if sl.kernel = 0x25 ∧ i ∉ d.sched.adapted then i :: d.sched.adapted else d.sched.adapted
    stats := d.sched.stats ++ o.stat
    stamp := alSet d.sched.stamp sl.cell stamp } ∧
  e.lanes = { d.lanes with lreg := o.lreg.foldl (fun l p => alSet l p.1 p.2) d.lanes.lreg } ∧
  e.therm = { d.therm with clearDue := d.therm.clearDue.filter (fun k => !(o.thermDone.contains k)) } ∧
  e.energy = { d.energy with
    groups := o.gseq.foldl (fun l p => setAt l p.1 p.2) d.energy.groups
    nodes := o.nseq.foldl (fun l p => setAt l p.1 p.2) d.energy.nodes } ∧
  (∀ v ∈ o.evs, raised e v.1 v.2.1 = true) ∧ (∀ v ∈ o.ends, raised e v.1 v.2.1 true = true) ∧
  Framed [.sched, .lanes, .therm, .energy] [] d e

/-! ### Clients on a field bus -/

/-- The PDU waits on the client's field bus as a frame of TYPE 9 (R370, R371). -/
def replied (e : Dev) (c : Client) (pdu : Bytes) : Prop :=
  ∃ f ∈ (fbS e c.bus).tx, f.id = canId 4 9 c.addr 0 ∧ f.payload.take pdu.length = pdu

/-- The objects of bus `b` that a received frame moves. -/
def busObjs (b : Nat) : List (Nat × Nat) := [(0x3008 + b, 2), (0x3008 + b, 4), (0x3004 + b, 0)]

/-- The server hears the PDU on its client's field bus and may answer: the bus receives and sends, the client's address is a node's
own and stands in the frame's identifier, LEN is that of the data, the padding is 0, the receive queue has a place, and the access reads
no word (R362, R367 to R369, R372). -/
def hears (d : Dev) (p : PduIn) : Prop :=
  p.c.bus < 4 ∧ fbMayRecv d p.c.bus = true ∧ fbMaySend d p.c.bus = true ∧ nodeAddr p.c.addr = true ∧ p.full = false ∧ p.word = none ∧
    p.id = some (canId 4 8 0 p.c.addr) ∧ p.len = p.data.length ∧ p.pad.any (· != 0) = false

/-- A PDU that the server hears on a field bus, in the client's session `m`, with a TAG that is free. -/
def InSession (d : Dev) (p : PduIn) (m : MSes) : Prop :=
  hears d p ∧ p.obj < 2 ^ 17 ∧ p.data.length ≤ 56 ∧ sesOf? d p.c = some m ∧ xferOf? d p.c p.tag = none ∧ tagWaits d p.c p.tag = false

/-- The objects whose value does not follow from what the receipt of the PDU itself counts or marks, nor moves when it is read. -/
def steadyObj (num : Nat) : Bool :=
  !(decide (0x100 ≤ num) && decide (num < 0x105)) && !(decide (0x3004 ≤ num) && decide (num < 0x300C)) &&
    !(decide (0x3328 ≤ num) && decide (num < 0x3330))

/-! ### The monitor -/

/-- The response to a monitor frame has been sent: its CODE and what follows it (R543, R544). -/
def monSaid (e : Dev) (f : MonIn) (code : Nat) (rest : Bytes) : Prop :=
  let b := monBody (f.cmd % 128 + 128) f.seq (natLe 2 code ++ rest)
  .monitor (natLe 1 0xA5 ++ b ++ natLe 2 (monCrc b)) ∈ e.sent

/-- A sound frame of command `cmd`, which the monitor of a running device answers. -/
def MonFrame (d : Dev) (f : MonIn) (cmd : Nat) : Prop :=
  running d = true ∧ lcState d ≠ 4 ∧ f.cmd = cmd ∧ monBad f = false

/-! ### Vehicle sessions -/

/-- The objects of session context `n` and those of connector `c` that a session writes, with the counts of sessions and of
records that wait. -/
def sesObjs (n c : Nat) : List (Nat × Nat) :=
  (List.range 15).flatMap (fun off => (List.range 7).map (fun sub => (oSes n off, sub))) ++
    (List.range 10).map (fun sub => (oCon c 0x20, sub)) ++
    [(oCon c 0x34, 1), (oCon c 0x51, 0), (0x301, 1), (0x301, 2), (0x220F, 0), (0x2200, 0)]

/-- Connector `c` has context `n`, on a unit that serves vehicles: its vehicle has no connection of an ended context left, and ring 9
takes the answers. -/
def Serves (d : Dev) (c n : Nat) : Prop :=
  running d = true ∧ isActive d = true ∧ c < 64 ∧ conCtx d c = some n ∧ sesConn d n = c ∧ lingering d c = none ∧
    ringSize d 9 ≠ 0 ∧ ringIdle d 9 = true

/-- The unit is the active one of a pair whose partner is present: answers wait for it (R303). -/
def waitsForPartner (e : Dev) : Bool := e.pair.role == .active && oflag e 0x400 3

/-- An answer to the vehicle of connector `c`: sent, or held for the partner (R303). -/
def told (e : Dev) (c msg : Nat) (args : List Nat) : Prop :=
  if waitsForPartner e then (c, msg, args) ∈ e.ses.held else .vehicle c msg args ∈ e.sent

/-- The arguments of an answer that carries a notice of a station-side end, 0 for none (R300). -/
def noted (notice : Nat) (args : List Nat) : List Nat := if notice = 0 then args else args ++ [notice]

/-- The answer to a charge loop: the present limits, taken when it is sent (R298). -/
def toldLoop (d e : Dev) (c notice : Nat) : Prop :=
  if waitsForPartner e then (c, mLoop, noted notice []) ∈ e.ses.held else .vehicle c mLoop (loopLimits d c ++ noted notice []) ∈ e.sent

/-- What a session's command leaves as it was: other contexts, other connectors, and the parts that sessions do not use. -/
def SessionOnly (n c : Nat) (d e : Dev) : Prop :=
  Framed [.ses, .legal, .flash, .draws, .lanes] (sesObjs n c) d e ∧ ∀ m, m < 256 → m ≠ n → ctx e m = ctx d m

/-- The session has ended with a cause (R300): it waits for the contactors, is suspended, or closes. -/
def sesEnded (n c cause : Nat) (resumable : Bool) (d e : Dev) : Prop :=
  sesState e n = (if anyClosed d c = true then 8 else if resumable = true then 9 else 10) ∧
    on e (oSes n 0x0C) 1 = cause ∧ on e (oSes n 0x0B) 2 = civilNs d ∧ (3 ≤ cause → raised e 0x3E01 n = true)

/-- The invariant of the machine's memory: it is in its canonical form. -/
def Inv (s : State) : Prop := Memory.wf s.mem = true

end Sys2Proof
end

