-- ==== Sys2Proof/WellFormed.lean ====
section
/-! DEFINITION. Which commands the environment can send at all: a role that exists, an index that names something on the part,
operands that fit the fields they stand for. The meanings are total on every other command too; an index that names nothing
makes a command do nothing (log entry 2). -/

namespace Sys2Proof

/-- A number below a bound. -/
def below (bound n : Nat) : Bool := decide (n < bound)

/-- A list of readings is complete, or missing as a whole. -/
def listOf {α : Type} (n : Nat) (l : List α) : Bool := l.isEmpty || l.length == n

/-- The client of a session (R379). -/
def clientOk (c : Client) : Bool := below 5 c.bus

/-- A word as read: 64 data bits, the word-address bits 22 to 0, an 8-bit code (R77). -/
def wordOk (w : WordRead) : Bool := below 0x10000000000000000 w.data && below 0x800000 w.addr && below 256 w.code

/-- A PDU's header fields, the identifier of its frame and the word its access reads (R368, R372). -/
def pduOk (p : PduIn) : Bool :=
  clientOk p.c && below 256 p.tag && below 0x1000000 p.obj && below 256 p.sub && below 65536 p.data.length && below 65536 p.len &&
    p.id.all (below 0x20000000) && p.word.all wordOk

/-- A lane frame's header fields, and the block that ends it: a sync header of two bits, eight bytes (R113, R117). -/
def frameOk (f : Frame) : Bool :=
  below 256 f.kind && below 256 f.ver && below 65536 f.seq && below 65536 f.words && below 256 f.hcrc &&
    below 4 f.stop.sync && f.stop.payload.length == 8

/-- A monitor frame's fields (R543). -/
def monOk (f : MonIn) : Bool :=
  below 256 f.cmd && below 256 f.seq && below 65536 f.len && below 65536 f.crc && f.word.all wordOk

/-- What a boundary token brings: each list of readings complete or missing. -/
def boundaryOk (x : BoundaryIn) : Bool :=
  listOf 4 x.dies && listOf 4 x.vload && listOf 32 x.channels && listOf 8 x.supply && x.reads.all (fun p => wordOk p.1)

/-- What a start brings. -/
def startOk (x : StartIn) : Bool :=
  listOf 4 x.vload && below 3 x.emmc && x.pubs.all (fun p => below 16 p.1)

/-- A descriptor's fields (R423). -/
def descOk (x : Desc) : Bool :=
  below 256 x.op && below 256 x.flags && below 0x100000000 x.rsv && below 0x100000000 x.len && below 0x100000000 x.src && below 0x100000000 x.dst &&
    below 0x100000000 x.p0 && below 0x100000000 x.p1 && below 0x100000000 x.tag

/-- The line of a bleed: a stage's group, or a node (R229, R233). -/
def lineOk : BleedLine → Bool
  | .bus s g => below 32 s && below 4 g
  | .node n => below 0x200 n

/-- The operands fit the command. -/
def wellFormed : Instr → Bool
  | .boundaryToken x => boundaryOk x
  | .sampleToken => true
  | .launchToken => true
  | .minorReferenceToken => true
  | .refLoss => true
  | .laneReferenceLoss => true
  | .refLossClear role => below 4 role
  | .timeNowWrite role value => below 4 role && below 0x10000000000000000 value
  | .timeAdjustWrite role offset => below 4 role && decide (-0x8000000000000000 ≤ offset) && decide (offset < 0x8000000000000000)
  | .piKernel _ _ => true
  | .pidKernel _ _ => true
  | .kernel2p2z _ _ => true
  | .kernel3p3z _ _ => true
  | .minselKernel _ _ => true
  | .rampKernel _ _ => true
  | .limitKernel _ _ => true
  | .modelPhase _ _ => true
  | .balanceKernel _ _ => true
  | .packKernel _ _ => true
  | .diodeEmu _ _ => true
  | .sumCheck _ _ => true
  | .modelAdapt _ _ => true
  | .shedKernel _ _ => true
  | .i2tKernel _ _ => true
  | .energyBudget _ _ => true
  | .stageSequencer _ _ => true
  | .nodeSequencer _ _ => true
  | .therm3 _ _ => true
  | .allocKernel _ _ => true
  | .allocFast _ _ => true
  | .spillKernel _ _ => true
  | .profileClose _ _ => true
  | .slotOverrun cell _ => below 64 cell
  | .launchOverrunLimit cell => below 64 cell
  | .scrubRead w _ => wordOk w
  | .granuleReload _ _ => true
  | .keyRederive num addr _ _ => below 0x20000 num && below 0x800000 addr
  | .tlsKeyFetch n addr => below 256 n && below 0x800000 addr
  | .billRecalc m sub addr _ _ => below 66 m && decide (1 ≤ sub) && decide (sub ≤ 10) && below 0x800000 addr
  | .mgmtKick core => below 4 core
  | .mgmtRestart => true
  | .readObj p => pduOk p
  | .writeObj p => pduOk p
  | .segRead p => pduOk p
  | .segWrite p => pduOk p
  | .blkRead p => pduOk p
  | .blkWrite p => pduOk p
  | .dataPdu p => pduOk p
  | .ackPdu p => pduOk p
  | .describeObj p => pduOk p
  | .abortPdu p => pduOk p
  | .openSession p => pduOk p
  | .proveSession p => pduOk p
  | .closeSession p => pduOk p
  | .udpDatagram _ dst port ses counter _ m =>
    dst.length == 16 && below 65536 port && below 0x100000000 counter && below 65536 ses && m.word.all wordOk
  | .udpDiscovery _ dst port => dst.length == 16 && below 65536 port
  | .transferTimeout c tag => clientOk c && below 256 tag
  | .sessionIdleTimeout c => clientOk c
  | .objectWrite role num sub _ => below 4 role && below 0x20000 num && below 256 sub
  | .featureAcceptedWrite c value => clientOk c && below 0x100000000 value
  | .ctrlLevelWrite role group value => below 4 role && below 256 group && below 256 value
  | .stageUp s f => frameOk f && below 32 s
  | .dispUp di f => frameOk f && below 16 di
  | .metroRecord c _ _ => below 64 c
  | .metroGap c _ => below 64 c
  | .vethRecord c _ _ _ => below 64 c
  | .scBlock s p _ => below 32 s && below 32 p
  | .scClearWrite role s mask => below 4 role && below 32 s && below 0x100000000 mask
  | .blockLock l _ => below 50 l
  | .blockLockTimeout l => below 50 l
  | .echoMarker l _ _ => below 48 l
  | .rangingTimeout l => below 48 l
  | .identRsp l f => frameOk f && below 48 l
  | .identRspTimeout l => below 48 l
  | .linkupRetry l => below 50 l
  | .laneDown l _ => below 50 l
  | .sleepMarker l => below 48 l
  | .timingMarker l value _ _ => (l == 48 || l == 49) && below 0x100000000 value
  | .pairFrame l f _ => frameOk f && (l == 48 || l == 49)
  | .pairFrameSent => true
  | .stgLost s => below 32 s
  | .lostEnd s => below 32 s
  | .supCmdWrite role s sub value => below 4 role && below 32 s && (sub == 1 || sub == 2) && below 0x100000000 value
  | .outShort s g => below 32 s && below 4 g
  | .shortRetry s g => below 32 s && below 4 g
  | .retryUsedClear s g => below 32 s && below 4 g
  | .shortClearWrite role s mask => below 4 role && below 32 s && below 256 mask
  | .matrixTableWrite role k _ => below 4 role && below 2 k
  | .closeRefused n _ => below 0x200 n
  | .ctcFault n _ => below 0x200 n
  | .dischFail c => below 64 c
  | .bleedTimeExpiry line => lineOk line
  | .conSeqClearWrite role c value => below 4 role && below 64 c && below 256 value
  | .stgSeqClearWrite role s mask => below 4 role && below 32 s && below 256 mask
  | .tieClearWrite role mask => below 4 role && below 256 mask
  | .coolFlowLow c => below 64 c
  | .conThermClearWrite role c mask => below 4 role && below 64 c && below 256 mask
  | .stgThermClearWrite role s mask => below 4 role && below 32 s && below 256 mask
  | .dieThermClearWrite role mask => below 4 role && below 256 mask
  | .lchCmdWrite role n value => below 4 role && below 32 n && below 256 value
  | .lchShort n => below 32 n
  | .heldShort n => below 32 n
  | .lchOverload n => below 32 n
  | .lchThermal n => below 32 n
  | .lchThermLatch n => below 32 n
  | .lchOpenLoad n => below 32 n
  | .lchClamp n => below 32 n
  | .lchRetry n => below 32 n
  | .retryCountReset n => below 32 n
  | .inrushWindowEnd n _ => below 32 n
  | .lchVload g _ => below 4 g
  | .vloadReturn g _ => below 4 g
  | .lockClearWrite role n => below 4 role && below 32 n
  | .latchClearWrite role n => below 4 role && below 32 n
  | .fsHoldExpiry => true
  | .linkState c _ => below 64 c
  | .linkStateTimeout c => below 64 c
  | .seccDiscoveryRequest c _ => below 64 c
  | .supportedAppProtocol c _ => below 64 c
  | .tlsHandshake c _ => below 64 c
  | .sessionSetup c _ _ => below 64 c
  | .authorization c _ _ _ => below 64 c
  | .authTimeout n => below 256 n
  | .chargeParameterDiscovery c _ => below 64 c
  | .cableCheck c => below 64 c
  | .prechargeRequest c _ => below 64 c
  | .prechargeTimeout c => below 64 c
  | .powerDelivery c _ => below 64 c
  | .chargeLoop c _ _ => below 64 c
  | .chargeLoopTimeout c => below 64 c
  | .weldingDetection c => below 64 c
  | .sessionStopRequest c _ => below 64 c
  | .resumeTimeout n => below 256 n
  | .sessionRecordStored n => below 256 n
  | .sesAuthWrite role n value => below 4 role && below 256 n && below 256 value
  | .sesStopWrite role n value => below 4 role && below 256 n && below 256 value
  | .sesDirWrite role n value => below 4 role && below 256 n && below 256 value
  | .sesKeyRollWrite role mask => below 4 role && below 256 mask
  | .sesChainWrite role k _ => below 4 role && below 4 k
  | .adcSample samples => samples.length == 16
  | .pulseMs => true
  | .metPhaseSeq k => below 2 k
  | .metNeutral k => below 2 k
  | .legalParameterWrite role num sub _ => below 4 role && below 0x20000 num && below 256 sub
  | .legalSettingWrite role num sub _ => below 4 role && below 0x20000 num && below 256 sub
  | .billingTick => true
  | .tariffSample _ _ => true
  | .legalCheck _ _ _ => true
  | .bilSeal _ => true
  | .bilTamper i _ _ => below 2 i
  | .storeRetry => true
  | .periodCloseWrite role value => below 4 role && below 256 value
  | .billingRecordCommit m => below 66 m
  | .supplyDrop mask => below 256 mask
  | .rstNLow => true
  | .startUp x => startOk x
  | .chargeReady => true
  | .yardAssocDeadline => true
  | .restoreFactoryWrite role _ => below 4 role
  | .pushIn b _ _ _ _ _ => below 4 b
  | .fbPointStale n => below 0x4000 n
  | .fbPointsWrite role _ => below 4 role
  | .discoveryStartWrite role mask => below 4 role && below 256 mask
  | .identFrame b _ _ _ _ _ _ => below 4 b
  | .discoveryRoundEnd b => below 4 b
  | .busError b _ => below 4 b
  | .busOffRecovery b => below 4 b
  | .plZcEdge _ => true
  | .yardZcLost => true
  | .zcBaseTimeout => true
  | .beaconPeriod => true
  | .yardDataFrame fh segs _ => fh.length == 16 && decide (segs.length ≤ 48)
  | .receiptFrame fh => fh.length == 16
  | .receiptMissing _ _ => true
  | .yardFrameSend _ _ => true
  | .assocReq => true
  | .helloMessage => true
  | .neighReport => true
  | .tmUpdate => true
  | .pointMessage => true
  | .routeComputation => true
  | .yardNodeLost i => below 512 i
  | .yardPointRefresh => true
  | .yardPointStale i j => below 512 i && below 24 j
  | .yardDriverFault => true
  | .driverResume => true
  | .vplcLow => true
  | .vplcRestored => true
  | .yardForgetWrite role addr => below 4 role && below 65536 addr
  | .nullDesc r x => descOk x && below 16 r
  | .copyDesc r x => descOk x && below 16 r
  | .deinterleaveDesc r x => descOk x && below 16 r
  | .bitplaneDesc r x => descOk x && below 16 r
  | .descriptorComplete r _ => below 16 r
  | .writeResponseTimeout r => below 16 r
  | .ringStopWrite role mask => below 4 role && below 0x100000000 mask
  | .ringStartWrite role mask => below 4 role && below 65536 mask
  | .pageWritten part => below 6 part
  | .pageFlushTimer part => below 6 part
  | .recEmmcFail => true
  | .emmcReinit _ => true
  | .recWear _ _ _ => true
  | .recFormatWrite role => below 4 role
  | .recTriggerWrite role mask => below 4 role && below 0x100000000 mask
  | .captureFrozen s => below 32 s
  | .recDataRead k => below 8 k
  | .electionTimeout => true
  | .hbInEdge _ => true
  | .hbOutToggle => true
  | .pairTakeover => true
  | .pairPathFault path => (path == 1 || path == 2)
  | .pathFaultClear path => (path == 1 || path == 2)
  | .noImageTakeover => true
  | .pairSwitchWrite role value => below 4 role && below 256 value
  | .switchover => true
  | .returnHoldoff => true
  | .lcReqWrite role sub _ => below 4 role && below 256 sub
  | .keyRollWrite role value => below 4 role && below 65536 value
  | .keyInstallWrite role num _ => below 4 role && below 0x20000 num
  | .keyPubWrite role k _ _ => below 4 role && below 16 k
  | .keyRemask => true
  | .updBeginWrite role sub _ => below 4 role && below 256 sub
  | .updPieceWrite role _ => below 4 role
  | .packageVerified _ => true
  | .updStaged => true
  | .updActivateWrite role _ value => below 4 role && below 256 value
  | .quietHandover => true
  | .updRejectWrite role value => below 4 role && below 256 value
  | .updConfirmed => true
  | .trialTimeout => true
  | .monPing f => monOk f
  | .monChallenge f => monOk f
  | .monUnlock f => monOk f
  | .monLock f => monOk f
  | .monStatus f => monOk f
  | .monRead f => monOk f
  | .monWrite f => monOk f
  | .monDescribe f => monOk f
  | .monTrace f => monOk f
  | .monMemRead f => monOk f
  | .monBreak => true
  | .monIdleTimeout => true
  | .lockoutEnd => true
  | .norCopyWritten num sub => below 0x20000 num && below 256 sub
  | .upstreamWake l => below 48 l
  | .vkeepLoss => true
  | .deltaTBelowRestart n => below 32 n
  | .canFrameTransmitted b _ => below 4 b
  | .monFrameGapTimeout => true

end Sys2Proof
end

