-- ==== Sys2Proof/Certificates/Slice0/Obligations.lean ====
section
/-! DEFINITION. The statements about this block, by part of the device: the step itself, time and schedule, kernels, guard, stages and
contactors, load channels, lanes, metering, vehicle sessions, field buses, the yard powerline, DMA and the record store, the pair,
keys and updates, start and reset, clients, the monitor, and the write rows. -/

section Statements

open Sys2Proof Sys2Proof.Machine

/-- What a step does: the command at the front of the queue is run with the queue's rest; with none waiting the block idles (the
model's own choice, log entry 1). -/
def Obligations.StepRunsTheFront : Prop :=
  (∀ (c : Instr) (q : List Instr) (s : State), step { s with pending := c :: q } = exec c { s with pending := q }) ∧
  (∀ s : State, s.pending = [] → step s = .next s)

/-- Every command answers a next state and leaves the queue alone, and all but the commands that reach the memory of DMA leave
memory alone; no command stops (the model's reading of the table, log entry 2). -/
def Obligations.EveryCommandAnswers : Prop :=
  ∀ (c : Instr) (s : State), ∃ t, exec c s = .next t ∧ t.pending = s.pending ∧ (reachesMemory c = false → t.mem = s.mem)

/-- Reset: the queue is empty, memory lists nothing, and the invariant holds. -/
def Obligations.ResetMeetsTheInvariant : Prop :=
  State.reset.pending = [] ∧ Inv State.reset ∧ State.reset.dev.phase = .reset ∧ (∀ a, memRead State.reset.mem a = 0)

/-- Rows whose index names no part of the device change nothing (the model's choice, log entry 2). -/
def Obligations.RowsThatNameNothing : Prop :=
  ∀ (s : State) (n g : Nat) (r : SlotReport),
    (∀ c ∈ [Instr.stgLost n, .lostEnd n, .outShort n g, .shortRetry n g, .retryUsedClear n g], 32 ≤ n →
      Completes c s (Framed [] [] s.dev)) ∧
    (∀ c ∈ [Instr.coolFlowLow n, .dischFail n], 64 ≤ n → Completes c s (Framed [] [] s.dev)) ∧
    (∀ c ∈ [Instr.lchShort n, .lchOverload n], 32 ≤ n → Completes c s (Framed [] [] s.dev)) ∧
    (∀ x c, runOf c = some x → x.report = r → slotAt s.dev x.slot = none → Completes c s (Framed [] [] s.dev))

/-- The memory stays in its canonical form: whatever state meets the invariant, a step leads to one that does. -/
def Obligations.StepsKeepTheInvariant : Prop :=
  ∀ (s t : State), Inv s → step s = .next t → Inv t

/-- R30: the minor frame. A boundary that ends a minor frame is always also one that ends a micro-frame. A minor frame is exactly
1 ms, but at 16 µs it has 62 and 63 micro-frames in turn, 62 first, so that each pair is exactly 2 ms; what integrates over a
minor frame uses its actual length. A major frame follows after 100 minor frames, a billing tick after ten major frames. -/
def Obligations.FramesNest : Prop :=
  ∀ (t : TimeS) (d : Dev), t.m < microsOf t.code t.minor → t.k < 100 →
    let n := nextTime t
    let last := t.m + 1 = microsOf t.code t.minor
    (t.begun = false → n.micro = t.micro ∧ n.minor = t.minor ∧ n.major = t.major ∧ n.tick = t.tick) ∧
    (t.begun = true → n.micro = t.micro + 1 ∧ n.minor = (if last then t.minor + 1 else t.minor) ∧
      n.m = (if last then 0 else t.m + 1) ∧ n.m < microsOf n.code n.minor ∧ n.k < 100 ∧ n.code = t.code ∧
      n.major = (if last ∧ t.k = 99 then t.major + 1 else t.major) ∧
      n.tick = (if last ∧ t.k = 99 ∧ (t.major + 1) % 10 = 0 then t.tick + 1 else t.tick)) ∧
    (1 ≤ t.code → t.code ≤ 7 → t.code ≠ 3 → microsOf t.code t.minor * microNs t.code = 1000000) ∧
    microNs 3 = 16000 ∧ microsOf 3 0 = 62 ∧ microsOf 3 t.minor + microsOf 3 (t.minor + 1) = 125 ∧
    (microsOf 3 t.minor + microsOf 3 (t.minor + 1)) * microNs 3 = 2000000 ∧
    (1 ≤ t.code → t.code ≤ 7 → majorMicros t.code =
      ((List.range 100).map (fun j => microsOf t.code (100 * t.major + j))).foldl (· + ·) 0) ∧
    minorNs d = microsOf d.time.code (d.time.minor - 1) * microNs d.time.code

/-- R30, R32, R36: a boundary token inside a minor frame advances the micro-frame counters by one and no other counter. -/
def Obligations.BoundaryTokenCounts : Prop :=
  ∀ (s : State) (x : BoundaryIn), running s.dev = true → s.dev.time.begun = true →
    s.dev.time.m + 1 < microsOf s.dev.time.code s.dev.time.minor → (∀ p ∈ s.dev.os.pend, p.level ≠ 1) →
    s.dev.pair.role = .single →
    CompletesMem (.boundaryToken x) s (fun e _ =>
      e.time.micro = s.dev.time.micro + 1 ∧ e.time.m = s.dev.time.m + 1 ∧ e.time.lastLevel = 1 ∧
        e.time.minor = s.dev.time.minor ∧ e.time.k = s.dev.time.k ∧ e.time.major = s.dev.time.major ∧
        e.time.tick = s.dev.time.tick ∧ e.time.sampled = false ∧ e.time.launched = false ∧ e.time.refDue = false)

/-- R40, R41, R127, R195, R425: the sample token latches the newest frame of every bound stage and dispenser, and counts those
that miss; the launch token sends the frame of every stage and dispenser lane in use, with the change of its fields noted
first (R143). Each happens once in a micro-frame. -/
def Obligations.SampleAndLaunchTokens : Prop :=
  ∀ (s : State), running s.dev = true → s.dev.time.begun = true →
    let noted := fun (l : Nat) =>
      if downFields s.dev l = (laneS s.dev l).launched then s.dev else modLane l (fun x => { x with busyMajor := true }) s.dev
    let sends := fun (l : Nat) => (laneS s.dev l).st = .up ∧ (laneS s.dev l).ctl = true ∧ (laneS s.dev l).downSleep = false ∧
      (laneS s.dev l).wakeWait = 0
    (s.dev.time.sampled = false → Completes .sampleToken s (fun e =>
      e.time = { s.dev.time with sampled := true } ∧
        (∀ k ∈ stagesBound s.dev,
          let got := latchedNow s.dev.time.micro (laneS s.dev k)
          (laneS e k).valid = (got.isSome || (laneS s.dev k).upSleep) ∧ (laneS e k).old = (laneS s.dev k).cur ∧
            (got.isSome = true → (laneS e k).latch = none) ∧
            on e 0x202 (k + 1) = (if (laneS e k).valid = false ∧ (laneS s.dev k).everUp = true then incSat 32 (on s.dev 0x202 (k + 1))
              else on s.dev 0x202 (k + 1))) ∧
        (∀ i ∈ dispsBound s.dev,
          let x := laneS s.dev (32 + i)
          laneS e (32 + i) = match latchedNow s.dev.time.micro x with
            | some b => { x with cur := b, old := x.cur, latch := none, valid := true, missRun := 0 }
            | none => { x with old := x.cur, valid := x.upSleep, missRun := if x.upSleep then 0 else x.missRun + 1 }) ∧
        (∀ l, l ∉ stagesBound s.dev → l < 32 → laneS e l = laneS s.dev l ∧ stgS e l = stgS s.dev l) ∧
        OnlyParts [.time, .stg, .lanes, .flash] s.dev e ∧ e.os.pend = s.dev.os.pend)) ∧
    (s.dev.time.launched = false → Completes .launchToken s (fun e =>
      e.time = { s.dev.time with launched := true } ∧ e.lanes.clearBlock = [] ∧
        (∀ l ∈ stagesBound s.dev, isActive s.dev = true → sends l → (stgS s.dev l).lost = false →
          launched e l 2 s.dev.time.micro (stageDown (noted l) l) = true) ∧
        (∀ i ∈ dispsBound s.dev, s.dev.pair.role ≠ .electing → sends (32 + i) →
          ∃ recs, launched e (32 + i) 4 s.dev.time.micro (dispDown (noted (32 + i)) i recs) = true ∧
            (isActive s.dev = false → recs = [])) ∧
        (∀ k, (stgS e k).lost = (stgS s.dev k).lost) ∧ Framed [.time, .lanes, .stg] [] s.dev e)) ∧
    (s.dev.time.sampled = true → Completes .sampleToken s (Framed [] [] s.dev)) ∧
    (s.dev.time.launched = true → Completes .launchToken s (Framed [] [] s.dev))

/-- R27: the loss of REFCLK moves the time keeper to the lane reference; losing that as well makes the unit fail-silent. -/
def Obligations.ReferencesLost : Prop :=
  ∀ (s : State), running s.dev = true →
    ((on s.dev 0x185 0).testBit 0 = true → Completes .refLoss s (fun e =>
      raised e 0x1401 noInst = true ∧ e.time = { s.dev.time with src := .laneRef } ∧
        on e 0x185 0 = setBit (clearBit (on s.dev 0x185 0) 0) 2 ∧ Framed [.time] [(0x185, 0)] s.dev e)) ∧
    (s.dev.time.src = .laneRef → Completes .laneReferenceLoss s (fun e =>
      e.phase = .failSilent ∧ on e 0x1C8 0 = 3 ∧ e.startup.nextCause = 4 ∧ .heartbeatLow ∈ e.sent ∧
        e.time = { s.dev.time with src := .none } ∧ Framed [.phase, .time, .pair, .startup] [(0x1C8, 0)] s.dev e))

/-- R39, R57, R67, R75 to R85, R196: what a slot's run does by what the guard's checks find. A clean run commits the kernel's
state, outputs, launch fields and events; a held slot is passed over; an error of class 3 makes the slot start over; one of
class 5 reloads its granule; other errors are run again once, a second error makes the unit fail-silent with cause 1, and a
re-run that misses the deadline commits nothing; a run that is not due changes nothing. -/
def Obligations.SlotRunsCommit : Prop :=
  ∀ (c : Instr) (x : SlotRun) (s : State), runOf c = some x →
    (∀ im sl, RunDue s.dev x im sl → sl.cell < 64 →
      let r := x.report
      let cls := seenClass r.seen
      let rerun := slotRerunBooks x.slot sl r.seen s.dev
      let noted := fun (e : Dev) => on e 0x1C6 1 = cls ∧ on e 0x1C6 2 = x.slot ∧ on e 0x1C6 3 = s.dev.time.micro
      (slotHeld s.dev im x.slot sl = true → Completes c s (fun e =>
        e.sched = { s.dev.sched with stopped := x.slot :: s.dev.sched.stopped } ∧ Framed [.sched] [] s.dev e)) ∧
      (slotHeld s.dev im x.slot sl = false →
        (cls = 0 → Completes c s (Commits x.slot sl r.stamp (x.f s.dev im sl (kstOf s.dev x.slot)) s.dev)) ∧
        (cls = 3 → Completes c s (fun e =>
          e.sched = { s.dev.sched with
            kst := alDel s.dev.sched.kst x.slot
            alloc := if sl.kernel = 0x50 then s.dev.sched.alloc.cleared else s.dev.sched.alloc
            stopped := x.slot :: s.dev.sched.stopped } ∧
            on e 0x1C2 0 = incSat 32 (on s.dev 0x1C2 0) ∧ on e 0x1C0 0 = setBit (on s.dev 0x1C0 0) 1 ∧ noted e ∧
            Framed [.sched] [(0x1C0, 0), (0x1C2, 0), (0x1C6, 1), (0x1C6, 2), (0x1C6, 3)] s.dev e)) ∧
        (∀ g w, r.seen = .table g w → cls = 5 → Completes c s (fun e =>
          e.guard = { s.dev.guard with reload := s.dev.guard.reload ++ (if s.dev.guard.reload.any (fun p => p.1 == g) then [] else [(g, 0)]) } ∧
            e.sched = { s.dev.sched with stopped := x.slot :: s.dev.sched.stopped } ∧ on e 0x1C6 1 = 5 ∧ on e 0x1C6 2 = w.addr ∧
            Framed [.guard, .sched] [(0x1C6, 1), (0x1C6, 2), (0x1C6, 3)] s.dev e)) ∧
        ((cls = 1 ∨ cls = 2) → seenClass r.again = 0 → r.late = false → Completes c s (fun e =>
          x.slot ∈ e.sched.reran ∧ (r.seen = .excess → raised e 0x1C02 sl.cell = true) ∧
            on e 0x1C1 (sl.cell + 1) = incSat 32 (on s.dev 0x1C1 (sl.cell + 1)) ∧ on e 0x1C0 0 = setBit (on s.dev 0x1C0 0) 0 ∧
            noted e ∧ Commits x.slot sl r.stamp (x.f rerun im sl (kstOf s.dev x.slot)) rerun e)) ∧
        ((cls = 1 ∨ cls = 2) → seenClass r.again = 0 → r.late = true → Completes c s (fun e =>
          x.slot ∈ e.sched.reran ∧ e.sched.ran = s.dev.sched.ran ∧ e.sched.outs = s.dev.sched.outs ∧ e.sched.kst = s.dev.sched.kst ∧
            e.lanes = s.dev.lanes ∧ noted e ∧ Framed [.sched]
              [(0x1A0, 0), (0x1C0, 0), (0x1C1, sl.cell + 1), (0x1C6, 1), (0x1C6, 2), (0x1C6, 3)] s.dev e)) ∧
        (∀ k w src, r.seen = .snapshot k w src → cls = 4 → seenClass r.again = 0 → r.late = false → Completes c s (fun e =>
          let b := bindAt im sl k
          x.slot ∈ e.sched.reran ∧ x.slot ∈ e.sched.ran ∧
            (wordCode src.data src.addr = src.code → noted e ∧ e.stg = s.dev.stg) ∧
            (wordCode src.data src.addr ≠ src.code →
              (b.kind = 2 → noted e ∧ raised e 0x2A02 b.sub = true) ∧
              (b.kind = 1 → on e 0x1C6 1 = 6 ∧ on e 0x1C6 2 = src.addr ∧ okey (bindObj b) b.sub ∈ e.os.stale)))) ∧
        ((cls = 1 ∨ cls = 2) → seenClass r.again ≠ 0 → Completes c s (fun e =>
          e.phase = .failSilent ∧ on e 0x1C8 0 = 1 ∧ e.startup.nextCause = 4 ∧ .heartbeatLow ∈ e.sent ∧
            e.lanes = s.dev.lanes ∧ e.sched.outs = s.dev.sched.outs ∧ e.sched.kst = s.dev.sched.kst ∧
            Framed [.phase, .sched, .pair, .startup] [(0x1A0, 0), (0x1C0, 0), (0x1C1, sl.cell + 1), (0x1C6, 1), (0x1C6, 2), (0x1C6, 3),
              (0x1C8, 0)] s.dev e)))) ∧
    ((∀ im sl, ¬ RunDue s.dev x im sl) → Completes c s (Framed [] [] s.dev))

/-- R43, R68, R69: at a deadline the slots of a cell that are still open are stopped and booked; the third launch-section overrun
in a row makes the unit fail-silent with cause 2. -/
def Obligations.OverrunsStopSlots : Prop :=
  ∀ (s : State) (c : Nat), running s.dev = true → c < 64 →
    (∀ im sect i rest, img? s.dev = some im → lateSlots s.dev im c sect = i :: rest → s.dev.time.sampled = true →
      (sect = 1 ∨ sect = 2) → Completes (.slotOverrun c sect) s (fun e =>
        (∀ j, j ∈ i :: rest → j ∈ e.sched.stopped) ∧ (c, sect) ∈ e.sched.overrun ∧ c ∈ e.sched.overRaised ∧
          (c ∉ s.dev.sched.overRaised → raised e 0x1C01 c = true) ∧
          ((i :: rest).any (fun j => (im.slots.getD j default).kernel == 0x50) = true → e.sched.alloc.discard = true) ∧
          e.sched.kst = s.dev.sched.kst ∧ e.sched.outs = s.dev.sched.outs ∧
          on e 0x1AB (c + 1) = incSat 32 (on s.dev 0x1AB (c + 1)) ∧ on e 0x1AC 1 = i ∧ on e 0x1AC 2 = sect ∧
          on e 0x1A0 0 = setBit (on s.dev 0x1A0 0) 2 ∧
          Framed [.sched] [(0x1A0, 0), (0x1AB, c + 1), (0x1AC, 1), (0x1AC, 2), (0x1AC, 3), (0x1012, 0)] s.dev e)) ∧
    (3 ≤ (alGet s.dev.sched.launchRun c).getD 0 → Completes (.launchOverrunLimit c) s (fun e =>
      e.phase = .failSilent ∧ on e 0x1C8 0 = 2 ∧ e.startup.nextCause = 4 ∧ .heartbeatLow ∈ e.sent ∧
        Framed [.phase, .pair, .startup] [(0x1C8, 0)] s.dev e))

/-- R155 to R159: the loops of a group. The output of PI and PID stays within UMAX and within M of the applied reference, and the
integral follows every limit; MINSEL takes the lowest candidate; LIMIT takes HI where the bounds cross; RAMP starts at the
measured voltage and moves by at most one step. -/
def Obligations.GroupLoopKernels : Prop :=
  ∀ (d : Dev) (im : Image) (sl : SlotR) (st : List Int), (∀ j, j < 2 → (bindAt im sl (sl.ins + j)).kind = 1) →
    let w := fun (j : Nat) => bindWidth (bindAt im sl (sl.ins + j)).ty
    (∀ (pid : Bool) (l : Loc), locate (bindObj (bindAt im sl 3)) = some l → l.blk = .grp →
      let mo := oGrp l.inst l.sub 0
      let yb := bindAt im sl 1
      let co := bankObj d sl.cell (bindObj (bindAt im sl 3))
      let cf := fun k => rdq d sl.cell co ((bindAt im sl 3).sub + k)
      let m := rdq d sl.cell co (if pid then 0x1F else 0x19)
      let rev := yb.kind = 1 ∧ bindObj yb = mo ∧ yb.sub = 1 ∧ rdq d sl.cell mo 5 = -65536
      let e := satS 32 (inpT d im sl 0 - inpT d im sl 1)
      let p := satS 64 (cf 0 * e + (if pid then cf 4 * satS 32 (e - st.getD 1 0) else 0))
      let i := satS 64 (st.getD 0 0 + cf 1 * e)
      let lim := satS 32 (inpT d im sl 2 + m)
      (rd d sl.cell mo 7 = 0 → kPi pid d im sl st = { outs := [(outKey im sl 0, 0)] }) ∧
      (rd d sl.cell mo 7 ≠ 0 → rev → kPi pid d im sl st = { outs := [(outKey im sl 0, ofS (w 0) (cf 3))] }) ∧
      (rd d sl.cell mo 7 ≠ 0 → ¬rev → ∃ u i', kPi pid d im sl st =
          { outs := [(outKey im sl 0, ofS (w 0) u)], st := i' :: (if pid then [e] else []) } ∧
        u ≤ lim ∧ u ≤ cf 3 ∧ (cf 2 ≤ cf 3 → cf 2 ≤ lim → cf 2 ≤ u) ∧ (u = q16 (satS 64 (p + i)) → i' = i) ∧
        (u ≠ q16 (satS 64 (p + i)) → i' = satS 64 (u * 2 ^ 24 - p)) ∧
        (cf 2 ≤ q16 (satS 64 (p + i)) → q16 (satS 64 (p + i)) ≤ min (cf 3) lim → u = q16 (satS 64 (p + i))))) ∧
    (1 ≤ sl.p1 → ∃ j, j < sl.p1 ∧
      kMinsel d im sl st = { outs := [(outKey im sl 0, ofS (w 0) (inp d im sl j)), (outKey im sl 1, ofS (w 1) j)] } ∧
      (∀ k, k < sl.p1 → inp d im sl j ≤ inp d im sl k) ∧ (∀ k, k < j → inp d im sl j < inp d im sl k)) ∧
    (∃ v, kLimit d im sl st = { outs := [(outKey im sl 0, ofS (w 0) v)] } ∧ v ≤ inpT d im sl 2 ∧
      (inpT d im sl 1 ≤ inpT d im sl 2 → inpT d im sl 1 ≤ v) ∧ (inpT d im sl 2 < inpT d im sl 1 → v = inpT d im sl 2) ∧
      (inpT d im sl 1 ≤ inpT d im sl 0 → inpT d im sl 0 ≤ inpT d im sl 2 → v = inpT d im sl 0)) ∧
    (let stopped := rd d sl.cell (bindObj (bindAt im sl 1)) 7 = 0
     let step := mul16 (inp d im sl 2) (tMsQ d)
     let target := inp d im sl 0
     let was := if st.getD 1 0 = 0 then inp d im sl 1 else st.getD 0 0
     (target = 0 ∨ stopped → kRamp d im sl st =
        { outs := [(outKey im sl 0, ofS (w 0) (inp d im sl 1))], st := [inp d im sl 1, 0, inp d im sl 1] }) ∧
     (target ≠ 0 → ¬stopped → 0 ≤ step → -(2 ^ 31) ≤ was → was < 2 ^ 31 → -(2 ^ 31) ≤ target → target < 2 ^ 31 → ∃ v,
        kRamp d im sl st = { outs := [(outKey im sl 0, ofS (w 0) v)],
                             st := [v, 1, if st.getD 1 0 = 0 then inp d im sl 1 else st.getD 2 0] } ∧
        v ≤ was + step ∧ was - step ≤ v ∧ (was ≤ target → was ≤ v ∧ v ≤ target) ∧ (target ≤ was → target ≤ v ∧ v ≤ was) ∧
        (was ≤ target → target ≤ was + step → v = target) ∧ (target ≤ was → was - step ≤ target → v = target)))

/-- R163, R165, R166, R173, R175 to R177: the phase kernels. A compensator stays within its clamp; the trims of BALANCE and PACK
stay within their limit; duty stays a duty; a diode-emulated duty moves by at most 1,024; SHED enables permitted phases only;
I2T trips at its limit and leaves the fold at half of it. -/
def Obligations.PhaseKernels : Prop :=
  (∀ (h b a : List Int) (lo hi e : Int), lo ≤ hi →
    let o := compStep h b a lo hi e
    lo ≤ o.1 ∧ o.1 ≤ hi ∧ o.2 = [e, h.getD 0 0, h.getD 1 0, o.1, h.getD 3 0, h.getD 4 0]) ∧
  (∀ (kb lim : Int) (on : List Bool) (cur : List Int), 0 ≤ lim → on.length = cur.length →
    let t := balanceTrims kb lim on cur
    t.length = on.length ∧ ∀ j, j < on.length → -lim ≤ t.getD j 0 ∧ t.getD j 0 ≤ lim ∧ (on.getD j false = false → t.getD j 0 = 0)) ∧
  (∀ (d : Dev) (im : Image) (sl : SlotR) (st : List Int), (∀ j, j < 2 * sl.p1 → (bindAt im sl (sl.ins + j)).kind ≠ 1) →
    let tm := rdq d sl.cell (phBank d sl.cell (bindAt im sl sl.ins).sub) 10
    let k := kPack d im sl st
    0 ≤ tm → k.lreg.length = 2 * sl.p1 ∧ k.outs = [] ∧ k.st = [] ∧
      (∀ j, j < sl.p1 → (k.lreg.getD j default).1 = outField im sl j ∧ (k.lreg.getD (sl.p1 + j) default).1 = outField im sl (sl.p1 + j) ∧
        ∃ u t : Int, 0 ≤ u ∧ u ≤ 65535 ∧ -tm ≤ t ∧ t ≤ tm ∧
          (k.lreg.getD j default).2 = ofS (bindWidth (bindAt im sl (sl.ins + j)).ty) u ∧
          (k.lreg.getD (sl.p1 + j) default).2 = ofS (bindWidth (bindAt im sl (sl.ins + (sl.p1 + j))).ty) t)) ∧
  (∀ (p : Option Int) (x : Int) (zc : Nat), (zc = 0 → diodeStep p x zc = x) ∧
    (zc ≠ 0 → ∀ q, p = some q → q - 1024 ≤ diodeStep p x zc ∧ diodeStep p x zc ≤ q + 1024) ∧ diodeStep none x zc = x) ∧
  (∀ (rot : Bool) (st : List Int) (a : Nat) (ig r : Int) (lo hi dwell nmin : Nat) (tm : Int), a < 2 ^ 32 →
    let o := shedStep rot st a ig r lo hi dwell nmin tm
    let en := (if st = [] then a else (st.getD 0 0).toNat) &&& a
    ∃ en' : Nat, o.1.getD 0 0 = en' ∧ en' &&& a = en' ∧ (o.2 = false → en' = en) ∧
      (o.2 = true → ∃ i, i < 32 ∧ a.testBit i = true ∧ (en' = setBit en i ∨ en' = clearBit en i))) ∧
  (∀ (st : List Int) (ig ic trip tm : Int), 0 ≤ trip →
    let n := i2tStep st ig ic trip tm
    let a := n.getD 0 0
    let t := trip * 2 ^ 24
    0 ≤ a ∧ a < 2 ^ 64 ∧ (t ≤ a → n.getD 1 0 = 2) ∧ (a < t → 2 * a < t → n.getD 1 0 = 0) ∧
      (a < t → 8 * t ≤ 10 * a → st.getD 1 0 = 0 → n.getD 1 0 = 1) ∧
      (a < t → t ≤ 2 * a → (st.getD 1 0 ≠ 0 ∨ 10 * a < 8 * t) → n.getD 1 0 = st.getD 1 0))

/-- R253: the level of a sensor, and the latch. A sensor's level follows its reading: it rises as soon as the reading reaches a
higher threshold, and falls to a level only when the reading is below the next threshold minus HYST; a reading at SHUTDOWN
latches. R256: a faulted sensor takes level 2; the latch sets the limit to 0, until a clear finds no sensor at SHUTDOWN;
otherwise the limit stays between the floor and 100. -/
def Obligations.ThermalKernel : Prop :=
  ∀ (c : ThLim) (step r floor : Nat) (due : Bool) (ss : List ThSens) (q : ThReg), 0 ≤ c.h →
    let o := thermStep c step r floor due ss q
    let shut := ∃ y, y ∈ ss ∧ ThSens.fault y = false ∧ c.s ≤ y.x
    let thr := fun (k : Nat) => if k = 1 then c.w else if k = 2 then c.t else c.s
    o.lvls.length = ss.length ∧ o.reg.t ≤ r ∧
    (∀ (j : Nat) (y : ThSens), ss[j]? = some y → (y.fault = true → o.lvls[j]? = some 2) ∧
      (y.fault = false → y.old ≤ 3 → ∃ v, o.lvls[j]? = some v ∧ v ≤ 3 ∧
        (∀ k, 1 ≤ k → k ≤ 3 → thr k ≤ y.x → k ≤ v) ∧ (y.old < v → thr v ≤ y.x) ∧ (v < y.old → y.x < thr (v + 1) - c.h))) ∧
    (shut → o.reg.latch = true ∧ o.reg.lim = 0 ∧ o.reg.reg1 = 3 ∧ o.cleared = false) ∧
    (q.latch = true → due = false → o.reg.latch = true ∧ o.reg.lim = 0) ∧
    (q.latch = true → due = true → ¬shut → o.reg.latch = false ∧ o.cleared = true) ∧
    (q.latch = false → ¬shut → floor ≤ q.lim → q.lim ≤ 100 →
      o.reg.latch = false ∧ floor ≤ o.reg.lim ∧ o.reg.lim ≤ 100 ∧
        (o.reg.reg1 = 1 → o.reg.lim = q.lim) ∧ (o.reg.reg1 = 2 → q.reg1 ≠ 2 → o.reg.lim = max floor (q.lim - step)) ∧
        (o.reg.reg1 = 0 → r ≤ q.t → o.reg.lim = min 100 (q.lim + step)))

/-- R240, R241: contactors under command. An idle node closes no contactor; a connector in CONNECT to STOP changes the command of
a contactor only when its feedback agrees with the command before, or when T_OP has passed since that command; a group opens
its output contactor only below 1 %, with its contactor open already, or LOST. -/
def Obligations.SequencersObeyFeedback : Prop :=
  (∀ (x : NodeIn) (q : NSeq) (b : Nat), x.n < 64 → 1 ≤ q.state → q.state ≤ 5 → b ≠ 17 →
    (nodeRun x q).cmd.testBit b ≠ q.cmd.testBit b →
      (b = 16 ∧ q.cmd.testBit 16 = x.conFb) ∨ (∃ e ∈ x.es, e.k = b ∧ q.cmd.testBit b = e.fb) ∨ x.tOp ≤ tcOf q b + x.t) ∧
  (∀ (x : NodeIn) (q : NSeq), x.n < 64 → q.state ≤ 7 → (nodeRun x q).state ≤ 7 ∧
    (q.state = 7 → x.clr = false → (nodeRun x q).state = 7) ∧
    (1 ≤ q.state → q.state ≤ 4 → x.stop = true → (nodeRun x q).state = 5) ∧
    (q.state = 0 → ∀ c, (nodeRun x q).cmd.testBit c = true → q.cmd.testBit c = true) ∧
    ((nodeRun x q).state = 4 → q.state = 4 ∨ (q.state = 3 ∧ x.ready = true ∧ x.req = 3))) ∧
  (∀ (x : GrpIn) (q : GSeq), 3 ≤ q.state → q.state ≤ 8 → q.close = true → (groupRun x q).close = false →
    x.lost = true ∨ igLow x = true ∨ x.gfb = false) ∧
  (∀ (x : GrpIn) (q : GSeq), q.state = 9 → x.clr = false → (groupRun x q).state = 9 ∧ (groupRun x q).vset = 0 ∧ (groupRun x q).ieb = 0)

/-- R77, R78, R79, R85, R89: the scrubber goes on by a word a read; a word whose code does not hold is handled by its class and
noted. R85: a granule whose bytes agree with a stored copy of its CRC leaves the list and is counted; one that fails its CRC
again makes the unit fail-silent with cause 4. -/
def Obligations.HitsAreHandledByClass : Prop :=
  (∀ (s : State) (w : WordRead), running s.dev = true →
     let last := fun (cls idx : Nat) (e : Dev) => on e 0x1C6 1 = cls ∧ on e 0x1C6 2 = idx ∧ on e 0x1C6 3 = s.dev.time.micro
     let lastObjs : List (Nat × Nat) := [(0x1C6, 1), (0x1C6, 2), (0x1C6, 3), (0x1C7, 0)]
     let pass := fun (e : Dev) => on e 0x1C7 0 = (if s.dev.guard.scrubPos + 1 < sramWords then on s.dev 0x1C7 0 else incSat 32 (on s.dev 0x1C7 0)) ∧
       e.guard.scrubPos = (if s.dev.guard.scrubPos + 1 < sramWords then s.dev.guard.scrubPos + 1 else 0)
     (∀ h, wordCode w.data w.addr = w.code → Completes (.scrubRead w h) s (fun e => pass e ∧ Framed [.guard] [(0x1C7, 0)] s.dev e)) ∧
     (wordCode w.data w.addr ≠ w.code →
       Completes (.scrubRead w .other) s (fun e => pass e ∧ Framed [.guard] [(0x1C7, 0)] s.dev e) ∧
       (∀ i sl, slotAt s.dev i = some sl → Completes (.scrubRead w (.slotState i)) s (fun e =>
         pass e ∧ last 3 i e ∧ alGet e.sched.kst i = none ∧ on e 0x1C2 0 = incSat 32 (on s.dev 0x1C2 0) ∧
           on e 0x1C0 0 = setBit (on s.dev 0x1C0 0) 1 ∧
           Framed [.guard, .sched] ([(0x1C0, 0), (0x1C2, 0)] ++ lastObjs) s.dev e)) ∧
       (∀ g, Completes (.scrubRead w (.granule g)) s (fun e =>
         pass e ∧ last 5 w.addr e ∧ e.guard.reload.any (fun p => p.1 == g) = true ∧ Framed [.guard] lastObjs s.dev e)) ∧
       (∀ num sub d, findObj num = some d → sub < 256 → Completes (.scrubRead w (.object num sub)) s (fun e =>
           last 6 w.addr e ∧ (num ≠ 0x1C0 → on e 0x1C0 0 = setBit (on s.dev 0x1C0 0) 5) ∧
             (num ∉ [0x1C0, 0x1C6, 0x1C7] → counted num sub = false → okey num sub ∈ e.os.stale ∧
               (∀ v, storeFind s.dev.os.prev (okey num sub) = some v → ov e num sub = v)) ∧
             Framed [.guard] ([(0x1C0, 0), (num, sub)] ++ lastObjs) s.dev e)) ∧
       (∀ num, Completes (.scrubRead w (.key num)) s (fun e => pass e ∧ last 7 w.addr e ∧ Framed [.guard] lastObjs s.dev e)) ∧
       (∀ core, Completes (.scrubRead w (.management core)) s (fun e =>
         pass e ∧ last 9 w.addr e ∧ e.startup = { s.dev.startup with stalled := some (core % 4) } ∧
           Framed [.guard, .startup] lastObjs s.dev e)))) ∧
  (∀ (s : State) (g : Granule) (data : Bytes), running s.dev = true →
     let crcs := [s.dev.guard.crcA.lookup (crcName g), s.dev.guard.crcB.lookup (crcName g)]
     (some (crc32 data) ∈ crcs → Completes (.granuleReload g data) s (fun e =>
       e.guard = { s.dev.guard with reload := s.dev.guard.reload.filter (fun p => p.1 != g) } ∧
         on e 0x1C3 0 = incSat 32 (on s.dev 0x1C3 0) ∧ on e 0x1C0 0 = setBit (on s.dev 0x1C0 0) 2 ∧
         Framed [.guard] [(0x1C0, 0), (0x1C3, 0)] s.dev e)) ∧
     ((∃ x ∈ crcs, x.isSome = true) → some (crc32 data) ∉ crcs →
       (s.dev.guard.reload.find? (fun p => p.1 == g) = some (g, 0) → Completes (.granuleReload g data) s (fun e =>
         e.guard.reload.find? (fun p => p.1 == g) = some (g, 1) ∧ Framed [.guard] [] s.dev e)) ∧
       (∀ n, s.dev.guard.reload.find? (fun p => p.1 == g) = some (g, n + 1) → Completes (.granuleReload g data) s (fun e =>
         e.phase = .failSilent ∧ on e 0x1C8 0 = 4 ∧ Framed [.phase, .pair, .startup] [(0x1C8, 0)] s.dev e))))

/-- R87, R88, R89, R489: a key derived again after those of its parents that failed; a TLS key fetched again; a register
recomputed from its checkpoint and journal. The word address of each error is noted. -/
def Obligations.RecomputationsRestore : Prop :=
  ∀ (s : State) (addr : Nat), running s.dev = true →
    let last := fun (cls : Nat) (e : Dev) => on e 0x1C6 1 = cls ∧ on e 0x1C6 2 = addr ∧ on e 0x1C6 3 = s.dev.time.micro
    let lastObjs : List (Nat × Nat) := [(0x1C6, 1), (0x1C6, 2), (0x1C6, 3)]
    (∀ num norOk parents, (num = 0 ∨ hasKey s.dev num = true) → (∀ p ∈ parents, p = false) →
      Completes (.keyRederive num addr norOk parents) s (fun e =>
        last 7 e ∧ e.phase = .failSilent ∧ on e 0x1C8 0 = 5 ∧ e.keys = { s.dev.keys with rootLost := true } ∧
          Framed [.phase, .pair, .startup, .keys] ((0x1C8, 0) :: lastObjs) s.dev e)) ∧
    (∀ norOk up rest, Completes (.keyRederive 0 addr norOk (List.replicate up false ++ true :: rest)) s (fun e =>
      last 7 e ∧ on e 0x1C4 0 = satU 32 (on s.dev 0x1C4 0 + up + 1) ∧ on e 0x1C0 0 = setBit (on s.dev 0x1C0 0) 3 ∧
        Framed [] ([(0x1C0, 0), (0x1C4, 0)] ++ lastObjs) s.dev e)) ∧
    (∀ num rest, num ≠ 0 → hasKey s.dev num = true → Completes (.keyRederive num addr true (true :: rest)) s (fun e =>
      last 7 e ∧ e.keys.inst = s.dev.keys.inst ∧ e.draws = s.dev.draws + 1 ∧ Framed [.keys, .draws] lastObjs s.dev e)) ∧
    (∀ num rest, num ≠ 0 → hasKey s.dev num = true → Completes (.keyRederive num addr false (true :: rest)) s (fun e =>
      last 7 e ∧ raised e 0x8401 noInst = true ∧ hasKey e num = false ∧ (∀ k, k ≠ num → hasKey e k = hasKey s.dev k) ∧
        Framed [.keys] ([(0x502, 0), (0x540, 0)] ++ lastObjs) s.dev e)) ∧
    (∀ n, n < 256 → isActive s.dev = true → (ctx s.dev n).tls = true → partnerPresent s.dev = true →
      Completes (.tlsKeyFetch n addr) s (fun e => last 7 e ∧ ctx e n = ctx s.dev n ∧ on e 0x1C0 0 = setBit (on s.dev 0x1C0 0) 3 ∧
        Framed [] ((0x1C0, 0) :: lastObjs) s.dev e)) ∧
    (∀ m k lost, m < 66 → 1 ≤ k → k ≤ 10 → meters s.dev = true →
      ((m, k) ∉ s.dev.guard.recalc → Completes (.billRecalc m k addr lost false) s (fun e =>
        last 8 e ∧ e.guard = { s.dev.guard with recalc := s.dev.guard.recalc ++ [(m, k)] } ∧ Framed [.guard] lastObjs s.dev e)) ∧
      ((m, k) ∈ s.dev.guard.recalc → Completes (.billRecalc m k addr lost true) s (fun e =>
        on e (0x2100 + m) k = recomputed s.dev.legal m k (soundJournal s.dev lost) ∧ (m, k) ∉ e.guard.recalc ∧
          on e 0x1C5 0 = incSat 32 (on s.dev 0x1C5 0) ∧ on e 0x1C0 0 = setBit (on s.dev 0x1C0 0) 4 ∧
          OnlyParts [.guard, .legal, .flash] s.dev e)))

/-- R497, R504: a kick; a stalled core restarts the management cluster alone, or the device where restarts come too often. -/
def Obligations.ManagementWatchdog : Prop :=
  ∀ (s : State), running s.dev = true →
    (∀ c, c < 4 → Completes (.mgmtKick c) s (fun e =>
      e.startup = { s.dev.startup with kicked := setAt s.dev.startup.kicked c true } ∧ Framed [.startup] [] s.dev e)) ∧
    (∀ c, s.dev.startup.stalled = some c →
      let near := s.dev.startup.restarts.filter (fun r => decide (s.dev.startup.t < r + 60000000000))
      let again := near.any (fun r => decide (s.dev.startup.t < r + 10000000000)) || decide (2 ≤ near.length)
      (again = false → Completes .mgmtRestart s (fun e =>
        raised e 0x0C01 c = true ∧ e.malpen.ses = [] ∧ e.malpen.xf = [] ∧ e.startup.stalled = none ∧
          s.dev.startup.t ∈ e.startup.restarts ∧ e.yard.routes = [] ∧ e.mon.role = none ∧
          on e 0x602 1 = incSat 32 (on s.dev 0x602 1) ∧ running e = true ∧
          OnlyParts [.malpen, .yard, .update, .startup, .mon] s.dev e)) ∧
      (again = true → Completes .mgmtRestart s (fun e =>
        e.phase = .failSilent ∧ e.startup.nextCause = 3 ∧ e.startup.wdog = true ∧ .heartbeatLow ∈ e.sent ∧
          OnlyParts [.phase, .pair, .startup] s.dev e)))

/-- R197, R586: a stage whose frames stay away is LOST: no current is offered, its group contactors count as open; it comes back
when its frames have been valid for a minor frame and show it ramped down, with RUN 0. R198 to R200: a short latches its group
off; one on the stage bus alone is tried again once; the retry is forgotten when the voltage has held. -/
def Obligations.StagesAndShorts : Prop :=
  (∀ (s : State) (k : Nat), running s.dev = true → k < 32 →
     let x := stgS s.dev k
     let w := on s.dev (oStg k 0x105) 0
     let back := fun (e : Dev) => (stgS e k).lost = false ∧ (stgS e k).startLost = false ∧ (stgS e k).hold = false ∧
       (∀ j, j ≠ k → stgS e j = stgS s.dev j) ∧ on e (oStg k 0x105) 0 = clearBit (clearBit w 0) 1 ∧
       alGet e.lanes.lreg (fkey 3 k 0x111 0) = some 0 ∧ Framed [.stg, .lanes] [(oStg k 0x105, 0)] s.dev e
     (x.hold = true → x.lost = false → on s.dev 0x206 0 ≤ x.holdCnt → Completes (.stgLost k) s (fun e =>
       stgS e k = { x with lost := true, validCnt := 0 } ∧ (∀ j, j ≠ k → stgS e j = stgS s.dev j) ∧
         on e (oStg k 0x105) 0 = setBit w 1 ∧ (∀ g, g < (stageE s.dev k).groups → on e (oGrp k g 0x15) 0 = 0) ∧
         (∀ g, gfbOf e k g = false) ∧ raised e 0x2E05 k = true ∧
         Framed [.stg] ((oStg k 0x105, 0) :: (List.range (stageE s.dev k).groups).map (fun g => (oGrp k g 0x15, 0))) s.dev e)) ∧
     (x.lost = true → x.startLost = false → minMicros s.dev.time.code ≤ x.validCnt →
       lostEndStatus (fieldLe (upBody s.dev k) 0 4) = true → Completes (.lostEnd k) s back) ∧
     (x.lost = true → x.startLost = true → s.dev.pair.role = .standby → x.prevValid = true → Completes (.lostEnd k) s back)) ∧
  (∀ (s : State) (k g : Nat), running s.dev = true → k < 32 → g < 4 →
     let x := (stgS s.dev k).groups.getD g {}
     let w := on s.dev (oStg k 0x105) 0
     (w.testBit (4 + g) = false → (5 ≤ x.shortCnt ∨ x.allBlocked = true) → Completes (.outShort k g) s (fun e =>
       raised e (if x.allBlocked = false ∧ oq s.dev (oGrp k g 3) 0 < oq s.dev (oGrp k g 0x0D) 0 then 0x2E03 else 0x2E04) k = true ∧
         on e (oStg k 0x105) 0 = putBit (setBit w (4 + g)) (12 + g) (shortConn s.dev k g) ∧
         on e (oGrp k g 0) 7 = 0 ∧ on e (oGrp k g 0) 8 = 0 ∧ on e (oGrp k g 0x15) 0 = 0 ∧
         ((stgS e k).groups.getD g {}).retry = (!(shortConn s.dev k g) && !(w.testBit (8 + g))) ∧ (∀ j, j ≠ k → stgS e j = stgS s.dev j) ∧
         Framed [.stg] ([(oStg k 0x105, 0), (oGrp k g 0x15, 0)] ++ [5, 6, 7, 8, 9].map (fun sub => (oGrp k g 0, sub))) s.dev e)) ∧
     (let go := w.testBit (4 + g) && !((stgS s.dev k).hold) && !((stgS s.dev k).lost) && !(stageThermal s.dev k)
      let used := fun (e : Dev) => ((stgS e k).groups.getD g {}).retry = false ∧ (∀ j, j ≠ k → stgS e j = stgS s.dev j)
      (retryWaits s.dev k g = true → go = true → Completes (.shortRetry k g) s (fun e =>
         raised e 0x2805 k = true ∧ on e (oStg k 0x105) 0 = setBit (clearBit w (4 + g)) (8 + g) ∧ used e ∧
           Framed [.stg] [(oStg k 0x105, 0)] s.dev e)) ∧
      (retryWaits s.dev k g = true → go = false → Completes (.shortRetry k g) s (fun e => used e ∧ Framed [.stg] [] s.dev e)) ∧
      (retryWaits s.dev k g = false → Completes (.shortRetry k g) s (Framed [] [] s.dev))) ∧
     (w.testBit (8 + g) = true → w.testBit (4 + g) = false → 1000000000 ≤ x.vrefNs → Completes (.retryUsedClear k g) s (fun e =>
         on e (oStg k 0x105) 0 = clearBit w (8 + g) ∧ Framed [] [(oStg k 0x105, 0)] s.dev e)))

/-- R233, R241, R244, R246, R247: a contactor that does not follow its command, a closing that stays refused, a section that does
not discharge; and the line that its bleed has emptied. -/
def Obligations.ContactorsAndBleeds : Prop :=
  ∀ (s : State) (n k g : Nat), running s.dev = true → n < 68 → k < 32 → g < 4 →
    let q := gSeq s.dev k g
    let x := nSeq s.dev n
    let group := fun (q : GSeq) (e : Dev) => gSeq e k g = q ∧ (∀ i j, 4 * i + j ≠ 4 * k + g → gSeq e i j = gSeq s.dev i j) ∧
      (∀ j, nSeq e j = nSeq s.dev j) ∧ Framed [.energy] [] s.dev e
    let node := fun (y : NSeq) (e : Dev) => nSeq e n = y ∧ (∀ j, j ≠ n → nSeq e j = nSeq s.dev j) ∧
      (∀ i j, gSeq e i j = gSeq s.dev i j) ∧ OnlyParts [.energy] s.dev e ∧ e.os.pend = s.dev.os.pend
    (q.close ≠ gfbOf s.dev k g → q.state ≠ 9 → Completes (.ctcFault n (0x80 + 4 * k + g)) s (fun e =>
      raised e 0x2C06 k = true ∧ group { (q.command false).goto 9 with vset := 0, ieb := 0 } e)) ∧
    (∀ c, c ≤ 16 → x.faults.testBit c = false → x.cmd.testBit c ≠ x.fb.testBit c → Completes (.ctcFault n c) s (fun e =>
      raised e 0x3401 n = true ∧ SameObjects [] s.dev e ∧
        node { (if x.state = 7 then x else x.goto 7) with cmd := clearBit x.cmd c, faults := setBit x.faults c } e)) ∧
    (q.refuse ≠ 0 → q.state = 1 → Completes (.closeRefused n (0x80 + 4 * k + g)) s (fun e =>
      raised e 0x3201 n = true ∧ group { q.idle with refused := some (on s.dev (oGrp k g 0x16) 0), refuse := 0 } e)) ∧
    (∀ c, c ≤ 16 → x.refuse ≠ 0 → 1 ≤ x.state → x.state ≤ 3 → Completes (.closeRefused n c) s (fun e =>
      raised e 0x3201 n = true ∧ on e (nodeSeqO n) 2 = x.refuse ∧ node { x.goto 5 with need0 := true } e ∧ SameObjects [(nodeSeqO n, 2)] s.dev e)) ∧
    (n < 64 → (x.state = 5 ∨ x.state = 6 ∨ x.state = 7) → x.disFail = false → x.fb.testBit 16 = false → x.cmd.testBit 17 = true →
      oq s.dev (nodeCfg n) 6 ≤ vConnQ s.dev n → Completes (.dischFail n) s (fun e =>
        raised e 0x3402 n = true ∧ node { (if x.state = 7 then x else x.goto 7) with disFail := true } e ∧ SameObjects [] s.dev e)) ∧
    (gfbOf s.dev k g = false → busJoin s.dev 64 k g = none → Completes (.bleedTimeExpiry (.bus k g)) s (fun e =>
      on e (oGrp k g 0x19) 2 = 0 ∧
        (∀ im i st, img? s.dev = some im → seqIndex im k = some i → alGet s.dev.sched.kst i = some st →
          alGet e.sched.kst i = some (setAt st (g + 1) 1)) ∧
        Framed [.sched] [(oGrp k g 0x19, 2)] s.dev e)) ∧
    (lineJoined s.dev 64 n = false → Completes (.bleedTimeExpiry (.node n)) s (fun e =>
      on e (nodeEb n) 5 = 0 ∧
        (∀ im i st, img? s.dev = some im → ebIndex im n = some i → alGet s.dev.sched.kst i = some st → alGet e.sched.kst i = some [2]) ∧
        Framed [.sched] [(nodeEb n, 5)] s.dev e)) ∧
    (lineJoined s.dev 64 n = true → Completes (.bleedTimeExpiry (.node n)) s (Framed [] [] s.dev))

/-- R254: coolant that does not flow marks both coolant sensors of its connector as faulted. -/
def Obligations.CoolantFlowFault : Prop :=
  ∀ (s : State) (c : Nat), running s.dev = true → c < 64 → 3 ≤ (alGet s.dev.therm.flowLow c).getD 0 →
    c ∉ s.dev.therm.flowFault → Completes (.coolFlowLow c) s (fun e =>
      raised e 0x3204 c = true ∧ e.therm = { s.dev.therm with flowFault := c :: s.dev.therm.flowFault } ∧
        on e (oCon c 0x42) 0 = conFaultMask { s.dev with therm := e.therm } c ∧
        ((connDisp s.dev c).isSome = true → (on e (oCon c 0x42) 0).testBit 4 = true ∧ (on e (oCon c 0x42) 0).testBit 5 = true) ∧
        (∀ b, b < 6 → (on e (oCon c 0x42) 0).testBit b = true → (on s.dev (oCon c 0x42) 0).testBit b = false →
          (supervised s.dev false c).testBit b = true → raised e 0x3403 c = true) ∧
        Framed [.therm] [(oCon c 0x42, 0)] s.dev e)

/-- R275, R277, R279, R280: a protective turn-off takes the channel off in the same command, with its flag, its count and its
event; it then waits for a retry, or locks where its retries are used up or it drives a busbar contactor. R275 to R280: the
junction latch, the open-load and clamp flags, a retry, the reset of the retry count and the end of an inrush window act on
the channel that they name. -/
def Obligations.LoadChannelEvents : Prop :=
  (∀ (s : State) (n : Nat), running s.dev = true → n < 32 → (lch s.dev n).on = true →
     let x := lch s.dev n
     let off := fun (flag code : Nat) (e : Dev) =>
       raised e code n = true ∧ (lch e n).on = false ∧ (lch e n).inrush = false ∧ (lch e n).flags = flag ∧
         (lch e n).faults = incSat 32 x.faults ∧ (lch e n).retries = x.retries ∧
         (if controlOwned s.dev n = true ∨ on s.dev (oLch n 2) 2 ≤ x.retries then (lch e n).locked = true ∧ raised e 0x7E01 n = true
          else (lch e n).wait = true ∧ (lch e n).waitFor = windowsOf s.dev n ∧ (lch e n).due = retryDue s.dev n) ∧
         (∀ k, k ≠ n → (lch e k).on = (lch s.dev k).on ∧ (lch e k).flags = (lch s.dev k).flags ∧
           (lch e k).locked = (lch s.dev k).locked) ∧
         Framed [.lch] [] s.dev e
     Completes (.lchShort n) s (off 8 0x7C02) ∧
     Completes (.heldShort n) s (off 8 0x7C02) ∧
     Completes (.lchOverload n) s (off 4 0x7C01) ∧
     Completes (.lchThermal n) s (off 16 0x7C03) ∧
     (x.inrush = true → Completes (.inrushWindowEnd n true) s (off 4 0x7C01))) ∧
  (∀ (s : State) (n : Nat), running s.dev = true → n < 32 →
     let x := lch s.dev n
     let one := fun (y : LchS) (e : Dev) =>
       lch e n = y ∧ (∀ k, k ≠ n → lch e k = lch s.dev k) ∧ Framed [.lch] [] s.dev e
     (x.latch = false → Completes (.lchThermLatch n) s (fun e =>
       raised e 0x7E02 n = true ∧ (lch e n).on = false ∧ (lch e n).latch = true ∧ (lch e n).wait = false ∧
         (controlOwned s.dev n = true → (lch e n).locked = true ∧ raised e 0x7E01 n = true) ∧
         (∀ k, k ≠ n → (lch e k).on = (lch s.dev k).on ∧ (lch e k).latch = (lch s.dev k).latch) ∧ Framed [.lch] [] s.dev e)) ∧
     (x.on = true → oflag s.dev (oLch n 2) 4 = true → x.olOff = false → x.flags.testBit 1 = false →
       Completes (.lchOpenLoad n) s (fun e => raised e 0x7A01 n = true ∧ one { x with flags := setBit x.flags 1 } e)) ∧
     (x.on = false → Completes (.lchClamp n) s (fun e =>
       raised e 0x7A02 n = true ∧ one { x with clamp := true, clamps := incSat 32 x.clamps } e)) ∧
     (x.wait = true → x.waitFor = [] → x.due ≤ s.dev.startup.t + tNs s.dev → retryBefore s.dev n = false → (x.hot = true → x.dt < 20) →
       x.latch = false → supplyOk s.dev n = true → cmdOn s.dev n = true → Completes (.lchRetry n) s (fun e =>
         raised e 0x7801 n = true ∧
           lch e n = { x with on := true, wait := false, waitFor := [], flags := 0, stay := false, hot := false, retries := incSat 8 x.retries
                              inrush := decide (on s.dev (oLch n 2) 1 > 0) } ∧
           (∀ k, k ≠ n → lch e k = if k < 32 ∧ k / 8 = n / 8 ∧ retryReady s.dev k = true
             then { lch s.dev k with due := max x.due s.dev.startup.t + 10000000 } else lch s.dev k) ∧
           Framed [.lch] [] s.dev e)) ∧
     (retryReady s.dev n = false → Completes (.lchRetry n) s (Framed [] [] s.dev)) ∧
     (x.on = true → Completes (.retryCountReset n) s (one { x with retries := 0 })) ∧
     Completes (.deltaTBelowRestart n) s (one { x with dt := min x.dt 19 }) ∧
     (x.inrush = true → Completes (.inrushWindowEnd n false) s (fun e =>
       (lch e n).inrush = false ∧ (∀ k, (lch e k).on = (lch s.dev k).on ∧ (lch e k).waitFor = (lch s.dev k).waitFor.filter (· != n)) ∧
         Framed [.lch] [] s.dev e)))

/-- R272, R283, R565: VLOAD outside 14.5 to 38.0 V switches off the eight channels of its group and no other; back in 15.5 to 37.0
V, a channel commanded on that is neither locked, nor latched, nor waiting for a retry is on again. -/
def Obligations.SupplyGroups : Prop :=
  ∀ (s : State) (g mv : Nat), running s.dev = true → g < 4 →
    ((mv < 14500 ∨ 38000 < mv) → Completes (.lchVload g mv) s (fun e =>
      (raised e 0x7A03 g = true ∨ g ∈ s.dev.lch.unfitted) ∧ e.lch.supply.getD g 0 = (if mv < 14500 then 1 else 2) ∧
        e.lch.vload.getD g 0 = mv ∧ (∀ n, n / 8 = g → (lch e n).inrush = false ∨ (lch s.dev n).on = false) ∧
        (∀ n, n / 8 = g → (lch e n).on = false) ∧ (∀ n, n / 8 ≠ g → (lch e n).on = (lch s.dev n).on) ∧ Framed [.lch] [] s.dev e)) ∧
    (14500 ≤ mv → mv ≤ 38000 → Completes (.lchVload g mv) s (Framed [] [] s.dev)) ∧
    ((mv < 15500 ∨ 37000 < mv ∨ s.dev.lch.supply.getD g 0 = 0) → Completes (.vloadReturn g mv) s (Framed [] [] s.dev)) ∧
    (15500 ≤ mv → mv ≤ 37000 → s.dev.lch.supply.getD g 0 ≠ 0 → Completes (.vloadReturn g mv) s (fun e =>
      e.lch.supply.getD g 0 = 0 ∧ e.lch.vload.getD g 0 = mv ∧
        (∀ n, n / 8 = g → ((lch e n).on = true ↔ (lch s.dev n).on = true ∨
          (cmdOn s.dev n = true ∧ (lch s.dev n).locked = false ∧ (lch s.dev n).latch = false ∧ (lch s.dev n).wait = false))) ∧
        (∀ n, n / 8 ≠ g → lch e n = lch s.dev n) ∧ Framed [.lch] [] s.dev e))

/-- R113, R138, R139, R145: block lock, found in sync headers that are sound for long enough, starts ranging on a stage or
dispenser lane and brings a pair lane UP; the fourth echo ends ranging with the measured delay, and identification begins
unless the lane is too long. R113, R138, R139, R142: a step of link-up that ends without its answer fails and is tried again;
a lane that loses block lock is down at once. -/
def Obligations.LinkUpGoesAndFails : Prop :=
  (∀ (s : State) (l : Nat) (hs : List Nat), running s.dev = true →
     let x := laneS s.dev l
     let others := fun (e : Dev) => ∀ k, k ≠ l → laneS e k = laneS s.dev k
     (l < 50 → locked hs = false → Completes (.blockLock l hs) s (Framed [] [] s.dev)) ∧
     (l < 48 → (x.st = .training ∨ x.st = .down) → locked hs = true → Completes (.blockLock l hs) s (fun e =>
       laneS e l = { x with st := .ranging, echos := [] } ∧ on e 0x200 (l + 1) = 2 ∧ (∀ t, t < 4 → onLane e l [markerBlock 3 t] = true) ∧
         others e ∧ Framed [.lanes] [(0x200, l + 1)] s.dev e)) ∧
     (48 ≤ l → l < 50 → (x.st = .training ∨ x.st = .down) → locked hs = true → Completes (.blockLock l hs) s (fun e =>
       (laneS e l).st = .up ∧ (laneS e l).everUp = true ∧ raised e 0x0810 l = true ∧ others e ∧
         Framed [.lanes] [(0x200, l + 1), (0x400, 0)] s.dev e)) ∧
     (∀ tag rt, l < 48 → x.st = .ranging → tag < 4 → alGet x.echos tag = none → x.echos.length < 3 →
       Completes (.echoMarker l tag rt) s (fun e =>
         laneS e l = { x with echos := alSet x.echos tag rt } ∧ others e ∧ Framed [.lanes] [] s.dev e)) ∧
     (∀ tag rt, l < 48 → x.st = .ranging → tag < 4 → alGet x.echos tag = none → x.echos.length = 3 →
       let sum : Int := sumI ((alSet x.echos tag rt).map (fun p => (p.2 : Int) - 40 * blockPs x.mode))
       let ns := (divHalfUp sum 8000).toNat
       Completes (.echoMarker l tag rt) s (fun e =>
         on e 0x203 (l + 1) = satU 16 ns ∧
           (if 2000 < ns then (laneS e l).st = .identFail ∧ raised e 0x0C11 l = true
            else (laneS e l).st = .identifying ∧ (laneS e l).awaiting = true ∧ (laneS e l).attempts = 1) ∧
           others e ∧ Framed [.lanes, .draws] [(0x200, l + 1), (0x203, l + 1)] s.dev e))) ∧
  (∀ (s : State) (l : Nat), running s.dev = true → l < 50 →
     let x := laneS s.dev l
     let others := fun (e : Dev) => ∀ k, k ≠ l → laneS e k = laneS s.dev k
     let failed := fun (e : Dev) =>
       (laneS e l).st = .identFail ∧ (laneS e l).ctl = false ∧ (laneS e l).attempts = 0 ∧ on e 0x200 (l + 1) = 5 ∧
         raised e 0x0C11 l = true ∧ others e ∧ Framed [.lanes] [(0x200, l + 1)] s.dev e
     ((x.st = .training ∨ x.st = .down) → Completes (.blockLockTimeout l) s failed) ∧
     (l < 48 → x.st = .ranging → Completes (.rangingTimeout l) s failed) ∧
     (l < 48 → x.st = .identifying → x.awaiting = true → 3 ≤ x.attempts → Completes (.identRspTimeout l) s failed) ∧
     (l < 48 → x.st = .identifying → x.awaiting = true → x.attempts < 3 → Completes (.identRspTimeout l) s (fun e =>
       laneS e l = { x with awaiting := false, identNs := 0 } ∧ others e ∧ Framed [.lanes] [] s.dev e)) ∧
     (x.st = .identFail → Completes (.linkupRetry l) s (fun e =>
       (laneS e l).st = .training ∧ on e 0x200 (l + 1) = 1 ∧ others e ∧ Framed [.lanes] [(0x200, l + 1)] s.dev e)) ∧
     (∀ ts, lockLost x.mode ts = false → Completes (.laneDown l ts) s (Framed [] [] s.dev)) ∧
     (∀ ts, (x.st = .ranging ∨ x.st = .identifying ∨ x.st = .up) → lockLost x.mode ts = true → Completes (.laneDown l ts) s (fun e =>
       (laneS e l).st = .down ∧ (laneS e l).ctl = false ∧ (laneS e l).latch = none ∧ on e 0x200 (l + 1) = 6 ∧
         raised e 0x0C10 l = true ∧ others e ∧ Framed [.lanes] [(0x200, l + 1), (0x400, 0)] s.dev e)))

/-- R131, R138, R140, R141: the answer to an IDENT_REQ is published; the lane whose answer passes every check is UP, a stage's
with the rated current that it gave, a dispenser's with the key of its metering records, the numbers of which start anew. -/
def Obligations.IdentificationBringsLanesUp : Prop :=
  ∀ (s : State) (l : Nat) (f : Frame), running s.dev = true → l < 48 → laneBound s.dev l = true →
    frameSound f = true → f.kind = 9 → f.words = 8 → fieldLe f.body 52 4 = 0 →
    (laneS s.dev l).st = .identifying → (laneS s.dev l).awaiting = true →
    (l < 32 → identCheck s.dev l f.body = 0 → Completes (.identRsp l f) s (fun e =>
      (laneS e l).st = .up ∧ raised e 0x0810 l = true ∧ ob e (0x210 + l) 0 = f.body.take 56 ∧ on e 0x200 (l + 1) = laneCode (laneS e l) ∧
        (stgS e l).ratedNew = some (ratedQ f.body) ∧ (∀ k, k ≠ l → laneS e k = laneS s.dev k ∧ stgS e k = stgS s.dev k) ∧
        Framed [.lanes, .stg] [(0x200, l + 1), (0x210 + l, 0)] s.dev e)) ∧
    (32 ≤ l → identCheck s.dev l f.body = 0 →
      let x := dispE s.dev (l - 32)
      Completes (.identRsp l f) s (fun e =>
        (laneS e l).st = .up ∧ raised e 0x0810 l = true ∧ ob e (0x210 + l) 0 = f.body.take 56 ∧ on e 0x200 (l + 1) = laneCode (laneS e l) ∧
          (laneS e l).partNonce = f.body.take 16 ∧
          (laneS e l).kmac = (alGet s.dev.keys.inst (0x520 + (l - 32))).map (fun k =>
            kMac k (laneS s.dev l).devNonce (f.body.take 16) (l - 32) (lanePort s.dev)) ∧
          (∀ i, i < x.count → x.first + i < 64 → on e (oCon (x.first + i) 0x21) 0 = ratedQ f.body ∧
            (metroS e (x.first + i)).lastAcc = none ∧
            (metroS e (x.first + i)).prevAcc = (metroS s.dev (x.first + i)).lastAcc.or (metroS s.dev (x.first + i)).prevAcc) ∧
          (∀ k, k ≠ l → laneS e k = laneS s.dev k) ∧
          Framed [.lanes] ([(0x200, l + 1), (0x210 + l, 0)] ++ (List.range x.count).map (fun i => (oCon (x.first + i) 0x21, 0))) s.dev e)) ∧
    (identCheck s.dev l f.body ≠ 0 → Completes (.identRsp l f) s (fun e =>
      (laneS e l).st = .identFail ∧ raised e 0x0C11 l = true ∧ ob e (0x210 + l) 0 = f.body.take 56 ∧
        (∀ k, k ≠ l → laneS e k = laneS s.dev k) ∧ Framed [.lanes] [(0x200, l + 1), (0x210 + l, 0)] s.dev e))

/-- R40, R118, R121 to R123, R127, R129, R134: a sound upstream frame of a lane that is UP shows its status and epoch and waits
for its sample token, one that comes too late for it is discarded; a frame that fails a check is counted and changes nothing
that the slots read. -/
def Obligations.UpstreamFrames : Prop :=
  ∀ (s : State) (f : Frame), running s.dev = true →
    (∀ k, k < 32 → laneBound s.dev k = true → frameSound f = true → f.kind = 1 → stageUpOk (stageE s.dev k) f.body = true →
      (laneS s.dev k).st = .up → Completes (.stageUp k f) s (fun e =>
        (if seqDue s.dev f.seq = true then
           (laneS e k).status = fieldLe f.body 0 4 ∧ on e 0x208 (k + 1) = fieldLe f.body 4 4 ∧ (laneS e k).latch = some f.body ∧
             (laneS e k).latchSeq = f.seq
         else (laneS e k).status = (laneS s.dev k).status ∧ on e 0x208 (k + 1) = on s.dev 0x208 (k + 1) ∧
           (laneS e k).latch = (laneS s.dev k).latch) ∧ (laneS e k).upSleep = false ∧ (laneS e k).cur = (laneS s.dev k).cur ∧
          (∀ j, j ≠ k → laneS e j = laneS s.dev j) ∧
          Framed [.lanes, .stg, .pair] [(0x200, k + 1), (0x208, k + 1)] s.dev e)) ∧
    (∀ k, k < 32 → laneBound s.dev k = true → (frameSound f = false ∨ f.kind ≠ 1 ∨ stageUpOk (stageE s.dev k) f.body = false) →
      Completes (.stageUp k f) s (fun e =>
        raised e 0x0A10 k = true ∧ on e 0x201 (k + 1) = incSat 32 (on s.dev 0x201 (k + 1)) ∧ e.lanes = s.dev.lanes ∧
          Framed [.stg] [(0x201, k + 1)] s.dev e)) ∧
    (∀ i rs, i < 16 → laneBound s.dev (32 + i) = true → frameSound f = true → f.kind = 3 →
      dispUpRecs (dispE s.dev i).count f.body = some rs → (laneS s.dev (32 + i)).st = .up → Completes (.dispUp i f) s (fun e =>
        (if seqDue s.dev f.seq = true then
           (laneS e (32 + i)).status = fieldLe f.body 0 4 ∧ on e 0x208 (33 + i) = fieldLe f.body 4 4 ∧
             (laneS e (32 + i)).latch = some f.body
         else (laneS e (32 + i)).latch = (laneS s.dev (32 + i)).latch ∧ on e 0x208 (33 + i) = on s.dev 0x208 (33 + i)) ∧
          (∀ j, j ≠ 32 + i → laneS e j = laneS s.dev j) ∧ e.lanes.metro = s.dev.lanes.metro ∧
          Framed [.lanes, .pair] [(0x200, 33 + i), (0x208, 33 + i)] s.dev e)) ∧
    (∀ i, i < 16 → laneBound s.dev (32 + i) = true →
      (frameSound f = false ∨ f.kind ≠ 3 ∨ dispUpRecs (dispE s.dev i).count f.body = none) → Completes (.dispUp i f) s (fun e =>
        raised e 0x0A10 (32 + i) = true ∧ on e 0x201 (33 + i) = incSat 32 (on s.dev 0x201 (33 + i)) ∧
          (∀ j, laneS e j = laneS s.dev j) ∧ e.lanes.recs = s.dev.lanes.recs ∧ Framed [.lanes] [(0x201, 33 + i)] s.dev e))

/-- R126, R170, R171: a sample above the short-circuit limit marks its phase, is counted, and the block goes to the stage. R132,
R143, R290, R420, R422: vehicle frame fragments join in order of their offsets, one out of order discards those held; a whole
frame that is meant for this connector is taken by way of ring 8, waits in it where the engine does not serve it, and is lost
where it is full; the upstream direction sleeps and wakes. -/
def Obligations.BlocksFragmentsAndSleep : Prop :=
  (∀ (s : State) (k p : Nat) (sample : Int), running s.dev = true → k < 32 → p < 32 → laneBound s.dev k = true →
     p < (stageE s.dev k).phases → scLimit s.dev k < sample.natAbs → (laneS s.dev k).st = .up →
     Completes (.scBlock k p sample) s (fun e =>
       let mask := setBit (stgS s.dev k).tripped p
       raised e 0x2E01 k = true ∧ (stgS e k).tripped = mask ∧
         on e (oStg k 0x0B) 0 = setBit (on s.dev (oStg k 0x0B) 0) p ∧
         on e (oStg k 0x0D) (p + 1) = incSat 32 (on s.dev (oStg k 0x0D) (p + 1)) ∧
         (isActive s.dev = true → (stgS s.dev k).lost = false →
           launched e k 6 s.dev.time.micro (natLe 4 (on s.dev 0x402 0) ++ natLe 4 mask) = true) ∧
         (∀ j, j ≠ k → stgS e j = stgS s.dev j) ∧
         Framed [.stg] [(oStg k 0x0B, 0), (oStg k 0x0D, p + 1)] s.dev e)) ∧
  (∀ (s : State), running s.dev = true →
     (∀ c off b di i, c < 64 → connDisp s.dev c = some (di, i) → (laneS s.dev (32 + di)).st = .up → b ≠ [] → b.length ≤ 1024 →
       let got := (alGet s.dev.lanes.vethRx c).getD []
       (off = got.length → (got ++ b).length ≤ 1514 → Completes (.vethRecord c off false b) s (fun e =>
         alGet e.lanes.vethRx c = some (got ++ b) ∧ e.lanes.vehIn = s.dev.lanes.vehIn ∧ Framed [.lanes] [] s.dev e)) ∧
       (off = got.length → 14 ≤ (got ++ b).length → (got ++ b).length ≤ 1514 → Completes (.vethRecord c off true b) s (fun e =>
         alGet e.lanes.vethRx c = none ∧
           e.lanes.vehIn = s.dev.lanes.vehIn ++
             (if vehWanted s.dev c (got ++ b) = true ∧ ringSize s.dev 8 ≠ 0 ∧ ringIdle s.dev 8 = true then [(c, got ++ b)] else []) ∧
           (vehWanted s.dev c (got ++ b) = true → ringIdle s.dev 8 = false → 0 < ringRoom s.dev 8 →
             (ring e 8).q = (ring s.dev 8).q ++ [{ own := some (.vehicleUp c (got ++ b)) }]) ∧
           Framed [.lanes] [] s.dev e)) ∧
       (∀ last, off ≠ got.length ∨ 1514 < (got ++ b).length → Completes (.vethRecord c off last b) s (fun e =>
         alGet e.lanes.vethRx c = none ∧ e.lanes.vehIn = s.dev.lanes.vehIn ∧ Framed [.lanes] [] s.dev e))) ∧
     (∀ l, l < 48 → (laneS s.dev l).st = .up → Completes (.sleepMarker l) s (fun e =>
       laneS e l = { laneS s.dev l with upSleep := true } ∧ on e 0x200 (l + 1) = 7 ∧
         (∀ k, k ≠ l → laneS e k = laneS s.dev k) ∧ Framed [.lanes] [(0x200, l + 1)] s.dev e)) ∧
     (∀ l, l < 48 → (laneS s.dev l).upSleep = true → Completes (.upstreamWake l) s (fun e =>
       laneS e l = { laneS s.dev l with upSleep := false } ∧ (∀ k, k ≠ l → laneS e k = laneS s.dev k) ∧
         Framed [.lanes] [(0x200, l + 1)] s.dev e)))

/-- R316: sorting sample quantities into units and residues loses nothing: what a channel has imported and exported, in the unit
of the samples, grows by exactly the sum of the quantities of each sign. R131, R314, R316, R317, R420: a metering block goes
by way of ring 2. The next block of a connector, with its code in order, is counted and, where the connector is commissioned,
its energy enters the channel; one that is ahead of its turn waits, and those between are asked for again; a block without a
key, with a wrong code or an old number is discarded. -/
def Obligations.MeteredEnergyIsKept : Prop :=
  (∀ (dm : Nat) (qs : List Int) (c : ChanS), 0 < dm →
     let e := qs.foldl (fun c q => sortQ dm q c) c
     e.uImp * dm + e.rImp = c.uImp * dm + c.rImp + (qs.map (fun q => q.toNat)).sum ∧
       e.uExp * dm + e.rExp = c.uExp * dm + c.rExp + (qs.map (fun q => (-q).toNat)).sum ∧
       (c.rImp < dm → e.rImp < dm) ∧ (c.rExp < dm → e.rExp < dm)) ∧
  (∀ (s : State) (c num di i : Nat) (body : Bytes), running s.dev = true → c < 64 → connDisp s.dev c = some (di, i) →
     (laneS s.dev (32 + di)).st = .up → body.length = 136 → ringSize s.dev 2 ≠ 0 →
     let x := metroS s.dev c
     let discarded := Completes (.metroRecord c num body) s (fun e =>
       raised e 0x0C13 c = true ∧ on e 0x209 (c + 1) = incSat 32 (on s.dev 0x209 (c + 1)) ∧ e.lanes = s.dev.lanes ∧
         (∀ m, (chanS e m).uImp = (chanS s.dev m).uImp ∧ (chanS e m).uExp = (chanS s.dev m).uExp) ∧
         Framed [.legal] [(0x209, c + 1), (0x2180 + c, 1)] s.dev e)
     (ringIdle s.dev 2 = false → 0 < ringRoom s.dev 2 → Completes (.metroRecord c num body) s (fun e =>
       (ring e 2).q = (ring s.dev 2).q ++ [{ own := some (.metro c num body) }] ∧ Framed [] [] s.dev e)) ∧
     (ringIdle s.dev 2 = true → (laneS s.dev (32 + di)).kmac = none → discarded) ∧
     (∀ k, ringIdle s.dev 2 = true → (laneS s.dev (32 + di)).kmac = some k →
       let mac := (hmac256 k (natLe 1 di ++ natLe 1 i ++ natLe 1 (lanePort s.dev) ++ [0] ++ natLe 4 num ++ body.take 128)).take 8
       (mac ≠ body.drop 128 → discarded) ∧
       (∀ l, mac = body.drop 128 → x.lastAcc = some l → num ≤ l → discarded) ∧
       (∀ l, mac = body.drop 128 → meters s.dev = true → x.lastAcc = some l → num = metroNext x l → x.wait = [] →
         Completes (.metroRecord c num body) s (fun e =>
           (metroS e c).lastAcc = some num ∧ on e (0x2180 + c) 5 = incSat 32 (on s.dev (0x2180 + c) 5) ∧
             chanS e c = (if on s.dev (0x2040 + c) 1 = 0 then chanS s.dev c
               else (blockQ (on s.dev (0x2040 + c) 1) (body.take 128)).foldl (fun x q => sortQ (dmOf s.dev c) q x) (chanS s.dev c)) ∧
             (∀ m, m ≠ c → chanS e m = chanS s.dev m ∧ metroS e m = metroS s.dev m) ∧
             Framed [.legal, .lanes] [(0x2180 + c, 1), (0x2180 + c, 4), (0x2180 + c, 5)] s.dev e)) ∧
       (∀ l, mac = body.drop 128 → meters s.dev = true → x.lastAcc = some l → metroTop x = l → x.wait = [] →
         (x.missing.any (fun p => decide (p.1 ≤ num) && decide (num ≤ p.2))) = false → metroNext x l = l + 1 → l + 1 < num → num ≤ l + 17 →
         Completes (.metroRecord c num body) s (fun e =>
           (metroS e c).lastAcc = some l ∧ (metroS e c).wait = [(num, body.take 128)] ∧
             (∀ n, l < n → n < num → n ∈ (metroS e c).requested ∧ n ∈ (metroS e c).resend) ∧
             (∀ m, chanS e m = chanS s.dev m ∧ (m ≠ c → metroS e m = metroS s.dev m)) ∧ Framed [.lanes] [] s.dev e))))

/-- R317, R318: a block that was requested and has not come is declared missing, counted, and estimated; the blocks behind it that
wait are then in order. One that is not requested is not missing. -/
def Obligations.MissingBlocksAreEstimated : Prop :=
  ∀ (s : State) (c num : Nat), running s.dev = true → c < 64 →
    let x := metroS s.dev c
    let declared := fun (e : Dev) => raised e 0x0C14 c = true ∧ on e 0x20A (c + 1) = satU 32 (on s.dev 0x20A (c + 1) + 1) ∧
      num ∉ (metroS e c).requested
    (num ∉ x.requested → Completes (.metroGap c num) s (Framed [] [] s.dev)) ∧
    (num ∈ x.requested → Completes (.metroGap c num) s (fun e => declared e ∧ OnlyParts [.legal, .lanes] s.dev e)) ∧
    (num ∈ x.requested → x.wait = [] → Completes (.metroGap c num) s (fun e => declared e ∧
      metroS e c = { x with missing := x.missing ++ [(num, num)], requested := x.requested.filter (· != num) } ∧
        (∀ m, m ≠ c → metroS e m = metroS s.dev m) ∧
        (let q := if dispUp s.dev c = true then vConnQ s.dev c * iConnS s.dev c else 0
         let sub := if 0 ≤ q then 2 else 3
         on e (0x2180 + c) sub = satU 96 (on s.dev (0x2180 + c) sub + q.natAbs / (65536 * 3600000))) ∧
        (∀ m, (chanS e m).uImp = (chanS s.dev m).uImp ∧ (chanS e m).uExp = (chanS s.dev m).uExp) ∧
        Framed [.legal, .lanes] [(0x20A, c + 1), (0x2180 + c, 1), (0x2180 + c, 2), (0x2180 + c, 3)] s.dev e))

/-- R312, R313, R319: an ADC sample enters the history of every input, less its offset; the window of an intake is evaluated every
sixteenth sample. R324, R330: a pulse output whose accumulator holds a whole pulse asserts it, and releases it after its
width; the backlog shows whole pulses, a thousand of them raise its event; the units of the millisecond are used up. -/
def Obligations.SamplesAndPulses : Prop :=
  (∀ (s : State) (samples : List Int), meters s.dev = true →
     Completes (.adcSample samples) s (fun e =>
       (∀ k j, k < 2 → j < 8 → ((intakeS e k).b.getD j []).getD 0 0 = samples.getD (8 * k + j) 0 - oi 32 s.dev (acCal (8 * k + j)) 3 ∧
         (intakeS e k).cnt = (if 16 ≤ (intakeS s.dev k).cnt + 1 then 0 else (intakeS s.dev k).cnt + 1)) ∧
       (∀ m, m < 64 → chanS e m = chanS s.dev m) ∧
       Framed [.legal] [(0x2000, 0), (0x2180 + 64, 1), (0x2180 + 65, 1)] s.dev e)) ∧
  (∀ (s : State), meters s.dev = true → Completes .pulseMs s (fun e =>
     (∀ m, (chanS e m).msImp = 0 ∧ (chanS e m).msExp = 0 ∧ (chanS e m).uImp = (chanS s.dev m).uImp ∧ (chanS e m).rImp = (chanS s.dev m).rImp) ∧
     (∀ x, x < 4 →
       let p := s.dev.legal.pulses.getD x {}
       let const := on s.dev (0x2008 + x) 3
       let c := chanS s.dev (on s.dev (0x2008 + x) 1)
       let a := p.a + (if on s.dev (0x2008 + x) 2 = 0 then c.msImp else c.msExp)
       let q := { p with a := a, left := p.left - 1, back := decide (1000 * const ≤ a) }
       (const = 0 → e.legal.pulses.getD x {} = p) ∧
       (const ≠ 0 → on e (0x2008 + x) 5 = satU 32 ((e.legal.pulses.getD x {}).a / const) ∧
         (1000 * const ≤ a → p.back = false → raised e 0x4A05 x = true ∧ (on e 0x2000 0).testBit 13 = true) ∧
         (if 1 < p.left then e.legal.pulses.getD x {} = q
          else if p.busy = true then
            e.legal.pulses.getD x {} = { q with busy := false, left := on s.dev (0x2008 + x) 4 } ∧ .pulse x false ∈ e.sent
          else if const ≤ a ∧ s.dev.pair.role ≠ .standby then
            e.legal.pulses.getD x {} = { q with a := a - const, busy := true, left := on s.dev (0x2008 + x) 4 } ∧ .pulse x true ∈ e.sent
          else e.legal.pulses.getD x {} = q))) ∧
     Framed [.legal] [(0x2000, 0), (0x2008, 5), (0x2009, 5), (0x200A, 5), (0x200B, 5)] s.dev e))

/-- R325, R327: ten reversed cycles, or a second without the neutral, set the condition of an intake; its end is reported. -/
def Obligations.SupplyConditions : Prop :=
  ∀ (s : State) (k : Nat), meters s.dev = true → k < 2 →
    let w := on s.dev 0x2000 0
    let q := intakeS s.dev k
    (10 ≤ q.rev → w.testBit (6 + k) = false → Completes (.metPhaseSeq k) s (fun e =>
      raised e 0x4A01 k = true ∧ on e 0x2000 0 = setBit w (6 + k) ∧ Framed [.legal] [(0x2000, 0), (0x2180 + 64 + k, 1)] s.dev e)) ∧
    (10 ≤ q.ok → w.testBit (6 + k) = true → Completes (.metPhaseSeq k) s (fun e =>
      raised e 0x4A01 k true = true ∧ on e 0x2000 0 = clearBit w (6 + k) ∧ Framed [] [(0x2000, 0)] s.dev e)) ∧
    (16000 ≤ q.neut → w.testBit (8 + k) = false → Completes (.metNeutral k) s (fun e =>
      raised e 0x4A02 k = true ∧ on e 0x2000 0 = setBit w (8 + k) ∧ Framed [.legal] [(0x2000, 0), (0x2180 + 64 + k, 1)] s.dev e)) ∧
    (16000 ≤ q.neutOk → w.testBit (8 + k) = true → Completes (.metNeutral k) s (fun e =>
      raised e 0x4A02 k true = true ∧ on e 0x2000 0 = clearBit w (8 + k) ∧ Framed [] [(0x2000, 0)] s.dev e))

/-- R320, R338, R464: a billing tick moves the units of the tick into the registers, those of the tariff in force included, and
legal seconds go on by one; a standby unit keeps them until the active unit's have come. -/
def Obligations.BillingTickCredits : Prop :=
  ∀ (s : State), meters s.dev = true →
   (s.dev.legal.tickDue = false → Completes .billingTick s (Framed [] [] s.dev)) ∧
   (s.dev.legal.tickDue = true → s.dev.pair.role = .standby → Completes .billingTick s (fun e =>
      on e 0x2201 0 = on s.dev 0x2201 0 + 1 ∧ e.legal.tickDue = false ∧
        (∀ m k, m < 66 → k ≤ 10 → on e (0x2100 + m) k = on s.dev (0x2100 + m) k) ∧
        (∀ m, m < 66 → (chanS e m).uImp = 0 ∧ (chanS e m).uExp = 0) ∧
        (∃ own, e.legal.own = s.dev.legal.own ++ own ∧ own.map (fun i => (i.m, i.imp, i.exp)) =
          ((List.range 66).zip s.dev.legal.chans).map (fun p => (p.1, p.2.uImp, p.2.uExp))) ∧
        OnlyParts [.legal, .flash, .ses, .draws] s.dev e ∧ e.os.pend = s.dev.os.pend)) ∧
   (s.dev.legal.tickDue = true → s.dev.pair.role ≠ .standby → 1 ≤ tariff s.dev → tariff s.dev ≤ 4 →
    Completes .billingTick s (fun e =>
      on e 0x2201 0 = on s.dev 0x2201 0 + 1 ∧ e.legal.tickDue = false ∧
        (∀ m, m < 66 →
          let c := chanS s.dev m
          let credit := fun (sub u : Nat) =>
            on e (0x2100 + m) sub = (if u = 0 then on s.dev (0x2100 + m) sub else satU 96 (on s.dev (0x2100 + m) sub + u))
          credit 1 c.uImp ∧ credit 2 c.uExp ∧ credit (2 + tariff s.dev) c.uImp ∧ credit (6 + tariff s.dev) c.uExp ∧
            (∀ t, 1 ≤ t → t ≤ 4 → t ≠ tariff s.dev → on e (0x2100 + m) (2 + t) = on s.dev (0x2100 + m) (2 + t) ∧
              on e (0x2100 + m) (6 + t) = on s.dev (0x2100 + m) (6 + t)) ∧
            (chanS e m).uImp = 0 ∧ (chanS e m).uExp = 0 ∧ (chanS e m).rImp = c.rImp ∧ (chanS e m).rExp = c.rExp) ∧
        OnlyParts [.legal, .flash, .ses, .draws] s.dev e ∧ e.os.pend = s.dev.os.pend))

/-- R334, R337, R342, R347, R469: the tariff inputs, the check of the legal core, seal, tamper, the retry of the store and the
billing records for the partner. -/
def Obligations.LegalCoreInputs : Prop :=
  ∀ (s : State), meters s.dev = true →
    (∀ in1 in0, let code := 2 * boolNat in1 + boolNat in0
      s.dev.legal.tarCode = code → 199 ≤ s.dev.legal.tarCount → on s.dev 0x2203 2 ≠ code →
      Completes (.tariffSample in1 in0) s (fun e =>
        on e 0x2203 2 = code ∧
          (if on s.dev 0x2204 0 = 0 ∧ code + 1 ≠ tariff s.dev then on e 0x2203 3 = code + 1 ∧ (on e 0x2200 0).testBit 9 = true
           else on e 0x2203 3 = 0 ∧ (on e 0x2200 0).testBit 9 = false) ∧
          tariff e = tariff s.dev ∧ Framed [.legal] [(0x2203, 2), (0x2203, 3), (0x2200, 0)] s.dev e)) ∧
    (∀ again t, 3600 ≤ s.dev.legal.checkTicks → Completes (.legalCheck (on s.dev 0x2202 0) again t) s (fun e =>
      e.legal = { s.dev.legal with checkTicks := 0 } ∧ Framed [.legal] [] s.dev e)) ∧
    (∀ a, sealOpen s.dev ≠ a → Completes (.bilSeal a) s (fun e =>
      raised e 0x5005 noInst = true ∧ sealOpen e = a ∧ e.legal.sealWas = a ∧ OnlyParts [.legal, .flash] s.dev e ∧ e.os.pend = s.dev.os.pend)) ∧
    (∀ i a ms, i < 2 → (on s.dev 0x220D 1).testBit i ≠ a → Completes (.bilTamper i a ms) s (fun e =>
      raised e 0x5203 i = true ∧ (on e 0x220D 1).testBit i = a ∧ (on e 0x220D 2).testBit i = true ∧
        (on e 0x2200 0).testBit 4 = true ∧ OnlyParts [.legal, .flash] s.dev e ∧ e.os.pend = s.dev.os.pend)) ∧
    (∀ i ty b, s.dev.flash.held = [(i, ty, b)] → i ≤ 1 → on s.dev 0x500 0 ≠ 3 → storeUp s.dev = true → ringSize s.dev 4 ≠ 0 →
      ringIdle s.dev 4 = true →
      (partAdd i ty b { s.dev with flash := { s.dev.flash with held := [] } }).isSome = true →
      Completes .storeRetry s (fun e => e.flash.held = [] ∧ Framed [.flash] [] s.dev e)) ∧
    (∀ m i, m < 66 → s.dev.pair.role = .active → microsInTick s.dev = billE s.dev + m →
      s.dev.legal.toMirror.find? (fun i => i.m == m) = some i → Completes (.billingRecordCommit m) s (fun e =>
        e.pair.billTx = s.dev.pair.billTx ++ [billRec s.dev i] ∧ (∀ j ∈ e.legal.toMirror, j.m ≠ m) ∧
          e.legal.journal = s.dev.legal.journal ∧ Framed [.legal, .pair] [] s.dev e))

/-- R287 to R290, R294, R309: discovery, which is answered in every state, the choice of a protocol and the TLS handshake of a
context that is not yet set up; a negotiation that fails frees it. R294, R299, R303: setup opens the session and its record;
an accepted authorization goes on to the parameters, a rejected one ends the session. -/
def Obligations.SessionsOpen : Prop :=
  (∀ (s : State) (c n : Nat), Serves s.dev c n →
     let nt := (ctx s.dev n).notice
     (∀ tls, 3 ≤ sesState s.dev n → sesState s.dev n ≤ 9 → (isMcs s.dev c = false ∨ (ctx s.dev n).feat.testBit 2 = true) →
       Completes (.seccDiscoveryRequest c tls) s (fun e =>
         let sec := tls && slotValid s.dev (on s.dev (oCon c 0x50) 11)
         sesState e n = sesState s.dev n ∧ (sesState s.dev n = 9 → (ctx e n).sec = sec ∧ (ctx e n).tls = false ∧ (ctx e n).appDone = false) ∧
           told e c mDiscovery (noted nt ([if sec then 0 else 0x10, 61000 + c] ++ (linkLocal s.dev c).map (·.toNat))) ∧
           SessionOnly n c s.dev e)) ∧
     (∀ tls, 1 ≤ sesState s.dev n → sesState s.dev n ≤ 2 → (isMcs s.dev c = false ∨ (ctx s.dev n).feat.testBit 2 = true) →
       Completes (.seccDiscoveryRequest c tls) s (fun e =>
         let sec := tls && slotValid s.dev (on s.dev (oCon c 0x50) 11)
         sesState e n = 2 ∧ (ctx e n).sec = sec ∧ (ctx e n).tls = false ∧ (ctx e n).appDone = false ∧
           told e c mDiscovery (noted nt ([if sec then 0 else 0x10, 61000 + c] ++ (linkLocal s.dev c).map (·.toNat))) ∧
           SessionOnly n c s.dev e)) ∧
     (∀ offers p, sesState s.dev n = 2 → bestProto (offers.filter (fun o => protoOk s.dev n c o.1)) = some p →
       Completes (.supportedAppProtocol c offers) s (fun e =>
         on e (oSes n 2) 0 = p.1 ∧ sesState e n = 2 ∧ (ctx e n).appDone = true ∧ told e c mAppProtocol (noted nt [0, p.1]) ∧
           SessionOnly n c s.dev e)) ∧
     (∀ offers, sesState s.dev n = 2 → (∀ o ∈ offers, protoOk s.dev n c o.1 = false) →
       Completes (.supportedAppProtocol c offers) s (fun e =>
         sesState e n = 0 ∧ conCtx e c = none ∧ raised e 0x3803 n = true ∧ told e c mAppProtocol (noted nt [1, 0]) ∧ SessionOnly n c s.dev e)) ∧
     (∀ m, sesState s.dev n = 2 → Completes (.tlsHandshake c m) s (fun e => SessionOnly n c s.dev e ∧
         let slot := on s.dev (oCon c 0x50) 11
         if tlsGood s.dev n m = true then
           on e (oSes n 0x0E) 1 = m.suite ∧ on e (oSes n 0x0E) 2 = m.grp ∧ on e (oSes n 0x0E) 3 = slot ∧
             on e (oSes n 0x0E) 4 = boolNat (decide (m.chain ≠ [])) ∧ sesState e n = 2 ∧ (ctx e n).tls = true ∧ (ctx e n).appDone = false ∧
             told e c mTls (noted nt ((Config.p521Sign (seccKey s.dev slot) m.transcript s.dev.draws).map (·.toNat)))
         else raised e 0x3A02 n = true ∧ raised e 0x3803 n = true ∧ sesState e n = 0))) ∧
  (∀ (s : State) (c n : Nat), Serves s.dev c n →
     let nt := (ctx s.dev n).notice
     (∀ id evccid, sesState s.dev n = 2 → (ctx s.dev n).appDone = true → Completes (.sessionSetup c id evccid) s (fun e =>
       sesState e n = 3 ∧ raised e 0x3801 n = true ∧ ob e (oSes n 3) 0 = Config.random s.dev.draws 8 ∧
         ob e (oSes n 4) 0 = evccid.take 255 ∧ on e (oSes n 0x0B) 1 = civilNs s.dev ∧
         on e (oSes n 0x0D) 0 = s.dev.legal.nextRec ∧ e.legal.nextRec = s.dev.legal.nextRec + 1 ∧
         (e.legal.recs.any (fun r => r.ctx == n && r.id == s.dev.legal.nextRec)) = true ∧
         told e c mSetup (noted nt [0]) ∧ SessionOnly n c s.dev e)) ∧
     (∀ pnc chain emaid, sesState s.dev n = 3 ∨ sesState s.dev n = 4 →
       let mode := fun (e : Dev) => on e (oSes n 5) 1 = boolNat pnc ∧ (pnc = true → ob e (oSes n 5) 2 = emaid.take 32)
       let refused := fun (code : Nat) => Completes (.authorization c pnc chain emaid) s (fun e =>
         sesEnded n c 5 false s.dev e ∧ told e c mAuth [code, 3] ∧ SessionOnly n c s.dev e)
       (authAllowed s.dev n c pnc = false → refused 2) ∧
       (authAllowed s.dev n c pnc = true → pnc = true → Config.chainVerifies chain (ob s.dev 0x300 0) = false → refused 3) ∧
       (authAllowed s.dev n c pnc = true → (pnc = true → Config.chainVerifies chain (ob s.dev 0x300 0) = true) →
         (sesState s.dev n = 4 ∨ on s.dev (oSes n 6) 0 = 1 → Completes (.authorization c pnc chain emaid) s (fun e =>
           sesState e n = 4 ∧ mode e ∧ told e c mAuth (noted nt [0]) ∧ SessionOnly n c s.dev e)) ∧
         (sesState s.dev n = 3 → on s.dev (oSes n 6) 0 = 2 → refused 2) ∧
         (sesState s.dev n = 3 → on s.dev (oSes n 6) 0 = 0 → (on s.dev (oCon c 0x50) 7).testBit 2 = false →
           Completes (.authorization c pnc chain emaid) s (fun e =>
             sesState e n = 3 ∧ (ctx e n).asked = true ∧ mode e ∧ told e c mAuth (noted nt [1]) ∧ SessionOnly n c s.dev e)))) ∧
     (sesState s.dev n = 3 → Completes (.authTimeout n) s (fun e => sesEnded n c 5 false s.dev e ∧ SessionOnly n c s.dev e)))

/-- R295 to R298: parameters, cable check, precharge and the start of transfer take the session from state to state, and the
connector's request follows. -/
def Obligations.SessionCharges : Prop :=
  ∀ (s : State) (c n : Nat), Serves s.dev c n →
    let nt := (ctx s.dev n).notice
    let bpt := on s.dev (oSes n 2) 0 = 4 ∨ on s.dev (oSes n 2) 0 = 6
    (∀ m, sesState s.dev n = 4 → bpt → m.dynamic = false → Completes (.chargeParameterDiscovery c m) s (fun e =>
      sesState e n = 4 ∧ told e c mParams (noted nt [1]) ∧ SessionOnly n c s.dev e)) ∧
    (∀ m, sesState s.dev n = 4 → ¬(bpt ∧ m.dynamic = false) → Completes (.chargeParameterDiscovery c m) s (fun e =>
      sesState e n = 4 ∧ on e (oSes n 0x0A) 1 = m.vMax ∧ on e (oSes n 0x0A) 2 = m.iMax ∧ on e (oSes n 0x0A) 3 = m.pMax ∧
        on e (oSes n 0x0A) 4 = m.iDis ∧ on e (oSes n 0x0A) 5 = m.pDis ∧ on e (oSes n 0x0A) 6 = m.soc ∧
        ((ctx e n).disOk = true ↔ 0 < m.iDis ∧ 0 < m.pDis ∧ m.soc ≠ 0xFF ∧ m.minSoc < m.soc) ∧ (ctx e n).dynamic = m.dynamic ∧
        told e c mParams (noted nt (if oldProto s.dev n = true ∨ m.dynamic = true then [0]
          else [0, if m.depart = 0 then 86400 else m.depart, on s.dev (oCon c 0x22) 2])) ∧ SessionOnly n c s.dev e)) ∧
    (sesState s.dev n = 4 → isoState s.dev c ≠ 3 → on s.dev (oCon c 0x50) 10 ≠ 0 → Completes (.cableCheck c) s (fun e =>
      sesState e n = 5 ∧ (isoState s.dev c = 2 → raised e 0x3A03 n = true) ∧ on e (oCon c 0x20) 1 = 1 ∧ on e (oCon c 0x34) 1 = 2 ∧ on e (oCon c 0x20) 9 = vTest s.dev n c ∧
        told e c mCable (noted nt [0]) ∧ SessionOnly n c s.dev e)) ∧
    (sesState s.dev n = 5 → isoState s.dev c ≠ 3 → Completes (.cableCheck c) s (fun e =>
      sesState e n = 5 ∧ told e c mCable (noted nt [boolNat (decide (on s.dev (oCon c 0x50) 10 * 1000000 ≤ (ctx s.dev n).isoFor))]) ∧
        SessionOnly n c s.dev e)) ∧
    ((sesState s.dev n = 4 ∨ sesState s.dev n = 5) → isoState s.dev c = 3 → Completes (.cableCheck c) s (fun e =>
      sesEnded n c 6 false s.dev e ∧ told e c mCable [0, if oldProto s.dev n = true then 2 else 3] ∧ SessionOnly n c s.dev e)) ∧
    (∀ v, sesState s.dev n = 5 → (ctx s.dev n).isoDone = true → 3 ≤ on s.dev (oSes n 2) 0 → ebReady s.dev c = false →
      Completes (.prechargeRequest c v) s (fun e =>
        sesState e n = 6 ∧ on e (oCon c 0x20) 9 = v ∧ (ctx e n).pcPending = true ∧ SessionOnly n c s.dev e)) ∧
    (∀ v, sesState s.dev n = 6 → ebReady s.dev c = true → Completes (.prechargeRequest c v) s (fun e =>
      sesState e n = 6 ∧ on e (oCon c 0x20) 9 = v ∧ told e c mPrecharge (noted nt [vConnRaw s.dev c, 1]) ∧ SessionOnly n c s.dev e)) ∧
    (sesState s.dev n = 6 → ebReady s.dev c = true → Completes (.powerDelivery c true) s (fun e =>
      sesState e n = 7 ∧ on e (oCon c 0x34) 1 = 3 ∧ told e c mPower (noted nt [0]) ∧ SessionOnly n c s.dev e)) ∧
    (sesState s.dev n = 6 → ebReady s.dev c = false → Completes (.powerDelivery c true) s (fun e =>
      sesState e n = 6 ∧ told e c mPower (noted nt [1]) ∧ SessionOnly n c s.dev e)) ∧
    (∀ v m, sesState s.dev n = 7 → Completes (.chargeLoop c v m) s (fun e =>
      sesState e n = 7 ∧ on e (oCon c 0x20) 9 = v ∧ on e (oCon c 0x20) 6 = m.eTarget ∧ toldLoop s.dev e c nt ∧
        SessionOnly n c s.dev e))

/-- R87, R294, R300, R301: what ends a session, with its cause; what a vehicle may still ask while it ends; and the end of a
context. -/
def Obligations.SessionEnds : Prop :=
  (∀ (s : State) (c n : Nat), Serves s.dev c n →
    let nt := (ctx s.dev n).notice
    let stopped := fun (e : Dev) => sesState e n = 8 ∧ on e (oSes n 0x0C) 1 = 1 ∧ on e (oSes n 0x0B) 2 = civilNs s.dev ∧
      (ctx e n).vehWaits = true ∧ (ctx e n).resumable = false
    (4 ≤ sesState s.dev n → sesState s.dev n ≤ 7 → Completes (.powerDelivery c false) s (fun e =>
      stopped e ∧ told e c mPower (noted nt [0]) ∧ SessionOnly n c s.dev e)) ∧
    (∀ pause, 1 ≤ sesState s.dev n → sesState s.dev n ≤ 2 → Completes (.sessionStopRequest c pause) s (fun e =>
      sesState e n = 0 ∧ raised e 0x3803 n = true ∧ conCtx e c = none ∧ told e c mStop (noted nt []) ∧ SessionOnly n c s.dev e)) ∧
    (∀ pause, 3 ≤ sesState s.dev n → sesState s.dev n ≤ 7 → Completes (.sessionStopRequest c pause) s (fun e =>
      sesEnded n c (if pause then 2 else 1) pause s.dev e ∧ told e c mStop (noted nt []) ∧ SessionOnly n c s.dev e)) ∧
    (∀ pause, sesState s.dev n = 8 → (ctx s.dev n).vehWaits = true → Completes (.sessionStopRequest c pause) s (fun e =>
      sesState e n = (if anyClosed s.dev c = true then 8 else if pause = true then 9 else 10) ∧
        on e (oSes n 0x0C) 1 = (if pause then 2 else on s.dev (oSes n 0x0C) 1) ∧ (ctx e n).vehWaits = false ∧
        told e c mStop (noted nt []) ∧ SessionOnly n c s.dev e)) ∧
    (sesState s.dev n = 6 → (ctx s.dev n).pcPending = true → ebReady s.dev c = false → Completes (.prechargeTimeout c) s (fun e =>
      sesEnded n c 12 false s.dev e ∧ told e c mPrecharge [vConnRaw s.dev c, 2, if oldProto s.dev n = true then 1 else 4] ∧ SessionOnly n c s.dev e)) ∧
    (sesState s.dev n = 7 → Completes (.chargeLoopTimeout c) s (fun e => sesEnded n c 10 true s.dev e ∧ SessionOnly n c s.dev e)) ∧
    ((sesState s.dev n = 8 ∨ sesState s.dev n = 9) → Completes (.weldingDetection c) s (fun e =>
      sesState e n = sesState s.dev n ∧ told e c mWelding (noted nt [vConnRaw s.dev c]) ∧ SessionOnly n c s.dev e)) ∧
    (sesState s.dev n = 7 → Completes (.weldingDetection c) s (fun e =>
      stopped e ∧ told e c mWelding (noted nt [vConnRaw s.dev c]) ∧ SessionOnly n c s.dev e)) ∧
    (3 ≤ sesState s.dev n → sesState s.dev n ≤ 6 → (ctx s.dev n).linger = none → Completes (.weldingDetection c) s (fun e =>
      sesEnded n c 10 false s.dev e ∧ told e c mNotice (noted nt [3]) ∧ SessionOnly n c s.dev e)) ∧
    (∀ addr, 3 ≤ sesState s.dev n → sesState s.dev n ≤ 7 → (ctx s.dev n).tls = true → partnerPresent s.dev = false →
      Completes (.tlsKeyFetch n addr) s (fun e => sesEnded n c 11 true s.dev e ∧ (ctx e n).tls = false ∧ on e 0x1C6 1 = 7)) ∧
    (sesState s.dev n = 9 → (mayTake s.dev c = false ∨ ((ctx s.dev n).sec = false ∧ (ctx s.dev n).appDone = false)) →
      Completes (.resumeTimeout n) s (fun e => sesState e n = 10 ∧ conCtx e c = none ∧ SessionOnly n c s.dev e)) ∧
    (∀ m, sesState s.dev n = 9 → mayTake s.dev c = true → ((ctx s.dev n).sec = true ∨ (ctx s.dev n).appDone = true) →
      nextFree s.dev = some m → Completes (.resumeTimeout n) s (fun e =>
        sesState e n = 10 ∧ conCtx e c = some m ∧ sesConn e m = c ∧ sesState e m = 2 ∧ on e (oSes m 2) 0 = on s.dev (oSes n 2) 0 ∧
          (ctx e m).sec = (ctx s.dev n).sec ∧ (ctx e m).tls = (ctx s.dev n).tls ∧ (ctx e m).feat = on s.dev 0x011 0 ∧
          ∀ k, k < 256 → k ≠ n → k ≠ m → ctx e k = ctx s.dev k ∧ sesState e k = sesState s.dev k))) ∧
  (∀ (s : State) (n : Nat), running s.dev = true → n < 256 → sesConn s.dev n < 64 → sesState s.dev n = 10 → recSigned s.dev n = true →
    Completes (.sessionRecordStored n) s (fun e =>
      sesState e n = 0 ∧ raised e 0x3803 n = true ∧ recSigned e n = false ∧ SessionOnly n (sesConn s.dev n) s.dev e))

/-- R292 to R294, R300: LINK_STATE is published; a vehicle that is plugged in with its link up takes the next free context, and
one that is gone ends its session. -/
def Obligations.LinkStateStartsAndEnds : Prop :=
  ∀ (s : State) (c : Nat), running s.dev = true → isActive s.dev = true → c < 64 →
    (∀ f n, linkFrameOk s.dev c f = true → (byteAt f 15 = 2 ∨ byteAt f 15 = 3) → byteAt f 16 = 2 → (isMcs s.dev c = false ∨ featOn s.dev 2 = true) →
      conCtx s.dev c = none → nextFree s.dev = some n → Completes (.linkState c f) s (fun e =>
        sesState e n = 1 ∧ conCtx e c = some n ∧ sesConn e n = c ∧ e.ses.last = n ∧ on e (linkObj c) 1 = byteAt f 15 ∧ on e (linkObj c) 2 = 2 ∧
          (∀ m, m < 256 → m ≠ n → sesState e m = sesState s.dev m ∧ ctx e m = ctx s.dev m))) ∧
    (∀ f, linkFrameOk s.dev c f = true → (byteAt f 15 = 2 ∨ byteAt f 15 = 3) → byteAt f 16 = 2 → (isMcs s.dev c = false ∨ featOn s.dev 2 = true) →
      conCtx s.dev c = none → nextFree s.dev = none → Completes (.linkState c f) s (fun e =>
        raised e 0x3A01 noInst = true ∧ conCtx e c = none ∧ ∀ m, m < 256 → sesState e m = sesState s.dev m)) ∧
    (∀ f n, linkFrameOk s.dev c f = true → byteAt f 15 = 1 → (byteAt f 17).testBit 1 = false → conCtx s.dev c = some n →
      sesConn s.dev n = c → 3 ≤ sesState s.dev n → sesState s.dev n ≤ 7 → Completes (.linkState c f) s (fun e =>
        sesEnded n c 4 false s.dev e ∧ on e (linkObj c) 1 = 1)) ∧
    (∀ f n, linkFrameOk s.dev c f = true → (byteAt f 17).testBit 1 = true → conCtx s.dev c = some n →
      sesConn s.dev n = c → 3 ≤ sesState s.dev n → sesState s.dev n ≤ 7 → Completes (.linkState c f) s (fun e =>
        sesEnded n c 13 false s.dev e ∧ on e (linkObj c) 3 = byteAt f 17)) ∧
    (300 < on s.dev (linkObj c) 4 → Completes (.linkStateTimeout c) s (fun e =>
      on e (linkObj c) 1 = 0 ∧ on e (linkObj c) 2 = 0 ∧ Framed [] [(linkObj c, 1), (linkObj c, 2)] s.dev e))

/-- R8, R367, R368, R383, R386: values pushed by a node set the points of their slots and end their age and staleness; a frame
that does not match its layout is discarded, one that finds the queue full is lost or waits in the shadow buffer; a point that
is too old becomes stale. -/
def Obligations.FieldBusPoints : Prop :=
  ∀ (s : State) (b : Nat), running s.dev = true → b < 4 →
    (∀ node page v n p, fbMayRecv s.dev b = true → 1 ≤ node → node ≤ 0xEF → n < 0x4000 →
      (∀ x ∈ (fbS s.dev b).shadow, x.1 ≠ node) →
      (points s.dev).filter (fun q => q.2.bus == b && q.2.node == node && q.2.isIn && q.2.slot == 15 * page) = [(n, p)] →
      Completes (.pushIn b node page [v] 0 { held := false, id := some (canId 2 2 0 node) }) s (fun e =>
        on e (oPoint n) 1 = (if p.ty = 1 then boolNat (decide (v % 2 ^ 32 ≠ 0)) else v % 2 ^ pointBits p) ∧ on e (oPoint n) 2 = 0 ∧ on e (oPoint n) 3 = 0 ∧
          on e (0x3008 + b) 2 = incSat 32 (on s.dev (0x3008 + b) 2) ∧
          (∀ k, n ∉ (fbS e k).gone) ∧
          Framed [.bus] [(oPoint n, 1), (oPoint n, 2), (oPoint n, 3), (0x3008 + b, 2), (0x3008 + b, 4), (0x3004 + b, 0)] s.dev e)) ∧
    (∀ node page vs rsv held id, fbMayRecv s.dev b = true →
      (id ≠ some (canId 2 2 0 node) ∨ nodeAddr node = false ∨ 15 < vs.length ∨ rsv ≠ 0) →
      Completes (.pushIn b node page vs rsv { held := held, id := id }) s (fun e =>
        on e (0x3008 + b) 7 = incSat 32 (on s.dev (0x3008 + b) 7) ∧ on e (0x3008 + b) 2 = incSat 32 (on s.dev (0x3008 + b) 2) ∧
          Framed [] [(0x3008 + b, 2), (0x3008 + b, 4), (0x3008 + b, 7), (0x3004 + b, 0)] s.dev e)) ∧
    (∀ node page vs, fbMayRecv s.dev b = true → nodeAddr node = true → vs.length ≤ 15 →
      (fbBit s.dev b 5 = false → Completes (.pushIn b node page vs 0 { held := true, id := some (canId 2 2 0 node) }) s (fun e =>
        on e (0x3008 + b) 6 = incSat 32 (on s.dev (0x3008 + b) 6) ∧ fbBit e b 6 = true ∧
          Framed [] [(0x3008 + b, 2), (0x3008 + b, 4), (0x3008 + b, 6), (0x3004 + b, 0)] s.dev e)) ∧
      (fbBit s.dev b 5 = true → Completes (.pushIn b node page vs 0 { held := true, id := some (canId 2 2 0 node) }) s (fun e =>
        (fbS e b).shadow = (fbS s.dev b).shadow.filter (fun x => !(x.1 == node)) ++ [(node, page, vs)] ∧
          ((fbS s.dev b).shadow.any (fun x => x.1 == node) = true → on e (0x3008 + b) 6 = incSat 32 (on s.dev (0x3008 + b) 6)) ∧
          Framed [.bus] [(0x3008 + b, 2), (0x3008 + b, 4), (0x3008 + b, 6), (0x3004 + b, 0)] s.dev e))) ∧
    (∀ n p, n < 0x4000 → pointAt (ob s.dev 0x3014 0) n = some p → p.isIn = true → p.bus = b → p.timeout ≠ 0 →
      p.timeout < on s.dev (oPoint n) 2 → oflag s.dev (oPoint n) 3 = false →
      Completes (.fbPointStale n) s (fun e =>
        on e (oPoint n) 3 = 1 ∧ on e (0x3004 + b) 0 = setBit (on s.dev (0x3004 + b) 0) 9 ∧
          n ∈ (fbS e b).gone ∧
          ((∀ q ∈ points s.dev, q.2.bus = b → q.2.node = p.node → q.1 ∉ (fbS s.dev b).gone) → raised e 0x5A03 b = true) ∧
          Framed [.bus] [(oPoint n, 3), (0x3004 + b, 0)] s.dev e))

/-- R365: the error counters of a controller, its bus-off and the recovery from it. R364, R365, R371: of the frames that wait, the
one with the lowest identifier leaves, and the civil time of a REF frame's start is kept for the next one; after bus-off none
leaves before the next reference token. R33, R371, R383: at the minor-frame reference token, once in a minor frame, every bus
that may send gets the REF frame of that minor frame in place of an older one; the output points that are sent are refreshed. -/
def Obligations.BusFramesAndErrors : Prop :=
  (∀ (s : State) (b : Nat), running s.dev = true → b < 4 →
     let tec := on s.dev (0x3008 + b) 3
     let r := on s.dev (0x3008 + b) 4
     let objs : List (Nat × Nat) := [(0x3008 + b, 3), (0x3008 + b, 4), (0x3004 + b, 0)]
     (fbMayRecv s.dev b = true → fbBit s.dev b 1 = false → tec + 8 ≤ 255 → Completes (.busError b 0) s (fun e =>
       on e (0x3008 + b) 3 = tec + 8 ∧ on e (0x3008 + b) 4 = r ∧
         (fbBit e b 3 = true ↔ 128 ≤ tec + 8 ∨ 128 ≤ r) ∧ (fbBit e b 2 = true ↔ 96 ≤ tec + 8 ∨ 96 ≤ r) ∧
         (fbBit s.dev b 3 = false → fbBit e b 3 = true → raised e 0x5A01 b = true) ∧ Framed [] objs s.dev e)) ∧
     (fbMayRecv s.dev b = true → fbBit s.dev b 1 = false → 255 < tec + 8 → Completes (.busError b 0) s (fun e =>
       raised e 0x5C01 b = true ∧ fbBit e b 4 = true ∧ (fbS e b).prevSof = 0 ∧
         on e (0x3008 + b) 5 = incSat 32 (on s.dev (0x3008 + b) 5) ∧
         Framed [.bus] ([(0x3008 + b, 5), (0x3008 + b, 8)] ++ objs) s.dev e)) ∧
     (fbMayRecv s.dev b = true → Completes (.busError b 1) s (fun e =>
       on e (0x3008 + b) 4 = min 255 (r + 1) ∧ on e (0x3008 + b) 3 = tec ∧ Framed [] objs s.dev e)) ∧
     (fbMayRecv s.dev b = true → Completes (.busError b 2) s (fun e =>
       on e (0x3008 + b) 4 = min 255 (r + 8) ∧ on e (0x3008 + b) 3 = tec ∧ Framed [] objs s.dev e)) ∧
     (fbBit s.dev b 4 = true → Completes (.busOffRecovery b) s (fun e =>
       on e (0x3008 + b) 3 = 0 ∧ on e (0x3008 + b) 4 = 0 ∧ fbBit e b 2 = false ∧ fbBit e b 3 = false ∧ fbBit e b 4 = false ∧
         Framed [] objs s.dev e))) ∧
  (∀ (s : State) (b sof : Nat) (f : CanFrame), running s.dev = true → fbMaySend s.dev b = true →
     ((fbS s.dev b).resume = true → Completes (.canFrameTransmitted b sof) s (Framed [] [] s.dev)) ∧
     ((fbS s.dev b).resume = false → f ∈ (fbS s.dev b).tx → (∀ g ∈ (fbS s.dev b).tx, g ≠ f → f.id < g.id) →
     Completes (.canFrameTransmitted b sof) s (fun e =>
       .can b f.id f.payload ∈ e.sent ∧ (fbS e b).prevSof = (if idType f.id = 0 then sof else (fbS s.dev b).prevSof) ∧
         on e (0x3008 + b) 1 = incSat 32 (on s.dev (0x3008 + b) 1) ∧ on e (0x3008 + b) 3 = on s.dev (0x3008 + b) 3 - 1 ∧
         (∀ k, k ≠ b → busCore (fbS e k) = busCore (fbS s.dev k)) ∧
         Framed [.bus] [(0x3008 + b, 1), (0x3008 + b, 3), (0x3004 + b, 0)] s.dev e))) ∧
  (∀ (s : State), running s.dev = true →
     (s.dev.time.refDue = false → Completes .minorReferenceToken s (Framed [] [] s.dev)) ∧
     (s.dev.time.refDue = true → Completes .minorReferenceToken s (fun e =>
     (∀ b, b < 4 → fbMaySend s.dev b = true →
       (∃ f ∈ (fbS e b).tx, f.id = canId 0 0 0xFF 0 ∧
         f.payload.take 16 = natLe 8 s.dev.time.minor ++ natLe 8 (fbS s.dev b).prevSof) ∧
         ((fbS e b).tx.filter (fun f => idType f.id == 0)).length = 1) ∧
     (∀ b, b < 4 → fbMaySend s.dev b = false → fbS e b = fbS s.dev b) ∧
     e.time = { s.dev.time with refDue := false } ∧
     Framed [.bus, .time]
       ((List.range 4).flatMap (fun b => [(0x3004 + b, 0), (0x3008 + b, 8)]) ++
         (points s.dev).flatMap (fun p => [(oPoint p.1, 2), (oPoint p.1, 3)])) s.dev e)))

/-- R366, R368, R381: a node that answers a discovery is confirmed with a free address and listed, on a unit that only listens
with the address that the active one assigns; an identifier that is not that of its serial is discarded; a round without a new
serial ends the discovery. -/
def Obligations.DiscoveryConfirmsNodes : Prop :=
  ∀ (s : State) (b : Nat), running s.dev = true → b < 4 →
    (∀ vendor model addr serial id rsv full asg, fbMayRecv s.dev b = true → (id ≠ some (identId serial) ∨ rsv ≠ 0) →
      Completes (.identFrame b vendor model addr serial rsv { held := full, id := id, assign := asg }) s (fun e =>
        on e (0x3008 + b) 7 = incSat 32 (on s.dev (0x3008 + b) 7) ∧ (∀ k, (fbS e k).nodes = (fbS s.dev k).nodes) ∧
          Framed [] [(0x3008 + b, 2), (0x3008 + b, 4), (0x3008 + b, 7), (0x3004 + b, 0)] s.dev e)) ∧
    (∀ vendor model present addr other serial, fbMayRecv s.dev b = true → serial.length = 16 → 1 ≤ addr → addr ≤ 0xEF →
      (∀ n ∈ (fbS s.dev b).nodes, n.serial ≠ serial ∧ n.addr ≠ addr) → (fbBit s.dev b 1 = false → present = addr) →
      Completes (.identFrame b vendor model present serial 0 { held := false, id := some (identId serial), assign := if fbBit s.dev b 1 then addr else other }) s (fun e =>
        (⟨addr, vendor % 2 ^ 32, model % 2 ^ 32, serial⟩ : FbNode) ∈ (fbS e b).nodes ∧ raised e 0x5801 b = true ∧
          (∀ n ∈ (fbS s.dev b).nodes, n ∈ (fbS e b).nodes) ∧ (serial ∉ (fbS s.dev b).seen → (fbS e b).newIdent = true) ∧
          Framed [.bus] [(0x3010 + b, 0), (0x3008 + b, 2), (0x3008 + b, 4), (0x3004 + b, 0)] s.dev e)) ∧
    (fbBit s.dev b 8 = true → (fbS s.dev b).newIdent = false → Completes (.discoveryRoundEnd b) s (fun e =>
      on e (0x3004 + b) 0 = clearBit (on s.dev (0x3004 + b) 0) 8 ∧ Framed [] [(0x3004 + b, 0)] s.dev e)) ∧
    (fbBit s.dev b 8 = true → (fbS s.dev b).newIdent = true → (fbS s.dev b).round + 1 < on s.dev 0x300C 2 →
      Completes (.discoveryRoundEnd b) s (fun e =>
        (fbS e b).round = (fbS s.dev b).round + 1 ∧ (fbS e b).newIdent = false ∧ Framed [.bus] [] s.dev e))

/-- R396, R397, R572: mains edges set the beat of the powerline, measured whether it is enabled or not; it is lost without them
and found again after eight valid intervals. R395, R572: a driver fault and a low supply stop transmission; each ends when its
cause does. -/
def Obligations.YardMedium : Prop :=
  (∀ (s : State), running s.dev = true →
     let w := on s.dev 0x3102 0
     (∀ t p, s.dev.yard.lastEdge = some p → p < t → cycleOk (t - p) = true → Completes (.plZcEdge t) s (fun e =>
       e.yard.lastEdge = some t ∧ e.yard.okCyc = s.dev.yard.okCyc + 1 ∧ e.yard.cycles = s.dev.yard.cycles + 1 ∧
         (w.testBit 2 = true → 7 ≤ s.dev.yard.okCyc →
           raised e 0x6201 noInst true = true ∧ on e 0x3102 0 = clearBit (clearBit w 2) 3 ∧
             ∀ p ∈ e.yard.tm, p.2.v0 = none ∧ p.2.v1 = none) ∧
         (¬(w.testBit 2 = true ∧ 7 ≤ s.dev.yard.okCyc) → on e 0x3102 0 = w) ∧
         Framed [.yard] [(0x3102, 0), (0x3103, 1), (0x3103, 2)] s.dev e)) ∧
     (∀ t, (∀ p, s.dev.yard.lastEdge = some p → ¬(p < t ∧ cycleOk (t - p) = true)) → Completes (.plZcEdge t) s (fun e =>
       e.yard = { s.dev.yard with lastEdge := some t, okCyc := 0, edges := [] } ∧ Framed [.yard] [] s.dev e)) ∧
     (w.testBit 2 = false → Completes .yardZcLost s (fun e =>
       raised e 0x6201 noInst = true ∧ on e 0x3102 0 = setBit w 2 ∧ e.yard = { s.dev.yard with okCyc := 0, edges := [] } ∧
         Framed [.yard] [(0x3102, 0)] s.dev e)) ∧
     (w.testBit 2 = true → Completes .zcBaseTimeout s (fun e =>
       on e 0x3102 0 = setBit w 3 ∧ Framed [] [(0x3102, 0)] s.dev e))) ∧
  (∀ (s : State), running s.dev = true →
     let w := on s.dev 0x3102 0
     (yardOn s.dev = true → s.dev.yard.drvOff = false → Completes .yardDriverFault s (fun e =>
       raised e 0x6401 noInst = true ∧ e.yard.drvOff = true ∧ yardMaySend e = false ∧ on e 0x3102 0 = clearBit (setBit w 5) 0 ∧
         Framed [.yard] [(0x3102, 0)] s.dev e)) ∧
     Completes .driverResume s (fun e => e.yard = { s.dev.yard with drvOff := false } ∧ Framed [.yard] [] s.dev e) ∧
     Completes .vplcLow s (fun e => e.yard = { s.dev.yard with vplcLow := true } ∧ yardMaySend e = false ∧
       on e 0x3102 0 = clearBit w 0 ∧ Framed [.yard] [(0x3102, 0)] s.dev e) ∧
     Completes .vplcRestored s (fun e => e.yard = { s.dev.yard with vplcLow := false } ∧ Framed [.yard] [] s.dev e))

/-- R396, R402 to R404, R420: each beacon period that is due is counted, ages the nodes, and begins with a BEACON by way of ring
10 where the device may transmit. R398 to R400, R402, R404, R420: a data frame is taken by way of ring 10, counted and
acknowledged segment by segment, and a whole message waits for its command; a message is sent in one frame that ends inside
its region, after its backoff, and stays until its RECEIPT names all its segments, or is given up after five frames. -/
def Obligations.YardFramesMove : Prop :=
  (∀ (s : State), yardOn s.dev = true →
    (bpDue s.dev = false → Completes .beaconPeriod s (Framed [] [] s.dev)) ∧
    (bpDue s.dev = true → Completes .beaconPeriod s (fun e =>
     on e 0x3103 3 = (bpn s.dev + 1) % 2 ^ 32 ∧ e.yard.assoc = 0 ∧
       (yardBit s.dev 2 = true → e.yard.cycles = 0 ∧ e.yard.bpStart = s.dev.yard.bpStart + 400 * hcOf s.dev) ∧
       (yardBit s.dev 2 = false → e.yard.cycles = s.dev.yard.cycles - 2) ∧
       (∀ i ∈ associated s.dev, on e (yNode i) 10 = satU 16 (on s.dev (yNode i) 10 + 1)) ∧
       (∀ caps, yardMaySend s.dev = true → symsOf s.dev (basePhy s.dev) 0 1 = some caps →
         (ringIdle s.dev 10 = true → ∃ seq syms, .yardFrame (airFrame s.dev (yardPsd s.dev)
           (dataHeader s.dev 0x11 0xFFFF 0 1 caps.length seq) 1 syms) ∈ e.sent) ∧
           on e 0x3106 3 = incSat 32 (on s.dev 0x3106 3)) ∧
       (yardMaySend s.dev = false → e.yard.tx = s.dev.yard.tx ∧ on e 0x3106 3 = on s.dev 0x3106 3 ∧ yardBit e 0 = false) ∧
       OnlyParts [.yard, .draws] s.dev e ∧ e.os.pend = s.dev.os.pend))) ∧
  (∀ (s : State), yardOn s.dev = true →
     (∀ (fh : Bytes) (segs : List Bytes) stop got, fhSound s.dev fh = true → fhDataOk fh segs.length = true →
       fieldLe fh 4 2 = 0 → ringIdle s.dev 10 = true → rxSegs s.dev fh segs = some got →
       (s.dev.yard.rx.find? (fun r => r.lsrc == fieldLe fh 2 2 && r.bcast == false && r.seq == byteAt fh 12)) = none →
       Completes (.yardDataFrame fh segs stop) s (fun e =>
         on e 0x3106 4 = incSat 32 (on s.dev 0x3106 4) ∧
           (yardMaySend s.dev = true → receiptFits s.dev stop = true →
             .yardFrame (airFrame s.dev (yardPsd s.dev) (receiptHeader s.dev (fieldLe fh 2 2) (byteAt fh 12)
               (maskOf ((List.range got.length).filter (fun i => (got.getD i none).isSome)))) 1 []) ∈ e.sent) ∧
           (∀ msg, got.all (fun x => x.isSome) = true →
             openMsg (yardNetKey s.dev) (fieldLe fh 2 2) (got.flatMap (fun x => x.getD [])) = some msg →
             fieldLe (got.flatMap (fun x => x.getD [])) 4 2 = 0 → e.yard.inbox = s.dev.yard.inbox ++ [msg]) ∧
           (got.all (fun x => x.isSome) = false → e.yard.inbox = s.dev.yard.inbox) ∧
           OnlyParts [.yard] s.dev e ∧ e.os.pend = s.dev.os.pend)) ∧
     (∀ (fh : Bytes) t, fhSound s.dev fh = true → byteAt fh 0 = 0x13 → fieldLe fh 4 2 = 0 →
       s.dev.yard.tx.find? (fun t => t.wait && t.ldst == fieldLe fh 2 2 && t.seq == byteAt fh 6) = some t →
       (∀ k, k < t.left.length → (fieldLe fh 7 6).testBit k = true) → Completes (.receiptFrame fh) s (fun e =>
         e.yard.tx = s.dev.yard.tx.erase t ∧ OnlyParts [.yard] s.dev e ∧ e.os.pend = s.dev.os.pend)) ∧
     (∀ ldst seq t, s.dev.yard.tx.find? (fun t => t.wait && t.ldst == ldst && t.seq == seq) = some t → t.left ≠ [] →
       (5 ≤ t.tries → Completes (.receiptMissing ldst seq) s (fun e =>
         e.yard.tx = s.dev.yard.tx.erase t ∧ on e 0x3106 5 = satU 32 (on s.dev 0x3106 5 + t.left.length) ∧
           Framed [.yard] [(0x3106, 5)] s.dev e)) ∧
       (t.tries < 5 → Completes (.receiptMissing ldst seq) s (fun e =>
         e.yard = { s.dev.yard with tx := s.dev.yard.tx.map (fun x => if x = t then { t with wait := false } else x) } ∧
           Framed [.yard] [] s.dev e))) ∧
     (∀ start idle slots t caps last, yardMaySend s.dev = true → ringIdle s.dev 10 = true → txHead s.dev = some t →
       let p := if t.ldst = 0xFFFF then basePhy s.dev else phyTo s.dev t.ldst
       let again := t.nseg ≠ 0 ∧ t.rate = p.rate
       let n := if again then t.nseg else segsOf (segPay p.rate) t.msg
       let left := if again then t.left else List.range n
       let stop := start + 1920 + caps.length * tSym p.gi + (if t.ldst = 0xFFFF then 0 else 1050 + 1920)
       symsOf s.dev p start left.length = some caps → regionEnd s.dev start idle = some last →
       (stop ≤ last.1 → (last.2 = true → idle + 1200 ≤ start ∧ s.dev.yard.backoff.getD 3 ≤ slots) →
         Completes (.yardFrameSend start { since := idle, slots := slots }) s (fun e =>
           (∃ b, .yardFrame (airFrame s.dev (yardPsd s.dev)
             (dataHeader s.dev 0x12 t.ldst p.mapsel left.length caps.length t.seq) p.gi b) ∈ e.sent) ∧
             (t.ldst = 0xFFFF → e.yard.tx = s.dev.yard.tx.erase t) ∧
             (t.ldst ≠ 0xFFFF → e.yard.tx = s.dev.yard.tx.map (fun x =>
               if x = t then { t with nseg := n, rate := p.rate, left := left, tries := t.tries + 1, wait := true } else x)) ∧
             on e 0x3106 3 = incSat 32 (on s.dev 0x3106 3) ∧ Framed [.yard, .draws] [(0x3106, 3)] s.dev e)) ∧
       (last.1 < stop → Completes (.yardFrameSend start { since := idle, slots := slots }) s (fun e =>
         e.yard.tx = s.dev.yard.tx ∧ (s.dev.yard.backoff.isSome = true → e.yard.backoff = s.dev.yard.backoff) ∧
           Framed [.yard, .draws] [] s.dev e))))

/-- R401, R407 to R409, R413: the oldest message of each type acts on the node that sent it. -/
def Obligations.YardMessages : Prop :=
  ∀ (s : State) (m : YMsg), yardOn s.dev = true →
    let front := fun (t : Nat) => s.dev.yard.inbox.find? (fun x => x.mtype == t) = some m
    let only := fun (e : Dev) => OnlyParts [.yard] s.dev e ∧ e.os.pend = s.dev.os.pend ∧ e.yard.inbox = s.dev.yard.inbox.erase m
    (front 1 → isActive s.dev = true → s.dev.yard.assoc < 16 → m.body.length = 44 → fieldLe m.body 26 2 = 0 →
      addrOk (fieldLe m.body 24 2) = true →
      let r := assocResult s.dev (slice m.body 0 16) (slice m.body 28 16)
      Completes .assocReq s (fun e => only e ∧
        (∀ addr i, r = 0 → bindAddr s.dev (slice m.body 0 16) = some addr → nodeIdx addr = some i →
          raised e 0x6001 addr = true ∧ on e (yNode i) 1 = addr ∧ nodeState e i = 2 ∧ ob e (yNode i) 3 = slice m.body 0 16 ∧
            on e 0x3106 1 = incSat 32 (on s.dev 0x3106 1) ∧ e.yard.assoc = s.dev.yard.assoc + 1) ∧
        (r ≠ 0 → raised e 0x6203 noInst = true ∧ (∀ i, nodeState e i = nodeState s.dev i) ∧ bindings e = bindings s.dev))) ∧
    (∀ i, front 3 → nodeIdx m.src = some i → nodeState s.dev i = 2 → m.body.length = 16 →
      byteAt m.body 15 = 0 → Completes .helloMessage s (fun e =>
      on e (yNode i) 8 = fieldLe m.body 12 2 ∧ on e (yNode i) 10 = 0 ∧ only e ∧
        SameObjects [(yNode i, 8), (yNode i, 10)] s.dev e)) ∧
    (front 4 → (nodeIdx m.src).isSome = true → byteAt m.body 0 ≤ 32 → m.body.length = 4 + 8 * byteAt m.body 0 →
      fieldLe m.body 1 3 = 0 → (∀ k, k < byteAt m.body 0 → byteAt m.body (4 + 8 * k + 7) = 0 ∧ addrOk (fieldLe m.body (4 + 8 * k) 2) = true) →
      Completes .neighReport s (fun e =>
        (e.yard.links.filter (fun l => l.dst == m.src)).length = byteAt m.body 0 ∧
          e.yard.links.filter (fun l => l.dst != m.src) = s.dev.yard.links.filter (fun l => l.dst != m.src) ∧ only e)) ∧
    (∀ t : TmSet, t = ⟨byteAt m.body 1, byteAt m.body 2, (List.range 6).map (fun q => slice m.body (4 + 701 * q) 701)⟩ →
      front 7 → byteAt m.body 0 ≤ 1 → ((alGet s.dev.yard.tm m.src).getD {}).cur ≠ some (byteAt m.body 0) → m.body.length = 4210 →
      byteAt m.body 3 = 0 → tmOk (ob s.dev 0x3101 0) t = true → Completes .tmUpdate s (fun e =>
        (∃ p, alGet e.yard.tm m.src = some p ∧ p.cur = some (byteAt m.body 0) ∧
          (if byteAt m.body 0 = 0 then p.v0 else p.v1) = some t) ∧ only e ∧ SameObjects [] s.dev e)) ∧
    (∀ i j, front 8 → nodeIdx m.src = some i → nodeState s.dev i = 2 → byteAt m.body 0 = 1 → pointBodyOk m.body = true →
      byteAt m.body 4 = j → j < 24 → byteAt m.body 5 = 1 → Completes .pointMessage s (fun e =>
        on e (yPoint i j) 1 = fieldLe m.body 8 4 ∧ on e (yPoint i j) 2 = 1 ∧ on e (yPoint i j) 3 = 0 ∧
          alGet e.yard.ptLast (24 * i + j) = some (bpn s.dev) ∧ only e ∧
          SameObjects [(yPoint i j, 1), (yPoint i j, 2), (yPoint i j, 3)] s.dev e))

/-- R411 to R413: routes are computed for every associated node; a silent node is lost; points go stale and are refreshed. -/
def Obligations.YardUpkeep : Prop :=
  ∀ (s : State), yardOn s.dev = true →
    (isActive s.dev = true → bpn s.dev < s.dev.yard.routeAt + on s.dev 0x3100 6 → Completes .routeComputation s (Framed [] [] s.dev)) ∧
    (isActive s.dev = true → s.dev.yard.routeAt + on s.dev 0x3100 6 ≤ bpn s.dev → Completes .routeComputation s (fun e =>
      (∀ i p, i ∈ associated s.dev → (pathRounds (graphOf s.dev) true 8).find? (fun p => p.node == 0x100 + i) = some p →
        let r := routeStep (heldCost (graphOf s.dev) s.dev.yard.routes 8 (0x100 + i)) (alGet s.dev.yard.routes (0x100 + i)) p
          ((pathRounds (graphOf s.dev) false 8).find? (fun q => q.node == 0x100 + i))
        alGet e.yard.routes (0x100 + i) = some r.1 ∧ on e (yNode i) 6 = r.1.hops ∧ on e (yNode i) 7 = r.1.up ∧
          (r.2 = true → raised e 0x6002 (0x100 + i) = true)) ∧
        e.yard.sendAll = false ∧ e.yard.routeAt = bpn s.dev ∧ OnlyParts [.yard] s.dev e ∧ e.os.pend = s.dev.os.pend)) ∧
    (∀ i, i < 512 → nodeState s.dev i = 2 → 50 ≤ on s.dev (yNode i) 10 → Completes (.yardNodeLost i) s (fun e =>
      raised e 0x6202 (0x100 + i) = true ∧ nodeState e i = 3 ∧ alGet e.yard.routes (0x100 + i) = none ∧ alGet e.yard.errs (0x100 + i) = none ∧
        on e 0x3106 2 = incSat 32 (on s.dev 0x3106 2) ∧ (∀ k, k < 512 → k ≠ i → nodeState e k = nodeState s.dev k) ∧
        OnlyParts [.yard] s.dev e ∧ e.os.pend = s.dev.os.pend)) ∧
    (∀ i j b, i < 512 → j < 24 → (alGet s.dev.yard.ptLast (24 * i + j)).or (alGet s.dev.yard.since (0x100 + i)) = some b →
      b + 3 * on s.dev 0x3100 7 ≤ bpn s.dev → Completes (.yardPointStale i j) s (fun e => on e (yPoint i j) 3 = 1 ∧ Framed [] [(yPoint i j, 3)] s.dev e)) ∧
    (yardMaySend s.dev = true → s.dev.yard.refreshAt + on s.dev 0x3100 7 ≤ bpn s.dev → Completes .yardPointRefresh s (fun e =>
      (∀ i ∈ associated s.dev, outputsOf s.dev i ≠ [] → (∃ t ∈ e.yard.tx, t.ldst = (downPath s.dev (0x100 + i)).2 ∧ byteAt t.msg 0 = 8) ∧
        ∀ j ∈ outputsOf s.dev i, on e (yPoint i j) 3 = 0 ∧ alGet e.yard.ptLast (24 * i + j) = some (bpn s.dev)) ∧
        e.yard.refreshAt = bpn s.dev ∧
        Framed [.yard] ((associated s.dev).flatMap (fun i => (outputsOf s.dev i).map (fun j => (yPoint i j, 3)))) s.dev e))

/-- R423, R425 to R428: a descriptor posted on an idle ring that runs moves its bytes, whatever the source and destination, and
leaves every other byte of memory as it was. R422, R429, R430: the head descriptor completes with its cause and the ring goes
on; a full ring takes no descriptor. -/
def Obligations.DmaDescriptors : Prop :=
  (∀ (s : State) (r : Nat) (x : Desc), running s.dev = true → r < 16 → 0 < ringRoom s.dev r → (ring s.dev r).q = [] →
     oflag s.dev (0x3200 + r) 7 = false → (ring s.dev r).stopReq = false → x.op ≤ 3 → x.bad = false → x.flags % 256 < 2 → x.rsv = 0 →
     let src := fun (i : Nat) => dmaByte s.dev s.mem (x.src + i)
     let posted := fun (op : Nat) (e : Dev) => (ring e r).q.length = 1 ∧
       alGet (ring e r).slots (on s.dev (0x3200 + r) 3) = some (descBytes { x with op := op } 0 0) ∧
       on e (0x3200 + r) 3 = (on s.dev (0x3200 + r) 3 + 1) % ringSize s.dev r ∧
       (s.dev.flash.held = [] → (∀ k, k ≠ r → ring e k = ring s.dev k) ∧ Framed [.dma] [(0x3200 + r, 3)] s.dev e)
     (x.p0 = 0 → x.p1 = 0 → CompletesMem (.nullDesc r x) s (fun e m => posted 0 e ∧ m = s.mem)) ∧
     (0 < x.len → x.len ≤ 2 ^ 24 → rangeOk false x.src x.len = true →
       (x.p0 = 0 → x.p1 = 0 → rangeOk true x.dst x.len = true → CompletesMem (.copyDesc r x) s (fun e m =>
         posted 1 e ∧ (∀ i, i < x.len → memRead m (x.dst + i) = src i) ∧
           ∀ a, a < x.dst ∨ x.dst + x.len ≤ a → memRead m a = memRead s.mem a)) ∧
       (let es := x.p0 % 256
        let g := x.p0 / 256 % 256
        deintOk x = true → (∀ k, k < g → ∀ j, j < x.len / (es * g) → rangeOk true (x.dst + k * x.p1 + j * es) es = true ∧
           window (x.dst + k * x.p1 + j * es) = window x.dst) →
         CompletesMem (.deinterleaveDesc r x) s (fun e m => posted 2 e ∧
           (∀ k j i, k < g → j < x.len / (es * g) → i < es →
             memRead m (x.dst + k * x.p1 + j * es + i) = src ((j * g + k) * es + i)) ∧
           ∀ a, (∀ k, k < g → a < x.dst + k * x.p1 ∨ x.dst + k * x.p1 + x.len / g ≤ a) → memRead m a = memRead s.mem a)) ∧
       (let w := x.p0 % 64
        let es := x.p0 / 256 % 256
        let n := x.len / es / 8
        bitOk x = true → (∀ b, b < w → rangeOk true (x.dst + b * x.p1) n = true ∧ window (x.dst + b * x.p1) = window x.dst) →
         CompletesMem (.bitplaneDesc r x) s (fun e m => posted 3 e ∧
           (∀ b i t, b < w → i < n → t < 8 → (memRead m (x.dst + b * x.p1 + i)).toNat.testBit t =
             (src ((8 * i + t) * es + b / 8)).toNat.testBit (b % 8)) ∧
           ∀ a, (∀ b, b < w → a < x.dst + b * x.p1 ∨ x.dst + b * x.p1 + n ≤ a) → memRead m a = memRead s.mem a)))) ∧
  (∀ (s : State) (r : Nat) (x : DescS), running s.dev = true → r < 16 →
     let o := 0x3200 + r
     let done := fun (cause : Nat) (e : Dev) (m : Mem) =>
       (ring e r).q = [] ∧ on e o 2 = (on s.dev o 2 + 1) % max 1 (ringSize s.dev r) ∧
         (if cause = 0 then on e o 4 = incSat 32 (on s.dev o 4) ∧ m = s.mem ∧ e.draws = s.dev.draws
          else raised e 0x6A01 r = true ∧ on e o 5 = incSat 32 (on s.dev o 5) ∧ on e o 8 = cause ∧ e.draws = s.dev.draws + 1 ∧
            ∀ a, (∀ w ∈ dmaWrites x.desc (List.replicate x.desc.len 0), a < w.1 ∨ w.1 + w.2.length ≤ a) → memRead m a = memRead s.mem a) ∧
         alGet (ring e r).slots x.idx = some (descBytes x.desc (if cause = 0 then 1 else 2) cause) ∧
         ((ring s.dev r).stopReq = true → oflag e o 7 = true ∧ (ring e r).stopReq = false) ∧
         (s.dev.flash.held = [] → Framed [.dma, .draws] [(o, 2), (o, 4), (o, 5), (o, 7), (o, 8)] s.dev e)
     ((ring s.dev r).q = [x] → x.own = none → x.started = true → oflag s.dev o 7 = false →
       (∀ err, CompletesMem (.descriptorComplete r err) s (done (if x.cause ≠ 0 then x.cause else if err then 2 else 0))) ∧
       (x.desc.op ≠ 0 → CompletesMem (.writeResponseTimeout r) s (done (if x.cause ≠ 0 then x.cause else 7)))) ∧
     (∀ y, ringSize s.dev r ≠ 0 → ringSize s.dev r - 1 ≤ (ring s.dev r).q.length →
       let full := fun (e : Dev) (m : Mem) => (ring e r).q = (ring s.dev r).q ∧ on e o 6 = incSat 32 (on s.dev o 6) ∧ m = s.mem ∧
         ((ring s.dev r).fullRaised = false → raised e 0x6A02 r = true) ∧
         (s.dev.flash.held = [] → Framed [.dma] [(o, 6)] s.dev e)
       CompletesMem (.nullDesc r y) s full ∧ CompletesMem (.copyDesc r y) s full ∧ CompletesMem (.deinterleaveDesc r y) s full ∧
         CompletesMem (.bitplaneDesc r y) s full))

/-- R432, R437, R440, R442, R444: pages reach the eMMC, which fails, comes back and wears; captures are stored; readers take
entries. -/
def Obligations.RecordStore : Prop :=
  ∀ (s : State), running s.dev = true →
    (∀ i, i < 6 → storeUp s.dev = true → (part s.dev i).writing = true → Completes (.pageWritten i) s (fun e =>
      (part e i).pages.map (·.stored) = (part s.dev i).pages.map (·.issued) ∧
        (part e i).pages.map (·.ents) = (part s.dev i).pages.map (·.ents) ∧ e.flash.fails = 0 ∧
        (∀ g ∈ (part s.dev i).pages, g.stored < g.issued → .page i (pageBytes i { g with ents := g.ents.take g.issued }) ∈ e.sent) ∧
        ((∀ g ∈ (part s.dev i).pages, g.issued = g.ents.length) → (part e i).writing = false) ∧ Framed [.flash] [] s.dev e)) ∧
    (∀ i, i < 6 → (part s.dev i).pages.any (fun g => decide (g.stored < g.ents.length)) = true →
      (part s.dev i).writing = false → Completes (.pageFlushTimer i) s (fun e =>
        (part e i).writing = true ∧ (part e i).pages = (part s.dev i).pages.map (fun g => { g with issued := g.ents.length }) ∧
          Framed [.flash] [] s.dev e)) ∧
    (∀ i, i < 6 → (part s.dev i).pages.any (fun g => decide (g.stored < g.ents.length)) = true → (part s.dev i).writing = true →
      Completes (.pageFlushTimer i) s (fun e => part e i = { part s.dev i with flush := true } ∧ Framed [.flash] [] s.dev e)) ∧
    (storeUp s.dev = true → Completes .recEmmcFail s (fun e =>
      raised e 0x7401 noInst = true ∧ e.flash.fails = s.dev.flash.fails + 1 ∧ e.flash.parts = s.dev.flash.parts ∧
        (2 ≤ s.dev.flash.fails → raised e 0x7402 noInst = true ∧
          ∀ r ∈ storeRings, oflag e (0x3200 + r) 7 = true ∨ (ring e r).stopReq = true) ∧
        Framed [.flash, .dma] (storeRings.map (fun r => (0x3200 + r, 7))) s.dev e)) ∧
    ((on s.dev 0x3300 0).testBit 1 = true → CompletesMem (.emmcReinit true) s (fun e _ =>
      e.flash.fails = 0 ∧ (∀ r ∈ storeRings, oflag e (0x3200 + r) 7 = false ∧ (ring e r).stopReq = false) ∧
        ((∀ r, ∀ x ∈ (ring s.dev r).q, x.own = none) → OnlyParts [.flash, .dma] s.dev e ∧ e.os.pend = s.dev.os.pend))) ∧
    (∀ a b eol, Completes (.recWear a b eol) s (fun e =>
      on e 0x3301 2 = a % 256 ∧ on e 0x3301 3 = b % 256 ∧ on e 0x3301 4 = eol % 256 ∧
        (9 ≤ a % 256 ∨ 9 ≤ b % 256 ∨ 2 ≤ eol % 256 → raised e 0x7202 noInst = true) ∧ Framed [] [] s.dev e)) ∧
    (∀ k c, k < 32 → s.dev.flash.caps.find? (fun c => c.stage == k && !c.frozen) = some c → on s.dev 0x3330 2 ≤ c.post.length →
      storeUp s.dev = true → ringSize s.dev 7 ≠ 0 → ringIdle s.dev 7 = true →
      (partAdd 4 0x41 (capHeader s.dev c (capStream (stageE s.dev k) (c.pre ++ c.post)).length) s.dev).isSome = true →
      Completes (.captureFrozen k) s (fun e =>
        (part s.dev 4).nextSeq < (part e 4).nextSeq ∧ Framed [.flash] [] s.dev e)) ∧
    (∀ k, k < 8 → readCheck s.dev 0 (0x3328 + k) 0 ≠ 0 → Completes (.recDataRead k) s (fun e =>
      answered e (readCheck s.dev 0 (0x3328 + k) 0) = true ∧ Framed [] [] s.dev e)) ∧
    (∀ k, k < 8 → readCheck s.dev 0 (0x3328 + k) 0 = 0 → Completes (.recDataRead k) s (fun e =>
      .data (recRead k s.dev).1 ∈ e.sent ∧ on e (0x3320 + k) 2 = on (recRead k s.dev).2 (0x3320 + k) 2 ∧ Framed [] [] s.dev e))

/-- R452, R453, R454: a unit without a partner elects itself when ELECT_MS is over, unless it is unit 1 and hears the partner's
heartbeat; a unit with an image takes over from a partner that reports NO_IMAGE. Its epoch is above every one it has seen. -/
def Obligations.PairElects : Prop :=
  ∀ (s : State), running s.dev = true →
    let p := s.dev.pair
    let elected := fun (e : Dev) => e.malpen.ses = [] ∧ e.malpen.xf = [] ∧ e.pair.role = .active ∧ on e 0x401 0 = 1 ∧
      on e 0x402 0 = satU 32 (epochAbove (portNo s.dev) (max (on s.dev 0x402 0) p.seen)) ∧
      (max (on s.dev 0x402 0) p.seen + 2 < 2 ^ 32 → on s.dev 0x402 0 < on e 0x402 0 ∧ p.seen < on e 0x402 0) ∧
      pairBit e 0 = true ∧ pairBit e 1 = false ∧ raised e 0x2001 noInst = true ∧
      Framed [.pair, .time, .malpen, .bus]
        ([(0x400, 0), (0x401, 0), (0x402, 0), (0x185, 0), (0x3015, 1)] ++ (List.range 4).map (fun b => (0x3008 + b, 8))) s.dev e
    (p.declared = true → p.role = .electing → p.lastHb = none → p.clash = false →
      (p.missB ≠ 0 ∨ p.validEdge = none ∨ portNo s.dev ≠ 1) → Completes .electionTimeout s elected) ∧
    (p.role = .electing → p.missB = 0 → p.validEdge.isSome = true → portNo s.dev = 1 →
      Completes .electionTimeout s (Framed [] [] s.dev)) ∧
    (p.declared = true → p.role = .electing → (img? s.dev).isSome = true → 3 ≤ p.noImg → Completes .noImageTakeover s elected) ∧
    (p.declared = true → p.role = .standby → (img? s.dev).isSome = true → 3 ≤ p.noImg → Completes .noImageTakeover s (fun e =>
      e.pair.role = .active ∧ on e 0x401 0 = 1 ∧ raised e 0x2001 noInst = true ∧ e.malpen.ses = [] ∧ e.malpen.xf = [] ∧
        on e 0x402 0 = satU 32 (epochAbove (portNo s.dev) (max (on s.dev 0x402 0) p.seen)) ∧ pairBit e 0 = true ∧ pairBit e 1 = false ∧
        e.legal.own = [] ∧ e.yard.sendAll = true ∧
        OnlyParts [.energy, .lch, .malpen, .time, .yard, .legal, .pair, .flash, .bus] s.dev e))

/-- R144, R455 to R458: the two heartbeat paths, and the timing marker. R118, R145, R464: a PAIR frame that fails its checks is
counted; a sound one with a new HB is the heartbeat of path A and reports the partner and the offset of its boundaries, a
frame of PAIR1 once that of PAIR0 has not come; each frame gives the delay of its lane (R144) and elects a unit that has no
role yet (R452); when a frame has been sent, nothing of it waits any longer. -/
def Obligations.PairSignals : Prop :=
  (∀ (s : State), running s.dev = true →
     let p := s.dev.pair
     (∀ off, let t := s.dev.startup.t + off
       Completes (.hbInEdge off) s (fun e =>
         e.pair = { p with edge := some t, validEdge := e.pair.validEdge } ∧
           (∀ b, p.edge = some b → b + 7000 ≤ t → t ≤ b + 13000 → e.pair.validEdge = some t) ∧
           ((∀ b, p.edge = some b → ¬(b + 7000 ≤ t ∧ t ≤ b + 13000)) → e.pair.validEdge = p.validEdge) ∧ Framed [.pair] [] s.dev e)) ∧
     (p.hbRun = true → Completes .hbOutToggle s (fun e =>
       .heartbeat (!p.hbOut) ∈ e.sent ∧ e.pair = { p with hbOut := !p.hbOut } ∧ Framed [.pair] [] s.dev e)) ∧
     (p.hbRun = false → Completes .hbOutToggle s (Framed [] [] s.dev)) ∧
     (inPair s.dev = true → 3 ≤ p.missA → p.missB = 0 → pairBit s.dev 5 = false → Completes (.pairPathFault 1) s (fun e =>
       raised e 0x2201 noInst = true ∧ on e 0x400 0 = setBit (on s.dev 0x400 0) 5 ∧ on e 0x407 3 = incSat 32 (on s.dev 0x407 3) ∧
         Framed [] [(0x400, 0), (0x407, 3)] s.dev e)) ∧
     (inPair s.dev = true → 3 ≤ p.missB → p.missA = 0 → pairBit s.dev 6 = false → Completes (.pairPathFault 2) s (fun e =>
       raised e 0x2201 noInst = true ∧ on e 0x400 0 = setBit (on s.dev 0x400 0) 6 ∧ on e 0x407 4 = incSat 32 (on s.dev 0x407 4) ∧
         Framed [] [(0x400, 0), (0x407, 4)] s.dev e)) ∧
     (inPair s.dev = true → 16 ≤ p.okA → pairBit s.dev 5 = true → Completes (.pathFaultClear 1) s (fun e =>
       on e 0x400 0 = clearBit (on s.dev 0x400 0) 5 ∧ Framed [] [(0x400, 0)] s.dev e)) ∧
     (inPair s.dev = true → 16 ≤ p.okB → pairBit s.dev 6 = true → Completes (.pathFaultClear 2) s (fun e =>
       on e 0x400 0 = clearBit (on s.dev 0x400 0) 6 ∧ Framed [] [(0x400, 0)] s.dev e)) ∧
     (∀ l (v : Nat) (a : Int), l = 48 ∨ l = 49 → (laneS s.dev l).st = .up → 2 * a ≤ 1000 * tNs s.dev →
       let marked := fun (e : Dev) => e.pair = { p with markRx := setAt p.markRx (l - 48) (satS 32 a) }
       (p.role ≠ .single → v = s.dev.time.micro % 2 ^ 32 → Completes (.timingMarker l v a none) s (fun e =>
         marked e ∧ Framed [.pair] [] s.dev e)) ∧
       (∀ x : FrameCounts, p.role = .standby → x.micro ≠ s.dev.time.micro → Completes (.timingMarker l v a (some x)) s (fun e =>
         e.time = { s.dev.time with micro := x.micro, minor := x.minor, major := x.major, tick := x.tick, k := x.k, m := x.m } ∧
           on e 0x181 0 = x.micro ∧ on e 0x182 0 = x.minor ∧ on e 0x183 0 = x.major ∧ on e 0x184 0 = x.tick ∧ marked e ∧
           Framed [.time, .pair] [(0x181, 0), (0x182, 0), (0x183, 0), (0x184, 0)] s.dev e)) ∧
       (p.role = .standby → v < 2 ^ 32 → v ≠ s.dev.time.micro % 2 ^ 32 → Completes (.timingMarker l v a none) s (fun e =>
         e.time.micro = nearCount s.dev.time.micro v ∧ on e 0x181 0 = e.time.micro ∧ on e 0x182 0 = e.time.minor ∧
           on e 0x183 0 = e.time.major ∧ on e 0x184 0 = e.time.tick ∧ marked e ∧
           Framed [.time, .pair] [(0x181, 0), (0x182, 0), (0x183, 0), (0x184, 0)] s.dev e)) ∧
       (p.role = .active → v ≠ s.dev.time.micro % 2 ^ 32 → Completes (.timingMarker l v a none) s (Framed [] [] s.dev)))) ∧
  (∀ (s : State), running s.dev = true →
     let p := s.dev.pair
     let delay := fun (l : Nat) (f : Frame) => satU 16 (divHalfUp (toS 32 (fieldLe f.body 8 4) + markRxOf s.dev l) 2000).toNat
     let latched := fun (l : Nat) (f : Frame) (e : Dev) =>
       laneS e l = { laneS s.dev l with latch := some f.body } ∧ ∀ k, k ≠ l → laneS e k = laneS s.dev k
     (∀ l f a, l = 48 ∨ l = 49 → (laneS s.dev l).st = .up → p.role ≠ .single → pairParse f = none →
       Completes (.pairFrame l f a) s (fun e =>
         raised e 0x0A10 l = true ∧ on e 0x201 (l + 1) = incSat 32 (on s.dev 0x201 (l + 1)) ∧ Framed [] [(0x201, l + 1)] s.dev e)) ∧
     (∀ l f a, l = 48 ∨ l = 49 → (laneS s.dev l).st = .up → p.role ≠ .single → pairParse f = some [] → p.waits = none →
       p.lastHb ≠ some (fieldLe f.body 12 2) → p.role ≠ .electing → byteAt f.body 0 ≠ portNo s.dev →
       (l = 48 ∨ (laneS s.dev 48).st ≠ .up → Completes (.pairFrame l f a) s (fun e =>
         e.pair.lastHb = some (fieldLe f.body 12 2) ∧ e.pair.gotA = true ∧ e.pair.lastA = s.dev.startup.t + a ∧
           e.pair.seen = max p.seen (fieldLe f.body 4 4) ∧ on e 0x406 1 = byteAt f.body 0 ∧ on e 0x406 2 = byteAt f.body 1 ∧
           on e 0x406 3 = fieldLe f.body 4 4 ∧ on e 0x406 4 = fieldLe f.body 2 2 % 2 ∧
           (byteAt f.body 1 = 1 → p.role = .active → on s.dev 0x402 0 < fieldLe f.body 4 4 → fieldLe f.body 4 4 ≤ e.pair.above) ∧
           e.time.offsetPs = (toS 32 (fieldLe f.body 8 4) - markRxOf s.dev l) / 2 ∧
           on e 0x203 (l + 1) = delay l f ∧ latched l f e ∧
           Framed [.pair, .time, .lanes] [(0x406, 1), (0x406, 2), (0x406, 3), (0x406, 4), (0x203, l + 1)] s.dev e)) ∧
       (l = 49 → (laneS s.dev 48).st = .up → Completes (.pairFrame l f a) s (fun e =>
         e.pair = { p with waits := some (s.dev.startup.t + a, f) } ∧ on e 0x203 (l + 1) = delay l f ∧ latched l f e ∧
           Framed [.pair, .lanes] [(0x203, l + 1)] s.dev e))) ∧
     (∀ l f a, l = 48 ∨ (laneS s.dev 48).st ≠ .up → l = 48 ∨ l = 49 → (laneS s.dev l).st = .up → pairParse f = some [] → p.waits = none →
       p.role = .electing → p.lastHb ≠ some (fieldLe f.body 12 2) → Completes (.pairFrame l f a) s (fun e =>
         (byteAt f.body 0 = portNo s.dev → p.clash = false → raised e 0x2402 noInst = true ∧ e.pair.clash = true ∧ e.pair.role = .electing) ∧
           (byteAt f.body 0 ≠ portNo s.dev → byteAt f.body 1 = 1 →
             raised e 0x2001 noInst = true ∧ e.pair.role = .standby ∧ on e 0x401 0 = 2) ∧
           (byteAt f.body 0 ≠ portNo s.dev → byteAt f.body 1 = 0 → portNo s.dev = 0 →
             raised e 0x2001 noInst = true ∧ e.pair.role = .active ∧ on e 0x401 0 = 1 ∧
               on e 0x402 0 = satU 32 (epochAbove 0 (max (on s.dev 0x402 0) (max p.seen (fieldLe f.body 4 4))))))) ∧
     (∀ l f a, l = 48 ∨ l = 49 → (laneS s.dev l).st = .up → p.role ≠ .single → (pairParse f).isSome = true → p.waits = none →
       p.lastHb = some (fieldLe f.body 12 2) → byteAt f.body 0 ≠ portNo s.dev → Completes (.pairFrame l f a) s (fun e =>
         e.pair = p ∧ on e 0x203 (l + 1) = delay l f ∧ latched l f e ∧ Framed [.lanes] [(0x203, l + 1)] s.dev e)) ∧
     (p.sending = true → p.sendingW = [] → Completes .pairFrameSent s (fun e =>
       e.pair = { p with sending := false } ∧ e.ses.ready = [] ∧
         ((∀ x ∈ s.dev.ses.ready, x.2.1 ≠ mPrecharge) → e.ses = { s.dev.ses with ready := [] }) ∧
         (∀ x ∈ s.dev.ses.ready, x.2.1 ≠ mPrecharge →
           .vehicle x.1 x.2.1 (if x.2.1 = mLoop then loopLimits s.dev x.1 ++ x.2.2 else x.2.2) ∈ e.sent) ∧
         OnlyParts [.pair, .ses, .lanes, .draws] s.dev e ∧ e.os.pend = s.dev.os.pend)) ∧
     (p.sending = false → Completes .pairFrameSent s (Framed [] [] s.dev)))

/-- R453, R460, R472, R473, R475: a standby unit takes over when both paths have fallen silent; a planned switchover changes both
roles at H; a pending return asks for one. -/
def Obligations.PairTakesOver : Prop :=
  ∀ (s : State), running s.dev = true →
    let p := s.dev.pair
    (p.role = .standby → bothSilent s.dev = true → (img? s.dev).isSome = true → Completes .pairTakeover s (fun e =>
      e.pair.role = .active ∧ on e 0x401 0 = 1 ∧ raised e 0x2601 noInst = true ∧
        on e 0x402 0 = satU 32 (epochAbove (portNo s.dev) (max (on s.dev 0x402 0) p.seen)) ∧
        on e 0x407 1 = incSat 32 (on s.dev 0x407 1) ∧ on e 0x408 1 = s.dev.time.micro ∧ on e 0x408 2 = satU 32 (saddleNs s.dev) ∧
        on e 0x408 3 = p.announced.getD 0 ∧ pairBit e 3 = false ∧ pairBit e 4 = false ∧ e.malpen.ses = [] ∧ e.malpen.xf = [] ∧
        e.pair.handingOver = true ∧ e.time.micro = s.dev.time.micro ∧
        OnlyParts [.energy, .lch, .malpen, .time, .sched, .yard, .legal, .pair, .flash, .bus] s.dev e)) ∧
    (p.role = .standby → bothSilent s.dev = false → Completes .pairTakeover s (Framed [] [] s.dev)) ∧
    (∀ h c, p.switchAt = some (h, c) →
      (s.dev.time.micro < h → Completes .switchover s (Framed [] [] s.dev)) ∧
      (h ≤ s.dev.time.micro → p.role = .active → Completes .switchover s (fun e =>
        e.pair.role = .standby ∧ on e 0x401 0 = 2 ∧ raised e 0x2002 noInst = true ∧ on e 0x407 2 = incSat 32 (on s.dev 0x407 2) ∧
          pairBit e 4 = true ∧ e.pair.switchAt = none ∧ e.pair.queue = [] ∧ on e 0x402 0 = on s.dev 0x402 0)) ∧
      (h ≤ s.dev.time.micro → p.role = .standby → Completes .switchover s (fun e =>
        e.pair.role = .active ∧ on e 0x401 0 = 1 ∧ raised e 0x2002 noInst = true ∧ on e 0x407 2 = incSat 32 (on s.dev 0x407 2) ∧
          pairBit e 4 = true ∧ e.pair.switchAt = none ∧ on e 0x402 0 = satU 32 (on s.dev 0x406 3 + 1) ∧
          on e 0x408 1 = s.dev.time.micro ∧ on e 0x408 3 = c))) ∧
    (pairBit s.dev 11 = true → p.wasReady = true → switchOk s.dev = true → Completes .returnHoldoff s (fun e =>
      (∃ q, e.pair.queue = p.queue ++ [q] ∧ q.pend.num = 0x405 ∧ q.pend.val = .num (switchVal (switchH s.dev) 4)) ∧
        Framed [.pair] [] s.dev e))

/-- R489, R517, R518, R520, R524, R525: fresh masks; the checks of a package and its bundle in STAGE; a quiet handover; the end of
a trial. -/
def Obligations.KeysAndUpdates : Prop :=
  ∀ (s : State), running s.dev = true →
    let u := s.dev.update
    let w := on s.dev 0x700 0
    (Completes .keyRemask s (fun e =>
      e.keys = { s.dev.keys with masks := e.keys.masks } ∧ e.draws = s.dev.draws + s.dev.keys.inst.length ∧
        (∀ p ∈ s.dev.keys.inst, ∃ j, s.dev.draws ≤ j ∧ j < e.draws ∧ alGet e.keys.masks p.1 = some (Config.random j 32)) ∧
        Framed [.keys, .draws] [] s.dev e)) ∧
    (∀ ok, on s.dev 0x704 1 = 2 → u.built = none →
      let r := packageCheck s.dev ok
      let objs : List (Nat × Nat) := [(0x700, 0), (0x704, 1), (0x704, 2), (0x704, 3), (0x704, 4), (0x704, 5), (0x1A6, 0), (0x1A7, 0)]
      (∀ b kinds, r.2.2 = some (b, kinds) → Completes (.packageVerified ok) s (fun e =>
        e.update = { u with built := some b } ∧ on e 0x704 1 = 2 ∧ Framed [.update] objs s.dev e)) ∧
      (r.2.2 = none → Completes (.packageVerified ok) s (fun e =>
        raised e 0x8A01 noInst = true ∧ on e 0x704 1 = 4 ∧ on e 0x704 2 = r.1 ∧ on e 0x700 0 = setBit w 5 ∧ Framed [] objs s.dev e)) ∧
      (sha256 (packageOf u) ≠ u.digest → Completes (.packageVerified ok) s (fun e =>
        raised e 0x8A01 noInst = true ∧ on e 0x704 1 = 4 ∧ on e 0x704 2 = 1))) ∧
    (∀ b, u.built = some b → Completes .updStaged s (fun e =>
      e.update = { u with stage := some b, built := none } ∧ on e 0x704 1 = 3 ∧ on e 0x700 0 = setBit w 1 ∧ raised e 0x8801 noInst = true ∧
        OnlyParts [.update] s.dev e ∧ e.os.pend = s.dev.os.pend)) ∧
    (u.quietDue = true → s.dev.pair.role = .active → Completes .quietHandover s (fun e =>
      e.phase = .failSilent ∧ e.startup.nextCause = 2 ∧ .heartbeatLow ∈ e.sent ∧ e.update = { u with quietDue := false } ∧
        Framed [.phase, .pair, .startup, .update] [] s.dev e)) ∧
    (inTrial s.dev = true → u.fall = none → on s.dev 0x707 2 * 1000000000 ≤ u.dwell → Completes .updConfirmed s (fun e =>
      on e 0x709 0 = max (on s.dev 0x709 0) (regionSvn u.run) ∧ on e 0x706 1 = 2 ∧ on e 0x706 2 = 0 ∧
        on e 0x700 0 = setBit (clearBit w 3) 7 ∧ raised e 0x8802 noInst = true ∧
        Framed [] [(0x700, 0), (0x706, 1), (0x706, 2), (0x709, 0)] s.dev e)) ∧
    (inTrial s.dev = true → u.fall = none → on s.dev 0x707 1 * 60000000000 ≤ s.dev.startup.t → s.dev.pair.role = .standby →
      Completes .trialTimeout s (fun e =>
        e.update = { u with fall := some 1 } ∧ e.startup = { s.dev.startup with restartDue := true } ∧ on e 0x700 0 = setBit w 2 ∧
          Framed [.update, .startup] [(0x700, 0)] s.dev e)) ∧
    (inTrial s.dev = true → u.fall = none → s.dev.startup.t < on s.dev 0x707 1 * 60000000000 →
      Completes .trialTimeout s (Framed [] [] s.dev))

/-- R494, R495, R498, R503: a supply that leaves its range, a low RST_N and the end of the fail-silent hold stop every load
channel and the heartbeat; the loss of VKEEP loses what the keep domain held. -/
def Obligations.ResetsStopTheOutputs : Prop :=
  ∀ (s : State),
    let stopped := fun (ph : Phase) (cause : Nat) (e : Dev) =>
      e.phase = ph ∧ e.startup.nextCause = cause ∧ (∀ n, (lch e n).on = false ∧ (lch e n).wait = false ∧ (lch e n).latch = (lch s.dev n).latch) ∧
        .heartbeatLow ∈ e.sent ∧ e.pair.hbRun = false ∧ e.pair.hbOut = false ∧
        OnlyParts [.phase, .lch, .legal, .flash, .pair, .startup] s.dev e ∧ e.os.pend = s.dev.os.pend
    (∀ mask, mask % 64 ≠ 0 → (s.dev.phase = .running ∨ s.dev.phase = .failSilent) → Completes (.supplyDrop mask) s (stopped .keep 1)) ∧
    (∀ mask, mask % 64 ≠ 0 → s.dev.phase = .reset → Completes (.supplyDrop mask) s (fun e =>
      e.phase = .keep ∧ e.startup = { s.dev.startup with nextCause := 1 } ∧ Framed [.phase, .startup] [] s.dev e)) ∧
    ((s.dev.phase = .running ∨ s.dev.phase = .failSilent) → Completes .rstNLow s (stopped .reset 2)) ∧
    (s.dev.phase = .failSilent → Completes .fsHoldExpiry s (stopped .reset s.dev.startup.nextCause)) ∧
    (s.dev.phase = .keep → Completes .vkeepLoss s (fun e =>
      e.startup = { s.dev.startup with keepLost := true, nextCause := 0 } ∧ e.legal = { s.dev.legal with snap := none, outTamper := [] } ∧
        Framed [.startup, .legal] [] s.dev e))

/-- R32, R100, R450, R496, R499, R504: a start counts itself, keeps the ratings of the legal parameters, begins with all frame
counters at 0, no image in force and empty memory, and is elected or single as its image declares; with an unreadable root it
is fail-silent. -/
def Obligations.StartBegins : Prop :=
  ∀ (s : State) (x : StartIn), (s.dev.phase = .reset ∨ s.dev.phase = .keep) → x.testEn = false →
    let kept := x.keepOk && !s.dev.startup.keepLost
    let cause := if s.dev.startup.nextCause ≤ 1 then (if kept then 1 else 0) else s.dev.startup.nextCause
    let d := startStatus x cause (bootDev x kept cause (restoredNor s.dev))
    (x.rootOk = false → CompletesMem (.startUp x) s (fun e m =>
      m = [] ∧ e.phase = .failSilent ∧ on e 0x1C8 0 = 5 ∧ on e 0x600 1 = cause ∧ e.keys.rootLost = true)) ∧
    (x.rootOk = true → x.norFail = false → s.dev.update.fall = none → s.dev.update.activate = false → s.dev.keys.lcReq = none →
      on s.dev 0x500 0 ≠ 0 → on s.dev 0x706 1 ≠ 1 → bootOk d s.dev.update.run = true → CompletesMem (.startUp x) s (fun e m =>
        m = [] ∧ e.phase = .running ∧ on e 0x600 1 = cause ∧ on e 0x600 2 = on d 0x600 2 ∧
          (e.time.micro, e.time.minor, e.time.major, e.time.tick) = (0, 0, 0, 0) ∧ e.time.begun = false ∧
          e.sched.image = none ∧ e.pair.role = (if declaredPair s.dev then .electing else .single) ∧
          (∀ c, c < 64 → on e (0x2040 + c) 1 = on s.dev (0x2040 + c) 1) ∧ on e 0x500 0 = on s.dev 0x500 0))

/-- R100, R484, R500, R501: the steps after the image is in force, and the copies of persistent values. -/
def Obligations.StartGoesOn : Prop :=
  ∀ (s : State), running s.dev = true →
    (∀ im, img? s.dev = some im → isActive s.dev = true → s.dev.time.m = 0 → (on s.dev 0x601 0).testBit 0 = false →
      (on s.dev 0x2200 0).testBit 10 = true → (∀ l ∈ attachedLanes s.dev, s.dev.startup.tried.contains l = true) →
      discEnded s.dev = true → seqPointsFresh s.dev im = true → Completes .chargeReady s (fun e =>
        raised e 0x0802 noInst = true ∧ (on e 0x601 0).testBit 0 = true ∧
          ((∃ l ∈ attachedLanes s.dev, (laneS s.dev l).st ≠ .up) → (on e 0x601 0).testBit 2 = true) ∧
          Framed [.startup] [(0x601, 0), (0x600, 9)] s.dev e)) ∧
    (yardOn s.dev = true → (on s.dev 0x601 0).testBit 1 = false → yardMissing s.dev ≠ [] → 120000 ≤ startMs s.dev →
      9 ∉ s.dev.startup.late → Completes .yardAssocDeadline s (fun e =>
        raised e 0x0A01 noInst = true ∧ e.startup = { s.dev.startup with late := 9 :: s.dev.startup.late } ∧
          Framed [.startup] [] s.dev e)) ∧
    (∀ num sub, okey num sub ∈ s.dev.os.norDirty → s.dev.startup.factoryNor = false → CompletesMem (.norCopyWritten num sub) s (fun e _ =>
      storeGet e.os.nor (okey num sub) = storeGet s.dev.os.cur (okey num sub) ∧ okey num sub ∉ e.os.norDirty ∧
        (hasKey s.dev num = true → alGet e.keys.nor num = some (instKey s.dev num)) ∧ e.keys.inst = s.dev.keys.inst ∧
        ((∀ st g, st < 32 → g < 4 → num ≠ oGrp st g 9) → e.stg = s.dev.stg) ∧
        (∀ st g, st < 32 → g < 4 → num = oGrp st g 9 → (stgS e st).groups.getD g {} = { (stgS s.dev st).groups.getD g {} with i2tNor := ((stgS s.dev st).groups.getD g {}).i2tFrom }) ∧
        Framed [.keys, .stg] [] s.dev e))

/-- R97, R107, R373, R374: READ, DESCRIBE and WRITE of an object in a session; without a session the answer is NO_SESSION. -/
def Obligations.ObjectsAreServed : Prop :=
  ∀ (s : State) (p : PduIn) (m : MSes),
    (hears s.dev p → p.obj < 2 ^ 17 → p.data = [] → sesOf? s.dev p.c = none → Completes (.readObj p) s (fun e =>
      replied e p.c (abortBytes p.tag p.obj p.sub 0x0103) ∧ Framed [.bus] (busObjs p.c.bus) s.dev e)) ∧
    (InSession s.dev p m → 4 ≤ xfersOf s.dev p.c ∨ 64 ≤ xfersAll s.dev → p.data = [] → Completes (.readObj p) s (fun e =>
      replied e p.c (abortBytes p.tag p.obj p.sub 0x0108) ∧ Framed [.bus] (busObjs p.c.bus) s.dev e)) ∧
    (InSession s.dev p m → xfersOf s.dev p.c < 4 → xfersAll s.dev < 64 →
      (p.data = [] → objCode s.dev p.obj p.sub = 0 → isDomain s.dev p.obj p.sub = false → readCheck s.dev m.role p.obj p.sub = 0 →
        steadyObj p.obj = true → (readVal m.role p.obj p.sub s.dev).1.length ≤ 56 → Completes (.readObj p) s (fun e =>
          replied e p.c (pduBytes 2 p.tag p.obj p.sub (readVal m.role p.obj p.sub s.dev).1) ∧
            Framed [.bus] (busObjs p.c.bus) s.dev e)) ∧
      (p.data = [] → objCode s.dev p.obj p.sub = 0 → isDomain s.dev p.obj p.sub = false → readCheck s.dev m.role p.obj p.sub ≠ 0 →
        steadyObj p.obj = true → Completes (.readObj p) s (fun e =>
          replied e p.c (abortBytes p.tag p.obj p.sub (readCheck s.dev m.role p.obj p.sub)) ∧ Framed [.bus] (busObjs p.c.bus) s.dev e)) ∧
      (∀ o k b, p.data = [] → findObj p.obj = some (o, k) → findSub o p.sub = some b → objCode s.dev p.obj p.sub = 0 →
        Completes (.describeObj p) s (fun e =>
          replied e p.c (pduBytes 0x0D p.tag p.obj p.sub (effDescriptor s.dev p.obj p.sub o b)) ∧
            Framed [.bus] (busObjs p.c.bus) s.dev e)) ∧
      (∀ w, s.dev.pair.role = .single → objCode s.dev p.obj p.sub = 0 → isDomain s.dev p.obj p.sub = false → p.obj ≠ 0x011 →
        steadyObj p.obj = true → writeCheck s.dev m.role p.obj p.sub p.data = (0, w) → w.level ≠ 0 → w.cmd = false →
        Completes (.writeObj p) s (fun e =>
          replied e p.c (pduBytes 4 p.tag p.obj p.sub []) ∧
            e.os.pend = s.dev.os.pend.filter (fun q => q.cmd || q.num != w.num || q.sub != w.sub) ++ [w] ∧
            OnlyParts [.bus] s.dev e ∧ SameObjects (busObjs p.c.bus) s.dev e)) ∧
      (p.data.length ≤ 56 → s.dev.pair.role = .standby → ownWrite p.obj = false → Completes (.writeObj p) s (fun e =>
        replied e p.c (abortBytes p.tag p.obj p.sub 0x010A) ∧ Framed [.bus] (busObjs p.c.bus) s.dev e))) ∧
    (∀ c v w, running s.dev = true → sesOf? s.dev c = some m → s.dev.pair.role = .single → v < 2 ^ 64 →
      writeCheck s.dev m.role 0x011 0 (natLe 8 v) = (0, w) → Completes (.featureAcceptedWrite c v) s (fun e =>
        answered e 0 = true ∧ w ∈ e.os.pend ∧ w.level = 3 ∧ (∀ x, sesOf? e c = some x → x.want = valNat w.val) ∧
          (sesOf? e c).isSome = true ∧ OnlyParts [.malpen] s.dev e ∧ SameObjects [] s.dev e))

/-- R375 to R378: transfers of a value in pieces. An initiate that is admitted opens a transfer and is answered; DATA appends, the
last one commits; ACK of the whole value, ABORT and a timeout end it. -/
def Obligations.TransfersMoveValues : Prop :=
  ∀ (s : State) (p : PduIn) (m : MSes), InSession s.dev p m →
    let has := fun (e : Dev) (x : Xfer) => x ∈ e.malpen.xf
    let room := xfersOf s.dev p.c < 4 ∧ xfersAll s.dev < 64
    let v := (readVal m.role p.obj p.sub s.dev).1
    let readable := readCheck s.dev m.role p.obj p.sub = 0 ∧ steadyObj p.obj = true ∧ 0 < v.length
    let first := v.take 56
    let frame := fun (e : Dev) => Framed [.bus, .malpen] (busObjs p.c.bus) s.dev e ∧ e.malpen.ses.length = s.dev.malpen.ses.length
    (p.data = [] → room → readable → Completes (.segRead p) s (fun e =>
      replied e p.c (initRsp p v.length 0) ∧ replied e p.c (offsetPdu 0x0A p.tag 0 first) ∧
        has e { client := p.c, tag := p.tag, num := p.obj, sub := p.sub, read := true, blk := 0, size := v.length, data := v, sent := first.length } ∧
        frame e)) ∧
    (∀ n, p.data = natLe 1 n ++ [0, 0, 0] → 1 ≤ n → n < 256 → blockView s.dev m = true → room → readable → on s.dev 0x3016 4 = 1 →
      Completes (.blkRead p) s (fun e =>
        replied e p.c (initRsp p v.length 1) ∧ replied e p.c (offsetPdu 0x0A p.tag 0 first) ∧
          has e { client := p.c, tag := p.tag, num := p.obj, sub := p.sub, read := true, blk := 1, size := v.length, data := v, sent := first.length } ∧
          frame e)) ∧
    (blockView s.dev m = false → p.data = [1, 0, 0, 0] → room → Completes (.blkRead p) s (fun e =>
      replied e p.c (abortBytes p.tag p.obj p.sub 0x0105) ∧ Framed [.bus] (busObjs p.c.bus) s.dev e)) ∧
    (∀ n, refusesWrite s.dev p.obj = false → p.data = natLe 4 n → 0 < n → n < 2 ^ 32 → initCheck s.dev m.role p.obj p.sub n = 0 → room →
      Completes (.segWrite p) s (fun e =>
        replied e p.c (initRsp p n 0) ∧
          has e { client := p.c, tag := p.tag, num := p.obj, sub := p.sub, read := false, blk := 0, size := n, data := [] } ∧ frame e)) ∧
    (∀ n b, refusesWrite s.dev p.obj = false → p.data = natLe 4 n ++ natLe 1 b ++ [0, 0, 0] → 0 < n → n < 2 ^ 32 → 1 ≤ b → b < 256 →
      blockView s.dev m = true → initCheck s.dev m.role p.obj p.sub n = 0 → room → Completes (.blkWrite p) s (fun e =>
        replied e p.c (initRsp p n (min b (on s.dev 0x3016 4))) ∧
          has e { client := p.c, tag := p.tag, num := p.obj, sub := p.sub, read := false, blk := min b (on s.dev 0x3016 4), size := n, data := [] } ∧
          frame e)) ∧
    (∀ t x, xferOf? s.dev p.c t = some x →
      let q : PduIn := { p with tag := t }
      let gone := fun (e : Dev) => xferOf? e p.c t = none
      (1 ≤ p.data.length → x.read = false → x.blk = 0 → pduOffset q = x.data.length → x.data.length + p.data.length < x.size →
        Completes (.dataPdu q) s (fun e =>
          replied e p.c (offsetPdu 0x0B t (x.data.length + p.data.length) []) ∧
            xferOf? e p.c t = some { x with data := x.data ++ p.data, k := 0 } ∧ frame e)) ∧
      (1 ≤ p.data.length → x.read = false → x.blk = 0 → pduOffset q ≠ x.data.length → Completes (.dataPdu q) s (fun e =>
        replied e p.c (offsetPdu 0x0B t x.data.length []) ∧ xferOf? e p.c t = some x ∧ frame e)) ∧
      (∀ w, 1 ≤ p.data.length → x.read = false → pduOffset q = x.data.length → x.data.length + p.data.length = x.size →
        s.dev.pair.role = .single → x.num ≠ 0x011 → steadyObj x.num = true →
        writeCheck s.dev m.role x.num x.sub (x.data ++ p.data) = (0, w) → w.level ≠ 0 → Completes (.dataPdu q) s (fun e =>
          replied e p.c (offsetPdu 0x0B t x.size []) ∧ w ∈ e.os.pend ∧ gone e ∧ SameObjects (busObjs p.c.bus) s.dev e)) ∧
      (x.read = true → p.data = [] → pduOffset q = x.size → x.size ≤ x.sent → Completes (.ackPdu q) s (fun e => gone e ∧ frame e)) ∧
      (x.read = true → p.data = [] → x.blk = 0 → pduOffset q ≤ x.sent → pduOffset q ≠ x.size → pduOffset q < x.data.length →
        Completes (.ackPdu q) s (fun e =>
          replied e p.c (offsetPdu 0x0A t (pduOffset q) ((x.data.drop (pduOffset q)).take 56)) ∧ frame e)) ∧
      (∀ code, p.data = natLe 2 code ++ [0, 0] → Completes (.abortPdu q) s (fun e => gone e ∧ frame e)) ∧
      (Completes (.transferTimeout p.c t) s (fun e =>
        gone e ∧ replied e p.c (abortBytes t x.num x.sub 0x0102) ∧ Framed [.bus, .malpen] [] s.dev e)))

/-- R379, R380: a session is opened by a proof under its role's access key, and closed or ended; over UDP a datagram counts only
with a new counter and its MAC. -/
def Obligations.SessionsOfClients : Prop :=
  ∀ (s : State) (p : PduIn),
    (hears s.dev p → p.obj < 2 ^ 17 →
      (∀ role notify n, p.data = natLe 1 role ++ natLe 1 notify ++ [0, 0] ++ n → n.length = 16 → role ≤ 3 → notify ≤ 4 →
        s.dev.malpen.ses.length < 32 → Completes (.openSession p) s (fun e =>
          (⟨p.c, role, notify, n, Config.random s.dev.draws 16⟩ : MOpen) ∈ e.malpen.opens ∧ sesOf? e p.c = none ∧
            replied e p.c (pduBytes 0x11 p.tag p.obj p.sub (Config.random s.dev.draws 16 ++ padTo 16 (ob s.dev 0x003 0))) ∧
            OnlyParts [.malpen, .bus, .draws] s.dev e ∧ e.os.pend = s.dev.os.pend)) ∧
      (∀ o k, s.dev.malpen.opens.find? (fun x => x.client == p.c) = some o → lcRoleOk (lcState s.dev) o.role = true →
        accessKey s.dev o.role = some k → p.data.length = 16 →
        let proof := (hmac256 k (natLe 1 o.role ++ o.cn ++ o.dn ++ padTo 16 (ob s.dev 0x003 0))).take 16
        (p.data = proof → s.dev.malpen.ses.length < 32 → sesOf? s.dev p.c = none → Completes (.proveSession p) s (fun e =>
          (∃ x, sesOf? e p.c = some x ∧ x.role = o.role ∧ x.num = s.dev.malpen.nextNum % 65536 ∧ x.notify = o.notify ∧
            x.key = hmac256 k (ascii "MLPNSES" ++ o.cn ++ o.dn)) ∧
            on e 0x3015 1 = s.dev.malpen.ses.length + 1 ∧ (∀ x ∈ e.malpen.opens, x.client ≠ p.c) ∧
            replied e p.c (pduBytes 0x13 p.tag p.obj p.sub (natLe 2 (s.dev.malpen.nextNum % 65536) ++ natLe 2 0)) ∧
            Framed [.malpen, .bus] ((0x3015, 1) :: busObjs p.c.bus) s.dev e)) ∧
        (p.data ≠ proof → Completes (.proveSession p) s (fun e =>
          raised e 0x5A04 p.c.bus = true ∧ replied e p.c (abortBytes p.tag p.obj p.sub 0x0104) ∧
            (∀ x ∈ e.malpen.opens, x.client ≠ p.c) ∧ (∀ c, (sesOf? e c).isSome = (sesOf? s.dev c).isSome) ∧
            Framed [.malpen, .bus] (busObjs p.c.bus) s.dev e))) ∧
      (p.data = [] → (sesOf? s.dev p.c).isSome = true → Completes (.closeSession p) s (fun e =>
        sesOf? e p.c = none ∧ (∀ x ∈ e.malpen.xf, x.client ≠ p.c) ∧ replied e p.c (pduBytes 0x14 p.tag p.obj p.sub []) ∧
          OnlyParts [.malpen, .bus] s.dev e ∧ e.os.pend = s.dev.os.pend))) ∧
    (∀ c, running s.dev = true → Completes (.sessionIdleTimeout c) s (fun e =>
      sesOf? e c = none ∧ ((sesOf? s.dev c).isSome = true → ∀ x ∈ e.malpen.xf, x.client ≠ c) ∧
        (∀ k, k ≠ c → (sesOf? e k).isSome = (sesOf? s.dev k).isSome) ∧ OnlyParts [.malpen, .bus] s.dev e ∧ e.os.pend = s.dev.os.pend)) ∧
    (∀ src dst port ses counter pdu mac, running s.dev = true → ownUdp s.dev dst port = true → ringSize s.dev 11 ≠ 0 →
      ringIdle s.dev 11 = false → 0 < ringRoom s.dev 11 → Completes (.udpDatagram src dst port ses counter pdu { mac := mac }) s (fun e =>
        (ring e 11).q = (ring s.dev 11).q ++ [{ own := some (.datagram src ses counter pdu mac none) }] ∧ Framed [] [] s.dev e)) ∧
    (∀ src dst port ses counter pdu mac, running s.dev = true → ownUdp s.dev dst port = true → ringSize s.dev 11 ≠ 0 →
      ringIdle s.dev 11 = true → ringSize s.dev 12 ≠ 0 → ringIdle s.dev 12 = true →
      let c : Client := ⟨4, src⟩
      let sound := fun (x : MSes) => x.num = ses ∧ (∀ r, x.rx = some r → r < counter) ∧ counter < 2 ^ 32 ∧
        (hmac256 x.key (natLe 2 ses ++ natLe 4 counter ++ pdu)).take 8 = mac
      (mac ≠ [] → (∀ x, sesOf? s.dev c = some x → ¬ sound x) → Completes (.udpDatagram src dst port ses counter pdu { mac := mac }) s (fun e =>
        on e 0x300B 9 = incSat 32 (on s.dev 0x300B 9) ∧ Framed [] [(0x300B, 9)] s.dev e)) ∧
      (∀ x q, sesOf? s.dev c = some x → sound x → pduOf c pdu none = some (1, q) → q.obj < 2 ^ 17 → q.data = [] → xferOf? s.dev c q.tag = none → tagWaits s.dev c q.tag = false →
        xfersOf s.dev c < 4 → xfersAll s.dev < 64 → objCode s.dev q.obj q.sub = 0 → isDomain s.dev q.obj q.sub = false → readCheck s.dev x.role q.obj q.sub = 0 →
        steadyObj q.obj = true → (readVal x.role q.obj q.sub s.dev).1.length ≤ 1216 → Completes (.udpDatagram src dst port ses counter pdu { mac := mac }) s (fun e =>
          (∃ y, sesOf? e c = some y ∧ y.rx = some counter) ∧
            (∃ t, .udp src (pduBytes 2 q.tag q.obj q.sub (readVal x.role q.obj q.sub s.dev).1 ++ t) ∈ e.sent) ∧ Framed [.malpen] [] s.dev e))) ∧
    (∀ src tag dst port, running s.dev = true → ringSize s.dev 11 ≠ 0 → ringIdle s.dev 11 = true → ringSize s.dev 12 ≠ 0 →
      ringIdle s.dev 12 = true →
      ownUdp s.dev dst port = true ∨ (dst = discoveryGroup ∧ port = on s.dev 0x3017 3) → Completes (.udpDiscovery { addr := src, tag := tag } dst port) s (fun e =>
      .udpIdent src (pduBytes 0x19 tag 0 0 (natLe 4 Config.vendorId ++ natLe 4 Config.modelId ++ natLe 1 0 ++ natLe 7 0 ++
        padTo 16 (ob s.dev 0x003 0))) ∈ e.sent ∧ Framed [] [] s.dev e))

/-- R543 to R547, R551: what the monitor answers to each command, what unlocks it and what locks it again. -/
def Obligations.MonitorAnswers : Prop :=
  ∀ (s : State) (f : MonIn),
    let d := s.dev
    let quiet := fun (e : Dev) => Framed [] [] d e
    (MonFrame d f 1 → f.len = 0 → Completes (.monPing f) s (fun e =>
      monSaid e f 0 (padTo 16 (ob d 0x003 0) ++ natLe 4 (on d 0x3401 0)) ∧ quiet e)) ∧
    (MonFrame d f 2 → f.len = 0 → Completes (.monChallenge f) s (fun e =>
      let n := Config.random d.draws 16
      monSaid e f 0 (n ++ padTo 16 (ob d 0x003 0)) ∧ e.mon.nonce = some n ∧ e.draws = d.draws + 1 ∧ e.mon.role = d.mon.role ∧
        Framed [.mon, .draws] [] d e)) ∧
    (∀ role k n mac, MonFrame d f 3 → f.len = 20 → d.mon.lockout = false → f.payload = natLe 1 role ++ [0, 0, 0] ++ mac → mac.length = 16 →
      (role = 1 ∨ role = 3) → (lcState d = 3 → role = 3) → accessKey d role = some k → d.mon.nonce = some n →
      let proof := (hmac256 k (ascii "AQPOL" ++ natLe 1 role ++ n ++ padTo 16 (ob d 0x003 0))).take 16
      (mac = proof → Completes (.monUnlock f) s (fun e =>
        monSaid e f 0 [] ∧ e.mon.role = some role ∧ e.mon.fails = 0 ∧ e.mon.nonce = none ∧ raised e 0x9001 noInst = true ∧
          (on e 0x3401 0).testBit 0 = true ∧ Framed [.mon] [] d e)) ∧
      (mac ≠ proof → Completes (.monUnlock f) s (fun e =>
        monSaid e f 0x0104 [] ∧ e.mon.role = d.mon.role ∧ e.mon.fails = d.mon.fails + 1 ∧ (2 ≤ d.mon.fails → e.mon.lockout = true) ∧
          e.mon.nonce = none ∧ raised e 0x9201 noInst = true ∧ Framed [.mon] [] d e))) ∧
    (MonFrame d f 3 → f.len = 20 → d.mon.lockout = true → Completes (.monUnlock f) s (fun e => monSaid e f 0x0202 [] ∧ quiet e)) ∧
    (MonFrame d f 4 → f.len = 0 → Completes (.monLock f) s (fun e =>
      monSaid e f 0 [] ∧ e.mon.role = none ∧ (d.mon.role ≠ none → raised e 0x9002 noInst = true ∧ (on e 0x3401 0).testBit 0 = false) ∧
        Framed [.mon] [] d e)) ∧
    (MonFrame d f 5 → f.len = 0 → Completes (.monStatus f) s (fun e =>
      monSaid e f 0 (natLe 4 (on d 0x3401 0) ++ natLe 4 (on d 0x1A0 0) ++ natLe 4 (on d 0x400 0) ++ natLe 4 (on d 0x680 0)) ∧ quiet e)) ∧
    (∀ c n g, d.mon.role = none → MonFrame d f c → (c, n, g) ∈ [(0x10, 12, Instr.monRead f), (0x11, f.len, Instr.monWrite f),
        (0x12, 4, Instr.monDescribe f), (0x20, 4, Instr.monTrace f), (0x30, 8, Instr.monMemRead f)] → f.len = n → 4 ≤ n →
      Completes g s (fun e => monSaid e f 0x0201 [] ∧ quiet e)) ∧
    (∀ r, d.mon.role = some r →
      (∀ num sub off n, MonFrame d f 0x10 → f.len = 12 → f.payload = natLe 3 num ++ natLe 1 sub ++ natLe 4 off ++ natLe 2 n ++ [0, 0] →
        num < 2 ^ 24 → sub < 256 → off < 2 ^ 32 → 1 ≤ n → n ≤ 1024 → readCheck d r num sub = 0 → steadyObj num = true → num ≠ 0x3403 →
        Completes (.monRead f) s (fun e => monSaid e f 0 (slice (readVal r num sub (accessWord f.word num sub d)).1 off n) ∧ (f.word = none → quiet e))) ∧
      (∀ num sub v w, MonFrame d f 0x11 → f.len = 4 + v.length → f.payload = natLe 3 num ++ natLe 1 sub ++ v → num < 2 ^ 24 → sub < 256 →
        v.length ≤ 1000 → d.pair.role = .single → objCode d num sub = 0 → isDomain d num sub = false → num ≠ 0x011 →
        writeCheck d r num sub v = (0, w) → w.level ≠ 0 → w.cmd = false → Completes (.monWrite f) s (fun e =>
          monSaid e f 0 [] ∧ e.os.pend = d.os.pend.filter (fun q => q.cmd || q.num != w.num || q.sub != w.sub) ++ [w] ∧
            OnlyParts [] d e ∧ SameObjects [] d e)) ∧
      (∀ num sub o k b, MonFrame d f 0x12 → f.len = 4 → f.payload = natLe 3 num ++ natLe 1 sub → num < 2 ^ 24 → sub < 256 →
        objCode d num sub = 0 → findObj num = some (o, k) → findSub o sub = some b → Completes (.monDescribe f) s (fun e =>
          monSaid e f 0 (effDescriptor d num sub o b) ∧ quiet e)) ∧
      (∀ m, MonFrame d f 0x20 → f.len = 4 → f.payload = natLe 4 m → m < 16 → (m = 0 ∨ ringSize d 15 ≠ 0) → d.ev.fresh = [] →
        Completes (.monTrace f) s (fun e => monSaid e f 0 [] ∧ on e 0x3402 1 = m ∧ quiet e)) ∧
      (∀ a n, r = 3 → (lcState d = 0 ∨ lcState d = 5) → MonFrame d f 0x30 → f.len = 8 → f.payload = natLe 4 a ++ natLe 2 n ++ [0, 0] →
        1 ≤ n → n ≤ 1024 → a + n ≤ 0x3000000 → Completes (.monMemRead f) s (fun e =>
          monSaid e f 0 ((List.range n).map (fun i => memRead s.mem (a + i))) ∧ quiet e)) ∧
      (running d = true → Completes .monIdleTimeout s (fun e =>
        e.mon.role = none ∧ raised e 0x9002 noInst = true ∧ Framed [.mon] [] d e))) ∧
    (running d = true → Completes .monBreak s (fun e =>
      e.mon.role = none ∧ e.mon.broke = true ∧ (on e 0x3401 0).testBit 5 = true ∧ e.pair.queue.length = d.pair.queue.length ∧
        (∀ q ∈ e.pair.queue, ∀ n, q.reply ≠ .monitor n) ∧ Framed [.mon, .pair] [] d e)) ∧
    (running d = true → d.mon.lockout = true → Completes .lockoutEnd s (fun e =>
      e.mon.lockout = false ∧ e.mon.fails = 0 ∧ e.mon.role = d.mon.role ∧ Framed [.mon] [] d e)) ∧
    (running d = true → d.ev.fresh = [] →
      Completes .monFrameGapTimeout s (fun e => on e 0x3403 3 = incSat 32 (on d 0x3403 3) ∧ quiet e) ∧
      (monBad f = true → Completes (.monPing f) s (fun e =>
        on e 0x3403 3 = incSat 32 (on d 0x3403 3) ∧ on e 0x3403 1 = on d 0x3403 1 ∧ quiet e)))

/-- R35, R95 to R97, R379, R464: every write row admits the write of the object it names by the same rules. A unit that does not
run ignores it; a standby unit refuses it; a refusal answers its code and changes nothing; an accepted write of a frame level
waits for its boundary, in place of a waiting value of the same subindex; with a partner present it is queued for the partner
first. -/
def Obligations.WritesAreAdmitted : Prop :=
  ∀ (c : Instr) (w : Write) (s : State), writeOf c = some w →
    let r := writeCheck s.dev w.role w.num w.sub w.value
    (running s.dev = false → Completes c s (Framed [] [] s.dev)) ∧
    (running s.dev = true → s.dev.pair.role = .standby → ownWrite w.num = false → Completes c s (fun e =>
      answered e 0x010A = true ∧ Framed [] [] s.dev e)) ∧
    (running s.dev = true → (s.dev.pair.role ≠ .standby ∨ ownWrite w.num = true) →
      (r.1 ≠ 0 → Completes c s (fun e => answered e r.1 = true ∧ Framed [] [] s.dev e)) ∧
      (r.1 = 0 → viaPartner s.dev w.num = false → r.2.level ≠ 0 → Completes c s (fun e =>
        answered e 0 = true ∧
          e.os.pend = (if r.2.cmd = true then s.dev.os.pend
            else s.dev.os.pend.filter (fun q => q.cmd || q.num != w.num || q.sub != w.sub)) ++ [r.2] ∧
          OnlyParts [] s.dev e ∧ SameObjects [] s.dev e)) ∧
      (r.1 = 0 → viaPartner s.dev w.num = true → w.num ≠ 0x405 → Completes c s (fun e =>
        answered e 0 = true ∧ e.pair.queue = s.dev.pair.queue ++ [⟨r.2, .none⟩] ∧ Framed [.pair] [] s.dev e)))

/-- R46, R302, R303, R308, R381, R413, R431, R472, R480, R514, R515, R519, R525: what the commands and values without a frame
level do as soon as they are accepted on a unit that works alone. -/
def Obligations.WritesActAtOnce : Prop :=
  ∀ (s : State) (role : Nat), running s.dev = true →
    let d := s.dev
    let ok := fun (num sub : Nat) (v : Bytes) => d.pair.role = .single ∧ (writeCheck d role num sub v).1 = 0
    let u := d.update
    (∀ v, v < 2 ^ 64 → ok 0x188 0 (natLe 8 v) → Completes (.timeNowWrite role v) s (fun e =>
      answered e 0 = true ∧ e.time = { d.time with civilStep := some v } ∧ Framed [.time] [] d e)) ∧
    (∀ off : Int, -(2 ^ 63) ≤ off → off < 2 ^ 63 → ok 0x189 0 (natLe 8 (ofS 64 off)) → Completes (.timeAdjustWrite role off) s (fun e =>
      answered e 0 = true ∧ e.time = { d.time with slew := off * 10000 } ∧ Framed [.time] [] d e)) ∧
    (∀ c n, Serves d c n → sesState d n = 3 →
      (ok (oSes n 6) 0 (natLe 1 1) → Completes (.sesAuthWrite role n 1) s (fun e =>
        on e (oSes n 6) 0 = 1 ∧ SessionOnly n c d e ∧ ((ctx d n).asked = true → sesState e n = 4) ∧
          ((ctx d n).asked = false → sesState e n = 3 ∧ ctx e n = ctx d n))) ∧
      (ok (oSes n 6) 0 (natLe 1 2) → Completes (.sesAuthWrite role n 2) s (fun e => sesEnded n c 5 false d e ∧ SessionOnly n c d e))) ∧
    (∀ c n, Serves d c n → 3 ≤ sesState d n → sesState d n ≤ 7 → ok (oSes n 8) 0 (natLe 1 1) →
      Completes (.sesStopWrite role n 1) s (fun e => sesEnded n c 3 false d e ∧ SessionOnly n c d e)) ∧
    (∀ n v, n < 256 → v < 256 → ok (oSes n 9) 0 (natLe 1 v) → Completes (.sesDirWrite role n v) s (fun e =>
      answered e 0 = true ∧ on e (oSes n 9) 0 = v ∧ Framed [] [(oSes n 9, 0)] d e)) ∧
    (∀ m k, m < 16 → k < 4 → ok 0x318 0 (natLe 1 m) → Completes (.sesKeyRollWrite role m) s (fun e =>
      on e 0x503 (5 + k) = (if m.testBit k then on d 0x503 (5 + k) + 1 else on d 0x503 (5 + k)) ∧
        (m.testBit k = true → raised e 0x8001 (4 + k) = true) ∧ OnlyParts [] d e ∧ e.os.pend = d.os.pend)) ∧
    (∀ k b, k < 4 → ok (0x311 + 2 * k) 0 b → Completes (.sesChainWrite role k b) s (fun e =>
      answered e 0 = true ∧ ob e (0x311 + 2 * k) 0 = b ∧ Framed [] [(0x311 + 2 * k, 0)] d e)) ∧
    (∀ m b, m < 16 → b < 4 → m.testBit b = true → fbMaySend d b = true → ok 0x300C 3 (natLe 1 m) →
      Completes (.discoveryStartWrite role m) s (fun e =>
        fbBit e b 8 = true ∧ (fbS e b).round = 0 ∧ (fbS e b).newIdent = false ∧
          (∃ f ∈ (fbS e b).tx, f.id = canId 5 0x10 0xFF 0 ∧ byteAt f.payload 0 = 0x18) ∧ OnlyParts [.bus] d e ∧ e.os.pend = d.os.pend)) ∧
    (∀ a i p, a < 65536 → (bindings d).find? (fun q => q.2 == a) = some p → nodeIdx a = some i → ok 0x3105 0 (natLe 2 a) →
      Completes (.yardForgetWrite role a) s (fun e =>
        bindings e = (bindings d).filter (fun q => q.2 != a) ∧ nodeState e i = 0 ∧ alGet e.yard.routes a = none ∧
          OnlyParts [.yard] d e ∧ e.os.pend = d.os.pend)) ∧
    (d.pair.role = .active → partnerPresent d = true → (writeCheck d role 0x405 0 (natLe 1 1)).1 = 0 →
      Completes (.pairSwitchWrite role 1) s (fun e =>
        answered e 0 = true ∧ (∃ q, e.pair.queue = d.pair.queue ++ [q] ∧ q.pend.val = .num (switchVal (switchH d) 1)) ∧
          Framed [.pair] [] d e)) ∧
    (∀ v, v < 256 → ok 0x501 1 (natLe 1 v) → Completes (.lcReqWrite role 1 (natLe 1 v)) s (fun e =>
      e.keys = { d.keys with lcT := v } ∧ Framed [.keys] [] d e)) ∧
    (∀ b, ok 0x501 3 b → (d.keys.lcU = 0xFF ∨ d.keys.lcU = on d 0x403 0) → Completes (.lcReqWrite role 3 b) s (fun e =>
      e.keys = { d.keys with lcReq := if d.keys.lcT = lcState d then none else some d.keys.lcT } ∧
        Framed [.keys, .mon] [(0x502, 0)] d e)) ∧
    (∀ k sub b, k < 16 → sub < 256 → ok (0x530 + k) sub b → Completes (.keyPubWrite role k sub b) s (fun e =>
      answered e 0 = true ∧ ov e (0x530 + k) sub = (writeCheck d role (0x530 + k) sub b).2.val ∧
        Framed [] [(0x530 + k, sub)] d e)) ∧
    (∀ b, ok 0x701 3 b → Completes (.updBeginWrite role 3 b) s (fun e =>
      e.update.isOpen = true ∧ e.update.digest = b ∧ e.update.got = [] ∧ e.update.stage = none ∧
        e.update.size = updArg d 0x701 1 ∧ e.update.piece = updArg d 0x701 2 ∧ on e 0x704 1 = 1 ∧ (on e 0x700 0).testBit 0 = true ∧
        OnlyParts [.update] d e ∧ e.os.pend = d.os.pend)) ∧
    (∀ b, ok 0x702 0 b → Completes (.updPieceWrite role b) s (fun e =>
      alGet e.update.got (fieldLe b 0 4) = some (b.drop 8) ∧ (∀ j, j ≠ fieldLe b 0 4 → alGet e.update.got j = alGet u.got j) ∧
        (role ≠ 2 → e.update.metro = false) ∧ OnlyParts [.update] d e ∧ e.os.pend = d.os.pend)) ∧
    (∀ v, v < 256 → ok 0x705 2 (natLe 1 v) → namesMe d (updArg d 0x705 1) = true →
      updActivateCheck d (updArg d 0x705 1) (decide (v ≠ 0)) = 0 → Completes (.updActivateWrite role 2 v) s (fun e =>
        e.update = { u with activate := true } ∧ e.startup = { d.startup with restartDue := true } ∧
          on e 0x700 0 = setBit (on d 0x700 0) 2 ∧ Framed [.update, .startup] [(0x700, 0)] d e)) ∧
    (∀ v, v < 256 → ok 0x708 0 (natLe 1 v) → namesMe d v = true → inTrial d = true → restartCheck d false = 0 →
      Completes (.updRejectWrite role v) s (fun e =>
        e.update = { u with fall := some 2 } ∧ e.startup = { d.startup with restartDue := true } ∧
          on e 0x700 0 = setBit (on d 0x700 0) 2 ∧ Framed [.update, .startup] [(0x700, 0)] d e)) ∧
    (∀ m, m < 65536 → ok 0x3210 0 (natLe 4 (65536 * m)) → CompletesMem (.ringStartWrite role m) s (fun e _ =>
      answered e 0 = true ∧ (writeCheck d role 0x3210 0 (natLe 4 (65536 * m))).2 ∈ e.os.pend))

/-- R27, R172, R200, R242, R244, R250, R260, R280, R281, R434: what the clears and commands that wait for a boundary do when it
comes. -/
def Obligations.ClearsTakeEffect : Prop :=
  ∀ (d : Dev) (role level v : Nat),
    let act := fun (num sub : Nat) => applyPend { num := num, sub := sub, val := .num v, level := level, cmd := true, role := role } d
    (v = 4 → (on d 0x185 0).testBit 2 = true →
      ((on d 0x185 0).testBit 0 = true → on (act 0x185 0) 0x185 0 = clearBit (on d 0x185 0) 2 ∧ (act 0x185 0).time = { d.time with src := .refclk }) ∧
      ((on d 0x185 0).testBit 0 = false → on (act 0x185 0) 0x185 0 = on d 0x185 0 ∧ (act 0x185 0).time = d.time)) ∧
    (∀ k, k < 32 → on d (oStg k 0x0B) 0 &&& v ≠ 0 → on (act (oStg k 0x0C) 0) (oStg k 0x0B) 0 = clearMask (on d (oStg k 0x0B) 0) v ∧
      alGet (act (oStg k 0x0C) 0).lanes.clearBlock k = some true) ∧
    (∀ k, k < 32 → v < 16 → on (act (oStg k 0x106) 0) (oStg k 0x105) 0 = clearMask (on d (oStg k 0x105) 0) (v * 0x1110)) ∧
    (∀ c, c < 64 → v = 1 → (nSeq d c).state = 7 → (nSeq (act (oCon c 0x35) 0) c).state = 0 ∧ (nSeq (act (oCon c 0x35) 0) c).cmd = clearBit (nSeq d c).cmd 17 ∧
      (nSeq (act (oCon c 0x35) 0) c).need0 = true ∧ on (act (oCon c 0x35) 0) (oCon c 0x32) 1 = 0) ∧
    (∀ t, t < 4 → v.testBit t = true → (nSeq d (64 + t)).state = 7 → (nSeq (act 0x101F 0) (64 + t)).state = 0 ∧
      (nSeq (act 0x101F 0) (64 + t)).cmd = clearBit (nSeq d (64 + t)).cmd 17) ∧
    (∀ k g, k < 32 → g < 4 → (gSeq d k g).state = 9 →
      gSeq (act (oStg k 0x180) 0) k g = if v.testBit g then (gSeq d k g).idle else gSeq d k g) ∧
    (∀ c j, c < 64 → j < 2 → v.testBit j = true → (on d (oCon c 0x41) 3).testBit j = true →
      thKey false c j ∈ (act (oCon c 0x48) 0).therm.clearDue) ∧
    (∀ k, k < 32 → v.testBit 0 = true → oflag d (oStg k 0x1C1) 2 = true → thKey true k 2 ∈ (act (oStg k 0x1C3) 0).therm.clearDue) ∧
    (v.testBit 0 = true → oflag d 0x285 5 = true → 200 ∈ (act 0x286 0).therm.clearDue) ∧
    (∀ n, n < 32 → v = 1 → (lch (act (oLch n 4) 0) n).locked = false ∧ (lch (act (oLch n 4) 0) n).retries = 0 ∧
      (lch (act (oLch n 4) 0) n).latch = (lch d n).latch) ∧
    (∀ n, n < 32 → v = 2 → (lch (act (oLch n 4) 0) n).latch = false ∧ (lch (act (oLch n 4) 0) n).locked = (lch d n).locked) ∧
    (v = 1 → (on d 0x3300 0).testBit 2 = true → (act 0x3304 0).flash.fmt = 1 ∧ raised (act 0x3304 0) 0x7001 noInst = true ∧
      (on (act 0x3304 0) 0x3300 0).testBit 0 = true ∧ (on (act 0x3304 0) 0x3300 0).testBit 2 = false) ∧
    (∀ r, 13 ≤ r → r ≤ 15 → v.testBit r = false → v.testBit (r + 16) = true → (ring (act 0x3210 0) r).stopReq = false ∧
      on (act 0x3210 0) (0x3200 + r) 7 = 0)

end Statements
end

