-- ==== Sys2Proof/Laws/State.lean ====
section
/-! SUPPORT. What each named update of the device leaves alone and what it writes, one lemma per component and update, all
true by definition: no proof needs to unfold a record update. -/

namespace Sys2Proof.Machine

variable (d : Dev)

/-! ### put -/

@[simp] theorem put_phase (num sub n : Nat) : (put num sub n d).phase = d.phase := rfl
@[simp] theorem put_time (num sub n : Nat) : (put num sub n d).time = d.time := rfl
@[simp] theorem put_sched (num sub n : Nat) : (put num sub n d).sched = d.sched := rfl
@[simp] theorem put_guard (num sub n : Nat) : (put num sub n d).guard = d.guard := rfl
@[simp] theorem put_ev (num sub n : Nat) : (put num sub n d).ev = d.ev := rfl
@[simp] theorem put_lanes (num sub n : Nat) : (put num sub n d).lanes = d.lanes := rfl
@[simp] theorem put_stg (num sub n : Nat) : (put num sub n d).stg = d.stg := rfl
@[simp] theorem put_energy (num sub n : Nat) : (put num sub n d).energy = d.energy := rfl
@[simp] theorem put_therm (num sub n : Nat) : (put num sub n d).therm = d.therm := rfl
@[simp] theorem put_lch (num sub n : Nat) : (put num sub n d).lch = d.lch := rfl
@[simp] theorem put_ses (num sub n : Nat) : (put num sub n d).ses = d.ses := rfl
@[simp] theorem put_dma (num sub n : Nat) : (put num sub n d).dma = d.dma := rfl
@[simp] theorem put_flash (num sub n : Nat) : (put num sub n d).flash = d.flash := rfl
@[simp] theorem put_keys (num sub n : Nat) : (put num sub n d).keys = d.keys := rfl
@[simp] theorem put_legal (num sub n : Nat) : (put num sub n d).legal = d.legal := rfl
@[simp] theorem put_bus (num sub n : Nat) : (put num sub n d).bus = d.bus := rfl
@[simp] theorem put_malpen (num sub n : Nat) : (put num sub n d).malpen = d.malpen := rfl
@[simp] theorem put_yard (num sub n : Nat) : (put num sub n d).yard = d.yard := rfl
@[simp] theorem put_pair (num sub n : Nat) : (put num sub n d).pair = d.pair := rfl
@[simp] theorem put_startup (num sub n : Nat) : (put num sub n d).startup = d.startup := rfl
@[simp] theorem put_update (num sub n : Nat) : (put num sub n d).update = d.update := rfl
@[simp] theorem put_mon (num sub n : Nat) : (put num sub n d).mon = d.mon := rfl
@[simp] theorem put_draws (num sub n : Nat) : (put num sub n d).draws = d.draws := rfl
@[simp] theorem put_sent (num sub n : Nat) : (put num sub n d).sent = d.sent := rfl
@[simp] theorem put_moved (num sub n : Nat) : (put num sub n d).moved = d.moved := rfl

/-! ### puti -/

@[simp] theorem puti_phase (w num sub : Nat) (i : Int) : (puti w num sub i d).phase = d.phase := rfl
@[simp] theorem puti_time (w num sub : Nat) (i : Int) : (puti w num sub i d).time = d.time := rfl
@[simp] theorem puti_sched (w num sub : Nat) (i : Int) : (puti w num sub i d).sched = d.sched := rfl
@[simp] theorem puti_guard (w num sub : Nat) (i : Int) : (puti w num sub i d).guard = d.guard := rfl
@[simp] theorem puti_ev (w num sub : Nat) (i : Int) : (puti w num sub i d).ev = d.ev := rfl
@[simp] theorem puti_lanes (w num sub : Nat) (i : Int) : (puti w num sub i d).lanes = d.lanes := rfl
@[simp] theorem puti_stg (w num sub : Nat) (i : Int) : (puti w num sub i d).stg = d.stg := rfl
@[simp] theorem puti_energy (w num sub : Nat) (i : Int) : (puti w num sub i d).energy = d.energy := rfl
@[simp] theorem puti_therm (w num sub : Nat) (i : Int) : (puti w num sub i d).therm = d.therm := rfl
@[simp] theorem puti_lch (w num sub : Nat) (i : Int) : (puti w num sub i d).lch = d.lch := rfl
@[simp] theorem puti_ses (w num sub : Nat) (i : Int) : (puti w num sub i d).ses = d.ses := rfl
@[simp] theorem puti_dma (w num sub : Nat) (i : Int) : (puti w num sub i d).dma = d.dma := rfl
@[simp] theorem puti_flash (w num sub : Nat) (i : Int) : (puti w num sub i d).flash = d.flash := rfl
@[simp] theorem puti_keys (w num sub : Nat) (i : Int) : (puti w num sub i d).keys = d.keys := rfl
@[simp] theorem puti_legal (w num sub : Nat) (i : Int) : (puti w num sub i d).legal = d.legal := rfl
@[simp] theorem puti_bus (w num sub : Nat) (i : Int) : (puti w num sub i d).bus = d.bus := rfl
@[simp] theorem puti_malpen (w num sub : Nat) (i : Int) : (puti w num sub i d).malpen = d.malpen := rfl
@[simp] theorem puti_yard (w num sub : Nat) (i : Int) : (puti w num sub i d).yard = d.yard := rfl
@[simp] theorem puti_pair (w num sub : Nat) (i : Int) : (puti w num sub i d).pair = d.pair := rfl
@[simp] theorem puti_startup (w num sub : Nat) (i : Int) : (puti w num sub i d).startup = d.startup := rfl
@[simp] theorem puti_update (w num sub : Nat) (i : Int) : (puti w num sub i d).update = d.update := rfl
@[simp] theorem puti_mon (w num sub : Nat) (i : Int) : (puti w num sub i d).mon = d.mon := rfl
@[simp] theorem puti_draws (w num sub : Nat) (i : Int) : (puti w num sub i d).draws = d.draws := rfl
@[simp] theorem puti_sent (w num sub : Nat) (i : Int) : (puti w num sub i d).sent = d.sent := rfl
@[simp] theorem puti_moved (w num sub : Nat) (i : Int) : (puti w num sub i d).moved = d.moved := rfl

/-! ### putq -/

@[simp] theorem putq_phase (num sub : Nat) (i : Int) : (putq num sub i d).phase = d.phase := rfl
@[simp] theorem putq_time (num sub : Nat) (i : Int) : (putq num sub i d).time = d.time := rfl
@[simp] theorem putq_sched (num sub : Nat) (i : Int) : (putq num sub i d).sched = d.sched := rfl
@[simp] theorem putq_guard (num sub : Nat) (i : Int) : (putq num sub i d).guard = d.guard := rfl
@[simp] theorem putq_ev (num sub : Nat) (i : Int) : (putq num sub i d).ev = d.ev := rfl
@[simp] theorem putq_lanes (num sub : Nat) (i : Int) : (putq num sub i d).lanes = d.lanes := rfl
@[simp] theorem putq_stg (num sub : Nat) (i : Int) : (putq num sub i d).stg = d.stg := rfl
@[simp] theorem putq_energy (num sub : Nat) (i : Int) : (putq num sub i d).energy = d.energy := rfl
@[simp] theorem putq_therm (num sub : Nat) (i : Int) : (putq num sub i d).therm = d.therm := rfl
@[simp] theorem putq_lch (num sub : Nat) (i : Int) : (putq num sub i d).lch = d.lch := rfl
@[simp] theorem putq_ses (num sub : Nat) (i : Int) : (putq num sub i d).ses = d.ses := rfl
@[simp] theorem putq_dma (num sub : Nat) (i : Int) : (putq num sub i d).dma = d.dma := rfl
@[simp] theorem putq_flash (num sub : Nat) (i : Int) : (putq num sub i d).flash = d.flash := rfl
@[simp] theorem putq_keys (num sub : Nat) (i : Int) : (putq num sub i d).keys = d.keys := rfl
@[simp] theorem putq_legal (num sub : Nat) (i : Int) : (putq num sub i d).legal = d.legal := rfl
@[simp] theorem putq_bus (num sub : Nat) (i : Int) : (putq num sub i d).bus = d.bus := rfl
@[simp] theorem putq_malpen (num sub : Nat) (i : Int) : (putq num sub i d).malpen = d.malpen := rfl
@[simp] theorem putq_yard (num sub : Nat) (i : Int) : (putq num sub i d).yard = d.yard := rfl
@[simp] theorem putq_pair (num sub : Nat) (i : Int) : (putq num sub i d).pair = d.pair := rfl
@[simp] theorem putq_startup (num sub : Nat) (i : Int) : (putq num sub i d).startup = d.startup := rfl
@[simp] theorem putq_update (num sub : Nat) (i : Int) : (putq num sub i d).update = d.update := rfl
@[simp] theorem putq_mon (num sub : Nat) (i : Int) : (putq num sub i d).mon = d.mon := rfl
@[simp] theorem putq_draws (num sub : Nat) (i : Int) : (putq num sub i d).draws = d.draws := rfl
@[simp] theorem putq_sent (num sub : Nat) (i : Int) : (putq num sub i d).sent = d.sent := rfl
@[simp] theorem putq_moved (num sub : Nat) (i : Int) : (putq num sub i d).moved = d.moved := rfl

/-! ### putb -/

@[simp] theorem putb_phase (num sub : Nat) (b : Bytes) : (putb num sub b d).phase = d.phase := rfl
@[simp] theorem putb_time (num sub : Nat) (b : Bytes) : (putb num sub b d).time = d.time := rfl
@[simp] theorem putb_sched (num sub : Nat) (b : Bytes) : (putb num sub b d).sched = d.sched := rfl
@[simp] theorem putb_guard (num sub : Nat) (b : Bytes) : (putb num sub b d).guard = d.guard := rfl
@[simp] theorem putb_ev (num sub : Nat) (b : Bytes) : (putb num sub b d).ev = d.ev := rfl
@[simp] theorem putb_lanes (num sub : Nat) (b : Bytes) : (putb num sub b d).lanes = d.lanes := rfl
@[simp] theorem putb_stg (num sub : Nat) (b : Bytes) : (putb num sub b d).stg = d.stg := rfl
@[simp] theorem putb_energy (num sub : Nat) (b : Bytes) : (putb num sub b d).energy = d.energy := rfl
@[simp] theorem putb_therm (num sub : Nat) (b : Bytes) : (putb num sub b d).therm = d.therm := rfl
@[simp] theorem putb_lch (num sub : Nat) (b : Bytes) : (putb num sub b d).lch = d.lch := rfl
@[simp] theorem putb_ses (num sub : Nat) (b : Bytes) : (putb num sub b d).ses = d.ses := rfl
@[simp] theorem putb_dma (num sub : Nat) (b : Bytes) : (putb num sub b d).dma = d.dma := rfl
@[simp] theorem putb_flash (num sub : Nat) (b : Bytes) : (putb num sub b d).flash = d.flash := rfl
@[simp] theorem putb_keys (num sub : Nat) (b : Bytes) : (putb num sub b d).keys = d.keys := rfl
@[simp] theorem putb_legal (num sub : Nat) (b : Bytes) : (putb num sub b d).legal = d.legal := rfl
@[simp] theorem putb_bus (num sub : Nat) (b : Bytes) : (putb num sub b d).bus = d.bus := rfl
@[simp] theorem putb_malpen (num sub : Nat) (b : Bytes) : (putb num sub b d).malpen = d.malpen := rfl
@[simp] theorem putb_yard (num sub : Nat) (b : Bytes) : (putb num sub b d).yard = d.yard := rfl
@[simp] theorem putb_pair (num sub : Nat) (b : Bytes) : (putb num sub b d).pair = d.pair := rfl
@[simp] theorem putb_startup (num sub : Nat) (b : Bytes) : (putb num sub b d).startup = d.startup := rfl
@[simp] theorem putb_update (num sub : Nat) (b : Bytes) : (putb num sub b d).update = d.update := rfl
@[simp] theorem putb_mon (num sub : Nat) (b : Bytes) : (putb num sub b d).mon = d.mon := rfl
@[simp] theorem putb_draws (num sub : Nat) (b : Bytes) : (putb num sub b d).draws = d.draws := rfl
@[simp] theorem putb_sent (num sub : Nat) (b : Bytes) : (putb num sub b d).sent = d.sent := rfl
@[simp] theorem putb_moved (num sub : Nat) (b : Bytes) : (putb num sub b d).moved = d.moved := rfl

/-! ### putf -/

@[simp] theorem putf_phase (num sub : Nat) (b : Bool) : (putf num sub b d).phase = d.phase := rfl
@[simp] theorem putf_time (num sub : Nat) (b : Bool) : (putf num sub b d).time = d.time := rfl
@[simp] theorem putf_sched (num sub : Nat) (b : Bool) : (putf num sub b d).sched = d.sched := rfl
@[simp] theorem putf_guard (num sub : Nat) (b : Bool) : (putf num sub b d).guard = d.guard := rfl
@[simp] theorem putf_ev (num sub : Nat) (b : Bool) : (putf num sub b d).ev = d.ev := rfl
@[simp] theorem putf_lanes (num sub : Nat) (b : Bool) : (putf num sub b d).lanes = d.lanes := rfl
@[simp] theorem putf_stg (num sub : Nat) (b : Bool) : (putf num sub b d).stg = d.stg := rfl
@[simp] theorem putf_energy (num sub : Nat) (b : Bool) : (putf num sub b d).energy = d.energy := rfl
@[simp] theorem putf_therm (num sub : Nat) (b : Bool) : (putf num sub b d).therm = d.therm := rfl
@[simp] theorem putf_lch (num sub : Nat) (b : Bool) : (putf num sub b d).lch = d.lch := rfl
@[simp] theorem putf_ses (num sub : Nat) (b : Bool) : (putf num sub b d).ses = d.ses := rfl
@[simp] theorem putf_dma (num sub : Nat) (b : Bool) : (putf num sub b d).dma = d.dma := rfl
@[simp] theorem putf_flash (num sub : Nat) (b : Bool) : (putf num sub b d).flash = d.flash := rfl
@[simp] theorem putf_keys (num sub : Nat) (b : Bool) : (putf num sub b d).keys = d.keys := rfl
@[simp] theorem putf_legal (num sub : Nat) (b : Bool) : (putf num sub b d).legal = d.legal := rfl
@[simp] theorem putf_bus (num sub : Nat) (b : Bool) : (putf num sub b d).bus = d.bus := rfl
@[simp] theorem putf_malpen (num sub : Nat) (b : Bool) : (putf num sub b d).malpen = d.malpen := rfl
@[simp] theorem putf_yard (num sub : Nat) (b : Bool) : (putf num sub b d).yard = d.yard := rfl
@[simp] theorem putf_pair (num sub : Nat) (b : Bool) : (putf num sub b d).pair = d.pair := rfl
@[simp] theorem putf_startup (num sub : Nat) (b : Bool) : (putf num sub b d).startup = d.startup := rfl
@[simp] theorem putf_update (num sub : Nat) (b : Bool) : (putf num sub b d).update = d.update := rfl
@[simp] theorem putf_mon (num sub : Nat) (b : Bool) : (putf num sub b d).mon = d.mon := rfl
@[simp] theorem putf_draws (num sub : Nat) (b : Bool) : (putf num sub b d).draws = d.draws := rfl
@[simp] theorem putf_sent (num sub : Nat) (b : Bool) : (putf num sub b d).sent = d.sent := rfl
@[simp] theorem putf_moved (num sub : Nat) (b : Bool) : (putf num sub b d).moved = d.moved := rfl

/-! ### incr -/

@[simp] theorem incr_phase (w num sub : Nat) : (incr w num sub d).phase = d.phase := rfl
@[simp] theorem incr_time (w num sub : Nat) : (incr w num sub d).time = d.time := rfl
@[simp] theorem incr_sched (w num sub : Nat) : (incr w num sub d).sched = d.sched := rfl
@[simp] theorem incr_guard (w num sub : Nat) : (incr w num sub d).guard = d.guard := rfl
@[simp] theorem incr_ev (w num sub : Nat) : (incr w num sub d).ev = d.ev := rfl
@[simp] theorem incr_lanes (w num sub : Nat) : (incr w num sub d).lanes = d.lanes := rfl
@[simp] theorem incr_stg (w num sub : Nat) : (incr w num sub d).stg = d.stg := rfl
@[simp] theorem incr_energy (w num sub : Nat) : (incr w num sub d).energy = d.energy := rfl
@[simp] theorem incr_therm (w num sub : Nat) : (incr w num sub d).therm = d.therm := rfl
@[simp] theorem incr_lch (w num sub : Nat) : (incr w num sub d).lch = d.lch := rfl
@[simp] theorem incr_ses (w num sub : Nat) : (incr w num sub d).ses = d.ses := rfl
@[simp] theorem incr_dma (w num sub : Nat) : (incr w num sub d).dma = d.dma := rfl
@[simp] theorem incr_flash (w num sub : Nat) : (incr w num sub d).flash = d.flash := rfl
@[simp] theorem incr_keys (w num sub : Nat) : (incr w num sub d).keys = d.keys := rfl
@[simp] theorem incr_legal (w num sub : Nat) : (incr w num sub d).legal = d.legal := rfl
@[simp] theorem incr_bus (w num sub : Nat) : (incr w num sub d).bus = d.bus := rfl
@[simp] theorem incr_malpen (w num sub : Nat) : (incr w num sub d).malpen = d.malpen := rfl
@[simp] theorem incr_yard (w num sub : Nat) : (incr w num sub d).yard = d.yard := rfl
@[simp] theorem incr_pair (w num sub : Nat) : (incr w num sub d).pair = d.pair := rfl
@[simp] theorem incr_startup (w num sub : Nat) : (incr w num sub d).startup = d.startup := rfl
@[simp] theorem incr_update (w num sub : Nat) : (incr w num sub d).update = d.update := rfl
@[simp] theorem incr_mon (w num sub : Nat) : (incr w num sub d).mon = d.mon := rfl
@[simp] theorem incr_draws (w num sub : Nat) : (incr w num sub d).draws = d.draws := rfl
@[simp] theorem incr_sent (w num sub : Nat) : (incr w num sub d).sent = d.sent := rfl
@[simp] theorem incr_moved (w num sub : Nat) : (incr w num sub d).moved = d.moved := rfl

/-! ### setStatus -/

@[simp] theorem setStatus_phase (num sub bit : Nat) : (setStatus num sub bit d).phase = d.phase := rfl
@[simp] theorem setStatus_time (num sub bit : Nat) : (setStatus num sub bit d).time = d.time := rfl
@[simp] theorem setStatus_sched (num sub bit : Nat) : (setStatus num sub bit d).sched = d.sched := rfl
@[simp] theorem setStatus_guard (num sub bit : Nat) : (setStatus num sub bit d).guard = d.guard := rfl
@[simp] theorem setStatus_ev (num sub bit : Nat) : (setStatus num sub bit d).ev = d.ev := rfl
@[simp] theorem setStatus_lanes (num sub bit : Nat) : (setStatus num sub bit d).lanes = d.lanes := rfl
@[simp] theorem setStatus_stg (num sub bit : Nat) : (setStatus num sub bit d).stg = d.stg := rfl
@[simp] theorem setStatus_energy (num sub bit : Nat) : (setStatus num sub bit d).energy = d.energy := rfl
@[simp] theorem setStatus_therm (num sub bit : Nat) : (setStatus num sub bit d).therm = d.therm := rfl
@[simp] theorem setStatus_lch (num sub bit : Nat) : (setStatus num sub bit d).lch = d.lch := rfl
@[simp] theorem setStatus_ses (num sub bit : Nat) : (setStatus num sub bit d).ses = d.ses := rfl
@[simp] theorem setStatus_dma (num sub bit : Nat) : (setStatus num sub bit d).dma = d.dma := rfl
@[simp] theorem setStatus_flash (num sub bit : Nat) : (setStatus num sub bit d).flash = d.flash := rfl
@[simp] theorem setStatus_keys (num sub bit : Nat) : (setStatus num sub bit d).keys = d.keys := rfl
@[simp] theorem setStatus_legal (num sub bit : Nat) : (setStatus num sub bit d).legal = d.legal := rfl
@[simp] theorem setStatus_bus (num sub bit : Nat) : (setStatus num sub bit d).bus = d.bus := rfl
@[simp] theorem setStatus_malpen (num sub bit : Nat) : (setStatus num sub bit d).malpen = d.malpen := rfl
@[simp] theorem setStatus_yard (num sub bit : Nat) : (setStatus num sub bit d).yard = d.yard := rfl
@[simp] theorem setStatus_pair (num sub bit : Nat) : (setStatus num sub bit d).pair = d.pair := rfl
@[simp] theorem setStatus_startup (num sub bit : Nat) : (setStatus num sub bit d).startup = d.startup := rfl
@[simp] theorem setStatus_update (num sub bit : Nat) : (setStatus num sub bit d).update = d.update := rfl
@[simp] theorem setStatus_mon (num sub bit : Nat) : (setStatus num sub bit d).mon = d.mon := rfl
@[simp] theorem setStatus_draws (num sub bit : Nat) : (setStatus num sub bit d).draws = d.draws := rfl
@[simp] theorem setStatus_sent (num sub bit : Nat) : (setStatus num sub bit d).sent = d.sent := rfl
@[simp] theorem setStatus_moved (num sub bit : Nat) : (setStatus num sub bit d).moved = d.moved := rfl

/-! ### clrStatus -/

@[simp] theorem clrStatus_phase (num sub bit : Nat) : (clrStatus num sub bit d).phase = d.phase := rfl
@[simp] theorem clrStatus_time (num sub bit : Nat) : (clrStatus num sub bit d).time = d.time := rfl
@[simp] theorem clrStatus_sched (num sub bit : Nat) : (clrStatus num sub bit d).sched = d.sched := rfl
@[simp] theorem clrStatus_guard (num sub bit : Nat) : (clrStatus num sub bit d).guard = d.guard := rfl
@[simp] theorem clrStatus_ev (num sub bit : Nat) : (clrStatus num sub bit d).ev = d.ev := rfl
@[simp] theorem clrStatus_lanes (num sub bit : Nat) : (clrStatus num sub bit d).lanes = d.lanes := rfl
@[simp] theorem clrStatus_stg (num sub bit : Nat) : (clrStatus num sub bit d).stg = d.stg := rfl
@[simp] theorem clrStatus_energy (num sub bit : Nat) : (clrStatus num sub bit d).energy = d.energy := rfl
@[simp] theorem clrStatus_therm (num sub bit : Nat) : (clrStatus num sub bit d).therm = d.therm := rfl
@[simp] theorem clrStatus_lch (num sub bit : Nat) : (clrStatus num sub bit d).lch = d.lch := rfl
@[simp] theorem clrStatus_ses (num sub bit : Nat) : (clrStatus num sub bit d).ses = d.ses := rfl
@[simp] theorem clrStatus_dma (num sub bit : Nat) : (clrStatus num sub bit d).dma = d.dma := rfl
@[simp] theorem clrStatus_flash (num sub bit : Nat) : (clrStatus num sub bit d).flash = d.flash := rfl
@[simp] theorem clrStatus_keys (num sub bit : Nat) : (clrStatus num sub bit d).keys = d.keys := rfl
@[simp] theorem clrStatus_legal (num sub bit : Nat) : (clrStatus num sub bit d).legal = d.legal := rfl
@[simp] theorem clrStatus_bus (num sub bit : Nat) : (clrStatus num sub bit d).bus = d.bus := rfl
@[simp] theorem clrStatus_malpen (num sub bit : Nat) : (clrStatus num sub bit d).malpen = d.malpen := rfl
@[simp] theorem clrStatus_yard (num sub bit : Nat) : (clrStatus num sub bit d).yard = d.yard := rfl
@[simp] theorem clrStatus_pair (num sub bit : Nat) : (clrStatus num sub bit d).pair = d.pair := rfl
@[simp] theorem clrStatus_startup (num sub bit : Nat) : (clrStatus num sub bit d).startup = d.startup := rfl
@[simp] theorem clrStatus_update (num sub bit : Nat) : (clrStatus num sub bit d).update = d.update := rfl
@[simp] theorem clrStatus_mon (num sub bit : Nat) : (clrStatus num sub bit d).mon = d.mon := rfl
@[simp] theorem clrStatus_draws (num sub bit : Nat) : (clrStatus num sub bit d).draws = d.draws := rfl
@[simp] theorem clrStatus_sent (num sub bit : Nat) : (clrStatus num sub bit d).sent = d.sent := rfl
@[simp] theorem clrStatus_moved (num sub bit : Nat) : (clrStatus num sub bit d).moved = d.moved := rfl

/-! ### wrStatus -/

@[simp] theorem wrStatus_phase (num sub bit : Nat) (b : Bool) : (wrStatus num sub bit b d).phase = d.phase := rfl
@[simp] theorem wrStatus_time (num sub bit : Nat) (b : Bool) : (wrStatus num sub bit b d).time = d.time := rfl
@[simp] theorem wrStatus_sched (num sub bit : Nat) (b : Bool) : (wrStatus num sub bit b d).sched = d.sched := rfl
@[simp] theorem wrStatus_guard (num sub bit : Nat) (b : Bool) : (wrStatus num sub bit b d).guard = d.guard := rfl
@[simp] theorem wrStatus_ev (num sub bit : Nat) (b : Bool) : (wrStatus num sub bit b d).ev = d.ev := rfl
@[simp] theorem wrStatus_lanes (num sub bit : Nat) (b : Bool) : (wrStatus num sub bit b d).lanes = d.lanes := rfl
@[simp] theorem wrStatus_stg (num sub bit : Nat) (b : Bool) : (wrStatus num sub bit b d).stg = d.stg := rfl
@[simp] theorem wrStatus_energy (num sub bit : Nat) (b : Bool) : (wrStatus num sub bit b d).energy = d.energy := rfl
@[simp] theorem wrStatus_therm (num sub bit : Nat) (b : Bool) : (wrStatus num sub bit b d).therm = d.therm := rfl
@[simp] theorem wrStatus_lch (num sub bit : Nat) (b : Bool) : (wrStatus num sub bit b d).lch = d.lch := rfl
@[simp] theorem wrStatus_ses (num sub bit : Nat) (b : Bool) : (wrStatus num sub bit b d).ses = d.ses := rfl
@[simp] theorem wrStatus_dma (num sub bit : Nat) (b : Bool) : (wrStatus num sub bit b d).dma = d.dma := rfl
@[simp] theorem wrStatus_flash (num sub bit : Nat) (b : Bool) : (wrStatus num sub bit b d).flash = d.flash := rfl
@[simp] theorem wrStatus_keys (num sub bit : Nat) (b : Bool) : (wrStatus num sub bit b d).keys = d.keys := rfl
@[simp] theorem wrStatus_legal (num sub bit : Nat) (b : Bool) : (wrStatus num sub bit b d).legal = d.legal := rfl
@[simp] theorem wrStatus_bus (num sub bit : Nat) (b : Bool) : (wrStatus num sub bit b d).bus = d.bus := rfl
@[simp] theorem wrStatus_malpen (num sub bit : Nat) (b : Bool) : (wrStatus num sub bit b d).malpen = d.malpen := rfl
@[simp] theorem wrStatus_yard (num sub bit : Nat) (b : Bool) : (wrStatus num sub bit b d).yard = d.yard := rfl
@[simp] theorem wrStatus_pair (num sub bit : Nat) (b : Bool) : (wrStatus num sub bit b d).pair = d.pair := rfl
@[simp] theorem wrStatus_startup (num sub bit : Nat) (b : Bool) : (wrStatus num sub bit b d).startup = d.startup := rfl
@[simp] theorem wrStatus_update (num sub bit : Nat) (b : Bool) : (wrStatus num sub bit b d).update = d.update := rfl
@[simp] theorem wrStatus_mon (num sub bit : Nat) (b : Bool) : (wrStatus num sub bit b d).mon = d.mon := rfl
@[simp] theorem wrStatus_draws (num sub bit : Nat) (b : Bool) : (wrStatus num sub bit b d).draws = d.draws := rfl
@[simp] theorem wrStatus_sent (num sub bit : Nat) (b : Bool) : (wrStatus num sub bit b d).sent = d.sent := rfl
@[simp] theorem wrStatus_moved (num sub bit : Nat) (b : Bool) : (wrStatus num sub bit b d).moved = d.moved := rfl

/-! ### raise -/

@[simp] theorem raise_phase (code inst data : Nat) : (raise code inst data d).phase = d.phase := rfl
@[simp] theorem raise_os (code inst data : Nat) : (raise code inst data d).os = d.os := rfl
@[simp] theorem raise_time (code inst data : Nat) : (raise code inst data d).time = d.time := rfl
@[simp] theorem raise_sched (code inst data : Nat) : (raise code inst data d).sched = d.sched := rfl
@[simp] theorem raise_guard (code inst data : Nat) : (raise code inst data d).guard = d.guard := rfl
@[simp] theorem raise_lanes (code inst data : Nat) : (raise code inst data d).lanes = d.lanes := rfl
@[simp] theorem raise_stg (code inst data : Nat) : (raise code inst data d).stg = d.stg := rfl
@[simp] theorem raise_energy (code inst data : Nat) : (raise code inst data d).energy = d.energy := rfl
@[simp] theorem raise_therm (code inst data : Nat) : (raise code inst data d).therm = d.therm := rfl
@[simp] theorem raise_lch (code inst data : Nat) : (raise code inst data d).lch = d.lch := rfl
@[simp] theorem raise_ses (code inst data : Nat) : (raise code inst data d).ses = d.ses := rfl
@[simp] theorem raise_dma (code inst data : Nat) : (raise code inst data d).dma = d.dma := rfl
@[simp] theorem raise_flash (code inst data : Nat) : (raise code inst data d).flash = d.flash := rfl
@[simp] theorem raise_keys (code inst data : Nat) : (raise code inst data d).keys = d.keys := rfl
@[simp] theorem raise_legal (code inst data : Nat) : (raise code inst data d).legal = d.legal := rfl
@[simp] theorem raise_bus (code inst data : Nat) : (raise code inst data d).bus = d.bus := rfl
@[simp] theorem raise_malpen (code inst data : Nat) : (raise code inst data d).malpen = d.malpen := rfl
@[simp] theorem raise_yard (code inst data : Nat) : (raise code inst data d).yard = d.yard := rfl
@[simp] theorem raise_pair (code inst data : Nat) : (raise code inst data d).pair = d.pair := rfl
@[simp] theorem raise_startup (code inst data : Nat) : (raise code inst data d).startup = d.startup := rfl
@[simp] theorem raise_update (code inst data : Nat) : (raise code inst data d).update = d.update := rfl
@[simp] theorem raise_mon (code inst data : Nat) : (raise code inst data d).mon = d.mon := rfl
@[simp] theorem raise_draws (code inst data : Nat) : (raise code inst data d).draws = d.draws := rfl
@[simp] theorem raise_sent (code inst data : Nat) : (raise code inst data d).sent = d.sent := rfl
@[simp] theorem raise_moved (code inst data : Nat) : (raise code inst data d).moved = d.moved := rfl
@[simp] theorem raise_ev (code inst data : Nat) : (raise code inst data d).ev = evRaise code inst data (evFlags d false) d.time.micro (civilNs d) d.ev := rfl
@[simp] theorem ov_raise (code inst data : Nat) (num' sub' : Nat) : ov (raise code inst data d) num' sub' = ov d num' sub' := rfl
@[simp] theorem on_raise (code inst data : Nat) (num' sub' : Nat) : on (raise code inst data d) num' sub' = on d num' sub' := rfl

/-! ### raiseEnd -/

@[simp] theorem raiseEnd_phase (code inst data : Nat) : (raiseEnd code inst data d).phase = d.phase := rfl
@[simp] theorem raiseEnd_os (code inst data : Nat) : (raiseEnd code inst data d).os = d.os := rfl
@[simp] theorem raiseEnd_time (code inst data : Nat) : (raiseEnd code inst data d).time = d.time := rfl
@[simp] theorem raiseEnd_sched (code inst data : Nat) : (raiseEnd code inst data d).sched = d.sched := rfl
@[simp] theorem raiseEnd_guard (code inst data : Nat) : (raiseEnd code inst data d).guard = d.guard := rfl
@[simp] theorem raiseEnd_lanes (code inst data : Nat) : (raiseEnd code inst data d).lanes = d.lanes := rfl
@[simp] theorem raiseEnd_stg (code inst data : Nat) : (raiseEnd code inst data d).stg = d.stg := rfl
@[simp] theorem raiseEnd_energy (code inst data : Nat) : (raiseEnd code inst data d).energy = d.energy := rfl
@[simp] theorem raiseEnd_therm (code inst data : Nat) : (raiseEnd code inst data d).therm = d.therm := rfl
@[simp] theorem raiseEnd_lch (code inst data : Nat) : (raiseEnd code inst data d).lch = d.lch := rfl
@[simp] theorem raiseEnd_ses (code inst data : Nat) : (raiseEnd code inst data d).ses = d.ses := rfl
@[simp] theorem raiseEnd_dma (code inst data : Nat) : (raiseEnd code inst data d).dma = d.dma := rfl
@[simp] theorem raiseEnd_flash (code inst data : Nat) : (raiseEnd code inst data d).flash = d.flash := rfl
@[simp] theorem raiseEnd_keys (code inst data : Nat) : (raiseEnd code inst data d).keys = d.keys := rfl
@[simp] theorem raiseEnd_legal (code inst data : Nat) : (raiseEnd code inst data d).legal = d.legal := rfl
@[simp] theorem raiseEnd_bus (code inst data : Nat) : (raiseEnd code inst data d).bus = d.bus := rfl
@[simp] theorem raiseEnd_malpen (code inst data : Nat) : (raiseEnd code inst data d).malpen = d.malpen := rfl
@[simp] theorem raiseEnd_yard (code inst data : Nat) : (raiseEnd code inst data d).yard = d.yard := rfl
@[simp] theorem raiseEnd_pair (code inst data : Nat) : (raiseEnd code inst data d).pair = d.pair := rfl
@[simp] theorem raiseEnd_startup (code inst data : Nat) : (raiseEnd code inst data d).startup = d.startup := rfl
@[simp] theorem raiseEnd_update (code inst data : Nat) : (raiseEnd code inst data d).update = d.update := rfl
@[simp] theorem raiseEnd_mon (code inst data : Nat) : (raiseEnd code inst data d).mon = d.mon := rfl
@[simp] theorem raiseEnd_draws (code inst data : Nat) : (raiseEnd code inst data d).draws = d.draws := rfl
@[simp] theorem raiseEnd_sent (code inst data : Nat) : (raiseEnd code inst data d).sent = d.sent := rfl
@[simp] theorem raiseEnd_moved (code inst data : Nat) : (raiseEnd code inst data d).moved = d.moved := rfl
@[simp] theorem raiseEnd_ev (code inst data : Nat) : (raiseEnd code inst data d).ev = evRaise code inst data (evFlags d true) d.time.micro (civilNs d) d.ev := rfl
@[simp] theorem ov_raiseEnd (code inst data : Nat) (num' sub' : Nat) : ov (raiseEnd code inst data d) num' sub' = ov d num' sub' := rfl
@[simp] theorem on_raiseEnd (code inst data : Nat) (num' sub' : Nat) : on (raiseEnd code inst data d) num' sub' = on d num' sub' := rfl

/-! ### emit -/

@[simp] theorem emit_phase (t : Tx) : (emit t d).phase = d.phase := rfl
@[simp] theorem emit_os (t : Tx) : (emit t d).os = d.os := rfl
@[simp] theorem emit_time (t : Tx) : (emit t d).time = d.time := rfl
@[simp] theorem emit_sched (t : Tx) : (emit t d).sched = d.sched := rfl
@[simp] theorem emit_guard (t : Tx) : (emit t d).guard = d.guard := rfl
@[simp] theorem emit_ev (t : Tx) : (emit t d).ev = d.ev := rfl
@[simp] theorem emit_lanes (t : Tx) : (emit t d).lanes = d.lanes := rfl
@[simp] theorem emit_stg (t : Tx) : (emit t d).stg = d.stg := rfl
@[simp] theorem emit_energy (t : Tx) : (emit t d).energy = d.energy := rfl
@[simp] theorem emit_therm (t : Tx) : (emit t d).therm = d.therm := rfl
@[simp] theorem emit_lch (t : Tx) : (emit t d).lch = d.lch := rfl
@[simp] theorem emit_ses (t : Tx) : (emit t d).ses = d.ses := rfl
@[simp] theorem emit_dma (t : Tx) : (emit t d).dma = d.dma := rfl
@[simp] theorem emit_flash (t : Tx) : (emit t d).flash = d.flash := rfl
@[simp] theorem emit_keys (t : Tx) : (emit t d).keys = d.keys := rfl
@[simp] theorem emit_legal (t : Tx) : (emit t d).legal = d.legal := rfl
@[simp] theorem emit_bus (t : Tx) : (emit t d).bus = d.bus := rfl
@[simp] theorem emit_malpen (t : Tx) : (emit t d).malpen = d.malpen := rfl
@[simp] theorem emit_yard (t : Tx) : (emit t d).yard = d.yard := rfl
@[simp] theorem emit_pair (t : Tx) : (emit t d).pair = d.pair := rfl
@[simp] theorem emit_startup (t : Tx) : (emit t d).startup = d.startup := rfl
@[simp] theorem emit_update (t : Tx) : (emit t d).update = d.update := rfl
@[simp] theorem emit_mon (t : Tx) : (emit t d).mon = d.mon := rfl
@[simp] theorem emit_draws (t : Tx) : (emit t d).draws = d.draws := rfl
@[simp] theorem emit_moved (t : Tx) : (emit t d).moved = d.moved := rfl
@[simp] theorem emit_sent (t : Tx) : (emit t d).sent = t :: d.sent := rfl
@[simp] theorem ov_emit (t : Tx) (num' sub' : Nat) : ov (emit t d) num' sub' = ov d num' sub' := rfl
@[simp] theorem on_emit (t : Tx) (num' sub' : Nat) : on (emit t d) num' sub' = on d num' sub' := rfl

/-! ### modStg -/

@[simp] theorem modStg_phase (s : Nat) (f : StgS → StgS) : (modStg s f d).phase = d.phase := rfl
@[simp] theorem modStg_os (s : Nat) (f : StgS → StgS) : (modStg s f d).os = d.os := rfl
@[simp] theorem modStg_time (s : Nat) (f : StgS → StgS) : (modStg s f d).time = d.time := rfl
@[simp] theorem modStg_sched (s : Nat) (f : StgS → StgS) : (modStg s f d).sched = d.sched := rfl
@[simp] theorem modStg_guard (s : Nat) (f : StgS → StgS) : (modStg s f d).guard = d.guard := rfl
@[simp] theorem modStg_ev (s : Nat) (f : StgS → StgS) : (modStg s f d).ev = d.ev := rfl
@[simp] theorem modStg_lanes (s : Nat) (f : StgS → StgS) : (modStg s f d).lanes = d.lanes := rfl
@[simp] theorem modStg_energy (s : Nat) (f : StgS → StgS) : (modStg s f d).energy = d.energy := rfl
@[simp] theorem modStg_therm (s : Nat) (f : StgS → StgS) : (modStg s f d).therm = d.therm := rfl
@[simp] theorem modStg_lch (s : Nat) (f : StgS → StgS) : (modStg s f d).lch = d.lch := rfl
@[simp] theorem modStg_ses (s : Nat) (f : StgS → StgS) : (modStg s f d).ses = d.ses := rfl
@[simp] theorem modStg_dma (s : Nat) (f : StgS → StgS) : (modStg s f d).dma = d.dma := rfl
@[simp] theorem modStg_flash (s : Nat) (f : StgS → StgS) : (modStg s f d).flash = d.flash := rfl
@[simp] theorem modStg_keys (s : Nat) (f : StgS → StgS) : (modStg s f d).keys = d.keys := rfl
@[simp] theorem modStg_legal (s : Nat) (f : StgS → StgS) : (modStg s f d).legal = d.legal := rfl
@[simp] theorem modStg_bus (s : Nat) (f : StgS → StgS) : (modStg s f d).bus = d.bus := rfl
@[simp] theorem modStg_malpen (s : Nat) (f : StgS → StgS) : (modStg s f d).malpen = d.malpen := rfl
@[simp] theorem modStg_yard (s : Nat) (f : StgS → StgS) : (modStg s f d).yard = d.yard := rfl
@[simp] theorem modStg_pair (s : Nat) (f : StgS → StgS) : (modStg s f d).pair = d.pair := rfl
@[simp] theorem modStg_startup (s : Nat) (f : StgS → StgS) : (modStg s f d).startup = d.startup := rfl
@[simp] theorem modStg_update (s : Nat) (f : StgS → StgS) : (modStg s f d).update = d.update := rfl
@[simp] theorem modStg_mon (s : Nat) (f : StgS → StgS) : (modStg s f d).mon = d.mon := rfl
@[simp] theorem modStg_draws (s : Nat) (f : StgS → StgS) : (modStg s f d).draws = d.draws := rfl
@[simp] theorem modStg_sent (s : Nat) (f : StgS → StgS) : (modStg s f d).sent = d.sent := rfl
@[simp] theorem modStg_moved (s : Nat) (f : StgS → StgS) : (modStg s f d).moved = d.moved := rfl
@[simp] theorem modStg_stg (s : Nat) (f : StgS → StgS) : (modStg s f d).stg = modAt d.stg s f := rfl
@[simp] theorem ov_modStg (s : Nat) (f : StgS → StgS) (num' sub' : Nat) : ov (modStg s f d) num' sub' = ov d num' sub' := rfl
@[simp] theorem on_modStg (s : Nat) (f : StgS → StgS) (num' sub' : Nat) : on (modStg s f d) num' sub' = on d num' sub' := rfl

/-! ### modGrp -/

@[simp] theorem modGrp_phase (s g : Nat) (f : GrpS → GrpS) : (modGrp s g f d).phase = d.phase := rfl
@[simp] theorem modGrp_os (s g : Nat) (f : GrpS → GrpS) : (modGrp s g f d).os = d.os := rfl
@[simp] theorem modGrp_time (s g : Nat) (f : GrpS → GrpS) : (modGrp s g f d).time = d.time := rfl
@[simp] theorem modGrp_sched (s g : Nat) (f : GrpS → GrpS) : (modGrp s g f d).sched = d.sched := rfl
@[simp] theorem modGrp_guard (s g : Nat) (f : GrpS → GrpS) : (modGrp s g f d).guard = d.guard := rfl
@[simp] theorem modGrp_ev (s g : Nat) (f : GrpS → GrpS) : (modGrp s g f d).ev = d.ev := rfl
@[simp] theorem modGrp_lanes (s g : Nat) (f : GrpS → GrpS) : (modGrp s g f d).lanes = d.lanes := rfl
@[simp] theorem modGrp_energy (s g : Nat) (f : GrpS → GrpS) : (modGrp s g f d).energy = d.energy := rfl
@[simp] theorem modGrp_therm (s g : Nat) (f : GrpS → GrpS) : (modGrp s g f d).therm = d.therm := rfl
@[simp] theorem modGrp_lch (s g : Nat) (f : GrpS → GrpS) : (modGrp s g f d).lch = d.lch := rfl
@[simp] theorem modGrp_ses (s g : Nat) (f : GrpS → GrpS) : (modGrp s g f d).ses = d.ses := rfl
@[simp] theorem modGrp_dma (s g : Nat) (f : GrpS → GrpS) : (modGrp s g f d).dma = d.dma := rfl
@[simp] theorem modGrp_flash (s g : Nat) (f : GrpS → GrpS) : (modGrp s g f d).flash = d.flash := rfl
@[simp] theorem modGrp_keys (s g : Nat) (f : GrpS → GrpS) : (modGrp s g f d).keys = d.keys := rfl
@[simp] theorem modGrp_legal (s g : Nat) (f : GrpS → GrpS) : (modGrp s g f d).legal = d.legal := rfl
@[simp] theorem modGrp_bus (s g : Nat) (f : GrpS → GrpS) : (modGrp s g f d).bus = d.bus := rfl
@[simp] theorem modGrp_malpen (s g : Nat) (f : GrpS → GrpS) : (modGrp s g f d).malpen = d.malpen := rfl
@[simp] theorem modGrp_yard (s g : Nat) (f : GrpS → GrpS) : (modGrp s g f d).yard = d.yard := rfl
@[simp] theorem modGrp_pair (s g : Nat) (f : GrpS → GrpS) : (modGrp s g f d).pair = d.pair := rfl
@[simp] theorem modGrp_startup (s g : Nat) (f : GrpS → GrpS) : (modGrp s g f d).startup = d.startup := rfl
@[simp] theorem modGrp_update (s g : Nat) (f : GrpS → GrpS) : (modGrp s g f d).update = d.update := rfl
@[simp] theorem modGrp_mon (s g : Nat) (f : GrpS → GrpS) : (modGrp s g f d).mon = d.mon := rfl
@[simp] theorem modGrp_draws (s g : Nat) (f : GrpS → GrpS) : (modGrp s g f d).draws = d.draws := rfl
@[simp] theorem modGrp_sent (s g : Nat) (f : GrpS → GrpS) : (modGrp s g f d).sent = d.sent := rfl
@[simp] theorem modGrp_moved (s g : Nat) (f : GrpS → GrpS) : (modGrp s g f d).moved = d.moved := rfl
@[simp] theorem ov_modGrp (s g : Nat) (f : GrpS → GrpS) (num' sub' : Nat) : ov (modGrp s g f d) num' sub' = ov d num' sub' := rfl
@[simp] theorem on_modGrp (s g : Nat) (f : GrpS → GrpS) (num' sub' : Nat) : on (modGrp s g f d) num' sub' = on d num' sub' := rfl

/-! ### modLane -/

@[simp] theorem modLane_phase (l : Nat) (f : LaneS → LaneS) : (modLane l f d).phase = d.phase := rfl
@[simp] theorem modLane_os (l : Nat) (f : LaneS → LaneS) : (modLane l f d).os = d.os := rfl
@[simp] theorem modLane_time (l : Nat) (f : LaneS → LaneS) : (modLane l f d).time = d.time := rfl
@[simp] theorem modLane_sched (l : Nat) (f : LaneS → LaneS) : (modLane l f d).sched = d.sched := rfl
@[simp] theorem modLane_guard (l : Nat) (f : LaneS → LaneS) : (modLane l f d).guard = d.guard := rfl
@[simp] theorem modLane_ev (l : Nat) (f : LaneS → LaneS) : (modLane l f d).ev = d.ev := rfl
@[simp] theorem modLane_stg (l : Nat) (f : LaneS → LaneS) : (modLane l f d).stg = d.stg := rfl
@[simp] theorem modLane_energy (l : Nat) (f : LaneS → LaneS) : (modLane l f d).energy = d.energy := rfl
@[simp] theorem modLane_therm (l : Nat) (f : LaneS → LaneS) : (modLane l f d).therm = d.therm := rfl
@[simp] theorem modLane_lch (l : Nat) (f : LaneS → LaneS) : (modLane l f d).lch = d.lch := rfl
@[simp] theorem modLane_ses (l : Nat) (f : LaneS → LaneS) : (modLane l f d).ses = d.ses := rfl
@[simp] theorem modLane_dma (l : Nat) (f : LaneS → LaneS) : (modLane l f d).dma = d.dma := rfl
@[simp] theorem modLane_flash (l : Nat) (f : LaneS → LaneS) : (modLane l f d).flash = d.flash := rfl
@[simp] theorem modLane_keys (l : Nat) (f : LaneS → LaneS) : (modLane l f d).keys = d.keys := rfl
@[simp] theorem modLane_legal (l : Nat) (f : LaneS → LaneS) : (modLane l f d).legal = d.legal := rfl
@[simp] theorem modLane_bus (l : Nat) (f : LaneS → LaneS) : (modLane l f d).bus = d.bus := rfl
@[simp] theorem modLane_malpen (l : Nat) (f : LaneS → LaneS) : (modLane l f d).malpen = d.malpen := rfl
@[simp] theorem modLane_yard (l : Nat) (f : LaneS → LaneS) : (modLane l f d).yard = d.yard := rfl
@[simp] theorem modLane_pair (l : Nat) (f : LaneS → LaneS) : (modLane l f d).pair = d.pair := rfl
@[simp] theorem modLane_startup (l : Nat) (f : LaneS → LaneS) : (modLane l f d).startup = d.startup := rfl
@[simp] theorem modLane_update (l : Nat) (f : LaneS → LaneS) : (modLane l f d).update = d.update := rfl
@[simp] theorem modLane_mon (l : Nat) (f : LaneS → LaneS) : (modLane l f d).mon = d.mon := rfl
@[simp] theorem modLane_draws (l : Nat) (f : LaneS → LaneS) : (modLane l f d).draws = d.draws := rfl
@[simp] theorem modLane_sent (l : Nat) (f : LaneS → LaneS) : (modLane l f d).sent = d.sent := rfl
@[simp] theorem modLane_moved (l : Nat) (f : LaneS → LaneS) : (modLane l f d).moved = d.moved := rfl
@[simp] theorem ov_modLane (l : Nat) (f : LaneS → LaneS) (num' sub' : Nat) : ov (modLane l f d) num' sub' = ov d num' sub' := rfl
@[simp] theorem on_modLane (l : Nat) (f : LaneS → LaneS) (num' sub' : Nat) : on (modLane l f d) num' sub' = on d num' sub' := rfl

/-! ### modRing -/

@[simp] theorem modRing_phase (r : Nat) (f : RingS → RingS) : (modRing r f d).phase = d.phase := rfl
@[simp] theorem modRing_os (r : Nat) (f : RingS → RingS) : (modRing r f d).os = d.os := rfl
@[simp] theorem modRing_time (r : Nat) (f : RingS → RingS) : (modRing r f d).time = d.time := rfl
@[simp] theorem modRing_sched (r : Nat) (f : RingS → RingS) : (modRing r f d).sched = d.sched := rfl
@[simp] theorem modRing_guard (r : Nat) (f : RingS → RingS) : (modRing r f d).guard = d.guard := rfl
@[simp] theorem modRing_ev (r : Nat) (f : RingS → RingS) : (modRing r f d).ev = d.ev := rfl
@[simp] theorem modRing_lanes (r : Nat) (f : RingS → RingS) : (modRing r f d).lanes = d.lanes := rfl
@[simp] theorem modRing_stg (r : Nat) (f : RingS → RingS) : (modRing r f d).stg = d.stg := rfl
@[simp] theorem modRing_energy (r : Nat) (f : RingS → RingS) : (modRing r f d).energy = d.energy := rfl
@[simp] theorem modRing_therm (r : Nat) (f : RingS → RingS) : (modRing r f d).therm = d.therm := rfl
@[simp] theorem modRing_lch (r : Nat) (f : RingS → RingS) : (modRing r f d).lch = d.lch := rfl
@[simp] theorem modRing_ses (r : Nat) (f : RingS → RingS) : (modRing r f d).ses = d.ses := rfl
@[simp] theorem modRing_flash (r : Nat) (f : RingS → RingS) : (modRing r f d).flash = d.flash := rfl
@[simp] theorem modRing_keys (r : Nat) (f : RingS → RingS) : (modRing r f d).keys = d.keys := rfl
@[simp] theorem modRing_legal (r : Nat) (f : RingS → RingS) : (modRing r f d).legal = d.legal := rfl
@[simp] theorem modRing_bus (r : Nat) (f : RingS → RingS) : (modRing r f d).bus = d.bus := rfl
@[simp] theorem modRing_malpen (r : Nat) (f : RingS → RingS) : (modRing r f d).malpen = d.malpen := rfl
@[simp] theorem modRing_yard (r : Nat) (f : RingS → RingS) : (modRing r f d).yard = d.yard := rfl
@[simp] theorem modRing_pair (r : Nat) (f : RingS → RingS) : (modRing r f d).pair = d.pair := rfl
@[simp] theorem modRing_startup (r : Nat) (f : RingS → RingS) : (modRing r f d).startup = d.startup := rfl
@[simp] theorem modRing_update (r : Nat) (f : RingS → RingS) : (modRing r f d).update = d.update := rfl
@[simp] theorem modRing_mon (r : Nat) (f : RingS → RingS) : (modRing r f d).mon = d.mon := rfl
@[simp] theorem modRing_draws (r : Nat) (f : RingS → RingS) : (modRing r f d).draws = d.draws := rfl
@[simp] theorem modRing_sent (r : Nat) (f : RingS → RingS) : (modRing r f d).sent = d.sent := rfl
@[simp] theorem modRing_moved (r : Nat) (f : RingS → RingS) : (modRing r f d).moved = d.moved := rfl
@[simp] theorem modRing_dma (r : Nat) (f : RingS → RingS) : (modRing r f d).dma = modAt d.dma r f := rfl
@[simp] theorem ov_modRing (r : Nat) (f : RingS → RingS) (num' sub' : Nat) : ov (modRing r f d) num' sub' = ov d num' sub' := rfl
@[simp] theorem on_modRing (r : Nat) (f : RingS → RingS) (num' sub' : Nat) : on (modRing r f d) num' sub' = on d num' sub' := rfl

/-! ### modFb -/

@[simp] theorem modFb_phase (b : Nat) (f : FbS → FbS) : (modFb b f d).phase = d.phase := rfl
@[simp] theorem modFb_os (b : Nat) (f : FbS → FbS) : (modFb b f d).os = d.os := rfl
@[simp] theorem modFb_time (b : Nat) (f : FbS → FbS) : (modFb b f d).time = d.time := rfl
@[simp] theorem modFb_sched (b : Nat) (f : FbS → FbS) : (modFb b f d).sched = d.sched := rfl
@[simp] theorem modFb_guard (b : Nat) (f : FbS → FbS) : (modFb b f d).guard = d.guard := rfl
@[simp] theorem modFb_ev (b : Nat) (f : FbS → FbS) : (modFb b f d).ev = d.ev := rfl
@[simp] theorem modFb_lanes (b : Nat) (f : FbS → FbS) : (modFb b f d).lanes = d.lanes := rfl
@[simp] theorem modFb_stg (b : Nat) (f : FbS → FbS) : (modFb b f d).stg = d.stg := rfl
@[simp] theorem modFb_energy (b : Nat) (f : FbS → FbS) : (modFb b f d).energy = d.energy := rfl
@[simp] theorem modFb_therm (b : Nat) (f : FbS → FbS) : (modFb b f d).therm = d.therm := rfl
@[simp] theorem modFb_lch (b : Nat) (f : FbS → FbS) : (modFb b f d).lch = d.lch := rfl
@[simp] theorem modFb_ses (b : Nat) (f : FbS → FbS) : (modFb b f d).ses = d.ses := rfl
@[simp] theorem modFb_dma (b : Nat) (f : FbS → FbS) : (modFb b f d).dma = d.dma := rfl
@[simp] theorem modFb_flash (b : Nat) (f : FbS → FbS) : (modFb b f d).flash = d.flash := rfl
@[simp] theorem modFb_keys (b : Nat) (f : FbS → FbS) : (modFb b f d).keys = d.keys := rfl
@[simp] theorem modFb_legal (b : Nat) (f : FbS → FbS) : (modFb b f d).legal = d.legal := rfl
@[simp] theorem modFb_malpen (b : Nat) (f : FbS → FbS) : (modFb b f d).malpen = d.malpen := rfl
@[simp] theorem modFb_yard (b : Nat) (f : FbS → FbS) : (modFb b f d).yard = d.yard := rfl
@[simp] theorem modFb_pair (b : Nat) (f : FbS → FbS) : (modFb b f d).pair = d.pair := rfl
@[simp] theorem modFb_startup (b : Nat) (f : FbS → FbS) : (modFb b f d).startup = d.startup := rfl
@[simp] theorem modFb_update (b : Nat) (f : FbS → FbS) : (modFb b f d).update = d.update := rfl
@[simp] theorem modFb_mon (b : Nat) (f : FbS → FbS) : (modFb b f d).mon = d.mon := rfl
@[simp] theorem modFb_draws (b : Nat) (f : FbS → FbS) : (modFb b f d).draws = d.draws := rfl
@[simp] theorem modFb_sent (b : Nat) (f : FbS → FbS) : (modFb b f d).sent = d.sent := rfl
@[simp] theorem modFb_moved (b : Nat) (f : FbS → FbS) : (modFb b f d).moved = d.moved := rfl
@[simp] theorem modFb_bus (b : Nat) (f : FbS → FbS) : (modFb b f d).bus = modAt d.bus b f := rfl
@[simp] theorem ov_modFb (b : Nat) (f : FbS → FbS) (num' sub' : Nat) : ov (modFb b f d) num' sub' = ov d num' sub' := rfl
@[simp] theorem on_modFb (b : Nat) (f : FbS → FbS) (num' sub' : Nat) : on (modFb b f d) num' sub' = on d num' sub' := rfl

/-! ### modGSeq -/

@[simp] theorem modGSeq_phase (s g : Nat) (f : GSeq → GSeq) : (modGSeq s g f d).phase = d.phase := rfl
@[simp] theorem modGSeq_os (s g : Nat) (f : GSeq → GSeq) : (modGSeq s g f d).os = d.os := rfl
@[simp] theorem modGSeq_time (s g : Nat) (f : GSeq → GSeq) : (modGSeq s g f d).time = d.time := rfl
@[simp] theorem modGSeq_sched (s g : Nat) (f : GSeq → GSeq) : (modGSeq s g f d).sched = d.sched := rfl
@[simp] theorem modGSeq_guard (s g : Nat) (f : GSeq → GSeq) : (modGSeq s g f d).guard = d.guard := rfl
@[simp] theorem modGSeq_ev (s g : Nat) (f : GSeq → GSeq) : (modGSeq s g f d).ev = d.ev := rfl
@[simp] theorem modGSeq_lanes (s g : Nat) (f : GSeq → GSeq) : (modGSeq s g f d).lanes = d.lanes := rfl
@[simp] theorem modGSeq_stg (s g : Nat) (f : GSeq → GSeq) : (modGSeq s g f d).stg = d.stg := rfl
@[simp] theorem modGSeq_therm (s g : Nat) (f : GSeq → GSeq) : (modGSeq s g f d).therm = d.therm := rfl
@[simp] theorem modGSeq_lch (s g : Nat) (f : GSeq → GSeq) : (modGSeq s g f d).lch = d.lch := rfl
@[simp] theorem modGSeq_ses (s g : Nat) (f : GSeq → GSeq) : (modGSeq s g f d).ses = d.ses := rfl
@[simp] theorem modGSeq_dma (s g : Nat) (f : GSeq → GSeq) : (modGSeq s g f d).dma = d.dma := rfl
@[simp] theorem modGSeq_flash (s g : Nat) (f : GSeq → GSeq) : (modGSeq s g f d).flash = d.flash := rfl
@[simp] theorem modGSeq_keys (s g : Nat) (f : GSeq → GSeq) : (modGSeq s g f d).keys = d.keys := rfl
@[simp] theorem modGSeq_legal (s g : Nat) (f : GSeq → GSeq) : (modGSeq s g f d).legal = d.legal := rfl
@[simp] theorem modGSeq_bus (s g : Nat) (f : GSeq → GSeq) : (modGSeq s g f d).bus = d.bus := rfl
@[simp] theorem modGSeq_malpen (s g : Nat) (f : GSeq → GSeq) : (modGSeq s g f d).malpen = d.malpen := rfl
@[simp] theorem modGSeq_yard (s g : Nat) (f : GSeq → GSeq) : (modGSeq s g f d).yard = d.yard := rfl
@[simp] theorem modGSeq_pair (s g : Nat) (f : GSeq → GSeq) : (modGSeq s g f d).pair = d.pair := rfl
@[simp] theorem modGSeq_startup (s g : Nat) (f : GSeq → GSeq) : (modGSeq s g f d).startup = d.startup := rfl
@[simp] theorem modGSeq_update (s g : Nat) (f : GSeq → GSeq) : (modGSeq s g f d).update = d.update := rfl
@[simp] theorem modGSeq_mon (s g : Nat) (f : GSeq → GSeq) : (modGSeq s g f d).mon = d.mon := rfl
@[simp] theorem modGSeq_draws (s g : Nat) (f : GSeq → GSeq) : (modGSeq s g f d).draws = d.draws := rfl
@[simp] theorem modGSeq_sent (s g : Nat) (f : GSeq → GSeq) : (modGSeq s g f d).sent = d.sent := rfl
@[simp] theorem modGSeq_moved (s g : Nat) (f : GSeq → GSeq) : (modGSeq s g f d).moved = d.moved := rfl
@[simp] theorem ov_modGSeq (s g : Nat) (f : GSeq → GSeq) (num' sub' : Nat) : ov (modGSeq s g f d) num' sub' = ov d num' sub' := rfl
@[simp] theorem on_modGSeq (s g : Nat) (f : GSeq → GSeq) (num' sub' : Nat) : on (modGSeq s g f d) num' sub' = on d num' sub' := rfl

/-! ### modNSeq -/

@[simp] theorem modNSeq_phase (n : Nat) (f : NSeq → NSeq) : (modNSeq n f d).phase = d.phase := rfl
@[simp] theorem modNSeq_os (n : Nat) (f : NSeq → NSeq) : (modNSeq n f d).os = d.os := rfl
@[simp] theorem modNSeq_time (n : Nat) (f : NSeq → NSeq) : (modNSeq n f d).time = d.time := rfl
@[simp] theorem modNSeq_sched (n : Nat) (f : NSeq → NSeq) : (modNSeq n f d).sched = d.sched := rfl
@[simp] theorem modNSeq_guard (n : Nat) (f : NSeq → NSeq) : (modNSeq n f d).guard = d.guard := rfl
@[simp] theorem modNSeq_ev (n : Nat) (f : NSeq → NSeq) : (modNSeq n f d).ev = d.ev := rfl
@[simp] theorem modNSeq_lanes (n : Nat) (f : NSeq → NSeq) : (modNSeq n f d).lanes = d.lanes := rfl
@[simp] theorem modNSeq_stg (n : Nat) (f : NSeq → NSeq) : (modNSeq n f d).stg = d.stg := rfl
@[simp] theorem modNSeq_therm (n : Nat) (f : NSeq → NSeq) : (modNSeq n f d).therm = d.therm := rfl
@[simp] theorem modNSeq_lch (n : Nat) (f : NSeq → NSeq) : (modNSeq n f d).lch = d.lch := rfl
@[simp] theorem modNSeq_ses (n : Nat) (f : NSeq → NSeq) : (modNSeq n f d).ses = d.ses := rfl
@[simp] theorem modNSeq_dma (n : Nat) (f : NSeq → NSeq) : (modNSeq n f d).dma = d.dma := rfl
@[simp] theorem modNSeq_flash (n : Nat) (f : NSeq → NSeq) : (modNSeq n f d).flash = d.flash := rfl
@[simp] theorem modNSeq_keys (n : Nat) (f : NSeq → NSeq) : (modNSeq n f d).keys = d.keys := rfl
@[simp] theorem modNSeq_legal (n : Nat) (f : NSeq → NSeq) : (modNSeq n f d).legal = d.legal := rfl
@[simp] theorem modNSeq_bus (n : Nat) (f : NSeq → NSeq) : (modNSeq n f d).bus = d.bus := rfl
@[simp] theorem modNSeq_malpen (n : Nat) (f : NSeq → NSeq) : (modNSeq n f d).malpen = d.malpen := rfl
@[simp] theorem modNSeq_yard (n : Nat) (f : NSeq → NSeq) : (modNSeq n f d).yard = d.yard := rfl
@[simp] theorem modNSeq_pair (n : Nat) (f : NSeq → NSeq) : (modNSeq n f d).pair = d.pair := rfl
@[simp] theorem modNSeq_startup (n : Nat) (f : NSeq → NSeq) : (modNSeq n f d).startup = d.startup := rfl
@[simp] theorem modNSeq_update (n : Nat) (f : NSeq → NSeq) : (modNSeq n f d).update = d.update := rfl
@[simp] theorem modNSeq_mon (n : Nat) (f : NSeq → NSeq) : (modNSeq n f d).mon = d.mon := rfl
@[simp] theorem modNSeq_draws (n : Nat) (f : NSeq → NSeq) : (modNSeq n f d).draws = d.draws := rfl
@[simp] theorem modNSeq_sent (n : Nat) (f : NSeq → NSeq) : (modNSeq n f d).sent = d.sent := rfl
@[simp] theorem modNSeq_moved (n : Nat) (f : NSeq → NSeq) : (modNSeq n f d).moved = d.moved := rfl
@[simp] theorem ov_modNSeq (n : Nat) (f : NSeq → NSeq) (num' sub' : Nat) : ov (modNSeq n f d) num' sub' = ov d num' sub' := rfl
@[simp] theorem on_modNSeq (n : Nat) (f : NSeq → NSeq) (num' sub' : Nat) : on (modNSeq n f d) num' sub' = on d num' sub' := rfl

/-! ### modLch -/

@[simp] theorem modLch_phase (n : Nat) (f : LchS → LchS) : (modLch n f d).phase = d.phase := rfl
@[simp] theorem modLch_os (n : Nat) (f : LchS → LchS) : (modLch n f d).os = d.os := rfl
@[simp] theorem modLch_time (n : Nat) (f : LchS → LchS) : (modLch n f d).time = d.time := rfl
@[simp] theorem modLch_sched (n : Nat) (f : LchS → LchS) : (modLch n f d).sched = d.sched := rfl
@[simp] theorem modLch_guard (n : Nat) (f : LchS → LchS) : (modLch n f d).guard = d.guard := rfl
@[simp] theorem modLch_ev (n : Nat) (f : LchS → LchS) : (modLch n f d).ev = d.ev := rfl
@[simp] theorem modLch_lanes (n : Nat) (f : LchS → LchS) : (modLch n f d).lanes = d.lanes := rfl
@[simp] theorem modLch_stg (n : Nat) (f : LchS → LchS) : (modLch n f d).stg = d.stg := rfl
@[simp] theorem modLch_energy (n : Nat) (f : LchS → LchS) : (modLch n f d).energy = d.energy := rfl
@[simp] theorem modLch_therm (n : Nat) (f : LchS → LchS) : (modLch n f d).therm = d.therm := rfl
@[simp] theorem modLch_ses (n : Nat) (f : LchS → LchS) : (modLch n f d).ses = d.ses := rfl
@[simp] theorem modLch_dma (n : Nat) (f : LchS → LchS) : (modLch n f d).dma = d.dma := rfl
@[simp] theorem modLch_flash (n : Nat) (f : LchS → LchS) : (modLch n f d).flash = d.flash := rfl
@[simp] theorem modLch_keys (n : Nat) (f : LchS → LchS) : (modLch n f d).keys = d.keys := rfl
@[simp] theorem modLch_legal (n : Nat) (f : LchS → LchS) : (modLch n f d).legal = d.legal := rfl
@[simp] theorem modLch_bus (n : Nat) (f : LchS → LchS) : (modLch n f d).bus = d.bus := rfl
@[simp] theorem modLch_malpen (n : Nat) (f : LchS → LchS) : (modLch n f d).malpen = d.malpen := rfl
@[simp] theorem modLch_yard (n : Nat) (f : LchS → LchS) : (modLch n f d).yard = d.yard := rfl
@[simp] theorem modLch_pair (n : Nat) (f : LchS → LchS) : (modLch n f d).pair = d.pair := rfl
@[simp] theorem modLch_startup (n : Nat) (f : LchS → LchS) : (modLch n f d).startup = d.startup := rfl
@[simp] theorem modLch_update (n : Nat) (f : LchS → LchS) : (modLch n f d).update = d.update := rfl
@[simp] theorem modLch_mon (n : Nat) (f : LchS → LchS) : (modLch n f d).mon = d.mon := rfl
@[simp] theorem modLch_draws (n : Nat) (f : LchS → LchS) : (modLch n f d).draws = d.draws := rfl
@[simp] theorem modLch_sent (n : Nat) (f : LchS → LchS) : (modLch n f d).sent = d.sent := rfl
@[simp] theorem modLch_moved (n : Nat) (f : LchS → LchS) : (modLch n f d).moved = d.moved := rfl
@[simp] theorem ov_modLch (n : Nat) (f : LchS → LchS) (num' sub' : Nat) : ov (modLch n f d) num' sub' = ov d num' sub' := rfl
@[simp] theorem on_modLch (n : Nat) (f : LchS → LchS) (num' sub' : Nat) : on (modLch n f d) num' sub' = on d num' sub' := rfl

/-! ### modMal -/

@[simp] theorem modMal_phase (f : MalpenS → MalpenS) : (modMal f d).phase = d.phase := rfl
@[simp] theorem modMal_os (f : MalpenS → MalpenS) : (modMal f d).os = d.os := rfl
@[simp] theorem modMal_time (f : MalpenS → MalpenS) : (modMal f d).time = d.time := rfl
@[simp] theorem modMal_sched (f : MalpenS → MalpenS) : (modMal f d).sched = d.sched := rfl
@[simp] theorem modMal_guard (f : MalpenS → MalpenS) : (modMal f d).guard = d.guard := rfl
@[simp] theorem modMal_ev (f : MalpenS → MalpenS) : (modMal f d).ev = d.ev := rfl
@[simp] theorem modMal_lanes (f : MalpenS → MalpenS) : (modMal f d).lanes = d.lanes := rfl
@[simp] theorem modMal_stg (f : MalpenS → MalpenS) : (modMal f d).stg = d.stg := rfl
@[simp] theorem modMal_energy (f : MalpenS → MalpenS) : (modMal f d).energy = d.energy := rfl
@[simp] theorem modMal_therm (f : MalpenS → MalpenS) : (modMal f d).therm = d.therm := rfl
@[simp] theorem modMal_lch (f : MalpenS → MalpenS) : (modMal f d).lch = d.lch := rfl
@[simp] theorem modMal_ses (f : MalpenS → MalpenS) : (modMal f d).ses = d.ses := rfl
@[simp] theorem modMal_dma (f : MalpenS → MalpenS) : (modMal f d).dma = d.dma := rfl
@[simp] theorem modMal_flash (f : MalpenS → MalpenS) : (modMal f d).flash = d.flash := rfl
@[simp] theorem modMal_keys (f : MalpenS → MalpenS) : (modMal f d).keys = d.keys := rfl
@[simp] theorem modMal_legal (f : MalpenS → MalpenS) : (modMal f d).legal = d.legal := rfl
@[simp] theorem modMal_bus (f : MalpenS → MalpenS) : (modMal f d).bus = d.bus := rfl
@[simp] theorem modMal_yard (f : MalpenS → MalpenS) : (modMal f d).yard = d.yard := rfl
@[simp] theorem modMal_pair (f : MalpenS → MalpenS) : (modMal f d).pair = d.pair := rfl
@[simp] theorem modMal_startup (f : MalpenS → MalpenS) : (modMal f d).startup = d.startup := rfl
@[simp] theorem modMal_update (f : MalpenS → MalpenS) : (modMal f d).update = d.update := rfl
@[simp] theorem modMal_mon (f : MalpenS → MalpenS) : (modMal f d).mon = d.mon := rfl
@[simp] theorem modMal_draws (f : MalpenS → MalpenS) : (modMal f d).draws = d.draws := rfl
@[simp] theorem modMal_sent (f : MalpenS → MalpenS) : (modMal f d).sent = d.sent := rfl
@[simp] theorem modMal_moved (f : MalpenS → MalpenS) : (modMal f d).moved = d.moved := rfl
@[simp] theorem modMal_malpen (f : MalpenS → MalpenS) : (modMal f d).malpen = f d.malpen := rfl
@[simp] theorem ov_modMal (f : MalpenS → MalpenS) (num' sub' : Nat) : ov (modMal f d) num' sub' = ov d num' sub' := rfl
@[simp] theorem on_modMal (f : MalpenS → MalpenS) (num' sub' : Nat) : on (modMal f d) num' sub' = on d num' sub' := rfl

/-! ### modLegal -/

@[simp] theorem modLegal_phase (f : LegalS → LegalS) : (modLegal f d).phase = d.phase := rfl
@[simp] theorem modLegal_os (f : LegalS → LegalS) : (modLegal f d).os = d.os := rfl
@[simp] theorem modLegal_time (f : LegalS → LegalS) : (modLegal f d).time = d.time := rfl
@[simp] theorem modLegal_sched (f : LegalS → LegalS) : (modLegal f d).sched = d.sched := rfl
@[simp] theorem modLegal_guard (f : LegalS → LegalS) : (modLegal f d).guard = d.guard := rfl
@[simp] theorem modLegal_ev (f : LegalS → LegalS) : (modLegal f d).ev = d.ev := rfl
@[simp] theorem modLegal_lanes (f : LegalS → LegalS) : (modLegal f d).lanes = d.lanes := rfl
@[simp] theorem modLegal_stg (f : LegalS → LegalS) : (modLegal f d).stg = d.stg := rfl
@[simp] theorem modLegal_energy (f : LegalS → LegalS) : (modLegal f d).energy = d.energy := rfl
@[simp] theorem modLegal_therm (f : LegalS → LegalS) : (modLegal f d).therm = d.therm := rfl
@[simp] theorem modLegal_lch (f : LegalS → LegalS) : (modLegal f d).lch = d.lch := rfl
@[simp] theorem modLegal_ses (f : LegalS → LegalS) : (modLegal f d).ses = d.ses := rfl
@[simp] theorem modLegal_dma (f : LegalS → LegalS) : (modLegal f d).dma = d.dma := rfl
@[simp] theorem modLegal_flash (f : LegalS → LegalS) : (modLegal f d).flash = d.flash := rfl
@[simp] theorem modLegal_keys (f : LegalS → LegalS) : (modLegal f d).keys = d.keys := rfl
@[simp] theorem modLegal_bus (f : LegalS → LegalS) : (modLegal f d).bus = d.bus := rfl
@[simp] theorem modLegal_malpen (f : LegalS → LegalS) : (modLegal f d).malpen = d.malpen := rfl
@[simp] theorem modLegal_yard (f : LegalS → LegalS) : (modLegal f d).yard = d.yard := rfl
@[simp] theorem modLegal_pair (f : LegalS → LegalS) : (modLegal f d).pair = d.pair := rfl
@[simp] theorem modLegal_startup (f : LegalS → LegalS) : (modLegal f d).startup = d.startup := rfl
@[simp] theorem modLegal_update (f : LegalS → LegalS) : (modLegal f d).update = d.update := rfl
@[simp] theorem modLegal_mon (f : LegalS → LegalS) : (modLegal f d).mon = d.mon := rfl
@[simp] theorem modLegal_draws (f : LegalS → LegalS) : (modLegal f d).draws = d.draws := rfl
@[simp] theorem modLegal_sent (f : LegalS → LegalS) : (modLegal f d).sent = d.sent := rfl
@[simp] theorem modLegal_moved (f : LegalS → LegalS) : (modLegal f d).moved = d.moved := rfl
@[simp] theorem modLegal_legal (f : LegalS → LegalS) : (modLegal f d).legal = f d.legal := rfl
@[simp] theorem ov_modLegal (f : LegalS → LegalS) (num' sub' : Nat) : ov (modLegal f d) num' sub' = ov d num' sub' := rfl
@[simp] theorem on_modLegal (f : LegalS → LegalS) (num' sub' : Nat) : on (modLegal f d) num' sub' = on d num' sub' := rfl

/-! ### modCh -/

@[simp] theorem modCh_phase (m : Nat) (f : ChanS → ChanS) : (modCh m f d).phase = d.phase := rfl
@[simp] theorem modCh_os (m : Nat) (f : ChanS → ChanS) : (modCh m f d).os = d.os := rfl
@[simp] theorem modCh_time (m : Nat) (f : ChanS → ChanS) : (modCh m f d).time = d.time := rfl
@[simp] theorem modCh_sched (m : Nat) (f : ChanS → ChanS) : (modCh m f d).sched = d.sched := rfl
@[simp] theorem modCh_guard (m : Nat) (f : ChanS → ChanS) : (modCh m f d).guard = d.guard := rfl
@[simp] theorem modCh_ev (m : Nat) (f : ChanS → ChanS) : (modCh m f d).ev = d.ev := rfl
@[simp] theorem modCh_lanes (m : Nat) (f : ChanS → ChanS) : (modCh m f d).lanes = d.lanes := rfl
@[simp] theorem modCh_stg (m : Nat) (f : ChanS → ChanS) : (modCh m f d).stg = d.stg := rfl
@[simp] theorem modCh_energy (m : Nat) (f : ChanS → ChanS) : (modCh m f d).energy = d.energy := rfl
@[simp] theorem modCh_therm (m : Nat) (f : ChanS → ChanS) : (modCh m f d).therm = d.therm := rfl
@[simp] theorem modCh_lch (m : Nat) (f : ChanS → ChanS) : (modCh m f d).lch = d.lch := rfl
@[simp] theorem modCh_ses (m : Nat) (f : ChanS → ChanS) : (modCh m f d).ses = d.ses := rfl
@[simp] theorem modCh_dma (m : Nat) (f : ChanS → ChanS) : (modCh m f d).dma = d.dma := rfl
@[simp] theorem modCh_flash (m : Nat) (f : ChanS → ChanS) : (modCh m f d).flash = d.flash := rfl
@[simp] theorem modCh_keys (m : Nat) (f : ChanS → ChanS) : (modCh m f d).keys = d.keys := rfl
@[simp] theorem modCh_bus (m : Nat) (f : ChanS → ChanS) : (modCh m f d).bus = d.bus := rfl
@[simp] theorem modCh_malpen (m : Nat) (f : ChanS → ChanS) : (modCh m f d).malpen = d.malpen := rfl
@[simp] theorem modCh_yard (m : Nat) (f : ChanS → ChanS) : (modCh m f d).yard = d.yard := rfl
@[simp] theorem modCh_pair (m : Nat) (f : ChanS → ChanS) : (modCh m f d).pair = d.pair := rfl
@[simp] theorem modCh_startup (m : Nat) (f : ChanS → ChanS) : (modCh m f d).startup = d.startup := rfl
@[simp] theorem modCh_update (m : Nat) (f : ChanS → ChanS) : (modCh m f d).update = d.update := rfl
@[simp] theorem modCh_mon (m : Nat) (f : ChanS → ChanS) : (modCh m f d).mon = d.mon := rfl
@[simp] theorem modCh_draws (m : Nat) (f : ChanS → ChanS) : (modCh m f d).draws = d.draws := rfl
@[simp] theorem modCh_sent (m : Nat) (f : ChanS → ChanS) : (modCh m f d).sent = d.sent := rfl
@[simp] theorem modCh_moved (m : Nat) (f : ChanS → ChanS) : (modCh m f d).moved = d.moved := rfl
@[simp] theorem ov_modCh (m : Nat) (f : ChanS → ChanS) (num' sub' : Nat) : ov (modCh m f d) num' sub' = ov d num' sub' := rfl
@[simp] theorem on_modCh (m : Nat) (f : ChanS → ChanS) (num' sub' : Nat) : on (modCh m f d) num' sub' = on d num' sub' := rfl

/-! ### modIntake -/

@[simp] theorem modIntake_phase (k : Nat) (f : IntakeS → IntakeS) : (modIntake k f d).phase = d.phase := rfl
@[simp] theorem modIntake_os (k : Nat) (f : IntakeS → IntakeS) : (modIntake k f d).os = d.os := rfl
@[simp] theorem modIntake_time (k : Nat) (f : IntakeS → IntakeS) : (modIntake k f d).time = d.time := rfl
@[simp] theorem modIntake_sched (k : Nat) (f : IntakeS → IntakeS) : (modIntake k f d).sched = d.sched := rfl
@[simp] theorem modIntake_guard (k : Nat) (f : IntakeS → IntakeS) : (modIntake k f d).guard = d.guard := rfl
@[simp] theorem modIntake_ev (k : Nat) (f : IntakeS → IntakeS) : (modIntake k f d).ev = d.ev := rfl
@[simp] theorem modIntake_lanes (k : Nat) (f : IntakeS → IntakeS) : (modIntake k f d).lanes = d.lanes := rfl
@[simp] theorem modIntake_stg (k : Nat) (f : IntakeS → IntakeS) : (modIntake k f d).stg = d.stg := rfl
@[simp] theorem modIntake_energy (k : Nat) (f : IntakeS → IntakeS) : (modIntake k f d).energy = d.energy := rfl
@[simp] theorem modIntake_therm (k : Nat) (f : IntakeS → IntakeS) : (modIntake k f d).therm = d.therm := rfl
@[simp] theorem modIntake_lch (k : Nat) (f : IntakeS → IntakeS) : (modIntake k f d).lch = d.lch := rfl
@[simp] theorem modIntake_ses (k : Nat) (f : IntakeS → IntakeS) : (modIntake k f d).ses = d.ses := rfl
@[simp] theorem modIntake_dma (k : Nat) (f : IntakeS → IntakeS) : (modIntake k f d).dma = d.dma := rfl
@[simp] theorem modIntake_flash (k : Nat) (f : IntakeS → IntakeS) : (modIntake k f d).flash = d.flash := rfl
@[simp] theorem modIntake_keys (k : Nat) (f : IntakeS → IntakeS) : (modIntake k f d).keys = d.keys := rfl
@[simp] theorem modIntake_bus (k : Nat) (f : IntakeS → IntakeS) : (modIntake k f d).bus = d.bus := rfl
@[simp] theorem modIntake_malpen (k : Nat) (f : IntakeS → IntakeS) : (modIntake k f d).malpen = d.malpen := rfl
@[simp] theorem modIntake_yard (k : Nat) (f : IntakeS → IntakeS) : (modIntake k f d).yard = d.yard := rfl
@[simp] theorem modIntake_pair (k : Nat) (f : IntakeS → IntakeS) : (modIntake k f d).pair = d.pair := rfl
@[simp] theorem modIntake_startup (k : Nat) (f : IntakeS → IntakeS) : (modIntake k f d).startup = d.startup := rfl
@[simp] theorem modIntake_update (k : Nat) (f : IntakeS → IntakeS) : (modIntake k f d).update = d.update := rfl
@[simp] theorem modIntake_mon (k : Nat) (f : IntakeS → IntakeS) : (modIntake k f d).mon = d.mon := rfl
@[simp] theorem modIntake_draws (k : Nat) (f : IntakeS → IntakeS) : (modIntake k f d).draws = d.draws := rfl
@[simp] theorem modIntake_sent (k : Nat) (f : IntakeS → IntakeS) : (modIntake k f d).sent = d.sent := rfl
@[simp] theorem modIntake_moved (k : Nat) (f : IntakeS → IntakeS) : (modIntake k f d).moved = d.moved := rfl
@[simp] theorem ov_modIntake (k : Nat) (f : IntakeS → IntakeS) (num' sub' : Nat) : ov (modIntake k f d) num' sub' = ov d num' sub' := rfl
@[simp] theorem on_modIntake (k : Nat) (f : IntakeS → IntakeS) (num' sub' : Nat) : on (modIntake k f d) num' sub' = on d num' sub' := rfl

/-! ### modMon -/

@[simp] theorem modMon_phase (f : MonS → MonS) : (modMon f d).phase = d.phase := rfl
@[simp] theorem modMon_os (f : MonS → MonS) : (modMon f d).os = d.os := rfl
@[simp] theorem modMon_time (f : MonS → MonS) : (modMon f d).time = d.time := rfl
@[simp] theorem modMon_sched (f : MonS → MonS) : (modMon f d).sched = d.sched := rfl
@[simp] theorem modMon_guard (f : MonS → MonS) : (modMon f d).guard = d.guard := rfl
@[simp] theorem modMon_ev (f : MonS → MonS) : (modMon f d).ev = d.ev := rfl
@[simp] theorem modMon_lanes (f : MonS → MonS) : (modMon f d).lanes = d.lanes := rfl
@[simp] theorem modMon_stg (f : MonS → MonS) : (modMon f d).stg = d.stg := rfl
@[simp] theorem modMon_energy (f : MonS → MonS) : (modMon f d).energy = d.energy := rfl
@[simp] theorem modMon_therm (f : MonS → MonS) : (modMon f d).therm = d.therm := rfl
@[simp] theorem modMon_lch (f : MonS → MonS) : (modMon f d).lch = d.lch := rfl
@[simp] theorem modMon_ses (f : MonS → MonS) : (modMon f d).ses = d.ses := rfl
@[simp] theorem modMon_dma (f : MonS → MonS) : (modMon f d).dma = d.dma := rfl
@[simp] theorem modMon_flash (f : MonS → MonS) : (modMon f d).flash = d.flash := rfl
@[simp] theorem modMon_keys (f : MonS → MonS) : (modMon f d).keys = d.keys := rfl
@[simp] theorem modMon_legal (f : MonS → MonS) : (modMon f d).legal = d.legal := rfl
@[simp] theorem modMon_bus (f : MonS → MonS) : (modMon f d).bus = d.bus := rfl
@[simp] theorem modMon_malpen (f : MonS → MonS) : (modMon f d).malpen = d.malpen := rfl
@[simp] theorem modMon_yard (f : MonS → MonS) : (modMon f d).yard = d.yard := rfl
@[simp] theorem modMon_pair (f : MonS → MonS) : (modMon f d).pair = d.pair := rfl
@[simp] theorem modMon_startup (f : MonS → MonS) : (modMon f d).startup = d.startup := rfl
@[simp] theorem modMon_update (f : MonS → MonS) : (modMon f d).update = d.update := rfl
@[simp] theorem modMon_draws (f : MonS → MonS) : (modMon f d).draws = d.draws := rfl
@[simp] theorem modMon_sent (f : MonS → MonS) : (modMon f d).sent = d.sent := rfl
@[simp] theorem modMon_moved (f : MonS → MonS) : (modMon f d).moved = d.moved := rfl
@[simp] theorem modMon_mon (f : MonS → MonS) : (modMon f d).mon = f d.mon := rfl
@[simp] theorem ov_modMon (f : MonS → MonS) (num' sub' : Nat) : ov (modMon f d) num' sub' = ov d num' sub' := rfl
@[simp] theorem on_modMon (f : MonS → MonS) (num' sub' : Nat) : on (modMon f d) num' sub' = on d num' sub' := rfl

/-! ### modPair -/

@[simp] theorem modPair_phase (f : PairS → PairS) : (modPair f d).phase = d.phase := rfl
@[simp] theorem modPair_os (f : PairS → PairS) : (modPair f d).os = d.os := rfl
@[simp] theorem modPair_time (f : PairS → PairS) : (modPair f d).time = d.time := rfl
@[simp] theorem modPair_sched (f : PairS → PairS) : (modPair f d).sched = d.sched := rfl
@[simp] theorem modPair_guard (f : PairS → PairS) : (modPair f d).guard = d.guard := rfl
@[simp] theorem modPair_ev (f : PairS → PairS) : (modPair f d).ev = d.ev := rfl
@[simp] theorem modPair_lanes (f : PairS → PairS) : (modPair f d).lanes = d.lanes := rfl
@[simp] theorem modPair_stg (f : PairS → PairS) : (modPair f d).stg = d.stg := rfl
@[simp] theorem modPair_energy (f : PairS → PairS) : (modPair f d).energy = d.energy := rfl
@[simp] theorem modPair_therm (f : PairS → PairS) : (modPair f d).therm = d.therm := rfl
@[simp] theorem modPair_lch (f : PairS → PairS) : (modPair f d).lch = d.lch := rfl
@[simp] theorem modPair_ses (f : PairS → PairS) : (modPair f d).ses = d.ses := rfl
@[simp] theorem modPair_dma (f : PairS → PairS) : (modPair f d).dma = d.dma := rfl
@[simp] theorem modPair_flash (f : PairS → PairS) : (modPair f d).flash = d.flash := rfl
@[simp] theorem modPair_keys (f : PairS → PairS) : (modPair f d).keys = d.keys := rfl
@[simp] theorem modPair_legal (f : PairS → PairS) : (modPair f d).legal = d.legal := rfl
@[simp] theorem modPair_bus (f : PairS → PairS) : (modPair f d).bus = d.bus := rfl
@[simp] theorem modPair_malpen (f : PairS → PairS) : (modPair f d).malpen = d.malpen := rfl
@[simp] theorem modPair_yard (f : PairS → PairS) : (modPair f d).yard = d.yard := rfl
@[simp] theorem modPair_startup (f : PairS → PairS) : (modPair f d).startup = d.startup := rfl
@[simp] theorem modPair_update (f : PairS → PairS) : (modPair f d).update = d.update := rfl
@[simp] theorem modPair_mon (f : PairS → PairS) : (modPair f d).mon = d.mon := rfl
@[simp] theorem modPair_draws (f : PairS → PairS) : (modPair f d).draws = d.draws := rfl
@[simp] theorem modPair_sent (f : PairS → PairS) : (modPair f d).sent = d.sent := rfl
@[simp] theorem modPair_moved (f : PairS → PairS) : (modPair f d).moved = d.moved := rfl
@[simp] theorem modPair_pair (f : PairS → PairS) : (modPair f d).pair = f d.pair := rfl
@[simp] theorem ov_modPair (f : PairS → PairS) (num' sub' : Nat) : ov (modPair f d) num' sub' = ov d num' sub' := rfl
@[simp] theorem on_modPair (f : PairS → PairS) (num' sub' : Nat) : on (modPair f d) num' sub' = on d num' sub' := rfl

/-! ### modPart -/

@[simp] theorem modPart_phase (i : Nat) (f : PartS → PartS) : (modPart i f d).phase = d.phase := rfl
@[simp] theorem modPart_os (i : Nat) (f : PartS → PartS) : (modPart i f d).os = d.os := rfl
@[simp] theorem modPart_time (i : Nat) (f : PartS → PartS) : (modPart i f d).time = d.time := rfl
@[simp] theorem modPart_sched (i : Nat) (f : PartS → PartS) : (modPart i f d).sched = d.sched := rfl
@[simp] theorem modPart_guard (i : Nat) (f : PartS → PartS) : (modPart i f d).guard = d.guard := rfl
@[simp] theorem modPart_ev (i : Nat) (f : PartS → PartS) : (modPart i f d).ev = d.ev := rfl
@[simp] theorem modPart_lanes (i : Nat) (f : PartS → PartS) : (modPart i f d).lanes = d.lanes := rfl
@[simp] theorem modPart_stg (i : Nat) (f : PartS → PartS) : (modPart i f d).stg = d.stg := rfl
@[simp] theorem modPart_energy (i : Nat) (f : PartS → PartS) : (modPart i f d).energy = d.energy := rfl
@[simp] theorem modPart_therm (i : Nat) (f : PartS → PartS) : (modPart i f d).therm = d.therm := rfl
@[simp] theorem modPart_lch (i : Nat) (f : PartS → PartS) : (modPart i f d).lch = d.lch := rfl
@[simp] theorem modPart_ses (i : Nat) (f : PartS → PartS) : (modPart i f d).ses = d.ses := rfl
@[simp] theorem modPart_dma (i : Nat) (f : PartS → PartS) : (modPart i f d).dma = d.dma := rfl
@[simp] theorem modPart_keys (i : Nat) (f : PartS → PartS) : (modPart i f d).keys = d.keys := rfl
@[simp] theorem modPart_legal (i : Nat) (f : PartS → PartS) : (modPart i f d).legal = d.legal := rfl
@[simp] theorem modPart_bus (i : Nat) (f : PartS → PartS) : (modPart i f d).bus = d.bus := rfl
@[simp] theorem modPart_malpen (i : Nat) (f : PartS → PartS) : (modPart i f d).malpen = d.malpen := rfl
@[simp] theorem modPart_yard (i : Nat) (f : PartS → PartS) : (modPart i f d).yard = d.yard := rfl
@[simp] theorem modPart_pair (i : Nat) (f : PartS → PartS) : (modPart i f d).pair = d.pair := rfl
@[simp] theorem modPart_startup (i : Nat) (f : PartS → PartS) : (modPart i f d).startup = d.startup := rfl
@[simp] theorem modPart_update (i : Nat) (f : PartS → PartS) : (modPart i f d).update = d.update := rfl
@[simp] theorem modPart_mon (i : Nat) (f : PartS → PartS) : (modPart i f d).mon = d.mon := rfl
@[simp] theorem modPart_draws (i : Nat) (f : PartS → PartS) : (modPart i f d).draws = d.draws := rfl
@[simp] theorem modPart_sent (i : Nat) (f : PartS → PartS) : (modPart i f d).sent = d.sent := rfl
@[simp] theorem modPart_moved (i : Nat) (f : PartS → PartS) : (modPart i f d).moved = d.moved := rfl
@[simp] theorem ov_modPart (i : Nat) (f : PartS → PartS) (num' sub' : Nat) : ov (modPart i f d) num' sub' = ov d num' sub' := rfl
@[simp] theorem on_modPart (i : Nat) (f : PartS → PartS) (num' sub' : Nat) : on (modPart i f d) num' sub' = on d num' sub' := rfl

/-! ### modCtx -/

@[simp] theorem modCtx_phase (n : Nat) (f : CtxS → CtxS) : (modCtx n f d).phase = d.phase := rfl
@[simp] theorem modCtx_os (n : Nat) (f : CtxS → CtxS) : (modCtx n f d).os = d.os := rfl
@[simp] theorem modCtx_time (n : Nat) (f : CtxS → CtxS) : (modCtx n f d).time = d.time := rfl
@[simp] theorem modCtx_sched (n : Nat) (f : CtxS → CtxS) : (modCtx n f d).sched = d.sched := rfl
@[simp] theorem modCtx_guard (n : Nat) (f : CtxS → CtxS) : (modCtx n f d).guard = d.guard := rfl
@[simp] theorem modCtx_ev (n : Nat) (f : CtxS → CtxS) : (modCtx n f d).ev = d.ev := rfl
@[simp] theorem modCtx_lanes (n : Nat) (f : CtxS → CtxS) : (modCtx n f d).lanes = d.lanes := rfl
@[simp] theorem modCtx_stg (n : Nat) (f : CtxS → CtxS) : (modCtx n f d).stg = d.stg := rfl
@[simp] theorem modCtx_energy (n : Nat) (f : CtxS → CtxS) : (modCtx n f d).energy = d.energy := rfl
@[simp] theorem modCtx_therm (n : Nat) (f : CtxS → CtxS) : (modCtx n f d).therm = d.therm := rfl
@[simp] theorem modCtx_lch (n : Nat) (f : CtxS → CtxS) : (modCtx n f d).lch = d.lch := rfl
@[simp] theorem modCtx_dma (n : Nat) (f : CtxS → CtxS) : (modCtx n f d).dma = d.dma := rfl
@[simp] theorem modCtx_flash (n : Nat) (f : CtxS → CtxS) : (modCtx n f d).flash = d.flash := rfl
@[simp] theorem modCtx_keys (n : Nat) (f : CtxS → CtxS) : (modCtx n f d).keys = d.keys := rfl
@[simp] theorem modCtx_legal (n : Nat) (f : CtxS → CtxS) : (modCtx n f d).legal = d.legal := rfl
@[simp] theorem modCtx_bus (n : Nat) (f : CtxS → CtxS) : (modCtx n f d).bus = d.bus := rfl
@[simp] theorem modCtx_malpen (n : Nat) (f : CtxS → CtxS) : (modCtx n f d).malpen = d.malpen := rfl
@[simp] theorem modCtx_yard (n : Nat) (f : CtxS → CtxS) : (modCtx n f d).yard = d.yard := rfl
@[simp] theorem modCtx_pair (n : Nat) (f : CtxS → CtxS) : (modCtx n f d).pair = d.pair := rfl
@[simp] theorem modCtx_startup (n : Nat) (f : CtxS → CtxS) : (modCtx n f d).startup = d.startup := rfl
@[simp] theorem modCtx_update (n : Nat) (f : CtxS → CtxS) : (modCtx n f d).update = d.update := rfl
@[simp] theorem modCtx_mon (n : Nat) (f : CtxS → CtxS) : (modCtx n f d).mon = d.mon := rfl
@[simp] theorem modCtx_draws (n : Nat) (f : CtxS → CtxS) : (modCtx n f d).draws = d.draws := rfl
@[simp] theorem modCtx_sent (n : Nat) (f : CtxS → CtxS) : (modCtx n f d).sent = d.sent := rfl
@[simp] theorem modCtx_moved (n : Nat) (f : CtxS → CtxS) : (modCtx n f d).moved = d.moved := rfl
@[simp] theorem ov_modCtx (n : Nat) (f : CtxS → CtxS) (num' sub' : Nat) : ov (modCtx n f d) num' sub' = ov d num' sub' := rfl
@[simp] theorem on_modCtx (n : Nat) (f : CtxS → CtxS) (num' sub' : Nat) : on (modCtx n f d) num' sub' = on d num' sub' := rfl

/-! ### modStart -/

@[simp] theorem modStart_phase (f : StartS → StartS) : (modStart f d).phase = d.phase := rfl
@[simp] theorem modStart_os (f : StartS → StartS) : (modStart f d).os = d.os := rfl
@[simp] theorem modStart_time (f : StartS → StartS) : (modStart f d).time = d.time := rfl
@[simp] theorem modStart_sched (f : StartS → StartS) : (modStart f d).sched = d.sched := rfl
@[simp] theorem modStart_guard (f : StartS → StartS) : (modStart f d).guard = d.guard := rfl
@[simp] theorem modStart_ev (f : StartS → StartS) : (modStart f d).ev = d.ev := rfl
@[simp] theorem modStart_lanes (f : StartS → StartS) : (modStart f d).lanes = d.lanes := rfl
@[simp] theorem modStart_stg (f : StartS → StartS) : (modStart f d).stg = d.stg := rfl
@[simp] theorem modStart_energy (f : StartS → StartS) : (modStart f d).energy = d.energy := rfl
@[simp] theorem modStart_therm (f : StartS → StartS) : (modStart f d).therm = d.therm := rfl
@[simp] theorem modStart_lch (f : StartS → StartS) : (modStart f d).lch = d.lch := rfl
@[simp] theorem modStart_ses (f : StartS → StartS) : (modStart f d).ses = d.ses := rfl
@[simp] theorem modStart_dma (f : StartS → StartS) : (modStart f d).dma = d.dma := rfl
@[simp] theorem modStart_flash (f : StartS → StartS) : (modStart f d).flash = d.flash := rfl
@[simp] theorem modStart_keys (f : StartS → StartS) : (modStart f d).keys = d.keys := rfl
@[simp] theorem modStart_legal (f : StartS → StartS) : (modStart f d).legal = d.legal := rfl
@[simp] theorem modStart_bus (f : StartS → StartS) : (modStart f d).bus = d.bus := rfl
@[simp] theorem modStart_malpen (f : StartS → StartS) : (modStart f d).malpen = d.malpen := rfl
@[simp] theorem modStart_yard (f : StartS → StartS) : (modStart f d).yard = d.yard := rfl
@[simp] theorem modStart_pair (f : StartS → StartS) : (modStart f d).pair = d.pair := rfl
@[simp] theorem modStart_update (f : StartS → StartS) : (modStart f d).update = d.update := rfl
@[simp] theorem modStart_mon (f : StartS → StartS) : (modStart f d).mon = d.mon := rfl
@[simp] theorem modStart_draws (f : StartS → StartS) : (modStart f d).draws = d.draws := rfl
@[simp] theorem modStart_sent (f : StartS → StartS) : (modStart f d).sent = d.sent := rfl
@[simp] theorem modStart_moved (f : StartS → StartS) : (modStart f d).moved = d.moved := rfl
@[simp] theorem modStart_startup (f : StartS → StartS) : (modStart f d).startup = f d.startup := rfl
@[simp] theorem ov_modStart (f : StartS → StartS) (num' sub' : Nat) : ov (modStart f d) num' sub' = ov d num' sub' := rfl
@[simp] theorem on_modStart (f : StartS → StartS) (num' sub' : Nat) : on (modStart f d) num' sub' = on d num' sub' := rfl

/-! ### modUpd -/

@[simp] theorem modUpd_phase (f : UpdS → UpdS) : (modUpd f d).phase = d.phase := rfl
@[simp] theorem modUpd_os (f : UpdS → UpdS) : (modUpd f d).os = d.os := rfl
@[simp] theorem modUpd_time (f : UpdS → UpdS) : (modUpd f d).time = d.time := rfl
@[simp] theorem modUpd_sched (f : UpdS → UpdS) : (modUpd f d).sched = d.sched := rfl
@[simp] theorem modUpd_guard (f : UpdS → UpdS) : (modUpd f d).guard = d.guard := rfl
@[simp] theorem modUpd_ev (f : UpdS → UpdS) : (modUpd f d).ev = d.ev := rfl
@[simp] theorem modUpd_lanes (f : UpdS → UpdS) : (modUpd f d).lanes = d.lanes := rfl
@[simp] theorem modUpd_stg (f : UpdS → UpdS) : (modUpd f d).stg = d.stg := rfl
@[simp] theorem modUpd_energy (f : UpdS → UpdS) : (modUpd f d).energy = d.energy := rfl
@[simp] theorem modUpd_therm (f : UpdS → UpdS) : (modUpd f d).therm = d.therm := rfl
@[simp] theorem modUpd_lch (f : UpdS → UpdS) : (modUpd f d).lch = d.lch := rfl
@[simp] theorem modUpd_ses (f : UpdS → UpdS) : (modUpd f d).ses = d.ses := rfl
@[simp] theorem modUpd_dma (f : UpdS → UpdS) : (modUpd f d).dma = d.dma := rfl
@[simp] theorem modUpd_flash (f : UpdS → UpdS) : (modUpd f d).flash = d.flash := rfl
@[simp] theorem modUpd_keys (f : UpdS → UpdS) : (modUpd f d).keys = d.keys := rfl
@[simp] theorem modUpd_legal (f : UpdS → UpdS) : (modUpd f d).legal = d.legal := rfl
@[simp] theorem modUpd_bus (f : UpdS → UpdS) : (modUpd f d).bus = d.bus := rfl
@[simp] theorem modUpd_malpen (f : UpdS → UpdS) : (modUpd f d).malpen = d.malpen := rfl
@[simp] theorem modUpd_yard (f : UpdS → UpdS) : (modUpd f d).yard = d.yard := rfl
@[simp] theorem modUpd_pair (f : UpdS → UpdS) : (modUpd f d).pair = d.pair := rfl
@[simp] theorem modUpd_startup (f : UpdS → UpdS) : (modUpd f d).startup = d.startup := rfl
@[simp] theorem modUpd_mon (f : UpdS → UpdS) : (modUpd f d).mon = d.mon := rfl
@[simp] theorem modUpd_draws (f : UpdS → UpdS) : (modUpd f d).draws = d.draws := rfl
@[simp] theorem modUpd_sent (f : UpdS → UpdS) : (modUpd f d).sent = d.sent := rfl
@[simp] theorem modUpd_moved (f : UpdS → UpdS) : (modUpd f d).moved = d.moved := rfl
@[simp] theorem modUpd_update (f : UpdS → UpdS) : (modUpd f d).update = f d.update := rfl
@[simp] theorem ov_modUpd (f : UpdS → UpdS) (num' sub' : Nat) : ov (modUpd f d) num' sub' = ov d num' sub' := rfl
@[simp] theorem on_modUpd (f : UpdS → UpdS) (num' sub' : Nat) : on (modUpd f d) num' sub' = on d num' sub' := rfl

/-! ### modYard -/

@[simp] theorem modYard_phase (f : YardS → YardS) : (modYard f d).phase = d.phase := rfl
@[simp] theorem modYard_os (f : YardS → YardS) : (modYard f d).os = d.os := rfl
@[simp] theorem modYard_time (f : YardS → YardS) : (modYard f d).time = d.time := rfl
@[simp] theorem modYard_sched (f : YardS → YardS) : (modYard f d).sched = d.sched := rfl
@[simp] theorem modYard_guard (f : YardS → YardS) : (modYard f d).guard = d.guard := rfl
@[simp] theorem modYard_ev (f : YardS → YardS) : (modYard f d).ev = d.ev := rfl
@[simp] theorem modYard_lanes (f : YardS → YardS) : (modYard f d).lanes = d.lanes := rfl
@[simp] theorem modYard_stg (f : YardS → YardS) : (modYard f d).stg = d.stg := rfl
@[simp] theorem modYard_energy (f : YardS → YardS) : (modYard f d).energy = d.energy := rfl
@[simp] theorem modYard_therm (f : YardS → YardS) : (modYard f d).therm = d.therm := rfl
@[simp] theorem modYard_lch (f : YardS → YardS) : (modYard f d).lch = d.lch := rfl
@[simp] theorem modYard_ses (f : YardS → YardS) : (modYard f d).ses = d.ses := rfl
@[simp] theorem modYard_dma (f : YardS → YardS) : (modYard f d).dma = d.dma := rfl
@[simp] theorem modYard_flash (f : YardS → YardS) : (modYard f d).flash = d.flash := rfl
@[simp] theorem modYard_keys (f : YardS → YardS) : (modYard f d).keys = d.keys := rfl
@[simp] theorem modYard_legal (f : YardS → YardS) : (modYard f d).legal = d.legal := rfl
@[simp] theorem modYard_bus (f : YardS → YardS) : (modYard f d).bus = d.bus := rfl
@[simp] theorem modYard_malpen (f : YardS → YardS) : (modYard f d).malpen = d.malpen := rfl
@[simp] theorem modYard_pair (f : YardS → YardS) : (modYard f d).pair = d.pair := rfl
@[simp] theorem modYard_startup (f : YardS → YardS) : (modYard f d).startup = d.startup := rfl
@[simp] theorem modYard_update (f : YardS → YardS) : (modYard f d).update = d.update := rfl
@[simp] theorem modYard_mon (f : YardS → YardS) : (modYard f d).mon = d.mon := rfl
@[simp] theorem modYard_draws (f : YardS → YardS) : (modYard f d).draws = d.draws := rfl
@[simp] theorem modYard_sent (f : YardS → YardS) : (modYard f d).sent = d.sent := rfl
@[simp] theorem modYard_moved (f : YardS → YardS) : (modYard f d).moved = d.moved := rfl
@[simp] theorem modYard_yard (f : YardS → YardS) : (modYard f d).yard = f d.yard := rfl
@[simp] theorem ov_modYard (f : YardS → YardS) (num' sub' : Nat) : ov (modYard f d) num' sub' = ov d num' sub' := rfl
@[simp] theorem on_modYard (f : YardS → YardS) (num' sub' : Nat) : on (modYard f d) num' sub' = on d num' sub' := rfl

end Sys2Proof.Machine
end

