-- ==== Sys2Proof/Laws/Lists.lean ====
section
/-! SUPPORT. Reading an element of a list of like things after an update: the element updated, and every other one. -/

namespace Sys2Proof.Machine

theorem getD_modAt_same {α : Type} [Inhabited α] (l : List α) (i : Nat) (f : α → α) :
    (modAt l i f).getD i default = f (l.getD i default) := by
  induction i generalizing l with
  | zero => cases l <;> rfl
  | succ i ih =>
    cases l with
    | nil => exact ih []
    | cons a l => exact ih l

theorem getD_modAt_other {α : Type} [Inhabited α] (l : List α) (i j : Nat) (f : α → α) (h : i ≠ j) :
    (modAt l i f).getD j default = l.getD j default := by
  induction i generalizing l j with
  | zero =>
    cases j with
    | zero => exact absurd rfl h
    | succ j => cases l <;> simp [modAt]
  | succ i ih =>
    cases j with
    | zero => cases l <;> rfl
    | succ j =>
      have h' : i ≠ j := fun e => h (by rw [e])
      cases l with
      | nil => exact ih [] j h'
      | cons a l => exact ih l j h'

variable (d : Dev)

@[simp] theorem lch_modLch_same (n : Nat) (f : LchS → LchS) : lch (modLch n f d) n = f (lch d n) := getD_modAt_same _ _ _

theorem lch_modLch_other (n k : Nat) (f : LchS → LchS) (h : n ≠ k) : lch (modLch n f d) k = lch d k := getD_modAt_other _ _ _ _ h

@[simp] theorem stgS_modStg_same (n : Nat) (f : StgS → StgS) : stgS (modStg n f d) n = f (stgS d n) := getD_modAt_same _ _ _

theorem stgS_modStg_other (n k : Nat) (f : StgS → StgS) (h : n ≠ k) : stgS (modStg n f d) k = stgS d k := getD_modAt_other _ _ _ _ h

@[simp] theorem laneS_modLane_same (n : Nat) (f : LaneS → LaneS) : laneS (modLane n f d) n = f (laneS d n) := getD_modAt_same _ _ _

theorem laneS_modLane_other (n k : Nat) (f : LaneS → LaneS) (h : n ≠ k) : laneS (modLane n f d) k = laneS d k := getD_modAt_other _ _ _ _ h

@[simp] theorem fbS_modFb_same (n : Nat) (f : FbS → FbS) : fbS (modFb n f d) n = f (fbS d n) := getD_modAt_same _ _ _

theorem fbS_modFb_other (n k : Nat) (f : FbS → FbS) (h : n ≠ k) : fbS (modFb n f d) k = fbS d k := getD_modAt_other _ _ _ _ h

@[simp] theorem ring_modRing_same (n : Nat) (f : RingS → RingS) : ring (modRing n f d) n = f (ring d n) := getD_modAt_same _ _ _

theorem ring_modRing_other (n k : Nat) (f : RingS → RingS) (h : n ≠ k) : ring (modRing n f d) k = ring d k := getD_modAt_other _ _ _ _ h

@[simp] theorem ctx_modCtx_same (n : Nat) (f : CtxS → CtxS) : ctx (modCtx n f d) n = f (ctx d n) := getD_modAt_same _ _ _

theorem ctx_modCtx_other (n k : Nat) (f : CtxS → CtxS) (h : n ≠ k) : ctx (modCtx n f d) k = ctx d k := getD_modAt_other _ _ _ _ h

@[simp] theorem chanS_modCh_same (n : Nat) (f : ChanS → ChanS) : chanS (modCh n f d) n = f (chanS d n) := getD_modAt_same _ _ _

theorem chanS_modCh_other (n k : Nat) (f : ChanS → ChanS) (h : n ≠ k) : chanS (modCh n f d) k = chanS d k := getD_modAt_other _ _ _ _ h

@[simp] theorem intakeS_modIntake_same (n : Nat) (f : IntakeS → IntakeS) : intakeS (modIntake n f d) n = f (intakeS d n) := getD_modAt_same _ _ _

theorem intakeS_modIntake_other (n k : Nat) (f : IntakeS → IntakeS) (h : n ≠ k) : intakeS (modIntake n f d) k = intakeS d k := getD_modAt_other _ _ _ _ h

@[simp] theorem nSeq_modNSeq_same (n : Nat) (f : NSeq → NSeq) : nSeq (modNSeq n f d) n = f (nSeq d n) := getD_modAt_same _ _ _

theorem nSeq_modNSeq_other (n k : Nat) (f : NSeq → NSeq) (h : n ≠ k) : nSeq (modNSeq n f d) k = nSeq d k := getD_modAt_other _ _ _ _ h

@[simp] theorem gSeq_modGSeq_same (s g : Nat) (f : GSeq → GSeq) : gSeq (modGSeq s g f d) s g = f (gSeq d s g) := getD_modAt_same _ _ _

end Sys2Proof.Machine
end

