-- ==== Sys2Proof/Laws/Store.lean ====
section
/-! SUPPORT. The object store: what a value put into force reads as, and that every other object keeps its value. -/

namespace Sys2Proof.Machine

theorem storeFind_storeIns_same (l : Store) (k : Nat) (v : Val) : storeFind (storeIns l k v) k = some v := by
  induction l with
  | nil => simp [storeIns, storeFind]
  | cons p l ih =>
    obtain ⟨j, w⟩ := p
    unfold storeIns
    split
    · simp [storeFind]
    · split
      · simp [storeFind]
      · have h : j ≠ k := by omega
        simp [storeFind, h, ih]

theorem storeFind_storeIns_other (l : Store) (k j : Nat) (v : Val) (h : k ≠ j) :
    storeFind (storeIns l k v) j = storeFind l j := by
  induction l with
  | nil => simp [storeIns, storeFind, h]
  | cons p l ih =>
    obtain ⟨i, w⟩ := p
    unfold storeIns
    split
    · simp [storeFind, h]
    · split
      · subst_vars; simp [storeFind, h]
      · simp [storeFind, ih]

theorem storeFind_storeDel_same (l : Store) (k : Nat) : storeFind (storeDel l k) k = none := by
  induction l with
  | nil => rfl
  | cons p l ih =>
    obtain ⟨j, w⟩ := p
    unfold storeDel at *
    by_cases h : j = k <;> simp [h, storeFind, ih]

theorem storeFind_storeDel_other (l : Store) (k j : Nat) (h : k ≠ j) : storeFind (storeDel l k) j = storeFind l j := by
  induction l with
  | nil => rfl
  | cons p l ih =>
    obtain ⟨i, w⟩ := p
    unfold storeDel at *
    by_cases hi : i = k
    · subst hi; simp [storeFind, ih, h]
    · simp [hi, storeFind, ih]

/-- A value written reads back, whether it is listed or equals the default. -/
@[simp] theorem storeGet_storeSet_same (l : Store) (k : Nat) (v : Val) : storeGet (storeSet l k v) k = v := by
  unfold storeGet storeSet
  split
  · rw [storeFind_storeDel_same]; simp_all
  · rw [storeFind_storeIns_same]; rfl

/-- A write leaves every other object alone. -/
theorem storeGet_storeSet_other (l : Store) (k j : Nat) (v : Val) (h : k ≠ j) :
    storeGet (storeSet l k v) j = storeGet l j := by
  unfold storeGet storeSet
  split
  · rw [storeFind_storeDel_other _ _ _ h]
  · rw [storeFind_storeIns_other _ _ _ _ h]

variable (d : Dev)

@[simp] theorem ov_put_same (num sub n : Nat) : ov (put num sub n d) num sub = .num n := by
  simp [ov, put, putV]

theorem ov_put_other (num sub n num' sub' : Nat) (h : okey num sub ≠ okey num' sub') :
    ov (put num sub n d) num' sub' = ov d num' sub' := by
  simp [ov, put, putV, storeGet_storeSet_other _ _ _ _ h]

@[simp] theorem ov_putb_same (num sub : Nat) (b : Bytes) : ov (putb num sub b d) num sub = .bytes b := by
  simp [ov, putb, putV]

theorem ov_putb_other (num sub : Nat) (b : Bytes) (num' sub' : Nat) (h : okey num sub ≠ okey num' sub') :
    ov (putb num sub b d) num' sub' = ov d num' sub' := by
  simp [ov, putb, putV, storeGet_storeSet_other _ _ _ _ h]

@[simp] theorem on_put_same (num sub n : Nat) : on (put num sub n d) num sub = n := by simp [on, valNat]

theorem on_put_other (num sub n num' sub' : Nat) (h : okey num sub ≠ okey num' sub') :
    on (put num sub n d) num' sub' = on d num' sub' := by simp [on, ov_put_other _ _ _ _ _ _ h]

theorem on_putb_other (num sub : Nat) (b : Bytes) (num' sub' : Nat) (h : okey num sub ≠ okey num' sub') :
    on (putb num sub b d) num' sub' = on d num' sub' := by simp [on, ov_putb_other _ _ _ _ _ _ h]

@[simp] theorem on_setStatus_same (num sub bit : Nat) : on (setStatus num sub bit d) num sub = setBit (on d num sub) bit := by
  simp [setStatus]

@[simp] theorem on_clrStatus_same (num sub bit : Nat) : on (clrStatus num sub bit d) num sub = clearBit (on d num sub) bit := by
  simp [clrStatus]

@[simp] theorem on_incr_same (w num sub : Nat) : on (incr w num sub d) num sub = incSat w (on d num sub) := by simp [incr]

theorem on_setStatus_other (num sub bit num' sub' : Nat) (h : okey num sub ≠ okey num' sub') :
    on (setStatus num sub bit d) num' sub' = on d num' sub' := on_put_other _ _ _ _ _ _ h

theorem on_clrStatus_other (num sub bit num' sub' : Nat) (h : okey num sub ≠ okey num' sub') :
    on (clrStatus num sub bit d) num' sub' = on d num' sub' := on_put_other _ _ _ _ _ _ h

theorem on_incr_other (w num sub num' sub' : Nat) (h : okey num sub ≠ okey num' sub') :
    on (incr w num sub d) num' sub' = on d num' sub' := on_put_other _ _ _ _ _ _ h

end Sys2Proof.Machine
end

