-- ==== Sys2Proof/Laws/Settle.lean ====
section
/-! SUPPORT. What follows every command (`settle`) may move only the events, the monitor, client sessions, bus queues, the
record store, what is sent, and four objects that count or mark them. -/

namespace Sys2Proof.Machine

open Sys2Proof

/-- What may follow from any command. -/
structure Follows (d e : Dev) : Prop where
  parts : OnlyParts [] d e
  objs : ∀ num sub, sub < 256 → moves num sub = false → ov e num sub = ov d num sub
  pend : e.os.pend = d.os.pend
  raised : ∀ code inst ended, raised d code inst ended = true → raised e code inst ended = true
  sent : ∀ t, t ∈ d.sent → t ∈ e.sent
  queued : ∀ b f, f ∈ (fbS d b).tx → f ∈ (fbS e b).tx

theorem Follows.refl (d : Dev) : Follows d d :=
  ⟨fun p _ => by cases p <;> first | rfl | exact fun _ => rfl, fun _ _ _ _ => rfl, rfl, fun _ _ _ h => h, fun _ h => h, fun _ _ h => h⟩

theorem Follows.trans {d e f : Dev} (h : Follows d e) (k : Follows e f) : Follows d f := by
  refine ⟨fun p hp => ?_, fun n s h1 h2 => (k.objs n s h1 h2).trans (h.objs n s h1 h2), k.pend.trans h.pend,
    fun c i b x => k.raised c i b (h.raised c i b x), fun t x => k.sent t (h.sent t x), fun b f x => k.queued b f (h.queued b f x)⟩
  have a := h.parts p hp
  have b := k.parts p hp
  cases p
  case bus => exact fun n => (b n).trans (a n)
  case dma => exact fun n => (b n).trans (a n)
  all_goals exact Eq.trans b a

theorem forEach_follows {α : Type} (l : List α) (f : α → Dev → Dev) (h : ∀ a d, Follows d (f a d)) (d : Dev) :
    Follows d (forEach l f d) := by
  induction l generalizing d with
  | nil => exact .refl d
  | cons a l ih => exact (h a d).trans (ih (f a d))

/-- An update that leaves the parts, the objects and the open events alone. -/
theorem Follows.of_same {d e : Dev} (hp : OnlyParts [] d e) (ho : e.os = d.os) (hv : e.ev.opened = d.ev.opened)
    (hs : ∀ t, t ∈ d.sent → t ∈ e.sent) (hq : ∀ b f, f ∈ (fbS d b).tx → f ∈ (fbS e b).tx := by exact fun _ _ h => h) :
    Follows d e :=
  ⟨hp, fun _ _ _ _ => by simp [ov, ho], by rw [ho], fun _ _ _ h => by simpa [Sys2Proof.raised, hv] using h, hs, hq⟩

/-- The parts of a device whose fields are the same. -/
theorem onlyParts_of_fields {d e : Dev} (h : e = { d with os := e.os, ev := e.ev, sent := e.sent }) : OnlyParts [] d e := by
  intro p _
  rw [h]
  cases p <;> first | rfl | exact fun _ => rfl

theorem onlyParts_put (num sub n : Nat) (d : Dev) : OnlyParts [] d (put num sub n d) := onlyParts_of_fields rfl

theorem okey_inj {a b c e : Nat} (hb : b < 256) (he : e < 256) (h : okey a b = okey c e) : a = c ∧ b = e := by
  unfold okey at h; omega

theorem put_follows (num sub n : Nat) (d : Dev) (h1 : moves num sub = true) (hs : sub < 256) :
    Follows d (put num sub n d) := by
  refine ⟨onlyParts_put _ _ _ d, fun m s hm hr => ov_put_other _ _ _ _ _ _ (fun h => ?_), rfl, fun _ _ _ h => h, fun _ h => h,
    fun _ _ h => h⟩
  obtain ⟨rfl, rfl⟩ := okey_inj hs hm h
  rw [h1] at hr
  cases hr

theorem setStatus_follows (num sub bit : Nat) (d : Dev) (h1 : moves num sub = true) (hs : sub < 256) :
    Follows d (setStatus num sub bit d) := put_follows _ _ _ _ h1 hs

theorem incr_follows (w num sub : Nat) (d : Dev) (h1 : moves num sub = true) (hs : sub < 256) :
    Follows d (incr w num sub d) := put_follows _ _ _ _ h1 hs

theorem emit_follows (t : Tx) (d : Dev) : Follows d (emit t d) :=
  .of_same (onlyParts_of_fields rfl) rfl rfl (fun _ h => List.mem_cons_of_mem _ h)

theorem modMon_follows (f : MonS → MonS) (h : ∀ m, monCore (f m) = monCore m) (d : Dev) : Follows d (modMon f d) :=
  .of_same (fun p _ => by cases p <;> first | exact h _ | rfl | exact fun _ => rfl) rfl rfl (fun _ h => h)

theorem malpenSes_follows (f : MSes → MSes) (h : ∀ x, { f x with txc := 0, evSent := 0 } = { x with txc := 0, evSent := 0 }) (d : Dev) :
    Follows d { d with malpen := { d.malpen with ses := d.malpen.ses.map f } } :=
  .of_same (fun p _ => by
    cases p <;> first
      | rfl
      | exact fun _ => rfl
      | (simp only [Part.Same, malpenCore, List.map_map, MalpenS.mk.injEq, and_true]
         exact List.map_congr_left (fun x _ => h x))) rfl rfl (fun _ h => h)

theorem modFb_follows (b : Nat) (f : FbS → FbS) (h : ∀ x, busCore (f x) = busCore x) (hq : ∀ x g, g ∈ x.tx → g ∈ (f x).tx) (d : Dev) :
    Follows d (modFb b f d) :=
  .of_same (fun p _ => by
    cases p <;> first
      | rfl
      | exact fun _ => rfl
      | (intro n
         by_cases hn : b = n
         · subst hn; rw [fbS_modFb_same]; exact h _
         · rw [fbS_modFb_other _ _ _ _ hn])) rfl rfl (fun _ h => h) (fun n g hg => by
    by_cases hn : b = n
    · subst hn; rw [fbS_modFb_same]; exact hq _ _ hg
    · rw [fbS_modFb_other _ _ _ _ hn]; exact hg)

theorem flash_follows (f : FlashS) (d : Dev) (h : flashCore f = flashCore d.flash) : Follows d { d with flash := f } :=
  .of_same (fun p _ => by cases p <;> first | exact h | rfl | exact fun _ => rfl) rfl rfl (fun _ h => h)

/-! ### Raising an event -/

/-- Folding keeps what `raised` looks at. -/
theorem raised_evRaise_mono (code inst data flags micro civil : Nat) (ev : EventS) (p : EvRec → Bool)
    (hp : ∀ e n, p (evFold n e) = p e) (h : ev.opened.any p = true) : (evRaise code inst data flags micro civil ev).opened.any p = true := by
  unfold evRaise
  split
  · simp only [List.any_map]
    obtain ⟨e, he, hpe⟩ := List.any_eq_true.1 h
    refine List.any_eq_true.2 ⟨e, he, ?_⟩
    simp only [Function.comp]
    split
    · rw [hp]; exact hpe
    · exact hpe
  · simp [h]

/-- The event just raised stands among the open ones. -/
theorem evRaise_opened (code inst data flags micro civil : Nat) (ev : EventS) (p : EvRec → Bool)
    (hp : ∀ e : EvRec, e.isOpen = true → e.code = code → e.inst = inst → e.flags = flags → p e = true) :
    (evRaise code inst data flags micro civil ev).opened.any p = true := by
  unfold evRaise
  split
  case isTrue h =>
    obtain ⟨e, he, hs⟩ := List.any_eq_true.1 h
    simp only [List.any_map]
    refine List.any_eq_true.2 ⟨e, he, ?_⟩
    have hs' := hs
    simp only [evSame, Bool.and_eq_true, beq_iff_eq] at hs
    simp only [Function.comp, hs', if_true]
    exact hp _ hs.1.1.1 hs.1.1.2 hs.1.2 hs.2
  · simp [hp]

theorem evFlags_bit1 (d : Dev) (b : Bool) : (evFlags d b).testBit 1 = b := by
  unfold evFlags; cases b <;> cases (d.pair.role == Role.standby) <;> rfl

/-- RAISE: the event is among those of the running minor frame. -/
@[simp] theorem raised_raise (code inst data : Nat) (d : Dev) : raised (raise code inst data d) code inst = true := by
  unfold raised raise
  refine evRaise_opened _ _ _ _ _ _ _ _ (fun e h1 h2 h3 h4 => ?_)
  simp only [h1, h2, h3, h4, evFlags_bit1, beq_self_eq_true, Bool.and_self]

@[simp] theorem raised_raiseEnd (code inst data : Nat) (d : Dev) : raised (raiseEnd code inst data d) code inst true = true := by
  unfold raised raiseEnd
  refine evRaise_opened _ _ _ _ _ _ _ _ (fun e h1 h2 h3 h4 => ?_)
  simp only [h1, h2, h3, h4, evFlags_bit1, beq_self_eq_true, Bool.and_self]

/-- What was raised stays raised when another event is raised. -/
theorem raised_raise_mono (code inst data : Nat) (d : Dev) (c i : Nat) (b : Bool) (h : raised d c i b = true) :
    raised (raise code inst data d) c i b = true := raised_evRaise_mono _ _ _ _ _ _ _ _ (fun _ _ => rfl) h

theorem raised_raiseEnd_mono (code inst data : Nat) (d : Dev) (c i : Nat) (b : Bool) (h : raised d c i b = true) :
    raised (raiseEnd code inst data d) c i b = true := raised_evRaise_mono _ _ _ _ _ _ _ _ (fun _ _ => rfl) h

/-- Only the events matter to `raised`. -/
theorem raised_congr {d e : Dev} (h : e.ev = d.ev) (c i : Nat) (b : Bool) : raised e c i b = raised d c i b := by simp [raised, h]

theorem raise_follows (code inst data : Nat) (d : Dev) : Follows d (raise code inst data d) :=
  ⟨onlyParts_of_fields rfl, fun _ _ _ _ => rfl, rfl, fun _ _ _ h => raised_raise_mono _ _ _ _ _ _ _ h, fun _ h => h, fun _ _ h => h⟩

/-! ### The rings that what follows passes through -/

theorem moves_ringBook (r sub : Nat) (hr : r < 16) (hs : [2, 3, 4, 6].contains sub = true) : moves (0x3200 + r) sub = true := by
  have a : (decide (0x3200 ≤ 0x3200 + r) && decide (0x3200 + r < 0x3210)) = true := by simp; omega
  simp only [moves, ringBook, a, hs, Bool.and_self, Bool.or_true]

theorem modRing_follows (r : Nat) (f : RingS → RingS) (h : ∀ x, ringCore (f x) = ringCore x) (d : Dev) : Follows d (modRing r f d) :=
  .of_same (fun p _ => by
    cases p <;> first
      | rfl
      | exact fun _ => rfl
      | (intro n
         by_cases hn : r = n
         · subst hn; rw [ring_modRing_same]; exact h _
         · rw [ring_modRing_other _ _ _ _ hn])) rfl rfl (fun _ h => h)

theorem put_ring_follows (r sub v : Nat) (d : Dev) (hr : r < 16) (h : [2, 3, 4, 6].contains sub = true) :
    Follows d (put (0x3200 + r) sub v d) := put_follows _ _ _ _ (moves_ringBook r sub hr h) (by simp at h; omega)

theorem ringFull_follows (r : Nat) (d : Dev) (hr : r < 16) : Follows d (ringFull r d) := by
  unfold ringFull
  dsimp only
  split
  · exact put_ring_follows r 6 _ _ hr rfl
  · exact (put_ring_follows r 6 _ _ hr rfl).trans (.trans (modRing_follows _ _ (by exact fun _ => rfl) _) (raise_follows _ _ _ _))

/-- What passes through a ring moves its books and its waiting descriptors, and what follows it (R421, R422). -/
theorem ringPass_follows (r : Nat) (its : List RingItem) (go lost : Dev → Dev) (d : Dev) (hr : r < 16)
    (hg : ∀ x, Follows x (go x)) (hl : ∀ x, Follows x (lost x)) : Follows d (ringPass r its go lost d) := by
  unfold ringPass
  split
  · exact hg d
  · split
    · exact hl d
    · split
      · have h3 : Follows d (ringStep r 3 its.length d) := put_ring_follows r 3 _ _ hr rfl
        have h2 : ∀ x, Follows x (ringDone r its.length x) := fun x =>
          (put_ring_follows r 2 _ _ hr rfl).trans (put_ring_follows r 4 _ _ hr rfl)
        exact (h3.trans (h2 _)).trans (hg _)
      · split
        · exact (ringFull_follows r d hr).trans (hl _)
        · refine (put_ring_follows r 3 _ _ hr rfl).trans (modRing_follows _ _ (fun x => ?_) _)
          simp [ringCore, List.filter_append, List.filter_map, Function.comp_def]

/-! ### The parts of `settle` -/

theorem monSend_follows (cmd seq : Nat) (b : Bytes) (d : Dev) : Follows d (monSend cmd seq b d) :=
  (incr_follows 32 0x3403 2 d (by decide) (by decide)).trans (emit_follows _ _)

theorem traceSend_follows (rs : List Bytes) (d : Dev) : Follows d (traceSend rs d) :=
  forEach_follows _ _ (fun _ _ => monSend_follows _ _ _ _) _

theorem traceDrop_follows (n : Nat) (d : Dev) : Follows d (traceDrop n d) := by
  refine Follows.trans (modMon_follows _ (fun _ => ?_) d) (put_follows _ _ _ _ ?_ ?_) <;> first | rfl | decide

theorem tracePost_follows (rs : List Bytes) (d : Dev) : Follows d (tracePost rs d) := by
  unfold tracePost
  split
  · exact .refl d
  · dsimp only
    generalize (if d.mon.lost = 0 then rs else traceRec d 5 (natLe 4 (satU 32 d.mon.lost)) :: rs) = all
    split
    · exact (modMon_follows (fun m => { m with lost := 0 }) (fun _ => rfl) d).trans
        (ringPass_follows 15 _ _ _ _ (by decide) (traceSend_follows _) (fun x => .refl x))
    · exact ringPass_follows 15 _ _ _ _ (by decide) (fun x => .refl x) (traceDrop_follows _)

theorem traceEvent_follows (e : EvRec) (d : Dev) : Follows d (traceEvent e d) := by
  unfold traceEvent; split
  · exact tracePost_follows _ _
  · exact .refl d

theorem fbSend_follows (b prio typ dest : Nat) (p : Bytes) (d : Dev) : Follows d (fbSend b prio typ dest p d) := by
  unfold fbSend; split
  · exact modFb_follows _ _ (by exact fun _ => rfl) (fun _ _ h => List.mem_append_left _ h) _
  · exact .refl d

theorem sendPdu_follows (c : Client) (b : Bytes) (d : Dev) : Follows d (sendPdu c b d) := by
  unfold sendPdu
  split
  · exact .refl d
  · split
    · exact fbSend_follows _ _ _ _ _ _
    · split
      · exact (malpenSes_follows _ (fun x => by dsimp only; split <;> rfl) _).trans
          (ringPass_follows 12 _ _ _ _ (by decide) (emit_follows _) (fun x => .refl x))
      · exact ringPass_follows 12 _ _ _ _ (by decide) (emit_follows _) (fun x => .refl x)

theorem notifyEvent_follows (e : EvRec) (d : Dev) : Follows d (notifyEvent e d) := by
  unfold notifyEvent
  refine forEach_follows _ _ (fun s d => ?_) d
  split
  · exact .refl d
  · dsimp only
    split
    · exact (malpenSes_follows _ (fun x => by dsimp only; split <;> rfl) d).trans (fbSend_follows _ _ _ _ _ _)
    · exact (malpenSes_follows _ (fun x => by dsimp only; split <;> rfl) d).trans (sendPdu_follows _ _ _)

theorem capTrigger_follows (s code : Nat) (d : Dev) : Follows d (capTrigger s code d) := by
  unfold capTrigger
  split
  · exact .refl d
  · split
    · exact flash_follows _ _ rfl
    · split
      · exact ((incr_follows 32 0x3332 2 d (by decide) (by decide)).trans
          (setStatus_follows _ _ _ _ (by decide) (by decide))).trans (raise_follows _ _ _ _)
      · refine Follows.trans (flash_follows _ d ?_) (setStatus_follows _ _ _ _ ?_ ?_) <;> first | rfl | decide

theorem capOnEvent_follows (e : EvRec) (d : Dev) : Follows d (capOnEvent e d) := by
  unfold capOnEvent
  split
  · exact .refl d
  · split
    · exact capTrigger_follows _ _ _
    · split
      · exact forEach_follows _ _ (fun _ _ => capTrigger_follows _ _ _) _
      · exact .refl d

theorem tellEvent_follows (e : EvRec) (d : Dev) : Follows d (tellEvent e d) :=
  ((notifyEvent_follows e d).trans (traceEvent_follows e _)).trans (capOnEvent_follows e _)

theorem monRate_follows (d : Dev) : Follows d (monRate d) := by
  unfold monRate; split
  · exact .refl d
  · exact modMon_follows _ (by exact fun _ => rfl) _

/-- What follows a command leaves the parts, every object that does not count or mark them, and what was raised. -/
theorem settle_follows (d : Dev) : Follows d (settle d) := by
  have hf : ∀ x : Dev, Follows x { x with ev := { x.ev with fresh := [] } } :=
    fun x => .of_same (onlyParts_of_fields rfl) rfl rfl (fun _ h => h)
  unfold settle
  split
  · exact ((monRate_follows d).trans (hf _)).trans (forEach_follows _ _ tellEvent_follows _)
  · exact hf d

end Sys2Proof.Machine
end

