-- ==== Sys2Proof/Laws/Command.lean ====
section
/-! SUPPORT. How a command's update of the device shows in its next state: through what follows every command. -/

namespace Sys2Proof.Machine

open Sys2Proof

/-- The device as a command's update finds it: nothing sent yet. -/
def fresh (s : State) : Dev := { s.dev with sent := [] }

/-- A command that acts on the device alone answers a state reached through what follows. -/
theorem act_completes {c : Instr} {s : State} {f : Dev → Dev} {P : Dev → Prop} (hc : exec c s = act f s)
    (hP : ∀ e, Follows (f (fresh s)) e → P e) : Completes c s P :=
  ⟨_, hc, rfl, rfl, hP _ (settle_follows _)⟩

theorem actMem_completes {c : Instr} {s : State} {f : Dev → Mem → Dev × Mem} {P : Dev → Mem → Prop} (hc : exec c s = actMem f s)
    (hP : ∀ e, Follows (f (fresh s) s.mem).1 e → P e (f (fresh s) s.mem).2) : CompletesMem c s P :=
  ⟨_, hc, rfl, hP _ (settle_follows _)⟩

/-- Reading an object through what follows. -/
theorem Follows.ov {d e : Dev} (h : Follows d e) (num sub : Nat) (hs : sub < 256) (hn : moves num sub = false) : ov e num sub = ov d num sub :=
  h.objs num sub hs hn

theorem Follows.on {d e : Dev} (h : Follows d e) (num sub : Nat) (hs : sub < 256) (hn : moves num sub = false) :
    on e num sub = on d num sub := by
  unfold Machine.on; rw [h.objs num sub hs hn]

theorem moves_counted {num sub : Nat} (h : counted num sub = false) : moves num sub = false := by
  simp only [counted, Bool.or_eq_false_iff, Bool.and_eq_false_iff, decide_eq_false_iff_not] at h
  simp only [moves, mayMove, Bool.or_eq_false_iff, List.contains_eq_mem, List.mem_cons, List.not_mem_nil, or_false,
    decide_eq_false_iff_not]
  exact ⟨by omega, h.2⟩

theorem Follows.same {d e : Dev} (h : Follows d e) (ks : List (Nat × Nat)) : SameObjects ks d e := fun num sub hs hr _ =>
  h.objs num sub hs (moves_counted hr)

theorem Follows.answered {d e : Dev} (h : Follows d e) (code : Nat) (ha : answered d code = true) : answered e code = true := by
  unfold Sys2Proof.answered at *
  simp only [List.contains_iff_mem] at *
  exact h.sent _ ha

theorem Follows.part {d e : Dev} (h : Follows d e) (p : Part) : p.Same d e := h.parts p (by simp)

@[simp] theorem answered_emit (code : Nat) (d : Dev) : answered (emit (.result code) d) code = true := by
  simp [answered, emit]

@[simp] theorem running_fresh (s : State) : running (fresh s) = running s.dev := rfl

/-- Every write row is the write of the object it names. -/
theorem exec_write {c : Instr} {w : Write} (h : writeOf c = some w) (s : State) :
    exec c s = act (directWrite w.role w.num w.sub w.value) s := by
  have hn : ∀ {role num sub n v : Nat} {w : Write}, numWrite role num sub n v = some w →
      directNum role num sub n v = directWrite w.role w.num w.sub w.value := by
    intro role num sub n v w h
    funext d
    unfold numWrite at h
    split at h
    · cases h; simp [directNum, *]
    · cases h
  have hb : ∀ {i k : Nat} {x : Option Write} {w : Write}, blockWrite i k x = some w → i < k ∧ x = some w := by
    intro i k x w h
    unfold blockWrite at h
    split at h
    · exact ⟨‹_›, h⟩
    · cases h
  cases c <;> simp only [writeOf] at h <;> first
    | cases h; done
    | (cases h; rfl)
    | (exact congrArg (fun f => act f s) (hn h))
    | (obtain ⟨h1, h2⟩ := hb h
       first
         | (simp only [exec, execScClearWrite, execSupCmdWrite, execShortClearWrite, execConSeqClearWrite, execStgSeqClearWrite,
              execConThermClearWrite, execStgThermClearWrite, execLchCmdWrite, execLockClearWrite, execLatchClearWrite,
              execSesAuthWrite, execSesStopWrite, execSesDirWrite]
            refine congrArg (fun f => act f s) (Eq.trans ?_ (hn h2))
            funext d
            simp only [writeStg, writeCon, writeLch, writeSes, h1, if_true])
         | (cases h2
            simp only [exec, execMatrixTableWrite, execSesChainWrite, execKeyPubWrite, h1, if_true]))

end Sys2Proof.Machine
end

