-- ==== Sys2Proof/Laws/Frames.lean ====
section
/-! SUPPORT. Frames through sequences of updates: rules for the parts of the device, for its objects, and for what follows. -/

namespace Sys2Proof

open Machine

/-! ### Parts -/

theorem OnlyParts.refl (L : List Part) (d : Dev) : OnlyParts L d d := fun p _ => by
  cases p <;> first | rfl | exact fun _ => rfl

theorem OnlyParts.trans {L : List Part} {d e f : Dev} (h : OnlyParts L d e) (k : OnlyParts L e f) : OnlyParts L d f := by
  intro p hp
  have a := h p hp
  have b := k p hp
  cases p
  case bus => exact fun n => (b n).trans (a n)
  case dma => exact fun n => (b n).trans (a n)
  all_goals exact Eq.trans b a

theorem OnlyParts.mono {L M : List Part} {d e : Dev} (h : OnlyParts L d e) (k : ∀ p ∈ L, p ∈ M) : OnlyParts M d e :=
  fun p hp => h p (fun hq => hp (k p hq))

theorem OnlyParts.step {L M : List Part} {d x e : Dev} (h : OnlyParts L x e) (k : ∀ p ∈ L, p ∈ M) (hx : OnlyParts M d x) :
    OnlyParts M d e := hx.trans (h.mono k)

theorem OnlyParts.ite {L : List Part} {c : Prop} [Decidable c] {d x y : Dev} (h : OnlyParts L d x) (k : OnlyParts L d y) :
    OnlyParts L d (if c then x else y) := by split <;> assumption

theorem OnlyParts.forEach {α : Type} {L : List Part} {l : List α} {f : α → Dev → Dev} {d x : Dev}
    (h : ∀ a y, OnlyParts L y (f a y)) (k : OnlyParts L d x) : OnlyParts L d (forEach l f x) := by
  refine k.trans ?_
  clear k
  induction l generalizing x with
  | nil => exact .refl L x
  | cons a l ih => exact (h a x).trans (ih (x := f a x))

/-! ### Objects -/

theorem SameObjects.refl (ks : List (Nat × Nat)) (d : Dev) : SameObjects ks d d := fun _ _ _ _ _ => rfl

theorem SameObjects.trans {ks : List (Nat × Nat)} {d e f : Dev} (h : SameObjects ks d e) (k : SameObjects ks e f) :
    SameObjects ks d f := fun n s h1 h2 h3 => (k n s h1 h2 h3).trans (h n s h1 h2 h3)

theorem SameObjects.mono {ks ls : List (Nat × Nat)} {d e : Dev} (h : SameObjects ks d e) (k : ∀ p ∈ ks, p ∈ ls) :
    SameObjects ls d e := fun n s h1 h2 h3 => h n s h1 h2 (fun x => h3 (k _ x))

/-- An update that leaves the store in force alone. -/
theorem SameObjects.of_cur {ks : List (Nat × Nat)} {d e : Dev} (h : e.os.cur = d.os.cur) : SameObjects ks d e :=
  fun _ _ _ _ _ => by simp [ov, h]

theorem SameObjects.put {ks : List (Nat × Nat)} {d x : Dev} {num sub n : Nat} (hs : sub < 256) (h : (num, sub) ∈ ks)
    (k : SameObjects ks d x) : SameObjects ks d (put num sub n x) := by
  refine k.trans (fun m t h1 _ h3 => ov_put_other _ _ _ _ _ _ (fun e => ?_))
  obtain ⟨rfl, rfl⟩ := okey_inj hs h1 e
  exact h3 h

theorem SameObjects.putb {ks : List (Nat × Nat)} {d x : Dev} {num sub : Nat} {b : Bytes} (hs : sub < 256) (h : (num, sub) ∈ ks)
    (k : SameObjects ks d x) : SameObjects ks d (putb num sub b x) := by
  refine k.trans (fun m t h1 _ h3 => ov_putb_other _ _ _ _ _ _ (fun e => ?_))
  obtain ⟨rfl, rfl⟩ := okey_inj hs h1 e
  exact h3 h

theorem SameObjects.forEach {α : Type} {ks : List (Nat × Nat)} {l : List α} {f : α → Dev → Dev} {d x : Dev}
    (h : ∀ a y, a ∈ l → SameObjects ks y (f a y)) (k : SameObjects ks d x) : SameObjects ks d (forEach l f x) := by
  refine k.trans ?_
  clear k
  induction l generalizing x with
  | nil => exact .refl ks x
  | cons a l ih => exact (h a x (by simp)).trans (ih (x := f a x) (fun b y hb => h b y (by simp [hb])))

/-! ### Frames -/

theorem Framed.refl (ps : List Part) (ks : List (Nat × Nat)) (d : Dev) : Framed ps ks d d := ⟨.refl _ _, .refl _ _, rfl⟩

/-- A frame is kept by what follows the command. -/
theorem Framed.follow {ps : List Part} {ks : List (Nat × Nat)} {d e f : Dev} (h : Framed ps ks d e) (k : Follows e f) : Framed ps ks d f :=
  ⟨h.1.trans (k.parts.mono (by simp)), h.2.1.trans (k.same _), k.pend.trans h.2.2⟩

/-- An update that writes only fields of the parts named. -/
theorem Framed.of_os {ps : List Part} {ks : List (Nat × Nat)} {d e : Dev} (h : OnlyParts ps d e) (ho : e.os = d.os) : Framed ps ks d e :=
  ⟨h, .of_cur (by rw [ho]), by rw [ho]⟩

end Sys2Proof
end

