-- ==== Sys2Proof/Tests/States.lean ====
section
/-! SUPPORT. The small states and operands of the tests: one namespace for each group of statements. -/

namespace Sys2Proof.Tests
open Sys2Proof Sys2Proof.Machine
def szr (d : Dev) : Dev := (List.range 16).foldl (fun d r => put (0x3200 + r) 1 16 d) d
def up (f : Dev → Dev) : State := { State.reset with dev := f (szr { State.reset.dev with phase := .running, pair := { State.reset.dev.pair with role := .single } }) }
def img0 : Image := { micro := 4, flags := 0, cells := 2, sequence := 1, siteId := 0, lanes := (List.range 48).map (fun l => if l < 2 ∨ l = 32 then 1 else 0), stages := [⟨6, 2, 0⟩, ⟨4, 1, 0⟩], disps := [⟨2, 0, 0⟩], dir := [], slots := [], binds := [], digest := List.replicate 32 7, ofsSlots := 0, ofsBinds := 0 }
def wimg (im : Image) (d : Dev) : Dev := { d with sched := { d.sched with image := some im } }
def wl (l : Nat) (x : LaneS) (d : Dev) : Dev := { d with lanes := { d.lanes with lanes := setAt d.lanes.lanes l x } }
def role (r : Role) (d : Dev) : Dev := { d with pair := { d.pair with role := r } }
def wtime (f : TimeS → TimeS) (d : Dev) : Dev := { d with time := f d.time }
def upl : LaneS := { mode := 1, st := .up, ctl := true }
def pending (p : Pend) (d : Dev) : Dev := { d with os := { d.os with pend := d.os.pend ++ [p] } }
def mkF (kind seq : Nat) (fields : Bytes) : Frame :=
  let x := laneFrame kind seq fields
  { kind := kind, ver := 1, seq := seq, words := (fields.length + 8) / 8, hcrc := byteAt x 6, body := x.drop 7, stop := stopBlock }

def sk : Nat := 123456789
def pubB : Bytes := match p256Mul sk (some p256G) with | some (x, y) => natLe 32 x ++ natLe 32 y | none => []
def sgn (slot : Nat) (b : Bytes) : Bytes :=
  let m := b ++ natLe 4 slot ++ natLe 4 0
  let m0 := b
  let (r, s) := ecdsaSign sk (sha256 m0) (List.replicate 32 9)
  m ++ natLe 32 r ++ natLe 32 s
def cmpo (k : Nat) : Comp := ⟨k, 7, 1, sgn (k % 4) [BitVec.ofNat 8 k, 1, 2]⟩
def bun : Bundle := ⟨5, [1,2,3,4].map cmpo⟩
def pubs (d : Dev) : Dev := [(0,4),(1,2),(2,3),(3,4)].foldl (fun d p =>
  let d := putb (0x530 + p.1) 2 pubB (put (0x530 + p.1) 1 p.2 d)
  { d with os := { d.os with nor := storeSet (storeSet d.os.nor (okey (0x530 + p.1) 1) (.num p.2)) (okey (0x530 + p.1) 2) (.bytes pubB) } }) d
def upd (f : UpdS → UpdS) (d : Dev) : Dev := { d with update := f d.update }
def su (f : StartS → StartS) (d : Dev) : Dev := { d with startup := f d.startup }
def ph (p : Phase) (s : State) : State := { s with dev := { s.dev with phase := p } }
def pkg (svn : Nat) (cs : List Comp) (legal : Nat) : Bytes :=
  let n := cs.length
  let total := 64 + 32 * n + (cs.map (·.bytes.length)).sum + 72
  let hdr := natLe 4 0x4855504B ++ natLe 2 1 ++ natLe 1 n ++ natLe 1 legal ++ natLe 4 svn ++ natLe 4 total ++ List.replicate 48 0
  let es := (cs.foldl (fun (p : Nat × Bytes) c => (p.1 + c.bytes.length, p.2 ++ natLe 1 c.kind ++ natLe 3 0 ++ natLe 4 c.version ++ natLe 4 p.1 ++ natLe 4 c.bytes.length ++ natLe 2 (if c.kind = 1 then 1 else 0) ++ List.replicate 14 0)) (64 + 32 * n, [])).2
  sgn 1 (hdr ++ es ++ cs.flatMap (·.bytes))
def deliver (b : Bytes) (u : UpdS) : UpdS := { u with isOpen := true, size := b.length, piece := 1024, digest := sha256 b, got := [(0, b)] }


namespace Time

def base := up (wimg img0 ∘ wl 0 upl ∘ wl 1 {upl with latch := some (List.replicate 60 1), latchSeq := 5} ∘ wl 32 upl ∘ wtime (fun t => {t with begun := true, micro := 5, m := 5}))
def w0 : State := base
def w1 : State := up id
def w2 : State := up (put 0x185 0 1)
def w3 : State := up (put 0x185 0 5 ∘ wtime (fun t => {t with src := .laneRef, sampled := true, launched := true, begun := true, refDue := true}) ∘ put 0x3000 1 1 ∘ put 0x3004 0 1)
def w4 : State := {base with dev := role .active base.dev}
def w5 : State := {base with dev := wl 0 {upl with upSleep := true} (wl 33 upl (role .standby base.dev))}
def w6 : State := {base with dev := wtime (fun t => {t with refDue := true}) (put 0x3004 0 1 (put 0x3005 0 1 base.dev))}

end Time

namespace Guard

def gu (f : GuardS → GuardS) (d : Dev) : Dev := { d with guard := f d.guard }
def su (f : StartS → StartS) (d : Dev) : Dev := { d with startup := f d.startup }
def leg (f : LegalS → LegalS) (d : Dev) : Dev := { d with legal := f d.legal }
def sl (k i : Nat) : SlotR := { kernel := k, rate := 0, variant := 0, microOfs := 0, minorOfs := 0, rsv7 := 0, p1 := 2, p2 := 0, declared := 100, ins := 4, outs := 3, firstBind := 0, state := 0, slotId := i, rsv1C := 0, cell := i / 3, sect := i % 4 }
def im1 : Image := { img0 with slots := (List.range 12).map (fun i => sl (if i < 6 then 1 else 0x50) i) }
def T (d : Dev) : Dev := wtime (fun t => {t with begun := true, sampled := true, micro := 7, m := 3}) (wimg im1 d)
def W (d : Nat) : WordRead := ⟨d, 5, wordCode 1 5⟩
def by_ : Bytes := [1,2,3]
def stm (f : SchedS → SchedS) (d : Dev) : Dev := {d with sched := f d.sched}
def cx (n : Nat) (x : CtxS) (d : Dev) : Dev := { d with ses := { d.ses with ctx := setAt d.ses.ctx n x } }
def w0 : State := up T
def w1 : State := up (gu (fun g => {g with scrubPos := sramWords - 1, crcA := [(.image 3, crc32 by_), (.cellCode 0 1, 5)], crcB := [(.image 3, 4)], reload := [(.image 3, 0), (.cellCode 2 1, 1)]}) ∘ T)
def w2 : State := up (gu (fun g => {g with crcA := [(.image 3, 5)], reload := [(.image 3, 1), (.cellCode 2 1, 0)], recalc := [(0, 1)]}) ∘ stm (fun s => {s with kst := [(1,[5])], launchRun := [(0,3),(1,2)], ran := [0,1,2,6,9], overRaised := [1]}) ∘ T ∘ put 0x2200 0 1024 ∘ leg (fun l => {l with journal := [{ (default : IncS) with m := 0, lsec := 5, imp := 7}]}))
def w3 : State := up (put 0x2200 0 1024 ∘ put 0x400 0 8 ∘ role .active ∘ cx 5 {tls := true} ∘ su (fun s => {s with stalled := some 2, t := 100000000000}) ∘ (fun d => {d with keys := {d.keys with inst := [(0x520, by_), (0x522, by_)], nor := [(0x520, by_)]}}))
def w4 : State := up (cx 5 {tls := true} ∘ su (fun s => {s with stalled := some 2, t := 100000000000, restarts := [95000000000]}))
def w5 : State := up (su (fun s => {s with stalled := some 2, t := 100000000000, restarts := [60000000000]}) ∘ (fun d => {d with mon := {d.mon with role := some 3}, malpen := {d.malpen with ses := [default]}}))
def w6 : State := up (su (fun s => {s with stalled := some 1, t := 100000000000, restarts := [60000000000, 50000000000]}))
def oCfg : ObjD × Loc := (findObj 0x3000).get (by decide)

end Guard

namespace Kern

def sl (k i : Nat) : SlotR := { kernel := k, rate := 0, variant := 0, microOfs := 0, minorOfs := 0, rsv7 := 0, p1 := 2, p2 := 0, declared := 100, ins := 4, outs := 3, firstBind := 0, state := 0, slotId := i, rsv1C := 0, cell := i, sect := i % 4 }
def ks : List Nat := [0x01,0x02,0x03,0x04,0x10,0x11,0x12,0x20,0x21,0x22,0x23,0x24,0x25,0x26,0x27,0x30,0x31,0x31,0x40,0x50,0x51,0x52,0x53]
def im1 : Image := { img0 with slots := ks.zipIdx.map (fun p => if p.2 = 17 then {sl p.1 p.2 with ins := 2, firstBind := 4} else sl p.1 p.2), binds := [⟨1,2,0,0,oGrp 0 0 0x0E⟩, ⟨1,2,0,0,oGrp 0 0 0x0D⟩, ⟨1,2,0,0,oGrp 0 0 0x10⟩, ⟨1,2,0,0,oGrp 0 0 6⟩, ⟨1,2,1,0,oGrp 0 0 0x1A⟩, ⟨2,2,0,5,0⟩, ⟨1,2,1,0,oGrp 0 0 0x0F⟩] }
def T (d : Dev) : Dev := wtime (fun t => {t with begun := true, sampled := true, micro := 7, m := 3}) (wimg im1 d)
def W (d : Nat) : WordRead := ⟨d, 5, wordCode 1 5⟩
def stepm (f : SchedS → SchedS) (d : Dev) : Dev := {d with sched := f d.sched}
def w0 : State := up T
def w1 : State := up (fun d => stepm (fun s => {s with stopped := [0], ran := [2, 9], reran := [15]}) (T d))
def w2 : State := up (fun d => stepm (fun s => {s with kst := [(0,[5]),(2,[1,2,3])]}) (T (put 0x400 0 0 (wl 0 upl (put (oGrp 0 0 0x0E) 0 5000 d)))))
def w3 : State := {up T with dev := {(up T).dev with guard := {(up T).dev.guard with reload := [(.image 0, 0), (.constants 0, 1)]}}}
def w4 : State := {up T with dev := {(up T).dev with stg := setAt (up T).dev.stg 0 {lost := true}}}
def run (r : SlotReport) : SlotRun := ⟨0x01, none, 0, r, kPi false⟩
def x0 : SlotReport := {}
def x1 : SlotReport := { seen := .committed (W 2) }
def x2 : SlotReport := { seen := .table (.image 3) (W 2) }
def x3 : SlotReport := { seen := .excess, stamp := 9 }
def x4 : SlotReport := { seen := .excess, late := true }
def x5 : SlotReport := { seen := .excess, again := .working (W 2) }
def x6 : SlotReport := { seen := .snapshot 0 (W 2) (W 2) }

end Kern

namespace Lanes

def sg (k : Nat) (x : StgS) (d : Dev) : Dev := { d with stg := setAt d.stg k x }
def ls (st : LaneSt) : LaneS := { mode := 1, st := st, ctl := true }
def I (d : Dev) : Dev := wimg img0 d
def base : Bytes := natLe 4 5 ++ natLe 4 77
def sBody (e : StageE) : Bytes := natLe 4 5 ++ natLe 4 77 ++ natLe 1 e.phases ++ natLe 7 0 ++ List.replicate (8 * (9 + e.phases) - 24) 0
def dBody (st : Nat) : Bytes := natLe 4 st ++ natLe 4 77 ++ natLe 1 2 ++ List.replicate 39 0
def idB (sub ver : Nat) : Bytes := natLe 16 5 ++ natLe 1 sub ++ natLe 1 6 ++ natLe 1 3 ++ natLe 1 ver ++ natLe 28 0 ++ natLe 4 40000 ++ natLe 4 0
def fs : List Frame := [mkF 1 0 (sBody ⟨6,2,0⟩), mkF 1 4 (sBody ⟨6,2,0⟩), mkF 1 5 (sBody ⟨4,1,0⟩), mkF 1 9 (sBody ⟨4,1,0⟩), {mkF 1 0 (sBody ⟨6,2,0⟩) with hcrc := 1}, mkF 2 0 (sBody ⟨6,2,0⟩), mkF 3 0 (dBody 1), mkF 3 4 (dBody 1), mkF 3 5 (dBody 3), mkF 3 5 (dBody 64), mkF 9 0 (idB 1 1), mkF 9 0 (idB 2 1), mkF 9 0 (idB 1 2)]
def w0 : State := up (I ∘ wl 0 upl ∘ wl 1 upl ∘ wl 32 upl)
def w1 : State := up (role .active ∘ I ∘ wl 0 upl ∘ wl 1 upl ∘ wl 32 upl ∘ wtime (fun t => {t with micro := 4, sampled := true}))
def w2 : State := up (role .standby ∘ I ∘ wl 0 {upl with upSleep := true} ∘ wl 1 upl ∘ wl 32 upl)
def w3 : State := up (I ∘ wl 0 (ls .training) ∘ wl 1 (ls .down) ∘ wl 32 (ls .training) ∘ wl 48 (ls .training) ∘ wl 49 (ls .down))
def w4 : State := up (I ∘ wl 0 (ls .ranging) ∘ wl 1 {ls .ranging with echos := [(0,8000),(1,9000),(2,8000)]} ∘ wl 32 {ls .ranging with echos := [(0,9000000000),(1,90000),(2,8000)]} ∘ wl 49 (ls .up))
def w5 : State := up (I ∘ wl 0 {ls .identifying with awaiting := true, attempts := 3} ∘ wl 1 {ls .identifying with awaiting := true, attempts := 2} ∘ wl 32 (ls .identFail) ∘ wl 48 (ls .identFail))
def w6 : State := up (I ∘ wl 0 {ls .identifying with awaiting := true, attempts := 1} ∘ wl 1 {ls .identFail with awaiting := true, attempts := 2} ∘ wl 32 {upl with mode := 2} ∘ (fun d => {d with lanes := {d.lanes with vethRx := [(0, List.replicate 100 7), (1, [])]}}))
def w7 : State := up (I ∘ sg 0 {lost := true} ∘ wl 0 upl ∘ wl 32 upl ∘ (fun d => {d with lanes := {d.lanes with vethRx := [(0, List.replicate 100 7), (1, conMac d 1)]}}))

end Lanes

namespace Stg

def sg (k : Nat) (x : StgS) (d : Dev) : Dev := { d with stg := setAt d.stg k x }
def gq (i : Nat) (x : GSeq) (d : Dev) : Dev := { d with energy := { d.energy with groups := setAt d.energy.groups i x } }
def nq (i : Nat) (x : NSeq) (d : Dev) : Dev := { d with energy := { d.energy with nodes := setAt d.energy.nodes i x } }
def sqq : SlotR := { kernel := 0x31, rate := 0, variant := 0, microOfs := 0, minorOfs := 0, rsv7 := 0, p1 := 2, p2 := 0, declared := 100, ins := 0, outs := 3, firstBind := 0, state := 0, slotId := 0, rsv1C := 0, cell := 0, sect := 0 }
def imq : Image := { img0 with slots := [sqq], binds := [⟨1,0xA,1,0,oGrp 1 0 0x1A⟩] }
def I (d : Dev) : Dev := wimg img0 (wl 32 upl (wl 0 {upl with cur := List.replicate 80 0, latch := some (List.replicate 80 0)} (wl 1 upl d)))
def w0 : State := up I
def w1 : State := up (sg 0 {hold := true, holdCnt := 500, groups := [{shortCnt := 5}, {retry := true}]} ∘ I ∘ put 0x206 0 4)
def w2 : State := up (sg 0 {lost := true, validCnt := 5000} ∘ I ∘ put (oStg 0 0x105) 0 0x123)
def w3 : State := up (sg 0 {lost := true, startLost := true, prevValid := true, groups := [{}, {allBlocked := true, retry := true}]} ∘ I ∘ role .standby ∘ put (oStg 0 0x105) 0 0x12)
def w4 : State := up (sg 0 {groups := [{shortCnt := 5, retry := true}, {allBlocked := true, retry := true}]} ∘ I ∘ put (oStg 0 0x105) 0 0x210 ∘ putq (oGrp 0 1 0x0D) 0 500000 ∘ putq (oGrp 0 0 0x0D) 0 500000)
def w5 : State := up (gq 0 {close := true, refuse := 3, state := 1} ∘ gq 1 {close := true, refuse := 3, state := 5} ∘ gq 4 {close := true, state := 9} ∘ nq 1 {state := 2, refuse := 3, cmd := 3 + 2^17} ∘ put (nodeCfg 2) 6 0 ∘ put (nodeCfg 0) 6 0 ∘ nq 2 {state := 6, cmd := 2 ^ 17} ∘ nq 0 {state := 7, cmd := 3 + 2^17} ∘ nq 5 {state := 4, cmd := 3 + 2^17, faults := 1} ∘ I)
def w6 : State := up (I ∘ (fun d => {d with therm := {d.therm with flowLow := [(0, 3), (1, 2), (5, 4)]}}))
def w7 : State := up (wimg imq ∘ (fun d => {d with sched := {d.sched with kst := [(0,[1,2,3,4,5,6,7])]}}) ∘ I)

end Stg

namespace Lch

def chn (n : Nat) (x : LchS) (d : Dev) : Dev := { d with lch := { d.lch with ch := setAt d.lch.ch n x } }
def early (d : Dev) : Dev := put 0x4002 0 0xFFFFFFFF d
def sup (g v : Nat) (d : Dev) : Dev := { d with lch := { d.lch with supply := setAt d.lch.supply g v } }
def w0 : State := up (chn 3 { on := true, inrush := true } ∘ chn 4 {on := true})
def w1 : State := up (early ∘ chn 31 { on := true, retries := 3, waitFor := [2] } ∘ put (oLch 31 2) 2 3 ∘ put (oLch 31 0) 0 1 ∘ put (oLch 31 2) 4 1)
def w2 : State := up (early ∘ chn 0 { on := false, wait := true, dt := 19 } ∘ chn 1 { wait := true} ∘ chn 9 { wait := true} ∘ chn 2 { wait := true, waitFor := [4]} ∘ put (oLch 0 0) 0 1 ∘ put (oLch 1 0) 0 1)
def w3 : State := up (early ∘ sup 0 1 ∘ sup 1 2∘ chn 0 { on := false, wait := true, dt := 19 } ∘ put (oLch 0 0) 0 1 ∘ put (oLch 1 0) 0 1 ∘ put (oLch 2 0) 0 1 ∘ put (oLch 3 0) 0 1 ∘ put (oLch 4 0) 0 1 ∘ chn 1 {stay := true} ∘ chn 2 {flags := 4} ∘ chn 3 {locked := true} ∘ put (oLch 0 2) 1 10 ∘ put (oLch 4 2) 1 10)
def w4 : State := up (chn 8 { on := true, wait := true, dt := 25, flags := 2 } ∘ chn 9 {on := true} ∘ chn 16 {on := true} ∘ put (oLch 0 0) 0 1)

end Lch

namespace Met

def rdy (d : Dev) : Dev := put 0x2200 0 1024 d
def leg (f : LegalS → LegalS) (d : Dev) : Dev := { d with legal := f d.legal }
def met (c : Nat) (x : MetroS) (d : Dev) : Dev := { d with lanes := { d.lanes with metro := setAt d.lanes.metro c x } }
def body0 : Bytes := (List.range 128).map (fun i => if i % 8 = 1 ∨ i % 8 = 6 then 16 else if i % 3 = 0 then 1 else 0)
def mac (num p : Nat) : Bytes := (hmac256 [1,2,3] (natLe 1 0 ++ natLe 1 1 ++ natLe 1 p ++ [0] ++ natLe 4 num ++ body0)).take 8
def kl : LaneS := { upl with kmac := some [1,2,3] }
def w0 : State := up (wimg img0 ∘ wl 32 kl ∘ rdy ∘ met 1 {lastAcc := some 5})
def w1 : State := up (wimg img0 ∘ wl 32 {kl with kmac := none} ∘ rdy)
def w2 : State := up (wimg img0 ∘ wl 32 kl ∘ rdy ∘ (fun d => {d with dma := setAt d.dma 2 {q := [{}]}}))
def w3 : State := up (wimg img0 ∘ wl 32 kl ∘ rdy ∘ met 1 {lastAcc := some 0} ∘ put 0x2041 1 1000)
def w4 : State := up (role .active ∘ put 0x403 0 1 ∘ wimg img0 ∘ wl 32 kl ∘ rdy ∘ met 1 {lastAcc := some 1, requested := [4, 5]} ∘ put 0x2041 1 1000)

end Met

namespace Legal

def rdy (d : Dev) : Dev := put 0x2200 0 1024 d
def leg (f : LegalS → LegalS) (d : Dev) : Dev := { d with legal := f d.legal }
def q (k : Nat) (x : IntakeS) : Dev → Dev := leg (fun l => { l with intakes := setAt l.intakes k x })
def cal (d : Dev) : Dev := (List.range 16).foldl (fun d j => put (acCal j) 1 (2^30) (puti 32 (acCal j) 3 5 d)) d
def w0 : State := up rdy
def w1 : State := up (rdy ∘ cal ∘ q 0 {cnt := 15, rev := 10, neut := 16000} ∘ q 1 {cnt := 3, ok := 12, neutOk := 20000} ∘ put 0x2000 0 0x280 ∘ put 0x2001 2 (230*65536) ∘ put 0x2001 4 100)
def w2 : State := up (rdy ∘ put 0x2008 1 0 ∘ put 0x2008 3 10 ∘ put 0x2008 4 30 ∘ put 0x2009 1 2 ∘ put 0x2009 3 1000 ∘ leg (fun l => { l with tickDue := true, chans := setAt l.chans 0 {msImp := 25, uImp := 7, rImp := 3, uExp := 2}, pulses := [{a := 3, left := 1}, {left := 5}] }) ∘ put 0x2203 1 2 ∘ put 0x2203 2 1)
def w3 : State := up (role .active ∘ rdy ∘ leg (fun l => { l with checkTicks := 3600, tarCode := 3, tarCount := 199, chans := setAt l.chans 0 {msImp := 25} , toMirror := [⟨0,0,1,1,1,0,0⟩] }) ∘ wtime (fun t => {t with m := 100}) ∘ put 0x3300 0 1 ∘ (fun d => {d with flash := {d.flash with held := [(0,1,[0,1,2,3])]}}) ∘ put 0x2203 1 1)
def w4 : State := { w3 with dev := put 0x3302 1 1 w3.dev }

end Legal

namespace Ses

def cx (n : Nat) (x : CtxS) (d : Dev) : Dev := { d with ses := { d.ses with ctx := setAt d.ses.ctx n x } }
def cst (st : Nat) (d : Dev) : Dev := put (oSes 0 0) 0 st (put (oSes 0 1) 0 1 (put (oCon 1 0x51) 0 0 (wimg img0 (wl 32 upl d))))
def ppin (d : Dev) : Dev := put (oCon 1 0x50) 7 1 (put (oCon 1 0x50) 8 7 (put (oCon 1 0x50) 10 5 (put (oCon 1 0x50) 4 400 (put (oCon 1 0x50) 3 1000 d))))
def lreco (iso : Nat) (d : Dev) : Dev := { d with lanes := { d.lanes with recs := setAt d.lanes.recs 1 { curIso := iso, isoState := iso, thermalSeen := true } } }
def fr (a b c : Nat) : Bytes := let h := conMac (up (wimg img0)).dev 1 ++ [1,1,1,1,1,1] ++ natBe 2 0x88B5 ++ natLe 1 1 ++ natLe 1 a ++ natLe 1 b ++ natLe 1 c; h ++ List.replicate (60 - h.length) 0
def w0 : State := up (ppin ∘ cst 0)
def w1 : State := up (ppin ∘ cst 1)
def w2 : State := up (ppin ∘ cst 2)
def w3 : State := up (ppin ∘ cst 3)
def w4 : State := up (ppin ∘ cst 4)
def w5 : State := up (ppin ∘ cst 5)
def w6 : State := up (ppin ∘ cst 6)
def w7 : State := up (ppin ∘ cst 7)
def w8 : State := up (ppin ∘ cst 8)
def w9 : State := up (ppin ∘ cst 9)
def w10 : State := up (ppin ∘ cst 10)
def w11 : State := up (ppin ∘ put (oCon 1 0x53) 1 2 ∘ put (oCon 1 0x53) 2 2 ∘ cx 0 {sec := true} ∘ cst 9)
def w12 : State := up (put 0x500 0 3 ∘ cst 10 ∘ (fun d => {d with legal := {d.legal with recs := [{ (default : SRec) with ctx := 0, id := 3, signed := true }]}}))
def w13 : State := up (ppin ∘ cx 0 {vehWaits := true} ∘ cst 8)
def w14 : State := up (ppin ∘ role .active ∘ put (oCon 1 0x32) 4 3 ∘ cx 0 {vehWaits := true} ∘ cst 8)
def w15 : State := up (ppin ∘ cx 0 {sec := true} ∘ cst 9)
def w16 : State := up (ppin ∘ cx 0 {appDone := true} ∘ cst 9)
def w17 : State := up (ppin ∘ role .active ∘ cx 0 {appDone := true, sec := true, tls := true, feat := 6, notice := 3} ∘ put (oSes 0 2) 0 4 ∘ cst 2)
def w18 : State := up (ppin ∘ cx 0 {appDone := true, sec := true, tls := true, feat := 6, notice := 1} ∘ put (oSes 0 2) 0 4 ∘ cst 4 ∘ lreco 3)
def w19 : State := up (ppin ∘ role .active ∘ cx 0 {sec := true, feat := 6, notice := 2} ∘ put (oSes 0 2) 0 3 ∘ cst 4 ∘ lreco 2)
def w20 : State := up (ppin ∘ put (oSes 0 6) 0 1 ∘ role .active ∘ cst 3)
def w21 : State := up (ppin ∘ put (oSes 0 6) 0 2 ∘ put (oCon 1 0x32) 4 3 ∘ role .active ∘ cst 3)
def w22 : State := up (ppin ∘ cx 0 {isoDone := true} ∘ put (oSes 0 2) 0 3 ∘ cst 5)
def w23 : State := up (ppin ∘ cx 0 {isoDone := true} ∘ put (oCon 1 0x36) 0 1 ∘ put (oSes 0 2) 0 3 ∘ cst 5)
def w24 : State := up (ppin ∘ cx 0 {pcPending := true} ∘ put (oSes 0 2) 0 3 ∘ cst 6)
def w25 : State := up (ppin ∘ cx 0 {tls := true, pcPending := true} ∘ put (oCon 1 0x33) 0 1 ∘ put (oCon 1 0x36) 0 1∘ put (oSes 0 2) 0 1 ∘ cst 6)
def w26 : State := up (ppin ∘ role .active ∘ cx 0 {tls := true, notice := 1} ∘ put (oCon 1 0x32) 4 3 ∘ put (oSes 0 2) 0 1 ∘ cst 7)
def w27 : State := up (ppin ∘ wimg img0 ∘ put (oCon 1 0x53) 4 301)
def w28 : State := up (wimg img0 ∘ role .active ∘ (fun d => (List.range 256).foldl (fun d n => put (oSes n 0) 0 3 d) d))
def w29 : State := up (put 0x500 0 3 ∘ cst 10 ∘ (fun d => {d with legal := {d.legal with recs := [{ (default : SRec) with ctx := 0, signed := true }]}}))

end Ses

namespace Bus

def fb (b : Nat) (x : FbS) (d : Dev) : Dev := { d with bus := setAt d.bus b x }
def pt (bus node slot ty dir tmo : Nat) : Bytes := natLe 1 bus ++ natLe 1 node ++ natLe 2 slot ++ natLe 1 ty ++ natLe 1 dir ++ natLe 1 tmo ++ natLe 1 0
def tbl : Bytes := pt 1 5 15 3 1 4 ++ pt 1 5 0 1 1 1 ++ pt 1 6 0 7 0 0
def sb (w : Nat) (d : Dev) : Dev := put 0x3005 0 w (put 0x3001 1 1 (putb 0x3014 0 tbl d))
def nd : FbNode := ⟨5, 1, 2, List.replicate 16 3⟩
def w0 : State := up (sb 1 ∘ put 0x3004 0 1 ∘ wtime (fun t => {t with refDue := true, minor := 77}))
def w1 : State := up id
def w2 : State := up (sb 1)
def w3 : State := up (sb 3)
def w4 : State := up (sb 0x111)
def w5 : State := up (sb 0x101 ∘ put 0x300C 2 4 ∘ fb 1 {newIdent := true, nodes := [nd], tx := [⟨canId 0 0 0xFF 0, [1]⟩, ⟨5, [2]⟩]})
def w6 : State := up (sb 1 ∘ put (oPoint 0) 3 0 ∘ put (oPoint 1) 3 0 ∘ put (oPoint 0) 2 5 ∘ put (oPoint 1) 2 9 ∘ put 0x3009 3 250 ∘ put 0x3009 4 254)
def w7 : State := up (sb 1 ∘ put 0x3009 3 247 ∘ fb 1 {tx := [⟨canId 0 0 0xFF 0, [1]⟩]} ∘ put 0x3009 4 3 ∘ put (oPoint 0) 3 1)

end Bus

namespace Yard

def yd (f : YardS → YardS) (d : Dev) : Dev := { d with yard := f d.yard }
def bse (d : Dev) : Dev := put 0x3100 1 1 (put 0x3100 2 0x12345677 (putb 0x3101 0 (List.replicate 176 0) (put 0x3103 2 100000 d)))
def nodeUp (i : Nat) (d : Dev) : Dev := put (yNode i) 2 2 (put (yNode i) 1 (0x100+i) d)
def D0 : Dev := (up bse).dev
def seg (b : Bytes) : Bytes := let x := b ++ List.replicate (297 - b.length) 0; x ++ natLe 3 (crc24 x)
def fhD (src : Nat) : Bytes := let b := natLe 1 0x12 ++ natLe 1 (on D0 0x3100 2 % 256) ++ natLe 2 src ++ natLe 2 0 ++ natLe 1 0 ++ natLe 1 5 ++ natLe 2 1 ++ natLe 2 3 ++ natLe 1 9 ++ natLe 1 0; b ++ natLe 2 (fhCrc b)
def fhR (src : Nat) : Bytes := let b := natLe 1 0x13 ++ natLe 1 (on D0 0x3100 2 % 256) ++ natLe 2 src ++ natLe 2 0 ++ natLe 1 9 ++ natLe 6 7 ++ natLe 1 0; b ++ natLe 2 (fhCrc b)
def t0 : YTx := { ldst := 0x101, msg := [1,2,3], seq := 9, nseg := 2, left := [0, 1], wait := true, tries := 5 }
def t1 : YTx := { ldst := 0xFFFF, msg := [1,2,3], seq := 9 }
def msg (mt : Nat) (body : Bytes) : YMsg := { mtype := mt, src := 0x101, lsrc := 0x101, mseq := 1, body := body }
def areq : YMsg := { msg 1 (List.replicate 16 5 ++ List.replicate 10 1 ++ [0,0] ++ List.replicate 16 7) with src := 0xFFFE }
def tmu : YMsg := msg 7 ([0,0,1,0] ++ List.replicate 4206 0)
def ms : List YMsg := [{areq with mseq := 5, lsrc := 0x101}, areq, msg 3 (List.replicate 15 1 ++ [0]), msg 4 ([1,0,0,0] ++ [2,1,5,0,6,0,7,0]), tmu, msg 8 ([1,0,0,0,3,1,0,0,9,0,0,0])]
def mAss : Bytes := [1,0] ++ natLe 2 0xFFFE ++ natLe 2 0 ++ natLe 2 5 ++ [8,0] ++ natLe 2 44 ++ areq.body ++ List.replicate 8 0
def w0 : State := up (bse ∘ yd (fun y => { y with cycles := 3, edges := List.replicate 9 5, okCyc := 8, lastEdge := some 1000, tx := [t1], relayEnd := 0, backoff := some 0 }))
def w1 : State := up (bse ∘ yd (fun y => { y with cycles := 3, edges := List.replicate 9 5, okCyc := 8, lastEdge := some 1000, tx := [{t1 with ldst := 0x101}], relayEnd := 0, backoff := some 0 }))
def w2 : State := up (bse)
def w3 : State := up (bse ∘ put 0x3102 0 4 ∘ yd (fun y => { y with okCyc := 8, lastEdge := some 1000, tx := [t0, t1] }))
def w4 : State := up (bse ∘ put 0x3102 0 4 ∘ yd (fun y => { y with okCyc := 8, lastEdge := some 1000, edges := List.replicate 9 5, tx := [t1], errs := [(0x101, 5)], rxTm := [(0x101, {})] }) ∘ nodeUp 1)
def w5 : State := up (bse ∘ put 0x3100 5 1 ∘ nodeUp 1 ∘ nodeUp 2 ∘ yd (fun y => { y with inbox := ms, errs := [(0x101, 5)], links := [{src := 0x102, dst := 0x101, cost := 7}, {src := 0, dst := 0x101, cost := 3},{src := 0x101, dst := 0x102, cost := 3}], ptLast := [(24, 0), (25, 3)] }) ∘ put (yNode 1) 10 60 ∘ put 0x3103 3 90 ∘ put 0x3100 7 2 ∘ put (yPoint 1 0) 2 0)
def w6 : State := up (bse ∘ role .active ∘ nodeUp 1 ∘ yd (fun y => { y with inbox := ms.reverse, drvOff := true}))
def w7 : State := up (bse ∘ role .standby ∘ nodeUp 1 ∘ yd (fun y => { y with inbox := ms.reverse}))

end Yard

namespace Store

def rg (r : Nat) (x : RingS) (d : Dev) : Dev := { d with dma := setAt d.dma r x }
def fl (f : FlashS → FlashS) (d : Dev) : Dev := { d with flash := f d.flash }
def sz (d : Dev) : Dev := (List.range 16).foldl (fun d r => put (0x3200 + r) 1 16 d) d
def dc (op len src dst p0 p1 : Nat) : Desc := ⟨op, 0, len, src, dst, p0, p1, 5, 0, false⟩
def ds : List Desc := [dc 0 0 0 0 0 0, dc 1 4 16 20 0 0, dc 1 4 16 0x11000000 0 0, dc 1 4 0x10000000 20 0 0, dc 2 8 16 100 (1 + 256 * 2) 8, dc 2 8 16 100 (2 + 256 * 2) 4, dc 3 16 16 200 (3 + 256) 4, dc 3 16 16 200 (9 + 512) 1,dc 1 0 16 20 0 0, dc 1 4 16 0x10000000 0 0]
def s0 := up sz
def qd : DescS := { desc := dc 1 4 16 20 0 0, started := true }
def qe : DescS := { desc := dc 2 8 16 100 (1 + 256 * 2) 8, started := true, cause := 5 }
def qz : DescS := { desc := dc 0 0 0 0 0 0, started := true }
def pg (n i s : Nat) : PageR := { pseq := n, ents := [⟨1, 0, 0, [1]⟩, ⟨1, 0, 1, [1]⟩], issued := i, stored := s }
def w0 : State := { s0 with mem := (List.range 30).foldl (fun m i => memWrite m i (BitVec.ofNat 8 (i * 7))) [] }
def w1 : State := { s0 with dev := rg 3 {stopReq := true} (rg 0 {q := [qd], stopReq := true} (rg 1 {q := [qe]} (rg 4 {q := List.replicate 15 qz} (rg 5 {q := [qz, {own := some .part}]} s0.dev)))) , mem := (List.range 30).foldl (fun m i => memWrite m i (BitVec.ofNat 8 (i * 7))) [] }
def w2 : State := { s0 with dev := put 0x3300 0 1 (fl (fun f => {f with fails := 2, parts := [{pages := [pg 0 2 1], writing := true}, {pages := [pg 0 2 2, pg 1 1 1]}, {pages := [pg 0 1 0], writing := true}, {}, {pages := [pg 0 1 0], writing := true}]}) s0.dev) }
def w3 : State := { s0 with dev := put 0x3300 0 3 (put 0x3200 7 1 (put 0x3204 7 1 (rg 4 { q := [{own := some .part}], stopReq := true } s0.dev))) }
def w4 : State := { s0 with dev := wimg img0 (put 0x3302 4 9 (put 0x3300 0 1 (put 0x3330 3 3 (put 0x3330 2 2 (fl (fun f => {f with caps := [{stage := 0, codes := [5], micro := 0, civil := 0, pre := [], post := [⟨true, List.replicate 100 3, []⟩, ⟨false, [], []⟩]}]}) s0.dev))))) }

end Store

namespace Pair

def pr (f : PairS → PairS) (d : Dev) : Dev := { d with pair := f d.pair }
def dcl (d : Dev) : Dev := pr (fun p => { p with declared := true }) d
def pb (unit role ep hb flags : Nat) : Bytes := natLe 1 unit ++ natLe 1 role ++ natLe 2 flags ++ natLe 4 ep ++ natLe 4 7000 ++ natLe 2 hb ++ natLe 2 0
def frame1 (b : Bytes) : Frame := mkF 5 3 b
def fs : List Frame := [frame1 (pb 1 1 9 4 1), frame1 (pb 0 1 9 4 1), frame1 (pb 1 3 9 4 1), frame1 (pb 1 0 2 5 0)]
def lanes2 (d : Dev) : Dev := wl 48 {upl with mode := 1} (wl 49 upl d)
def w0 : State := up (dcl ∘ role .electing)
def w1 : State := up (dcl ∘ role .electing ∘ wimg img0 ∘ lanes2 ∘ pr (fun p => { p with noImg := 3, validEdge := some 0, missB := 0 }))
def w2 : State := up (dcl ∘ role .standby ∘ wimg img0 ∘ lanes2 ∘ wtime (fun t => { t with micro := 500 }) ∘ pr (fun p => { p with noImg := 3, missA := 3, missB := 3, seen := 9, edge := some 0, switchAt := some (400, 2) }) ∘ put 0x403 0 1)
def w3 : State := up (dcl ∘ role .standby ∘ wimg img0 ∘ lanes2 ∘ wtime (fun t => { t with micro := 500 }) ∘ pr (fun p => { p with okA := 16, okB := 16, missA := 0, lastHb := some 4, switchAt := some (600, 2), markRx := [500, -700] }) ∘ put 0x400 0 0x60)
def w4 : State := up (dcl ∘ role .active ∘ wimg img0 ∘ wl 49 upl ∘ wtime (fun t => { t with micro := 2^32+5 }) ∘ pr (fun p => { p with hbRun := true, missA := 3, switchAt := some (400, 2), sending := true }) ∘ (fun d => {d with ses := {d.ses with ready := [(1, mLoop, []), (2, mAuth, [0])]}}))
def w5 : State := up (dcl ∘ role .active ∘ wimg img0 ∘ lanes2 ∘ pr (fun p => { p with missB := 3, wasReady := true }) ∘ put 0x400 0 0x808 ∘ put 0x406 4 1)
def w6 : State := up (dcl ∘ role .active ∘ wimg img0 ∘ lanes2 ∘ pr (fun p => { p with missB := 3, wasReady := true }) ∘ put 0x400 0 0x808 ∘ put 0x406 4 1 ∘ put 0x402 0 4)
def w7 : State := up (dcl ∘ role .electing ∘ pr (fun p => { p with validEdge := some 0, missB := 0 }) ∘ put 0x403 0 1)

end Pair

namespace Upd

def c3 : Comp := ⟨3, 9, 0, (cmpo 3).bytes⟩
def vp (b : Bytes) (d : Dev) : Dev := put 0x704 1 2 (put 0x500 0 1 (pubs (upd (fun u => {deliver b u with run := some bun}) d)))
def tri (d : Dev) : Dev := put 0x700 0 8 (put 0x707 1 1 (put 0x707 2 1 (put 0x706 1 1 (upd (fun u => {u with run := some bun, dwell := 5000000000}) d))))
def sqq := up (vp (pkg 6 [c3] 0))
def sq2 := up (vp ((pkg 6 [c3] 0).take 200))
def w0 : State := up (vp (pkg 6 [c3] 0))
def w1 : State := up (vp (pkg 6 [cmpo 2] 1))
def w2 : State := up (vp ((pkg 6 [c3] 0).take 200))
def w3 : State := up (vp (setAt (pkg 6 [c3] 0) 150 9))
def w4 : State := {(up (vp (pkg 6 [c3] 0))) with dev := upd (fun u => {u with digest := []}) (up (vp (pkg 6 [c3] 0))).dev}
def w5 : State := up (upd (fun u => {u with built := some bun}) ∘ put 0x704 1 2)
def w6 : State := up (upd (fun u => {u with quietDue := true}) ∘ role .active)
def w7 : State := up tri
def w8 : State := up (role .standby ∘ su (fun s => {s with t := 70000000000}) ∘ tri)
def w9 : State := up (role .active ∘ tri)
def w10 : State := up (fun d => {d with keys := {d.keys with inst := [(0x520, default), (0x522, default)]}, draws := 4})

end Upd

namespace Start

def u0 := up id
def im1 : Image := { img0 with lanes := List.replicate 48 0 }
def fact : Dev → Dev := fun d => { (put 0x500 0 1 d) with startup := { d.startup with factoryNor := true }, os := { d.os with norDirty := [okey 0x3400 1, okey 0x700 1, okey (oGrp 0 0 9) 1], nor := [(okey 0x3400 1, .num 2), (okey (oGrp 0 0 9) 1, .num 5)] } }
def boot (im : Option Bytes) : State := ph .reset (up (fun d => put 0x500 0 1 (put 0x2041 1 50 (put 0x703 1 3 (pubs (upd (fun u => {u with run := some { bun with comps := bun.comps ++ (match im with | some b => [⟨5,1,0,b⟩] | none => []) }}) d))))))
def yb (d : Dev) : Dev := put 0x3100 1 1 (putb 0x3104 0 (List.replicate 16 7 ++ natLe 2 5 ++ [0,0]) d)
def keptI2t (s g : Nat) (d : Dev) : List StgS := (modGrp s g (fun x => {x with i2tFrom := some default}) d).stg
def w0 : State := boot none
def w1 : State := boot (some ([0, 0] ++ List.replicate 100 0))
def w2 : State := {boot none with dev := put 0x500 0 4 (su (fun s => {s with nextCause := 3, keepLost := true}) (boot none).dev)}
def w3 : State := {boot none with dev := {(fact (boot none).dev) with keys := {(boot none).dev.keys with rootLost := true}}}
def w4 : State := up (fun d => put 0x2200 0 0x400 (su (fun s => {s with tried := [0,1,32], lanesDone := true, t := 200000000000}) (yb (wimg img0 d))))
def w5 : State := up (fun d => (su (fun s => {s with t := 200000000000, late := [9]}) (yb (wimg img0 d))))
def w6 : State := State.reset
def w7 : State := ph .reset (up (put 0x500 0 1))
def w8 : State := ph .keep (up (fun d => put 0x500 0 3 (su (fun s => {s with nextCause := 3, keepLost := true}) d)))
def w9 : State := ph .reset (up (fun d => put 0x2041 1 50 (put 0x2042 1 7 (fact d))))
def w10 : State := u0
def w11 : State := ph .failSilent u0
def w12 : State := ph .keep u0
def w13 : State := ph .reset (up (fun d => put 0x703 1 3 (put 0x500 0 2 d)))
def w14 : State := up (fun d => put 0x2200 0 0x400 (su (fun s => {s with lanesDone := true, t := 200000000000}) (wimg im1 (wtime (fun t => {t with micro := 800}) d))))
def w15 : State := up (fun d => put 0x2200 0 0x400 (su (fun s => {s with tried := [0,1,32], fbDone := true, t := 200000000000}) (wimg img0 d)))
def w16 : State := up (fun d => put 0x4000 1 1 (su (fun s => {s with lanesDone := true, t := 200000000000}) (wimg im1 d)))
def w17 : State := up (fun d => {d with os := { d.os with norDirty := [okey (oGrp 1 1 9) 1, okey 0x3400 1, okey 0x520 1] }, keys := {d.keys with inst := [(0x520, default)]}, stg := (keptI2t 1 1 d)})

end Start

namespace Mal

def sb (w : Nat) (d : Dev) : Dev := put 0x3005 0 w (put 0x3001 1 1 d)
def mal (f : MalpenS → MalpenS) (d : Dev) : Dev := { d with malpen := f d.malpen }
def cl : Client := ⟨1, 5⟩
def cu : Client := ⟨4, 77⟩
def ses : MSes := { client := cl, role := 3, key := [1,2], num := 9 }
def sesu : MSes := { client := cu, role := 1, key := [1,2], num := 9, rx := some 3 }
def pd (tag obj sub : Nat) (data : Bytes) : PduIn := { c := cl, tag := tag, obj := obj, sub := sub, data := data, id := some (canId 4 8 0 5) }
def S1 := up (sb 1 ∘ mal (fun m => { m with ses := [ses] }))
def xw : Xfer := { client := cl, tag := 7, num := 0x3330, sub := 3, read := false, blk := 0, size := 4, data := [1,2] }
def xr : Xfer := { client := cl, tag := 7, num := 0x1000, sub := 1, read := true, blk := 0, size := 4, data := [1,2,3,4], sent := 4 }
def S2 := up (sb 1 ∘ mal (fun m => { m with ses := [ses], xf := [xw] }))
def S3 := up (sb 1 ∘ mal (fun m => { m with ses := [{ses with want := 8}], xf := [xr] }) ∘ put 0x3016 4 8 ∘ put 0x011 0 8)
def S4 := up (sb 1 ∘ mal (fun m => { m with ses := [sesu] }) ∘ put 0x3017 3 7000 ∘ putb 0x3017 1 (List.replicate 16 9))
def op : MOpen := ⟨cl, 1, 2, [1], [2]⟩
def S5 := up (sb 1 ∘ mal (fun m => { m with opens := [op] }) ∘ put 0x500 0 1 )
def prf : Bytes := (hmac256 initSvc (natLe 1 1 ++ [1] ++ [2] ++ padTo 16 (ob S5.dev 0x003 0))).take 16
def S6 := { S1 with dev := role .standby S1.dev }
def w0 : State := S1
def w1 : State := S2
def w2 : State := S3
def w3 : State := S4
def w4 : State := S6
def w5 : State := {S3 with dev := put 0x3016 4 1 S3.dev}
def sesW : MSes := { ses with want := 8 }
def wv (num sub : Nat) (v : Bytes) : Pend := (writeCheck w0.dev 3 num sub v).2
def oCfg : ObjD × Loc := (findObj 0x3000).get (by decide)
def sCfg : SubD := (findSub oCfg.1 1).get (by decide)

end Mal

namespace Udp

def sb (w : Nat) (d : Dev) : Dev := put 0x3005 0 w (put 0x3001 1 1 d)
def mal (f : MalpenS → MalpenS) (d : Dev) : Dev := { d with malpen := f d.malpen }
def cl : Client := ⟨1, 5⟩
def cu : Client := ⟨4, 77⟩
def ses : MSes := { client := cl, role := 3, key := [1,2], num := 9 }
def sesu : MSes := { client := cu, role := 1, key := [1,2], num := 9, rx := some 3 }
def pd (tag obj sub : Nat) (data : Bytes) : PduIn := { c := cl, tag := tag, obj := obj, sub := sub, data := data, id := some (canId 4 8 0 5) }
def S1 := up (sb 1 ∘ mal (fun m => { m with ses := [ses] }))
def xw : Xfer := { client := cl, tag := 7, num := 0x1000, sub := 1, read := false, blk := 0, size := 4, data := [1,2] }
def xr : Xfer := { client := cl, tag := 7, num := 0x1000, sub := 1, read := true, blk := 0, size := 4, data := [1,2,3,4], sent := 4 }
def S2 := up (sb 1 ∘ mal (fun m => { m with ses := [ses], xf := [xw] }))
def S3 := up (sb 1 ∘ mal (fun m => { m with ses := [{ses with want := 1}], xf := [xr] }) ∘ put 0x3016 4 8 ∘ put 0x011 0 1)
def S4 := up (sb 1 ∘ mal (fun m => { m with ses := [sesu] }) ∘ put 0x3017 3 7000 ∘ putb 0x3017 1 (List.replicate 16 9))
def op : MOpen := ⟨cl, 1, 2, [1], [2]⟩
def S5 := up (sb 1 ∘ mal (fun m => { m with opens := [op] }) ∘ put 0x500 0 1 )
def prf : Bytes := (hmac256 initSvc (natLe 1 1 ++ [1] ++ [2] ++ padTo 16 (ob S5.dev 0x003 0))).take 16
def S6 := { S1 with dev := role .standby S1.dev }
def w0 : State := S1
def w1 : State := S5
def w2 : State := S4
def w3 : State := {S4 with dev := {S4.dev with dma := setAt S4.dev.dma 11 {q := [{}]}}}

end Udp

namespace Mon

def mm (f : MonS → MonS) (d : Dev) : Dev := { d with mon := f d.mon }
def fr (cmd : Nat) (p : Bytes) : MonIn := { cmd := cmd, seq := 5, len := p.length, payload := p, crc := monCrc (natLe 2 p.length ++ natLe 1 cmd ++ natLe 1 5 ++ p) }
def nonce : Bytes := List.replicate 16 9
def key : Bytes := List.replicate 32 4
def base (d : Dev) : Dev := put 0x500 0 1 { d with keys := { d.keys with inst := [(0x509, key), (0x50B, key)] } }
def chal (d : Dev) : Dev := mm (fun m => {m with nonce := some nonce, fails := 2}) (base d)
def prf (d : Dev) (r : Nat) : Bytes := match accessKey d r with
 | some k => (hmac256 k (ascii "AQPOL" ++ natLe 1 r ++ nonce ++ padTo 16 (ob d 0x003 0))).take 16
 | none => []
def A := up base
def B1 := up chal
def rl (r : Nat) (d : Dev) : Dev := put 0x3401 0 1 (mm (fun m => {m with role := some r}) (base d))
def u (r : Nat) (b : Bytes) : MonIn := fr 3 (natLe 1 r ++ [0,0,0] ++ b)
def rd_ (n s o k : Nat) := fr 0x10 (natLe 3 n ++ natLe 1 s ++ natLe 4 o ++ natLe 2 k ++ [0,0])
def wr_ (n s : Nat) (v : Bytes) := fr 0x11 (natLe 3 n ++ natLe 1 s ++ v)
def w0 : State := A
def w1 : State := B1
def w2 : State := up (put 0x500 0 3 ∘ chal)
def w3 : State := up (mm (fun m => {m with lockout := true}) ∘ chal)
def w4 : State := up (put 0x500 0 5 ∘ put 0x320F 1 16 ∘ rl 3)
def w5 : State := up (mm (fun m => {m with fails := 0}) ∘ chal)
def w6 : State := up (put 0x500 0 5 ∘ (fun d => {d with pair := {d.pair with queue := [⟨{num:=0x3000,sub:=1,val:=.num 1,level:=3,cmd:=false,role:=1}, .monitor 5⟩]}}) ∘ put 0x3402 1 3 ∘ rl 3)
def badF : MonIn := { fr 1 [] with crc := 0 }
def wv (num sub : Nat) (v : Bytes) : Pend := (writeCheck w0.dev 3 num sub v).2
def oCfg : ObjD × Loc := (findObj 0x3000).get (by decide)
def sCfg : SubD := (findSub oCfg.1 1).get (by decide)

end Mon

namespace Act

def cst (st : Nat) (d : Dev) : Dev := put (oSes 5 0) 0 st (put (oSes 5 1) 0 1 (put (oCon 1 0x51) 0 5 (wimg img0 (wl 32 upl d))))
def bus (d : Dev) : Dev := put 0x3005 0 1 (put 0x3001 1 1 d)
def yb (d : Dev) : Dev := put 0x3100 1 1 (putb 0x3104 0 (List.replicate 16 7 ++ natLe 2 0x105 ++ [0,0] ++ List.replicate 16 8 ++ natLe 2 3 ++ [0,0]) (put (yNode 5) 1 0x105 (put (yNode 5) 2 2 d)))
def arg (n s v : Nat) (d : Dev) : Dev := upd (fun u => {u with args := alSet u.args (okey n s) (.num v)}) d
def part (d : Dev) : Dev := put 0x400 0 0x2E8 (role .active d)
def cfm (d : Dev) (t : Nat) : Bytes := (sha256 (ob d 0x003 0 ++ natLe 1 t)).take 8
def D0 : Dev := (up id).dev
def pc : Bytes := let b : Bytes := [1,2,3,4,5]; natLe 4 0 ++ natLe 4 (crc32 b) ++ b
def w0 : State := State.reset
def w1 : State := up (bus ∘ yb ∘ cst 3)
def w2 : State := up (bus ∘ yb ∘ cst 3 ∘ (fun d => modCtx 5 (fun x => {x with asked := true}) d))
def w3 : State := up (put 0x500 0 2 ∘ cst 5)
def w4 : State := up (role .standby)
def w5 : State := up part
def w6 : State := up (part ∘ put 0x400 0 5 ∘ put 0x406 4 1 ∘ put 0x404 2 1 ∘ put 0x400 0 8)
def w7 : State := up (put 0x500 0 2 ∘ arg 0x701 1 5 ∘ arg 0x701 2 1024 ∘ upd (fun u => {u with stage := some bun}))
def w8 : State := up (put 0x500 0 2 ∘ arg 0x705 1 0 ∘ put 0x704 1 3 ∘ upd (fun u => {u with stage := some bun}) ∘ put 0x700 0 10)
def w9 : State := up (put 0x500 0 2 ∘ arg 0x705 1 255 ∘ put 0x704 1 3 ∘ put 0x700 0 10 ∘ put 0x320D 1 16 ∘ put 0x3300 0 1 ∘ upd (fun u => {u with isOpen := true, size := 5, piece := 1024, got := [(3, [1])]}))
def w10 : State := up (put 0x500 0 1 ∘ (fun d => {d with keys := {d.keys with lcT := 5, lcU := 255}}))
def w11 : State := up (put 0x500 0 1 ∘ (fun d => {d with keys := {d.keys with lcT := 1, lcU := 255, lcReq := some 4}}))

end Act

namespace Wr

def cst (st : Nat) (d : Dev) : Dev := put (oSes 5 0) 0 st (put (oSes 5 1) 0 1 (put (oCon 1 0x51) 0 5 (wimg img0 (wl 32 upl d))))
def bus (d : Dev) : Dev := put 0x3005 0 1 (put 0x3001 1 1 d)
def yb (d : Dev) : Dev := put 0x3100 1 1 (putb 0x3104 0 (List.replicate 16 7 ++ natLe 2 0x105 ++ [0,0] ++ List.replicate 16 8 ++ natLe 2 3 ++ [0,0]) (put (yNode 5) 1 0x105 (put (yNode 5) 2 2 d)))
def arg (n s v : Nat) (d : Dev) : Dev := upd (fun u => {u with args := alSet u.args (okey n s) (.num v)}) d
def part (d : Dev) : Dev := put 0x400 0 8 (role .active d)
def cfm (d : Dev) (t : Nat) : Bytes := (sha256 (ob d 0x003 0 ++ natLe 1 t)).take 8
def D0 : Dev := (up id).dev
def pc : Bytes := let b : Bytes := [1,2,3,4,5]; natLe 4 0 ++ natLe 4 (crc32 b) ++ b
def ns (c : Nat) (f : NSeq → NSeq) (d : Dev) : Dev := { d with energy := { d.energy with nodes := setAt d.energy.nodes c (f (d.energy.nodes.getD c {})) } }
def gs (i : Nat) (f : GSeq → GSeq) (d : Dev) : Dev := { d with energy := { d.energy with groups := setAt d.energy.groups i (f (d.energy.groups.getD i {})) } }
def lc (n : Nat) (f : LchS → LchS) (d : Dev) : Dev := { d with lch := { d.lch with ch := modAt d.lch.ch n f } }
def big (b : Nat) (d : Dev) : Dev := put 0x185 0 (4 + b) (put (oStg 1 0x0B) 0 5 (put (oStg 1 0x105) 0 0xFFFFF (ns 1 (fun q => {q with state := 7, cmd := 3}) (ns 65 (fun q => {q with state := 7, cmd := 3}) (gs 4 (fun q => {q with state := 9}) (gs 5 (fun q => {q with state := 9})
  (put (oCon 1 0x41) 3 3 (put (oStg 1 0x1C1) 2 1 (put 0x285 5 1 (lc 1 (fun x => {x with locked := true, latch := true, retries := 2}) (put 0x3300 0 4 (put 0x3200 7 1 (put 0x320D 7 1 { d with dma := setAt d.dma 13 { (ring d 13) with stopReq := true } })))))))))))))
def w0 : State := State.reset
def w1 : State := up (bus ∘ yb ∘ cst 3)
def w2 : State := up (put 0x500 0 2 ∘ cst 5)
def w3 : State := up (role .standby)
def w4 : State := up part
def w5 : State := up (part ∘ put 0x400 0 5 ∘ put 0x404 2 1)
def w6 : State := up (put 0x500 0 2 ∘ arg 0x701 1 5 ∘ arg 0x701 2 1024 ∘ upd (fun u => {u with stage := some bun}))
def w7 : State := up (put 0x500 0 2 ∘ arg 0x705 1 0 ∘ put 0x704 1 3 ∘ upd (fun u => {u with stage := some bun}) ∘ put 0x700 0 10)
def w8 : State := up (put 0x500 0 2 ∘ arg 0x705 1 255 ∘ put 0x704 1 3 ∘ put 0x700 0 10 ∘ put 0x320D 1 16 ∘ put 0x3300 0 1 ∘ upd (fun u => {u with isOpen := true, size := 5, piece := 1024, got := [(3, [1])]}))
def w9 : State := up (put 0x500 0 1 ∘ (fun d => {d with keys := {d.keys with lcT := 5, lcU := 255}}))
def w10 : State := up (put 0x500 0 1 ∘ (fun d => {d with keys := {d.keys with lcT := 1, lcU := 255, lcReq := some 4}}))

end Wr

namespace Loops

def rn (s i m : Nat) : Nat := ((((s * 7919 + i + 1) * 6364136223846793005 + 1442695040888963407 * (i+3)) % 2^64) / 2^33) % m
def sl1 : SlotR := { kernel := 1, rate := 0, variant := 0, microOfs := 0, minorOfs := 0, rsv7 := 0, p1 := 2, p2 := 0, declared := 100, ins := 4, outs := 3, firstBind := 0, state := 0, slotId := 0, rsv1C := 0, cell := 0, sect := 0 }
def slp : SlotR := { sl1 with ins := 4, firstBind := 8 }
def slx : SlotR := { sl1 with firstBind := 20 }
def tin : List Bind := [⟨1,0xA,0,0,oGrp 0 0 0x0E⟩, ⟨1,0xA,0,1,oGrp 0 0 0⟩, ⟨1,0xA,0,0,oGrp 0 0 0x1A⟩, ⟨1,0xA,0,1,oGrp 0 0 4⟩, ⟨1,0xA,1,0,oGrp 0 0 0x0F⟩, ⟨1,0xA,1,0,oGrp 0 0 0x10⟩, ⟨1,0xA,0,0,oGrp 0 0 0x0D⟩,⟨1,0xA,0,0,oGrp 0 0 0x0D⟩,
  ⟨1,0xA,0,0,oGrp 0 0 0x0E⟩, ⟨1,0xA,0,1,oGrp 0 0 0⟩, ⟨1,0xA,0,0,oGrp 0 0 0x1A⟩, ⟨1,0xA,0,1,oGrp 0 0 4⟩, ⟨3,3,1,0,0x100⟩, ⟨3,3,1,0,0x101⟩,⟨3,3,1,0,0x102⟩, ⟨3,3,1,0,0x103⟩,⟨1,7,0,0,5⟩,⟨1,7,0,0,6⟩,⟨1,7,0,0,6⟩,⟨1,7,0,0,6⟩,
  ⟨1,0xA,0,0,oGrp 0 0 0x0E⟩, ⟨1,0xA,0,2,oGrp 0 0 0⟩, ⟨1,0xA,0,0,oGrp 0 0 0x1A⟩, ⟨1,0xA,0,1,oGrp 0 0 4⟩, ⟨1,0xA,1,0,oGrp 0 0 0x0F⟩, ⟨1,0xA,1,0,oGrp 0 0 0x10⟩]
def im : Image := { img0 with slots := [sl1, slp], binds := tin }
def v (s i : Nat) : Int := let x := rn s i 9; let y : Int := rn s (i+50) 1000000; [y, -y, y * 20, -y*20, 0, 65536, -65536, 2^31-1, -2^31].getD x 0
def dv (s : Nat) : Dev :=
  let d := up (wimg im) |>.dev
  let d := [(oGrp 0 0 0x0E, 0), (oGrp 0 0 0x1A, 0), (oGrp 0 0 0x0D, 0), (oGrp 0 0 0, 1), (oGrp 0 0 0, 2), (oGrp 0 0 0x0F, 0)].zipIdx.foldl (fun d p => putq p.1.1 p.1.2 (v s p.2) d) d
  let d := (List.range 32).foldl (fun d k => puti 32 (oGrp 0 0 4) k (v s (20 + k) / 1000) d) d
  let d := (List.range 12).foldl (fun d k => puti 32 (oStg 0 2) k (v s (90 + k) / 1000) d) d
  let d := putq (oGrp 0 0 0) 5 (if rn s 8 3 = 0 then -65536 else 65536) (put (oGrp 0 0 0) 7 (rn s 9 4) d)
  { d with os := { d.os with snap := d.os.cur } }
def ds : List Dev := (List.range 60).map dv
def s32 (n : Nat) : Int := if n < 2^31 then n else (n : Int) - 2^32
def w (s : Nat) : Dev := dv s
def loc0 : Loc := (locate (oGrp 0 0 4)).get (by decide)

end Loops

namespace Sequ

def rn (s i m : Nat) : Nat := ((((s * 7919 + i + 1) * 6364136223846793005 + 1442695040888963407 * (i+3)) % 2^64) / 2^33) % m
def rb (s i : Nat) : Bool := rn s i 2 == 1
def mkE (s k : Nat) : EdgeIn := { k := k, fb := rb s (k*10), want := rb s (k*10+1), refuse := if rb s (k*10+2) then rn s (k*10+3) 8 else 0, drop := rb s (k*10+4), lost := rn s (k*10+5) 4 == 0, batt := rb s (k*10+6), asgHere := rb s (k*10+7) }
def mkN (s : Nat) : NodeIn := { n := rn s 1 64, req := rn s 2 5, mode := rn s 3 3, es := [mkE s 0, mkE s 1, mkE s 5].take (rn s 4 4), conFb := rb s 5, disFb := rb s 6, permit16 := rb s 7, why16 := rn s 8 7, refuse := if rb s 9 then rn s 10 8 else 0, ready := rb s 11, stop := rn s 12 4 == 0, iLow := rb s 13, vLow := rb s 14, clr := rb s 15, tOp := 100, t := [0, 10, 200].getD (rn s 17 3) 0 }
def mkQ (s : Nat) : NSeq := { state := rn s 1 8, cmd := rn s 2 64 + 65536 * rn s 3 4, fb := rn s 4 64 + 65536 * rn s 5 4, refuse := rn s 6 4, need0 := rb s 7, faults := rn s 8 8, disFail := rb s 9, t := rn s 10 300, tc := if rb s 11 then [] else [(0, rn s 12 200), (1, 95), (5, 5), (16, rn s 13 200), (17, 50)] }
def mkG (s : Nat) : GrpIn := { asg := rn s 1 4, node := rn s 2 4, asgSt := rn s 3 8, nodeSt := rn s 4 8, gfb := rb s 5, clr := rb s 6, lost := rn s 7 4 == 0, short := rn s 8 4 == 0, edge := rb s 9, vx := 65536 * (rn s 10 4 * 10 : Nat), vbus := 65536 * (rn s 11 4 * 10 : Nat), vnode := 65536 * (rn s 12 4 * 10 : Nat), ig := (65536 : Int) * (rn s 13 5) - 65536 * 2, imax := 65536 * 100, ic := 65536 * 80, vReq := 65536 * (rn s 14 4 * 10 : Nat), reverse := rb s 15, check := if rb s 16 then 0 else rn s 17 6, path := if rb s 18 then 0 else rn s 19 6, iPre := 65536 * 2, vSafe := 65536 * 5, tDis := 100, rampMs := 65536, tOp := 100, t := rn s 21 200 }
def mkGS (s : Nat) : GSeq := { state := rn s 1 10, close := rb s 2, dir := rb s 3, turn := rn s 4 6, refuse := rn s 5 4, refused := if rb s 6 then none else some (rn s 7 4), t := rn s 8 300, tc := rn s 9 200, ieb := 65536 * (rn s 10 5 : Nat), vset := 65536 * (rn s 11 40 : Nat) }
def g1 : GrpIn := { mkG 2 with lost := true, clr := false }
def g3 : GSeq := { mkGS 1 with state := 3, close := true }
def g9 : GSeq := { mkGS 1 with state := 9 }
def n1 : NodeIn := { mkN 3 with n := 3, clr := false, stop := true }
def n2 : NodeIn := { mkN 3 with n := 3, stop := false, ready := true, req := 3 }
def q0 : NSeq := { state := 0 }
def q1 : NSeq := { state := 1 }
def q2 : NSeq := { state := 2 }
def q3 : NSeq := { state := 3 }
def q4 : NSeq := { state := 4 }
def q5 : NSeq := { state := 5 }
def q6 : NSeq := { state := 6 }
def q7 : NSeq := { state := 7 }

end Sequ

namespace Gen

def t0 : TimeS := { begun := true }
def t1 : TimeS := {}
def t2 : TimeS := { code := 3, minor := 5, m := 3, begun := true }
def w0 : State := up id
def w1 : State := State.reset
def x0 : SlotRun := ⟨0x01, none, 7, {}, kPi false⟩

end Gen

namespace Therm



end Therm

end Sys2Proof.Tests
end

