-- ==== Sys2Proof/Tests/Slice0.lean ====
section
/-! SUPPORT. The model's own tests: ill-formed commands, worked examples of the manual, and for each statement with hypotheses a
state and operands that meet them. -/

namespace Sys2Proof.Tests
open Sys2Proof Sys2Proof.Machine
set_option Elab.async false
set_option maxRecDepth 100000
set_option synthInstance.maxSize 4096

/-! ### Ill-formed commands are refused (WellFormed.lean)

One term for each check; the well-formed term beside it shows that the check refuses no more than it should. -/

/-- A PDU within its fields. -/
def pdu0 : PduIn := { c := ⟨1, 5⟩, tag := 1, obj := 2, sub := 0, data := [] }

/-- A lane frame within its fields. -/
def frame0 : Frame := mkF 1 0 []

/-- A monitor frame within its fields. -/
def mon0 : MonIn := { cmd := 1, seq := 0, len := 0, payload := [], crc := 0 }

/-- A descriptor within its fields. -/
def desc0 : Desc := ⟨0, 0, 0, 0, 0, 0, 0, 0, 0, false⟩

theorem test_wellformed_terms :
    [Instr.sampleToken, .readObj pdu0, .stageUp 31 frame0, .monPing mon0, .nullDesc 15 desc0, .bleedTimeExpiry (.node 0x1FF),
      .bleedTimeExpiry (.bus 31 3), .boundaryToken {}, .startUp {}, .scrubRead ⟨2 ^ 64 - 1, 0x7FFFFF, 255⟩ .other,
      .udpDiscovery { addr := 0, tag := 0 } (List.replicate 16 0) 65535].all wellFormed = true := by decide

theorem test_ill_formed_roles_and_indices :
    [Instr.refLossClear 4, .timeNowWrite 0 (2 ^ 64), .timeAdjustWrite 0 (2 ^ 63), .slotOverrun 64 1, .mgmtKick 4, .tlsKeyFetch 256 0,
      .keyRederive 0x20000 0 true [], .billRecalc 66 1 0 [] false, .billRecalc 0 0 0 [] false, .objectWrite 0 0x20000 0 [],
      .ctrlLevelWrite 0 256 0, .metroGap 64 0, .scBlock 32 0 0, .scBlock 0 32 0, .blockLockTimeout 50, .rangingTimeout 48,
      .timingMarker 47 0 0 none, .pairFrame 50 frame0 0, .stgLost 32, .outShort 0 4, .matrixTableWrite 0 2 [], .supCmdWrite 0 0 3 0,
      .closeRefused 0x200 0, .dischFail 64].any wellFormed = false := by decide

theorem test_ill_formed_more_indices :
    [Instr.lchShort 32, .lchVload 4 0, .authTimeout 256, .sesChainWrite 0 4 [], .adcSample (List.replicate 15 0), .metNeutral 2,
      .billingRecordCommit 66, .fbPointStale 0x4000, .busOffRecovery 4, .yardDataFrame (List.replicate 15 0) [] 0,
      .receiptFrame [], .yardNodeLost 512, .yardPointStale 0 24, .descriptorComplete 16 false, .pageWritten 6, .recDataRead 8,
      .pairPathFault 3, .keyPubWrite 0 16 0 [], .upstreamWake 48, .ringStartWrite 0 65536].any wellFormed = false := by decide

theorem test_ill_formed_fields :
    [Instr.readObj { pdu0 with c := ⟨5, 0⟩ }, .readObj { pdu0 with tag := 256 }, .readObj { pdu0 with obj := 2 ^ 24 },
      .readObj { pdu0 with len := 65536 }, .readObj { pdu0 with id := some (2 ^ 29) }, .readObj { pdu0 with word := some ⟨0, 2 ^ 23, 0⟩ },
      .stageUp 0 { frame0 with hcrc := 256 }, .stageUp 0 { frame0 with stop := ⟨4, List.replicate 8 0⟩ },
      .stageUp 0 { frame0 with stop := ⟨1, []⟩ }, .monPing { mon0 with crc := 65536 }, .nullDesc 0 { desc0 with len := 2 ^ 32 },
      .nullDesc 16 desc0, .bleedTimeExpiry (.node 0x200), .bleedTimeExpiry (.bus 32 0), .boundaryToken { dies := [0] },
      .startUp { emmc := 3 }, .startUp { pubs := [(16, 0, [])] }, .scrubRead ⟨2 ^ 64, 0, 0⟩ .other,
      .udpDatagram 0 [] 0 0 0 [] { mac := [] }, .udpDiscovery { addr := 0, tag := 0 } (List.replicate 16 0) 65536].any wellFormed = false := by decide

/-! ### Decoding: the table gives no row any bits -/

theorem test_no_row_has_bits : decodeTableWord 8 0 = none ∧ decodeTableWord 64 (2 ^ 64 - 1) = none := ⟨rfl, rfl⟩

theorem test_withFetchWord_adds_nothing : State.reset.withFetchWord 8 0 = State.reset := rfl

/-! ### Worked examples of the manual -/

/-- spec/00: the numbers of an object of S5, of C17 and of session 200. -/
theorem test_object_numbers : oStg 5 0x12 = 0x9412 ∧ oCon 17 0x12 = 0x11112 ∧ oSes 200 0 = 0x17200 := by decide

/-- spec/02, R30: at 16 µs minor frames have 62 or 63 micro-frames, at 20 µs 50. -/
theorem test_micros_of_a_minor_frame : microsOf 4 7 = 50 ∧ microsOf 3 0 + microsOf 3 1 = 125 := by decide

/-- spec/07, the example at R167: G.I2T of a group of twelve phases of 110 A, in Q16.16 and A²·s. -/
theorem test_basic_i2t : basicI2t (110 * 65536) 12 = [1320 * 65536, 1254 * 65536, 1584 * 65536, 7666560] := by decide

/-- spec/07, the example at R167: the phase bank of S5. -/
theorem test_basic_phase :
    let l := basicPhase 2500 (80 * 65536) (1500 * 65536) 20000 (110 * 65536)
    l.getD 0 0 = 14497 ∧ l.getD 1 0 = -14055 ∧ l.getD 3 0 = -16777216 ∧ l.getD 7 0 = 8650752 ∧ l.getD 8 0 = 3514 := by decide +kernel

/-- spec/09, the worked example: a session whose energy has to come at three quarters of its demand's power has u = 1.75. -/
theorem test_urgency : urgency 0 (50625 * 65536 / 100) 0 (900 * 1000000000) (3000 * 65536) (900 * 65536) = 114688 := by decide +kernel

/-- The loads of the worked example of spec/09 at 60.1 s, with weights and demands in Q16.16. -/
def exampleLoads : List AConn :=
  [(950, 3000, 4 * 65536), (800, 2500, 2 * 65536), (900, 3000, 229376), (750, 2000, 65536), (400, 500, 2 * 65536), (800, 500, 65536)].map
    fun p => { node := 0, mode := 1, cls := 0, v := p.1 * 65536, dp := p.2.1 * 65536, wp := 0, d := p.2.1 * 65536, w := p.2.2 }

/-- spec/09, the worked example: eight steps of the bisection end at 976.5625 A. -/
theorem test_bisection :
    let a : AllocS := { conns := exampleLoads, lo := 0, hi := 2000 * 65536, bg := 8448 * 65536 }
    ((List.range 8).foldl (fun a _ => bisect a) a).lo = 64000000 := by decide +kernel

/-- spec/09, the worked example: C4 is granted 1,953.1 A and C12 976.6 A. -/
theorem test_grants : exampleLoads.map (fun c => grantAt 64000000 c / 65536) = [3000, 1953, 3000, 976, 500, 500] := by decide +kernel

/-- spec/09, the worked example: a cut of 1,202.0 kW falls on class 3, whose loads keep 0.3674. -/
theorem test_cut :
    (cutLoads (1202 * 65536) [⟨0, 1, true, 2850 * 65536, 65536⟩, ⟨1, 3, true, 1500 * 65536, 65536⟩, ⟨2, 3, true, 400 * 65536, 65536⟩]).map
      (fun l => l.k * 10000 / 65536) = [10000, 3673, 3673] := by decide +kernel

/-! ### The detection code -/

/-- R77: the code of a word of zeros at address 0, and that a word under another address is found. -/
theorem test_word_code : Machine.wordOk ⟨5, 3, wordCode 5 3⟩ = true ∧ Machine.wordOk ⟨5, 4, wordCode 5 3⟩ = false := by decide +kernel

/-! ### The hypotheses of the statements can be met -/

open Gen in
/-- A state and operands for clauses of the statement FramesNest. -/
theorem witness_FramesNest :
    (t0.m < microsOf t0.code t0.minor ∧ t0.k < 100 ∧ t0.begun = true) ∧
    (t0.m < microsOf t0.code t0.minor ∧ t0.k < 100 ∧ 1 ≤ t0.code ∧ t0.code ≤ 7 ∧ t0.code ≠ 3) ∧
    t1.m < microsOf t1.code t1.minor ∧
    t1.k < 100 ∧
    t1.begun = false := by
  and_intros <;> decide +kernel

open Gen in
/-- A state and operands for clauses of the statement RowsThatNameNothing. -/
theorem witness_RowsThatNameNothing :
    (Instr.stgLost 32 ∈ [Instr.stgLost 32, Instr.lostEnd 32, Instr.outShort 32 32, Instr.shortRetry 32 32, Instr.retryUsedClear
      32 32] ∧ 32 ≤ 32) ∧
    (Instr.lchShort 32 ∈ [Instr.lchShort 32, Instr.lchOverload 32] ∧ 32 ≤ 32) ∧
    (runOf (Instr.piKernel 7 { : SlotReport }) = some x0 ∧ x0.report = { : SlotReport } ∧ slotAt w0.dev x0.slot = none) ∧
    Instr.coolFlowLow 64 ∈ [Instr.coolFlowLow 64, Instr.dischFail 64] ∧
    64 ≤ 64 := by
  and_intros <;> first
    | decide +kernel
    | rfl

open Time in
/-- A state and operands for clauses of the statement ReferencesLost. -/
theorem witness_ReferencesLost :
    (running w2.dev = true ∧ (on w2.dev 389 0).testBit 0 = true) ∧
    running w3.dev = true ∧
    w3.dev.time.src = ClkSrc.laneRef := by
  and_intros <;> decide +kernel

open Time in
/-- A state and operands for clauses of the statement BoundaryTokenCounts. -/
theorem witness_BoundaryTokenCounts :
    running w0.dev = true ∧
    w0.dev.time.begun = true ∧
    w0.dev.time.m + 1 < microsOf w0.dev.time.code w0.dev.time.minor ∧
    (∀ p ∈ w0.dev.os.pend, p.level ≠ 1) ∧
    w0.dev.pair.role = Role.single := by
  and_intros <;> decide +kernel

open Time in
/-- A state and operands for clauses of the statement SampleAndLaunchTokens. -/
theorem witness_SampleAndLaunchTokens :
    (running w0.dev = true ∧ w0.dev.time.begun = true ∧ w0.dev.time.sampled = false) ∧
    (running w0.dev = true ∧ w0.dev.time.begun = true ∧ w0.dev.time.launched = false) ∧
    (running w3.dev = true ∧ w3.dev.time.begun = true ∧ w3.dev.time.sampled = true) ∧
    running w3.dev = true ∧
    w3.dev.time.begun = true ∧
    w3.dev.time.launched = true := by
  and_intros <;> decide +kernel

open Guard in
/-- A state and operands for clauses of the statement HitsAreHandledByClass. -/
theorem witness_HitsAreHandledByClass :
    (running w0.dev = true ∧ wordCode (W 1).data (W 1).addr = (W 1).code) ∧
    (running w0.dev = true ∧ wordCode (W 2).data (W 2).addr ≠ (W 2).code ∧ slotAt w0.dev 0 = some (sl 1 0)) ∧
    (running w0.dev = true ∧ wordCode (W 2).data (W 2).addr ≠ (W 2).code ∧ findObj 12288 = some oCfg ∧ 0 < 256) ∧
    (running w1.dev = true ∧ some (crc32 by_) ∈ [List.lookup (crcName (Granule.image 3)) w1.dev.guard.crcA, List.lookup (crcName
      (Granule.image 3)) w1.dev.guard.crcB]) ∧
    (running w1.dev = true ∧ (∃ x ∈ [List.lookup (crcName (Granule.image 3)) w1.dev.guard.crcA, List.lookup (crcName
      (Granule.image 3)) w1.dev.guard.crcB], x.isSome = true) ∧ some (crc32 [4]) ∉ [List.lookup (crcName (Granule.image 3))
      w1.dev.guard.crcA, List.lookup (crcName (Granule.image 3)) w1.dev.guard.crcB] ∧ List.find? (fun p ↦ p.1 == Granule.image
      3) w1.dev.guard.reload = some (Granule.image 3, 0)) ∧
    running w1.dev = true ∧
    (∃ x ∈ [List.lookup (crcName (Granule.cellCode 2 1)) w1.dev.guard.crcA, List.lookup (crcName (Granule.cellCode 2 1))
      w1.dev.guard.crcB], x.isSome = true) ∧
    some (crc32 by_) ∉ [List.lookup (crcName (Granule.cellCode 2 1)) w1.dev.guard.crcA, List.lookup (crcName (Granule.cellCode 2
      1)) w1.dev.guard.crcB] ∧
    List.find? (fun p ↦ p.1 == Granule.cellCode 2 1) w1.dev.guard.reload = some (Granule.cellCode 2 1, 0 + 1) := by
  and_intros <;> decide +kernel

open Guard in
/-- A state and operands for clauses of the statement OverrunsStopSlots. -/
theorem witness_OverrunsStopSlots :
    (running w0.dev = true ∧ 0 < 64 ∧ img? w0.dev = some im1 ∧ lateSlots w0.dev im1 0 1 = [1] ∧ w0.dev.time.sampled = true ∧ (1
      = 1 ∨ 1 = 2)) ∧
    running w2.dev = true ∧
    0 < 64 ∧
    3 ≤ (alGet w2.dev.sched.launchRun 0).getD 0 := by
  and_intros <;> decide +kernel

open Guard in
/-- A state and operands for clauses of the statement RecomputationsRestore. -/
theorem witness_RecomputationsRestore :
    (running w0.dev = true ∧ (0 = 0 ∨ hasKey w0.dev 0 = true) ∧ ∀ p ∈ [], p = false) ∧
    (running w2.dev = true ∧ 0 < 66 ∧ 1 ≤ 1 ∧ 1 ≤ 10 ∧ meters w2.dev = true ∧ (0, 1) ∈ w2.dev.guard.recalc) ∧
    (running w2.dev = true ∧ 0 < 66 ∧ 1 ≤ 2 ∧ 2 ≤ 10 ∧ meters w2.dev = true ∧ (0, 2) ∉ w2.dev.guard.recalc) ∧
    (running w3.dev = true ∧ 1312 ≠ 0 ∧ hasKey w3.dev 1312 = true) ∧
    running w3.dev = true ∧
    5 < 256 ∧
    isActive w3.dev = true ∧
    (ctx w3.dev 5).tls = true ∧
    partnerPresent w3.dev = true := by
  and_intros <;> decide +kernel

open Guard in
/-- A state and operands for clauses of the statement ManagementWatchdog. -/
theorem witness_ManagementWatchdog :
    (running w0.dev = true ∧ 0 < 4) ∧
    (running w3.dev = true ∧ w3.dev.startup.stalled = some 2 ∧ (((List.filter (fun r ↦ decide (w3.dev.startup.t < r +
      60000000000)) w3.dev.startup.restarts).any fun r ↦ decide (w3.dev.startup.t < r + 10000000000)) || decide (2 ≤
      (List.filter (fun r ↦ decide (w3.dev.startup.t < r + 60000000000)) w3.dev.startup.restarts).length)) = false) ∧
    running w4.dev = true ∧
    w4.dev.startup.stalled = some 2 ∧
    (((List.filter (fun r ↦ decide (w4.dev.startup.t < r + 60000000000)) w4.dev.startup.restarts).any fun r ↦ decide
      (w4.dev.startup.t < r + 10000000000)) || decide (2 ≤ (List.filter (fun r ↦ decide (w4.dev.startup.t < r + 60000000000))
      w4.dev.startup.restarts).length)) = true := by
  and_intros <;> decide +kernel

open Kern in
/-- A state and operands for clauses of the statement SlotRunsCommit. -/
theorem witness_SlotRunsCommit :
    (runOf (Instr.piKernel 0 x0) = some (run x0) ∧ RunDue w0.dev (run x0) im1 (sl 1 0) ∧ (sl 1 0).cell < 64 ∧ slotHeld w0.dev
      im1 (run x0).slot (sl 1 0) = false ∧ seenClass (run x0).report.seen = 0) ∧
    (runOf (Instr.piKernel 0 x0) = some (run x0) ∧ RunDue w3.dev (run x0) im1 (sl 1 0) ∧ (sl 1 0).cell < 64 ∧ slotHeld w3.dev
      im1 (run x0).slot (sl 1 0) = true) ∧
    (runOf (Instr.piKernel 0 x1) = some (run x1) ∧ RunDue w0.dev (run x1) im1 (sl 1 0) ∧ (sl 1 0).cell < 64 ∧ slotHeld w0.dev
      im1 (run x1).slot (sl 1 0) = false ∧ seenClass (run x1).report.seen = 3) ∧
    (runOf (Instr.piKernel 0 x2) = some (run x2) ∧ RunDue w0.dev (run x2) im1 (sl 1 0) ∧ (sl 1 0).cell < 64 ∧ slotHeld w0.dev
      im1 (run x2).slot (sl 1 0) = false ∧ (run x2).report.seen = SlotSeen.table (Granule.image 3) (W 2) ∧ seenClass (run
      x2).report.seen = 5) ∧
    (runOf (Instr.piKernel 0 x3) = some (run x3) ∧ RunDue w0.dev (run x3) im1 (sl 1 0) ∧ (sl 1 0).cell < 64 ∧ slotHeld w0.dev
      im1 (run x3).slot (sl 1 0) = false ∧ (seenClass (run x3).report.seen = 1 ∨ seenClass (run x3).report.seen = 2) ∧ seenClass
      (run x3).report.again = 0 ∧ (run x3).report.late = false) ∧
    (runOf (Instr.piKernel 0 x4) = some (run x4) ∧ RunDue w0.dev (run x4) im1 (sl 1 0) ∧ (sl 1 0).cell < 64 ∧ slotHeld w0.dev
      im1 (run x4).slot (sl 1 0) = false ∧ (seenClass (run x4).report.seen = 1 ∨ seenClass (run x4).report.seen = 2) ∧ seenClass
      (run x4).report.again = 0 ∧ (run x4).report.late = true) ∧
    (runOf (Instr.piKernel 0 x5) = some (run x5) ∧ RunDue w0.dev (run x5) im1 (sl 1 0) ∧ (sl 1 0).cell < 64 ∧ slotHeld w0.dev
      im1 (run x5).slot (sl 1 0) = false ∧ (seenClass (run x5).report.seen = 1 ∨ seenClass (run x5).report.seen = 2) ∧ seenClass
      (run x5).report.again ≠ 0) ∧
    runOf (Instr.piKernel 0 x6) = some (run x6) ∧
    RunDue w0.dev (run x6) im1 (sl 1 0) ∧
    (sl 1 0).cell < 64 ∧
    slotHeld w0.dev im1 (run x6).slot (sl 1 0) = false ∧
    (run x6).report.seen = SlotSeen.snapshot 0 (W 2) (W 2) ∧
    seenClass (run x6).report.seen = 4 ∧
    seenClass (run x6).report.again = 0 ∧
    (run x6).report.late = false := by
  and_intros <;> first
    | decide +kernel
    | rfl

open Loops in
/-- A state and operands for clauses of the statement GroupLoopKernels. -/
theorem witness_GroupLoopKernels :
    ((∀ j < 2, (bindAt im sl1 (sl1.ins + j)).kind = 1) ∧ locate (bindObj (bindAt im sl1 3)) = some loc0 ∧ loc0.blk = Blk.grp ∧
      rd (w 0) sl1.cell (oGrp loc0.inst loc0.sub 0) 7 = 0) ∧
    ((∀ j < 2, (bindAt im sl1 (sl1.ins + j)).kind = 1) ∧ 1 ≤ sl1.p1) ∧
    ((∀ j < 2, (bindAt im sl1 (sl1.ins + j)).kind = 1) ∧ (inp (w 0) im sl1 0 = 0 ∨ rd (w 0) sl1.cell (bindObj (bindAt im sl1 1))
      7 = 0)) ∧
    ((∀ j < 2, (bindAt im sl1 (sl1.ins + j)).kind = 1) ∧ locate (bindObj (bindAt im sl1 3)) = some loc0 ∧ loc0.blk = Blk.grp ∧
      rd (w 1) sl1.cell (oGrp loc0.inst loc0.sub 0) 7 ≠ 0 ∧ (bindAt im sl1 1).kind = 1 ∧ bindObj (bindAt im sl1 1) = oGrp
      loc0.inst loc0.sub 0 ∧ (bindAt im sl1 1).sub = 1 ∧ rdq (w 1) sl1.cell (oGrp loc0.inst loc0.sub 0) 5 = -65536) ∧
    ((∀ j < 2, (bindAt im slx (slx.ins + j)).kind = 1) ∧ locate (bindObj (bindAt im slx 3)) = some loc0 ∧ loc0.blk = Blk.grp ∧
      rd (w 1) slx.cell (oGrp loc0.inst loc0.sub 0) 7 ≠ 0 ∧ ¬((bindAt im slx 1).kind = 1 ∧ bindObj (bindAt im slx 1) = oGrp
      loc0.inst loc0.sub 0 ∧ (bindAt im slx 1).sub = 1 ∧ rdq (w 1) slx.cell (oGrp loc0.inst loc0.sub 0) 5 = -65536)) ∧
    (∀ j < 2, (bindAt im sl1 (sl1.ins + j)).kind = 1) ∧
    inp (w 3) im sl1 0 ≠ 0 ∧
    ¬rd (w 3) sl1.cell (bindObj (bindAt im sl1 1)) 7 = 0 ∧
    0 ≤ mul16 (inp (w 3) im sl1 2) (tMsQ (w 3)) ∧
    (-2 ^ 31 ≤ if [].getD 1 0 = 0 then inp (w 3) im sl1 1 else [].getD 0 0) ∧
    (if [].getD 1 0 = 0 then inp (w 3) im sl1 1 else [].getD 0 0) < 2 ^ 31 ∧
    -2 ^ 31 ≤ inp (w 3) im sl1 0 ∧
    inp (w 3) im sl1 0 < 2 ^ 31 := by
  and_intros <;> decide +kernel

open Loops in
/-- A state and operands for clauses of the statement PhaseKernels. -/
theorem witness_PhaseKernels :
    (0 ≤ 0 ∧ ([] : List Bool).length = ([] : List Bool).length) ∧
    (0 ≤ 0 ∧ [true].length = [0].length ∧ 0 < [true].length) ∧
    (0 ≤ 0 ∧ [true, false, true, true, true, true].length = [5, -7, 9, 100, -3, 2].length ∧ 1 < [true, false, true, true, true,
      true].length ∧ [true, false, true, true, true, true].getD 1 false = false) ∧
    ((∀ j < 2 * slp.p1, (bindAt im slp (slp.ins + j)).kind ≠ 1) ∧ 0 ≤ rdq (w 1) slp.cell (phBank (w 1) slp.cell (bindAt im slp
      slp.ins).sub) 10 ∧ 0 < slp.p1) ∧
    0 = 0 ∧
    (1 ≠ 0 ∧ some 0 = some 0) ∧
    0 < 2 ^ 32 ∧
    (0 ≤ 0 ∧ 0 * 2 ^ 24 ≤ (i2tStep [] 0 0 0 0).getD 0 0) ∧
    (0 ≤ 65536 ∧ (i2tStep [] 0 0 65536 0).getD 0 0 < 65536 * 2 ^ 24 ∧ 2 * (i2tStep [] 0 0 65536 0).getD 0 0 < 65536 * 2 ^ 24) ∧
    (0 ≤ 65536 ∧ (i2tStep [2 ^ 40, 3] 0 65536 65536 65536).getD 0 0 < 65536 * 2 ^ 24 ∧ 65536 * 2 ^ 24 ≤ 2 * (i2tStep [2 ^ 40, 3]
      0 65536 65536 65536).getD 0 0 ∧ ([2 ^ 40, 3].getD 1 0 ≠ 0 ∨ 10 * (i2tStep [2 ^ 40, 3] 0 65536 65536 65536).getD 0 0 < 8 *
      (65536 * 2 ^ 24))) ∧
    0 ≤ 1 ∧
    (i2tStep [14000000] 0 0 1 0).getD 0 0 < 1 * 2 ^ 24 ∧
    8 * (1 * 2 ^ 24) ≤ 10 * (i2tStep [14000000] 0 0 1 0).getD 0 0 ∧
    [14000000].getD 1 0 = 0 := by
  and_intros <;> decide +kernel

open Therm in
/-- A state and operands for clauses of the statement ThermalKernel. -/
theorem witness_ThermalKernel :
    (0 ≤ { w := 600, t := 700, s := 800, h := 30 : ThLim }.h ∧ { : ThReg }.latch = false ∧ (¬∃ y ∈ ([] : List ThSens), y.fault =
      false ∧ { w := 600, t := 700, s := 800, h := 30 : ThLim }.s ≤ y.x) ∧ 0 ≤ { : ThReg }.lim ∧ { : ThReg }.lim ≤ 100 ∧
      (thermStep { w := 600, t := 700, s := 800, h := 30 : ThLim } 0 0 0 false [] { : ThReg }).reg.reg1 = 0 ∧ 0 ≤ { : ThReg }.t)
      ∧
    (0 ≤ { w := 600, t := 700, s := 800, h := 30 : ThLim }.h ∧ { lim := 0, t := 3, reg1 := 3, latch := true : ThReg }.latch =
      true ∧ false = false) ∧
    (0 ≤ { w := 600, t := 700, s := 800, h := 30 : ThLim }.h ∧ [{ x := 500, fault := false, old := 0 : ThSens }][0]? = some
      { x := 500, fault := false, old := 0 : ThSens } ∧ { x := 500, fault := false, old := 0 : ThSens }.fault = false ∧
      { x := 500, fault := false, old := 0 : ThSens }.old ≤ 3) ∧
    (0 ≤ { w := 600, t := 700, s := 800, h := 30 : ThLim }.h ∧ { : ThReg }.latch = false ∧ (¬∃ y ∈
      [{ x := 680, fault := false, old := 2 : ThSens }], y.fault = false ∧ { w := 600, t := 700, s := 800, h := 30 : ThLim }.s ≤
      y.x) ∧ 0 ≤ { : ThReg }.lim ∧ { : ThReg }.lim ≤ 100 ∧ (thermStep { w := 600, t := 700, s := 800, h := 30 : ThLim } 0 0 0
      false [{ x := 680, fault := false, old := 2 : ThSens }] { : ThReg }).reg.reg1 = 1) ∧
    (0 ≤ { w := 600, t := 700, s := 800, h := 30 : ThLim }.h ∧ ∃ y ∈ [{ x := 810, fault := false, old := 1 : ThSens }], y.fault
      = false ∧ { w := 600, t := 700, s := 800, h := 30 : ThLim }.s ≤ y.x) ∧
    (0 ≤ { w := 600, t := 700, s := 800, h := 30 : ThLim }.h ∧ [{ x := 650, fault := true, old := 3 : ThSens }][0]? = some
      { x := 650, fault := true, old := 3 : ThSens } ∧ { x := 650, fault := true, old := 3 : ThSens }.fault = true) ∧
    (0 ≤ { w := 600, t := 700, s := 800, h := 30 : ThLim }.h ∧ { : ThReg }.latch = false ∧ (¬∃ y ∈
      [{ x := 650, fault := true, old := 3 : ThSens }], y.fault = false ∧ { w := 600, t := 700, s := 800, h := 30 : ThLim }.s ≤
      y.x) ∧ 0 ≤ { : ThReg }.lim ∧ { : ThReg }.lim ≤ 100 ∧ (thermStep { w := 600, t := 700, s := 800, h := 30 : ThLim } 0 0 0
      false [{ x := 650, fault := true, old := 3 : ThSens }] { : ThReg }).reg.reg1 = 2 ∧ { : ThReg }.reg1 ≠ 2) ∧
    0 ≤ { w := 600, t := 700, s := 800, h := 30 : ThLim }.h ∧
    { lim := 0, t := 3, reg1 := 3, latch := true : ThReg }.latch = true ∧
    true = true ∧
    ¬∃ y ∈ ([] : List ThSens), y.fault = false ∧ { w := 600, t := 700, s := 800, h := 30 : ThLim }.s ≤ y.x := by
  and_intros <;> decide +kernel

open Sequ in
/-- A state and operands for clauses of the statement SequencersObeyFeedback. -/
theorem witness_SequencersObeyFeedback :
    ((mkN 52).n < 64 ∧ 1 ≤ q2.state ∧ q2.state ≤ 5 ∧ 1 ≠ 17 ∧ (nodeRun (mkN 52) q2).cmd.testBit 1 ≠ q2.cmd.testBit 1) ∧
    (n1.n < 64 ∧ q0.state ≤ 7) ∧
    (n1.n < 64 ∧ Sequ.q1.state ≤ 7 ∧ 1 ≤ Sequ.q1.state ∧ Sequ.q1.state ≤ 4 ∧ n1.stop = true) ∧
    (n1.n < 64 ∧ q7.state ≤ 7 ∧ q7.state = 7 ∧ n1.clr = false) ∧
    (n1.n < 64 ∧ (mkQ 1006).state ≤ 7 ∧ (mkQ 1006).state = 0 ∧ (nodeRun n1 (mkQ 1006)).cmd.testBit 1 = true) ∧
    (n2.n < 64 ∧ q3.state ≤ 7 ∧ (nodeRun n2 q3).state = 4) ∧
    (3 ≤ g3.state ∧ g3.state ≤ 8 ∧ g3.close = true ∧ (groupRun g1 g3).close = false) ∧
    g9.state = 9 ∧
    g1.clr = false := by
  and_intros <;> decide +kernel

open Stg in
/-- A state and operands for clauses of the statement StagesAndShorts. -/
theorem witness_StagesAndShorts :
    (running w1.dev = true ∧ 0 < 32 ∧ (stgS w1.dev 0).hold = true ∧ (stgS w1.dev 0).lost = false ∧ on w1.dev 518 0 ≤ (stgS
      w1.dev 0).holdCnt) ∧
    (running w2.dev = true ∧ 0 < 32 ∧ (stgS w2.dev 0).lost = true ∧ (stgS w2.dev 0).startLost = false ∧ minMicros
      w2.dev.time.code ≤ (stgS w2.dev 0).validCnt ∧ lostEndStatus (Machine.fieldLe (upBody w2.dev 0) 0 4) = true) ∧
    (running w3.dev = true ∧ 0 < 32 ∧ (stgS w3.dev 0).lost = true ∧ (stgS w3.dev 0).startLost = true ∧ w3.dev.pair.role =
      Role.standby ∧ (stgS w3.dev 0).prevValid = true) ∧
    (running w0.dev = true ∧ 0 < 32 ∧ 0 < 4 ∧ retryWaits w0.dev 0 0 = false) ∧
    (running w1.dev = true ∧ 0 < 32 ∧ 0 < 4 ∧ (on w1.dev (oStg 0 261) 0).testBit (4 + 0) = false ∧ (5 ≤ ((stgS w1.dev
      0).groups.getD 0 { : GrpS }).shortCnt ∨ ((stgS w1.dev 0).groups.getD 0 { : GrpS }).allBlocked = true)) ∧
    (running w1.dev = true ∧ 0 < 32 ∧ 1 < 4 ∧ retryWaits w1.dev 0 1 = true ∧ ((on w1.dev (oStg 0 261) 0).testBit (4 + 1) &&
      !(stgS w1.dev 0).hold && !(stgS w1.dev 0).lost && !stageThermal w1.dev 0) = false) ∧
    running w4.dev = true ∧
    0 < 32 ∧
    0 < 4 ∧
    retryWaits w4.dev 0 0 = true ∧
    ((on w4.dev (oStg 0 261) 0).testBit (4 + 0) && !(stgS w4.dev 0).hold && !(stgS w4.dev 0).lost && !stageThermal w4.dev 0) =
      true := by
  and_intros <;> decide +kernel

open Stg in
/-- A state and operands for clauses of the statement ContactorsAndBleeds. -/
theorem witness_ContactorsAndBleeds :
    (running w0.dev = true ∧ 0 < 68 ∧ 0 < 32 ∧ 0 < 4 ∧ gfbOf w0.dev 0 0 = false ∧ busJoin w0.dev 64 0 0 = none) ∧
    (running w0.dev = true ∧ 0 < 68 ∧ 0 < 32 ∧ 0 < 4 ∧ lineJoined w0.dev 64 0 = false) ∧
    (running w5.dev = true ∧ 0 < 68 ∧ 0 < 32 ∧ 0 < 4 ∧ (gSeq w5.dev 0 0).close ≠ gfbOf w5.dev 0 0 ∧ (gSeq w5.dev 0 0).state ≠ 9)
      ∧
    (running w5.dev = true ∧ 0 < 68 ∧ 0 < 32 ∧ 0 < 4 ∧ 0 ≤ 16 ∧ (nSeq w5.dev 0).faults.testBit 0 = false ∧ (nSeq w5.dev
      0).cmd.testBit 0 ≠ (nSeq w5.dev 0).fb.testBit 0) ∧
    (running w5.dev = true ∧ 0 < 68 ∧ 0 < 32 ∧ 0 < 4 ∧ (gSeq w5.dev 0 0).refuse ≠ 0 ∧ (gSeq w5.dev 0 0).state = 1) ∧
    (running w5.dev = true ∧ 0 < 68 ∧ 0 < 32 ∧ 0 < 4 ∧ 0 < 64 ∧ ((nSeq w5.dev 0).state = 5 ∨ (nSeq w5.dev 0).state = 6 ∨ (nSeq
      w5.dev 0).state = 7) ∧ (nSeq w5.dev 0).disFail = false ∧ (nSeq w5.dev 0).fb.testBit 16 = false ∧ (nSeq w5.dev
      0).cmd.testBit 17 = true ∧ oq w5.dev (nodeCfg 0) 6 ≤ vConnQ w5.dev 0) ∧
    running w5.dev = true ∧
    1 < 68 ∧
    0 < 32 ∧
    0 < 4 ∧
    0 ≤ 16 ∧
    (nSeq w5.dev 1).refuse ≠ 0 ∧
    1 ≤ (nSeq w5.dev 1).state ∧
    (nSeq w5.dev 1).state ≤ 3 := by
  and_intros <;> decide +kernel

open Stg in
/-- A state and operands for clauses of the statement CoolantFlowFault. -/
theorem witness_CoolantFlowFault :
    running w6.dev = true ∧
    0 < 64 ∧
    3 ≤ (alGet w6.dev.therm.flowLow 0).getD 0 ∧
    0 ∉ w6.dev.therm.flowFault := by
  and_intros <;> decide +kernel

open Lch in
/-- A state and operands for clauses of the statement LoadChannelEvents. -/
theorem witness_LoadChannelEvents :
    (running w0.dev = true ∧ 3 < 32 ∧ (lch w0.dev 3).on = true ∧ (lch w0.dev 3).inrush = true) ∧
    (running w0.dev = true ∧ 0 < 32 ∧ (lch w0.dev 0).latch = false) ∧
    (running w0.dev = true ∧ 0 < 32 ∧ (lch w0.dev 0).on = false) ∧
    (running w0.dev = true ∧ 0 < 32 ∧ retryReady w0.dev 0 = false) ∧
    (running w0.dev = true ∧ 3 < 32 ∧ (lch w0.dev 3).on = true ∧ oflag w0.dev (oLch 3 2) 4 = true ∧ (lch w0.dev 3).olOff = false
      ∧ (lch w0.dev 3).flags.testBit 1 = false) ∧
    (running w0.dev = true ∧ 3 < 32 ∧ (lch w0.dev 3).inrush = true) ∧
    running w2.dev = true ∧
    0 < 32 ∧
    (lch w2.dev 0).wait = true ∧
    (lch w2.dev 0).waitFor = [] ∧
    (lch w2.dev 0).due ≤ w2.dev.startup.t + tNs w2.dev ∧
    retryBefore w2.dev 0 = false ∧
    ((lch w2.dev 0).hot = true → (lch w2.dev 0).dt < 20) ∧
    (lch w2.dev 0).latch = false ∧
    supplyOk w2.dev 0 = true ∧
    cmdOn w2.dev 0 = true := by
  and_intros <;> decide +kernel

open Lch in
/-- A state and operands for clauses of the statement SupplyGroups. -/
theorem witness_SupplyGroups :
    (running w0.dev = true ∧ 0 < 4 ∧ (0 < 14500 ∨ 38000 < 0)) ∧
    (running w0.dev = true ∧ 0 < 4 ∧ (0 < 15500 ∨ 37000 < 0 ∨ w0.dev.lch.supply.getD 0 0 = 0)) ∧
    (running w0.dev = true ∧ 0 < 4 ∧ 14500 ≤ 14500 ∧ 14500 ≤ 38000) ∧
    running w3.dev = true ∧
    0 < 4 ∧
    15500 ≤ 15500 ∧
    15500 ≤ 37000 ∧
    w3.dev.lch.supply.getD 0 0 ≠ 0 := by
  and_intros <;> decide +kernel

open Lanes in
/-- A state and operands for clauses of the statement LinkUpGoesAndFails. -/
theorem witness_LinkUpGoesAndFails :
    (running w0.dev = true ∧ 0 < 50 ∧ locked (List.replicate 63 1) = false) ∧
    (running w3.dev = true ∧ 0 < 48 ∧ ((laneS w3.dev 0).st = LaneSt.training ∨ (laneS w3.dev 0).st = LaneSt.down) ∧ locked
      (List.replicate 64 1) = true) ∧
    (running w3.dev = true ∧ 48 ≤ 48 ∧ 48 < 50 ∧ ((laneS w3.dev 48).st = LaneSt.training ∨ (laneS w3.dev 48).st = LaneSt.down) ∧
      locked (List.replicate 64 1) = true) ∧
    (running w4.dev = true ∧ 0 < 48 ∧ (laneS w4.dev 0).st = LaneSt.ranging ∧ 0 < 4 ∧ alGet (laneS w4.dev 0).echos 0 = none ∧
      (laneS w4.dev 0).echos.length < 3) ∧
    (running w4.dev = true ∧ 1 < 48 ∧ (laneS w4.dev 1).st = LaneSt.ranging ∧ 3 < 4 ∧ alGet (laneS w4.dev 1).echos 3 = none ∧
      (laneS w4.dev 1).echos.length = 3) ∧
    (running w0.dev = true ∧ 0 < 50 ∧ lockLost (laneS w0.dev 0).mode (List.map (fun i ↦ i * 10000000) (List.range 17)) = false)
      ∧
    (running w0.dev = true ∧ 0 < 50 ∧ ((laneS w0.dev 0).st = LaneSt.ranging ∨ (laneS w0.dev 0).st = LaneSt.identifying ∨ (laneS
      w0.dev 0).st = LaneSt.up) ∧ lockLost (laneS w0.dev 0).mode (List.replicate 64 1) = true) ∧
    (running w3.dev = true ∧ 0 < 50 ∧ ((laneS w3.dev 0).st = LaneSt.training ∨ (laneS w3.dev 0).st = LaneSt.down)) ∧
    (running w4.dev = true ∧ 0 < 50 ∧ 0 < 48 ∧ (laneS w4.dev 0).st = LaneSt.ranging) ∧
    (running w5.dev = true ∧ 0 < 50 ∧ 0 < 48 ∧ (laneS w5.dev 0).st = LaneSt.identifying ∧ (laneS w5.dev 0).awaiting = true ∧ 3 ≤
      (laneS w5.dev 0).attempts) ∧
    (running w5.dev = true ∧ 1 < 50 ∧ 1 < 48 ∧ (laneS w5.dev 1).st = LaneSt.identifying ∧ (laneS w5.dev 1).awaiting = true ∧
      (laneS w5.dev 1).attempts < 3) ∧
    running w5.dev = true ∧
    32 < 50 ∧
    (laneS w5.dev 32).st = LaneSt.identFail := by
  and_intros <;> decide +kernel

open Lanes in
/-- A state and operands for clauses of the statement IdentificationBringsLanesUp. -/
theorem witness_IdentificationBringsLanesUp :
    (running w5.dev = true ∧ 0 < 48 ∧ laneBound w5.dev 0 = true ∧ frameSound (fs.getD 10 default) = true ∧ (fs.getD 10
      default).kind = 9 ∧ (fs.getD 10 default).words = 8 ∧ Machine.fieldLe (fs.getD 10 default).body 52 4 = 0 ∧ (laneS w5.dev
      0).st = LaneSt.identifying ∧ (laneS w5.dev 0).awaiting = true ∧ 0 < 32 ∧ identCheck w5.dev 0 (fs.getD 10 default).body =
      0) ∧
    running w5.dev = true ∧
    0 < 48 ∧
    laneBound w5.dev 0 = true ∧
    frameSound (fs.getD 11 default) = true ∧
    (fs.getD 11 default).kind = 9 ∧
    (fs.getD 11 default).words = 8 ∧
    Machine.fieldLe (fs.getD 11 default).body 52 4 = 0 ∧
    (laneS w5.dev 0).st = LaneSt.identifying ∧
    (laneS w5.dev 0).awaiting = true ∧
    identCheck w5.dev 0 (fs.getD 11 default).body ≠ 0 := by
  and_intros <;> decide +kernel

open Lanes in
/-- A state and operands for clauses of the statement UpstreamFrames. -/
theorem witness_UpstreamFrames :
    (running w0.dev = true ∧ 0 < 32 ∧ laneBound w0.dev 0 = true ∧ frameSound (fs.getD 0 default) = true ∧ (fs.getD 0
      default).kind = 1 ∧ stageUpOk (stageE w0.dev 0) (fs.getD 0 default).body = true ∧ (laneS w0.dev 0).st = LaneSt.up) ∧
    (running w0.dev = true ∧ 1 < 32 ∧ laneBound w0.dev 1 = true ∧ (frameSound (fs.getD 0 default) = false ∨ (fs.getD 0
      default).kind ≠ 1 ∨ stageUpOk (stageE w0.dev 1) (fs.getD 0 default).body = false)) ∧
    (running w0.dev = true ∧ 0 < 16 ∧ laneBound w0.dev (32 + 0) = true ∧ (frameSound (fs.getD 0 default) = false ∨ (fs.getD 0
      default).kind ≠ 3 ∨ dispUpRecs (dispE w0.dev 0).count (fs.getD 0 default).body = none)) ∧
    running w0.dev = true ∧
    0 < 16 ∧
    laneBound w0.dev (32 + 0) = true ∧
    frameSound (fs.getD 6 default) = true ∧
    (fs.getD 6 default).kind = 3 ∧
    dispUpRecs (dispE w0.dev 0).count (fs.getD 6 default).body = some [] ∧
    (laneS w0.dev (32 + 0)).st = LaneSt.up := by
  and_intros <;> decide +kernel

open Lanes in
/-- A state and operands for clauses of the statement BlocksFragmentsAndSleep. -/
theorem witness_BlocksFragmentsAndSleep :
    (running w0.dev = true ∧ 0 < 32 ∧ 0 < 32 ∧ laneBound w0.dev 0 = true ∧ 0 < (stageE w0.dev 0).phases ∧ scLimit w0.dev 0 <
      Int.natAbs 50000 ∧ (laneS w0.dev 0).st = LaneSt.up) ∧
    (running w0.dev = true ∧ 0 < 64 ∧ connDisp w0.dev 0 = some (0, 0) ∧ (laneS w0.dev (32 + 0)).st = LaneSt.up ∧ [1, 2] ≠ [] ∧
      [1, 2].length ≤ 1024 ∧ 0 = List.length ((alGet w0.dev.lanes.vethRx 0).getD []) ∧ List.length ((alGet w0.dev.lanes.vethRx
      0).getD [] ++ [1, 2]) ≤ 1514) ∧
    (running w0.dev = true ∧ 0 < 64 ∧ connDisp w0.dev 0 = some (0, 0) ∧ (laneS w0.dev (32 + 0)).st = LaneSt.up ∧ List.replicate
      1024 3 ≠ [] ∧ (List.replicate 1024 3).length ≤ 1024 ∧ 0 = List.length ((alGet w0.dev.lanes.vethRx 0).getD []) ∧ 14 ≤
      List.length ((alGet w0.dev.lanes.vethRx 0).getD [] ++ List.replicate 1024 3) ∧ List.length ((alGet w0.dev.lanes.vethRx
      0).getD [] ++ List.replicate 1024 3) ≤ 1514) ∧
    (running w0.dev = true ∧ 0 < 48 ∧ (laneS w0.dev 0).st = LaneSt.up) ∧
    running w2.dev = true ∧
    0 < 48 ∧
    (laneS w2.dev 0).upSleep = true := by
  and_intros <;> decide +kernel

open Met in
/-- A state and operands for clauses of the statement MissingBlocksAreEstimated. -/
theorem witness_MissingBlocksAreEstimated :
    (running w0.dev = true ∧ 0 < 64 ∧ 0 ∉ (metroS w0.dev 0).requested) ∧
    running w4.dev = true ∧
    1 < 64 ∧
    4 ∈ (metroS w4.dev 1).requested ∧
    (metroS w4.dev 1).wait = [] := by
  and_intros <;> decide +kernel

open Met in
/-- A state and operands for clauses of the statement MeteredEnergyIsKept. -/
theorem witness_MeteredEnergyIsKept :
    (0 < 1 ∧ { : ChanS }.rImp < 1) ∧
    (0 < 1 ∧ { : ChanS }.rExp < 1) ∧
    (running w1.dev = true ∧ 0 < 64 ∧ connDisp w1.dev 0 = some (0, 0) ∧ (laneS w1.dev (32 + 0)).st = LaneSt.up ∧ List.length
      (body0 ++ mac 1 0) = 136 ∧ ringSize w1.dev 2 ≠ 0 ∧ ringIdle w1.dev 2 = true ∧ (laneS w1.dev (32 + 0)).kmac = none) ∧
    (running w2.dev = true ∧ 0 < 64 ∧ connDisp w2.dev 0 = some (0, 0) ∧ (laneS w2.dev (32 + 0)).st = LaneSt.up ∧ List.length
      (body0 ++ mac 1 0) = 136 ∧ ringSize w2.dev 2 ≠ 0 ∧ ringIdle w2.dev 2 = false ∧ 0 < ringRoom w2.dev 2) ∧
    running w3.dev = true ∧
    1 < 64 ∧
    connDisp w3.dev 1 = some (0, 1) ∧
    (laneS w3.dev (32 + 0)).st = LaneSt.up ∧
    List.length (body0 ++ mac 4 0) = 136 ∧
    ringSize w3.dev 2 ≠ 0 ∧
    ringIdle w3.dev 2 = true ∧
    (laneS w3.dev (32 + 0)).kmac = some [1, 2, 3] ∧
    meters w3.dev = true ∧
    (metroS w3.dev 1).lastAcc = some 0 ∧
    metroTop (metroS w3.dev 1) = 0 ∧
    (metroS w3.dev 1).wait = [] ∧
    ((metroS w3.dev 1).missing.any fun p ↦ decide (p.1 ≤ 4) && decide (4 ≤ p.2)) = false ∧
    metroNext (metroS w3.dev 1) 0 = 0 + 1 ∧
    0 + 1 < 4 ∧
    4 ≤ 0 + 17 := by
  and_intros <;> decide +kernel

open Legal in
/-- A state and operands for clauses of the statement SamplesAndPulses. -/
theorem witness_SamplesAndPulses :
    meters w0.dev = true := by
  decide +kernel

open Legal in
/-- A state and operands for clauses of the statement SupplyConditions. -/
theorem witness_SupplyConditions :
    (meters w1.dev = true ∧ 0 < 2 ∧ 10 ≤ (intakeS w1.dev 0).rev ∧ (on w1.dev 8192 0).testBit (6 + 0) = false) ∧
    (meters w1.dev = true ∧ 0 < 2 ∧ 16000 ≤ (intakeS w1.dev 0).neut ∧ (on w1.dev 8192 0).testBit (8 + 0) = false) ∧
    (meters w1.dev = true ∧ 1 < 2 ∧ 10 ≤ (intakeS w1.dev 1).ok ∧ (on w1.dev 8192 0).testBit (6 + 1) = true) ∧
    meters w1.dev = true ∧
    1 < 2 ∧
    16000 ≤ (intakeS w1.dev 1).neutOk ∧
    (on w1.dev 8192 0).testBit (8 + 1) = true := by
  and_intros <;> decide +kernel

open Legal in
/-- A state and operands for clauses of the statement BillingTickCredits. -/
theorem witness_BillingTickCredits :
    (meters w0.dev = true ∧ w0.dev.legal.tickDue = false) ∧
    meters w2.dev = true ∧
    w2.dev.legal.tickDue = true ∧
    w2.dev.pair.role ≠ Role.standby ∧
    1 ≤ tariff w2.dev ∧
    tariff w2.dev ≤ 4 := by
  and_intros <;> decide +kernel

open Legal in
/-- A state and operands for clauses of the statement LegalCoreInputs. -/
theorem witness_LegalCoreInputs :
    (meters w0.dev = true ∧ sealOpen w0.dev ≠ true) ∧
    (meters w0.dev = true ∧ 0 < 2 ∧ (on w0.dev 8717 1).testBit 0 ≠ true) ∧
    (meters w3.dev = true ∧ w3.dev.legal.tarCode = 2 * boolNat true + boolNat true ∧ 199 ≤ w3.dev.legal.tarCount ∧ on w3.dev
      8707 2 ≠ 2 * boolNat true + boolNat true) ∧
    (meters w3.dev = true ∧ 3600 ≤ w3.dev.legal.checkTicks) ∧
    (meters w3.dev = true ∧ 0 < 66 ∧ w3.dev.pair.role = Role.active ∧ microsInTick w3.dev = billE w3.dev + 0 ∧ List.find? (fun i
      ↦ i.m == 0) w3.dev.legal.toMirror = some { lsec := 0, m := 0, tariff := 1, imp := 1, exp := 1 : IncS }) ∧
    meters w4.dev = true ∧
    w4.dev.flash.held = [(0, 1, [0, 1, 2, 3])] ∧
    0 ≤ 1 ∧
    on w4.dev 1280 0 ≠ 3 ∧
    storeUp w4.dev = true ∧
    ringSize w4.dev 4 ≠ 0 ∧
    ringIdle w4.dev 4 = true ∧
    (partAdd 0 1 [0, 1, 2, 3] (have __src := w4.dev;
      { phase := __src.phase, os := __src.os, time := __src.time, sched := __src.sched, guard := __src.guard, ev := __src.ev, lanes := __src.lanes, stg := __src.stg, energy := __src.energy, therm := __src.therm, lch := __src.lch, ses := __src.ses, dma := __src.dma, flash := have __src := w4.dev.flash; { fmt := __src.fmt, layout := __src.layout, parts := __src.parts, fails := __src.fails, roll := __src.roll, caps := __src.caps : FlashS }, keys := __src.keys, legal := __src.legal, bus := __src.bus, malpen := __src.malpen, yard := __src.yard, pair := __src.pair, startup := __src.startup, update := __src.update, mon := __src.mon, draws := __src.draws, sent := __src.sent, moved := __src.moved : Dev })).isSome
      = true := by
  and_intros <;> decide +kernel

open Ses in
/-- A state and operands for clauses of the statement SessionsOpen. -/
theorem witness_SessionsOpen :
    (Serves w1.dev 1 0 ∧ 1 ≤ sesState w1.dev 0 ∧ sesState w1.dev 0 ≤ 2 ∧ (isMcs w1.dev 1 = false ∨ (ctx w1.dev 0).feat.testBit 2
      = true)) ∧
    (Serves w2.dev 1 0 ∧ sesState w2.dev 0 = 2 ∧ bestProto (List.filter (fun o ↦ protoOk w2.dev 0 1 o.1) [(1, 2), (2, 1)]) =
      some (2, 1)) ∧
    (Serves w2.dev 1 0 ∧ sesState w2.dev 0 = 2 ∧ ∀ o ∈ ([] : List (Nat × Nat)), protoOk w2.dev 0 1 o.1 = false) ∧
    (Serves w3.dev 1 0 ∧ 3 ≤ sesState w3.dev 0 ∧ sesState w3.dev 0 ≤ 9 ∧ (isMcs w3.dev 1 = false ∨ (ctx w3.dev 0).feat.testBit 2
      = true)) ∧
    (Serves w3.dev 1 0 ∧ (sesState w3.dev 0 = 3 ∨ sesState w3.dev 0 = 4) ∧ authAllowed w3.dev 0 1 false = true ∧ (false = true →
      Config.chainVerifies [] (ob w3.dev 768 0) = true) ∧ sesState w3.dev 0 = 3 ∧ on w3.dev (oSes 0 6) 0 = 0 ∧ (on w3.dev (oCon
      1 80) 7).testBit 2 = false) ∧
    (Serves w3.dev 1 0 ∧ (sesState w3.dev 0 = 3 ∨ sesState w3.dev 0 = 4) ∧ authAllowed w3.dev 0 1 true = false) ∧
    (Serves w3.dev 1 0 ∧ sesState w3.dev 0 = 3) ∧
    (Serves w4.dev 1 0 ∧ (sesState w4.dev 0 = 3 ∨ sesState w4.dev 0 = 4) ∧ authAllowed w4.dev 0 1 false = true ∧ (false = true →
      Config.chainVerifies [] (ob w4.dev 768 0) = true) ∧ (sesState w4.dev 0 = 4 ∨ on w4.dev (oSes 0 6) 0 = 1)) ∧
    (Serves w17.dev 1 0 ∧ sesState w17.dev 0 = 2 ∧ (ctx w17.dev 0).appDone = true) ∧
    Serves w21.dev 1 0 ∧
    (sesState w21.dev 0 = 3 ∨ sesState w21.dev 0 = 4) ∧
    authAllowed w21.dev 0 1 false = true ∧
    (false = true → Config.chainVerifies [] (ob w21.dev 768 0) = true) ∧
    sesState w21.dev 0 = 3 ∧
    on w21.dev (oSes 0 6) 0 = 2 := by
  and_intros <;> decide +kernel

open Ses in
/-- A state and operands for clauses of the statement SessionCharges. -/
theorem witness_SessionCharges :
    (Serves w4.dev 1 0 ∧ sesState w4.dev 0 = 4 ∧ ¬((on w4.dev (oSes 0 2) 0 = 4 ∨ on w4.dev (oSes 0 2) 0 = 6) ∧
      { : VehLimits }.dynamic = false)) ∧
    (Serves w4.dev 1 0 ∧ sesState w4.dev 0 = 4 ∧ isoState w4.dev 1 ≠ 3 ∧ on w4.dev (oCon 1 80) 10 ≠ 0) ∧
    (Serves w5.dev 1 0 ∧ sesState w5.dev 0 = 5 ∧ isoState w5.dev 1 ≠ 3) ∧
    (Serves w6.dev 1 0 ∧ sesState w6.dev 0 = 6 ∧ ebReady w6.dev 1 = false) ∧
    (Serves w7.dev 1 0 ∧ sesState w7.dev 0 = 7) ∧
    (Serves w18.dev 1 0 ∧ sesState w18.dev 0 = 4 ∧ (on w18.dev (oSes 0 2) 0 = 4 ∨ on w18.dev (oSes 0 2) 0 = 6) ∧
      { : VehLimits }.dynamic = false) ∧
    (Serves w18.dev 1 0 ∧ (sesState w18.dev 0 = 4 ∨ sesState w18.dev 0 = 5) ∧ isoState w18.dev 1 = 3) ∧
    (Serves w22.dev 1 0 ∧ sesState w22.dev 0 = 5 ∧ (ctx w22.dev 0).isoDone = true ∧ 3 ≤ on w22.dev (oSes 0 2) 0 ∧ ebReady
      w22.dev 1 = false) ∧
    Serves w25.dev 1 0 ∧
    sesState w25.dev 0 = 6 ∧
    ebReady w25.dev 1 = true := by
  and_intros <;> decide +kernel

open Ses in
/-- A state and operands for clauses of the statement SessionEnds. -/
theorem witness_SessionEnds :
    (Serves w1.dev 1 0 ∧ 1 ≤ sesState w1.dev 0 ∧ sesState w1.dev 0 ≤ 2) ∧
    (Serves w3.dev 1 0 ∧ 3 ≤ sesState w3.dev 0 ∧ sesState w3.dev 0 ≤ 7) ∧
    (Serves w3.dev 1 0 ∧ 3 ≤ sesState w3.dev 0 ∧ sesState w3.dev 0 ≤ 6 ∧ (ctx w3.dev 0).linger = none) ∧
    (Serves w4.dev 1 0 ∧ 4 ≤ sesState w4.dev 0 ∧ sesState w4.dev 0 ≤ 7) ∧
    (Serves w7.dev 1 0 ∧ sesState w7.dev 0 = 7) ∧
    (Serves w8.dev 1 0 ∧ (sesState w8.dev 0 = 8 ∨ sesState w8.dev 0 = 9)) ∧
    (Serves w9.dev 1 0 ∧ sesState w9.dev 0 = 9 ∧ (mayTake w9.dev 1 = false ∨ (ctx w9.dev 0).sec = false ∧ (ctx w9.dev 0).appDone
      = false)) ∧
    (Serves w11.dev 1 0 ∧ sesState w11.dev 0 = 9 ∧ mayTake w11.dev 1 = true ∧ ((ctx w11.dev 0).sec = true ∨ (ctx w11.dev
      0).appDone = true) ∧ nextFree w11.dev = some 1) ∧
    (Serves w13.dev 1 0 ∧ sesState w13.dev 0 = 8 ∧ (ctx w13.dev 0).vehWaits = true) ∧
    (Serves w18.dev 1 0 ∧ 3 ≤ sesState w18.dev 0 ∧ sesState w18.dev 0 ≤ 7 ∧ (ctx w18.dev 0).tls = true ∧ partnerPresent w18.dev
      = false) ∧
    (Serves w24.dev 1 0 ∧ sesState w24.dev 0 = 6 ∧ (ctx w24.dev 0).pcPending = true ∧ ebReady w24.dev 1 = false) ∧
    running w12.dev = true ∧
    5 < 256 ∧
    sesConn w12.dev 0 < 64 ∧
    sesState w12.dev 0 = 10 ∧
    recSigned w12.dev 0 = true := by
  and_intros <;> decide +kernel

open Ses in
/-- A state and operands for clauses of the statement LinkStateStartsAndEnds. -/
theorem witness_LinkStateStartsAndEnds :
    (running w3.dev = true ∧ isActive w3.dev = true ∧ 1 < 64 ∧ linkFrameOk w3.dev 1 (fr 1 0 0) = true ∧ byteAt (fr 1 0 0) 15 = 1
      ∧ (byteAt (fr 1 0 0) 17).testBit 1 = false ∧ conCtx w3.dev 1 = some 0 ∧ sesConn w3.dev 0 = 1 ∧ 3 ≤ sesState w3.dev 0 ∧
      sesState w3.dev 0 ≤ 7) ∧
    (running w3.dev = true ∧ isActive w3.dev = true ∧ 1 < 64 ∧ linkFrameOk w3.dev 1 (fr 3 2 2) = true ∧ (byteAt (fr 3 2 2)
      17).testBit 1 = true ∧ conCtx w3.dev 1 = some 0 ∧ sesConn w3.dev 0 = 1 ∧ 3 ≤ sesState w3.dev 0 ∧ sesState w3.dev 0 ≤ 7) ∧
    (running w27.dev = true ∧ isActive w27.dev = true ∧ 1 < 64 ∧ linkFrameOk w27.dev 1 (fr 2 2 0) = true ∧ (byteAt (fr 2 2 0) 15
      = 2 ∨ byteAt (fr 2 2 0) 15 = 3) ∧ byteAt (fr 2 2 0) 16 = 2 ∧ (isMcs w27.dev 1 = false ∨ featOn w27.dev 2 = true) ∧ conCtx
      w27.dev 1 = none ∧ nextFree w27.dev = some 0) ∧
    (running w27.dev = true ∧ isActive w27.dev = true ∧ 1 < 64 ∧ 300 < on w27.dev (linkObj 1) 4) ∧
    running w28.dev = true ∧
    isActive w28.dev = true ∧
    1 < 64 ∧
    linkFrameOk w28.dev 1 (fr 2 2 0) = true ∧
    (byteAt (fr 2 2 0) 15 = 2 ∨ byteAt (fr 2 2 0) 15 = 3) ∧
    byteAt (fr 2 2 0) 16 = 2 ∧
    (isMcs w28.dev 1 = false ∨ featOn w28.dev 2 = true) := by
  and_intros <;> decide +kernel

open Bus in
/-- A state and operands for clauses of the statement FieldBusPoints. -/
theorem witness_FieldBusPoints :
    (running w0.dev = true ∧ 0 < 4 ∧ fbMayRecv w0.dev 0 = true ∧ nodeAddr 1 = true ∧ ([] : List Nat).length ≤ 15 ∧ fbBit w0.dev
      0 5 = false) ∧
    (running w0.dev = true ∧ 1 < 4 ∧ fbMayRecv w0.dev 1 = true ∧ 1 ≤ 5 ∧ 5 ≤ 239 ∧ 1 < 16384 ∧ (∀ x ∈ (fbS w0.dev 1).shadow, x.1
      ≠ 5) ∧ List.filter (fun q ↦ q.2.bus == 1 && q.2.node == 5 && q.2.isIn && q.2.slot == 15 * 0) (points w0.dev) = [(1,
      ((pointsOf tbl).getD 1 default).2)]) ∧
    running w6.dev = true ∧
    1 < 4 ∧
    0 < 16384 ∧
    pointAt (ob w6.dev 12308 0) 0 = some ((pointsOf tbl).getD 0 default).2 ∧
    ((pointsOf tbl).getD 0 default).2.isIn = true ∧
    ((pointsOf tbl).getD 0 default).2.bus = 1 ∧
    ((pointsOf tbl).getD 0 default).2.timeout ≠ 0 ∧
    ((pointsOf tbl).getD 0 default).2.timeout < on w6.dev (oPoint 0) 2 ∧
    oflag w6.dev (oPoint 0) 3 = false := by
  and_intros <;> decide +kernel

open Bus in
/-- A state and operands for clauses of the statement BusFramesAndErrors. -/
theorem witness_BusFramesAndErrors :
    (running w0.dev = true ∧ 0 < 4 ∧ fbMayRecv w0.dev 0 = true ∧ fbBit w0.dev 0 1 = false ∧ on w0.dev (12296 + 0) 3 + 8 ≤ 255) ∧
    (running w4.dev = true ∧ 1 < 4 ∧ fbBit w4.dev 1 4 = true) ∧
    (running w6.dev = true ∧ 1 < 4 ∧ fbMayRecv w6.dev 1 = true ∧ fbBit w6.dev 1 1 = false ∧ 255 < on w6.dev (12296 + 1) 3 + 8) ∧
    (running w5.dev = true ∧ fbMaySend w5.dev 1 = true ∧ (fbS w5.dev 1).resume = false ∧ { id := 5, payload := [2] : CanFrame }
      ∈ (fbS w5.dev 1).tx ∧ ∀ g ∈ (fbS w5.dev 1).tx, g ≠ { id := 5, payload := [2] : CanFrame } →
      { id := 5, payload := [2] : CanFrame }.id < g.id) ∧
    (running w0.dev = true ∧ w0.dev.time.refDue = true) ∧
    running w1.dev = true ∧
    w1.dev.time.refDue = false := by
  and_intros <;> decide +kernel

open Bus in
/-- A state and operands for clauses of the statement DiscoveryConfirmsNodes. -/
theorem witness_DiscoveryConfirmsNodes :
    (running w0.dev = true ∧ 0 < 4 ∧ fbMayRecv w0.dev 0 = true ∧ (List.replicate 16 3).length = 16 ∧ 1 ≤ 1 ∧ 1 ≤ 239 ∧ (∀ n ∈
      (fbS w0.dev 0).nodes, n.serial ≠ List.replicate 16 3 ∧ n.addr ≠ 1) ∧ (fbBit w0.dev 0 1 = false → 1 = 1)) ∧
    (running w4.dev = true ∧ 1 < 4 ∧ fbBit w4.dev 1 8 = true ∧ (fbS w4.dev 1).newIdent = false) ∧
    running w5.dev = true ∧
    1 < 4 ∧
    fbBit w5.dev 1 8 = true ∧
    (fbS w5.dev 1).newIdent = true ∧
    (fbS w5.dev 1).round + 1 < on w5.dev 12300 2 := by
  and_intros <;> decide +kernel

open Yard in
/-- A state and operands for clauses of the statement YardMedium. -/
theorem witness_YardMedium :
    (running w0.dev = true ∧ ∀ (p : ℕ), w0.dev.yard.lastEdge = some p → ¬(p < 0 ∧ cycleOk (0 - p) = true)) ∧
    (running w0.dev = true ∧ (on w0.dev 12546 0).testBit 2 = false) ∧
    (running w3.dev = true ∧ (on w3.dev 12546 0).testBit 2 = true) ∧
    running w0.dev = true ∧
    yardOn w0.dev = true ∧
    w0.dev.yard.drvOff = false := by
  and_intros <;> decide +kernel

open Yard in
/-- A state and operands for clauses of the statement YardFramesMove. -/
theorem witness_YardFramesMove :
    (yardOn w0.dev = true ∧ bpDue w0.dev = true) ∧
    (yardOn w2.dev = true ∧ bpDue w2.dev = false) ∧
    (yardOn w0.dev = true ∧ fhSound w0.dev (fhD 257) = true ∧ fhDataOk (fhD 257) [seg mAss].length = true ∧ Machine.fieldLe (fhD
      257) 4 2 = 0 ∧ ringIdle w0.dev 10 = true ∧ rxSegs w0.dev (fhD 257) [seg mAss] = some [some (mAss ++ List.replicate (297 -
      List.length mAss) 0)] ∧ List.find? (fun r ↦ r.lsrc == Machine.fieldLe (fhD 257) 2 2 && r.bcast == false && r.seq == byteAt
      (fhD 257) 12) w0.dev.yard.rx = none) ∧
    (yardOn w3.dev = true ∧ fhSound w3.dev (fhR 257) = true ∧ byteAt (fhR 257) 0 = 19 ∧ Machine.fieldLe (fhR 257) 4 2 = 0 ∧
      List.find? (fun t ↦ t.wait && t.ldst == Machine.fieldLe (fhR 257) 2 2 && t.seq == byteAt (fhR 257) 6) w3.dev.yard.tx =
      some t0 ∧ ∀ k < t0.left.length, (Machine.fieldLe (fhR 257) 7 6).testBit k = true) ∧
    yardOn w3.dev = true ∧
    List.find? (fun t ↦ t.wait && t.ldst == 257 && t.seq == 9) w3.dev.yard.tx = some t0 ∧
    t0.left ≠ [] ∧
    5 ≤ t0.tries := by
  and_intros <;> decide +kernel

open Yard in
/-- A state and operands for clauses of the statement YardMessages. -/
theorem witness_YardMessages :
    (yardOn w5.dev = true ∧ List.find? (fun x ↦ x.mtype == 1) w5.dev.yard.inbox = some (ms.getD 0 default) ∧ isActive w5.dev =
      true ∧ w5.dev.yard.assoc < 16 ∧ List.length (ms.getD 0 default).body = 44 ∧ Machine.fieldLe (ms.getD 0 default).body 26 2
      = 0 ∧ addrOk (Machine.fieldLe (ms.getD 0 default).body 24 2) = true) ∧
    (yardOn w5.dev = true ∧ List.find? (fun x ↦ x.mtype == 4) w5.dev.yard.inbox = some (ms.getD 3 default) ∧ (nodeIdx (ms.getD 3
      default).src).isSome = true ∧ byteAt (ms.getD 3 default).body 0 ≤ 32 ∧ List.length (ms.getD 3 default).body = 4 + 8 *
      byteAt (ms.getD 3 default).body 0 ∧ Machine.fieldLe (ms.getD 3 default).body 1 3 = 0 ∧ ∀ k < byteAt (ms.getD 3
      default).body 0, byteAt (ms.getD 3 default).body (4 + 8 * k + 7) = 0 ∧ addrOk (Machine.fieldLe (ms.getD 3 default).body (4
      + 8 * k) 2) = true) ∧
    yardOn w5.dev = true ∧
    { rate := byteAt tmu.body 1, gi := byteAt tmu.body 2, maps := List.map (fun q ↦ slice tmu.body (4 + 701 * q) 701) (List.range 6) : TmSet }
      =
      { rate := byteAt (ms.getD 4 default).body 1, gi := byteAt (ms.getD 4 default).body 2, maps := List.map (fun q ↦ slice (ms.getD 4 default).body (4 + 701 * q) 701) (List.range 6) : TmSet }
      ∧
    List.find? (fun x ↦ x.mtype == 7) w5.dev.yard.inbox = some (ms.getD 4 default) ∧
    byteAt (ms.getD 4 default).body 0 ≤ 1 ∧
    ((alGet w5.dev.yard.tm (ms.getD 4 default).src).getD { : TmPair }).cur ≠ some (byteAt (ms.getD 4 default).body 0) ∧
    List.length (ms.getD 4 default).body = 4210 ∧
    byteAt (ms.getD 4 default).body 3 = 0 := by
  and_intros <;> decide +kernel

open Yard in
/-- A state and operands for clauses of the statement YardUpkeep. -/
theorem witness_YardUpkeep :
    (yardOn w0.dev = true ∧ isActive w0.dev = true ∧ bpn w0.dev < w0.dev.yard.routeAt + on w0.dev 12544 6) ∧
    (yardOn w5.dev = true ∧ isActive w5.dev = true ∧ w5.dev.yard.routeAt + on w5.dev 12544 6 ≤ bpn w5.dev) ∧
    yardOn w5.dev = true ∧
    yardMaySend w5.dev = true ∧
    w5.dev.yard.refreshAt + on w5.dev 12544 7 ≤ bpn w5.dev := by
  and_intros <;> decide +kernel

open Store in
/-- A state and operands for clauses of the statement DmaDescriptors. -/
theorem witness_DmaDescriptors :
    (running w0.dev = true ∧ 0 < 16 ∧ 0 < ringRoom w0.dev 0 ∧ (ring w0.dev 0).q = [] ∧ oflag w0.dev (12800 + 0) 7 = false ∧
      (ring w0.dev 0).stopReq = false ∧ (ds.getD 0 default).op ≤ 3 ∧ (ds.getD 0 default).bad = false ∧ (ds.getD 0 default).flags
      % 256 < 2 ∧ (ds.getD 0 default).rsv = 0 ∧ (ds.getD 0 default).p0 = 0 ∧ (ds.getD 0 default).p1 = 0) ∧
    (running w0.dev = true ∧ 0 < 16 ∧ 0 < ringRoom w0.dev 0 ∧ (ring w0.dev 0).q = [] ∧ oflag w0.dev (12800 + 0) 7 = false ∧
      (ring w0.dev 0).stopReq = false ∧ (ds.getD 1 default).op ≤ 3 ∧ (ds.getD 1 default).bad = false ∧ (ds.getD 1 default).flags
      % 256 < 2 ∧ (ds.getD 1 default).rsv = 0 ∧ 0 < (ds.getD 1 default).len ∧ (ds.getD 1 default).len ≤ 2 ^ 24 ∧ rangeOk false
      (ds.getD 1 default).src (ds.getD 1 default).len = true ∧ (ds.getD 1 default).p0 = 0 ∧ (ds.getD 1 default).p1 = 0 ∧ rangeOk
      true (ds.getD 1 default).dst (ds.getD 1 default).len = true) ∧
    (running w0.dev = true ∧ 0 < 16 ∧ 0 < ringRoom w0.dev 0 ∧ (ring w0.dev 0).q = [] ∧ oflag w0.dev (12800 + 0) 7 = false ∧
      (ring w0.dev 0).stopReq = false ∧ (ds.getD 4 default).op ≤ 3 ∧ (ds.getD 4 default).bad = false ∧ (ds.getD 4 default).flags
      % 256 < 2 ∧ (ds.getD 4 default).rsv = 0 ∧ 0 < (ds.getD 4 default).len ∧ (ds.getD 4 default).len ≤ 2 ^ 24 ∧ rangeOk false
      (ds.getD 4 default).src (ds.getD 4 default).len = true ∧ deintOk (ds.getD 4 default) = true ∧ ∀ k < (ds.getD 4 default).p0
      / 256 % 256, ∀ j < (ds.getD 4 default).len / ((ds.getD 4 default).p0 % 256 * ((ds.getD 4 default).p0 / 256 % 256)),
      rangeOk true ((ds.getD 4 default).dst + k * (ds.getD 4 default).p1 + j * ((ds.getD 4 default).p0 % 256)) ((ds.getD 4
      default).p0 % 256) = true ∧ window ((ds.getD 4 default).dst + k * (ds.getD 4 default).p1 + j * ((ds.getD 4 default).p0 %
      256)) = window (ds.getD 4 default).dst) ∧
    (running w0.dev = true ∧ 0 < 16 ∧ 0 < ringRoom w0.dev 0 ∧ (ring w0.dev 0).q = [] ∧ oflag w0.dev (12800 + 0) 7 = false ∧
      (ring w0.dev 0).stopReq = false ∧ (ds.getD 6 default).op ≤ 3 ∧ (ds.getD 6 default).bad = false ∧ (ds.getD 6 default).flags
      % 256 < 2 ∧ (ds.getD 6 default).rsv = 0 ∧ 0 < (ds.getD 6 default).len ∧ (ds.getD 6 default).len ≤ 2 ^ 24 ∧ rangeOk false
      (ds.getD 6 default).src (ds.getD 6 default).len = true ∧ bitOk (ds.getD 6 default) = true ∧ ∀ b < (ds.getD 6 default).p0 %
      64, rangeOk true ((ds.getD 6 default).dst + b * (ds.getD 6 default).p1) ((ds.getD 6 default).len / ((ds.getD 6 default).p0
      / 256 % 256) / 8) = true ∧ window ((ds.getD 6 default).dst + b * (ds.getD 6 default).p1) = window (ds.getD 6 default).dst)
      ∧
    (running w1.dev = true ∧ 0 < 16 ∧ (ring w1.dev 0).q = [qd] ∧ qd.own = none ∧ qd.started = true ∧ oflag w1.dev (12800 + 0) 7
      = false ∧ qd.desc.op ≠ 0) ∧
    running w1.dev = true ∧
    4 < 16 ∧
    ringSize w1.dev 4 ≠ 0 ∧
    ringSize w1.dev 4 - 1 ≤ (ring w1.dev 4).q.length := by
  and_intros <;> decide +kernel

open Store in
/-- A state and operands for clauses of the statement RecordStore. -/
theorem witness_RecordStore :
    (running w0.dev = true ∧ 0 < 8 ∧ readCheck w0.dev 0 (13096 + 0) 0 = 0) ∧
    (running w2.dev = true ∧ 0 < 6 ∧ storeUp w2.dev = true ∧ (part w2.dev 0).writing = true) ∧
    (running w2.dev = true ∧ 1 < 6 ∧ ((part w2.dev 1).pages.any fun g ↦ decide (g.stored < g.ents.length)) = true ∧ (part w2.dev
      1).writing = false) ∧
    (running w2.dev = true ∧ 0 < 6 ∧ ((part w2.dev 0).pages.any fun g ↦ decide (g.stored < g.ents.length)) = true ∧ (part w2.dev
      0).writing = true) ∧
    (running w2.dev = true ∧ storeUp w2.dev = true) ∧
    (running w3.dev = true ∧ (on w3.dev 13056 0).testBit 1 = true) ∧
    running w4.dev = true ∧
    0 < 32 ∧
    List.find? (fun c ↦ c.stage == 0 && !c.frozen) w4.dev.flash.caps = some
      { stage := 0, codes := [5], micro := 0, civil := 0, pre := [], post := [{ valid := true, body := List.replicate 100 3, down := [] : FrameRec }, { valid := false, body := [], down := [] : FrameRec }] : CaptureS }
      ∧
    on w4.dev 13104 2 ≤
      { stage := 0, codes := [5], micro := 0, civil := 0, pre := [], post := [{ valid := true, body := List.replicate 100 3, down := [] : FrameRec }, { valid := false, body := [], down := [] : FrameRec }] : CaptureS }.post.length
      ∧
    storeUp w4.dev = true ∧
    ringSize w4.dev 7 ≠ 0 ∧
    ringIdle w4.dev 7 = true ∧
    (partAdd 4 65 (capHeader w4.dev
      { stage := 0, codes := [5], micro := 0, civil := 0, pre := [], post := [{ valid := true, body := List.replicate 100 3, down := [] : FrameRec }, { valid := false, body := [], down := [] : FrameRec }] : CaptureS }
      (List.length (capStream (stageE w4.dev 0)
      ({ stage := 0, codes := [5], micro := 0, civil := 0, pre := [], post := [{ valid := true, body := List.replicate 100 3, down := [] : FrameRec }, { valid := false, body := [], down := [] : FrameRec }] : CaptureS }.pre
      ++
      { stage := 0, codes := [5], micro := 0, civil := 0, pre := [], post := [{ valid := true, body := List.replicate 100 3, down := [] : FrameRec }, { valid := false, body := [], down := [] : FrameRec }] : CaptureS }.post))))
      w4.dev).isSome = true := by
  and_intros <;> decide +kernel

open Pair in
/-- A state and operands for clauses of the statement PairElects. -/
theorem witness_PairElects :
    (running w0.dev = true ∧ w0.dev.pair.declared = true ∧ w0.dev.pair.role = Role.electing ∧ w0.dev.pair.lastHb = none ∧
      w0.dev.pair.clash = false ∧ (w0.dev.pair.missB ≠ 0 ∨ w0.dev.pair.validEdge = none ∨ portNo w0.dev ≠ 1)) ∧
    (running w1.dev = true ∧ w1.dev.pair.declared = true ∧ w1.dev.pair.role = Role.electing ∧ (img? w1.dev).isSome = true ∧ 3 ≤
      w1.dev.pair.noImg) ∧
    (running w2.dev = true ∧ w2.dev.pair.declared = true ∧ w2.dev.pair.role = Role.standby ∧ (img? w2.dev).isSome = true ∧ 3 ≤
      w2.dev.pair.noImg) ∧
    running w7.dev = true ∧
    w7.dev.pair.role = Role.electing ∧
    w7.dev.pair.missB = 0 ∧
    w7.dev.pair.validEdge.isSome = true ∧
    portNo w7.dev = 1 := by
  and_intros <;> decide +kernel

open Pair in
/-- A state and operands for clauses of the statement PairSignals. -/
theorem witness_PairSignals :
    (running w0.dev = true ∧ w0.dev.pair.hbRun = false) ∧
    (running w1.dev = true ∧ (48 = 48 ∨ 48 = 49) ∧ (laneS w1.dev 48).st = LaneSt.up ∧ 2 * 0 ≤ 1000 * ↑(tNs w1.dev) ∧
      w1.dev.pair.role ≠ Role.single ∧ 0 = w1.dev.time.micro % 2 ^ 32) ∧
    (running w2.dev = true ∧ (48 = 48 ∨ 48 = 49) ∧ (laneS w2.dev 48).st = LaneSt.up ∧ 2 * 0 ≤ 1000 * ↑(tNs w2.dev) ∧
      w2.dev.pair.role = Role.standby ∧ { micro := 7, minor := 6, major := 5, tick := 4, k := 3, m := 2 : FrameCounts }.micro ≠
      w2.dev.time.micro) ∧
    (running w2.dev = true ∧ (48 = 48 ∨ 48 = 49) ∧ (laneS w2.dev 48).st = LaneSt.up ∧ 2 * 0 ≤ 1000 * ↑(tNs w2.dev) ∧
      w2.dev.pair.role = Role.standby ∧ 0 < 2 ^ 32 ∧ 0 ≠ w2.dev.time.micro % 2 ^ 32) ∧
    (running w3.dev = true ∧ inPair w3.dev = true ∧ 16 ≤ w3.dev.pair.okA ∧ pairBit w3.dev 5 = true) ∧
    (running w3.dev = true ∧ inPair w3.dev = true ∧ 16 ≤ w3.dev.pair.okB ∧ pairBit w3.dev 6 = true) ∧
    (running w4.dev = true ∧ w4.dev.pair.hbRun = true) ∧
    (running w4.dev = true ∧ inPair w4.dev = true ∧ 3 ≤ w4.dev.pair.missA ∧ w4.dev.pair.missB = 0 ∧ pairBit w4.dev 5 = false) ∧
    (running w4.dev = true ∧ (49 = 48 ∨ 49 = 49) ∧ (laneS w4.dev 49).st = LaneSt.up ∧ 2 * 0 ≤ 1000 * ↑(tNs w4.dev) ∧
      w4.dev.pair.role = Role.active ∧ 0 ≠ w4.dev.time.micro % 2 ^ 32) ∧
    (running w5.dev = true ∧ inPair w5.dev = true ∧ 3 ≤ w5.dev.pair.missB ∧ w5.dev.pair.missA = 0 ∧ pairBit w5.dev 6 = false) ∧
    (running w0.dev = true ∧ w0.dev.pair.sending = false) ∧
    (running w1.dev = true ∧ (48 = 48 ∨ 48 = 49) ∧ (laneS w1.dev 48).st = LaneSt.up ∧ w1.dev.pair.role ≠ Role.single ∧ pairParse
      (fs.getD 2 default) = none) ∧
    (running w1.dev = true ∧ (48 = 48 ∨ (laneS w1.dev 48).st ≠ LaneSt.up) ∧ (48 = 48 ∨ 48 = 49) ∧ (laneS w1.dev 48).st =
      LaneSt.up ∧ pairParse (fs.getD 0 default) = some [] ∧ w1.dev.pair.waits = none ∧ w1.dev.pair.role = Role.electing ∧
      w1.dev.pair.lastHb ≠ some (Machine.fieldLe (fs.getD 0 default).body 12 2)) ∧
    (running w2.dev = true ∧ (48 = 48 ∨ 48 = 49) ∧ (laneS w2.dev 48).st = LaneSt.up ∧ w2.dev.pair.role ≠ Role.single ∧ pairParse
      (fs.getD 1 default) = some [] ∧ w2.dev.pair.waits = none ∧ w2.dev.pair.lastHb ≠ some (Machine.fieldLe (fs.getD 1
      default).body 12 2) ∧ w2.dev.pair.role ≠ Role.electing ∧ byteAt (fs.getD 1 default).body 0 ≠ portNo w2.dev ∧ (48 = 48 ∨
      (laneS w2.dev 48).st ≠ LaneSt.up)) ∧
    (running w2.dev = true ∧ (49 = 48 ∨ 49 = 49) ∧ (laneS w2.dev 49).st = LaneSt.up ∧ w2.dev.pair.role ≠ Role.single ∧ pairParse
      (fs.getD 1 default) = some [] ∧ w2.dev.pair.waits = none ∧ w2.dev.pair.lastHb ≠ some (Machine.fieldLe (fs.getD 1
      default).body 12 2) ∧ w2.dev.pair.role ≠ Role.electing ∧ byteAt (fs.getD 1 default).body 0 ≠ portNo w2.dev ∧ 49 = 49 ∧
      (laneS w2.dev 48).st = LaneSt.up) ∧
    (running w3.dev = true ∧ (48 = 48 ∨ 48 = 49) ∧ (laneS w3.dev 48).st = LaneSt.up ∧ w3.dev.pair.role ≠ Role.single ∧
      (pairParse (fs.getD 0 default)).isSome = true ∧ w3.dev.pair.waits = none ∧ w3.dev.pair.lastHb = some (Machine.fieldLe
      (fs.getD 0 default).body 12 2) ∧ byteAt (fs.getD 0 default).body 0 ≠ portNo w3.dev) ∧
    running w4.dev = true ∧
    w4.dev.pair.sending = true ∧
    w4.dev.pair.sendingW = [] := by
  and_intros <;> decide +kernel

open Pair in
/-- A state and operands for clauses of the statement PairTakesOver. -/
theorem witness_PairTakesOver :
    (running w2.dev = true ∧ w2.dev.pair.role = Role.standby ∧ bothSilent w2.dev = true ∧ (img? w2.dev).isSome = true) ∧
    (running w2.dev = true ∧ w2.dev.pair.switchAt = some (400, 2) ∧ 400 ≤ w2.dev.time.micro ∧ w2.dev.pair.role = Role.standby) ∧
    (running w3.dev = true ∧ w3.dev.pair.role = Role.standby ∧ bothSilent w3.dev = false) ∧
    (running w3.dev = true ∧ w3.dev.pair.switchAt = some (600, 2) ∧ w3.dev.time.micro < 600) ∧
    (running w4.dev = true ∧ w4.dev.pair.switchAt = some (400, 2) ∧ 400 ≤ w4.dev.time.micro ∧ w4.dev.pair.role = Role.active) ∧
    running w5.dev = true ∧
    pairBit w5.dev 11 = true ∧
    w5.dev.pair.wasReady = true ∧
    switchOk w5.dev = true := by
  and_intros <;> decide +kernel

open Upd in
/-- A state and operands for clauses of the statement KeysAndUpdates. -/
theorem witness_KeysAndUpdates :
    (running w4.dev = true ∧ on w4.dev 1796 1 = 2 ∧ w4.dev.update.built = none ∧ sha256 (packageOf w4.dev.update) ≠
      w4.dev.update.digest) ∧
    (running w6.dev = true ∧ w6.dev.update.quietDue = true ∧ w6.dev.pair.role = Role.active) ∧
    (running w7.dev = true ∧ inTrial w7.dev = true ∧ w7.dev.update.fall = none ∧ on w7.dev 1799 2 * 1000000000 ≤
      w7.dev.update.dwell) ∧
    (running w7.dev = true ∧ inTrial w7.dev = true ∧ w7.dev.update.fall = none ∧ w7.dev.startup.t < on w7.dev 1799 1 *
      60000000000) ∧
    running w8.dev = true ∧
    inTrial w8.dev = true ∧
    w8.dev.update.fall = none ∧
    on w8.dev 1799 1 * 60000000000 ≤ w8.dev.startup.t ∧
    w8.dev.pair.role = Role.standby := by
  and_intros <;> decide +kernel

open Start in
/-- A state and operands for clauses of the statement ResetsStopTheOutputs. -/
theorem witness_ResetsStopTheOutputs :
    (1 % 64 ≠ 0 ∧ w0.dev.phase = Phase.reset) ∧
    (1 % 64 ≠ 0 ∧ (w4.dev.phase = Phase.running ∨ w4.dev.phase = Phase.failSilent)) ∧
    (w4.dev.phase = Phase.running ∨ w4.dev.phase = Phase.failSilent) ∧
    w8.dev.phase = Phase.keep ∧
    w11.dev.phase = Phase.failSilent := by
  and_intros <;> decide +kernel

open Start in
/-- A state and operands for clauses of the statement StartBegins. -/
theorem witness_StartBegins :
    (w0.dev.phase = Phase.reset ∨ w0.dev.phase = Phase.keep) ∧
    { rootOk := false : StartIn }.testEn = false ∧
    { rootOk := false : StartIn }.rootOk = false := by
  and_intros <;> decide +kernel

open Start in
/-- A state and operands for clauses of the statement StartGoesOn. -/
theorem witness_StartGoesOn :
    (running w4.dev = true ∧ img? w4.dev = some img0 ∧ isActive w4.dev = true ∧ w4.dev.time.m = 0 ∧ (on w4.dev 1537 0).testBit 0
      = false ∧ (on w4.dev 8704 0).testBit 10 = true ∧ (∀ l ∈ attachedLanes w4.dev, w4.dev.startup.tried.contains l = true) ∧
      discEnded w4.dev = true ∧ seqPointsFresh w4.dev img0 = true) ∧
    (running w4.dev = true ∧ yardOn w4.dev = true ∧ (on w4.dev 1537 0).testBit 1 = false ∧ yardMissing w4.dev ≠ [] ∧ 120000 ≤
      startMs w4.dev ∧ 9 ∉ w4.dev.startup.late) ∧
    running w17.dev = true ∧
    okey 13312 1 ∈ w17.dev.os.norDirty ∧
    w17.dev.startup.factoryNor = false := by
  and_intros <;> decide +kernel

open Mal in
/-- A state and operands for clauses of the statement ObjectsAreServed. -/
theorem witness_ObjectsAreServed :
    (InSession w0.dev (pd 1 4096 0 []) ses ∧ xfersOf w0.dev (pd 1 4096 0 []).c < 4 ∧ xfersAll w0.dev < 64 ∧ (pd 1 4096 0
      []).data = [] ∧ objCode w0.dev (pd 1 4096 0 []).obj (pd 1 4096 0 []).sub = 0 ∧ isDomain w0.dev (pd 1 4096 0 []).obj (pd 1
      4096 0 []).sub = false ∧ readCheck w0.dev ses.role (pd 1 4096 0 []).obj (pd 1 4096 0 []).sub = 0 ∧ steadyObj (pd 1 4096 0
      []).obj = true ∧ List.length (readVal ses.role (pd 1 4096 0 []).obj (pd 1 4096 0 []).sub w0.dev).1 ≤ 56) ∧
    (InSession w0.dev (pd 1 12549 0 []) ses ∧ xfersOf w0.dev (pd 1 12549 0 []).c < 4 ∧ xfersAll w0.dev < 64 ∧ (pd 1 12549 0
      []).data = [] ∧ objCode w0.dev (pd 1 12549 0 []).obj (pd 1 12549 0 []).sub = 0 ∧ isDomain w0.dev (pd 1 12549 0 []).obj (pd
      1 12549 0 []).sub = false ∧ readCheck w0.dev ses.role (pd 1 12549 0 []).obj (pd 1 12549 0 []).sub ≠ 0 ∧ steadyObj (pd 1
      12549 0 []).obj = true) ∧
    (InSession w0.dev (pd 1 12288 1 []) ses ∧ xfersOf w0.dev (pd 1 12288 1 []).c < 4 ∧ xfersAll w0.dev < 64 ∧ (pd 1 12288 1
      []).data = [] ∧ findObj (pd 1 12288 1 []).obj = some (oCfg.1, oCfg.2) ∧ findSub oCfg.1 (pd 1 12288 1 []).sub = some sCfg ∧
      objCode w0.dev (pd 1 12288 1 []).obj (pd 1 12288 1 []).sub = 0) ∧
    (hears w3.dev (pd 1 4096 0 []) ∧ (pd 1 4096 0 []).obj < 2 ^ 17 ∧ (pd 1 4096 0 []).data = [] ∧ sesOf? w3.dev (pd 1 4096 0
      []).c = none) ∧
    InSession w4.dev (pd 1 4096 0 []) ses ∧
    xfersOf w4.dev (pd 1 4096 0 []).c < 4 ∧
    xfersAll w4.dev < 64 ∧
    List.length (pd 1 4096 0 []).data ≤ 56 ∧
    w4.dev.pair.role = Role.standby ∧
    ownWrite (pd 1 4096 0 []).obj = false := by
  and_intros <;> decide +kernel

open Mal in
/-- A state and operands for clauses of the statement TransfersMoveValues. -/
theorem witness_TransfersMoveValues :
    (InSession w0.dev (pd 1 4096 0 []) ses ∧ (pd 1 4096 0 []).data = [] ∧ (xfersOf w0.dev (pd 1 4096 0 []).c < 4 ∧ xfersAll
      w0.dev < 64) ∧ readCheck w0.dev ses.role (pd 1 4096 0 []).obj (pd 1 4096 0 []).sub = 0 ∧ steadyObj (pd 1 4096 0 []).obj =
      true ∧ 0 < List.length (readVal ses.role (pd 1 4096 0 []).obj (pd 1 4096 0 []).sub w0.dev).1) ∧
    (InSession w0.dev (pd 3 12308 0 (natLe 4 8)) ses ∧ refusesWrite w0.dev (pd 3 12308 0 (natLe 4 8)).obj = false ∧ (pd 3 12308
      0 (natLe 4 8)).data = natLe 4 8 ∧ 0 < 8 ∧ 8 < 2 ^ 32 ∧ initCheck w0.dev ses.role (pd 3 12308 0 (natLe 4 8)).obj (pd 3
      12308 0 (natLe 4 8)).sub 8 = 0 ∧ xfersOf w0.dev (pd 3 12308 0 (natLe 4 8)).c < 4 ∧ xfersAll w0.dev < 64) ∧
    (InSession w0.dev (pd 1 3 0 [1, 0, 0, 0]) ses ∧ blockView w0.dev ses = false ∧ (pd 1 3 0 [1, 0, 0, 0]).data = [1, 0, 0, 0] ∧
      xfersOf w0.dev (pd 1 3 0 [1, 0, 0, 0]).c < 4 ∧ xfersAll w0.dev < 64) ∧
    (InSession w1.dev (pd 1 4096 0 []) ses ∧ xferOf? w1.dev (pd 1 4096 0 []).c 7 = some xw) ∧
    (InSession w1.dev (pd 1 12288 1 [1]) ses ∧ xferOf? w1.dev (pd 1 12288 1 [1]).c 7 = some xw ∧ 1 ≤ List.length (pd 1 12288 1
      [1]).data ∧ xw.read = false ∧ xw.blk = 0 ∧ pduOffset
      { c := (pd 1 12288 1 [1]).c, tag := 7, obj := (pd 1 12288 1 [1]).obj, sub := (pd 1 12288 1 [1]).sub, data := (pd 1 12288 1 [1]).data, len := (pd 1 12288 1 [1]).len, pad := (pd 1 12288 1 [1]).pad, id := (pd 1 12288 1 [1]).id, word := (pd 1 12288 1 [1]).word, full := (pd 1 12288 1 [1]).full : PduIn }
      ≠ List.length xw.data) ∧
    (InSession w1.dev (pd 3 12548 0 [20, 0, 0, 0]) ses ∧ xferOf? w1.dev (pd 3 12548 0 [20, 0, 0, 0]).c 7 = some xw ∧ (pd 3 12548
      0 [20, 0, 0, 0]).data = natLe 2 20 ++ [0, 0]) ∧
    (InSession w1.dev (pd 1 2 0 [3]) ses ∧ xferOf? w1.dev (pd 1 2 0 [3]).c 7 = some xw ∧ 1 ≤ List.length (pd 1 2 0 [3]).data ∧
      xw.read = false ∧ xw.blk = 0 ∧ pduOffset
      { c := (pd 1 2 0 [3]).c, tag := 7, obj := (pd 1 2 0 [3]).obj, sub := (pd 1 2 0 [3]).sub, data := (pd 1 2 0 [3]).data, len := (pd 1 2 0 [3]).len, pad := (pd 1 2 0 [3]).pad, id := (pd 1 2 0 [3]).id, word := (pd 1 2 0 [3]).word, full := (pd 1 2 0 [3]).full : PduIn }
      = List.length xw.data ∧ List.length xw.data + List.length (pd 1 2 0 [3]).data < xw.size) ∧
    (InSession w1.dev (pd 1 2 0 [3, 4]) ses ∧ xferOf? w1.dev (pd 1 2 0 [3, 4]).c 7 = some xw ∧ 1 ≤ List.length (pd 1 2 0 [3,
      4]).data ∧ xw.read = false ∧ pduOffset
      { c := (pd 1 2 0 [3, 4]).c, tag := 7, obj := (pd 1 2 0 [3, 4]).obj, sub := (pd 1 2 0 [3, 4]).sub, data := (pd 1 2 0 [3, 4]).data, len := (pd 1 2 0 [3, 4]).len, pad := (pd 1 2 0 [3, 4]).pad, id := (pd 1 2 0 [3, 4]).id, word := (pd 1 2 0 [3, 4]).word, full := (pd 1 2 0 [3, 4]).full : PduIn }
      = List.length xw.data ∧ List.length xw.data + List.length (pd 1 2 0 [3, 4]).data = xw.size ∧ w1.dev.pair.role =
      Role.single ∧ xw.num ≠ 17 ∧ steadyObj xw.num = true ∧ writeCheck w1.dev ses.role xw.num xw.sub (xw.data ++ (pd 1 2 0 [3,
      4]).data) = (0, wv 13104 3 [1, 2, 3, 4]) ∧ (wv 13104 3 [1, 2, 3, 4]).level ≠ 0) ∧
    (InSession w2.dev (pd 2 4 0 []) (let __src := ses;
      { client := __src.client, role := __src.role, key := __src.key, num := __src.num, notify := __src.notify, want := 8, rx := __src.rx, txc := __src.txc, evSent := __src.evSent : MSes })
      ∧ xferOf? w2.dev (pd 2 4 0 []).c 7 = some xr ∧ xr.read = true ∧ (pd 2 4 0 []).data = [] ∧ pduOffset
      { c := (pd 2 4 0 []).c, tag := 7, obj := (pd 2 4 0 []).obj, sub := (pd 2 4 0 []).sub, data := (pd 2 4 0 []).data, len := (pd 2 4 0 []).len, pad := (pd 2 4 0 []).pad, id := (pd 2 4 0 []).id, word := (pd 2 4 0 []).word, full := (pd 2 4 0 []).full : PduIn }
      = xr.size ∧ xr.size ≤ xr.sent) ∧
    (InSession w2.dev (pd 1 3 0 []) (let __src := ses;
      { client := __src.client, role := __src.role, key := __src.key, num := __src.num, notify := __src.notify, want := 8, rx := __src.rx, txc := __src.txc, evSent := __src.evSent : MSes })
      ∧ xferOf? w2.dev (pd 1 3 0 []).c 7 = some xr ∧ xr.read = true ∧ (pd 1 3 0 []).data = [] ∧ xr.blk = 0 ∧ pduOffset
      { c := (pd 1 3 0 []).c, tag := 7, obj := (pd 1 3 0 []).obj, sub := (pd 1 3 0 []).sub, data := (pd 1 3 0 []).data, len := (pd 1 3 0 []).len, pad := (pd 1 3 0 []).pad, id := (pd 1 3 0 []).id, word := (pd 1 3 0 []).word, full := (pd 1 3 0 []).full : PduIn }
      ≤ xr.sent ∧ pduOffset
      { c := (pd 1 3 0 []).c, tag := 7, obj := (pd 1 3 0 []).obj, sub := (pd 1 3 0 []).sub, data := (pd 1 3 0 []).data, len := (pd 1 3 0 []).len, pad := (pd 1 3 0 []).pad, id := (pd 1 3 0 []).id, word := (pd 1 3 0 []).word, full := (pd 1 3 0 []).full : PduIn }
      ≠ xr.size ∧ pduOffset
      { c := (pd 1 3 0 []).c, tag := 7, obj := (pd 1 3 0 []).obj, sub := (pd 1 3 0 []).sub, data := (pd 1 3 0 []).data, len := (pd 1 3 0 []).len, pad := (pd 1 3 0 []).pad, id := (pd 1 3 0 []).id, word := (pd 1 3 0 []).word, full := (pd 1 3 0 []).full : PduIn }
      < List.length xr.data) ∧
    (InSession w2.dev (pd 3 12308 0 (natLe 4 8 ++ [4, 0, 0, 0])) (let __src := ses;
      { client := __src.client, role := __src.role, key := __src.key, num := __src.num, notify := __src.notify, want := 8, rx := __src.rx, txc := __src.txc, evSent := __src.evSent : MSes })
      ∧ refusesWrite w2.dev (pd 3 12308 0 (natLe 4 8 ++ [4, 0, 0, 0])).obj = false ∧ (pd 3 12308 0 (natLe 4 8 ++ [4, 0, 0,
      0])).data = natLe 4 8 ++ natLe 1 4 ++ [0, 0, 0] ∧ 0 < 8 ∧ 8 < 2 ^ 32 ∧ 1 ≤ 4 ∧ 4 < 256 ∧ blockView w2.dev (let __src :=
      ses;
      { client := __src.client, role := __src.role, key := __src.key, num := __src.num, notify := __src.notify, want := 8, rx := __src.rx, txc := __src.txc, evSent := __src.evSent : MSes })
      = true ∧ initCheck w2.dev (let __src := ses;
      { client := __src.client, role := __src.role, key := __src.key, num := __src.num, notify := __src.notify, want := 8, rx := __src.rx, txc := __src.txc, evSent := __src.evSent : MSes }).role
      (pd 3 12308 0 (natLe 4 8 ++ [4, 0, 0, 0])).obj (pd 3 12308 0 (natLe 4 8 ++ [4, 0, 0, 0])).sub 8 = 0 ∧ xfersOf w2.dev (pd 3
      12308 0 (natLe 4 8 ++ [4, 0, 0, 0])).c < 4 ∧ xfersAll w2.dev < 64) ∧
    InSession w5.dev (pd 3 1536 0 (natLe 4 8)) (let __src := ses;
      { client := __src.client, role := __src.role, key := __src.key, num := __src.num, notify := __src.notify, want := 8, rx := __src.rx, txc := __src.txc, evSent := __src.evSent : MSes })
      ∧
    (pd 3 1536 0 (natLe 4 8)).data = natLe 1 8 ++ [0, 0, 0] ∧
    1 ≤ 8 ∧
    8 < 256 ∧
    blockView w5.dev (let __src := ses;
      { client := __src.client, role := __src.role, key := __src.key, num := __src.num, notify := __src.notify, want := 8, rx := __src.rx, txc := __src.txc, evSent := __src.evSent : MSes })
      = true ∧
    (xfersOf w5.dev (pd 3 1536 0 (natLe 4 8)).c < 4 ∧ xfersAll w5.dev < 64) ∧
    (readCheck w5.dev (let __src := ses;
      { client := __src.client, role := __src.role, key := __src.key, num := __src.num, notify := __src.notify, want := 8, rx := __src.rx, txc := __src.txc, evSent := __src.evSent : MSes }).role
      (pd 3 1536 0 (natLe 4 8)).obj (pd 3 1536 0 (natLe 4 8)).sub = 0 ∧ steadyObj (pd 3 1536 0 (natLe 4 8)).obj = true ∧ 0 <
      List.length (readVal (let __src := ses;
      { client := __src.client, role := __src.role, key := __src.key, num := __src.num, notify := __src.notify, want := 8, rx := __src.rx, txc := __src.txc, evSent := __src.evSent : MSes }).role
      (pd 3 1536 0 (natLe 4 8)).obj (pd 3 1536 0 (natLe 4 8)).sub w5.dev).1) ∧
    on w5.dev 12310 4 = 1 := by
  and_intros <;> decide +kernel

open Wr in
/-- A state and operands for clauses of the statement WritesAreAdmitted. -/
theorem witness_WritesAreAdmitted :
    (writeOf (Instr.ctrlLevelWrite 3 1 1) = some { role := 3, num := 32, sub := 1, value := [1] : Write } ∧ running w0.dev =
      false) ∧
    (writeOf (Instr.ctrlLevelWrite 3 1 1) = some { role := 3, num := 32, sub := 1, value := [1] : Write } ∧ running w1.dev =
      true ∧ (w1.dev.pair.role ≠ Role.standby ∨ ownWrite { role := 3, num := 32, sub := 1, value := [1] : Write }.num = true) ∧
      (writeCheck w1.dev { role := 3, num := 32, sub := 1, value := [1] : Write }.role
      { role := 3, num := 32, sub := 1, value := [1] : Write }.num { role := 3, num := 32, sub := 1, value := [1] : Write }.sub
      { role := 3, num := 32, sub := 1, value := [1] : Write }.value).1 = 0 ∧ viaPartner w1.dev
      { role := 3, num := 32, sub := 1, value := [1] : Write }.num = false ∧ (writeCheck w1.dev
      { role := 3, num := 32, sub := 1, value := [1] : Write }.role { role := 3, num := 32, sub := 1, value := [1] : Write }.num
      { role := 3, num := 32, sub := 1, value := [1] : Write }.sub
      { role := 3, num := 32, sub := 1, value := [1] : Write }.value).2.level ≠ 0) ∧
    (writeOf (Instr.ctrlLevelWrite 3 1 1) = some { role := 3, num := 32, sub := 1, value := [1] : Write } ∧ running w3.dev =
      true ∧ w3.dev.pair.role = Role.standby ∧ ownWrite { role := 3, num := 32, sub := 1, value := [1] : Write }.num = false) ∧
    (writeOf (Instr.ctrlLevelWrite 3 1 1) = some { role := 3, num := 32, sub := 1, value := [1] : Write } ∧ running w4.dev =
      true ∧ (w4.dev.pair.role ≠ Role.standby ∨ ownWrite { role := 3, num := 32, sub := 1, value := [1] : Write }.num = true) ∧
      (writeCheck w4.dev { role := 3, num := 32, sub := 1, value := [1] : Write }.role
      { role := 3, num := 32, sub := 1, value := [1] : Write }.num { role := 3, num := 32, sub := 1, value := [1] : Write }.sub
      { role := 3, num := 32, sub := 1, value := [1] : Write }.value).1 = 0 ∧ viaPartner w4.dev
      { role := 3, num := 32, sub := 1, value := [1] : Write }.num = true ∧
      { role := 3, num := 32, sub := 1, value := [1] : Write }.num ≠ 1029) ∧
    writeOf (Instr.objectWrite 3 12288 1 [1, 2]) = some { role := 3, num := 12288, sub := 1, value := [1, 2] : Write } ∧
    running w1.dev = true ∧
    (w1.dev.pair.role ≠ Role.standby ∨ ownWrite { role := 3, num := 12288, sub := 1, value := [1, 2] : Write }.num = true) ∧
    (writeCheck w1.dev { role := 3, num := 12288, sub := 1, value := [1, 2] : Write }.role
      { role := 3, num := 12288, sub := 1, value := [1, 2] : Write }.num
      { role := 3, num := 12288, sub := 1, value := [1, 2] : Write }.sub
      { role := 3, num := 12288, sub := 1, value := [1, 2] : Write }.value).1 ≠ 0 := by
  and_intros <;> decide +kernel

open Wr in
/-- A state and operands for clauses of the statement ClearsTakeEffect. -/
theorem witness_ClearsTakeEffect :
    (0 < 32 ∧ 0 < 16) ∧
    (1 < 32 ∧ 0 < 4 ∧ (gSeq (up (big 0)).dev 1 0).state = 9) ∧
    (1 < 32 ∧ on (up (big 0)).dev (oStg 1 11) 0 &&& 1 ≠ 0) ∧
    (1 < 64 ∧ 1 = 1 ∧ (nSeq (up (big 0)).dev 1).state = 7) ∧
    (1 < 64 ∧ 0 < 2 ∧ Nat.testBit 1 0 = true ∧ (on (up (big 0)).dev (oCon 1 65) 3).testBit 0 = true) ∧
    (1 < 32 ∧ Nat.testBit 1 0 = true ∧ oflag (up (big 0)).dev (oStg 1 449) 2 = true) ∧
    (Nat.testBit 1 0 = true ∧ oflag (up (big 0)).dev 645 5 = true) ∧
    (0 < 32 ∧ 1 = 1) ∧
    (1 = 1 ∧ (on (up (big 0)).dev 13056 0).testBit 2 = true) ∧
    (1 < 4 ∧ Nat.testBit 2 1 = true ∧ (nSeq (up (big 0)).dev (64 + 1)).state = 7) ∧
    (0 < 32 ∧ 2 = 2) ∧
    (4 = 4 ∧ (on (up (big 0)).dev 389 0).testBit 2 = true ∧ (on (up (big 0)).dev 389 0).testBit 0 = false) ∧
    (13 ≤ 13 ∧ 13 ≤ 15 ∧ Nat.testBit 536870912 13 = false ∧ Nat.testBit 536870912 (13 + 16) = true) ∧
    4 = 4 ∧
    (on (up (big 1)).dev 389 0).testBit 2 = true ∧
    (on (up (big 1)).dev 389 0).testBit 0 = true := by
  and_intros <;> decide +kernel

open Act in
/-- A state and operands for clauses of the statement WritesActAtOnce. -/
theorem witness_WritesActAtOnce :
    (running w1.dev = true ∧ Serves w1.dev 1 5 ∧ sesState w1.dev 5 = 3 ∧ w1.dev.pair.role = Role.single ∧ (writeCheck w1.dev 0
      (oSes 5 6) 0 (natLe 1 1)).1 = 0) ∧
    (running w1.dev = true ∧ Serves w1.dev 1 5 ∧ sesState w1.dev 5 = 3 ∧ w1.dev.pair.role = Role.single ∧ (writeCheck w1.dev 0
      (oSes 5 6) 0 (natLe 1 2)).1 = 0) ∧
    (running w1.dev = true ∧ Serves w1.dev 1 5 ∧ 3 ≤ sesState w1.dev 5 ∧ sesState w1.dev 5 ≤ 7 ∧ w1.dev.pair.role = Role.single
      ∧ (writeCheck w1.dev 0 (oSes 5 8) 0 (natLe 1 1)).1 = 0) ∧
    (running w1.dev = true ∧ 0 < 256 ∧ 0 < 256 ∧ w1.dev.pair.role = Role.single ∧ (writeCheck w1.dev 0 (oSes 0 9) 0 (natLe 1
      0)).1 = 0) ∧
    (running w1.dev = true ∧ 0 < 2 ^ 64 ∧ w1.dev.pair.role = Role.single ∧ (writeCheck w1.dev 1 392 0 (natLe 8 0)).1 = 0) ∧
    (running w1.dev = true ∧ -2 ^ 63 ≤ -5 ∧ -5 < 2 ^ 63 ∧ w1.dev.pair.role = Role.single ∧ (writeCheck w1.dev 1 393 0 (natLe 8
      (ofS 64 (-5)))).1 = 0) ∧
    (running w1.dev = true ∧ 0 < 16 ∧ 0 < 4 ∧ w1.dev.pair.role = Role.single ∧ (writeCheck w1.dev 1 792 0 (natLe 1 0)).1 = 0) ∧
    (running w1.dev = true ∧ 0 < 4 ∧ w1.dev.pair.role = Role.single ∧ (writeCheck w1.dev 1 (785 + 2 * 0) 0 []).1 = 0) ∧
    (running w1.dev = true ∧ 2 < 16 ∧ 1 < 4 ∧ Nat.testBit 2 1 = true ∧ fbMaySend w1.dev 1 = true ∧ w1.dev.pair.role =
      Role.single ∧ (writeCheck w1.dev 1 12300 3 (natLe 1 2)).1 = 0) ∧
    (running w1.dev = true ∧ 261 < 65536 ∧ List.find? (fun q ↦ q.2 == 261) (bindings w1.dev) = some (List.replicate 16 7, 261) ∧
      nodeIdx 261 = some 5 ∧ w1.dev.pair.role = Role.single ∧ (writeCheck w1.dev 1 12549 0 (natLe 2 261)).1 = 0) ∧
    (running w1.dev = true ∧ 0 < 256 ∧ w1.dev.pair.role = Role.single ∧ (writeCheck w1.dev 1 1281 1 (natLe 1 0)).1 = 0) ∧
    (running w1.dev = true ∧ 0 < 16 ∧ 1 < 256 ∧ w1.dev.pair.role = Role.single ∧ (writeCheck w1.dev 1 (1328 + 0) 1 [1]).1 = 0) ∧
    (running w1.dev = true ∧ 0 < 65536 ∧ w1.dev.pair.role = Role.single ∧ (writeCheck w1.dev 1 12816 0 (natLe 4 (65536 * 0))).1
      = 0) ∧
    (running w6.dev = true ∧ w6.dev.pair.role = Role.active ∧ partnerPresent w6.dev = true ∧ (writeCheck w6.dev 1 1029 0 (natLe
      1 1)).1 = 0) ∧
    (running w7.dev = true ∧ w7.dev.pair.role = Role.single ∧ (writeCheck w7.dev 1 1793 3 []).1 = 0) ∧
    (running w8.dev = true ∧ 0 < 256 ∧ (w8.dev.pair.role = Role.single ∧ (writeCheck w8.dev 1 1797 2 (natLe 1 0)).1 = 0) ∧
      namesMe w8.dev (updArg w8.dev 1797 1) = true ∧ updActivateCheck w8.dev (updArg w8.dev 1797 1) (decide (0 ≠ 0)) = 0) ∧
    (running w8.dev = true ∧ 0 < 256 ∧ (w8.dev.pair.role = Role.single ∧ (writeCheck w8.dev 1 1800 0 (natLe 1 0)).1 = 0) ∧
      namesMe w8.dev 0 = true ∧ inTrial w8.dev = true ∧ restartCheck w8.dev false = 0) ∧
    (running w9.dev = true ∧ w9.dev.pair.role = Role.single ∧ (writeCheck w9.dev 1 1794 0 pc).1 = 0) ∧
    running w11.dev = true ∧
    (w11.dev.keys.lcU = 255 ∨ w11.dev.keys.lcU = on w11.dev 1027 0) := by
  and_intros <;> decide +kernel

open Gen in
/-- A state of the invariant whose step answers a next state. -/
theorem witness_StepsKeepTheInvariant : Inv w1 ∧ step w1 = .next w1 := ⟨by unfold Inv; decide +kernel, rfl⟩

open Udp in
/-- A state and operands for clauses of the statement SessionsOfClients. -/
theorem witness_SessionsOfClients :
    hears w0.dev (pd 0 0 0 ([1, 2, 0, 0] ++ List.replicate 16 9)) ∧ w0.dev.malpen.ses.length < 32 ∧
    hears w1.dev (pd 0 0 0 (List.replicate 16 7)) ∧ w1.dev.malpen.opens.find? (fun x => x.client == cl) = some op ∧
    lcRoleOk (lcState w1.dev) op.role = true ∧ accessKey w1.dev op.role = some initSvc ∧ sesOf? w1.dev cl = none ∧
    (sesOf? w0.dev cl).isSome = true ∧
    running w3.dev = true ∧ ownUdp w3.dev (List.replicate 16 9) 7000 = true ∧ ringSize w3.dev 11 ≠ 0 ∧ ringIdle w3.dev 11 = false ∧
    0 < ringRoom w3.dev 11 ∧ running w2.dev = true ∧ ownUdp w2.dev (List.replicate 16 9) 7000 = true ∧ ringIdle w2.dev 11 = true ∧
    ringSize w2.dev 12 ≠ 0 ∧ ringIdle w2.dev 12 = true ∧ sesOf? w2.dev ⟨4, 5⟩ = none ∧ on w2.dev 0x3017 3 = 7000 := by
  and_intros <;> first
    | decide +kernel
    | rfl

open Mon in
/-- A state and frames for clauses of the statement MonitorAnswers. -/
theorem witness_MonitorAnswers :
    MonFrame w0.dev (fr 1 []) 1 ∧ MonFrame w0.dev (fr 2 []) 2 ∧ MonFrame w0.dev (fr 4 []) 4 ∧ MonFrame w0.dev (fr 5 []) 5 ∧
    MonFrame w1.dev (u 1 (List.replicate 16 5)) 3 ∧ (u 1 (List.replicate 16 5)).len = 20 ∧ w1.dev.mon.lockout = false ∧
    lcState w1.dev ≠ 3 ∧ (accessKey w1.dev 1).isSome = true ∧ w1.dev.mon.nonce = some nonce ∧
    w3.dev.mon.lockout = true ∧ running w3.dev = true ∧ MonFrame w3.dev (u 1 (List.replicate 16 5)) 3 ∧
    w0.dev.mon.role = none ∧ MonFrame w0.dev (rd_ 0x3000 1 1 1) 0x10 ∧ (rd_ 0x3000 1 1 1).len = 12 ∧
    w4.dev.mon.role = some 3 ∧ MonFrame w4.dev (rd_ 0x3000 1 1 1) 0x10 ∧ readCheck w4.dev 3 0x3000 1 = 0 ∧ steadyObj 0x3000 = true ∧
    MonFrame w4.dev (wr_ 0x3000 1 [1]) 0x11 ∧ w4.dev.pair.role = .single ∧ objCode w4.dev 0x3000 1 = 0 ∧
    isDomain w4.dev 0x3000 1 = false ∧ (writeCheck w4.dev 3 0x3000 1 [1]).1 = 0 ∧ (writeCheck w4.dev 3 0x3000 1 [1]).2.level ≠ 0 ∧
    MonFrame w4.dev (fr 0x20 [3, 0, 0, 0]) 0x20 ∧ ringSize w4.dev 15 ≠ 0 ∧ w4.dev.ev.fresh = [] ∧
    lcState w4.dev = 5 ∧ MonFrame w4.dev (fr 0x30 (natLe 4 1 ++ [3, 0, 0, 0])) 0x30 ∧ monBad badF = true := by
  and_intros <;> decide +kernel

end Sys2Proof.Tests
end

/-! Frames that are built up update by update, and what a frame says about reading an object. -/

namespace Sys2Proof

open Machine

section

variable {ps qs : List Part} {ks ls : List (Nat × Nat)} {d e f : Dev}

theorem Framed.trans (h : Framed ps ks d e) (k : Framed ps ks e f) : Framed ps ks d f :=
  ⟨h.1.trans k.1, h.2.1.trans k.2.1, k.2.2.trans h.2.2⟩

theorem Framed.mono (h : Framed ps ks d e) (hp : ∀ p ∈ ps, p ∈ qs) (hk : ∀ k ∈ ks, k ∈ ls) : Framed qs ls d e :=
  ⟨h.1.mono hp, h.2.1.mono hk, h.2.2⟩

theorem Framed.ite {c : Prop} [Decidable c] (h : Framed ps ks d e) (k : Framed ps ks d f) :
    Framed ps ks d (if c then e else f) := by split <;> assumption

theorem Framed.put {num sub n : Nat} (hs : sub < 256) (hk : (num, sub) ∈ ks) (h : Framed ps ks d e) :
    Framed ps ks d (put num sub n e) :=
  ⟨h.1.trans ((onlyParts_put num sub n e).mono (by simp)), h.2.1.put hs hk, h.2.2⟩

theorem Framed.raise {code inst data : Nat} (h : Framed ps ks d e) : Framed ps ks d (raise code inst data e) :=
  h.follow (raise_follows code inst data e)

theorem onlyParts_bus (l : List FbS) (h : .bus ∈ ps) : OnlyParts ps d { d with bus := l } := by
  intro p hp
  cases p <;> first | exact absurd h hp | rfl | exact fun _ => rfl

theorem Framed.modFb {b : Nat} {g : FbS → FbS} (hp : .bus ∈ ps) (h : Framed ps ks d e) : Framed ps ks d (modFb b g e) :=
  h.trans (.of_os (onlyParts_bus _ hp) rfl)

/-- A frame from the device as a command's update finds it is a frame from the state. -/
theorem Framed.of_fresh {s : State} (h : Framed ps ks (fresh s) e) : Framed ps ks s.dev e :=
  Framed.trans (.of_os ((onlyParts_of_fields (e := fresh s) rfl).mono (by simp)) rfl) h

theorem Framed.ov_eq (h : Framed ps ks d e) {num sub : Nat} (hs : sub < 256) (hc : counted num sub = false)
    (hk : (num, sub) ∉ ks) : ov e num sub = ov d num sub := h.2.1 num sub hs hc hk

theorem Framed.on_eq (h : Framed ps ks d e) {num sub : Nat} (hs : sub < 256) (hc : counted num sub = false)
    (hk : (num, sub) ∉ ks) : on e num sub = on d num sub := congrArg valNat (h.ov_eq hs hc hk)

end

/-- The objects below the record store and the DMA rings count nothing that follows a command. -/
theorem counted_of_lt {num : Nat} (sub : Nat) (h : num < 0x3200) : counted num sub = false := by
  simp only [counted, ringBook, Bool.or_eq_false_iff, Bool.and_eq_false_iff, decide_eq_false_iff_not]
  omega

theorem counted_oPoint (n sub : Nat) : counted (oPoint n) sub = false := by
  have h1 : ¬ oPoint n ≤ 0x34FF := by unfold oPoint; omega
  have h2 : ¬ oPoint n < 0x3210 := by omega
  simp [counted, ringBook, h1, h2]

theorem testBit_setBit_same (n i : Nat) : (setBit n i).testBit i = true := by
  simp [setBit, Nat.testBit_shiftLeft]

end Sys2Proof

/-! The field buses: the state of a controller through other updates, frames received, and the points (R367, R383). -/

namespace Sys2Proof.Machine

open Sys2Proof

theorem Follows.on_of_not_counted {d e : Dev} (h : Follows d e) {num sub : Nat} (hs : sub < 256) (hc : counted num sub = false) :
    Machine.on e num sub = Machine.on d num sub := h.on num sub hs (moves_counted hc)

/-! ### The state of a controller -/

theorem fbS_congr {d e : Dev} (h : e.bus = d.bus) (b : Nat) : fbS e b = fbS d b := by rw [fbS, fbS, h]

/-- What follows a command leaves a controller alone but for the frames that wait to be sent. -/
theorem Follows.shadow {d e : Dev} (h : Follows d e) (b : Nat) : (fbS e b).shadow = (fbS d b).shadow :=
  (congrArg FbS.shadow (h.part .bus b : busCore _ = busCore _) :)

theorem Follows.gone {d e : Dev} (h : Follows d e) (b : Nat) : (fbS e b).gone = (fbS d b).gone :=
  (congrArg FbS.gone (h.part .bus b : busCore _ = busCore _) :)

theorem points_congr {d e : Dev} (h : ov e 0x3014 0 = ov d 0x3014 0) : points e = points d := by
  rw [points, points, ob, ob, h]

theorem on_fresh (s : State) (num sub : Nat) : on (fresh s) num sub = on s.dev num sub := rfl

/-! ### A received frame -/

/-- The objects that a frame received without error writes (R365, R387). -/
def recvObjs (b : Nat) : List (Nat × Nat) := [(0x3008 + b, 2), (0x3008 + b, 4), (0x3004 + b, 0)]

theorem fbErrBits_framed (b : Nat) (d : Dev) : Framed [] [(0x3004 + b, 0)] d (fbErrBits b d) := by
  unfold fbErrBits
  exact .put (by decide) (by simp) (.put (by decide) (by simp) (.ite (.raise (.refl _ _ _)) (.refl _ _ _)))

theorem fbErrBits_bus (b : Nat) (d : Dev) : (fbErrBits b d).bus = d.bus := by
  unfold fbErrBits
  dsimp only [wrStatus_bus]
  split <;> rfl

theorem fbRecv_framed (b : Nat) (d : Dev) : Framed [] (recvObjs b) d (fbRecv b d) := by
  have hi : Framed [] (recvObjs b) d (incr 32 (0x3008 + b) 2 d) := .put (by decide) (by simp [recvObjs]) (.refl _ _ _)
  unfold fbRecv
  exact .ite hi ((Framed.put (by decide) (by simp [recvObjs]) hi).trans
    ((fbErrBits_framed b _).mono (by simp) (by simp [recvObjs])))

@[simp] theorem fbRecv_bus (b : Nat) (d : Dev) : (fbRecv b d).bus = d.bus := by
  unfold fbRecv
  dsimp only
  split
  · rfl
  · rw [fbErrBits_bus]; rfl

/-- R365: the frame counts as received; the error counter and its bits are other objects. -/
theorem on_fbRecv_received (b : Nat) (hb : b < 4) (d : Dev) :
    on (fbRecv b d) (0x3008 + b) 2 = incSat 32 (on d (0x3008 + b) 2) := by
  unfold fbRecv
  dsimp only
  split
  · exact on_incr_same _ _ _ _
  · rw [(fbErrBits_framed b _).on_eq (by decide) (counted_of_lt _ (by omega)) (by simp),
      on_put_other _ _ _ _ _ _ (by simp [okey]), on_incr_same]

/-! ### The ways of a frame that arrives -/

section

variable {b : Nat} {sound full : Bool} {f : Dev → Dev} {d : Dev}

theorem fbTake_unsound (hr : fbMayRecv d b = true) (hs : sound = false) : fbTake b sound full f d = fbDiscard b (fbRecv b d) := by
  simp [fbTake, hr, hs]

theorem fbTake_full (hr : fbMayRecv d b = true) (hs : sound = true) (hf : full = true) :
    fbTake b sound full f d = fbOverrun b (fbRecv b d) := by simp [fbTake, hr, hs, hf]

theorem fbTake_taken (hr : fbMayRecv d b = true) (hs : sound = true) (hf : full = false) :
    fbTake b sound full f d = f (fbRecv b d) := by simp [fbTake, hr, hs, hf]

end

theorem fbDiscard_framed (b : Nat) (d : Dev) : Framed [] [(0x3008 + b, 7)] d (fbDiscard b d) :=
  .put (by decide) (by simp) (.refl _ _ _)

theorem fbOverrun_framed (b : Nat) (d : Dev) : Framed [] [(0x3008 + b, 6), (0x3004 + b, 0)] d (fbOverrun b d) :=
  .put (by decide) (by simp) (.put (by decide) (by simp) (.refl _ _ _))

theorem on_fbOverrun_lost (b : Nat) (d : Dev) : on (fbOverrun b d) (0x3008 + b) 6 = incSat 32 (on d (0x3008 + b) 6) := by
  rw [fbOverrun, on_setStatus_other _ _ _ _ _ _ (by simp [okey]; omega), on_incr_same]

theorem fbBit_fbOverrun (b : Nat) (d : Dev) : fbBit (fbOverrun b d) b 6 = true := by
  rw [fbBit, fbOverrun, on_setStatus_same, testBit_setBit_same]

/-! ### Points -/

theorem fbS_notGone (n : Nat) (d : Dev) (k : Nat) :
    fbS (notGone n d) k = { fbS d k with gone := (fbS d k).gone.filter (· != n) } := by
  simp only [fbS, notGone, List.getD_eq_getElem?_getD, List.getElem?_map]
  cases d.bus[k]? <;> rfl

theorem not_mem_gone_notGone (n : Nat) (d : Dev) (k : Nat) : n ∉ (fbS (notGone n d) k).gone := by
  simp [fbS_notGone]

theorem notGone_framed (n : Nat) (ks : List (Nat × Nat)) (d : Dev) : Framed [.bus] ks d (notGone n d) :=
  .of_os (onlyParts_bus _ (by simp)) rfl

/-- The objects of a point. -/
def pointObjs (n : Nat) : List (Nat × Nat) := [(oPoint n, 1), (oPoint n, 2), (oPoint n, 3)]

/-- The value that 4 bytes of a PUSH_IN give to a point: as many bits as its type has, or whether they are not 0 (R383). -/
def pushedValue (p : PointE) (v : Nat) : Nat := if p.ty = 1 then boolNat (decide (v % 2 ^ 32 ≠ 0)) else v % 2 ^ pointBits p

/-- A value reaches point `n` (R383). -/
def setPoint (n : Nat) (p : PointE) (v : Nat) (d : Dev) : Dev := freshPoint n (put (oPoint n) 1 (pushedValue p v) d)

section

variable (n : Nat) (p : PointE) (v : Nat) (d : Dev)

theorem setPoint_framed : Framed [.bus] (pointObjs n) d (setPoint n p v d) :=
  .put (by decide) (by simp [pointObjs]) (.put (by decide) (by simp [pointObjs])
    (.trans (.put (by decide) (by simp [pointObjs]) (.refl _ _ _)) (notGone_framed n _ _)))

theorem on_setPoint_value : on (setPoint n p v d) (oPoint n) 1 = pushedValue p v := by
  rw [setPoint, freshPoint, on_put_other _ _ _ _ _ _ (by simp [okey]), on_put_other _ _ _ _ _ _ (by simp [okey])]
  exact on_put_same d (oPoint n) 1 _

theorem on_setPoint_age : on (setPoint n p v d) (oPoint n) 2 = 0 := by
  rw [setPoint, freshPoint, on_put_other _ _ _ _ _ _ (by simp [okey]), on_put_same]

theorem on_setPoint_stale : on (setPoint n p v d) (oPoint n) 3 = 0 := by rw [setPoint, freshPoint, on_put_same]

theorem not_mem_gone_setPoint (k : Nat) : n ∉ (fbS (setPoint n p v d) k).gone := not_mem_gone_notGone n _ k

end

/-- A PUSH_IN of one value for the one input point of its slot. -/
theorem pushValues_single {b node page v n : Nat} {p : PointE} {d : Dev}
    (h : (points d).filter (fun q => q.2.bus == b && q.2.node == node && q.2.isIn && q.2.slot == 15 * page) = [(n, p)]) :
    pushValues b node page [v] d = setPoint n p v d := by
  have hf : ((points d).filter (fun q => q.2.bus == b && q.2.node == node && q.2.isIn)).find? (fun q => q.2.slot == 15 * page) =
      some (n, p) := by
    rw [← List.head?_filter, List.filter_filter]
    simpa [Bool.and_comm] using congrArg List.head? h
  simp only [pushValues, forEach, List.length_singleton, List.range_one, List.zip_cons_cons, List.zip_nil_right, List.foldl_cons,
    List.foldl_nil, Nat.add_zero, hf]
  rfl

theorem shadowUp_of_no_buffer {b node : Nat} {d : Dev} (h : ∀ x ∈ (fbS d b).shadow, x.1 ≠ node) : shadowUp b node d = d := by
  have hn : (fbS d b).shadow.find? (fun x => x.1 == node) = none := List.find?_eq_none.2 (by simpa using h)
  simp [shadowUp, hn]

/-! ### PUSH_IN -/

theorem points_fbRecv (b : Nat) (hb : b < 4) (d : Dev) : points (fbRecv b d) = points d :=
  points_congr ((fbRecv_framed b d).ov_eq (by decide) (counted_of_lt _ (by decide)) (by simp [recvObjs]; omega))

section

variable {b node page rsv : Nat} {vs : List Nat} {held : Bool} {id : Option Nat} {d : Dev}

theorem pushIn_unsound (hr : fbMayRecv d b = true)
    (h : id ≠ some (canId 2 2 0 node) ∨ nodeAddr node = false ∨ 15 < vs.length ∨ rsv ≠ 0) :
    pushIn b node page vs rsv held id d = fbDiscard b (fbRecv b d) := by
  unfold pushIn
  refine fbTake_unsound hr ?_
  simp only [Bool.and_eq_false_iff, beq_eq_false_iff_ne, decide_eq_false_iff_not, not_le]
  tauto

/-- R383: the layout of a PUSH_IN that is not discarded. -/
theorem pushIn_sound (hn : nodeAddr node = true) (hl : vs.length ≤ 15) :
    ((some (canId 2 2 0 node) == some (canId 2 2 0 node)) && nodeAddr node && decide (vs.length ≤ 15) && (0 == 0)) = true := by
  simp [hn, hl]

theorem pushIn_now (hr : fbMayRecv d b = true) (hn : nodeAddr node = true) (hl : vs.length ≤ 15) :
    pushIn b node page vs 0 false (some (canId 2 2 0 node)) d = pushValues b node page vs (shadowUp b node (fbRecv b d)) := by
  unfold pushIn
  exact fbTake_taken hr (pushIn_sound hn hl) rfl

theorem pushIn_lost (hr : fbMayRecv d b = true) (hn : nodeAddr node = true) (hl : vs.length ≤ 15) (hs : fbBit d b 5 = false) :
    pushIn b node page vs 0 true (some (canId 2 2 0 node)) d = fbOverrun b (fbRecv b d) := by
  unfold pushIn
  exact fbTake_full hr (pushIn_sound hn hl) (by simp [hs])

/-- The frame waits in the shadow buffer of its node, in place of one that waits there (R367). -/
def intoShadow (b node page : Nat) (vs : List Nat) (d : Dev) : Dev :=
  modFb b (fun f => { f with shadow := (fbS d b).shadow.filter (fun x => !(x.1 == node)) ++ [(node, page, vs)] })
    (if (fbS d b).shadow.any (fun x => x.1 == node) then fbOverrun b d else d)

theorem pushIn_shadow (hr : fbMayRecv d b = true) (hn : nodeAddr node = true) (hl : vs.length ≤ 15) (hs : fbBit d b 5 = true) :
    pushIn b node page vs 0 true (some (canId 2 2 0 node)) d = intoShadow b node page vs (fbRecv b d) := by
  unfold pushIn
  exact fbTake_taken hr (pushIn_sound hn hl) (by simp [hs])

theorem intoShadow_framed : Framed [.bus] [(0x3008 + b, 6), (0x3004 + b, 0)] d (intoShadow b node page vs d) :=
  .modFb (by simp) (.ite ((fbOverrun_framed b d).mono (by simp) (by simp)) (.refl _ _ _))

theorem shadow_intoShadow : (fbS (intoShadow b node page vs d) b).shadow =
    (fbS d b).shadow.filter (fun x => !(x.1 == node)) ++ [(node, page, vs)] := by
  simp [intoShadow]

theorem on_intoShadow_replaced (h : (fbS d b).shadow.any (fun x => x.1 == node) = true) :
    on (intoShadow b node page vs d) (0x3008 + b) 6 = incSat 32 (on d (0x3008 + b) 6) := by
  rw [intoShadow, if_pos h, on_modFb, on_fbOverrun_lost]

theorem pushIn_completes {s : State} {f : CanIn} {x : Dev} {P : Dev → Prop} (hb : b < 4)
    (hx : pushIn b node page vs rsv f.held f.id (fresh s) = x) (hP : ∀ e, Follows x e → P e) :
    Completes (.pushIn b node page vs rsv f) s P :=
  act_completes (f := onPart (decide (b < 4)) (pushIn b node page vs rsv f.held f.id)) rfl (by simpa [onPart, hb, hx] using hP)

end

/-! ### Stale points -/

/-- Point `n` goes stale, and is among those of its bus that did (R383). -/
def markStale (n : Nat) (p : PointE) (d : Dev) : Dev :=
  setStatus (0x3004 + p.bus) 0 9 (put (oPoint n) 3 1 (modFb p.bus (fun s => { s with gone := s.gone ++ [n] }) d))

/-- A point of the same node and bus went stale and has had no value since. -/
def nodeStale (p : PointE) (d : Dev) : Bool :=
  (points d).any (fun q => q.2.bus == p.bus && q.2.node == p.node && (fbS d p.bus).gone.contains q.1)

section

variable {n : Nat} {p : PointE} {d : Dev}

theorem pointStale_old (hp : pointAt (ob d 0x3014 0) n = some p) (hr : running d = true) (ht : p.timeout ≠ 0)
    (ha : p.timeout < on d (oPoint n) 2) (hs : oflag d (oPoint n) 3 = false) :
    pointStale n d = if nodeStale p d then markStale n p d else raise 0x5A03 p.bus p.node (markStale n p d) := by
  simp only [pointStale, hp, hr, hs, beq_eq_false_iff_ne.2 ht, decide_eq_false (not_le.2 ha), Bool.not_true, Bool.or_false,
    Bool.false_eq_true, if_false]
  rfl

theorem markStale_framed : Framed [.bus] [(oPoint n, 3), (0x3004 + p.bus, 0)] d (markStale n p d) :=
  .put (by decide) (by simp) (.put (by decide) (by simp) (.modFb (by simp) (.refl _ _ _)))

theorem on_markStale_stale : on (markStale n p d) (oPoint n) 3 = 1 := by
  rw [markStale, on_setStatus_other _ _ _ _ _ _ (by simp [okey, oPoint]; omega), on_put_same]

theorem on_markStale_status :
    on (markStale n p d) (0x3004 + p.bus) 0 = setBit (on d (0x3004 + p.bus) 0) 9 := by
  rw [markStale, on_setStatus_same, on_put_other _ _ _ _ _ _ (by simp [okey, oPoint]; omega), on_modFb]

theorem mem_gone_markStale : n ∈ (fbS (markStale n p d) p.bus).gone := by
  rw [markStale, fbS_congr (setStatus_bus _ _ _ _), fbS_congr (put_bus _ _ _ _), fbS_modFb_same]
  simp

theorem nodeStale_eq_false (h : ∀ q ∈ points d, q.2.bus = p.bus → q.2.node = p.node → q.1 ∉ (fbS d p.bus).gone) :
    nodeStale p d = false := by
  simpa [nodeStale] using fun a q hq hb hn => h (a, q) hq hb hn

theorem fbPointStale_completes {s : State} {x : Dev} {P : Dev → Prop} (hn : n < 0x4000) (hx : pointStale n (fresh s) = x)
    (hP : ∀ e, Follows x e → P e) : Completes (.fbPointStale n) s P :=
  act_completes (f := onPart (decide (n < 0x4000)) (pointStale n)) rfl (by simpa [onPart, hn, hx] using hP)

end

end Sys2Proof.Machine

/-! ### The statement -/

namespace Sys2Proof

open Machine

section

variable {s : State} {b : Nat}

/-- A value that a node pushes reaches its point (R383). -/
theorem pushIn_sets_point {node page v n : Nat} {p : PointE} (hb : b < 4) (hr : fbMayRecv s.dev b = true)
    (hn : nodeAddr node = true) (hs : ∀ x ∈ (fbS s.dev b).shadow, x.1 ≠ node)
    (hp : (points s.dev).filter (fun q => q.2.bus == b && q.2.node == node && q.2.isIn && q.2.slot == 15 * page) = [(n, p)]) :
    Completes (.pushIn b node page [v] 0 { held := false, id := some (canId 2 2 0 node) }) s (fun e =>
      on e (oPoint n) 1 = pushedValue p v ∧ on e (oPoint n) 2 = 0 ∧ on e (oPoint n) 3 = 0 ∧
        on e (0x3008 + b) 2 = incSat 32 (on s.dev (0x3008 + b) 2) ∧ (∀ k, n ∉ (fbS e k).gone) ∧
        Framed [.bus] (pointObjs n ++ recvObjs b) s.dev e) := by
  have hd : shadowUp b node (fbRecv b (fresh s)) = fbRecv b (fresh s) :=
    shadowUp_of_no_buffer (by rw [fbS_congr (fbRecv_bus _ _)]; exact hs)
  have hv : pushIn b node page [v] 0 false (some (canId 2 2 0 node)) (fresh s) = setPoint n p v (fbRecv b (fresh s)) := by
    rw [pushIn_now (d := fresh s) hr hn (by simp), hd, pushValues_single (by rw [points_fbRecv b hb]; exact hp)]
  refine pushIn_completes hb hv (fun e he => ?_)
  have hpt := fun sub (h : sub < 256) => he.on_of_not_counted h (counted_oPoint n sub)
  have hset := setPoint_framed n p v (fbRecv b (fresh s))
  refine ⟨?_, ?_, ?_, ?_, ?_, ?_⟩
  · rw [hpt 1 (by decide), on_setPoint_value]
  · rw [hpt 2 (by decide), on_setPoint_age]
  · rw [hpt 3 (by decide), on_setPoint_stale]
  · rw [he.on_of_not_counted (by decide) (counted_of_lt _ (by omega)),
      hset.on_eq (by decide) (counted_of_lt _ (by omega)) (by simp [pointObjs, oPoint]; omega), on_fbRecv_received b hb, on_fresh]
  · intro k
    rw [he.gone]
    exact not_mem_gone_setPoint n p v _ k
  · have hrecv : Framed [.bus] (pointObjs n ++ recvObjs b) (fresh s) (fbRecv b (fresh s)) :=
      (fbRecv_framed b _).mono (by simp) (fun _ => List.mem_append_right _)
    exact .of_fresh ((hrecv.trans (hset.mono (fun _ h => h) (fun _ => List.mem_append_left _))).follow he)

/-- A PUSH_IN that does not match its layout is discarded: it changes no point and counts as received too (R8, R368; log entry 66). -/
theorem pushIn_discards {node page rsv : Nat} {vs : List Nat} {held : Bool} {id : Option Nat} (hb : b < 4)
    (hr : fbMayRecv s.dev b = true)
    (h : id ≠ some (canId 2 2 0 node) ∨ nodeAddr node = false ∨ 15 < vs.length ∨ rsv ≠ 0) :
    Completes (.pushIn b node page vs rsv { held := held, id := id }) s (fun e =>
      on e (0x3008 + b) 7 = incSat 32 (on s.dev (0x3008 + b) 7) ∧ on e (0x3008 + b) 2 = incSat 32 (on s.dev (0x3008 + b) 2) ∧
        Framed [] [(0x3008 + b, 2), (0x3008 + b, 4), (0x3008 + b, 7), (0x3004 + b, 0)] s.dev e) := by
  refine pushIn_completes hb (pushIn_unsound hr h) (fun e he => ?_)
  have hrecv := fbRecv_framed b (fresh s)
  have hdisc := fbDiscard_framed b (fbRecv b (fresh s))
  have hcnt := fun sub => counted_of_lt (num := 0x3008 + b) sub (by omega)
  refine ⟨?_, ?_, .of_fresh (((hrecv.mono (by simp) (by simp [recvObjs])).trans (hdisc.mono (by simp) (by simp))).follow he)⟩
  · rw [he.on_of_not_counted (by decide) (hcnt 7), fbDiscard, on_incr_same,
      hrecv.on_eq (by decide) (hcnt 7) (by simp [recvObjs]), on_fresh]
  · rw [he.on_of_not_counted (by decide) (hcnt 2), hdisc.on_eq (by decide) (hcnt 2) (by simp), on_fbRecv_received b hb, on_fresh]

/-- A PUSH_IN that finds the queue taken is lost (R367). -/
theorem pushIn_overruns {node page : Nat} {vs : List Nat} (hb : b < 4) (hr : fbMayRecv s.dev b = true)
    (hn : nodeAddr node = true) (hl : vs.length ≤ 15) (hs : fbBit s.dev b 5 = false) :
    Completes (.pushIn b node page vs 0 { held := true, id := some (canId 2 2 0 node) }) s (fun e =>
      on e (0x3008 + b) 6 = incSat 32 (on s.dev (0x3008 + b) 6) ∧ fbBit e b 6 = true ∧
        Framed [] [(0x3008 + b, 2), (0x3008 + b, 4), (0x3008 + b, 6), (0x3004 + b, 0)] s.dev e) := by
  refine pushIn_completes hb (pushIn_lost hr hn hl hs) (fun e he => ?_)
  have hrecv := fbRecv_framed b (fresh s)
  have hcnt := counted_of_lt (num := 0x3008 + b) 6 (by omega)
  refine ⟨?_, ?_, .of_fresh (((hrecv.mono (by simp) (by simp [recvObjs])).trans
    ((fbOverrun_framed b _).mono (by simp) (by simp))).follow he)⟩
  · rw [he.on_of_not_counted (by decide) hcnt, on_fbOverrun_lost, hrecv.on_eq (by decide) hcnt (by simp [recvObjs]), on_fresh]
  · rw [fbBit, he.on_of_not_counted (by decide) (counted_of_lt _ (by omega))]
    exact fbBit_fbOverrun b _

/-- In shadow mode a PUSH_IN waits in the shadow buffer of its node (R367). -/
theorem pushIn_waits {node page : Nat} {vs : List Nat} (hb : b < 4) (hr : fbMayRecv s.dev b = true)
    (hn : nodeAddr node = true) (hl : vs.length ≤ 15) (hs : fbBit s.dev b 5 = true) :
    Completes (.pushIn b node page vs 0 { held := true, id := some (canId 2 2 0 node) }) s (fun e =>
      (fbS e b).shadow = (fbS s.dev b).shadow.filter (fun x => !(x.1 == node)) ++ [(node, page, vs)] ∧
        ((fbS s.dev b).shadow.any (fun x => x.1 == node) = true → on e (0x3008 + b) 6 = incSat 32 (on s.dev (0x3008 + b) 6)) ∧
        Framed [.bus] [(0x3008 + b, 2), (0x3008 + b, 4), (0x3008 + b, 6), (0x3004 + b, 0)] s.dev e) := by
  refine pushIn_completes hb (pushIn_shadow hr hn hl hs) (fun e he => ?_)
  have hrecv := fbRecv_framed b (fresh s)
  have hbus : fbS (fbRecv b (fresh s)) b = fbS s.dev b := fbS_congr (fbRecv_bus _ _) b
  have hcnt := counted_of_lt (num := 0x3008 + b) 6 (by omega)
  refine ⟨?_, fun ha => ?_, .of_fresh (((hrecv.mono (by simp) (by simp [recvObjs])).trans
    (intoShadow_framed.mono (by simp) (by simp))).follow he)⟩
  · rw [he.shadow, shadow_intoShadow, hbus]
  · rw [he.on_of_not_counted (by decide) hcnt, on_intoShadow_replaced (by rw [hbus]; exact ha),
      hrecv.on_eq (by decide) hcnt (by simp [recvObjs]), on_fresh]

/-- A point whose AGE exceeds its TIMEOUT goes stale; the event is raised for the first such point of a node (R383). -/
theorem fbPointStale_marks {n : Nat} {p : PointE} (hrun : running s.dev = true) (hn : n < 0x4000)
    (hp : pointAt (ob s.dev 0x3014 0) n = some p) (hpb : p.bus < 4) (ht : p.timeout ≠ 0)
    (ha : p.timeout < on s.dev (oPoint n) 2) (hs : oflag s.dev (oPoint n) 3 = false) :
    Completes (.fbPointStale n) s (fun e =>
      on e (oPoint n) 3 = 1 ∧ on e (0x3004 + p.bus) 0 = setBit (on s.dev (0x3004 + p.bus) 0) 9 ∧ n ∈ (fbS e p.bus).gone ∧
        ((∀ q ∈ points s.dev, q.2.bus = p.bus → q.2.node = p.node → q.1 ∉ (fbS s.dev p.bus).gone) →
          raised e 0x5A03 p.bus = true) ∧
        Framed [.bus] [(oPoint n, 3), (0x3004 + p.bus, 0)] s.dev e) := by
  refine fbPointStale_completes hn (pointStale_old hp hrun ht ha hs) (fun e he => ?_)
  have hm : Follows (markStale n p (fresh s)) e := by
    split at he
    · exact he
    · exact (raise_follows _ _ _ _).trans he
  refine ⟨?_, ?_, ?_, fun hq => ?_, .of_fresh (markStale_framed.follow hm)⟩
  · rw [hm.on_of_not_counted (by decide) (counted_oPoint n 3), on_markStale_stale]
  · rw [hm.on_of_not_counted (by decide) (counted_of_lt _ (by omega)), on_markStale_status, on_fresh]
  · rw [hm.gone]
    exact mem_gone_markStale
  · rw [nodeStale_eq_false (d := fresh s) hq] at he
    exact he.raised _ _ _ (raised_raise _ _ _ _)

end

/-- Settles O38: one lemma for each way of a PUSH_IN frame, and one for a point that is too old. -/
theorem fieldBusPoints : Obligations.FieldBusPoints := by
  intro s b hrun hb
  refine ⟨fun node page v n p hr h1 h2 _ hs hp => ?_, fun _ _ _ _ _ _ hr h => pushIn_discards hb hr h,
    fun _ _ _ hr hn hl => ⟨pushIn_overruns hb hr hn hl, pushIn_waits hb hr hn hl⟩, fun n p hn hp _ hpb ht ha hs => ?_⟩
  · exact pushIn_sets_point hb hr (by simp [nodeAddr, h1, h2]) hs hp
  · subst hpb
    exact fbPointStale_marks hrun hn hp hb ht ha hs

end Sys2Proof

/-! The frame counters (R30 to R32): micro-frames in a minor frame, and what one boundary does to the counters. -/

namespace Sys2Proof

open Machine

theorem microsOf_pos (code minor : Nat) : 0 < microsOf code minor := by
  unfold microsOf minMicros
  split
  · omega
  · split <;> decide

/-- At every length but 16 µs a minor frame is 1 ms (R30). -/
theorem microsOf_mul_microNs {code : Nat} (h1 : 1 ≤ code) (h7 : code ≤ 7) (h3 : code ≠ 3) (minor : Nat) :
    microsOf code minor * microNs code = 1000000 := by
  rw [microsOf, if_neg h3]
  interval_cases code <;> simp_all [microNs, minMicros]

/-- At 16 µs the minor frames have 62 and 63 micro-frames in turn (R30). -/
theorem microsOf_three_pair (minor : Nat) : microsOf 3 minor + microsOf 3 (minor + 1) = 125 := by
  simp only [microsOf, if_true]
  omega

/-- The micro-frames of a major frame are those of its 100 minor frames (R30, R31). -/
theorem majorMicros_eq_sum {code : Nat} (h1 : 1 ≤ code) (h7 : code ≤ 7) (major : Nat) :
    majorMicros code = ((List.range 100).map (fun j => microsOf code (100 * major + j))).foldl (· + ·) 0 := by
  have h : ∀ j, microsOf code (100 * major + j) = microsOf code j := fun j => by
    unfold microsOf
    rw [show (100 * major + j) % 2 = j % 2 by omega]
  simp only [h]
  interval_cases code <;> decide

/-! ### One boundary -/

section

variable {t : TimeS}

theorem nextTime_first (h : t.begun = false) :
    nextTime t = { t with sampled := false, launched := false, begun := true, lastLevel := 5, refDue := true } := by
  simp [nextTime, h]

theorem nextTime_inner (hb : t.begun = true) (h : t.m + 1 < microsOf t.code t.minor) :
    nextTime t = { t with sampled := false, launched := false, refDue := false, micro := t.micro + 1, m := t.m + 1, lastLevel := 1 } := by
  simp [nextTime, hb, h]

theorem nextTime_minor (hb : t.begun = true) (h : ¬ t.m + 1 < microsOf t.code t.minor) (hk : t.k + 1 < 100) :
    nextTime t = { t with sampled := false, launched := false, refDue := true, micro := t.micro + 1, m := 0, minor := t.minor + 1,
                          k := t.k + 1, lastLevel := 2 } := by
  simp [nextTime, hb, h, hk]

theorem nextTime_major (hb : t.begun = true) (h : ¬ t.m + 1 < microsOf t.code t.minor) (hk : ¬ t.k + 1 < 100) :
    nextTime t = { t with
      sampled := false, launched := false, refDue := true, micro := t.micro + 1, m := 0, minor := t.minor + 1, k := 0
      major := t.major + 1
      tick := if (t.major + 1) % 10 = 0 then t.tick + 1 else t.tick
      lastLevel := if (t.major + 1) % 10 = 0 then 5 else 4 } := by
  simp only [nextTime, hb, h, hk, Bool.not_true, Bool.false_eq_true, if_false]
  split <;> rfl

/-- Each boundary ends a micro-frame; the last of a minor frame ends that, the last of 100 minor frames the major frame, every tenth
major frame a billing tick. -/
theorem nextTime_counts (hb : t.begun = true) (hm : t.m < microsOf t.code t.minor) (hk : t.k < 100) :
    let n := nextTime t
    let last := t.m + 1 = microsOf t.code t.minor
    n.micro = t.micro + 1 ∧ n.minor = (if last then t.minor + 1 else t.minor) ∧
      n.m = (if last then 0 else t.m + 1) ∧ n.m < microsOf n.code n.minor ∧ n.k < 100 ∧ n.code = t.code ∧
      n.major = (if last ∧ t.k = 99 then t.major + 1 else t.major) ∧
      n.tick = (if last ∧ t.k = 99 ∧ (t.major + 1) % 10 = 0 then t.tick + 1 else t.tick) := by
  intro n last
  by_cases hi : t.m + 1 < microsOf t.code t.minor
  · have hl : ¬ last := by omega
    have hn : n = _ := nextTime_inner hb hi
    simp [hn, hl, hi, hk]
  · have hl : last := by omega
    have hp := microsOf_pos t.code (t.minor + 1)
    by_cases hk' : t.k + 1 < 100
    · have h99 : t.k ≠ 99 := by omega
      have hn : n = _ := nextTime_minor hb hi hk'
      simp [hn, hl, hp, h99, hk']
    · have h99 : t.k = 99 := by omega
      have hn : n = _ := nextTime_major hb hi hk'
      simp [hn, hl, hp, h99]

end

/-- Settles O6: the counters by `nextTime_counts`, the lengths by what `microsOf` gives at each code. -/
theorem framesNest : Obligations.FramesNest := by
  intro t d hm hk
  refine ⟨fun hb => ?_, fun hb => nextTime_counts hb hm hk, fun h1 h7 h3 => microsOf_mul_microNs h1 h7 h3 _, rfl, rfl,
    microsOf_three_pair _, ?_, fun h1 h7 => majorMicros_eq_sum h1 h7 _, ?_⟩
  · rw [nextTime_first hb]
    exact ⟨rfl, rfl, rfl, rfl⟩
  · rw [microsOf_three_pair]; rfl
  · simp [minorNs, tNs]

end Sys2Proof

/-! Frames of updates that write one component of the device, and the fail-silent condition (R84, R459). -/

namespace Sys2Proof

open Machine

section

variable {ps : List Part} {ks : List (Nat × Nat)} {d e : Dev}

/-- An update that leaves every object alone and writes only fields of the parts named. -/
theorem Framed.fields (h : Framed ps ks d e) {f : Dev} (hp : OnlyParts ps e f) (ho : f.os = e.os) : Framed ps ks d f :=
  h.trans (.of_os hp ho)

theorem Framed.time (hp : .time ∈ ps) (h : Framed ps ks d e) (t : TimeS) : Framed ps ks d { e with time := t } :=
  h.fields (fun p hq => by cases p <;> first | exact absurd hp hq | rfl | exact fun _ => rfl) rfl

theorem Framed.sched (hp : .sched ∈ ps) (h : Framed ps ks d e) (x : SchedS) : Framed ps ks d { e with sched := x } :=
  h.fields (fun p hq => by cases p <;> first | exact absurd hp hq | rfl | exact fun _ => rfl) rfl

theorem Framed.lanes (hp : .lanes ∈ ps) (h : Framed ps ks d e) (x : LanesS) : Framed ps ks d { e with lanes := x } :=
  h.fields (fun p hq => by cases p <;> first | exact absurd hp hq | rfl | exact fun _ => rfl) rfl

theorem Framed.stg (hp : .stg ∈ ps) (h : Framed ps ks d e) (x : List StgS) : Framed ps ks d { e with stg := x } :=
  h.fields (fun p hq => by cases p <;> first | exact absurd hp hq | rfl | exact fun _ => rfl) rfl

theorem Framed.phase (hp : .phase ∈ ps) (h : Framed ps ks d e) (x : Phase) : Framed ps ks d { e with phase := x } :=
  h.fields (fun p hq => by cases p <;> first | exact absurd hp hq | rfl | exact fun _ => rfl) rfl

theorem Framed.pair (hp : .pair ∈ ps) (h : Framed ps ks d e) (x : PairS) : Framed ps ks d { e with pair := x } :=
  h.fields (fun p hq => by cases p <;> first | exact absurd hp hq | rfl | exact fun _ => rfl) rfl

theorem Framed.startup (hp : .startup ∈ ps) (h : Framed ps ks d e) (x : StartS) : Framed ps ks d { e with startup := x } :=
  h.fields (fun p hq => by cases p <;> first | exact absurd hp hq | rfl | exact fun _ => rfl) rfl

theorem Framed.emit (h : Framed ps ks d e) (t : Tx) : Framed ps ks d (emit t e) := h.follow (emit_follows t e)

theorem Framed.forEach {α : Type} {l : List α} {f : α → Dev → Dev} (hf : ∀ a ∈ l, ∀ x, Framed ps ks x (f a x))
    (h : Framed ps ks d e) : Framed ps ks d (forEach l f e) := by
  induction l generalizing e with
  | nil => exact h
  | cons a l ih => exact ih (fun b hb => hf b (List.mem_cons_of_mem _ hb)) (h.trans (hf a List.mem_cons_self e))

end

theorem Completes.mono {c : Instr} {s : State} {P Q : Dev → Prop} (h : Completes c s P) (k : ∀ e, P e → Q e) : Completes c s Q := by
  obtain ⟨t, h1, h2, h3, h4⟩ := h
  exact ⟨t, h1, h2, h3, k _ h4⟩

/-- What holds of a command's next state holds of the device that the model evaluates it to. -/
theorem Completes.of_exec {c : Instr} {s : State} {P : Dev → Prop} {e : Dev} (h : Completes c s P)
    (he : exec c s = .next { s with dev := e }) : P e := by
  obtain ⟨t, ht, _, _, hP⟩ := h
  rw [he, Host.Outcome.next.injEq] at ht
  rw [← ht] at hP
  exact hP

theorem running_iff {d : Dev} : running d = true ↔ d.phase = .running := by simp [running]

/-! ### Fail-silent -/

theorem failSilent_running {d : Dev} (h : running d = true) (cause : Nat) :
    failSilent cause d = stopOutputs 4 (put 0x1C8 0 cause d) := if_pos (running_iff.1 h)

theorem stopOutputs_framed (start : Nat) (d : Dev) : Framed [.phase, .pair, .startup] [] d (stopOutputs start d) :=
  ⟨fun p hp => by cases p <;> first | rfl | exact fun _ => rfl | exact absurd (by simp) hp, .of_cur rfl, rfl⟩

/-- What follows a fail-silent device shows its cause, the cause of the next start, and HB_OUT low (R84, R459, R496). -/
theorem failSilent_follows {d e : Dev} {cause : Nat} (hr : running d = true)
    (h : Follows (failSilent cause d) e) :
    e.phase = .failSilent ∧ on e 0x1C8 0 = cause ∧ e.startup.nextCause = 4 ∧ .heartbeatLow ∈ e.sent ∧
      Framed [.phase, .pair, .startup] [(0x1C8, 0)] d e := by
  rw [failSilent_running hr] at h
  have hs : e.startup = _ := h.part .startup
  refine ⟨h.part .phase, ?_, by rw [hs]; rfl, h.sent _ List.mem_cons_self, ?_⟩
  · rw [h.on _ _ (by decide) (by decide)]
    exact on_put_same _ _ _ _
  · have hp : Framed [.phase, .pair, .startup] [(0x1C8, 0)] d (put 0x1C8 0 cause d) := .put (by decide) (by simp) (.refl _ _ _)
    exact (hp.trans ((stopOutputs_framed 4 _).mono (by simp) (by simp))).follow h

end Sys2Proof

/-! The references of the time keeper (R27). -/

namespace Sys2Proof

open Machine

/-- REFCLK is lost: the time keeper follows the lane reference (R27). -/
theorem refLoss_switches {s : State} (hr : running s.dev = true) (hk : (on s.dev 0x185 0).testBit 0 = true) :
    Completes .refLoss s (fun e =>
      raised e 0x1401 noInst = true ∧ e.time = { s.dev.time with src := .laneRef } ∧
        on e 0x185 0 = setBit (clearBit (on s.dev 0x185 0) 0) 2 ∧ Framed [.time] [(0x185, 0)] s.dev e) := by
  have hx : refLost (fresh s) = raise 0x1401 noInst 0 (setStatus 0x185 0 2 (clrStatus 0x185 0 0
      { fresh s with time := { s.dev.time with src := .laneRef } })) := by
    have hc : (running (fresh s) && (on (fresh s) 0x185 0).testBit 0) = true := by
      rw [running_fresh, on_fresh, hr, hk]; rfl
    exact if_pos hc
  refine act_completes (f := refLost) rfl (fun e he => ?_)
  rw [hx] at he
  refine ⟨he.raised _ _ _ (raised_raise _ _ _ _), he.part .time, ?_, .of_fresh (Framed.follow (.raise ?_) he)⟩
  · rw [he.on _ _ (by decide) (by decide), on_raise, on_setStatus_same, on_clrStatus_same]
    rfl
  · exact .put (by decide) (by simp) (.put (by decide) (by simp) (.time (by simp) (.refl _ _ _) _))

/-- With the lane reference lost as well the unit is fail-silent (R27, R459). -/
theorem laneReferenceLoss_silences {s : State} (hr : running s.dev = true) (hl : s.dev.time.src = .laneRef) :
    Completes .laneReferenceLoss s (fun e =>
      e.phase = .failSilent ∧ on e 0x1C8 0 = 3 ∧ e.startup.nextCause = 4 ∧ .heartbeatLow ∈ e.sent ∧
        e.time = { s.dev.time with src := .none } ∧ Framed [.phase, .time, .pair, .startup] [(0x1C8, 0)] s.dev e) := by
  have hx : laneRefLost (fresh s) = failSilent 3 { fresh s with time := { s.dev.time with src := .none } } := by
    have hc : (running (fresh s) && (fresh s).time.src == .laneRef) = true := by
      rw [running_fresh, hr, show (fresh s).time.src = .laneRef from hl]; rfl
    exact if_pos hc
  refine act_completes (f := laneRefLost) rfl (fun e he => ?_)
  rw [hx] at he
  obtain ⟨hp, hc, hn, hb, hf⟩ := failSilent_follows (by exact hr) he
  have ht : Framed [.phase, .time, .pair, .startup] [(0x1C8, 0)] (fresh s) { fresh s with time := { s.dev.time with src := .none } } :=
    .time (by simp) (.refl _ _ _) _
  exact ⟨hp, hc, hn, hb, hf.1 .time (by simp), .of_fresh (ht.trans (hf.mono (by simp) (by simp)))⟩

/-- Settles O9: the two losses one after the other. -/
theorem referencesLost : Obligations.ReferencesLost :=
  fun _ hr => ⟨refLoss_switches hr, laneReferenceLoss_silences hr⟩

end Sys2Proof

/-! Overruns of a cell's slots (R43, R68, R69). -/

namespace Sys2Proof

open Machine

/-- Slots that are stopped together. -/
theorem forEach_slotHold (l : List Nat) (d : Dev) :
    forEach l slotHold d = { d with sched := { d.sched with stopped := l.reverse ++ d.sched.stopped } } := by
  induction l generalizing d with
  | nil => rfl
  | cons i l ih =>
    refine (ih (slotHold i d)).trans ?_
    simp [slotHold]

theorem slotHold_framed (i : Nat) (ks : List (Nat × Nat)) (d : Dev) : Framed [.sched] ks d (slotHold i d) :=
  .sched (by simp) (.refl _ _ _) _

/-! ### The books of an overrun -/

section

variable (cell sect i : Nat) (d : Dev)

/-- The objects that book an overrun (R68, R72). -/
def overrunObjs : List (Nat × Nat) := [(0x1A0, 0), (0x1AB, cell + 1), (0x1AC, 1), (0x1AC, 2), (0x1AC, 3)]

theorem overrunBooks_sched : (overrunBooks cell sect i d).sched = { d.sched with
    overrun := d.sched.overrun ++ [(cell, sect)]
    overRaised := if d.sched.overRaised.contains cell then d.sched.overRaised else cell :: d.sched.overRaised } := by
  unfold overrunBooks
  dsimp only
  split <;> simp_all

theorem raised_overrunBooks (h : cell ∉ d.sched.overRaised) : raised (overrunBooks cell sect i d) 0x1C01 cell = true := by
  have hc : d.sched.overRaised.contains cell = false := by simpa using h
  unfold overrunBooks
  dsimp only
  split
  case isTrue hm => exact absurd (hc.symm.trans hm) (by decide)
  case isFalse => exact raised_raise _ _ _ _

theorem overrunBooks_framed (hc : cell < 64) : Framed [.sched] (overrunObjs cell) d (overrunBooks cell sect i d) := by
  have h1 : Framed [.sched] (overrunObjs cell) d (setStatus 0x1A0 0 2 (incr 32 0x1AB (cell + 1) d)) :=
    .put (by decide) (by simp [overrunObjs]) (.put (by omega) (by simp [overrunObjs]) (.refl _ _ _))
  have h2 := (((h1.put (num := 0x1AC) (sub := 1) (n := i) (by decide) (by simp [overrunObjs])).put (num := 0x1AC) (sub := 2) (n := sect)
    (by decide) (by simp [overrunObjs])).put (num := 0x1AC) (sub := 3) (n := d.time.micro) (by decide) (by simp [overrunObjs]))
  have h3 := h2.sched (by simp) { d.sched with overrun := d.sched.overrun ++ [(cell, sect)] }
  unfold overrunBooks
  exact .ite h3 (.raise (h3.sched (by simp) _))

theorem on_overrunBooks (num sub : Nat) : on (overrunBooks cell sect i d) num sub =
    on (put 0x1AC 3 d.time.micro (put 0x1AC 2 sect (put 0x1AC 1 i (setStatus 0x1A0 0 2 (incr 32 0x1AB (cell + 1) d))))) num sub := by
  unfold overrunBooks
  dsimp only
  split <;> rfl

theorem on_overrunBooks_count (hc : cell < 64) :
    on (overrunBooks cell sect i d) 0x1AB (cell + 1) = incSat 32 (on d 0x1AB (cell + 1)) := by
  rw [on_overrunBooks, on_put_other _ _ _ _ _ _ (by simp [okey]; omega), on_put_other _ _ _ _ _ _ (by simp [okey]; omega),
    on_put_other _ _ _ _ _ _ (by simp [okey]; omega), on_setStatus_other _ _ _ _ _ _ (by simp [okey]; omega), on_incr_same]

theorem on_overrunBooks_slot : on (overrunBooks cell sect i d) 0x1AC 1 = i := by
  rw [on_overrunBooks, on_put_other _ _ _ _ _ _ (by decide), on_put_other _ _ _ _ _ _ (by decide), on_put_same]

theorem on_overrunBooks_sect : on (overrunBooks cell sect i d) 0x1AC 2 = sect := by
  rw [on_overrunBooks, on_put_other _ _ _ _ _ _ (by decide), on_put_same]

theorem on_overrunBooks_status (hc : cell < 64) : on (overrunBooks cell sect i d) 0x1A0 0 = setBit (on d 0x1A0 0) 2 := by
  rw [on_overrunBooks, on_put_other _ _ _ _ _ _ (by decide), on_put_other _ _ _ _ _ _ (by decide),
    on_put_other _ _ _ _ _ _ (by decide), on_setStatus_same, on_incr_other _ _ _ _ _ _ (by simp [okey]; omega)]

end

/-! ### A discarded solve -/

section

variable (cell : Nat) (first : Bool) (d : Dev)

/-- A solve that is discarded stays so (R68, R226). -/
theorem allocDiscard_sched :
    (allocDiscard cell first d).sched = { d.sched with alloc := { d.sched.alloc with discard := true } } := by
  unfold allocDiscard
  split
  case isTrue h =>
    have hd : d.sched.alloc.discard = true := by simp_all
    rw [← hd]
  case isFalse => rfl

theorem allocDiscard_framed : Framed [.sched] [(0x1012, 0)] d (allocDiscard cell first d) :=
  .ite (.refl _ _ _) (.raise (.put (by decide) (by simp) (.sched (by simp) (.refl _ _ _) _)))

theorem raised_allocDiscard_mono {c j : Nat} (h : raised d c j = true) : raised (allocDiscard cell first d) c j = true := by
  unfold allocDiscard
  split
  · exact h
  · exact raised_raise_mono _ _ _ _ _ _ _ h

end

/-! ### The deadline -/

/-- What an overrun does to the device: its books, the stopped slots, and the solve that an ALLOC slot among them gives up. -/
def overrunEffect (im : Image) (cell sect i : Nat) (rest : List Nat) (d : Dev) : Dev :=
  let al := ((i :: rest).map (fun j => im.slots.getD j default)).filter (fun sl => sl.kernel == 0x50)
  let d := forEach (i :: rest) slotHold (overrunBooks cell sect i d)
  if al = [] then d else allocDiscard cell (al.any (fun sl => sl.variant == 0)) d

theorem slotOverrun_late {d : Dev} {im : Image} {cell sect i : Nat} {rest : List Nat} (hr : running d = true) (him : img? d = some im)
    (hl : lateSlots d im cell sect = i :: rest) (hs : d.time.sampled = true) (h2 : sect = 1 ∨ sect = 2) :
    slotOverrun cell sect d = overrunEffect im cell sect i rest d := by
  have hc : (running d && d.time.sampled && (sect == 1 || sect == 2)) = true := by
    rw [hr, hs]; rcases h2 with rfl | rfl <;> rfl
  unfold slotOverrun
  rw [him]
  dsimp only
  rw [hl]
  dsimp only
  rw [hc]
  rfl

section

variable (im : Image) (cell sect i : Nat) (rest : List Nat) (d : Dev)

theorem overrunEffect_eq : overrunEffect im cell sect i rest d = forEach (i :: rest) slotHold (overrunBooks cell sect i d) ∨
    ∃ first, overrunEffect im cell sect i rest d = allocDiscard cell first (forEach (i :: rest) slotHold (overrunBooks cell sect i d)) := by
  unfold overrunEffect
  dsimp only
  split
  · exact .inl rfl
  · exact .inr ⟨_, rfl⟩

/-- The slots are stopped and nothing of the schedule but its books and the solve changes. -/
theorem overrunEffect_sched : ∃ al, (overrunEffect im cell sect i rest d).sched = { d.sched with
    stopped := (i :: rest).reverse ++ d.sched.stopped
    overrun := d.sched.overrun ++ [(cell, sect)]
    overRaised := if d.sched.overRaised.contains cell then d.sched.overRaised else cell :: d.sched.overRaised
    alloc := al } := by
  rcases overrunEffect_eq im cell sect i rest d with h | ⟨first, h⟩
  · exact ⟨d.sched.alloc, by rw [h, forEach_slotHold]; simp [overrunBooks_sched]⟩
  · exact ⟨{ d.sched.alloc with discard := true }, by rw [h, allocDiscard_sched, forEach_slotHold]; simp [overrunBooks_sched]⟩

theorem overrunEffect_discards (h : (i :: rest).any (fun j => (im.slots.getD j default).kernel == 0x50) = true) :
    (overrunEffect im cell sect i rest d).sched.alloc.discard = true := by
  have hne : ((i :: rest).map (fun j => im.slots.getD j default)).filter (fun sl => sl.kernel == 0x50) ≠ [] := by
    obtain ⟨j, hj, hk⟩ := List.any_eq_true.1 h
    exact List.ne_nil_of_mem (List.mem_filter.2 ⟨List.mem_map_of_mem hj, hk⟩)
  unfold overrunEffect
  rw [if_neg hne, allocDiscard_sched]

theorem overrunEffect_framed :
    Framed [.sched] (overrunObjs cell ++ [(0x1012, 0)]) (overrunBooks cell sect i d) (overrunEffect im cell sect i rest d) := by
  have h1 : Framed [.sched] (overrunObjs cell ++ [(0x1012, 0)]) (overrunBooks cell sect i d)
      (forEach (i :: rest) slotHold (overrunBooks cell sect i d)) :=
    .forEach (fun j _ x => slotHold_framed j _ x) (.refl _ _ _)
  rcases overrunEffect_eq im cell sect i rest d with h | ⟨first, h⟩
  · rw [h]; exact h1
  · rw [h]; exact h1.trans ((allocDiscard_framed _ _ _).mono (by simp) (by simp))

theorem on_overrunEffect {num sub : Nat} (h : okey 0x1012 0 ≠ okey num sub) :
    on (overrunEffect im cell sect i rest d) num sub = on (overrunBooks cell sect i d) num sub := by
  rcases overrunEffect_eq im cell sect i rest d with he | ⟨first, he⟩
  · rw [he, forEach_slotHold]; rfl
  · rw [he, forEach_slotHold]
    unfold allocDiscard
    split
    · rfl
    · rw [on_raise, on_setStatus_other _ _ _ _ _ _ h]; rfl

theorem raised_overrunEffect (h : cell ∉ d.sched.overRaised) : raised (overrunEffect im cell sect i rest d) 0x1C01 cell = true := by
  have hb : raised (forEach (i :: rest) slotHold (overrunBooks cell sect i d)) 0x1C01 cell = true := by
    rw [forEach_slotHold]
    exact raised_overrunBooks cell sect i d h
  rcases overrunEffect_eq im cell sect i rest d with he | ⟨first, he⟩
  · rw [he]; exact hb
  · rw [he]; exact raised_allocDiscard_mono _ _ _ hb

end

/-- R43, R68: the slots that a deadline finds open are stopped and booked. -/
theorem slotOverrun_books {s : State} {c sect i : Nat} {rest : List Nat} {im : Image} (hr : running s.dev = true) (hc : c < 64)
    (him : img? s.dev = some im) (hl : lateSlots s.dev im c sect = i :: rest) (hs : s.dev.time.sampled = true)
    (h2 : sect = 1 ∨ sect = 2) : Completes (.slotOverrun c sect) s (fun e =>
      (∀ j, j ∈ i :: rest → j ∈ e.sched.stopped) ∧ (c, sect) ∈ e.sched.overrun ∧ c ∈ e.sched.overRaised ∧
        (c ∉ s.dev.sched.overRaised → raised e 0x1C01 c = true) ∧
        ((i :: rest).any (fun j => (im.slots.getD j default).kernel == 0x50) = true → e.sched.alloc.discard = true) ∧
        e.sched.kst = s.dev.sched.kst ∧ e.sched.outs = s.dev.sched.outs ∧
        on e 0x1AB (c + 1) = incSat 32 (on s.dev 0x1AB (c + 1)) ∧ on e 0x1AC 1 = i ∧ on e 0x1AC 2 = sect ∧
        on e 0x1A0 0 = setBit (on s.dev 0x1A0 0) 2 ∧
        Framed [.sched] [(0x1A0, 0), (0x1AB, c + 1), (0x1AC, 1), (0x1AC, 2), (0x1AC, 3), (0x1012, 0)] s.dev e) := by
  have hx : onPart (decide (c < 64)) (ifRun (slotOverrun c sect)) (fresh s) = overrunEffect im c sect i rest (fresh s) := by
    rw [onPart, if_pos (by simpa using hc), ifRun, if_pos (by rw [running_fresh, hr])]
    exact slotOverrun_late (d := fresh s) hr him hl hs h2
  refine act_completes (f := onPart (decide (c < 64)) (ifRun (slotOverrun c sect))) rfl (fun e he => ?_)
  rw [hx] at he
  obtain ⟨al, hsch⟩ := overrunEffect_sched im c sect i rest (fresh s)
  have hes : e.sched = _ := (he.part .sched).trans hsch
  have hon : ∀ num sub, sub < 256 → moves num sub = false → okey 0x1012 0 ≠ okey num sub →
      on e num sub = on (overrunBooks c sect i (fresh s)) num sub := fun num sub h1 h2 h3 => by
    rw [he.on _ _ h1 h2, on_overrunEffect _ _ _ _ _ _ h3]
  refine ⟨?_, ?_, ?_, ?_, ?_, ?_, ?_, ?_, ?_, ?_, ?_, ?_⟩
  · intro j hj
    rw [hes]
    exact List.mem_append_left _ (List.mem_reverse.2 hj)
  · rw [hes]
    exact List.mem_append_right _ (by simp)
  · rw [hes]
    dsimp only
    split
    · simp_all
    · exact List.mem_cons_self
  · exact fun hn => he.raised _ _ _ (raised_overrunEffect im c sect i rest (fresh s) hn)
  · intro ha
    rw [he.part .sched]
    exact overrunEffect_discards im c sect i rest (fresh s) ha
  · rw [hes]; rfl
  · rw [hes]; rfl
  · rw [hon _ _ (by omega) (moves_counted (counted_of_lt _ (by decide))) (by simp [okey]; omega), on_overrunBooks_count _ _ _ _ hc]
    rfl
  · rw [hon _ _ (by decide) (by decide) (by decide), on_overrunBooks_slot]
  · rw [hon _ _ (by decide) (by decide) (by decide), on_overrunBooks_sect]
  · rw [hon _ _ (by decide) (by decide) (by decide), on_overrunBooks_status _ _ _ _ hc]
    rfl
  · have h1 := (overrunBooks_framed c sect i (fresh s) hc).mono (fun _ h => h) (fun _ h => List.mem_append_left [(0x1012, 0)] h)
    exact .of_fresh ((h1.trans (overrunEffect_framed im c sect i rest (fresh s))).follow he)

/-- R69: the third overrun of the launch section in a row makes the unit fail-silent. -/
theorem launchOverrunLimit_silences {s : State} {c : Nat} (hr : running s.dev = true) (hc : c < 64)
    (h3 : 3 ≤ (alGet s.dev.sched.launchRun c).getD 0) : Completes (.launchOverrunLimit c) s (fun e =>
      e.phase = .failSilent ∧ on e 0x1C8 0 = 2 ∧ e.startup.nextCause = 4 ∧ .heartbeatLow ∈ e.sent ∧
        Framed [.phase, .pair, .startup] [(0x1C8, 0)] s.dev e) := by
  have hx : onPart (decide (c < 64)) (ifRun (launchOverrunLimit c)) (fresh s) = failSilent 2 (fresh s) := by
    rw [onPart, if_pos (by simpa using hc), ifRun, if_pos (by rw [running_fresh, hr])]
    exact if_pos h3
  refine act_completes (f := onPart (decide (c < 64)) (ifRun (launchOverrunLimit c))) rfl (fun e he => ?_)
  rw [hx] at he
  obtain ⟨hp, hk, hn, hb, hf⟩ := failSilent_follows (by exact hr) he
  exact ⟨hp, hk, hn, hb, .of_fresh hf⟩

/-- Settles O11: the deadline of a section, and the limit of overruns in a row. -/
theorem overrunsStopSlots : Obligations.OverrunsStopSlots := fun _ _ hr hc =>
  ⟨fun _ _ _ _ him hl hs h2 => slotOverrun_books hr hc him hl hs h2, launchOverrunLimit_silences hr hc⟩

end Sys2Proof

/-! A counterexample to O10: a slot that reads SYS.GUARD_LAST itself. The snapshot word of that input and the word at its source both
fail, so the object is restored and marked stale (R80, R86); the books of that very error then write SYS.GUARD_LAST.01, which is a
rewrite of the restored object and takes its stale mark away (R86). The statement wants the mark to be there after the run. -/

namespace Sys2Proof

open Machine

namespace StaleMark

/-- A MINSEL slot of one candidate, due in every micro-frame. -/
def slot : SlotR :=
  { kernel := 0x10, rate := 0, variant := 0, microOfs := 0, minorOfs := 0, rsv7 := 0, p1 := 1, p2 := 0, declared := 100, ins := 1,
    outs := 0, firstBind := 0, state := 0, slotId := 0, rsv1C := 0 }

/-- Its input is SYS.GUARD_LAST.01. -/
def image : Image :=
  { micro := 4, flags := 0, cells := 1, sequence := 1, siteId := 0, lanes := [], stages := [], disps := [], dir := [],
    slots := [slot], binds := [{ kind := 1, ty := 2, attr := 0, sub := 1, target := 0x1C6 }], digest := [], ofsSlots := 0, ofsBinds := 0 }

/-- A running device with that image in force, in its first micro-frame. -/
def start : State :=
  { State.reset with dev := { State.reset.dev with phase := .running, time := { begun := true }, sched := { image := some image } } }

/-- A word of which one bit has flipped since its code was made. -/
def flipped : WordRead := { data := 1, addr := 0, code := wordCode 0 0 }

/-- The first run meets the word in the snapshot and at its source; the second is clean. -/
def report : SlotReport := { seen := .snapshot 0 flipped flipped }

def command : Instr := .minselKernel 0 report

def run : SlotRun := ⟨0x10, none, 0, report, kMinsel⟩

theorem due : RunDue start.dev run image slot := by
  unfold RunDue
  refine ⟨rfl, rfl, rfl, rfl, fun _ h => ?_, rfl, rfl, rfl, ?_, ?_, ?_⟩
  · cases h
  all_goals exact List.not_mem_nil

theorem flipped_fails : wordCode flipped.data flipped.addr ≠ flipped.code := by decide +kernel

/-- The device after the run. -/
def after : Dev := settle (runSlot 0x10 fieldStandin kMinsel 0 report (fresh start))

theorem exec_command : exec command start = .next { start with dev := after } := rfl

/-- The restored object carries no stale mark after the run. -/
theorem not_stale_after : okey (bindObj (bindAt image slot 0)) (bindAt image slot 0).sub ∉ after.os.stale := by decide +kernel

end StaleMark

/-- Refutes O10: an object that its own error's books rewrite is not stale after the run (`StaleMark.not_stale_after`). -/
theorem not_slotRunsCommit : ¬ Obligations.SlotRunsCommit := by
  intro h
  have hclauses := (h StaleMark.command StaleMark.run StaleMark.start rfl).1 _ _ StaleMark.due (by decide)
  obtain ⟨_, _, _, _, _, hsnap, _⟩ := hclauses.2 (by decide)
  have hrun := hsnap 0 StaleMark.flipped StaleMark.flipped rfl (by decide +kernel) rfl rfl
  obtain ⟨_, _, _, hbad⟩ := hrun.of_exec StaleMark.exec_command
  obtain ⟨_, hobj⟩ := hbad StaleMark.flipped_fails
  obtain ⟨_, _, hstale⟩ := hobj rfl
  exact StaleMark.not_stale_after hstale

end Sys2Proof

/-! A counterexample to O59: ring 13 has been stopped (R431). A piece of an update package goes by way of that ring (R420), so the
accepted write posts it and it waits there; it is not among the pieces received when the command is done. The statement wants every
accepted piece stored at once. -/

namespace Sys2Proof

open Machine

namespace StoppedRing

/-- A single unit that runs, its store mounted, a delivery of one byte begun, ring 13 stopped. -/
def start : State :=
  { State.reset with dev := put 0x320D 7 1 (put 0x3300 0 1 { State.reset.dev with
      phase := .running
      pair := { State.reset.dev.pair with role := .single }
      update := { State.reset.dev.update with isOpen := true, size := 1, piece := 1024 } }) }

/-- The piece: its index, the CRC of its data, the data (R515). -/
def piece : Bytes := natLe 4 0 ++ natLe 4 (crc32 [7]) ++ [7]

/-- The write of the piece is admitted. -/
theorem admitted : (writeCheck start.dev 1 0x702 0 piece).1 = 0 := by decide +kernel

/-- The device after the write. -/
def after : Dev := settle (directWrite 1 0x702 0 piece (fresh start))

theorem exec_write_piece : exec (.updPieceWrite 1 piece) start = .next { start with dev := after } := rfl

/-- The piece is not among those received. -/
theorem not_received : alGet after.update.got (fieldLe piece 0 4) = none := by decide +kernel

end StoppedRing

/-- Refutes O59: a piece that is accepted while ring 13 is stopped waits in the ring (`StoppedRing.not_received`). -/
theorem not_writesActAtOnce : ¬ Obligations.WritesActAtOnce := by
  intro h
  obtain ⟨_, _, _, _, _, _, _, _, _, _, _, _, _, _, hpiece, _⟩ := h StoppedRing.start 1 (by decide +kernel)
  have hrun := hpiece StoppedRing.piece ⟨by decide +kernel, StoppedRing.admitted⟩
  have hgot := (hrun.of_exec StoppedRing.exec_write_piece).1
  rw [StoppedRing.not_received] at hgot
  cases hgot

end Sys2Proof

/-! The write rows (R35, R95 to R97, R379, R464): which way a write goes. -/

namespace Sys2Proof

open Machine

/-! ### The checks look at the device alone, not at what it has sent -/

theorem writeCheck_fresh (s : State) (role num sub : Nat) (v : Bytes) :
    writeCheck (fresh s) role num sub v = writeCheck s.dev role num sub v := rfl

theorem viaPartner_fresh (s : State) (num : Nat) : viaPartner (fresh s) num = viaPartner s.dev num := rfl

/-- The entry of an admitted write names the object and subindex that are written. -/
theorem writeCheck_names {d : Dev} {role num sub : Nat} {v : Bytes} (h : (writeCheck d role num sub v).1 = 0) :
    (writeCheck d role num sub v).2.num = num ∧ (writeCheck d role num sub v).2.sub = sub := by
  revert h
  unfold writeCheck
  split
  · exact fun h => absurd h (by decide)
  · split
    · exact fun h => absurd h (by decide)
    · split
      · exact fun h => absurd h (by decide)
      · exact fun _ => ⟨rfl, rfl⟩

/-! ### The ways of a write -/

section

variable {d : Dev} {role num sub : Nat} {v : Bytes}

theorem directWrite_not_running (h : running d = false) : directWrite role num sub v d = d := by simp [directWrite, h]

theorem directWrite_standby (hr : running d = true) (hs : d.pair.role = .standby) (ho : ownWrite num = false) :
    directWrite role num sub v d = emit (.result aStandby) d := by simp [directWrite, hr, hs, ho]

/-- What a unit that runs and may write makes of a write: a refusal, or its acceptance. -/
theorem directWrite_checked (hr : running d = true) (hs : d.pair.role ≠ .standby ∨ ownWrite num = true) :
    directWrite role num sub v d = if (writeCheck d role num sub v).1 ≠ 0 then emit (.result (writeCheck d role num sub v).1) d
      else emit (.result 0) (acceptWrite (writeCheck d role num sub v).2 .none (fun _ _ d => d) d) := by
  have hc : ¬ (d.pair.role = .standby ∧ !(ownWrite num)) := by
    rintro ⟨h1, h2⟩
    rcases hs with h | h
    · exact h h1
    · rw [h] at h2; cases h2
  rw [directWrite, if_neg (by simp [hr]), if_neg hc]

theorem directWrite_refused (hr : running d = true) (hs : d.pair.role ≠ .standby ∨ ownWrite num = true)
    (h : (writeCheck d role num sub v).1 ≠ 0) :
    directWrite role num sub v d = emit (.result (writeCheck d role num sub v).1) d := by
  rw [directWrite_checked hr hs, if_pos h]

theorem directWrite_accepted (hr : running d = true) (hs : d.pair.role ≠ .standby ∨ ownWrite num = true)
    (h : (writeCheck d role num sub v).1 = 0) : directWrite role num sub v d =
      emit (.result 0) (acceptWrite (writeCheck d role num sub v).2 .none (fun _ _ d => d) d) := by
  rw [directWrite_checked hr hs, if_neg (not_not.2 h)]

end

section

variable {p : Pend} {d : Dev}

/-- A unit that works alone enters the write itself. -/
theorem acceptWrite_own (h : viaPartner d p.num = false) : acceptWrite p .none (fun _ _ d => d) d = enterWrite p d := by
  simp [acceptWrite, h, replyTo]

/-- With a partner present the write goes there first (R464). -/
theorem acceptWrite_partner (h : viaPartner d p.num = true) (hn : p.num ≠ 0x405) : ∃ rs,
    acceptWrite p .none (fun _ _ d => d) d = queueWrite ⟨p, .none⟩ rs d := by
  rw [acceptWrite, if_pos h, if_neg hn]
  exact ⟨_, rfl⟩

/-- A write of a frame level waits, in place of a waiting value of the same subindex (R35, R95). -/
theorem enterWrite_waits (h : p.level ≠ 0) : enterWrite p d = { d with os := { d.os with
    pend := (if p.cmd = true then d.os.pend else d.os.pend.filter (fun q => q.cmd || q.num != p.num || q.sub != p.sub)) ++ [p] } } := by
  rw [enterWrite, if_neg h]

end

theorem queueWrite_framed (q : QWrite) (rs : List LaneRec) (ks : List (Nat × Nat)) (d : Dev) :
    Framed [.pair] ks d (queueWrite q rs d) := .pair (by simp) (.refl _ _ _) _

theorem Framed.fresh_follows {s : State} {e : Dev} (h : Follows (fresh s) e) (ps : List Part) (ks : List (Nat × Nat)) :
    Framed ps ks s.dev e := .of_fresh (.follow (.refl _ _ _) h)

/-! ### Admission, by the write that the row names -/

section

variable {c : Instr} {w : Write} {s : State}

theorem write_completes {x : Dev} {P : Dev → Prop} (hw : writeOf c = some w)
    (hx : directWrite w.role w.num w.sub w.value (fresh s) = x) (hP : ∀ e, Follows x e → P e) : Completes c s P :=
  act_completes (exec_write hw s) (fun e he => hP e (hx ▸ he))

/-- A unit that does not run ignores a write (log entry 2). -/
theorem write_not_running (hw : writeOf c = some w) (hr : running s.dev = false) : Completes c s (Framed [] [] s.dev) :=
  write_completes hw (directWrite_not_running (d := fresh s) hr) (fun _ he => .fresh_follows he _ _)

/-- A write that answers a code and does no more. -/
theorem write_answers {code : Nat} (hw : writeOf c = some w)
    (hx : directWrite w.role w.num w.sub w.value (fresh s) = emit (.result code) (fresh s)) :
    Completes c s (fun e => answered e code = true ∧ Framed [] [] s.dev e) :=
  write_completes hw hx (fun _ he => ⟨he.answered _ (answered_emit _ _), .of_fresh (.follow (.emit (.refl _ _ _) _) he)⟩)

/-- An admitted write of a unit that works alone: it is answered, and entered. -/
theorem write_enters {P : Dev → Prop} (hw : writeOf c = some w) (hr : running s.dev = true)
    (hs : s.dev.pair.role ≠ .standby ∨ ownWrite w.num = true) (h0 : (writeCheck s.dev w.role w.num w.sub w.value).1 = 0)
    (hv : viaPartner s.dev w.num = false)
    (hP : ∀ e, Follows (emit (.result 0) (enterWrite (writeCheck s.dev w.role w.num w.sub w.value).2 (fresh s))) e → P e) :
    Completes c s P := by
  refine write_completes hw ?_ hP
  rw [directWrite_accepted (d := fresh s) hr hs h0, writeCheck_fresh, acceptWrite_own]
  rw [(writeCheck_names h0).1, viaPartner_fresh, hv]

theorem write_waits (hw : writeOf c = some w) (hr : running s.dev = true)
    (hs : s.dev.pair.role ≠ .standby ∨ ownWrite w.num = true) (h0 : (writeCheck s.dev w.role w.num w.sub w.value).1 = 0)
    (hv : viaPartner s.dev w.num = false) (hl : (writeCheck s.dev w.role w.num w.sub w.value).2.level ≠ 0) :
    Completes c s (fun e => answered e 0 = true ∧
      e.os.pend = (if (writeCheck s.dev w.role w.num w.sub w.value).2.cmd = true then s.dev.os.pend
        else s.dev.os.pend.filter (fun q => q.cmd || q.num != w.num || q.sub != w.sub)) ++
          [(writeCheck s.dev w.role w.num w.sub w.value).2] ∧
      OnlyParts [] s.dev e ∧ SameObjects [] s.dev e) := by
  obtain ⟨hnum, hsub⟩ := writeCheck_names h0
  refine write_enters hw hr hs h0 hv (fun e he => ?_)
  rw [enterWrite_waits hl, hnum, hsub] at he
  exact ⟨he.answered _ (answered_emit _ _), he.pend, (onlyParts_of_fields rfl).trans he.parts,
    SameObjects.trans (.of_cur rfl) (he.same _)⟩

/-- With a partner present an admitted write is queued for it (R464). -/
theorem write_queued (hw : writeOf c = some w) (hr : running s.dev = true)
    (hs : s.dev.pair.role ≠ .standby ∨ ownWrite w.num = true) (h0 : (writeCheck s.dev w.role w.num w.sub w.value).1 = 0)
    (hv : viaPartner s.dev w.num = true) (hn : w.num ≠ 0x405) :
    Completes c s (fun e => answered e 0 = true ∧
      e.pair.queue = s.dev.pair.queue ++ [⟨(writeCheck s.dev w.role w.num w.sub w.value).2, .none⟩] ∧ Framed [.pair] [] s.dev e) := by
  have hnum := (writeCheck_names h0).1
  obtain ⟨rs, hq⟩ := acceptWrite_partner (d := fresh s) (p := (writeCheck s.dev w.role w.num w.sub w.value).2)
    (by rw [hnum]; exact hv) (by rw [hnum]; exact hn)
  refine write_completes hw (directWrite_accepted (d := fresh s) hr hs h0) (fun e he => ?_)
  rw [writeCheck_fresh, hq] at he
  refine ⟨he.answered _ (answered_emit _ _), ?_, .of_fresh (((queueWrite_framed _ rs [] (fresh s)).emit _).follow he)⟩
  rw [he.part .pair]
  rfl

end

/-- Settles O58: the ways of a write one by one. -/
theorem writesAreAdmitted : Obligations.WritesAreAdmitted := by
  intro c w s hw
  refine ⟨fun hr => write_not_running hw hr, fun hr hs ho => ?_, fun hr hs => ⟨fun h => ?_, fun h0 hv hl => ?_, fun h0 hv hn => ?_⟩⟩
  · exact write_answers hw (directWrite_standby (d := fresh s) hr hs ho)
  · exact write_answers hw (directWrite_refused (d := fresh s) hr hs h)
  · exact write_waits hw hr hs h0 hv hl
  · exact write_queued hw hr hs h0 hv hn

end Sys2Proof

/-! A counterexample to O52: the statement speaks of every state, also of one whose store lists a kept object twice. Reading takes the
first entry; a start writes the entries that it keeps anew, one after the other, so that the last one stays (R100, R504). Two states
that differ in the first of the two entries alone come out of the same start with the same value, and the statement wants each to
keep its own. -/

namespace Sys2Proof

open Machine

section

variable {x : StartIn} {d : Dev} {os : ObjS} {kept : Bool} {cause : Nat}

theorem bootLatch_nor (h : os.nor = d.os.nor) : bootLatch kept { d with os := os } = bootLatch kept d := by
  funext n
  simp only [bootLatch, lch, h]

theorem bootLatches_nor (h : os.nor = d.os.nor) (b : ObjS) : bootLatches kept { d with os := os } b = bootLatches kept d b := by
  simp only [bootLatches, bootLatch_nor h]

/-- Of the values in force before a start the device that it begins with shows those it keeps; civil time comes from them only after a
loss of the keep domain. -/
theorem bootDev_store (hc : cause ≠ 0) (hn : os.nor = d.os.nor) (hb : bootStore kept x.objBad os = bootStore kept x.objBad d.os) :
    bootDev x kept cause { d with os := os } = bootDev x kept cause d := by
  simp only [bootDev, hb, hc, if_false, bootLatches_nor hn, bootLatch_nor hn]

end

/-- A start sees of the state before how it ended, and what the device that it begins with has of it. -/
theorem startUp_congr {x : StartIn} {d e : Dev} (ht : x.testEn = false) (hr : e.phase = .reset) (hp : d.phase = e.phase)
    (hs : d.startup = e.startup)
    (hb : ∀ kept cause, cause ≠ 0 → bootDev x kept cause (restoredNor d) = bootDev x kept cause (restoredNor e))
    (hn : 1 < e.startup.nextCause) : startUp x d = startUp x e := by
  have hb := fun kept => hb kept e.startup.nextCause (by omega)
  unfold startUp
  simp [hp, hs, hr, ht, Nat.not_le.2 hn, hb]

/-- What holds of a command's next state holds of the device and the memory that the model evaluates it to. -/
theorem CompletesMem.of_exec_mem {c : Instr} {s t : State} {P : Dev → Mem → Prop} (h : CompletesMem c s P) (he : exec c s = .next t) :
    P t.dev t.mem := by
  obtain ⟨u, hu, _, hP⟩ := h
  rw [he, Host.Outcome.next.injEq] at hu
  rw [← hu] at hP
  exact hP

theorem exec_startUp (x : StartIn) (s : State) :
    exec (.startUp x) s = .next { s with dev := settle (startMem x (fresh s) s.mem).1, mem := (startMem x (fresh s) s.mem).2 } := rfl

/-- What the statement says of a start into life cycle 1 or later: MET.DC_CFG.01 of the first connector stays in force. -/
theorem keeps_dcCfg (h : Obligations.StartBegins) {s : State} {x : StartIn} {cause : Nat} (hp : s.dev.phase = .reset)
    (hx : x.testEn = false ∧ x.rootOk = true ∧ x.norFail = false ∧ x.keepOk = true) (hk : s.dev.startup.keepLost = false)
    (hc : s.dev.startup.nextCause = cause) (h1 : 1 < cause) (hu : s.dev.update.fall = none ∧ s.dev.update.activate = false)
    (hl : s.dev.keys.lcReq = none) (hlife : on s.dev 0x500 0 ≠ 0 ∧ on s.dev 0x706 1 ≠ 1)
    (hb : bootOk (startStatus x cause (bootDev x true cause (restoredNor s.dev))) s.dev.update.run = true) :
    on (settle (startUp x (fresh s))) 0x2040 1 = on s.dev 0x2040 1 := by
  obtain ⟨ht, hr, hn, ho⟩ := hx
  have hstart := (h s x (.inl hp) ht).2 hr hn hu.1 hu.2 hl hlife.1 hlife.2
  simp only [ho, hk, hc, Nat.not_le.2 h1, if_false, Bool.not_false, Bool.and_self] at hstart
  obtain ⟨_, _, _, _, _, _, _, _, hkept, _⟩ := (hstart hb).of_exec_mem (exec_startUp x s)
  exact hkept 0 (by decide)

namespace ListedTwice

/-- A signature (r, r) whose r is the digest: with it a block verifies under the key whose point is that of r less the base point. -/
def r : Nat := 0x6e340b9cffb37a989ca544e6bb780a2c78901d3fb33738768511a30617afa01d

def pub : Bytes :=
  natLe 32 0x82ac2eec7a72ac40bc4bbd8b885530620755e3ac4e15d121c491ab4e9257f108 ++
    natLe 32 0x2158d1a997b199ebfdcb727bb977b8be8f9f27f7e5c7c60c61fbbea43f0e7de9

/-- A component of one byte, signed by the key of a slot of KEY.PUB (R513). -/
def comp (kind slot : Nat) : Comp :=
  { kind := kind, version := 1, library := 1, bytes := [0] ++ natLe 4 slot ++ natLe 4 0 ++ natLe 32 r ++ natLe 32 r }

def bundle : Bundle := { svn := 0, comps := [comp 1 0, comp 2 1, comp 3 2, comp 4 2] }

/-- The NOR copies of three slots of KEY.PUB, of usage 2 to 4 (R486). -/
def nor : Store :=
  [(okey 0x530 1, .num 2), (okey 0x530 2, .bytes pub), (okey 0x531 1, .num 3), (okey 0x531 2, .bytes pub), (okey 0x532 1, .num 4),
    (okey 0x532 2, .bytes pub)]

/-- MET.DC_CFG.01 of the first connector stands twice in the store, the first time as `v`. -/
def store (v : Nat) : ObjS := { cur := [(okey 0x500 0, .num 1), (okey 0x2040 1, .num v), (okey 0x2040 1, .num 65536)], nor := nor }

/-- A device in internal reset, of life cycle 1, with a bundle in RUN. -/
def start (v : Nat) : State :=
  { State.reset with dev := { State.reset.dev with
      phase := .reset, os := store v, startup := { nextCause := 2, keepLost := false }, update := { run := some bundle } } }

/-- The two first entries. -/
def a : Nat := 131072
def b : Nat := 196608

/-- The entries that the start keeps leave one value, whatever the first of the two was. -/
theorem bootStore_store (kept : Bool) : bootStore kept [] (store a) = bootStore kept [] (store b) := by
  cases kept <;> decide +kernel

/-- The two starts come to the same. -/
theorem startUp_start : startUp {} (fresh (start a)) = startUp {} (fresh (start b)) :=
  startUp_congr rfl rfl rfl rfl (fun kept _ hc => bootDev_store (d := fresh (start b)) hc rfl (bootStore_store kept)) (by decide)

/-- The bundle boots. -/
theorem boots (v : Nat) (hv : v = a ∨ v = b) :
    bootOk (startStatus {} 2 (bootDev {} true 2 (restoredNor (start v).dev))) (some bundle) = true := by
  rcases hv with rfl | rfl <;> decide +kernel

theorem counts (v : Nat) (hv : v = a ∨ v = b) : on (start v).dev 0x500 0 ≠ 0 ∧ on (start v).dev 0x706 1 ≠ 1 := by
  rcases hv with rfl | rfl <;> decide +kernel

theorem on_start (v : Nat) : on (start v).dev 0x2040 1 = v := rfl

theorem keeps_first (h : Obligations.StartBegins) (v : Nat) (hv : v = a ∨ v = b) :
    on (settle (startUp {} (fresh (start v)))) 0x2040 1 = v := by
  have hkept := keeps_dcCfg h (s := start v) (x := {}) (cause := 2) rfl ⟨rfl, rfl, rfl, rfl⟩ rfl rfl (by decide) ⟨rfl, rfl⟩ rfl
    (counts v hv) (boots v hv)
  rwa [on_start] at hkept

end ListedTwice

/-- Refutes O52: two states that differ in the first of two entries of one object start alike (`ListedTwice.startUp_start`). -/
theorem not_startBegins : ¬ Obligations.StartBegins := by
  intro h
  have ha := ListedTwice.keeps_first h ListedTwice.a (.inl rfl)
  have hb := ListedTwice.keeps_first h ListedTwice.b (.inr rfl)
  rw [ListedTwice.startUp_start, hb] at ha
  exact absurd ha (by decide)

end Sys2Proof

/-! Upstream control frames of the stage and dispenser lanes: those that fail a check, and those that wait for their sample token
(R40, R118, R121 to R123, R127, R129, R134). -/

namespace Sys2Proof

open Machine

/-! ### The lane's published state -/

section

variable (l : Nat) (d : Dev)

theorem publishLane_lanes : (publishLane l d).lanes = d.lanes := by
  unfold publishLane
  split <;> rfl

theorem publishLane_framed (hl : l < 50) : Framed [] [(0x200, l + 1)] d (publishLane l d) :=
  .ite (.refl _ _ _) (.put (by omega) (by simp) (.refl _ _ _))

theorem setLane_lanes (g : LaneS → LaneS) : (setLane l g d).lanes = (modLane l g d).lanes := publishLane_lanes _ _

theorem setLane_framed (hl : l < 50) (g : LaneS → LaneS) : Framed [.lanes] [(0x200, l + 1)] d (setLane l g d) :=
  (Framed.lanes (by simp) (.refl _ _ _) _).trans ((publishLane_framed l (modLane l g d) hl).mono (by simp) (by simp))

theorem laneS_congr {d e : Dev} (h : e.lanes = d.lanes) (j : Nat) : laneS e j = laneS d j := by rw [laneS, laneS, h]

/-! ### The part is awake -/

theorem upAwake_framed (hl : l < 50) : Framed [.lanes] [(0x200, l + 1)] d (upAwake l d) :=
  .ite (setLane_framed l d hl _) (.refl _ _ _)

theorem laneS_upAwake_same : laneS (upAwake l d) l = { laneS d l with upSleep := false } := by
  unfold upAwake
  split
  case isTrue => rw [laneS_congr (setLane_lanes l d _), laneS_modLane_same]
  case isFalse h =>
    rw [Bool.not_eq_true] at h
    rw [← h]

theorem laneS_upAwake_other {j : Nat} (h : j ≠ l) : laneS (upAwake l d) j = laneS d j := by
  unfold upAwake
  split
  · rw [laneS_congr (setLane_lanes l d _), laneS_modLane_other _ _ _ _ h.symm]
  · rfl

theorem upAwake_lanes : ∃ ls, (upAwake l d).lanes = { d.lanes with lanes := ls } := by
  unfold upAwake
  split
  · exact ⟨_, setLane_lanes _ _ _⟩
  · exact ⟨_, rfl⟩

theorem seqDue_congr {d e : Dev} (h : e.time = d.time) (seq : Nat) : seqDue e seq = seqDue d seq := by rw [seqDue, seqDue, h]

/-! ### The epoch -/

theorem epochSeen_framed (hl : l < 50) (n : Nat) : Framed [.pair] [(0x208, l + 1)] d (epochSeen l n d) := by
  have h1 : Framed [.pair] [(0x208, l + 1)] d (if on d 0x208 (l + 1) = n then d else put 0x208 (l + 1) n d) :=
    .ite (.refl _ _ _) (.put (by omega) (by simp) (.refl _ _ _))
  unfold epochSeen
  exact .ite (.raise ((h1.pair (by simp) _).pair (by simp) _)) (h1.pair (by simp) _)

theorem on_ite {c : Prop} [Decidable c] {x y : Dev} {num sub v : Nat} (hx : on x num sub = v) (hy : on y num sub = v) :
    on (if c then x else y) num sub = v := by
  split
  · exact hx
  · exact hy

theorem on_epochSeen (n : Nat) : on (epochSeen l n d) 0x208 (l + 1) = n := by
  have h1 : on (if on d 0x208 (l + 1) = n then d else put 0x208 (l + 1) n d) 0x208 (l + 1) = n := by
    split
    case isTrue h => exact h
    case isFalse => exact on_put_same _ _ _ _
  exact on_ite h1 h1

end

/-! ### A frame that waits for its sample token -/

/-- What a frame that is in time leaves on its lane. -/
def latchUp (l : Nat) (f : Frame) (busy : Bool) (d : Dev) : Dev :=
  epochSeen l (fieldLe f.body 4 4) (modLane l (fun x =>
    { x with status := fieldLe f.body 0 4, busyMajor := x.busyMajor || busy, latch := some f.body, latchSeq := f.seq }) d)

section

variable {l : Nat} {f : Frame} {busy : Bool} {d : Dev}

theorem latchUp_lanes (hl : l < 50) : (latchUp l f busy d).lanes = (modLane l (fun x =>
    { x with status := fieldLe f.body 0 4, busyMajor := x.busyMajor || busy, latch := some f.body, latchSeq := f.seq }) d).lanes :=
  (epochSeen_framed l _ hl _).1 .lanes (by simp)

theorem laneS_latchUp_same (hl : l < 50) : laneS (latchUp l f busy d) l = { laneS d l with
    status := fieldLe f.body 0 4, busyMajor := (laneS d l).busyMajor || busy, latch := some f.body, latchSeq := f.seq } := by
  rw [laneS_congr (latchUp_lanes hl), laneS_modLane_same]

theorem laneS_latchUp_other (hl : l < 50) {j : Nat} (h : j ≠ l) : laneS (latchUp l f busy d) j = laneS d j := by
  rw [laneS_congr (latchUp_lanes hl), laneS_modLane_other _ _ _ _ h.symm]

theorem on_latchUp_epoch : on (latchUp l f busy d) 0x208 (l + 1) = fieldLe f.body 4 4 := on_epochSeen _ _ _

theorem latchUp_framed (hl : l < 50) : Framed [.lanes, .pair] [(0x208, l + 1)] d (latchUp l f busy d) :=
  (Framed.lanes (by simp) (.refl _ _ _) _).trans ((epochSeen_framed l _ hl _).mono (by simp) (by simp))

/-- An event of a status edge. -/
theorem raiseIf_follows (c : Bool) (code inst : Nat) (d : Dev) : Follows d (if c then raise code inst 0 d else d) := by
  cases c
  · exact .refl d
  · exact raise_follows _ _ _ _

end

/-! ### STAGE_UP -/

section

variable {k : Nat} {f : Frame} {d : Dev}

/-- A stage of which a frame arrives trips nothing for now (R171). -/
def untrip (k : Nat) (d : Dev) : Dev := modStg k (fun x => { x with tripped := 0 }) d

/-- A status word that shows the stage at work. -/
def stageBusy (w : Nat) : Bool := w.testBit 16 || decide (bitsOf w 7 4 ≠ 0)

/-- The status edges of a stage frame. -/
def stageEdges (k w old : Nat) (d : Dev) : Dev :=
  let d := if w.testBit 12 && !(old.testBit 12) then raise 0x0A11 k 0 d else d
  if w.testBit 10 && !(old.testBit 10) then raise 0x2C01 k 0 d else d

theorem stageEdges_follows (k w old : Nat) (d : Dev) : Follows d (stageEdges k w old d) :=
  (raiseIf_follows _ _ _ _).trans (raiseIf_follows _ _ _ _)

theorem stageUp_bad (hr : running d = true) (hk : k < 32) (hb : laneBound d k = true)
    (h : frameSound f = false ∨ f.kind ≠ 1 ∨ stageUpOk (stageE d k) f.body = false) :
    stageUp k f d = raise 0x0A10 k 0 (incr 32 0x201 (k + 1) (untrip k d)) := by
  have hn : (!(running d) || decide (32 ≤ k) || !(laneBound d k)) = false := by simp [hr, hb, hk]
  have hbad : (!(frameSound f) || f.kind != 1 || !(stageUpOk (stageE (untrip k d) k) f.body)) = true := by
    change (!(frameSound f) || f.kind != 1 || !(stageUpOk (stageE d k) f.body)) = true
    rcases h with h | h | h <;> simp [h]
  unfold stageUp
  simp only [hn, Bool.false_eq_true, if_false]
  refine (if_pos hbad).trans ?_
  exact if_neg (by omega)

/-- A sound frame is discarded, or its status edges, status and epoch are taken. -/
theorem stageUp_sound (hr : running d = true) (hk : k < 32) (hb : laneBound d k = true) (hs : frameSound f = true) (h1 : f.kind = 1)
    (hok : stageUpOk (stageE d k) f.body = true) (hup : (laneS d k).st = .up) :
    stageUp k f d = if seqDue d f.seq then
      latchUp k f (stageBusy (fieldLe f.body 0 4)) (stageEdges k (fieldLe f.body 0 4) (laneS d k).status (upAwake k (untrip k d)))
    else upAwake k (untrip k d) := by
  have hn : (!(running d) || decide (32 ≤ k) || !(laneBound d k)) = false := by simp [hr, hb, hk]
  have hbad : (!(frameSound f) || f.kind != 1 || !(stageUpOk (stageE (untrip k d) k) f.body)) = false := by
    change (!(frameSound f) || f.kind != 1 || !(stageUpOk (stageE d k) f.body)) = false
    simp [hs, h1, hok]
  have hst : ((laneS (untrip k d) k).st != .up) = false := by
    change ((laneS d k).st != .up) = false
    simp [hup]
  have hq : seqDue (upAwake k (untrip k d)) f.seq = seqDue d f.seq :=
    seqDue_congr ((upAwake_framed k (untrip k d) (by omega)).1 .time (by simp)) _
  unfold stageUp
  simp only [hn, Bool.false_eq_true, if_false]
  refine (if_neg (ne_true_of_eq_false hbad)).trans ((if_neg (ne_true_of_eq_false hst)).trans ?_)
  cases hd : seqDue d f.seq
  · exact if_pos (congrArg (!·) (hq.trans hd))
  · exact if_neg (ne_true_of_eq_false (congrArg (!·) (hq.trans hd)))

theorem untrip_framed (k : Nat) (d : Dev) : Framed [.stg] [] d (untrip k d) := .stg (by simp) (.refl _ _ _) _

end

/-- R118: a frame that fails a check is counted. -/
theorem stageUp_rejects {s : State} {k : Nat} {f : Frame} (hr : running s.dev = true) (hk : k < 32) (hb : laneBound s.dev k = true)
    (h : frameSound f = false ∨ f.kind ≠ 1 ∨ stageUpOk (stageE s.dev k) f.body = false) : Completes (.stageUp k f) s (fun e =>
      raised e 0x0A10 k = true ∧ on e 0x201 (k + 1) = incSat 32 (on s.dev 0x201 (k + 1)) ∧ e.lanes = s.dev.lanes ∧
        Framed [.stg] [(0x201, k + 1)] s.dev e) := by
  have hx : onPart (decide (k < 32)) (ifRun (stageUp k f)) (fresh s) = _ :=
    (if_pos (by simpa using hk)).trans ((if_pos hr).trans (stageUp_bad (d := fresh s) hr hk hb h))
  refine act_completes (f := onPart (decide (k < 32)) (ifRun (stageUp k f))) rfl (fun e he => ?_)
  rw [hx] at he
  refine ⟨he.raised _ _ _ (raised_raise _ _ _ _), ?_, he.part .lanes, ?_⟩
  · rw [he.on _ _ (by omega) (moves_counted (counted_of_lt _ (by decide))), on_raise, on_incr_same]
    rfl
  · have hu := (untrip_framed k (fresh s)).mono (ks := []) (ls := [(0x201, k + 1)]) (fun _ h => h) (by simp)
    exact .of_fresh ((Framed.raise (.put (by omega) (by simp) hu)).follow he)

/-- R40, R121 to R123, R134: a sound frame of a lane that is UP. -/
theorem stageUp_accepts {s : State} {k : Nat} {f : Frame} (hr : running s.dev = true) (hk : k < 32) (hb : laneBound s.dev k = true)
    (hs : frameSound f = true) (h1 : f.kind = 1) (hok : stageUpOk (stageE s.dev k) f.body = true) (hup : (laneS s.dev k).st = .up) :
    Completes (.stageUp k f) s (fun e =>
      (if seqDue s.dev f.seq = true then
         (laneS e k).status = fieldLe f.body 0 4 ∧ on e 0x208 (k + 1) = fieldLe f.body 4 4 ∧ (laneS e k).latch = some f.body ∧
           (laneS e k).latchSeq = f.seq
       else (laneS e k).status = (laneS s.dev k).status ∧ on e 0x208 (k + 1) = on s.dev 0x208 (k + 1) ∧
         (laneS e k).latch = (laneS s.dev k).latch) ∧ (laneS e k).upSleep = false ∧ (laneS e k).cur = (laneS s.dev k).cur ∧
        (∀ j, j ≠ k → laneS e j = laneS s.dev j) ∧
        Framed [.lanes, .stg, .pair] [(0x200, k + 1), (0x208, k + 1)] s.dev e) := by
  have hx : onPart (decide (k < 32)) (ifRun (stageUp k f)) (fresh s) = _ :=
    (if_pos (by simpa using hk)).trans ((if_pos hr).trans (stageUp_sound (d := fresh s) hr hk hb hs h1 hok hup))
  refine act_completes (f := onPart (decide (k < 32)) (ifRun (stageUp k f))) rfl (fun e he => ?_)
  rw [hx] at he
  have hl : k < 50 := by omega
  have ha : Framed [.lanes, .stg, .pair] [(0x200, k + 1), (0x208, k + 1)] (fresh s) (upAwake k (untrip k (fresh s))) :=
    ((untrip_framed k (fresh s)).mono (by simp) (by simp)).trans ((upAwake_framed k _ hl).mono (by simp) (by simp))
  have hq : seqDue (fresh s) f.seq = seqDue s.dev f.seq := rfl
  rw [hq] at he
  split at he
  case isTrue hd =>
    have hedge := stageEdges_follows k (fieldLe f.body 0 4) (laneS (fresh s) k).status (upAwake k (untrip k (fresh s)))
    have hk' : laneS e k = _ := (laneS_congr (he.part .lanes) k).trans (laneS_latchUp_same hl)
    rw [if_pos hd]
    refine ⟨⟨?_, ?_, ?_, ?_⟩, ?_, ?_, ?_, ?_⟩
    · rw [hk']
    · rw [he.on _ _ (by omega) (moves_counted (counted_of_lt _ (by decide))), on_latchUp_epoch]
    · rw [hk']
    · rw [hk']
    · rw [hk', laneS_congr (hedge.part .lanes), laneS_upAwake_same]
    · rw [hk', laneS_congr (hedge.part .lanes), laneS_upAwake_same]
      rfl
    · intro j hj
      rw [laneS_congr (he.part .lanes), laneS_latchUp_other hl hj, laneS_congr (hedge.part .lanes), laneS_upAwake_other _ _ hj]
      rfl
    · exact .of_fresh (((ha.follow hedge).trans ((latchUp_framed hl).mono (by simp) (by simp))).follow he)
  case isFalse hd =>
    have hk' : laneS e k = _ := (laneS_congr (he.part .lanes) k).trans (laneS_upAwake_same k _)
    rw [if_neg hd]
    refine ⟨⟨?_, ?_, ?_⟩, ?_, ?_, ?_, ?_⟩
    · rw [hk']
      rfl
    · rw [he.on _ _ (by omega) (moves_counted (counted_of_lt _ (by decide))), ((upAwake_framed k (untrip k (fresh s)) hl).on_eq (by omega)
        (counted_of_lt _ (by decide)) (by simp))]
      rfl
    · rw [hk']
      rfl
    · rw [hk']
    · rw [hk']
      rfl
    · intro j hj
      rw [laneS_congr (he.part .lanes), laneS_upAwake_other _ _ hj]
      rfl
    · exact .of_fresh (ha.follow he)

/-! ### DISP_UP -/

section

variable {i : Nat} {f : Frame} {d : Dev}

theorem takeRec_recs (first : Nat) (r : LaneRec) (d : Dev) :
    ∃ rs, takeRec first r d = { d with lanes := { d.lanes with recs := rs } } := by
  unfold takeRec
  dsimp only
  split
  · exact ⟨_, rfl⟩
  · split
    · exact ⟨_, rfl⟩
    · exact ⟨d.lanes.recs, rfl⟩

theorem takeRecs_recs (first : Nat) (l : List LaneRec) (d : Dev) :
    ∃ rs, forEach l (takeRec first) d = { d with lanes := { d.lanes with recs := rs } } := by
  induction l generalizing d with
  | nil => exact ⟨d.lanes.recs, rfl⟩
  | cons r l ih =>
    obtain ⟨rs, hr⟩ := takeRec_recs first r d
    obtain ⟨qs, hq⟩ := ih (takeRec first r d)
    exact ⟨qs, hq.trans (by rw [hr])⟩

/-- A rejected frame of a dispenser: the partial vehicle frames of its connectors go (R132). -/
theorem laneBad_disp (hi : i < 16) (d : Dev) :
    ∃ v, laneBad (32 + i) d = { raise 0x0A10 (32 + i) 0 (incr 32 0x201 (33 + i) d) with lanes := { d.lanes with vethRx := v } } :=
  ⟨_, (if_pos (by omega)).trans (by rw [show 33 + i = 32 + i + 1 by omega]; rfl)⟩

theorem dispUpFrame_checks (hr : running d = true) (hi : i < 16) (hb : laneBound d (32 + i) = true) :
    (!(running d) || decide (16 ≤ i) || !(laneBound d (32 + i))) = false := by simp [hr, hb, hi]

theorem dispUpFrame_bad (hr : running d = true) (hi : i < 16) (hb : laneBound d (32 + i) = true)
    (h : frameSound f = false ∨ f.kind ≠ 3 ∨ dispUpRecs (dispE d i).count f.body = none) : dispUpFrame i f d = laneBad (32 + i) d := by
  have hnone : (if frameSound f && f.kind == 3 then dispUpRecs (dispE d i).count f.body else none) = none := by
    rcases h with h | h | h <;> simp [h]
  unfold dispUpFrame
  dsimp only
  rw [if_neg (ne_true_of_eq_false (dispUpFrame_checks hr hi hb)), hnone]

theorem dispUpFrame_sound {rs : List LaneRec} (hr : running d = true) (hi : i < 16) (hb : laneBound d (32 + i) = true)
    (hs : frameSound f = true) (h3 : f.kind = 3) (hrec : dispUpRecs (dispE d i).count f.body = some rs)
    (hup : (laneS d (32 + i)).st = .up) :
    dispUpFrame i f d =
      let e := forEach rs (takeRec (dispE d i).first) (upAwake (32 + i) d)
      if seqDue e f.seq then latchUp (32 + i) f (decide (byteAt f.body 12 ≠ 0))
        (if (fieldLe f.body 0 4).testBit 12 && !((laneS d (32 + i)).status.testBit 12) then raise 0x0A11 (32 + i) 0 e else e)
      else e := by
  have hsome : (if frameSound f && f.kind == 3 then dispUpRecs (dispE d i).count f.body else none) = some rs := by simp [hs, h3, hrec]
  have hst : ¬ ((laneS d (32 + i)).st != .up) = true := by simp [hup]
  unfold dispUpFrame
  dsimp only
  rw [if_neg (ne_true_of_eq_false (dispUpFrame_checks hr hi hb)), hsome]
  dsimp only
  rw [if_neg hst]
  by_cases h : seqDue (forEach rs (takeRec (dispE d i).first) (upAwake (32 + i) d)) f.seq = true
  · rw [if_neg (by rw [h]; decide), if_pos h]
    rfl
  · rw [if_pos (by simpa using h), if_neg h]

end

theorem dispUp_rejects {s : State} {i : Nat} {f : Frame} (hr : running s.dev = true) (hi : i < 16)
    (hb : laneBound s.dev (32 + i) = true)
    (h : frameSound f = false ∨ f.kind ≠ 3 ∨ dispUpRecs (dispE s.dev i).count f.body = none) : Completes (.dispUp i f) s (fun e =>
      raised e 0x0A10 (32 + i) = true ∧ on e 0x201 (33 + i) = incSat 32 (on s.dev 0x201 (33 + i)) ∧
        (∀ j, laneS e j = laneS s.dev j) ∧ e.lanes.recs = s.dev.lanes.recs ∧ Framed [.lanes] [(0x201, 33 + i)] s.dev e) := by
  obtain ⟨v, hv⟩ := laneBad_disp hi (fresh s)
  have hx : onPart (decide (i < 16)) (ifRun (dispUpFrame i f)) (fresh s) = _ :=
    (if_pos (by simpa using hi)).trans ((if_pos hr).trans ((dispUpFrame_bad (d := fresh s) hr hi hb h).trans hv))
  refine act_completes (f := onPart (decide (i < 16)) (ifRun (dispUpFrame i f))) rfl (fun e he => ?_)
  rw [hx] at he
  have hl : e.lanes = _ := he.part .lanes
  refine ⟨he.raised _ _ _ (raised_raise _ _ _ (incr 32 0x201 (33 + i) (fresh s))), ?_, ?_, ?_, ?_⟩
  · rw [he.on _ _ (by omega) (moves_counted (counted_of_lt _ (by decide)))]
    exact on_incr_same _ _ _ _
  · intro j
    rw [laneS, hl]
    rfl
  · rw [hl]
    rfl
  · exact .of_fresh ((Framed.lanes (by simp) (Framed.raise (.put (by omega) (by simp) (.refl _ _ _))) _).follow he)

theorem dispUp_accepts {s : State} {i : Nat} {f : Frame} {rs : List LaneRec} (hr : running s.dev = true) (hi : i < 16)
    (hb : laneBound s.dev (32 + i) = true) (hs : frameSound f = true) (h3 : f.kind = 3)
    (hrec : dispUpRecs (dispE s.dev i).count f.body = some rs) (hup : (laneS s.dev (32 + i)).st = .up) :
    Completes (.dispUp i f) s (fun e =>
      (if seqDue s.dev f.seq = true then
         (laneS e (32 + i)).status = fieldLe f.body 0 4 ∧ on e 0x208 (33 + i) = fieldLe f.body 4 4 ∧
           (laneS e (32 + i)).latch = some f.body
       else (laneS e (32 + i)).latch = (laneS s.dev (32 + i)).latch ∧ on e 0x208 (33 + i) = on s.dev 0x208 (33 + i)) ∧
        (∀ j, j ≠ 32 + i → laneS e j = laneS s.dev j) ∧ e.lanes.metro = s.dev.lanes.metro ∧
        Framed [.lanes, .pair] [(0x200, 33 + i), (0x208, 33 + i)] s.dev e) := by
  have hx : onPart (decide (i < 16)) (ifRun (dispUpFrame i f)) (fresh s) = _ :=
    (if_pos (by simpa using hi)).trans ((if_pos hr).trans (dispUpFrame_sound (d := fresh s) hr hi hb hs h3 hrec hup))
  refine act_completes (f := onPart (decide (i < 16)) (ifRun (dispUpFrame i f))) rfl (fun e he => ?_)
  rw [hx] at he
  dsimp only at he
  have hl : 32 + i < 50 := by omega
  obtain ⟨recs, hy⟩ := takeRecs_recs (dispE (fresh s) i).first rs (upAwake (32 + i) (fresh s))
  generalize hy' : forEach rs (takeRec (dispE (fresh s) i).first) (upAwake (32 + i) (fresh s)) = y at he hy
  have hys : ∀ j, laneS y j = laneS (upAwake (32 + i) (fresh s)) j := fun j => by rw [hy]; rfl
  have hyo : ∀ num sub, on y num sub = on (upAwake (32 + i) (fresh s)) num sub := fun num sub => by rw [hy]; rfl
  have ha : Framed [.lanes, .pair] [(0x200, 32 + i + 1), (0x208, 32 + i + 1)] (fresh s) y := by
    rw [hy]
    exact ((upAwake_framed (32 + i) (fresh s) hl).mono (by simp) (by simp)).lanes (by simp) _
  obtain ⟨ls, hls⟩ := upAwake_lanes (32 + i) (fresh s)
  have hym : y.lanes.metro = s.dev.lanes.metro := by
    rw [hy]
    change (upAwake (32 + i) (fresh s)).lanes.metro = _
    rw [hls]
    rfl
  have hq : seqDue y f.seq = seqDue s.dev f.seq := (seqDue_congr (d := fresh s) (ha.1 .time (by simp)) _)
  have h33 : 33 + i = 32 + i + 1 := by omega
  rw [hq] at he
  rw [h33]
  split at he
  case isTrue hd =>
    have hedge := raiseIf_follows ((fieldLe f.body 0 4).testBit 12 && !((laneS (fresh s) (32 + i)).status.testBit 12)) 0x0A11 (32 + i) y
    have hk : laneS e (32 + i) = _ := (laneS_congr (he.part .lanes) _).trans (laneS_latchUp_same hl)
    rw [if_pos hd]
    refine ⟨⟨?_, ?_, ?_⟩, ?_, ?_, ?_⟩
    · rw [hk]
    · rw [he.on _ _ (by omega) (moves_counted (counted_of_lt _ (by decide))), on_latchUp_epoch]
    · rw [hk]
    · intro j hj
      rw [laneS_congr (he.part .lanes), laneS_latchUp_other hl hj, laneS_congr (hedge.part .lanes), hys, laneS_upAwake_other _ _ hj]
      rfl
    · rw [show e.lanes = _ from he.part .lanes, latchUp_lanes hl, ← hym, ← show _ = y.lanes from hedge.part .lanes]
      rfl
    · exact .of_fresh (((ha.follow hedge).trans ((latchUp_framed hl).mono (by simp) (by simp))).follow he)
  case isFalse hd =>
    have hk : laneS e (32 + i) = _ := ((laneS_congr (he.part .lanes) _).trans (hys _)).trans (laneS_upAwake_same _ _)
    rw [if_neg hd]
    refine ⟨⟨?_, ?_⟩, ?_, ?_, ?_⟩
    · rw [hk]
      rfl
    · rw [he.on _ _ (by omega) (moves_counted (counted_of_lt _ (by decide))), hyo,
        (upAwake_framed (32 + i) (fresh s) hl).on_eq (by omega) (counted_of_lt _ (by decide)) (by simp)]
      rfl
    · intro j hj
      rw [laneS_congr (he.part .lanes), hys, laneS_upAwake_other _ _ hj]
      rfl
    · rw [show e.lanes = _ from he.part .lanes, hym]
    · exact .of_fresh (ha.follow he)

/-- Settles O26: the frames of the stages and of the dispensers. -/
theorem upstreamFrames : Obligations.UpstreamFrames := fun _ _ hr =>
  ⟨fun _ hk hb hs h1 hok hup => stageUp_accepts hr hk hb hs h1 hok hup, fun _ hk hb h => stageUp_rejects hr hk hb h,
    fun _ _ hi hb hs h3 hrec hup => dispUp_accepts hr hi hb hs h3 hrec hup, fun _ hi hb h => dispUp_rejects hr hi hb h⟩

end Sys2Proof

/-! Single bits of the words that the model writes, and what an association list shows of the entry set last. -/

namespace Sys2Proof

open Machine

theorem testBit_clearMask (n m i : Nat) : (clearMask n m).testBit i = (n.testBit i && !m.testBit i) := by
  have hle : ∀ n m : Nat, n &&& m ≤ n := fun _ _ => Nat.and_le_left
  have hmod : ∀ n m : Nat, (n &&& m) % 2 = 1 ↔ n % 2 = 1 ∧ m % 2 = 1 := fun _ _ => Nat.and_mod_two_eq_one
  induction i generalizing n m with
  | zero =>
    have h1 := hle n m
    have h2 := hmod n m
    have h3 : clearMask n m % 2 = 1 ↔ n % 2 = 1 ∧ ¬ m % 2 = 1 := by unfold clearMask; omega
    rw [Bool.eq_iff_iff]
    simp [Nat.testBit_zero, h3]
  | succ i ih =>
    have h1 := hle n m
    have h2 := hmod n m
    have h3 : clearMask n m / 2 = clearMask (n / 2) (m / 2) := by
      unfold clearMask
      rw [← Nat.and_div_two]
      omega
    rw [Nat.testBit_succ, h3, ih, Nat.testBit_succ, Nat.testBit_succ]

theorem testBit_clearBit (n i j : Nat) : (clearBit n i).testBit j = (n.testBit j && decide (i ≠ j)) := by
  rw [clearBit, testBit_clearMask, Nat.one_shiftLeft, Nat.testBit_two_pow]
  simp

theorem testBit_setBit (n i j : Nat) : (setBit n i).testBit j = (n.testBit j || decide (i = j)) := by
  rw [setBit, Nat.testBit_or, Nat.one_shiftLeft, Nat.testBit_two_pow]

theorem alGet_alSet_same {α : Type} (l : List (Nat × α)) (k : Nat) (a : α) : alGet (alSet l k a) k = some a := by
  induction l with
  | nil => simp [alSet, alGet]
  | cons p l ih =>
    obtain ⟨j, b⟩ := p
    unfold alSet
    split
    · simp [alGet]
    · split
      · simp [alGet]
      case isFalse h =>
        have hj : (j == k) = false := by simpa using fun e => h e.symm
        rw [alGet, List.find?_cons, hj]
        exact ih

end Sys2Proof

/-! Clears and commands that take effect at a boundary (R27, R172, R200, R242, R244, R250, R260, R280, R281, R434). -/

namespace Sys2Proof

open Machine

/-! ### The command that an entry holds -/

section

variable {sub level role v : Nat} {d : Dev}

/-- The pending entry of a command. -/
def commandAt (num sub level role v : Nat) : Pend :=
  { num := num, sub := sub, val := .num v, level := level, cmd := true, role := role }

theorem applyPend_command {num : Nat} (hn : num ≠ 0x603) :
    applyPend (commandAt num sub level role v) d = applyCmd (commandAt num sub level role v) d := if_neg hn

theorem locate_dev {num : Nat} (h : num < 0x4100) : locate num = some { blk := .dev, off := num } := if_pos h

theorem locate_stg {k off : Nat} (hk : k < 32) (ho : off < 0x40 ∨ 0xC0 ≤ off) (h : off < 0x400) :
    locate (oStg k off) = some { blk := .stg, inst := k, off := off } := by
  have hi : (0x8000 + 0x400 * k + off - 0x8000) / 0x400 = k := by omega
  have hj : (0x8000 + 0x400 * k + off - 0x8000) % 0x400 = off := by omega
  unfold locate oStg
  rw [if_neg (by omega), if_neg (by omega), if_neg (by omega), if_pos (by omega), hi, hj]
  exact if_neg (by omega)

theorem locate_con {c off : Nat} (hc : c < 64) (h : off < 0x100) :
    locate (oCon c off) = some { blk := .con, inst := c, off := off } := by
  have hi : (0x10000 + 0x100 * c + off - 0x10000) / 0x100 = c := by omega
  have hj : (0x10000 + 0x100 * c + off - 0x10000) % 0x100 = off := by omega
  unfold locate oCon
  rw [if_neg (by omega), if_neg (by omega), if_neg (by omega), if_neg (by omega), if_pos (by omega), hi, hj]

theorem locate_lch {n off : Nat} (hn : n < 32) (h : off < 16) :
    locate (oLch n off) = some { blk := .lch, inst := n, off := off } := by
  have hi : (0x4100 + 0x10 * n + off - 0x4100) / 16 = n := by omega
  have hj : (0x4100 + 0x10 * n + off - 0x4100) % 16 = off := by omega
  unfold locate oLch
  rw [if_neg (by omega), if_pos (by omega), hi, hj]

theorem applyPend_dev {num : Nat} (h : num < 0x4100) (hn : num ≠ 0x603) :
    applyPend (commandAt num sub level role v) d = devCmd (commandAt num sub level role v) d := by
  rw [applyPend_command hn, applyCmd, show locate (commandAt num sub level role v).num = _ from locate_dev h]

/-- The clears of a stage. -/
theorem applyPend_stg {k off : Nat} (hk : k < 32) (ho : off < 0x40 ∨ 0xC0 ≤ off) (h : off < 0x400) :
    applyPend (commandAt (oStg k off) sub level role v) d =
      if off = 0x0C then scClearEffect k v d
      else if off = 0x106 then shortClearEffect k v d
      else if off = 0x180 then stgSeqClear k v d
      else if off = 0x1C3 then stgThermClear k v d
      else clearBits (oStg k off) sub v d := by
  rw [applyPend_command (by unfold oStg; omega), applyCmd,
    show locate (commandAt (oStg k off) sub level role v).num = _ from locate_stg hk ho h]
  rfl

theorem applyPend_node {c : Nat} (hc : c < 64) :
    applyPend (commandAt (oCon c 0x35) sub level role v) d = if v = 1 then nodeClear c d else d := by
  rw [applyPend_command (by unfold oCon; omega), applyCmd,
    show locate (commandAt (oCon c 0x35) sub level role v).num = _ from locate_con hc (by decide)]
  rfl

theorem applyPend_conTherm {c : Nat} (hc : c < 64) :
    applyPend (commandAt (oCon c 0x48) sub level role v) d = conThermClear c v d := by
  rw [applyPend_command (by unfold oCon; omega), applyCmd,
    show locate (commandAt (oCon c 0x48) sub level role v).num = _ from locate_con hc (by decide)]
  rfl

theorem applyPend_lch {n : Nat} (hn : n < 32) : applyPend (commandAt (oLch n 4) sub level role v) d = lchClear n v d := by
  rw [applyPend_command (by unfold oLch; omega), applyCmd,
    show locate (commandAt (oLch n 4) sub level role v).num = _ from locate_lch hn (by decide)]
  rfl

end

/-! ### The references -/

section

variable {d : Dev}

theorem timeStatusClear_ok (h2 : (on d 0x185 0).testBit 2 = true) (h0 : (on d 0x185 0).testBit 0 = true) :
    timeStatusClear 4 d = put 0x185 0 (clearBit (on d 0x185 0) 2) { d with time := { d.time with src := .refclk } } :=
  if_pos (by rw [h2, h0]; rfl)

theorem timeStatusClear_lost (h0 : (on d 0x185 0).testBit 0 = false) : timeStatusClear 4 d = put 0x185 0 (on d 0x185 0) d := by
  have h : timeStatusClear 4 d = _ := if_neg (by rw [h0]; simp)
  rw [h, show clearBit 4 2 = 0 from rfl, clearMask, Nat.and_zero, Nat.sub_zero]

/-! ### Stages -/

theorem scClearEffect_clears {k v : Nat} (h : on d (oStg k 0x0B) 0 &&& v ≠ 0) :
    scClearEffect k v d = { put (oStg k 0x0B) 0 (clearMask (on d (oStg k 0x0B) 0) v) d with
      lanes := { d.lanes with clearBlock := alSet d.lanes.clearBlock k true } } := if_neg h

theorem forEach_modGrp_os (l : List Nat) (k : Nat) (g : GrpS → GrpS) (d : Dev) : (forEach l (fun i => modGrp k i g) d).os = d.os := by
  induction l generalizing d with
  | nil => rfl
  | cons i l ih => exact ih (modGrp k i g d)

theorem on_shortClearEffect {k v : Nat} (hv : v < 16) :
    on (shortClearEffect k v d) (oStg k 0x105) 0 = clearMask (on d (oStg k 0x105) 0) (v * 0x1110) := by
  have ho : ∀ num sub, on (forEach (bitsSet 4 v) (fun g => modGrp k g (fun x => { x with retry := false })) d) num sub = on d num sub :=
    fun num sub => by rw [on, ov, forEach_modGrp_os, ← ov, ← on]
  unfold shortClearEffect
  dsimp only
  rw [on_put_same, ho, Nat.mod_eq_of_lt hv]

end

/-! ### Sequencers -/

section

variable {d : Dev}

theorem nSeq_nodeClear_same {n : Nat} (h : (nSeq d n).state = 7) :
    nSeq (nodeClear n d) n = { (nSeq d n).goto 0 with cmd := clearBit (nSeq d n).cmd 17, need0 := true } := by
  rw [nodeClear, if_pos h]
  exact nSeq_modNSeq_same _ _ _

theorem nSeq_nodeClear_other {n m : Nat} (h : n ≠ m) : nSeq (nodeClear n d) m = nSeq d m := by
  unfold nodeClear
  split
  · exact nSeq_modNSeq_other _ _ _ _ h
  · rfl

theorem on_nodeClear {c : Nat} (hc : c < 64) (h : (nSeq d c).state = 7) : on (nodeClear c d) (oCon c 0x32) 1 = 0 := by
  rw [nodeClear, if_pos h, nodeSeqO, if_pos hc, on_put_same]

/-- The clear of a list of nodes acts on each of them. -/
theorem nSeq_nodeClears_mem {l : List Nat} {t : Nat} (ht : t ∈ l) (h : (nSeq d (64 + t)).state = 7) :
    (nSeq (forEach l (fun t => nodeClear (64 + t)) d) (64 + t)).state = 0 ∧
      (nSeq (forEach l (fun t => nodeClear (64 + t)) d) (64 + t)).cmd = clearBit (nSeq d (64 + t)).cmd 17 := by
  have hstay : ∀ (l : List Nat) (e : Dev), (nSeq e (64 + t)).state = 0 →
      nSeq (forEach l (fun t => nodeClear (64 + t)) e) (64 + t) = nSeq e (64 + t) := by
    intro l
    induction l with
    | nil => exact fun _ _ => rfl
    | cons a l ih =>
      intro e he
      have ha : nSeq (nodeClear (64 + a) e) (64 + t) = nSeq e (64 + t) := by
        by_cases hat : a = t
        · rw [nodeClear, if_neg (by rw [hat, he]; decide)]
        · exact nSeq_nodeClear_other (by omega)
      exact (ih _ (by rw [ha, he])).trans ha
  induction l generalizing d with
  | nil => exact absurd ht List.not_mem_nil
  | cons a l ih =>
    by_cases hat : a = t
    · subst hat
      have hc := nSeq_nodeClear_same h
      have hs : nSeq (forEach (a :: l) (fun t => nodeClear (64 + t)) d) (64 + a) = _ := (hstay l (nodeClear (64 + a) d) (by rw [hc]; rfl)).trans hc
      exact ⟨by rw [hs]; rfl, by rw [hs]⟩
    · have ho : nSeq (nodeClear (64 + a) d) (64 + t) = nSeq d (64 + t) := nSeq_nodeClear_other (by omega)
      have hi := ih (d := nodeClear (64 + a) d) (List.mem_of_ne_of_mem (Ne.symm hat) ht) (by rw [ho, h])
      rwa [ho] at hi

theorem gSeq_modGSeq_other {s g h : Nat} (f : GSeq → GSeq) (hg : g ≠ h) : gSeq (modGSeq s g f d) s h = gSeq d s h :=
  getD_modAt_other _ _ _ _ (by omega)

theorem idle_state (q : GSeq) : q.idle.state = 0 := rfl

/-- One group of a stage leaves FAULT. -/
def groupClear (s g : Nat) (d : Dev) : Dev :=
  if (gSeq d s g).state = 9 then put (oGrp s g 0x19) 1 0 (modGSeq s g GSeq.idle d) else d

theorem stgSeqClear_eq (s m : Nat) (d : Dev) : stgSeqClear s m d = forEach (bitsSet 4 m) (groupClear s) d := rfl

theorem gSeq_groupClear_same {s g : Nat} (h : (gSeq d s g).state = 9) : gSeq (groupClear s g d) s g = (gSeq d s g).idle := by
  rw [groupClear, if_pos h]
  exact gSeq_modGSeq_same _ _ _ _

theorem gSeq_groupClear_other {s g h : Nat} (hg : g ≠ h) : gSeq (groupClear s g d) s h = gSeq d s h := by
  unfold groupClear
  split
  · exact gSeq_modGSeq_other _ hg
  · rfl

theorem gSeq_groupClears_not_mem {s g : Nat} {l : List Nat} (h : g ∉ l) : gSeq (forEach l (groupClear s) d) s g = gSeq d s g := by
  induction l generalizing d with
  | nil => rfl
  | cons a l ih =>
    obtain ⟨ha, hl⟩ := not_or.1 (List.mem_cons.not.1 h)
    exact (ih hl).trans (gSeq_groupClear_other (Ne.symm ha))

/-- A group that is not in FAULT stays as it is. -/
theorem gSeq_groupClears_kept {s g : Nat} (l : List Nat) (h : (gSeq d s g).state ≠ 9) :
    gSeq (forEach l (groupClear s) d) s g = gSeq d s g := by
  induction l generalizing d with
  | nil => rfl
  | cons a l ih =>
    have ha : gSeq (groupClear s a d) s g = gSeq d s g := by
      by_cases hag : a = g
      · rw [groupClear, if_neg (by rw [hag]; exact h)]
      · exact gSeq_groupClear_other hag
    exact (ih (by rw [ha]; exact h)).trans ha

theorem gSeq_groupClears_mem {s g : Nat} {l : List Nat} (hg : g ∈ l) (h : (gSeq d s g).state = 9) :
    gSeq (forEach l (groupClear s) d) s g = (gSeq d s g).idle := by
  induction l generalizing d with
  | nil => exact absurd hg List.not_mem_nil
  | cons a l ih =>
    by_cases hag : a = g
    · subst hag
      have hc := gSeq_groupClear_same (s := s) h
      exact (gSeq_groupClears_kept l (by rw [hc, idle_state]; decide)).trans hc
    · have ho : gSeq (groupClear s a d) s g = gSeq d s g := gSeq_groupClear_other hag
      have hi := ih (d := groupClear s a d) (List.mem_of_ne_of_mem (Ne.symm hag) hg) (by rw [ho, h])
      rwa [ho] at hi

theorem mem_bitsSet {w n i : Nat} : i ∈ bitsSet w n ↔ i < w ∧ n.testBit i = true := by simp [bitsSet]

/-- The clear of a stage's groups acts on those that its mask names. -/
theorem gSeq_stgSeqClear {s g v : Nat} (hg : g < 4) (h : (gSeq d s g).state = 9) :
    gSeq (stgSeqClear s v d) s g = if v.testBit g then (gSeq d s g).idle else gSeq d s g := by
  rw [stgSeqClear_eq]
  split
  case isTrue hv => exact gSeq_groupClears_mem (mem_bitsSet.2 ⟨hg, hv⟩) h
  case isFalse hv => exact gSeq_groupClears_not_mem (fun hm => hv (mem_bitsSet.1 hm).2)

end

/-! ### Thermal latches -/

section

variable {d : Dev}

theorem mem_addClear_same {key : Nat} {latched : Bool} (h : latched = true) : key ∈ (addClear key latched d).therm.clearDue := by
  unfold addClear
  split
  · exact List.mem_append_right _ (by simp)
  case isFalse hc => simp_all

theorem mem_addClear_mono {key k : Nat} {latched : Bool} (h : k ∈ d.therm.clearDue) : k ∈ (addClear key latched d).therm.clearDue := by
  unfold addClear
  split
  · exact List.mem_append_left _ h
  · exact h

/-- The clear of a connector's latch is due. -/
theorem mem_conThermClear {c j v : Nat} (hj : j < 2) (hv : v.testBit j = true) (hw : (on d (oCon c 0x41) 3).testBit j = true) :
    thKey false c j ∈ (conThermClear c v d).therm.clearDue := by
  have hb : (v.testBit j && (on d (oCon c 0x41) 3).testBit j) = true := by rw [hv, hw]; rfl
  rcases Nat.lt_succ_iff_lt_or_eq.1 hj with h0 | rfl
  · obtain rfl : j = 0 := by omega
    exact mem_addClear_mono (mem_addClear_same hb)
  · exact mem_addClear_same hb

end

/-! ### Load channels -/

section

variable {n : Nat} {d : Dev}

theorem lch_lchClear_lock : (lch (lchClear n 1 d) n).locked = false ∧ (lch (lchClear n 1 d) n).retries = 0 ∧
    (lch (lchClear n 1 d) n).latch = (lch d n).latch := by
  have h : lch (lchClear n 1 d) n = _ := lch_modLch_same d n _
  rw [h]
  split
  · exact ⟨rfl, rfl, rfl⟩
  case isFalse hc => exact ⟨by simpa using fun e => hc (.inl e), by by_contra e; exact hc (.inr e), rfl⟩

theorem lch_lchClear_latch : (lch (lchClear n 2 d) n).latch = false ∧ (lch (lchClear n 2 d) n).locked = (lch d n).locked := by
  have h : lch (lchClear n 2 d) n = _ := lch_modLch_same d n _
  rw [h]
  split
  · exact ⟨rfl, rfl⟩
  case isFalse hc => exact ⟨by simpa using hc, rfl⟩

end

/-! ### The record store -/

/-- What of the store's format holds through the entries that go in: its state and its mount bits, and the events raised. -/
structure KeepsFormat (d e : Dev) : Prop where
  fmt : e.flash.fmt = d.flash.fmt
  mounted : (on e 0x3300 0).testBit 0 = (on d 0x3300 0).testBit 0
  foreign : (on e 0x3300 0).testBit 2 = (on d 0x3300 0).testBit 2
  told : ∀ c i b, raised d c i b = true → raised e c i b = true

namespace KeepsFormat

variable {d e f : Dev}

theorem refl (d : Dev) : KeepsFormat d d := ⟨rfl, rfl, rfl, fun _ _ _ h => h⟩

theorem trans (h : KeepsFormat d e) (k : KeepsFormat e f) : KeepsFormat d f :=
  ⟨k.fmt.trans h.fmt, k.mounted.trans h.mounted, k.foreign.trans h.foreign, fun _ _ _ x => k.told _ _ _ (h.told _ _ _ x)⟩

/-- An update that leaves the format, the objects and the events alone. -/
theorem of_same (hf : e.flash.fmt = d.flash.fmt) (ho : e.os = d.os) (hv : e.ev = d.ev) : KeepsFormat d e :=
  have hs : on e 0x3300 0 = on d 0x3300 0 := by rw [on, ov, ho]; rfl
  ⟨hf, by rw [hs], by rw [hs], fun _ _ _ x => by rwa [raised_congr hv]⟩

theorem put {num sub n : Nat} (hs : okey num sub ≠ okey 0x3300 0) (h : KeepsFormat d e) : KeepsFormat d (put num sub n e) :=
  have ho : on (Machine.put num sub n e) 0x3300 0 = on e 0x3300 0 := on_put_other _ _ _ _ _ _ hs
  h.trans ⟨rfl, by rw [ho], by rw [ho], fun _ _ _ x => x⟩

theorem setStatus {bit : Nat} (h0 : bit ≠ 0) (h2 : bit ≠ 2) (h : KeepsFormat d e) : KeepsFormat d (setStatus 0x3300 0 bit e) :=
  h.trans ⟨rfl, by rw [on_setStatus_same, testBit_setBit, decide_eq_false h0, Bool.or_false],
    by rw [on_setStatus_same, testBit_setBit, decide_eq_false h2, Bool.or_false], fun _ _ _ x => x⟩

theorem raise {code inst data : Nat} (h : KeepsFormat d e) : KeepsFormat d (raise code inst data e) :=
  h.trans ⟨rfl, rfl, rfl, fun _ _ _ x => raised_raise_mono _ _ _ _ _ _ _ x⟩

theorem ite {c : Prop} [Decidable c] (h : KeepsFormat d e) (k : KeepsFormat d f) : KeepsFormat d (if c then e else f) := by
  split
  · exact h
  · exact k

theorem forEach {α : Type} {l : List α} {g : α → Dev → Dev} (hg : ∀ a ∈ l, ∀ x, KeepsFormat x (g a x)) (h : KeepsFormat d e) :
    KeepsFormat d (forEach l g e) := by
  induction l generalizing e with
  | nil => exact h
  | cons a l ih => exact ih (fun b hb => hg b (List.mem_cons_of_mem _ hb)) (h.trans (hg a List.mem_cons_self e))

end KeepsFormat

section

variable (i typ : Nat) (body : Bytes) (d : Dev)

theorem partPublish_keepsFormat : KeepsFormat d (partPublish i d) := by
  have hk : ∀ sub, sub < 256 → sub ≠ 0 → okey (0x3310 + i) sub ≠ okey 0x3300 0 := fun sub h1 h2 => by simp [okey]; omega
  exact .ite (.put (hk 3 (by decide) (by decide)) (.put (hk 2 (by decide) (by decide)) (.put (hk 1 (by decide) (by decide)) (.refl d))))
    (.refl d)

theorem recHold_keepsFormat : KeepsFormat d (recHold i typ body d) := by
  have h : KeepsFormat d { d with flash := { d.flash with held := d.flash.held ++ [(i, typ, body)] } } := .of_same rfl rfl rfl
  unfold recHold
  exact .ite (.raise (.put (by decide) h)) h

theorem of_ite_eq {α : Type} {c P : Prop} [Decidable c] {x y z : α} (h : (if c then x else y) = z) (hx : x = z → P) (hy : y = z → P) : P := by
  split at h
  · exact hx h
  · exact hy h

theorem partAdd_keepsFormat {e : Dev} (h : partAdd i typ body d = some e) : KeepsFormat d e := by
  have hm : ∀ f, KeepsFormat d (modPart i f d) := fun f => .of_same rfl rfl rfl
  unfold partAdd at h
  dsimp only at h
  refine of_ite_eq h (fun h => ?_) (fun h => of_ite_eq h (fun h => absurd h (by simp)) (fun h => ?_))
  · exact Option.some.inj h ▸ (hm _).trans (partPublish_keepsFormat i _)
  · refine Option.some.inj h ▸ KeepsFormat.trans ?_ (partPublish_keepsFormat i _)
    have h1 : ∀ c : Bool, ∀ f, KeepsFormat d (if c = true ∧ 2 ≤ i ∧ i ≤ 4 then incr 32 (0x3310 + i) 4 (modPart i f d) else modPart i f d) :=
      fun c f => .ite ((hm f).trans (.put (by simp [okey]; omega) (.refl _))) (hm f)
    exact .ite (.raise (h1 _ _)) (h1 _ _)

theorem recStore_keepsFormat : KeepsFormat d (recStore i typ body d) := by
  unfold recStore
  split
  case h_1 e he =>
    split at he
    · exact partAdd_keepsFormat i typ body d he
    · exact absurd he (by simp)
  case h_2 => exact (KeepsFormat.ite (.setStatus (by decide) (by decide) (.refl d)) (.refl d)).trans (recHold_keepsFormat _ _ _ _)

end

section

variable {r : Nat}

theorem ringStep_keepsFormat (hr : r < 16) (sub n : Nat) (hs : sub < 256) (d : Dev) : KeepsFormat d (ringStep r sub n d) :=
  .put (by simp [okey]; omega) (.refl d)

theorem ringDone_keepsFormat (hr : r < 16) (n : Nat) (d : Dev) : KeepsFormat d (ringDone r n d) :=
  .put (by simp [okey]; omega) (ringStep_keepsFormat hr 2 n (by decide) d)

theorem ringFull_keepsFormat (hr : r < 16) (d : Dev) : KeepsFormat d (ringFull r d) := by
  have h : KeepsFormat d (incr 32 (0x3200 + r) 6 d) := .put (by simp [okey]; omega) (.refl d)
  unfold ringFull
  exact .ite h (.raise (h.trans (.of_same rfl rfl rfl)))

theorem ringPass_keepsFormat (hr : r < 16) (its : List RingItem) {go lost : Dev → Dev} (hg : ∀ d, KeepsFormat d (go d))
    (hl : ∀ d, KeepsFormat d (lost d)) (d : Dev) : KeepsFormat d (ringPass r its go lost d) := by
  have h3 := ringStep_keepsFormat hr 3 its.length (by decide) d
  unfold ringPass
  exact .ite (hg d) (.ite (hl d) (.ite ((h3.trans (ringDone_keepsFormat hr _ _)).trans (hg _))
    (.ite ((ringFull_keepsFormat hr d).trans (hl _)) (h3.trans (.of_same rfl rfl rfl)))))

end

theorem partRing_lt (i : Nat) : partRing i < 16 := by
  unfold partRing
  split
  · decide
  · split
    · decide
    · split <;> decide

theorem recPost_keepsFormat (i typ : Nat) (body : Bytes) (d : Dev) : KeepsFormat d (recPost i typ body d) := by
  unfold recPost
  exact .ite (.refl d) (.ite (recHold_keepsFormat i typ body d)
    (ringPass_keepsFormat (partRing_lt i) _ (recStore_keepsFormat i typ body) (recHold_keepsFormat i typ body) d))

theorem recPostHeld_keepsFormat (only : Nat → Bool) (d : Dev) : KeepsFormat d (recPostHeld only d) := by
  have h : KeepsFormat d { d with flash := { d.flash with held := [] } } := .of_same rfl rfl rfl
  exact .forEach (fun x _ e => .ite (recPost_keepsFormat _ _ _ e) (.of_same rfl rfl rfl)) h

/-- The store in its new format, before its partitions are published (R434). -/
def formatted (d : Dev) : Dev :=
  let l := nextLayout d
  let d := forEach [1, 2, 3, 4] (fun k => put 0x3302 k (l.getD (k - 1) 0)) d
  setStatus 0x3300 0 0 (clrStatus 0x3300 0 3 (clrStatus 0x3300 0 2 { d with flash := { d.flash with
    fmt := 1, layout := l
    parts := ((List.range 6).zip d.flash.parts).map (fun p => if legalPart p.1 then { nextSeq := p.2.nextSeq } else {}) } }))

theorem storeFormat_eq {d : Dev} (h : (on d 0x3300 0).testBit 2 = true) : storeFormat d =
    recPostHeld (fun _ => true) (raise 0x7001 noInst 0 (forEach (List.range 5) partPublish (formatted d))) :=
  if_pos (by rw [h]; rfl)

theorem on_formatted (d : Dev) : ∃ n, on (formatted d) 0x3300 0 = setBit (clearBit (clearBit n 2) 3) 0 :=
  ⟨_, by rw [formatted, on_setStatus_same, on_clrStatus_same, on_clrStatus_same]⟩

/-- A store of another version gets the format of this device (R434). -/
theorem storeFormat_formats {d : Dev} (h : (on d 0x3300 0).testBit 2 = true) :
    (storeFormat d).flash.fmt = 1 ∧ raised (storeFormat d) 0x7001 noInst = true ∧ (on (storeFormat d) 0x3300 0).testBit 0 = true ∧
      (on (storeFormat d) 0x3300 0).testBit 2 = false := by
  obtain ⟨n, hn⟩ := on_formatted d
  have hp : KeepsFormat (formatted d) (forEach (List.range 5) partPublish (formatted d)) :=
    .forEach (fun i _ => partPublish_keepsFormat i) (.refl _)
  have hq := recPostHeld_keepsFormat (fun _ => true) (raise 0x7001 noInst 0 (forEach (List.range 5) partPublish (formatted d)))
  obtain ⟨hf, h0, h2, _⟩ := (hp.raise (code := 0x7001) (inst := noInst) (data := 0)).trans hq
  rw [storeFormat_eq h]
  refine ⟨hf, hq.told _ _ _ (raised_raise _ _ _ _), h0.trans ?_, h2.trans ?_⟩
  · rw [hn, testBit_setBit_same]
  · rw [hn, testBit_setBit, testBit_clearBit, testBit_clearBit]
    simp

/-! ### The rings -/

section

variable {r : Nat}

/-- The state in which a start of a ring leaves it. -/
def Started (r : Nat) (d : Dev) : Prop := (ring d r).stopReq = false ∧ on d (0x3200 + r) 7 = 0

/-- One ring starts. -/
def ringOn (r : Nat) (d : Dev) : Dev := putf (0x3200 + r) 7 false (modRing r (fun x => { x with stopReq := false }) d)

theorem ringOn_starts (d : Dev) : Started r (ringOn r d) :=
  ⟨congrArg RingS.stopReq (ring_modRing_same d r _), on_put_same _ _ _ _⟩

theorem ringOn_keeps_started {q : Nat} {d : Dev} (h : Started r d) : Started r (ringOn q d) := by
  by_cases hq : q = r
  · rw [hq]
    exact ringOn_starts d
  · obtain ⟨hs, ho⟩ := h
    refine ⟨(congrArg RingS.stopReq (ring_modRing_other d q r _ hq)).trans hs, ?_⟩
    have hk : on (ringOn q d) (0x3200 + r) 7 = _ := on_put_other _ _ _ _ _ _ (by simp [okey]; omega)
    exact hk.trans ho

theorem startRings_starts {l : List Nat} (h : r ∈ l) (d : Dev) : Started r (startRings l d) := by
  have hkeep : ∀ (l : List Nat) (e : Dev), Started r e → Started r (startRings l e) := by
    intro l
    induction l with
    | nil => exact fun _ h => h
    | cons q l ih => exact fun e he => ih _ (ringOn_keeps_started he)
  induction l generalizing d with
  | nil => exact absurd h List.not_mem_nil
  | cons q l ih =>
    rcases List.mem_cons.1 h with rfl | h
    · exact hkeep l _ (ringOn_starts d)
    · exact ih h (ringOn q d)

end

/-- Settles O60: the entry of a command does what the effect of its object does. -/
theorem clearsTakeEffect : Obligations.ClearsTakeEffect := by
  intro d role level v act
  have hdev : ∀ {num : Nat}, num < 0x4100 → num ≠ 0x603 → act num 0 = devCmd (commandAt num 0 level role v) d := fun h => applyPend_dev h
  have hstg : ∀ {k off : Nat}, k < 32 → (off < 0x40 ∨ 0xC0 ≤ off) → off < 0x400 → act (oStg k off) 0 = _ := fun h1 h2 h3 => applyPend_stg h1 h2 h3
  refine ⟨?_, ?_, ?_, ?_, ?_, ?_, ?_, ?_, ?_, ?_, ?_, ?_, ?_⟩
  · rintro rfl h2
    have ha : act 0x185 0 = timeStatusClear 4 d := hdev (by decide) (by decide)
    rw [ha]
    refine ⟨fun h0 => ?_, fun h0 => ?_⟩
    · rw [timeStatusClear_ok h2 h0]
      exact ⟨on_put_same _ _ _ _, rfl⟩
    · rw [timeStatusClear_lost h0]
      exact ⟨on_put_same _ _ _ _, rfl⟩
  · intro k hk h
    have ha : act (oStg k 0x0C) 0 = scClearEffect k v d := hstg hk (by decide) (by decide)
    rw [ha, scClearEffect_clears h]
    exact ⟨on_put_same _ _ _ _, alGet_alSet_same _ _ _⟩
  · intro k hk hv
    have ha : act (oStg k 0x106) 0 = shortClearEffect k v d := hstg hk (by decide) (by decide)
    rw [ha, on_shortClearEffect hv]
  · rintro c hc rfl h
    have ha : act (oCon c 0x35) 0 = nodeClear c d := applyPend_node hc
    rw [ha, nSeq_nodeClear_same h]
    exact ⟨rfl, rfl, rfl, on_nodeClear hc h⟩
  · intro t ht hv h
    have ha : act 0x101F 0 = forEach (bitsSet 4 v) (fun t => nodeClear (64 + t)) d := hdev (by decide) (by decide)
    rw [ha]
    exact nSeq_nodeClears_mem (mem_bitsSet.2 ⟨ht, hv⟩) h
  · intro k g hk hg h
    have ha : act (oStg k 0x180) 0 = stgSeqClear k v d := hstg hk (by decide) (by decide)
    rw [ha, gSeq_stgSeqClear hg h]
  · intro c j hc hj hv hw
    have ha : act (oCon c 0x48) 0 = conThermClear c v d := applyPend_conTherm hc
    rw [ha]
    exact mem_conThermClear hj hv hw
  · intro k hk hv hw
    have ha : act (oStg k 0x1C3) 0 = stgThermClear k v d := hstg hk (by decide) (by decide)
    rw [ha]
    exact mem_addClear_same (by rw [hv, hw]; rfl)
  · intro hv hw
    have ha : act 0x286 0 = dieThermClear v d := hdev (by decide) (by decide)
    rw [ha]
    exact mem_addClear_same (by rw [hv, hw]; rfl)
  · rintro n hn rfl
    have ha : act (oLch n 4) 0 = lchClear n 1 d := applyPend_lch hn
    rw [ha]
    exact lch_lchClear_lock
  · rintro n hn rfl
    have ha : act (oLch n 4) 0 = lchClear n 2 d := applyPend_lch hn
    rw [ha]
    exact lch_lchClear_latch
  · rintro rfl h
    have ha : act 0x3304 0 = storeFormat d := hdev (by decide) (by decide)
    rw [ha]
    exact storeFormat_formats h
  · intro r h1 h2 _ hv
    have ha : act 0x3210 0 = dmaCtrl v d := hdev (by decide) (by decide)
    have hr : r ∈ [13, 14, 15].filter (fun r => v.testBit (r + 16)) := List.mem_filter.2 ⟨by simp; omega, hv⟩
    rw [ha]
    exact startRings_starts hr _

end Sys2Proof

/-! Updates that go from lane to lane: what an update of one lane leaves alone, and what it leaves behind when the others have their turn
(R40, R41). -/

namespace Sys2Proof

open Machine

/-- What one turn establishes holds at the end, when no other turn disturbs what it needs and what it leaves. -/
theorem forEach_turn {α : Type} {l : List α} {f : α → Dev → Dev} {j : α} {P Q : Dev → Prop} {d : Dev} (hl : l.Nodup) (hj : j ∈ l)
    (hP : ∀ a ∈ l, a ≠ j → ∀ x, P x → P (f a x)) (hQ : ∀ a ∈ l, a ≠ j → ∀ x, Q x → Q (f a x)) (ht : ∀ x, P x → Q (f j x))
    (h : P d) : Q (forEach l f d) := by
  have hrest : ∀ (m : List α), (∀ a ∈ m, a ∈ l ∧ a ≠ j) → ∀ x, Q x → Q (forEach m f x) := by
    intro m
    induction m with
    | nil => exact fun _ _ hx => hx
    | cons a m ih =>
      intro hm x hx
      have ha := hm a List.mem_cons_self
      exact ih (fun b hb => hm b (List.mem_cons_of_mem _ hb)) _ (hQ a ha.1 ha.2 x hx)
  induction l generalizing d with
  | nil => exact absurd hj List.not_mem_nil
  | cons a l ih =>
    obtain ⟨hal, hnd⟩ := List.nodup_cons.1 hl
    by_cases haj : a = j
    · subst haj
      exact hrest l (fun b hb => ⟨List.mem_cons_of_mem _ hb, fun e => hal (e ▸ hb)⟩) _ (ht d h)
    · exact ih hnd (List.mem_of_ne_of_mem (Ne.symm haj) hj) (fun b hb => hP b (List.mem_cons_of_mem _ hb))
        (fun b hb => hQ b (List.mem_cons_of_mem _ hb)) (hP a List.mem_cons_self haj d h)
        (fun m hm => hrest m (fun b hb => ⟨List.mem_cons_of_mem _ (hm b hb).1, (hm b hb).2⟩))

/-- What holds through every turn holds at the end. -/
theorem forEach_keeps {α : Type} {l : List α} {f : α → Dev → Dev} {P : Dev → Prop} {d : Dev} (hP : ∀ a ∈ l, ∀ x, P x → P (f a x))
    (h : P d) : P (forEach l f d) := by
  induction l generalizing d with
  | nil => exact h
  | cons a l ih => exact ih (fun b hb => hP b (List.mem_cons_of_mem _ hb)) (hP a List.mem_cons_self d h)

theorem stagesBound_nodup (d : Dev) : (stagesBound d).Nodup := List.nodup_range.filter _

theorem dispsBound_nodup (d : Dev) : (dispsBound d).Nodup := List.nodup_range.filter _

theorem attachedLanes_nodup (d : Dev) : (attachedLanes d).Nodup := List.nodup_range.filter _

theorem lt_of_mem_stagesBound {d : Dev} {k : Nat} (h : k ∈ stagesBound d) : k < 32 := List.mem_range.1 (List.mem_filter.1 h).1

theorem lt_of_mem_dispsBound {d : Dev} {i : Nat} (h : i ∈ dispsBound d) : i < 16 := List.mem_range.1 (List.mem_filter.1 h).1

theorem dispsBound_congr {d e : Dev} (h : e.sched = d.sched) : dispsBound e = dispsBound d := by
  have hb : laneBound e = laneBound d := by funext l; rw [laneBound, laneBound, img?, img?, h]
  rw [dispsBound, dispsBound, hb]

theorem stgS_congr {d e : Dev} (h : e.stg = d.stg) (j : Nat) : stgS e j = stgS d j := by rw [stgS, stgS, h]

/-! ### What the sample token does to one lane -/

/-- An update for lane `k`: the other lanes, the other stages, and the counts of their missing frames stay. -/
structure Touches (k : Nat) (d e : Dev) : Prop where
  parts : OnlyParts [.stg, .lanes] d e
  pend : e.os.pend = d.os.pend
  lane : ∀ j, j ≠ k → laneS e j = laneS d j
  stg : ∀ j, j ≠ k → stgS e j = stgS d j
  missed : ∀ n, n < 256 → n ≠ k + 1 → on e 0x202 n = on d 0x202 n

namespace Touches

variable {k : Nat} {d e f : Dev}

theorem refl (k : Nat) (d : Dev) : Touches k d d := ⟨.refl _ _, rfl, fun _ _ => rfl, fun _ _ => rfl, fun _ _ _ => rfl⟩

theorem trans (h : Touches k d e) (g : Touches k e f) : Touches k d f :=
  ⟨h.parts.trans g.parts, g.pend.trans h.pend, fun j hj => (g.lane j hj).trans (h.lane j hj), fun j hj => (g.stg j hj).trans (h.stg j hj),
    fun n hn hk => (g.missed n hn hk).trans (h.missed n hn hk)⟩

theorem of_follows (h : Follows d e) : Touches k d e :=
  ⟨h.parts.mono (by simp), h.pend, fun j _ => laneS_congr (h.part .lanes) j, fun j _ => stgS_congr (h.part .stg) j,
    fun n hn _ => h.on _ _ hn (moves_counted (counted_of_lt n (by decide)))⟩

theorem modLane (g : LaneS → LaneS) (h : Touches k d e) : Touches k d (modLane k g e) :=
  h.trans ⟨fun p hp => by cases p <;> first | rfl | exact fun _ => rfl | exact absurd (by simp) hp, rfl,
    fun j hj => laneS_modLane_other e k j g (Ne.symm hj), fun _ _ => rfl, fun _ _ _ => rfl⟩

theorem modStg (g : StgS → StgS) (h : Touches k d e) : Touches k d (modStg k g e) :=
  h.trans ⟨fun p hp => by cases p <;> first | rfl | exact fun _ => rfl | exact absurd (by simp) hp, rfl, fun _ _ => rfl,
    fun j hj => stgS_modStg_other e k j g (Ne.symm hj), fun _ _ _ => rfl⟩

theorem recs (rs : List RecS) (h : Touches k d e) : Touches k d { e with lanes := { e.lanes with recs := rs } } :=
  h.trans ⟨fun p hp => by cases p <;> first | rfl | exact fun _ => rfl | exact absurd (by simp) hp, rfl, fun _ _ => rfl, fun _ _ => rfl,
    fun _ _ _ => rfl⟩

theorem put {num sub v : Nat} (hk : ∀ n, n < 256 → n ≠ k + 1 → okey num sub ≠ okey 0x202 n) (h : Touches k d e) :
    Touches k d (put num sub v e) :=
  h.trans ⟨(onlyParts_put _ _ _ _).mono (by simp), rfl, fun _ _ => rfl, fun _ _ => rfl, fun n hn hj => on_put_other _ _ _ _ _ _ (hk n hn hj)⟩

theorem raise {code inst data : Nat} (h : Touches k d e) : Touches k d (raise code inst data e) := h.trans (.of_follows (raise_follows _ _ _ _))

theorem ite {c : Prop} [Decidable c] (h : Touches k d e) (g : Touches k d f) : Touches k d (if c then e else f) := by
  split
  · exact h
  · exact g

/-- The missing frame is counted. -/
theorem count (h : Touches k d e) : Touches k d (incr 32 0x202 (k + 1) e) :=
  h.put (fun n _ hn => by simp only [okey]; omega)

/-- A status word of the stage. -/
theorem status {bit : Nat} (h : Touches k d e) : Touches k d (setStatus (oStg k 0x105) 0 bit e) :=
  h.put (fun n hn _ => by simp only [okey, oStg]; omega)

end Touches

/-- An update after the frame is sampled: the lane keeps all but its current body, and the count of its missing frames stays. -/
structure Refines (k : Nat) (d e : Dev) : Prop where
  lane : ∃ c, laneS e k = { laneS d k with cur := c }
  missed : on e 0x202 (k + 1) = on d 0x202 (k + 1)

namespace Refines

variable {k : Nat} {d e f : Dev}

theorem refl (k : Nat) (d : Dev) : Refines k d d := ⟨⟨_, rfl⟩, rfl⟩

theorem trans (h : Refines k d e) (g : Refines k e f) : Refines k d f := by
  obtain ⟨⟨c, hc⟩, hn⟩ := h
  obtain ⟨⟨b, hb⟩, hm⟩ := g
  exact ⟨⟨b, by rw [hb, hc]⟩, hm.trans hn⟩

theorem of_follows (hk : k < 48) (h : Follows d e) : Refines k d e :=
  ⟨⟨_, laneS_congr (h.part .lanes) k⟩, h.on _ _ (by omega) (moves_counted (counted_of_lt _ (by decide)))⟩

theorem modStg (s : Nat) (g : StgS → StgS) (h : Refines k d e) : Refines k d (modStg s g e) := h.trans ⟨⟨_, rfl⟩, rfl⟩

theorem modLane {c : Bytes} (g : LaneS → LaneS) (hg : g (laneS e k) = { laneS e k with cur := c }) (h : Refines k d e) :
    Refines k d (modLane k g e) := h.trans ⟨⟨c, by rw [laneS_modLane_same, hg]⟩, rfl⟩

theorem raise {code inst data : Nat} (h : Refines k d e) : Refines k d (raise code inst data e) := h.trans ⟨⟨_, rfl⟩, rfl⟩

theorem ite {c : Prop} [Decidable c] (h : Refines k d e) (g : Refines k d f) : Refines k d (if c then e else f) := by
  split
  · exact h
  · exact g

theorem status {bit : Nat} (hk : k < 48) (h : Refines k d e) : Refines k d (setStatus (oStg k 0x105) 0 bit e) :=
  h.trans ⟨⟨_, rfl⟩, on_setStatus_other _ _ _ _ _ _ (by simp only [okey, oStg]; omega)⟩

end Refines

end Sys2Proof

/-! The sample token (R40, R143, R195 to R197, R425, R441). -/

namespace Sys2Proof

open Machine

/-! ### A stage's lane -/

section

variable {k : Nat} {d : Dev}

theorem frameStandin_touches (k : Nat) (d : Dev) : Touches k d (frameStandin k d) :=
  .raise (.status (.modStg _ (.modLane _ (.refl k d))))

theorem frameStandin_refines (hk : k < 32) (d : Dev) : Refines k d (frameStandin k d) :=
  .raise (.status (by omega) (.modStg _ _ (.modLane _ rfl (.refl k d))))

theorem enterHold_touches (k : Nat) (d : Dev) : Touches k d (enterHold k d) := .raise (.status (.modStg _ (.refl k d)))

theorem enterHold_refines (hk : k < 32) (d : Dev) : Refines k d (enterHold k d) :=
  .raise (.status (by omega) (.modStg _ _ (.refl k d)))

/-- A lane misses its frame. -/
def missFrame (k : Nat) (d : Dev) : Dev :=
  let e := modLane k (fun l => { l with valid := false, old := l.cur }) d
  if (laneS d k).everUp then incr 32 0x202 (k + 1) e else e

theorem laneS_missFrame : laneS (missFrame k d) k = { laneS d k with valid := false, old := (laneS d k).cur } := by
  unfold missFrame
  dsimp only
  split
  · exact laneS_modLane_same d k _
  · exact laneS_modLane_same d k _

theorem on_missFrame : on (missFrame k d) 0x202 (k + 1) =
    if (laneS d k).everUp = true then incSat 32 (on d 0x202 (k + 1)) else on d 0x202 (k + 1) := by
  unfold missFrame
  dsimp only
  split
  · exact on_incr_same _ _ _ _
  · rfl

theorem missFrame_touches (k : Nat) (d : Dev) : Touches k d (missFrame k d) :=
  .ite (.count (.modLane _ (.refl k d))) (.modLane _ (.refl k d))

/-- The frame that came replaces the last one. -/
def takeFrame (k : Nat) (b : Bytes) (d : Dev) : Dev :=
  modLane k (fun l => { l with cur := b, old := l.cur, latch := none, valid := true }) d

theorem sampleStage_some {b : Bytes} (h : latchedNow d.time.micro (laneS d k) = some b) :
    Touches k d (sampleStage k d) ∧ Refines k (takeFrame k b d) (sampleStage k d) := by
  unfold sampleStage
  dsimp only
  rw [h]
  exact ⟨.modStg _ (.modLane _ (.modLane _ (.refl k d))), .modStg _ _ (.modLane _ rfl (.refl k _))⟩

theorem sampleStage_asleep (h : latchedNow d.time.micro (laneS d k) = none) (hs : (laneS d k).upSleep = true) :
    sampleStage k d = modLane k (fun l => { l with valid := true, old := l.cur }) d := by
  unfold sampleStage
  dsimp only
  rw [h]
  exact if_pos hs

theorem sampleStage_none (h : latchedNow d.time.micro (laneS d k) = none) (hs : (laneS d k).upSleep = false) :
    sampleStage k d =
      if (stgS d k).startLost then modStg k (fun x => { x with validCnt := 0, prevValid := false }) (missFrame k d)
      else if (stgS d k).hold then modStg k (fun x => { x with holdCnt := x.holdCnt + 1, holdEnds := false, validCnt := 0 }) (missFrame k d)
      else if (stgS d k).prevValid then modStg k (fun x => { x with validCnt := 0 }) (frameStandin k (missFrame k d))
      else modStg k (fun x => { x with validCnt := 0 }) (enterHold k (missFrame k d)) := by
  unfold sampleStage
  dsimp only
  rw [h]
  exact if_neg (ne_true_of_eq_false hs)

theorem sampleStage_missing (hk : k < 32) (h : latchedNow d.time.micro (laneS d k) = none) (hs : (laneS d k).upSleep = false) :
    Touches k d (sampleStage k d) ∧ Refines k (missFrame k d) (sampleStage k d) := by
  have ht := missFrame_touches k d
  have hr := Refines.refl k (missFrame k d)
  rw [sampleStage_none h hs]
  exact ⟨.ite (.modStg _ ht) (.ite (.modStg _ ht) (.ite (.modStg _ (ht.trans (frameStandin_touches k _)))
      (.modStg _ (ht.trans (enterHold_touches k _))))),
    .ite (.modStg _ _ hr) (.ite (.modStg _ _ hr) (.ite (.modStg _ _ (frameStandin_refines hk _)) (.modStg _ _ (enterHold_refines hk _))))⟩

/-- What the sample token leaves on the lane of a stage, by what stood there before. -/
structure StageSampled (micro : Nat) (x : LaneS) (n : Nat) (y : LaneS) (m : Nat) : Prop where
  valid : y.valid = ((latchedNow micro x).isSome || x.upSleep)
  old : y.old = x.cur
  latch : (latchedNow micro x).isSome = true → y.latch = none
  missed : m = if y.valid = false ∧ x.everUp = true then incSat 32 n else n

theorem sampleStage_touches (hk : k < 32) (d : Dev) : Touches k d (sampleStage k d) := by
  cases h : latchedNow d.time.micro (laneS d k) with
  | some b => exact (sampleStage_some h).1
  | none =>
    cases hs : (laneS d k).upSleep with
    | true => exact sampleStage_asleep h hs ▸ .modLane _ (.refl k d)
    | false => exact (sampleStage_missing hk h hs).1

theorem sampleStage_samples (hk : k < 32) (d : Dev) : StageSampled d.time.micro (laneS d k) (on d 0x202 (k + 1))
    (laneS (sampleStage k d) k) (on (sampleStage k d) 0x202 (k + 1)) := by
  cases h : latchedNow d.time.micro (laneS d k) with
  | some b =>
    obtain ⟨⟨c, hc⟩, hm⟩ := (sampleStage_some h).2
    have hl : laneS (takeFrame k b d) k = _ := laneS_modLane_same d k _
    rw [hl] at hc
    refine ⟨by rw [hc, h]; rfl, by rw [hc], fun _ => by rw [hc], ?_⟩
    rw [hm, if_neg (by rw [hc]; simp)]
    rfl
  | none =>
    cases hs : (laneS d k).upSleep with
    | true =>
      have hl : laneS (sampleStage k d) k = _ := (congrArg (laneS · k) (sampleStage_asleep h hs)).trans (laneS_modLane_same d k _)
      refine ⟨by rw [hl, h, hs]; rfl, by rw [hl], fun hf => absurd (h ▸ hf) (by decide), ?_⟩
      rw [if_neg (by rw [hl]; simp), sampleStage_asleep h hs]
      rfl
    | false =>
      obtain ⟨⟨c, hc⟩, hm⟩ := (sampleStage_missing hk h hs).2
      rw [laneS_missFrame] at hc
      refine ⟨by rw [hc, h, hs]; rfl, by rw [hc], fun hf => absurd (h ▸ hf) (by decide), ?_⟩
      rw [hm, on_missFrame, hc]
      simp

end

/-! ### The rolling buffer -/

theorem rollTake_follows (k : Nat) (f : FrameRec) (d : Dev) : Follows d (rollTake k f d) := by
  unfold rollTake
  dsimp only
  split
  · exact flash_follows _ d rfl
  · exact flash_follows _ d rfl

theorem rollFrame_follows (k : Nat) (raw : Option Bytes) (d : Dev) : Follows d (rollFrame k raw d) := by
  unfold rollFrame
  split
  · exact .refl d
  · exact ringPass_follows 1 _ _ _ d (by decide) (rollTake_follows k _) .refl

/-- A stage's turn at the sample token. -/
def stageTurn (k : Nat) (d : Dev) : Dev := rollFrame k (latchedNow d.time.micro (laneS d k)) (sampleStage k d)

theorem stageTurn_touches {k : Nat} (hk : k < 32) (d : Dev) : Touches k d (stageTurn k d) :=
  (sampleStage_touches hk d).trans (.of_follows (rollFrame_follows k _ _))

theorem stageTurn_samples {k : Nat} (hk : k < 32) (d : Dev) : StageSampled d.time.micro (laneS d k) (on d 0x202 (k + 1))
    (laneS (stageTurn k d) k) (on (stageTurn k d) 0x202 (k + 1)) := by
  have h : Follows (sampleStage k d) (stageTurn k d) := rollFrame_follows k _ _
  rw [laneS_congr (h.part .lanes), h.on _ _ (by omega) (moves_counted (counted_of_lt _ (by decide)))]
  exact sampleStage_samples hk d

/-! ### A dispenser's lane and the pair lanes -/

/-- What the sample token leaves on a dispenser's lane. -/
def dispLatch (micro : Nat) (x : LaneS) : LaneS :=
  match latchedNow micro x with
  | some b => { x with cur := b, old := x.cur, latch := none, valid := true, missRun := 0 }
  | none => { x with old := x.cur, valid := x.upSleep, missRun := if x.upSleep then 0 else x.missRun + 1 }

theorem sampleDisp_eq (i : Nat) (d : Dev) : ∃ c : Bool, ∃ recs,
    sampleDisp i d =
      let e := modLane (32 + i) (dispLatch d.time.micro) d
      let e := { e with lanes := { e.lanes with recs := recs } }
      if c then incr 32 0x202 (32 + i + 1) e else e := ⟨_, _, rfl⟩

theorem sampleDisp_touches (i : Nat) (d : Dev) : Touches (32 + i) d (sampleDisp i d) := by
  obtain ⟨c, recs, he⟩ := sampleDisp_eq i d
  have h := (Touches.refl (32 + i) d).modLane (dispLatch d.time.micro)
  rw [he]
  exact .ite (.count (h.recs recs)) (h.recs recs)

theorem laneS_sampleDisp (i : Nat) (d : Dev) : laneS (sampleDisp i d) (32 + i) = dispLatch d.time.micro (laneS d (32 + i)) := by
  obtain ⟨c, recs, he⟩ := sampleDisp_eq i d
  rw [he]
  dsimp only
  split
  · exact laneS_modLane_same d _ _
  · exact laneS_modLane_same d _ _

theorem samplePair_touches (l : Nat) (d : Dev) : Touches l d (samplePair l d) := .modLane _ (.refl l d)

/-! ### All lanes -/

/-- Lane and stage `l` are as before, and so is the time. -/
structure Stays (l : Nat) (d e : Dev) : Prop where
  lane : laneS e l = laneS d l
  stg : stgS e l = stgS d l
  missed : on e 0x202 (l + 1) = on d 0x202 (l + 1)
  time : e.time = d.time

theorem Stays.refl (l : Nat) (d : Dev) : Stays l d d := ⟨rfl, rfl, rfl, rfl⟩

theorem Stays.trans {l : Nat} {d e f : Dev} (h : Stays l d e) (g : Stays l e f) : Stays l d f :=
  ⟨g.lane.trans h.lane, g.stg.trans h.stg, g.missed.trans h.missed, g.time.trans h.time⟩

theorem Touches.time {k : Nat} {d e : Dev} (h : Touches k d e) : e.time = d.time := h.parts .time (by simp)

theorem Touches.stays {k l : Nat} {d e : Dev} (h : Touches k d e) (hl : l < 48) (hn : l ≠ k) : Stays l d e :=
  ⟨h.lane l hn, h.stg l hn, h.missed _ (by omega) (by omega), h.time⟩

/-- What the sample token leaves where neither stage nor dispenser nor pair lane has a turn. -/
theorem forEach_stays {α : Type} {l : Nat} {xs : List α} {f : α → Dev → Dev} (h : ∀ a ∈ xs, ∀ x, Stays l x (f a x)) (d : Dev) :
    Stays l d (forEach xs f d) := forEach_keeps (fun a ha x hx => hx.trans (h a ha x)) (.refl l d)

/-- The lanes of the stages, of the dispensers, and of the pair have their turns. -/
def sampleLanes (d : Dev) : Dev :=
  let d := forEach (stagesBound d) stageTurn d
  forEach [48, 49] samplePair (forEach (dispsBound d) sampleDisp d)

theorem sampleToken_due {d : Dev} (hr : running d = true) (hb : d.time.begun = true) (hs : d.time.sampled = false) :
    sampleToken d = { sampleLanes d with time := { (sampleLanes d).time with sampled := true } } :=
  if_neg (by rw [hr, hb, hs]; decide)

theorem sampleToken_idle {d : Dev} (hs : d.time.sampled = true) : sampleToken d = d := if_pos (by rw [hs]; simp)

section

variable (d : Dev)

theorem stageTurns_sched : (forEach (stagesBound d) stageTurn d).sched = d.sched :=
  forEach_keeps (P := fun x => x.sched = d.sched)
    (fun _ ha _ hx => ((stageTurn_touches (lt_of_mem_stagesBound ha) _).parts .sched (by simp)).trans hx) rfl

theorem sampleLanes_eq : sampleLanes d =
    forEach [48, 49] samplePair (forEach (dispsBound d) sampleDisp (forEach (stagesBound d) stageTurn d)) := by
  rw [sampleLanes, dispsBound_congr (stageTurns_sched d)]

/-- The turns of the dispensers and of the pair leave the lanes of the stages. -/
theorem dispTurns_stay {k : Nat} (hk : k < 32) (x : Dev) : Stays k x (forEach [48, 49] samplePair (forEach (dispsBound d) sampleDisp x)) :=
  (forEach_stays (fun i _ y => (sampleDisp_touches i y).stays (by omega) (by omega)) x).trans
    (forEach_stays (fun l hl y => (samplePair_touches l y).stays (by omega) (by simp at hl; omega)) _)

theorem stageTurns_sample {k : Nat} (hk : k ∈ stagesBound d) :
    StageSampled d.time.micro (laneS d k) (on d 0x202 (k + 1)) (laneS (forEach (stagesBound d) stageTurn d) k)
      (on (forEach (stagesBound d) stageTurn d) 0x202 (k + 1)) := by
  have h32 := lt_of_mem_stagesBound hk
  have hstays : ∀ a ∈ stagesBound d, a ≠ k → ∀ x, Stays k x (stageTurn a x) := fun a ha hn x =>
    (stageTurn_touches (lt_of_mem_stagesBound ha) x).stays (by omega) (Ne.symm hn)
  refine forEach_turn (P := Stays k d)
    (Q := fun x => StageSampled d.time.micro (laneS d k) (on d 0x202 (k + 1)) (laneS x k) (on x 0x202 (k + 1)))
    (stagesBound_nodup d) hk (fun a ha hn x hx => hx.trans (hstays a ha hn x)) (fun a ha hn x hx => ?_) (fun x hx => ?_) (.refl k d)
  · rw [(hstays a ha hn x).lane, (hstays a ha hn x).missed]
    exact hx
  · have h := stageTurn_samples h32 x
    rwa [hx.lane, hx.missed, hx.time] at h

theorem sampleLanes_stage {k : Nat} (hk : k ∈ stagesBound d) :
    StageSampled d.time.micro (laneS d k) (on d 0x202 (k + 1)) (laneS (sampleLanes d) k) (on (sampleLanes d) 0x202 (k + 1)) := by
  have hs := dispTurns_stay d (lt_of_mem_stagesBound hk) (forEach (stagesBound d) stageTurn d)
  rw [sampleLanes_eq, hs.lane, hs.missed]
  exact stageTurns_sample d hk

theorem sampleLanes_other {l : Nat} (hl : l ∉ stagesBound d) (h32 : l < 32) : Stays l d (sampleLanes d) := by
  rw [sampleLanes_eq]
  exact (forEach_stays (fun k hk x => (stageTurn_touches (lt_of_mem_stagesBound hk) x).stays (by omega) (by rintro rfl; exact hl hk)) d).trans
    (dispTurns_stay d h32 _)

theorem sampleLanes_disp {i : Nat} (hi : i ∈ dispsBound d) :
    laneS (sampleLanes d) (32 + i) = dispLatch d.time.micro (laneS d (32 + i)) := by
  have h16 := lt_of_mem_dispsBound hi
  have hstage : Stays (32 + i) d (forEach (stagesBound d) stageTurn d) := forEach_stays (fun k hk x =>
    (stageTurn_touches (lt_of_mem_stagesBound hk) x).stays (by omega) (by have := lt_of_mem_stagesBound hk; omega)) d
  have hpair : ∀ x, Stays (32 + i) x (forEach [48, 49] samplePair x) := fun x =>
    forEach_stays (fun l hl y => (samplePair_touches l y).stays (by omega) (by simp at hl; omega)) x
  have hother : ∀ a, a ≠ i → ∀ x, Stays (32 + i) x (sampleDisp a x) := fun a hn x => (sampleDisp_touches a x).stays (by omega) (by omega)
  rw [sampleLanes_eq, (hpair _).lane]
  refine forEach_turn (P := Stays (32 + i) d) (Q := fun x => laneS x (32 + i) = dispLatch d.time.micro (laneS d (32 + i)))
    (dispsBound_nodup d) hi (fun a _ hn x hx => hx.trans (hother a hn x)) (fun a _ hn x hx => ?_) (fun x hx => ?_) hstage
  · rw [(hother a hn x).lane, hx]
  · rw [laneS_sampleDisp, hx.lane, hx.time]

theorem sampleLanes_keeps : OnlyParts [.stg, .lanes] d (sampleLanes d) ∧ (sampleLanes d).os.pend = d.os.pend := by
  have htouch : ∀ {k : Nat} {x e : Dev}, Touches k x e → (OnlyParts [.stg, .lanes] d x ∧ x.os.pend = d.os.pend) →
      OnlyParts [.stg, .lanes] d e ∧ e.os.pend = d.os.pend := fun h hx => ⟨hx.1.trans h.parts, h.pend.trans hx.2⟩
  rw [sampleLanes_eq]
  exact forEach_keeps (P := fun x => OnlyParts [.stg, .lanes] d x ∧ x.os.pend = d.os.pend)
    (fun l _ x => htouch (samplePair_touches l x)) (forEach_keeps (fun i _ x => htouch (sampleDisp_touches i x))
      (forEach_keeps (fun k hk x => htouch (stageTurn_touches (lt_of_mem_stagesBound hk) x)) ⟨.refl _ _, rfl⟩))

end

/-- R40, R195, R425: the sample token of a micro-frame. -/
theorem sampleToken_completes {s : State} (hr : running s.dev = true) (hb : s.dev.time.begun = true) (hs : s.dev.time.sampled = false) :
    Completes .sampleToken s (fun e =>
      e.time = { s.dev.time with sampled := true } ∧
        (∀ k ∈ stagesBound s.dev,
          StageSampled s.dev.time.micro (laneS s.dev k) (on s.dev 0x202 (k + 1)) (laneS e k) (on e 0x202 (k + 1))) ∧
        (∀ i ∈ dispsBound s.dev, laneS e (32 + i) = dispLatch s.dev.time.micro (laneS s.dev (32 + i))) ∧
        (∀ l, l ∉ stagesBound s.dev → l < 32 → laneS e l = laneS s.dev l ∧ stgS e l = stgS s.dev l) ∧
        OnlyParts [.time, .stg, .lanes, .flash] s.dev e ∧ e.os.pend = s.dev.os.pend) := by
  have hx : ifRun sampleToken (fresh s) = _ := (if_pos hr).trans (sampleToken_due (d := fresh s) hr hb hs)
  refine act_completes (f := ifRun sampleToken) rfl (fun e he => ?_)
  rw [hx] at he
  obtain ⟨hparts, hpend⟩ := sampleLanes_keeps (fresh s)
  have hlane : ∀ l, laneS e l = laneS (sampleLanes (fresh s)) l := fun l => laneS_congr (he.part .lanes) l
  refine ⟨?_, fun k hk => ?_, fun i hi => ?_, fun l hl h32 => ?_, ?_, he.pend.trans hpend⟩
  · rw [show e.time = _ from he.part .time, show (sampleLanes (fresh s)).time = _ from hparts .time (by simp)]
    rfl
  · have h32 := lt_of_mem_stagesBound hk
    rw [hlane, he.on _ _ (by omega) (moves_counted (counted_of_lt _ (by decide)))]
    exact sampleLanes_stage (fresh s) hk
  · rw [hlane]
    exact sampleLanes_disp (fresh s) hi
  · have hst := sampleLanes_other (fresh s) hl h32
    exact ⟨(hlane l).trans hst.lane, (stgS_congr (he.part .stg) l).trans hst.stg⟩
  · have h1 : OnlyParts [.time, .stg, .lanes, .flash] (fresh s) (sampleLanes (fresh s)) := hparts.mono (by simp)
    have h2 : OnlyParts [.time, .stg, .lanes, .flash] s.dev (fresh s) := (Framed.of_fresh (.refl _ [] (fresh s))).1
    exact ((h2.trans h1).trans (Framed.time (by simp) (.refl _ [] _) _).1).trans (he.parts.mono (by simp))

end Sys2Proof

/-! The launch token (R41, R124, R127, R132, R134, R143, R197). -/

namespace Sys2Proof

open Machine

/-! ### A lane's turn -/

/-- The turn of lane `a` at the launch token: it moves that lane, the resumption of its stage, and the records and fragments that go. -/
structure LaunchTurn (a : Nat) (d e : Dev) : Prop where
  parts : OnlyParts [.lanes, .stg] d e
  os : e.os = d.os
  lreg : e.lanes.lreg = d.lanes.lreg
  clear : e.lanes.clearBlock = d.lanes.clearBlock
  lane : ∀ j, j ≠ a → laneS e j = laneS d j
  stg : ∀ j, j ≠ a → stgS e j = stgS d j
  lost : ∀ j, (stgS e j).lost = (stgS d j).lost
  sent : ∀ t, t ∈ d.sent → t ∈ e.sent

namespace LaunchTurn

variable {a : Nat} {d e f : Dev}

theorem refl (a : Nat) (d : Dev) : LaunchTurn a d d :=
  ⟨.refl _ _, rfl, rfl, rfl, fun _ _ => rfl, fun _ _ => rfl, fun _ => rfl, fun _ h => h⟩

theorem trans (h : LaunchTurn a d e) (g : LaunchTurn a e f) : LaunchTurn a d f where
  parts := h.parts.trans g.parts
  os := g.os.trans h.os
  lreg := g.lreg.trans h.lreg
  clear := g.clear.trans h.clear
  lane j hj := (g.lane j hj).trans (h.lane j hj)
  stg j hj := (g.stg j hj).trans (h.stg j hj)
  lost j := (g.lost j).trans (h.lost j)
  sent t ht := g.sent t (h.sent t ht)

theorem ite {c : Prop} [Decidable c] (h : LaunchTurn a d e) (g : LaunchTurn a d f) : LaunchTurn a d (if c then e else f) := by
  split
  · exact h
  · exact g

theorem modLane (g : LaneS → LaneS) (d : Dev) : LaunchTurn a d (modLane a g d) :=
  ⟨fun p hp => by cases p <;> first | rfl | exact fun _ => rfl | exact absurd (by simp) hp, rfl, rfl, rfl,
    fun j hj => laneS_modLane_other d a j g (Ne.symm hj), fun _ _ => rfl, fun _ => rfl, fun _ h => h⟩

/-- A stage resumes. -/
theorem resume (d : Dev) : LaunchTurn a d (modStg a (fun x => { x with resume := false }) d) :=
  ⟨fun p hp => by cases p <;> first | rfl | exact fun _ => rfl | exact absurd (by simp) hp, rfl, rfl, rfl,
    fun _ _ => rfl, fun j hj => stgS_modStg_other d a j _ (Ne.symm hj), fun j => by
      by_cases hj : a = j
      · rw [hj, stgS_modStg_same]
      · rw [stgS_modStg_other _ _ _ _ hj], fun _ h => h⟩

theorem sendFrame (l kind : Nat) (fields : Bytes) (d : Dev) : LaunchTurn a d (sendFrame l kind fields d) :=
  ⟨(emit_follows _ d).parts.mono (by simp), rfl, rfl, rfl, fun _ _ => rfl, fun _ _ => rfl,
    fun _ => rfl, fun _ h => List.mem_cons_of_mem _ h⟩

theorem modMetro (c : Nat) (g : MetroS → MetroS) (d : Dev) : LaunchTurn a d (modMetro c g d) :=
  ⟨fun p hp => by cases p <;> first | rfl | exact fun _ => rfl | exact absurd (by simp) hp, rfl, rfl, rfl, fun _ _ => rfl, fun _ _ => rfl,
    fun _ => rfl, fun _ h => h⟩

theorem vehicle (tx : List (Nat × Bytes × Nat)) (sent : List (Nat × Nat)) (d : Dev) :
    LaunchTurn a d { d with lanes := { d.lanes with vethTx := tx, vehSent := sent } } :=
  ⟨fun p hp => by cases p <;> first | rfl | exact fun _ => rfl | exact absurd (by simp) hp, rfl, rfl, rfl, fun _ _ => rfl, fun _ _ => rfl,
    fun _ => rfl, fun _ h => h⟩

end LaunchTurn

/-- The turn notes the change of the lane's fields (R143). -/
def noteFields (l : Nat) (d : Dev) : Dev :=
  if downFields d l = (laneS d l).launched then d
  else modLane l (fun x => { x with launched := downFields d l, busyMajor := true }) d

theorem noteFields_turn (l : Nat) (d : Dev) : LaunchTurn l d (noteFields l d) := .ite (.refl l d) (.modLane _ d)

theorem launchDisp_turn (i : Nat) (d : Dev) : LaunchTurn (32 + i) d (launchDisp i d) := by
  have hm : ∀ (g : Nat → MetroS → MetroS) first l, LaunchTurn (32 + i) d (forEach l (fun j => modMetro (first + j) (g j)) d) := fun g first l =>
    forEach_keeps (P := LaunchTurn (32 + i) d) (fun j _ x hx => hx.trans (.modMetro _ _ x)) (.refl _ d)
  unfold launchDisp
  exact .ite (((hm _ _ _).trans (.vehicle _ _ _)).trans (.sendFrame _ _ _ _)) (.sendFrame _ _ _ _)

/-- What a lane's turn may do once its fields are noted. -/
def launchNoted (l : Nat) (d : Dev) : Dev :=
  if l < 32 then
    if isActive d && !((stgS d l).lost) then modStg l (fun x => { x with resume := false }) (sendFrame l 2 (stageDown d l) d) else d
  else launchDisp (l - 32) d

theorem launchNoted_turn (l : Nat) (d : Dev) : LaunchTurn l d (launchNoted l d) := by
  unfold launchNoted
  split
  · exact .ite ((LaunchTurn.sendFrame _ _ _ d).trans (.resume _)) (.refl l d)
  case isFalse h =>
    have hl := launchDisp_turn (l - 32) d
    rwa [show 32 + (l - 32) = l by omega] at hl

theorem launchLane_turn (l : Nat) (d : Dev) : LaunchTurn l d (launchLane l d) := by
  unfold launchLane
  exact .ite (.refl l d) (.ite (.modLane _ d) ((noteFields_turn l d).trans (launchNoted_turn l _)))

/-- A lane that is UP, and neither sleeps nor wakes, sends. -/
theorem launchLane_sends {l : Nat} {d : Dev} (hup : (laneS d l).st = .up) (hc : (laneS d l).ctl = true)
    (hs : (laneS d l).downSleep = false) (hw : (laneS d l).wakeWait = 0) : launchLane l d = launchNoted l (noteFields l d) := by
  unfold launchLane
  dsimp only
  rw [if_neg (by rw [hup, hc, hs]; decide), if_neg (not_not.2 hw)]
  rfl

/-! ### The fields of the frames -/

/-- What the downstream fields are made of is the same in both. -/
structure SameFields (d e : Dev) : Prop where
  os : e.os = d.os
  sched : e.sched = d.sched
  pair : e.pair = d.pair
  lreg : e.lanes.lreg = d.lanes.lreg
  clear : e.lanes.clearBlock = d.lanes.clearBlock

namespace SameFields

variable {d e : Dev}

theorem refl (d : Dev) : SameFields d d := ⟨rfl, rfl, rfl, rfl, rfl⟩

theorem trans {f : Dev} (h : SameFields d e) (g : SameFields e f) : SameFields d f :=
  ⟨g.os.trans h.os, g.sched.trans h.sched, g.pair.trans h.pair, g.lreg.trans h.lreg, g.clear.trans h.clear⟩

theorem on_eq (h : SameFields d e) : on e = on d := by
  funext num sub
  rw [on, ov, h.os]
  rfl

theorem oq_eq (h : SameFields d e) : oq e = oq d := by
  funext num sub
  rw [oq, oi, h.on_eq]
  rfl

theorem img_eq (h : SameFields d e) : img? e = img? d := congrArg SchedS.image h.sched

theorem stageE_eq (h : SameFields d e) : stageE e = stageE d := by
  funext k
  rw [stageE, h.img_eq]
  rfl

theorem dispE_eq (h : SameFields d e) : dispE e = dispE d := by
  funext k
  rw [dispE, h.img_eq]
  rfl

theorem lregGet_eq (h : SameFields d e) : lregGet e = lregGet d := by
  funext _ _ _ _
  rw [lregGet, h.lreg]
  rfl

theorem isActive_eq (h : SameFields d e) : isActive e = isActive d := by rw [isActive, h.pair]; rfl

theorem dispCommand_eq (h : SameFields d e) (i : Nat) : dispCommand e i = dispCommand d i := by
  unfold dispCommand
  rw [h.on_eq, h.dispE_eq]

theorem coolField_eq (h : SameFields d e) (i code j : Nat) : coolField e i code j = coolField d i code j := by
  unfold coolField
  rw [h.img_eq, h.lregGet_eq, h.dispE_eq, h.oq_eq]

theorem downFields_eq (h : SameFields d e) (l : Nat) : downFields e l = downFields d l := by
  unfold downFields
  simp only [h.lreg, h.dispCommand_eq, h.dispE_eq, h.coolField_eq]

theorem upSleepBit_eq (h : SameFields d e) {l : Nat} (hq : (laneS e l).quiet = (laneS d l).quiet)
    (hb : (laneS e l).busyMajor = (laneS d l).busyMajor) : upSleepBit e l = upSleepBit d l := by
  unfold upSleepBit
  simp only [h.on_eq, hq, hb]

theorem stageDown_eq (h : SameFields d e) {k : Nat} (hr : (stgS e k).resume = (stgS d k).resume) (hu : upSleepBit e k = upSleepBit d k) :
    stageDown e k = stageDown d k := by
  unfold stageDown
  simp only [h.on_eq, h.stageE_eq, h.clear, h.lregGet_eq, hr, hu]

theorem dispDown_eq (h : SameFields d e) {i : Nat} (hu : upSleepBit e (32 + i) = upSleepBit d (32 + i)) (rs : List LaneRec) :
    dispDown e i rs = dispDown d i rs := by
  unfold dispDown
  simp only [h.on_eq, h.dispCommand_eq, h.lregGet_eq, h.isActive_eq, h.coolField_eq, hu]

end SameFields

theorem LaunchTurn.sameFields {a : Nat} {d e : Dev} (h : LaunchTurn a d e) : SameFields d e :=
  ⟨h.os, h.parts .sched (by simp), h.parts .pair (by simp), h.lreg, h.clear⟩

/-- Nothing that the turn of lane `l` reads has changed. -/
structure BeforeTurn (l : Nat) (d e : Dev) : Prop where
  fields : SameFields d e
  lane : laneS e l = laneS d l
  stg : stgS e l = stgS d l
  time : e.time = d.time

theorem BeforeTurn.refl (l : Nat) (d : Dev) : BeforeTurn l d d := ⟨.refl d, rfl, rfl, rfl⟩

theorem BeforeTurn.of_fresh {l : Nat} {s : State} {e : Dev} (h : BeforeTurn l (fresh s) e) : BeforeTurn l s.dev e :=
  ⟨⟨h.fields.os, h.fields.sched, h.fields.pair, h.fields.lreg, h.fields.clear⟩, h.lane, h.stg, h.time⟩

theorem BeforeTurn.turn {l a : Nat} {d e f : Dev} (h : BeforeTurn l d e) (ha : a ≠ l) (g : LaunchTurn a e f) : BeforeTurn l d f :=
  ⟨h.fields.trans g.sameFields, (g.lane l (Ne.symm ha)).trans h.lane, (g.stg l (Ne.symm ha)).trans h.stg,
    (g.parts .time (by simp)).trans h.time⟩

/-- The device with the change of a lane's fields noted, as far as its frame reads it. -/
def withNote (l : Nat) (d : Dev) : Dev :=
  if downFields d l = (laneS d l).launched then d else modLane l (fun x => { x with busyMajor := true }) d

theorem upSleepBit_noteFields {l : Nat} {d e : Dev} (h : BeforeTurn l d e) : upSleepBit (noteFields l e) l = upSleepBit (withNote l d) l := by
  have hf := h.fields.downFields_eq l
  unfold noteFields withNote
  rw [hf, h.lane]
  split
  · exact h.fields.upSleepBit_eq (by rw [h.lane]) (by rw [h.lane])
  · unfold upSleepBit
    rw [laneS_modLane_same, laneS_modLane_same, h.lane, on_modLane, on_modLane, h.fields.on_eq]

theorem withNote_turn (l : Nat) (d : Dev) : LaunchTurn l d (withNote l d) := .ite (.refl l d) (.modLane _ d)

theorem noteFields_sameFields {l : Nat} {d e : Dev} (h : BeforeTurn l d e) : SameFields (withNote l d) (noteFields l e) :=
  have hd := (withNote_turn l d).sameFields
  have he := h.fields.trans (noteFields_turn l e).sameFields
  ⟨he.os.trans hd.os.symm, he.sched.trans hd.sched.symm, he.pair.trans hd.pair.symm, he.lreg.trans hd.lreg.symm, he.clear.trans hd.clear.symm⟩

theorem stgS_noteFields (l j : Nat) (d : Dev) : stgS (noteFields l d) j = stgS d j := by
  unfold noteFields
  split <;> rfl

theorem stgS_withNote (l j : Nat) (d : Dev) : stgS (withNote l d) j = stgS d j := by
  unfold withNote
  split <;> rfl

theorem stageDown_noteFields {l : Nat} {d e : Dev} (h : BeforeTurn l d e) : stageDown (noteFields l e) l = stageDown (withNote l d) l :=
  (noteFields_sameFields h).stageDown_eq (by rw [stgS_noteFields, stgS_withNote, h.stg]) (upSleepBit_noteFields h)

theorem dispDown_noteFields {i : Nat} {d e : Dev} (h : BeforeTurn (32 + i) d e) (rs : List LaneRec) :
    dispDown (noteFields (32 + i) e) i rs = dispDown (withNote (32 + i) d) i rs :=
  (noteFields_sameFields h).dispDown_eq (upSleepBit_noteFields h) rs

/-! ### The frame is sent -/

/-- The frame of a kind went out on a lane, whatever line bits carry it. -/
def Sent (e : Dev) (l kind micro : Nat) (fields : Bytes) : Prop :=
  ∃ bits, .lane l (idleBlock :: frameBlocks (laneFrame kind micro fields)) bits ∈ e.sent

theorem Sent.launched {e : Dev} {l kind micro : Nat} {fields : Bytes} (h : Sent e l kind micro fields) :
    launched e l kind micro fields = true := by
  obtain ⟨bits, h⟩ := h
  exact List.any_eq_true.2 ⟨_, h, by simp⟩

theorem Sent.mono {d e : Dev} {l kind micro : Nat} {fields : Bytes} (h : Sent d l kind micro fields) (hs : ∀ t, t ∈ d.sent → t ∈ e.sent) :
    Sent e l kind micro fields := by
  obtain ⟨bits, h⟩ := h
  exact ⟨bits, hs _ h⟩

theorem sent_sendFrame {t : TimeS} (l kind : Nat) (fields : Bytes) {d : Dev} (h : d.time = t) :
    Sent (sendFrame l kind fields d) l kind t.micro fields := by
  rw [← h]
  exact ⟨_, List.mem_cons_self⟩

/-- A lane sends at the launch token: it is UP, and its downstream direction neither sleeps nor wakes. -/
def Sends (d : Dev) (l : Nat) : Prop :=
  (laneS d l).st = .up ∧ (laneS d l).ctl = true ∧ (laneS d l).downSleep = false ∧ (laneS d l).wakeWait = 0

theorem BeforeTurn.launchLane_sends {l : Nat} {d e : Dev} (h : BeforeTurn l d e) (hs : Sends d l) :
    launchLane l e = launchNoted l (noteFields l e) := by
  obtain ⟨hup, hc, hd, hw⟩ := hs
  exact Sys2Proof.launchLane_sends (by rw [h.lane, hup]) (by rw [h.lane, hc]) (by rw [h.lane, hd]) (by rw [h.lane, hw])

theorem noteFields_time (l : Nat) (d : Dev) : (noteFields l d).time = d.time := (noteFields_turn l d).parts .time (by simp)

theorem launchLane_stage_sends {l : Nat} {d e : Dev} (h : BeforeTurn l d e) (hl : l < 32) (hs : Sends d l) (ha : isActive d = true)
    (hn : (stgS d l).lost = false) : Sent (launchLane l e) l 2 d.time.micro (stageDown (withNote l d) l) := by
  have hact : isActive (noteFields l e) = true := ((noteFields_turn l e).sameFields.isActive_eq.trans h.fields.isActive_eq).trans ha
  have hlost : (stgS (noteFields l e) l).lost = false := by rw [stgS_noteFields, h.stg, hn]
  have hsent := sent_sendFrame l 2 (stageDown (withNote l d) l) ((noteFields_time l e).trans h.time)
  rw [h.launchLane_sends hs, launchNoted, if_pos hl, if_pos (by rw [hact, hlost]; rfl)]
  rw [stageDown_noteFields h]
  exact hsent

/-- On an active unit the records that wait are taken before the frame goes. -/
theorem launchDisp_active (i : Nat) {d : Dev} (ha : isActive d = true) : ∃ y recs tx spent,
    SameFields d y ∧ laneS y (32 + i) = laneS d (32 + i) ∧ y.time = d.time ∧
      launchDisp i d = sendFrame (32 + i) 4 (dispDown y i recs) { y with lanes := { y.lanes with vethTx := tx, vehSent := spent } } := by
  have hm : ∀ (g : Nat → MetroS → MetroS) first l, (fun y => SameFields d y ∧ laneS y (32 + i) = laneS d (32 + i) ∧ y.time = d.time)
      (forEach l (fun j => modMetro (first + j) (g j)) d) := fun g first l =>
    forEach_keeps (P := fun y => SameFields d y ∧ laneS y (32 + i) = laneS d (32 + i) ∧ y.time = d.time)
      (fun _ _ _ ⟨hf, hl, ht⟩ => ⟨hf.trans ⟨rfl, rfl, rfl, rfl, rfl⟩, hl, ht⟩) ⟨.refl d, rfl, rfl⟩
  unfold launchDisp
  dsimp only
  rw [if_pos ha]
  obtain ⟨hf, hl, ht⟩ := hm (fun j s => { s with resend := s.resend.drop ((((resends d i).take (min 255 (dispWords d (32 + i) - 7))).filter
    (fun r => r.index == j)).length) }) (dispE d i).first (List.range (dispE d i).count)
  exact ⟨_, _, _, _, hf, hl, ht, rfl⟩

theorem launchLane_disp_sends {i : Nat} {d e : Dev} (h : BeforeTurn (32 + i) d e) (hs : Sends d (32 + i)) :
    ∃ recs, Sent (launchLane (32 + i) e) (32 + i) 4 d.time.micro (dispDown (withNote (32 + i) d) i recs) ∧
      (isActive d = false → recs = []) := by
  have hact : isActive (noteFields (32 + i) e) = isActive d :=
    (noteFields_turn (32 + i) e).sameFields.isActive_eq.trans h.fields.isActive_eq
  have hi : 32 + i - 32 = i := by omega
  rw [h.launchLane_sends hs, launchNoted, if_neg (by omega), hi]
  cases ha : isActive d with
  | false =>
    have hsent := sent_sendFrame (32 + i) 4 (dispDown (withNote (32 + i) d) i []) ((noteFields_time (32 + i) e).trans h.time)
    refine ⟨[], ?_, fun _ => rfl⟩
    rw [launchDisp, if_neg (by rw [hact, ha]; decide), dispDown_noteFields h]
    exact hsent
  | true =>
    obtain ⟨y, recs, tx, spent, hf, hl, ht, he⟩ := launchDisp_active i (hact.trans ha)
    have hu := hf.upSleepBit_eq (congrArg LaneS.quiet hl) (congrArg LaneS.busyMajor hl)
    have hz : ({ y with lanes := { y.lanes with vethTx := tx, vehSent := spent } } : Dev).time = d.time :=
      ht.trans ((noteFields_time _ _).trans h.time)
    have hd : dispDown y i recs = dispDown (withNote (32 + i) d) i recs := (hf.dispDown_eq hu recs).trans (dispDown_noteFields h recs)
    rw [he, hd]
    exact ⟨recs, sent_sendFrame _ _ _ hz, fun hf => absurd hf (by simp)⟩

/-! ### All lanes -/

/-- The lanes in use have their turns, unless the role is not known yet. -/
def launchLanes (d : Dev) : Dev := if d.pair.role == .electing then d else forEach (attachedLanes d) launchLane d

theorem launchToken_due {d : Dev} (hr : running d = true) (hb : d.time.begun = true) (hl : d.time.launched = false) :
    launchToken d = { launchLanes d with
      time := { (launchLanes d).time with launched := true }, lanes := { (launchLanes d).lanes with clearBlock := [] } } :=
  if_neg (by rw [hr, hb, hl]; decide)

theorem launchToken_idle {d : Dev} (hl : d.time.launched = true) : launchToken d = d := if_pos (by rw [hl]; simp)

section

variable {d : Dev}

theorem mem_attachedLanes {l : Nat} : l ∈ attachedLanes d ↔ l < 48 ∧ laneBound d l = true := by simp [attachedLanes]

theorem launchLanes_eq (h : d.pair.role ≠ .electing) : launchLanes d = forEach (attachedLanes d) launchLane d :=
  if_neg (by simpa using h)

theorem ne_electing_of_isActive (h : isActive d = true) : d.pair.role ≠ .electing := by
  intro he
  rw [isActive, he] at h
  exact absurd h (by decide)

/-- What a lane sends in its turn has gone out when all have had theirs. -/
theorem launchLanes_sends {l kind : Nat} {R : Bytes → Prop} (hl : l ∈ attachedLanes d) (hr : d.pair.role ≠ .electing)
    (h : ∀ x, BeforeTurn l d x → ∃ fields, Sent (launchLane l x) l kind d.time.micro fields ∧ R fields) :
    ∃ fields, Sent (launchLanes d) l kind d.time.micro fields ∧ R fields := by
  rw [launchLanes_eq hr]
  refine forEach_turn (P := BeforeTurn l d) (Q := fun x => ∃ fields, Sent x l kind d.time.micro fields ∧ R fields) (attachedLanes_nodup d)
    hl (fun a _ hn x hx => hx.turn hn (launchLane_turn a x)) (fun a _ _ x hx => ?_) h (.refl l d)
  obtain ⟨fields, hs, hR⟩ := hx
  exact ⟨fields, hs.mono (launchLane_turn a x).sent, hR⟩

theorem launchLanes_keeps : OnlyParts [.lanes, .stg] d (launchLanes d) ∧ (launchLanes d).os = d.os ∧
    ∀ k, (stgS (launchLanes d) k).lost = (stgS d k).lost := by
  unfold launchLanes
  split
  · exact ⟨.refl _ _, rfl, fun _ => rfl⟩
  · exact forEach_keeps (P := fun x => OnlyParts [.lanes, .stg] d x ∧ x.os = d.os ∧ ∀ k, (stgS x k).lost = (stgS d k).lost)
      (fun a _ x ⟨hp, ho, hs⟩ => have ht := launchLane_turn a x; ⟨hp.trans ht.parts, ht.os.trans ho, fun k => (ht.lost k).trans (hs k)⟩)
      ⟨.refl _ _, rfl, fun _ => rfl⟩

end

/-- R41, R134, R143: the launch token of a micro-frame. -/
theorem launchToken_completes {s : State} (hr : running s.dev = true) (hb : s.dev.time.begun = true)
    (hl : s.dev.time.launched = false) : Completes .launchToken s (fun e =>
      e.time = { s.dev.time with launched := true } ∧ e.lanes.clearBlock = [] ∧
        (∀ l ∈ stagesBound s.dev, isActive s.dev = true → Sends s.dev l → (stgS s.dev l).lost = false →
          launched e l 2 s.dev.time.micro (stageDown (withNote l s.dev) l) = true) ∧
        (∀ i ∈ dispsBound s.dev, s.dev.pair.role ≠ .electing → Sends s.dev (32 + i) →
          ∃ recs, launched e (32 + i) 4 s.dev.time.micro (dispDown (withNote (32 + i) s.dev) i recs) = true ∧
            (isActive s.dev = false → recs = [])) ∧
        (∀ k, (stgS e k).lost = (stgS s.dev k).lost) ∧ Framed [.time, .lanes, .stg] [] s.dev e) := by
  have hx : ifRun launchToken (fresh s) = _ := (if_pos hr).trans (launchToken_due (d := fresh s) hr hb hl)
  refine act_completes (f := ifRun launchToken) rfl (fun e he => ?_)
  rw [hx] at he
  obtain ⟨hparts, hos, hlost⟩ := launchLanes_keeps (d := fresh s)
  have hsent : ∀ {l kind fields}, Sent (launchLanes (fresh s)) l kind s.dev.time.micro fields →
      launched e l kind s.dev.time.micro fields = true := fun h => (h.mono he.sent).launched
  refine ⟨?_, ?_, fun l hm ha hs hn => ?_, fun i hm hne hs => ?_, fun k => ?_, ?_⟩
  · rw [show e.time = _ from he.part .time, show (launchLanes (fresh s)).time = _ from hparts .time (by simp)]
    rfl
  · rw [show e.lanes = _ from he.part .lanes]
  · have h32 := lt_of_mem_stagesBound hm
    obtain ⟨_, hsn, rfl⟩ := launchLanes_sends (d := fresh s) (R := (· = stageDown (withNote l s.dev) l))
      (mem_attachedLanes.2 ⟨by omega, (List.mem_filter.1 hm).2⟩) (ne_electing_of_isActive ha)
      (fun x hx => ⟨_, launchLane_stage_sends (d := s.dev) hx.of_fresh h32 hs ha hn, rfl⟩)
    exact hsent hsn
  · have h16 := lt_of_mem_dispsBound hm
    obtain ⟨_, hsn, recs, rfl, hrecs⟩ := launchLanes_sends (d := fresh s)
      (R := fun fields => ∃ recs, fields = dispDown (withNote (32 + i) s.dev) i recs ∧ (isActive s.dev = false → recs = []))
      (mem_attachedLanes.2 ⟨by omega, (List.mem_filter.1 hm).2⟩) hne
      (fun x hx => by
        obtain ⟨recs, h1, h2⟩ := launchLane_disp_sends (d := s.dev) hx.of_fresh hs
        exact ⟨_, h1, recs, rfl, h2⟩)
    exact ⟨recs, hsent hsn, hrecs⟩
  · rw [stgS_congr (he.part .stg)]
    exact hlost k
  · have hf : Framed [.time, .lanes, .stg] [] (fresh s) (launchLanes (fresh s)) := .of_os (hparts.mono (by simp)) hos
    refine .of_fresh (Framed.follow ?_ he)
    exact hf.fields (fun p hq => by cases p <;> first | rfl | exact fun _ => rfl | exact absurd (by simp) hq) rfl

/-- Settles O8: both tokens, and each of them once in a micro-frame. -/
theorem sampleAndLaunchTokens : Obligations.SampleAndLaunchTokens := by
  intro s hr hb
  have hidle : ∀ {c : Instr} {f : Dev → Dev}, exec c s = act f s → f (fresh s) = fresh s → Completes c s (Framed [] [] s.dev) :=
    fun hc hf => act_completes hc (fun e he => by rw [hf] at he; exact .of_fresh ((Framed.refl _ _ _).follow he))
  refine ⟨fun hs => (sampleToken_completes hr hb hs).mono fun e ⟨ht, hst, hd, ho, hp, hq⟩ => ⟨ht, fun k hk => ?_, hd, ho, hp, hq⟩,
    launchToken_completes hr hb, fun hs => ?_, fun hl => ?_⟩
  · obtain ⟨h1, h2, h3, h4⟩ := hst k hk
    exact ⟨h1, h2, h3, h4⟩
  · exact hidle (f := ifRun sampleToken) rfl ((if_pos hr).trans (sampleToken_idle (d := fresh s) hs))
  · exact hidle (f := ifRun launchToken) rfl ((if_pos hr).trans (launchToken_idle (d := fresh s) hl))

end Sys2Proof

/-! The counters of time. Between two moves of the time keeper no function of a boundary touches the frame counters: one rule per
function, `counts_<function>`, in the order of the definitions (R30, R32, R36). -/
namespace Sys2Proof
open Machine

/-- The counters of a unit's time: its sources, its civil time and what it measures are set aside. -/
def counters (t : TimeS) : TimeS :=
  { t with src := .refclk, repSum := 0, repCount := 0, repMax := 0, civil := 0, civilStep := none, slew := 0, lockCount := 0,
           offsetPs := 0 }

/-- The counters of a unit. -/
def counts (d : Dev) : TimeS := counters d.time

@[simp] theorem counts_ite {c : Prop} [Decidable c] (x y : Dev) :
    counts (if c then x else y) = if c then counts x else counts y := by
  split <;> rfl

theorem counts_ite_of {c : Prop} [Decidable c] {x y d : Dev} (hx : counts x = counts d) (hy : counts y = counts d) :
    counts (if c then x else y) = counts d := by
  split
  · exact hx
  · exact hy

/-- Not stated as a definitional equation, so that `simp` can use it in a side goal under a binder; the next three likewise. -/
@[simp] theorem counts_id (d : Dev) : counts (id d) = counts d := congrArg counts (id_eq d)

@[simp] theorem counters_time (d : Dev) : counters d.time = counts d := congrArg counters (id rfl)

@[simp] theorem counts_mk (t : TimeS) (a b c e f g h i j k l m n o p q r s t' u v w x y z) :
    counts ⟨a, b, t, c, e, f, g, h, i, j, k, l, m, n, o, p, q, r, s, t', u, v, w, x, y, z⟩ = counters t := congrArg counters (by simp)

/-- The sources, the civil time and what is measured count nothing. -/
@[simp] theorem counters_mk (t : TimeS) (a b c e f g h i j) :
    counters ⟨a, t.begun, t.code, t.micro, t.minor, t.major, t.tick, t.m, t.k, t.lastLevel, t.sampled, t.launched, b, c, e, f, g, h, i,
      t.refDue, j⟩ = counters t := by
  unfold counters
  rfl

@[simp] theorem counts_forEach {α : Type} {l : List α} {f : α → Dev → Dev} (d : Dev) (h : ∀ a e, counts (f a e) = counts e) :
    counts (forEach l f d) = counts d :=
  forEach_keeps (P := fun e => counts e = counts d) (fun a _ e he => (h a e).trans he) rfl

@[simp] theorem counts_foldl {α : Type} {l : List α} {f : Dev → α → Dev} (d : Dev) (h : ∀ a e, counts (f e a) = counts e) :
    counts (l.foldl f d) = counts d :=
  counts_forEach (f := fun a e => f e a) d h

section
variable (d : Dev)

/-! ### Ops -/

@[simp] theorem counts_put (num sub n : Nat) : counts (put num sub n d) = counts d := congrArg counters (put_time d num sub n)

@[simp] theorem counts_putIf (num sub n : Nat) : counts (putIf num sub n d) = counts d := by simp [putIf]

@[simp] theorem counts_puti (w num sub : Nat) (i : Int) : counts (puti w num sub i d) = counts d :=
  congrArg counters (puti_time d w num sub i)

@[simp] theorem counts_putq (num sub : Nat) (i : Int) : counts (putq num sub i d) = counts d := congrArg counters (putq_time d num sub i)

@[simp] theorem counts_putb (num sub : Nat) (b : Bytes) : counts (putb num sub b d) = counts d := congrArg counters (putb_time d num sub b)

@[simp] theorem counts_putf (num sub : Nat) (b : Bool) : counts (putf num sub b d) = counts d := congrArg counters (putf_time d num sub b)

@[simp] theorem counts_incr (w num sub : Nat) : counts (incr w num sub d) = counts d := congrArg counters (incr_time d w num sub)

@[simp] theorem counts_setStatus (num sub bit : Nat) : counts (setStatus num sub bit d) = counts d :=
  congrArg counters (setStatus_time d num sub bit)

@[simp] theorem counts_clrStatus (num sub bit : Nat) : counts (clrStatus num sub bit d) = counts d :=
  congrArg counters (clrStatus_time d num sub bit)

@[simp] theorem counts_wrStatus (num sub bit : Nat) (b : Bool) : counts (wrStatus num sub bit b d) = counts d :=
  congrArg counters (wrStatus_time d num sub bit b)

@[simp] theorem counts_raise (code inst data : Nat) : counts (raise code inst data d) = counts d :=
  congrArg counters (raise_time d code inst data)

@[simp] theorem counts_emit (t : Tx) : counts (emit t d) = counts d := congrArg counters (emit_time d t)

@[simp] theorem counts_draw (n : Nat) : counts (draw n d).2 = counts d := by simp [draw]

@[simp] theorem counts_modRing (r : Nat) (f : RingS → RingS) : counts (modRing r f d) = counts d := congrArg counters (modRing_time d r f)

@[simp] theorem counts_ringStep (r sub n : Nat) : counts (ringStep r sub n d) = counts d := by simp [ringStep]

@[simp] theorem counts_ringFull (r : Nat) : counts (ringFull r d) = counts d := by simp [ringFull]

@[simp] theorem counts_ringDone (r n : Nat) : counts (ringDone r n d) = counts d := by simp [ringDone]

@[simp] theorem counts_ringPass (r : Nat) (its : List RingItem) (go lost : Dev → Dev)
    (hgo : ∀ e, counts (go e) = counts e) (hlost : ∀ e, counts (lost e) = counts e) : counts (ringPass r its go lost d) = counts d :=
  by simp [ringPass, hgo, hlost]

@[simp] theorem counts_ringTake (r : Nat) (l : List DescS) : counts (ringTake r l d) = counts d := by
  induction l generalizing d with
  | nil => rfl
  | cons x l ih =>
    unfold ringTake
    split
    · rw [ih]
      simp
    · rfl

@[simp] theorem counts_putDflt (num sub n : Nat) : counts (putDflt num sub n d) = counts d := by simp [putDflt]

@[simp] theorem counts_modStg (s : Nat) (f : StgS → StgS) : counts (modStg s f d) = counts d := congrArg counters (modStg_time d s f)

@[simp] theorem counts_modGrp (s g : Nat) (f : GrpS → GrpS) : counts (modGrp s g f d) = counts d := congrArg counters (modGrp_time d s g f)

@[simp] theorem counts_modLane (l : Nat) (f : LaneS → LaneS) : counts (modLane l f d) = counts d := congrArg counters (modLane_time d l f)

/-! ### Slots -/

@[simp] theorem counts_guardLast (cls idx : Nat) : counts (guardLast cls idx d) = counts d := by simp [guardLast]

@[simp] theorem counts_reloadStart (g : Granule) : counts (reloadStart g d) = counts d := by simp [reloadStart]

@[simp] theorem counts_restoreObj (num sub addr : Nat) : counts (restoreObj num sub addr d) = counts d := by simp [restoreObj]

/-! ### Converter -/

@[simp] theorem counts_putList (num sub w : Nat) (l : List Int) : counts (putList num sub w l d) = counts d := by simp [putList]

@[simp] theorem counts_deriveGroup (s g : Nat) : counts (deriveGroup s g d) = counts d := by simp [deriveGroup]

@[simp] theorem counts_deriveStage (s : Nat) : counts (deriveStage s d) = counts d := by simp [deriveStage]

@[simp] theorem counts_deriveAll (s : Nat) : counts (deriveAll s d) = counts d := by simp [deriveAll]

@[simp] theorem counts_deriveI2t (s g : Nat) : counts (deriveI2t s g d) = counts d := by simp [deriveI2t]

@[simp] theorem counts_coefSwap (s before : Nat) : counts (coefSwap s before d) = counts d := by simp [coefSwap]

/-! ### Allocation -/

@[simp] theorem counts_trackEdges : counts (trackEdges d) = counts d := by simp [trackEdges]

@[simp] theorem counts_publishNode (s g : Nat) : counts (publishNode s g d) = counts d := by simp [publishNode]

@[simp] theorem counts_publishReassign : counts (publishReassign d) = counts d := by simp [publishReassign]

/-! ### Keys -/

@[simp] theorem counts_publishSign : counts (publishSign d) = counts d := by simp [publishSign]

@[simp] theorem counts_publishCsr (k : Nat) : counts (publishCsr k d) = counts d := by simp [publishCsr]

@[simp] theorem counts_publishInstalled : counts (publishInstalled d) = counts d := by simp [publishInstalled]

@[simp] theorem counts_remask (num : Nat) : counts (remask num d) = counts d := by simp [remask]

@[simp] theorem counts_siteRolled : counts (siteRolled d) = counts d := by simp [siteRolled]

@[simp] theorem counts_keepPairKey : counts (keepPairKey d) = counts d := by simp [keepPairKey]

@[simp] theorem counts_keyInstall (num : Nat) (key : Bytes) : counts (keyInstall num key d) = counts d := by simp [keyInstall]

@[simp] theorem counts_rollNode (j : Nat) : counts (rollNode j d) = counts d := by simp [rollNode]

@[simp] theorem counts_keyRoll (m : Nat) : counts (keyRoll m d) = counts d := by simp [keyRoll]

@[simp] theorem counts_lcRequest (target unit : Nat) : counts (lcRequest target unit d) = counts d := by simp [lcRequest]

/-! ### Supervision -/

@[simp] theorem counts_publishMeasFrame (s g : Nat) (fresh : Bool) : counts (publishMeasFrame s g fresh d) = counts d :=
  by simp [publishMeasFrame]

@[simp] theorem counts_publishMeasMask (s g : Nat) : counts (publishMeasMask s g d) = counts d := by simp [publishMeasMask]

@[simp] theorem counts_countShort (s g : Nat) : counts (countShort s g d) = counts d := by simp [countShort]

@[simp] theorem counts_cancelRetries (s : Nat) : counts (cancelRetries s d) = counts d := by simp [cancelRetries]

@[simp] theorem counts_shortClearEffect (s m : Nat) : counts (shortClearEffect s m d) = counts d := by simp [shortClearEffect]

@[simp] theorem counts_scClearEffect (s m : Nat) : counts (scClearEffect s m d) = counts d := by simp [scClearEffect]

@[simp] theorem counts_holdEnd (s : Nat) : counts (holdEnd s d) = counts d := by simp [holdEnd]

/-! ### Energy -/

@[simp] theorem counts_modGSeq (s g : Nat) (f : GSeq → GSeq) : counts (modGSeq s g f d) = counts d :=
  congrArg counters (modGSeq_time d s g f)

@[simp] theorem counts_modNSeq (n : Nat) (f : NSeq → NSeq) : counts (modNSeq n f d) = counts d := congrArg counters (modNSeq_time d n f)

@[simp] theorem counts_nodeClear (n : Nat) : counts (nodeClear n d) = counts d := by simp [nodeClear]

@[simp] theorem counts_stgSeqClear (s m : Nat) : counts (stgSeqClear s m d) = counts d := by simp [stgSeqClear]

/-! ### Metering -/

@[simp] theorem counts_modLegal (f : LegalS → LegalS) : counts (modLegal f d) = counts d := congrArg counters (modLegal_time d f)

@[simp] theorem counts_modCh (m : Nat) (f : ChanS → ChanS) : counts (modCh m f d) = counts d := congrArg counters (modCh_time d m f)

@[simp] theorem counts_modIntake (k : Nat) (f : IntakeS → IntakeS) : counts (modIntake k f d) = counts d :=
  congrArg counters (modIntake_time d k f)

@[simp] theorem counts_eachInt (m : Nat) (f : IntS → IntS) (g : SRec → SRec) : counts (eachInt m f g d) = counts d := by simp [eachInt]

@[simp] theorem counts_auxFlags (m : Nat) : counts (auxFlags m d) = counts d := by simp [auxFlags]

@[simp] theorem counts_intFlag (m bit : Nat) : counts (intFlag m bit d) = counts d := by simp [intFlag]

@[simp] theorem counts_intSign (m : Nat) (pos neg : Bool) : counts (intSign m pos neg d) = counts d := by simp [intSign]

@[simp] theorem counts_sortAll (m : Nat) (qs : List Int) : counts (sortAll m qs d) = counts d := by simp [sortAll]

@[simp] theorem counts_publishMetered : counts (publishMetered d) = counts d := by simp [publishMetered]

@[simp] theorem counts_emptyWindow (k : Nat) : counts (emptyWindow k d) = counts d := by simp [emptyWindow]

@[simp] theorem counts_publishIntake : counts (publishIntake d) = counts d := by simp [publishIntake]

@[simp] theorem counts_pulseConfig (x : Nat) : counts (pulseConfig x d) = counts d := by
  unfold pulseConfig
  dsimp only
  split <;> simp

@[simp] theorem counts_modMetro (c : Nat) (f : MetroS → MetroS) : counts (modMetro c f d) = counts d := by simp [modMetro]

@[simp] theorem counts_metroTake (c num : Nat) (b : Bytes) : counts (metroTake c num b d) = counts d := by simp [metroTake]

@[simp] theorem counts_metroDrain (fuel c : Nat) : counts (metroDrain fuel c d) = counts d := by
  induction fuel generalizing d with
  | zero => rfl
  | succ fuel ih =>
    unfold metroDrain
    dsimp only
    split
    · rfl
    · split
      · rw [ih, counts_metroTake]
      · rfl

@[simp] theorem counts_metroMissing (c lo hi : Nat) : counts (metroMissing c lo hi d) = counts d := by simp [metroMissing]

@[simp] theorem counts_metroRequest (c lo hi : Nat) : counts (metroRequest c lo hi d) = counts d := by simp [metroRequest]

@[simp] theorem counts_metroAhead (c num : Nat) (b : Bytes) : counts (metroAhead c num b d) = counts d := by
  unfold metroAhead
  dsimp only
  refine counts_ite_of rfl ?_
  generalize hX : metroDrain 64 c (if _ < num then _ else _) = X
  have h : counts X = counts d := by
    rw [← hX]
    simp
  clear hX
  refine counts_ite_of ?_ h
  split
  · simp [h]
  · exact h

@[simp] theorem counts_metroAccept (c num : Nat) (b : Bytes) : counts (metroAccept c num b d) = counts d := by
  unfold metroAccept
  dsimp only
  split
  · split
    · split <;> simp
    · simp
  · split <;> simp

@[simp] theorem counts_metroDiscard (c why : Nat) : counts (metroDiscard c why d) = counts d := by simp [metroDiscard]

@[simp] theorem counts_metroTaken (c num : Nat) (body : Bytes) : counts (metroTaken c num body d) = counts d := by
  unfold metroTaken
  repeat' split
  all_goals simp

/-! ### RecStore -/

@[simp] theorem counts_modPart (i : Nat) (f : PartS → PartS) : counts (modPart i f d) = counts d := congrArg counters (modPart_time d i f)

@[simp] theorem counts_partPublish (i : Nat) : counts (partPublish i d) = counts d := by simp [partPublish]

@[simp] theorem counts_recHold (i typ : Nat) (body : Bytes) : counts (recHold i typ body d) = counts d := by simp [recHold]

theorem counts_partAdd {i typ : Nat} {body : Bytes} {d e : Dev} (h : partAdd i typ body d = some e) : counts e = counts d := by
  unfold partAdd at h
  dsimp only at h
  refine of_ite_eq h (fun h => ?_) (fun h => of_ite_eq h (fun h => absurd h (by simp)) (fun h => ?_))
  · exact Option.some.inj h ▸ by simp
  · exact Option.some.inj h ▸ by simp

@[simp] theorem counts_recStore (i typ : Nat) (body : Bytes) : counts (recStore i typ body d) = counts d := by
  unfold recStore
  split
  case h_1 e he => exact of_ite_eq he counts_partAdd (fun h => absurd h (by simp))
  case h_2 => simp

@[simp] theorem counts_recPost (i typ : Nat) (body : Bytes) : counts (recPost i typ body d) = counts d := by simp [recPost]

@[simp] theorem counts_recPostHeld (only : Nat → Bool) : counts (recPostHeld only d) = counts d := by simp [recPostHeld]

@[simp] theorem counts_recRepost : counts (recRepost d) = counts d := by simp [recRepost]

@[simp] theorem counts_stopRings (l : List Nat) : counts (stopRings l d) = counts d := by simp [stopRings]

@[simp] theorem counts_startRings (l : List Nat) : counts (startRings l d) = counts d := by simp [startRings]

@[simp] theorem counts_storeFormat : counts (storeFormat d) = counts d := by simp [storeFormat]

@[simp] theorem counts_recRead (k : Nat) : counts (recRead k d).2 = counts d := by simp [recRead]

@[simp] theorem counts_rollTake (s : Nat) (f : FrameRec) : counts (rollTake s f d) = counts d := by simp [rollTake]

@[simp] theorem counts_capTrigger (s code : Nat) : counts (capTrigger s code d) = counts d := by simp [capTrigger]

@[simp] theorem counts_recTrigger (m : Nat) : counts (recTrigger m d) = counts d := by simp [recTrigger]

/-! ### Billing -/

@[simp] theorem counts_tlEntryAt (lsecAt civilAt kind ch : Nat) (data : Bytes) :
    counts (tlEntryAt lsecAt civilAt kind ch data d) = counts d :=
  by simp [tlEntryAt]

@[simp] theorem counts_tlEntry (kind ch : Nat) (data : Bytes) : counts (tlEntry kind ch data d) = counts d := by simp [tlEntry]

@[simp] theorem counts_tickInts (i : IncS) (add : IntS → IntS) : counts (tickInts i add d) = counts d := by simp [tickInts]

@[simp] theorem counts_creditInts (i : IncS) : counts (creditInts i d) = counts d := by simp [creditInts]

@[simp] theorem counts_addInc (i : IncS) : counts (addInc i d) = counts d := by simp [addInc]

@[simp] theorem counts_intRecord (rtype m lsecEnd : Nat) (x : IntS) : counts (intRecord rtype m lsecEnd x d) = counts d :=
  by simp [intRecord]

@[simp] theorem counts_publishDemand (k lsecEnd : Nat) (x : IntS) : counts (publishDemand k lsecEnd x d) = counts d :=
  by simp [publishDemand]

@[simp] theorem counts_finishInt (rtype m lsecEnd : Nat) (x : IntS) : counts (finishInt rtype m lsecEnd x d) = counts d :=
  by simp [finishInt]

@[simp] theorem counts_finishWaits (m : Nat) : counts (finishWaits m d) = counts d := by simp [finishWaits]

@[simp] theorem counts_setInt (rtype i : Nat) (x : IntS) : counts (setInt rtype i x d) = counts d := by simp [setInt]

@[simp] theorem counts_closeInt (rtype i rfl lsecEnd : Nat) : counts (closeInt rtype i rfl lsecEnd d) = counts d := by simp [closeInt]

@[simp] theorem counts_openInt (rtype i rfl : Nat) (cl : Int) : counts (openInt rtype i rfl cl d) = counts d := by simp [openInt]

@[simp] theorem counts_rflagAll (m : Nat) : counts (rflagAll m d) = counts d := by simp [rflagAll]

@[simp] theorem counts_modRec (n : Nat) (f : SRec → SRec) : counts (modRec n f d) = counts d := by simp [modRec]

@[simp] theorem counts_publishPending : counts (publishPending d) = counts d := by simp [publishPending]

@[simp] theorem counts_sessionRecordClose (n _c cause : Nat) : counts (sessionRecordClose n _c cause d) = counts d :=
  by simp [sessionRecordClose]

@[simp] theorem counts_signRecord (r : SRec) (closeRegs : List Nat) (lsecC civilC : Nat) :
    counts (signRecord r closeRegs lsecC civilC d) = counts d :=
  by simp [signRecord]

@[simp] theorem counts_recTick (step : Bool) : counts (recTick step d) = counts d := by simp [recTick]

@[simp] theorem counts_legalBoundary (ns : Nat) : counts (legalBoundary ns d) = counts d := by simp [legalBoundary]

@[simp] theorem counts_setTariff (t src : Nat) : counts (setTariff t src d) = counts d := by simp [setTariff]

@[simp] theorem counts_tariffTick : counts (tariffTick d) = counts d := by simp [tariffTick]

@[simp] theorem counts_legalChanged (num sub size : Nat) (old new : Val) : counts (legalChanged num sub size old new d) = counts d :=
  by simp [legalChanged]

@[simp] theorem counts_periodClose : counts (periodClose d) = counts d := by simp [periodClose]

@[simp] theorem counts_tickUnits : counts (tickUnits d) = counts d := by simp [tickUnits]

@[simp] theorem counts_deliverTick : counts (deliverTick d) = counts d := by simp [deliverTick]

@[simp] theorem counts_deviationOf (m : Nat) : counts (deviationOf m d) = counts d := by simp [deviationOf]

@[simp] theorem counts_pairDeviation : counts (pairDeviation d) = counts d := by simp [pairDeviation]

@[simp] theorem counts_deviationDue (m : Nat) : counts (deviationDue m d) = counts d := by
  unfold deviationDue
  split <;> simp

@[simp] theorem counts_devAdd (m lsecT : Nat) (own mir : Nat × Nat) : counts (devAdd m lsecT own mir d) = counts d := by
  unfold devAdd
  split <;> simp

@[simp] theorem counts_checkpoint : counts (checkpoint d) = counts d := by simp [checkpoint]

@[simp] theorem counts_pageJournal : counts (pageJournal d) = counts d := by simp [pageJournal]

@[simp] theorem counts_closeDue (rtype : Nat) (cl due : Int) (step : Bool) : counts (closeDue rtype cl due step d) = counts d :=
  by simp [closeDue]

@[simp] theorem counts_openDue (rtype rfl : Nat) (cl : Int) : counts (openDue rtype rfl cl d) = counts d := by simp [openDue]

@[simp] theorem counts_displayTick : counts (displayTick d) = counts d := by
  unfold displayTick
  simp only [counts_modLegal, counts_ite, counts_emit, ite_self]
  split
  · rfl
  · split <;> simp

@[simp] theorem counts_billTick : counts (billTick d) = counts d := by
  unfold billTick
  split
  · rfl
  · simp only [counts_modLegal, counts_ite, counts_pageJournal, counts_displayTick, counts_publishIntake, counts_recTick,
      counts_rflagAll, counts_wrStatus, counts_openDue, counts_closeDue, counts_tariffTick, counts_checkpoint, counts_pairDeviation,
      counts_raise, counts_tlEntry, counts_put, counts_tickUnits, counts_forEach _ (fun m e => counts_auxFlags e m),
      counts_ringPass _ _ _ _ _ counts_deliverTick counts_id, ite_self]

@[simp] theorem counts_billMirror (i : IncS) : counts (billMirror i d) = counts d := by
  unfold billMirror
  split <;> simp

@[simp] theorem counts_legalSnapshot : counts (legalSnapshot d) = counts d := by simp [legalSnapshot]

@[simp] theorem counts_closeOpenRecs (o : OrphanS) : counts (closeOpenRecs o d) = counts d := by simp [closeOpenRecs]

@[simp] theorem counts_orphanToken : counts (orphanToken d) = counts d := by
  unfold orphanToken
  split <;> simp

@[simp] theorem counts_legalReady : counts (legalReady d) = counts d := by simp [legalReady]

/-! ### Dma -/

@[simp] theorem counts_pumpOne (r : Nat) (a : Dev × Mem) : counts (pumpOne r a).1 = counts a.1 := by
  unfold pumpOne
  split <;> simp

theorem counts_foldl_pumpOne (l : List Nat) (a : Dev × Mem) : counts (l.foldl (fun a r => pumpOne r a) a).1 = counts a.1 := by
  induction l generalizing a with
  | nil => rfl
  | cons r l ih => exact (ih _).trans (counts_pumpOne r a)

@[simp] theorem counts_serveRings (l : List Nat) (n : Nat) (a : Dev × Mem) : counts (serveRings l n a).1 = counts a.1 := by
  induction n generalizing a with
  | zero => rfl
  | succ n ih => exact (ih _).trans (counts_foldl_pumpOne l a)

@[simp] theorem counts_serveClass (l : List Nat) (m : Mem) : counts (serveClass l d m).1 = counts d := by simp [serveClass]

@[simp] theorem counts_dmaCtrl (v : Nat) : counts (dmaCtrl v d) = counts d := by simp [dmaCtrl]

@[simp] theorem counts_dmaResume (m : Mem) : counts (dmaResume d m).1 = counts d := by
  simp [dmaResume, ringClasses]

/-! ### FieldBus -/

@[simp] theorem counts_modFb (b : Nat) (f : FbS → FbS) : counts (modFb b f d) = counts d := congrArg counters (modFb_time d b f)

@[simp] theorem counts_fbSend (b prio typ dest : Nat) (p : Bytes) : counts (fbSend b prio typ dest p d) = counts d := by simp [fbSend]

@[simp] theorem counts_fbWithdraw (b : Nat) (f : CanFrame → Bool) : counts (fbWithdraw b f d) = counts d := by simp [fbWithdraw]

@[simp] theorem counts_fbConfig (b : Nat) : counts (fbConfig b d) = counts d := by simp [fbConfig]

@[simp] theorem counts_countSessions : counts (countSessions d) = counts d := by simp [countSessions]

@[simp] theorem counts_endSession (c : Client) : counts (endSession c d) = counts d := by simp [endSession]

@[simp] theorem counts_endSessions : counts (endSessions d) = counts d := by simp [endSessions]

@[simp] theorem counts_fbStandby : counts (fbStandby d) = counts d := by simp [fbStandby]

@[simp] theorem counts_notGone (n : Nat) : counts (notGone n d) = counts d := by simp [notGone]

@[simp] theorem counts_pointsChanged (old : Bytes) : counts (pointsChanged old d) = counts d := by simp [pointsChanged]

@[simp] theorem counts_discStart (b : Nat) : counts (discStart b d) = counts d := by simp [discStart]

@[simp] theorem counts_discStartMask (m : Nat) : counts (discStartMask m d) = counts d := by simp [discStartMask]

/-! ### LoadChannels -/

@[simp] theorem counts_modLch (n : Nat) (f : LchS → LchS) : counts (modLch n f d) = counts d := congrArg counters (modLch_time d n f)

@[simp] theorem counts_closeWindow (n : Nat) : counts (closeWindow n d) = counts d := by simp [closeWindow]

@[simp] theorem counts_switchOn (window : Bool) (n : Nat) : counts (switchOn window n d) = counts d := by simp [switchOn]

@[simp] theorem counts_switchOff (n : Nat) : counts (switchOff n d) = counts d := by simp [switchOff]

@[simp] theorem counts_lchApply (n : Nat) : counts (lchApply n d) = counts d := by simp [lchApply]

@[simp] theorem counts_lchPublish (n : Nat) : counts (lchPublish n d) = counts d := by simp [lchPublish]

@[simp] theorem counts_groupPublish (g : Nat) : counts (groupPublish g d) = counts d := by simp [groupPublish]

@[simp] theorem counts_lchClear (n m : Nat) : counts (lchClear n m d) = counts d := by simp [lchClear]

@[simp] theorem counts_lchLeave : counts (lchLeave d) = counts d := by simp [lchLeave]

@[simp] theorem counts_lchAllOff : counts (lchAllOff d) = counts d := by simp [lchAllOff]

/-! ### Lanes -/

@[simp] theorem counts_sendBlocks (l : Nat) (bs : List LineBlock) : counts (sendBlocks l bs d) = counts d := by simp [sendBlocks]

@[simp] theorem counts_sendFrame (l kind : Nat) (fields : Bytes) : counts (sendFrame l kind fields d) = counts d := by simp [sendFrame]

@[simp] theorem counts_sendMarker (l mk value : Nat) : counts (sendMarker l mk value d) = counts d := by simp [sendMarker]

@[simp] theorem counts_publishLane (l : Nat) : counts (publishLane l d) = counts d := by simp [publishLane]

@[simp] theorem counts_setLane (l : Nat) (f : LaneS → LaneS) : counts (setLane l f d) = counts d := by simp [setLane]

@[simp] theorem counts_identReq (l : Nat) : counts (identReq l d) = counts d := by simp [identReq]

@[simp] theorem counts_vehTake (c : Nat) (f : Bytes) : counts (vehTake c f d) = counts d := by simp [vehTake]

@[simp] theorem counts_identNext (l : Nat) : counts (identNext l d) = counts d := by simp [identNext]

@[simp] theorem counts_laneBoundary : counts (laneBoundary d) = counts d := by simp [laneBoundary]

/-! ### Yard -/

@[simp] theorem counts_modYard (f : YardS → YardS) : counts (modYard f d) = counts d := congrArg counters (modYard_time d f)

@[simp] theorem counts_forgetMaps : counts (forgetMaps d) = counts d := by simp [forgetMaps]

@[simp] theorem counts_putBindings (l : List (Bytes × Nat)) : counts (putBindings l d) = counts d := by simp [putBindings]

@[simp] theorem counts_heard (a : Nat) : counts (heard a d) = counts d := by
  unfold heard
  split <;> simp

@[simp] theorem counts_carry (l : List Nat) : counts (carry l d) = counts d := by simp [carry]

@[simp] theorem counts_sendMsg (mtype dst : Nat) (body : Bytes) (plain : Bool) : counts (sendMsg mtype dst body plain d) = counts d :=
  by simp [sendMsg]

@[simp] theorem counts_chooseMaps (a : Nat) : counts (chooseMaps a d) = counts d := by
  unfold chooseMaps
  split <;> simp

@[simp] theorem counts_yardOut (f : YardAir) : counts (yardOut f d) = counts d := by simp [yardOut]

@[simp] theorem counts_nodeJoins (i : Nat) (serial : Bytes) : counts (nodeJoins i serial d) = counts d := by simp [nodeJoins]

@[simp] theorem counts_assocHeard (m : YMsg) : counts (assocHeard m d) = counts d := by
  unfold assocHeard
  dsimp only
  split <;> simp

@[simp] theorem counts_deliver (lsrc : Nat) (m : Bytes) : counts (deliver lsrc m d) = counts d := by
  unfold deliver
  split <;> simp

@[simp] theorem counts_countLink (lsrc segs : Nat) (again : Bool) : counts (countLink lsrc segs again d) = counts d := by
  unfold countLink
  split <;> simp

@[simp] theorem counts_yardTake (fh : Bytes) (segs : List Bytes) (stop : Nat) : counts (yardTake fh segs stop d) = counts d := by
  unfold yardTake
  split <;> simp

@[simp] theorem counts_pointWritten (i j : Nat) : counts (pointWritten i j d) = counts d := by simp [pointWritten]

@[simp] theorem counts_stalePoints (i : Nat) : counts (stalePoints i d) = counts d := by simp [stalePoints]

@[simp] theorem counts_yardForget (a : Nat) : counts (yardForget a d) = counts d := by
  unfold yardForget
  split <;> simp

@[simp] theorem counts_yardLeaveAll : counts (yardLeaveAll d) = counts d := by simp [yardLeaveAll]

@[simp] theorem counts_yardStandby : counts (yardStandby d) = counts d := by simp [yardStandby]

/-! ### Pair -/

@[simp] theorem counts_modPair (f : PairS → PairS) : counts (modPair f d) = counts d := congrArg counters (modPair_time d f)

@[simp] theorem counts_putPairBit (i : Nat) (b : Bool) : counts (putPairBit i b d) = counts d := by simp [putPairBit]

@[simp] theorem counts_setRole (r : Role) : counts (setRole r d) = counts d := by simp [setRole]

@[simp] theorem counts_putEpoch (e : Nat) : counts (putEpoch e d) = counts d := by simp [putEpoch]

@[simp] theorem counts_takeEpoch : counts (takeEpoch d) = counts d := by simp [takeEpoch]

@[simp] theorem counts_raiseElected : counts (raiseElected d) = counts d := by simp [raiseElected]

@[simp] theorem counts_unlock : counts (unlock d) = counts d := by simp [unlock]

@[simp] theorem counts_toActive (epoch : Dev → Dev) (hepoch : ∀ e, counts (epoch e) = counts e) : counts (toActive epoch d) = counts d :=
  by simp [toActive, hepoch]

@[simp] theorem counts_toStandby : counts (toStandby d) = counts d := by simp [toStandby]

@[simp] theorem counts_electActive : counts (electActive d) = counts d := by simp [electActive]

@[simp] theorem counts_electStandby : counts (electStandby d) = counts d := by simp [electStandby]

@[simp] theorem counts_electOn (unit role : Nat) : counts (electOn unit role d) = counts d := by simp [electOn]

@[simp] theorem counts_electAlone : counts (electAlone d) = counts d := by simp [electAlone]

@[simp] theorem counts_noImageStandby : counts (noImageStandby d) = counts d := by simp [noImageStandby]

@[simp] theorem counts_pairCount : counts (pairCount d) = counts d := by simp [pairCount]

@[simp] theorem counts_partnerToken : counts (partnerToken d) = counts d := by simp [partnerToken]

@[simp] theorem counts_demoteToken : counts (demoteToken d) = counts d := by simp [demoteToken]

@[simp] theorem counts_switchSet (v : Nat) : counts (switchSet v d) = counts d := by simp [switchSet]

@[simp] theorem counts_queueWrite (q : QWrite) (rs : List LaneRec) : counts (queueWrite q rs d) = counts d := by simp [queueWrite]

@[simp] theorem counts_requestSwitch (cause role : Nat) (reply : Reply) : counts (requestSwitch cause role reply d) = counts d :=
  by simp [requestSwitch]

@[simp] theorem counts_switchCancel : counts (switchCancel d) = counts d := by
  unfold switchCancel
  split <;> simp

@[simp] theorem counts_readyToken : counts (readyToken d) = counts d := by simp [readyToken]

@[simp] theorem counts_handOff : counts (handOff d) = counts d := by simp [handOff]

@[simp] theorem counts_overlapEnd : counts (overlapEnd d) = counts d := by simp [overlapEnd]

@[simp] theorem counts_overlapToken (ns : Nat) : counts (overlapToken ns d) = counts d := by
  unfold overlapToken
  dsimp only
  split
  · rfl
  · split <;> split <;> simp

/-! ### Thermal -/

@[simp] theorem counts_putFault (stage : Bool) (inst m : Nat) : counts (putFault stage inst m d) = counts d := by simp [putFault]

@[simp] theorem counts_publishConFault (c : Nat) : counts (publishConFault c d) = counts d := by simp [publishConFault]

@[simp] theorem counts_publishStgFault (s : Nat) : counts (publishStgFault s d) = counts d := by simp [publishStgFault]

@[simp] theorem counts_publishThrottle (c : Nat) : counts (publishThrottle c d) = counts d := by simp [publishThrottle]

@[simp] theorem counts_publishFloor (c : Nat) : counts (publishFloor c d) = counts d := by simp [publishFloor]

@[simp] theorem counts_addClear (key : Nat) (latched : Bool) : counts (addClear key latched d) = counts d := by simp [addClear]

@[simp] theorem counts_conThermClear (c m : Nat) : counts (conThermClear c m d) = counts d := by simp [conThermClear]

@[simp] theorem counts_stgThermClear (s m : Nat) : counts (stgThermClear s m d) = counts d := by simp [stgThermClear]

@[simp] theorem counts_dieThermClear (m : Nat) : counts (dieThermClear m d) = counts d := by simp [dieThermClear]

/-! ### Sessions -/

@[simp] theorem counts_modCtx (n : Nat) (f : CtxS → CtxS) : counts (modCtx n f d) = counts d := congrArg counters (modCtx_time d n f)

@[simp] theorem counts_sesCount : counts (sesCount d) = counts d := by simp [sesCount]

@[simp] theorem counts_sesDelta (n : Nat) : counts (sesDelta n d) = counts d := by simp [sesDelta]

@[simp] theorem counts_vehGo (c msg : Nat) (args : List Nat) (f : Bytes) : counts (vehGo c msg args f d) = counts d := by simp [vehGo]

@[simp] theorem counts_sendVeh (c msg : Nat) (args : List Nat) : counts (sendVeh c msg args d) = counts d := by simp [sendVeh]

@[simp] theorem counts_sendAnswer (c msg : Nat) (args : List Nat) : counts (sendAnswer c msg args d) = counts d := by
  unfold sendAnswer
  repeat' split
  all_goals simp

@[simp] theorem counts_respond (n c msg : Nat) (args : List Nat) : counts (respond n c msg args d) = counts d := by simp [respond]

@[simp] theorem counts_releaseReady : counts (releaseReady d) = counts d := by simp [releaseReady]

@[simp] theorem counts_setReq (c k v : Nat) : counts (setReq c k v d) = counts d := by simp [setReq]

@[simp] theorem counts_setStep (c v : Nat) : counts (setStep c v d) = counts d := by simp [setStep]

@[simp] theorem counts_sesReq (n : Nat) : counts (sesReq n d) = counts d := by
  unfold sesReq
  split <;> simp

@[simp] theorem counts_sesEnter (n st : Nat) : counts (sesEnter n st d) = counts d := by simp [sesEnter]

@[simp] theorem counts_freeCtx (n : Nat) : counts (freeCtx n d) = counts d := by simp [freeCtx]

@[simp] theorem counts_hush (c : Nat) : counts (hush c d) = counts d := by simp [hush]

@[simp] theorem counts_keepTalking (n c : Nat) : counts (keepTalking n c d) = counts d := by simp [keepTalking]

@[simp] theorem counts_closeCtx (n : Nat) : counts (closeCtx n d) = counts d := by simp [closeCtx]

@[simp] theorem counts_stopDone (n : Nat) : counts (stopDone n d) = counts d := by simp [stopDone]

@[simp] theorem counts_sesStop (n cause : Nat) (resumable : Bool) : counts (sesStop n cause resumable d) = counts d := by simp [sesStop]

@[simp] theorem counts_sesTick (ns : Nat) : counts (sesTick ns d) = counts d := by simp [sesTick]

@[simp] theorem counts_sesAuthEffect (n : Nat) : counts (sesAuthEffect n d) = counts d := by simp [sesAuthEffect]

@[simp] theorem counts_sesStopEffect (n v : Nat) : counts (sesStopEffect n v d) = counts d := by simp [sesStopEffect]

@[simp] theorem counts_sesWatch1 (c : Nat) : counts (sesWatch1 c d) = counts d := by
  unfold sesWatch1
  split <;> simp

@[simp] theorem counts_sesWatch : counts (sesWatch d) = counts d := by simp [sesWatch]

@[simp] theorem counts_sesKeyRoll (m : Nat) : counts (sesKeyRoll m d) = counts d := by simp [sesKeyRoll]

/-! ### Guard -/

@[simp] theorem counts_scrubSlot (i : Nat) : counts (scrubSlot i d) = counts d := by
  unfold scrubSlot
  split <;> simp

@[simp] theorem counts_wordFault (w : WordRead) (h : ScrubHit) : counts (wordFault w h d) = counts d := by
  unfold wordFault
  split <;> simp

@[simp] theorem counts_wordRead (w : WordRead) (h : ScrubHit) : counts (wordRead w h d) = counts d := by simp [wordRead]

@[simp] theorem counts_accessWord (w : Option WordRead) (num sub : Nat) : counts (accessWord w num sub d) = counts d := by
  unfold accessWord
  split <;> simp

/-! ### Image -/

@[simp] theorem counts_publishLoad (r : CheckRes) : counts (publishLoad r d) = counts d := by simp [publishLoad]

/-! ### Update -/

@[simp] theorem counts_modUpd (f : UpdS → UpdS) : counts (modUpd f d) = counts d := congrArg counters (modUpd_time d f)

@[simp] theorem counts_publishRegions : counts (publishRegions d) = counts d := by simp [publishRegions]

@[simp] theorem counts_putStaged (st reason svn len kinds : Nat) : counts (putStaged st reason svn len kinds d) = counts d :=
  by simp [putStaged]

@[simp] theorem counts_clearStage : counts (clearStage d) = counts d := by simp [clearStage]

@[simp] theorem counts_updBegin (size piece : Nat) (digest : Bytes) : counts (updBegin size piece digest d) = counts d := by simp [updBegin]

@[simp] theorem counts_pieceTake (role : Nat) (v : Bytes) : counts (pieceTake role v d) = counts d := by simp [pieceTake]

@[simp] theorem counts_updPiece (role : Nat) (v : Bytes) : counts (updPiece role v d) = counts d := by simp [updPiece]

@[simp] theorem counts_updRestart (quiet : Bool) : counts (updRestart quiet d) = counts d := by
  unfold updRestart
  dsimp only
  split <;> simp

@[simp] theorem counts_updActivate (unit : Nat) (quiet : Bool) : counts (updActivate unit quiet d) = counts d := by simp [updActivate]

@[simp] theorem counts_trialFail (reason : Nat) : counts (trialFail reason d) = counts d := by simp [trialFail]

@[simp] theorem counts_updReject (unit : Nat) : counts (updReject unit d) = counts d := by simp [updReject]

@[simp] theorem counts_trialToken (ready : Bool) (ns : Nat) : counts (trialToken ready ns d) = counts d := by simp [trialToken]

@[simp] theorem counts_announceToken : counts (announceToken d) = counts d := by
  unfold announceToken
  split <;> simp

/-! ### StartUp -/

@[simp] theorem counts_modStart (f : StartS → StartS) : counts (modStart f d) = counts d := congrArg counters (modStart_time d f)

@[simp] theorem counts_enterReset (cause : Nat) (ph : Phase) : counts (enterReset cause ph d) = counts d := by simp [enterReset]

@[simp] theorem counts_unitRestart : counts (unitRestart d) = counts d := by simp [unitRestart]

@[simp] theorem counts_startLate (step : Nat) : counts (startLate step d) = counts d := by simp [startLate]

@[simp] theorem counts_startStep (sub step bound : Nat) : counts (startStep sub step bound d) = counts d := by simp [startStep]

@[simp] theorem counts_roleKnown : counts (roleKnown d) = counts d := by
  unfold roleKnown
  split
  · rfl
  · dsimp only
    split
    · simp
    · split <;> simp

@[simp] theorem counts_nominalModel (s p : Nat) : counts (nominalModel s p d) = counts d := by simp [nominalModel]

@[simp] theorem counts_nominalModels : counts (nominalModels d) = counts d := by simp [nominalModels]

@[simp] theorem counts_defaultRefs : counts (defaultRefs d) = counts d := by
  unfold defaultRefs
  split
  · rfl
  · refine counts_forEach d (fun s e => counts_forEach e (fun g e => ?_))
    simp

@[simp] theorem counts_monPublish : counts (monPublish d) = counts d := by simp [monPublish]

@[simp] theorem counts_monRelock : counts (monRelock d) = counts d := by simp [monRelock]

@[simp] theorem counts_markTried : counts (markTried d) = counts d := by simp [markTried]

@[simp] theorem counts_startToken : counts (startToken d) = counts d := by simp [startToken]

@[simp] theorem counts_yardToken : counts (yardToken d) = counts d := by simp [yardToken]

/-! ### Effects -/

@[simp] theorem counts_defaultObj (num : Nat) : counts (defaultObj num d) = counts d := by simp [defaultObj]

@[simp] theorem counts_toBasic (g : Nat) : counts (toBasic g d) = counts d := by simp [toBasic]

@[simp] theorem counts_devHook (num sub : Nat) (old new : Val) : counts (devHook num sub old new d) = counts d := by simp [devHook]

@[simp] theorem counts_valueHook (num sub : Nat) (old new : Val) : counts (valueHook num sub old new d) = counts d := by
  unfold valueHook
  split
  · rfl
  · split <;> simp

@[simp] theorem counts_applyValue (p : Pend) : counts (applyValue p d) = counts d := by simp [applyValue]

@[simp] theorem counts_timeStatusClear (m : Nat) : counts (timeStatusClear m d) = counts d := by simp [timeStatusClear]

@[simp] theorem counts_timeAdjust (off : Int) : counts (timeAdjust off d) = counts d := by simp [timeAdjust]

@[simp] theorem counts_lcWrite (sub : Nat) (v : Val) : counts (lcWrite sub v d) = counts d := by simp [lcWrite]

@[simp] theorem counts_updStageArg (num sub : Nat) (v : Val) : counts (updStageArg num sub v d) = counts d := by simp [updStageArg]

@[simp] theorem counts_keyRollEffect (m : Nat) : counts (keyRollEffect m d) = counts d := by simp [keyRollEffect]

@[simp] theorem counts_formatEffect (v : Nat) : counts (formatEffect v d) = counts d := by simp [formatEffect]

@[simp] theorem counts_switchEffect (v role : Nat) : counts (switchEffect v role d) = counts d := by simp [switchEffect]

@[simp] theorem counts_clearBits (num sub m : Nat) : counts (clearBits num sub m d) = counts d := by simp [clearBits]

@[simp] theorem counts_devCmd (p : Pend) : counts (devCmd p d) = counts d := by
  unfold devCmd
  split <;> simp

@[simp] theorem counts_applyCmd (p : Pend) : counts (applyCmd p d) = counts d := by
  unfold applyCmd
  repeat' split
  all_goals simp

@[simp] theorem counts_restoreFactory : counts (restoreFactory d) = counts d := by simp [restoreFactory]

@[simp] theorem counts_applyPend (p : Pend) : counts (applyPend p d) = counts d := by simp [applyPend]

@[simp] theorem counts_applyLevels (ls : List Nat) : counts (applyLevels ls d) = counts d := by simp [applyLevels]

@[simp] theorem counts_applyClears : counts (applyClears d) = counts d := by simp [applyClears]

@[simp] theorem counts_enterWrite (p : Pend) : counts (enterWrite p d) = counts d := by simp [enterWrite]

/-! ### Admit -/

@[simp] theorem counts_readVal (role num sub : Nat) : counts (readVal role num sub d).2 = counts d := by
  unfold readVal
  split
  · rfl
  · split
    · rfl
    · repeat' split
      all_goals simp

@[simp] theorem counts_sendPdu (c : Client) (b : Bytes) : counts (sendPdu c b d) = counts d := by
  unfold sendPdu
  repeat' split
  all_goals simp

@[simp] theorem counts_takeView (c : Client) (v : Nat) : counts (takeView c v d) = counts d := by simp [takeView]

@[simp] theorem counts_replyTo (r : Reply) (p : Pend) (monFrame : Nat → Nat → Dev → Dev)
    (hmonFrame : ∀ x0 x1 e, counts (monFrame x0 x1 e) = counts e) : counts (replyTo r p monFrame d) = counts d := by
  unfold replyTo
  split <;> simp [hmonFrame]

@[simp] theorem counts_refuseTo (r : Reply) (p : Pend) (code : Nat) (monFrame : Nat → Nat → Dev → Dev)
    (hmonFrame : ∀ x0 x1 e, counts (monFrame x0 x1 e) = counts e) : counts (refuseTo r p code monFrame d) = counts d := by
  unfold refuseTo
  split <;> simp [hmonFrame]

@[simp] theorem counts_acceptWrite (p : Pend) (reply : Reply) (monFrame : Nat → Nat → Dev → Dev)
    (hmonFrame : ∀ x0 x1 e, counts (monFrame x0 x1 e) = counts e) : counts (acceptWrite p reply monFrame d) = counts d :=
  by simp [acceptWrite, hmonFrame]

/-! ### Malpen -/

@[simp] theorem counts_modMal (f : MalpenS → MalpenS) : counts (modMal f d) = counts d := congrArg counters (modMal_time d f)

@[simp] theorem counts_abortTo (p : PduIn) (code : Nat) : counts (abortTo p code d) = counts d := by simp [abortTo]

@[simp] theorem counts_whole (p : PduIn) (f : Dev → Dev) (hf : ∀ e, counts (f e) = counts e) : counts (whole p f d) = counts d :=
  by simp [whole, hf]

@[simp] theorem counts_serveUdp (inner : Bool) (p : PduIn) (f : Dev → Dev) (hf : ∀ e, counts (f e) = counts e) :
    counts (serveUdp inner p f d) = counts d :=
  by simp [serveUdp, hf]

@[simp] theorem counts_inSession (p : PduIn) (lenOk : Bool) (f : MSes → Dev → Dev) (hf : ∀ x e, counts (f x e) = counts e) :
    counts (inSession p lenOk f d) = counts d := by
  unfold inSession
  split
  · simp
  · split
    · simp
    · exact hf _ _

@[simp] theorem counts_freshTag (p : PduIn) (f : Dev → Dev) (hf : ∀ e, counts (f e) = counts e) : counts (freshTag p f d) = counts d :=
  by simp [freshTag, hf]

@[simp] theorem counts_mReadObj (p : PduIn) : counts (mReadObj p d) = counts d := by simp [mReadObj]

@[simp] theorem counts_mWriteObj (mon : Nat → Nat → Dev → Dev) (p : PduIn) (hmon : ∀ x y e, counts (mon x y e) = counts e) :
    counts (mWriteObj mon p d) = counts d :=
  counts_inSession d p true _ (fun _ e => counts_freshTag e p _ (fun e => by simp [hmon]))

@[simp] theorem counts_mDescribe (p : PduIn) : counts (mDescribe p d) = counts d := by
  unfold mDescribe
  repeat' split
  all_goals simp

@[simp] theorem counts_dropXfer (c : Client) (tag : Nat) : counts (dropXfer c tag d) = counts d := by simp [dropXfer]

@[simp] theorem counts_modXfer (c : Client) (tag : Nat) (f : Xfer → Xfer) : counts (modXfer c tag f d) = counts d := by simp [modXfer]

@[simp] theorem counts_sendData (n : Nat) (c : Client) (tag : Nat) (b : Bytes) (off : Nat) :
    counts (sendData n c tag b off d) = counts d := by
  induction n generalizing off d with
  | zero => rfl
  | succ n ih =>
    unfold sendData
    split
    · rfl
    · simp [ih]

@[simp] theorem counts_mInitRead (p : PduIn) (role blk : Nat) : counts (mInitRead p role blk d) = counts d := by simp [mInitRead]

@[simp] theorem counts_mSegRead (p : PduIn) : counts (mSegRead p d) = counts d := by simp [mSegRead]

@[simp] theorem counts_mBlkRead (p : PduIn) : counts (mBlkRead p d) = counts d := by simp [mBlkRead]

@[simp] theorem counts_mCommit (mon : Nat → Nat → Dev → Dev) (p : PduIn) (v answer : Bytes)
    (hmon : ∀ x0 x1 e, counts (mon x0 x1 e) = counts e) : counts (mCommit mon p v answer d) = counts d := by
  unfold mCommit
  split <;> simp [hmon]

@[simp] theorem counts_mInitWrite (mon : Nat → Nat → Dev → Dev) (p : PduIn) (role size blk : Nat)
    (hmon : ∀ x0 x1 e, counts (mon x0 x1 e) = counts e) : counts (mInitWrite mon p role size blk d) = counts d :=
  by simp [mInitWrite, hmon]

@[simp] theorem counts_mSegWrite (mon : Nat → Nat → Dev → Dev) (p : PduIn) (hmon : ∀ x y e, counts (mon x y e) = counts e) :
    counts (mSegWrite mon p d) = counts d :=
  counts_inSession d p _ _ (fun _ e => counts_freshTag e p _ (fun e => by simp [hmon]))

@[simp] theorem counts_mBlkWrite (mon : Nat → Nat → Dev → Dev) (p : PduIn) (hmon : ∀ x y e, counts (mon x y e) = counts e) :
    counts (mBlkWrite mon p d) = counts d :=
  counts_inSession d p _ _ (fun _ e => counts_freshTag e p _ (fun e => by simp [hmon]))

@[simp] theorem counts_inXfer (p : PduIn) (read lenOk : Bool) (f : Xfer → Dev → Dev) (hf : ∀ x0 e, counts (f x0 e) = counts e) :
    counts (inXfer p read lenOk f d) = counts d := by
  unfold inXfer
  repeat' split
  all_goals simp [hf]

@[simp] theorem counts_mData (mon : Nat → Nat → Dev → Dev) (p : PduIn) (hmon : ∀ x0 x1 e, counts (mon x0 x1 e) = counts e) :
    counts (mData mon p d) = counts d :=
  by simp [mData, hmon]

@[simp] theorem counts_mAck (p : PduIn) : counts (mAck p d) = counts d := by simp [mAck]

@[simp] theorem counts_mAbort (p : PduIn) : counts (mAbort p d) = counts d := by simp [mAbort]

@[simp] theorem counts_mOpen (p : PduIn) : counts (mOpen p d) = counts d := by simp [mOpen]

@[simp] theorem counts_mProve (p : PduIn) : counts (mProve p d) = counts d := by
  unfold mProve
  dsimp only
  split
  · simp
  · split
    · simp
    · split
      · simp
      · split
        · simp
        · split <;> simp

@[simp] theorem counts_mClose (p : PduIn) : counts (mClose p d) = counts d := by simp [mClose]

@[simp] theorem counts_mDispatch (mon : Nat → Nat → Dev → Dev) (op : Nat) (p : PduIn) (hmon : ∀ x0 x1 e, counts (mon x0 x1 e) = counts e) :
    counts (mDispatch mon op p d) = counts d := by
  unfold mDispatch
  split <;> simp [hmon]

@[simp] theorem counts_servePdu (mon : Nat → Nat → Dev → Dev) (c : Client) (pdu : Bytes) (word : Option WordRead)
    (hmon : ∀ x0 x1 e, counts (mon x0 x1 e) = counts e) : counts (servePdu mon c pdu word d) = counts d := by
  unfold servePdu
  split <;> simp [hmon]

@[simp] theorem counts_udpTaken (mon : Nat → Nat → Dev → Dev) (src ses counter : Nat) (pdu mac : Bytes) (word : Option WordRead)
    (hmon : ∀ x0 x1 e, counts (mon x0 x1 e) = counts e) : counts (udpTaken mon src ses counter pdu mac word d) = counts d := by
  unfold udpTaken
  dsimp only
  split <;> simp [hmon]

@[simp] theorem counts_identTaken (src tag : Nat) : counts (identTaken src tag d) = counts d := by simp [identTaken]

/-! ### Mirror -/

@[simp] theorem counts_keepLoops (micro : Nat) : counts (keepLoops micro d) = counts d := by
  unfold keepLoops
  split <;> simp

@[simp] theorem counts_diverged (s data : Nat) : counts (diverged s data d) = counts d := by simp [diverged]

@[simp] theorem counts_setKst (i : Nat) (ws : List (Nat × Int)) (len : Nat) : counts (setKst i ws len d) = counts d := by simp [setKst]

@[simp] theorem counts_modHist (micro : Nat) (f : LoopH → LoopH) : counts (modHist micro f d) = counts d := by simp [modHist]

@[simp] theorem counts_correctPhase (im : Image) (next key : Nat) (m own : Int × Int) :
    counts (correctPhase im next key m own d) = counts d := by
  unfold correctPhase
  dsimp only
  split <;> simp

@[simp] theorem counts_correctGroup (im : Image) (next key : Nat) (m own : List Int) :
    counts (correctGroup im next key m own d) = counts d := by
  unfold correctGroup
  dsimp only
  split
  · rfl
  · simp only [counts_diverged, counts_modHist]
    split <;> split <;> simp

@[simp] theorem counts_compareLoops (old : Nat) : counts (compareLoops old d) = counts d := by
  unfold compareLoops
  dsimp only
  split <;> simp

@[simp] theorem counts_stateRecs : counts (stateRecs d).2 = counts d := by simp [stateRecs]

@[simp] theorem counts_takeGrants (r : LaneRec) : counts (takeGrants r d) = counts d := by simp [takeGrants]

@[simp] theorem counts_takeGroup (b : Bytes) : counts (takeGroup b d) = counts d := by simp [takeGroup]

@[simp] theorem counts_takeNode (b : Bytes) : counts (takeNode b d) = counts d := by simp [takeNode]

@[simp] theorem counts_takeContactors (r : LaneRec) : counts (takeContactors r d) = counts d := by simp [takeContactors]

@[simp] theorem counts_applyMirror : counts (applyMirror d) = counts d := by
  unfold applyMirror
  dsimp only
  split <;> simp

@[simp] theorem counts_deltaRec (n : Nat) : counts (deltaRec n d) = counts d := by simp [deltaRec]

@[simp] theorem counts_deltaRecs : counts (deltaRecs d) = counts d := by simp [deltaRecs]

@[simp] theorem counts_putItems (keys : List (Nat × Nat × Nat)) (items : List (Nat × Bytes)) :
    counts (putItems keys items d) = counts d := by
  refine counts_forEach d (fun k e => ?_)
  split <;> simp

@[simp] theorem counts_takeRecord (n c : Nat) (b : Bytes) : counts (takeRecord n c b d) = counts d := by simp [takeRecord]

@[simp] theorem counts_takeDelta (unit : Nat) (r : LaneRec) : counts (takeDelta unit r d) = counts d := by
  unfold takeDelta
  dsimp only
  refine counts_ite_of rfl ?_
  split
  · rfl
  · refine counts_ite_of rfl ?_
    simp only [counts_publishPending, counts_sesCount, counts_modPair]
    split <;> simp

@[simp] theorem counts_takeBilling (r : LaneRec) : counts (takeBilling r d) = counts d := by
  unfold takeBilling
  dsimp only
  split <;> simp

@[simp] theorem counts_enterMirrored (num sub level role effect : Nat) (v : Bytes) :
    counts (enterMirrored num sub level role effect v d) = counts d := by
  unfold enterMirrored
  split
  · simp
  · split
    · rfl
    · split <;> simp

@[simp] theorem counts_takePeer (v : Bytes) : counts (takePeer v d) = counts d := by simp [takePeer]

@[simp] theorem counts_takeWrite (r : LaneRec) : counts (takeWrite r d) = counts d := by
  unfold takeWrite
  dsimp only
  refine counts_ite_of (by simp) (counts_ite_of rfl ?_)
  split
  · simp
  · split
    · simp
    · simp

@[simp] theorem counts_readyPublish : counts (readyPublish d) = counts d := by simp [readyPublish]

@[simp] theorem counts_commitQueued (monFrame : Nat → Nat → Dev → Dev) (q : QWrite)
    (hmonFrame : ∀ x0 x1 e, counts (monFrame x0 x1 e) = counts e) : counts (commitQueued monFrame q d) = counts d :=
  by simp [commitQueued, hmonFrame]

@[simp] theorem counts_pairSend (recs : List LaneRec) : counts (pairSend recs d) = counts d := by simp [pairSend]

theorem counts_ite_snd {α : Type} {c : Prop} [Decidable c] (x y : α × Dev) :
    counts (if c then x else y).2 = if c then counts x.2 else counts y.2 := by
  split <;> rfl

@[simp] theorem counts_pairTransmit (monFrame : Nat → Nat → Dev → Dev) (h : ∀ x y e, counts (monFrame x y e) = counts e) :
    counts (pairTransmit monFrame d) = counts d := by
  unfold pairTransmit
  dsimp only
  refine counts_ite_of rfl (counts_ite_of ?_ (counts_ite_of ?_ ?_))
  · simp [h]
  · simp
  · simp [counts_ite_snd]

@[simp] theorem counts_takeMirror (unit role seq : Nat) (r : LaneRec) : counts (takeMirror unit role seq r d) = counts d :=
  by simp [takeMirror]

@[simp] theorem counts_pairMeasure (l : Nat) (theirs : Int) : counts (pairMeasure l theirs d) = counts d := by simp [pairMeasure]

@[simp] theorem counts_pairAccept (l t : Nat) (f : Frame) (rs : List LaneRec) : counts (pairAccept l t f rs d) = counts d :=
  by simp [pairAccept]

@[simp] theorem counts_pairTake (l t : Nat) (f : Frame) : counts (pairTake l t f d) = counts d := by
  unfold pairTake
  split <;> simp

@[simp] theorem counts_pairWaited : counts (pairWaited d) = counts d := by
  unfold pairWaited
  split <;> simp

@[simp] theorem counts_lockToken : counts (lockToken d) = counts d := by simp [lockToken]

/-! ### Monitor -/

@[simp] theorem counts_monSend (cmd seq : Nat) (payload : Bytes) : counts (monSend cmd seq payload d) = counts d := by simp [monSend]

@[simp] theorem counts_monWriteDone (code seq : Nat) : counts (monWriteDone code seq d) = counts d := by simp [monWriteDone]

@[simp] theorem counts_traceSend (rs : List Bytes) : counts (traceSend rs d) = counts d := by simp [traceSend]

/-! ### Boundary -/

@[simp] theorem counts_frameBooks : counts (frameBooks d) = counts d := by simp [frameBooks]

@[simp] theorem counts_civilTick (ns : Nat) : counts (civilTick ns d) = counts d := by simp [civilTick]

@[simp] theorem counts_publishTime : counts (publishTime d) = counts d := by simp [publishTime]

@[simp] theorem counts_publishOuts : counts (publishOuts d) = counts d := by simp [publishOuts]

@[simp] theorem counts_keepHist (micro : Nat) : counts (keepHist micro d) = counts d := by simp [keepHist]

@[simp] theorem counts_clearFrame : counts (clearFrame d) = counts d := by simp [clearFrame]

@[simp] theorem counts_publishStage (sampled : Bool) (s : Nat) : counts (publishStage sampled s d) = counts d := by simp [publishStage]

@[simp] theorem counts_publishCon (c : Nat) : counts (publishCon c d) = counts d := by simp [publishCon]

@[simp] theorem counts_ageRecords : counts (ageRecords d) = counts d := by simp [ageRecords]

@[simp] theorem counts_lchBoundary (x : BoundaryIn) : counts (lchBoundary x d) = counts d := by simp [lchBoundary]

@[simp] theorem counts_dataPlane (sampled : Bool) (x : BoundaryIn) : counts (dataPlane sampled x d) = counts d := by simp [dataPlane]

@[simp] theorem counts_noImageToken : counts (noImageToken d) = counts d := by simp [noImageToken]

@[simp] theorem counts_pairToken (ns : Nat) : counts (pairToken ns d) = counts d := by simp [pairToken]

@[simp] theorem counts_dropActivation : counts (dropActivation d) = counts d := by simp [dropActivation]

@[simp] theorem counts_restartToken (major : Bool) : counts (restartToken major d) = counts d := by simp [restartToken]

@[simp] theorem counts_staleToken : counts (staleToken d) = counts d := by simp [staleToken]

@[simp] theorem counts_holdInputs : counts (holdInputs d) = counts d := by simp [holdInputs]

/-! ### Command -/

@[simp] theorem counts_deliverItem (x0 : RingItem) : counts (deliverItem x0 d) = counts d := by
  unfold deliverItem
  split <;> simp

end

end Sys2Proof

/-! A boundary token inside a minor frame (R30, R32, R36). -/
namespace Sys2Proof
open Machine

/-! ### Time goes on -/

theorem counters_nextTime (t : TimeS) : counters (nextTime t) = nextTime (counters t) := by
  unfold nextTime
  simp only [apply_ite counters]
  rfl

theorem counts_timeToken (ns : Nat) (d : Dev) : counts (timeToken ns d) = nextTime (counts d) := by
  simp [timeToken, counters_nextTime]

theorem counts_frameEnd_inner (d : Dev) : counts (frameEnd false d) = counts d := by
  simp [frameEnd]

theorem microsLeft_of_counts {d e : Dev} (he : counts e = counts d) (h : d.time.m + 1 < microsOf d.time.code d.time.minor) :
    ¬ microsOf e.time.code e.time.minor ≤ e.time.m + 1 := by
  have hc : e.time.code = d.time.code := (congrArg TimeS.code he :)
  have hn : e.time.minor = d.time.minor := (congrArg TimeS.minor he :)
  have hm : e.time.m = d.time.m := (congrArg TimeS.m he :)
  rw [hc, hn, hm]
  omega

/-! ### The rest of the boundary -/

theorem counts_swapToken_inner (d : Dev) : counts (swapToken false false false d) = counts d := by
  simp [swapToken]

/-- What the boundary token does once time has gone on, at the end of a frame or inside it. -/
def boundaryAfter (x : BoundaryIn) (ns full code : Nat) (sampled minorEnds majorEnds : Bool) (d : Dev) : Dev :=
  let minor := decide (2 ≤ d.time.lastLevel)
  let major := decide (4 ≤ d.time.lastLevel)
  let tick := decide (d.time.lastLevel = 5)
  let d := if d.startup.legalNs ≤ d.startup.t then legalReady d else d
  let d := if minor then civilMinor d else d
  let d := if minorEnds then refMinor x.refOut (stepMinor x.step d) else d
  let d := if majorEnds then slackMajor full code (stepMajor d) else d
  let d := roleKnown (publishTime d)
  let d := if major then imageToken d else d
  let d := swapToken minor major tick d
  let d := if major then forEach (consBound d) countFlow d else d
  let d := dataPlane sampled x (pairToken ns d)
  let d := laneBoundary (sesWatch (sesTick ns (legalBoundary ns d)))
  let d := orphanToken d
  let d := if minor then minorDuties d else d
  let d := if major then majorDuties x d else d
  let d := if tick then notifySecond d else d
  let d := yardToken (startToken (announceToken (trialToken (trialReady d) ns d)))
  let d := if major then traceMajor (traceResize (publishCover d)) else d
  let d := holdInputs (staleToken (pairTransmit monWriteDone d))
  restartToken major d

/-- The device once the reads of its memory are counted and its waiting clears have acted. -/
def boundaryRead (x : BoundaryIn) (d : Dev) : Dev := applyClears (forEach x.reads (fun w => wordRead w.1 w.2) d)

theorem boundary_eq {x : BoundaryIn} {d : Dev} (hr : running d = true) :
    let e := boundaryRead x d
    let ns := if d.time.begun then tNs d else 0
    let minorEnds := d.time.begun && decide (microsOf e.time.code e.time.minor ≤ e.time.m + 1)
    boundary x d = boundaryAfter x ns (tNs d / 100) e.time.code e.time.sampled minorEnds (minorEnds && decide (99 ≤ e.time.k))
      (if d.time.begun then timeToken ns (frameEnd minorEnds e) else timeToken ns e) := if_neg (by rw [hr]; decide)

theorem counts_boundaryRead (x : BoundaryIn) (d : Dev) : counts (boundaryRead x d) = counts d := by
  simp [boundaryRead]

theorem counts_boundaryAfter_inner {x : BoundaryIn} {ns full code : Nat} {sampled : Bool} {d : Dev} (h : d.time.lastLevel = 1) :
    counts (boundaryAfter x ns full code sampled false false d) = counts d := by
  unfold boundaryAfter
  have h2 : decide (2 ≤ d.time.lastLevel) = false := by rw [h]; rfl
  have h4 : decide (4 ≤ d.time.lastLevel) = false := by rw [h]; rfl
  have h5 : decide (d.time.lastLevel = 5) = false := by rw [h]; rfl
  rw [h2, h4, h5]
  simp [counts_swapToken_inner]

/-- Inside a minor frame a boundary moves the counters of time as `nextTime` does, and nothing else of it moves them. -/
theorem counts_boundary_inner {x : BoundaryIn} {d : Dev} (hr : running d = true) (hb : d.time.begun = true)
    (hm : d.time.m + 1 < microsOf d.time.code d.time.minor) : counts (boundary x d) = nextTime (counts d) := by
  have he := counts_boundaryRead x d
  have hends : decide (microsOf (boundaryRead x d).time.code (boundaryRead x d).time.minor ≤ (boundaryRead x d).time.m + 1) = false :=
    decide_eq_false (microsLeft_of_counts he hm)
  have ht : counts (timeToken (tNs d) (frameEnd false (boundaryRead x d))) = nextTime (counts d) := by
    rw [counts_timeToken, counts_frameEnd_inner, he]
  have hl : (timeToken (tNs d) (frameEnd false (boundaryRead x d))).time.lastLevel = 1 := by
    have hn : nextTime (counts d) = _ := nextTime_inner (t := counts d) hb hm
    exact congrArg TimeS.lastLevel (ht.trans hn)
  have hq := boundary_eq (x := x) hr
  simp only [hb, hends, Bool.true_and, Bool.false_and, if_true] at hq
  rw [hq, counts_boundaryAfter_inner hl, ht]

/-! ### Settling the obligation -/

theorem counts_delivered (o : Dev × Mem) : counts (delivered o).1 = counts o.1 := by
  simp [delivered]

theorem counts_boundaryMem_inner {x : BoundaryIn} {d : Dev} {m : Mem} (hr : running d = true) (hb : d.time.begun = true)
    (hm : d.time.m + 1 < microsOf d.time.code d.time.minor) : counts (boundaryMem x d m).1 = nextTime (counts d) := by
  unfold boundaryMem resumed
  rw [counts_delivered, counts_dmaResume, counts_boundary_inner hr hb hm]

/-- Settles O7: between two moves of the time keeper no function of the boundary touches its counters. -/
theorem boundaryTokenCounts : Obligations.BoundaryTokenCounts := by
  intro s x hr hb hm _ _
  refine actMem_completes rfl (fun e he => ?_)
  have hc : counts e = nextTime (counts s.dev) :=
    (congrArg counters (he.part .time)).trans (counts_boundaryMem_inner (d := fresh s) hr hb hm)
  rw [nextTime_inner (t := counts s.dev) hb hm] at hc
  exact ⟨(congrArg TimeS.micro hc :), (congrArg TimeS.m hc :), (congrArg TimeS.lastLevel hc :), (congrArg TimeS.minor hc :),
    (congrArg TimeS.k hc :), (congrArg TimeS.major hc :), (congrArg TimeS.tick hc :), (congrArg TimeS.sampled hc :),
    (congrArg TimeS.launched hc :), (congrArg TimeS.refDue hc :)⟩

end Sys2Proof

/-! A counterexample to O36: a context that serves a charge loop and still holds the connection of an ended session of another
connector. Welding detection takes such a context for one whose session has ended (R300), answers, and stops nothing. The statement
excludes a held connection for the states before the charge loop, but not for the charge loop. -/

namespace Sys2Proof

open Machine

namespace HeldConnection

/-- A single unit that runs. Context 0 is in the charge loop of connector 1, and its connection of an ended session is with the
vehicle of connector 2. -/
def start : State :=
  { State.reset with dev := put (oSes 0 0) 0 7 (put (oSes 0 1) 0 1 (put (oCon 1 0x51) 0 0 (put 0x3209 1 16 { State.reset.dev with
      phase := .running
      pair := { State.reset.dev.pair with role := .single }
      ses := { State.reset.dev.ses with ctx := [{ linger := some 2 }] } }))) }

/-- The vehicle of connector 1 has no connection of an ended context left: the statement's conditions hold. -/
theorem serves : Serves start.dev 1 0 := by
  unfold Serves
  and_intros <;> decide +kernel

theorem in_charge_loop : sesState start.dev 0 = 7 := by decide +kernel

/-- The device after the welding detection. -/
def after : Dev := settle (onPart (decide (1 < 64)) (weldingDetection 1) (fresh start))

theorem exec_weldingDetection : exec (.weldingDetection 1) start = .next { start with dev := after } := rfl

/-- The session goes on. -/
theorem charge_loop_after : sesState after 0 = 7 := by decide +kernel

end HeldConnection

/-- Refutes O36: welding detection leaves a session in its charge loop whose context holds another connector's connection
(`HeldConnection.charge_loop_after`). -/
theorem not_sessionEnds : ¬ Obligations.SessionEnds := by
  intro h
  obtain ⟨_, _, _, _, _, _, _, hwelding, _⟩ := h.1 HeldConnection.start 1 0 HeldConnection.serves
  obtain ⟨⟨hstopped, _⟩, _⟩ := (hwelding HeldConnection.in_charge_loop).of_exec HeldConnection.exec_weldingDetection
  rw [HeldConnection.charge_loop_after] at hstopped
  exact absurd hstopped (by decide)

end Sys2Proof

/-! The stale marks of object values (R86) through what follows a command. Only a value that is put into force ends its mark, and what
follows puts into force none but the values that count or mark it. -/

namespace Sys2Proof

open Machine

/-- The stale marks of values that what follows a command does not move stay. -/
def KeepsStale (d e : Dev) : Prop :=
  ∀ num sub, sub < 256 → moves num sub = false → okey num sub ∈ d.os.stale → okey num sub ∈ e.os.stale

namespace KeepsStale

variable {d e f : Dev}

theorem refl (d : Dev) : KeepsStale d d := fun _ _ _ _ h => h

theorem trans (h : KeepsStale d e) (k : KeepsStale e f) : KeepsStale d f := fun _ _ h1 h2 x => k _ _ h1 h2 (h _ _ h1 h2 x)

/-- An update that leaves the objects alone. -/
theorem of_os (h : e.os = d.os) : KeepsStale d e := fun _ _ _ _ x => h.symm ▸ x

theorem ite {c : Prop} [Decidable c] (h : KeepsStale d e) (k : KeepsStale d f) : KeepsStale d (if c then e else f) := by
  split
  · exact h
  · exact k

end KeepsStale

theorem mem_stale_put {k num sub : Nat} (n : Nat) {d : Dev} (hk : k ≠ okey num sub) (h : k ∈ d.os.stale) :
    k ∈ (put num sub n d).os.stale := List.mem_filter.2 ⟨h, by simpa using hk⟩

theorem put_keepsStale {num sub : Nat} (n : Nat) (d : Dev) (hm : moves num sub = true) (hs : sub < 256) :
    KeepsStale d (put num sub n d) := by
  refine fun a b hb hab h => mem_stale_put n (fun hk => ?_) h
  obtain ⟨rfl, rfl⟩ := okey_inj hb hs hk
  exact absurd (hm.symm.trans hab) (by decide)

theorem emit_keepsStale (t : Tx) (d : Dev) : KeepsStale d (emit t d) := .of_os rfl

theorem forEach_keepsStale {α : Type} {l : List α} {f : α → Dev → Dev} (h : ∀ a d, KeepsStale d (f a d)) (d : Dev) :
    KeepsStale d (forEach l f d) :=
  forEach_keeps (P := KeepsStale d) (fun a _ _ hx => hx.trans (h a _)) (.refl d)

/-! ### The rings -/

section

variable {r : Nat} (hr : r < 16)

include hr

theorem put_ring_keepsStale {sub : Nat} (n : Nat) (d : Dev) (h : [2, 3, 4, 6].contains sub = true) :
    KeepsStale d (put (0x3200 + r) sub n d) := put_keepsStale _ _ (moves_ringBook r sub hr h) (by simp at h; omega)

theorem ringDone_keepsStale (n : Nat) (d : Dev) : KeepsStale d (ringDone r n d) :=
  (put_ring_keepsStale hr _ _ (sub := 2) rfl).trans (put_ring_keepsStale hr _ _ (sub := 4) rfl)

theorem ringFull_keepsStale (d : Dev) : KeepsStale d (ringFull r d) := by
  have h : KeepsStale d (incr 32 (0x3200 + r) 6 d) := put_ring_keepsStale hr _ _ rfl
  exact .ite h (h.trans (.of_os rfl))

theorem ringPass_keepsStale (its : List RingItem) {go lost : Dev → Dev} (hg : ∀ x, KeepsStale x (go x))
    (hl : ∀ x, KeepsStale x (lost x)) (d : Dev) : KeepsStale d (ringPass r its go lost d) := by
  have h3 : KeepsStale d (ringStep r 3 its.length d) := put_ring_keepsStale hr _ _ rfl
  exact .ite (hg d) (.ite (hl d) (.ite ((h3.trans (ringDone_keepsStale hr _ _)).trans (hg _))
    (.ite ((ringFull_keepsStale hr d).trans (hl _)) (h3.trans (.of_os rfl)))))

end

/-! ### The parts of `settle` -/

theorem monSend_keepsStale (cmd seq : Nat) (b : Bytes) (d : Dev) : KeepsStale d (monSend cmd seq b d) :=
  (put_keepsStale (num := 0x3403) (sub := 2) _ d (by decide) (by decide)).trans (emit_keepsStale _ _)

theorem traceSend_keepsStale (rs : List Bytes) (d : Dev) : KeepsStale d (traceSend rs d) :=
  forEach_keepsStale (fun _ _ => monSend_keepsStale _ _ _ _) _

theorem traceDrop_keepsStale (n : Nat) (d : Dev) : KeepsStale d (traceDrop n d) :=
  put_keepsStale (num := 0x3402) (sub := 2) _ _ (by decide) (by decide)

theorem tracePost_keepsStale (rs : List Bytes) (d : Dev) : KeepsStale d (tracePost rs d) := by
  have h15 : 15 < 16 := by decide
  unfold tracePost
  refine .ite (.refl d) (.ite ?_ (ringPass_keepsStale h15 _ .refl (traceDrop_keepsStale _) d))
  exact ringPass_keepsStale h15 _ (traceSend_keepsStale _) .refl (modMon _ d)

theorem traceEvent_keepsStale (v : EvRec) (d : Dev) : KeepsStale d (traceEvent v d) := .ite (tracePost_keepsStale _ _) (.refl d)

theorem fbSend_keepsStale (b prio typ dest : Nat) (p : Bytes) (d : Dev) : KeepsStale d (fbSend b prio typ dest p d) :=
  .ite (.of_os rfl) (.refl d)

theorem sendPdu_keepsStale (c : Client) (b : Bytes) (d : Dev) : KeepsStale d (sendPdu c b d) := by
  have hudp : ∀ its t m, KeepsStale d (ringPass 12 its (emit t) id { d with malpen := m }) := fun its t m =>
    (KeepsStale.of_os (e := { d with malpen := m }) rfl).trans
      (ringPass_keepsStale (r := 12) (by decide) its (emit_keepsStale t) .refl _)
  unfold sendPdu
  refine .ite (.refl d) (.ite (fbSend_keepsStale _ _ _ _ _ d) ?_)
  split
  · dsimp only
    exact hudp _ _ _
  · exact hudp _ _ d.malpen

theorem notifyEvent_keepsStale (v : EvRec) (d : Dev) : KeepsStale d (notifyEvent v d) :=
  forEach_keepsStale (fun _ x => .ite (.refl x) (.ite (fbSend_keepsStale _ _ _ _ _ (modMal _ x)) (sendPdu_keepsStale _ _ (modMal _ x)))) d

theorem capTrigger_keepsStale (k code : Nat) (d : Dev) : KeepsStale d (capTrigger k code d) := by
  have hlost : KeepsStale d (setStatus 0x3300 0 6 (incr 32 0x3332 2 d)) :=
    (put_keepsStale (num := 0x3332) (sub := 2) _ d (by decide) (by decide)).trans (put_keepsStale _ _ (by decide) (by decide))
  have hcap : ∀ x : Dev, KeepsStale x (setStatus 0x3300 0 5 x) := fun x => put_keepsStale _ _ (by decide) (by decide)
  exact .ite (.refl d) (.ite (.of_os rfl) (.ite (hlost.trans (.of_os rfl)) (hcap _)))

theorem capOnEvent_keepsStale (v : EvRec) (d : Dev) : KeepsStale d (capOnEvent v d) :=
  .ite (.refl d) (.ite (capTrigger_keepsStale _ _ d) (.ite (forEach_keepsStale (fun _ _ => capTrigger_keepsStale _ _ _) d) (.refl d)))

theorem tellEvent_keepsStale (v : EvRec) (d : Dev) : KeepsStale d (tellEvent v d) :=
  ((notifyEvent_keepsStale v d).trans (traceEvent_keepsStale v _)).trans (capOnEvent_keepsStale v _)

theorem monRate_keepsStale (d : Dev) : KeepsStale d (monRate d) := .ite (.refl d) (.of_os rfl)

/-- What follows every command ends the stale mark of no value that it does not move. -/
theorem settle_keepsStale (d : Dev) : KeepsStale d (settle d) :=
  have hseen : ∀ x : Dev, KeepsStale x { x with ev := { x.ev with fresh := [] } } := fun _ => .of_os rfl
  .ite (((monRate_keepsStale d).trans (hseen _)).trans (forEach_keepsStale tellEvent_keepsStale _)) (hseen d)

/-- A command that acts on the device alone, and the stale marks that it leaves. -/
theorem act_completes_stale {c : Instr} {s : State} {f : Dev → Dev} {P : Dev → Prop} (hc : exec c s = act f s)
    (hP : ∀ e, Follows (f (fresh s)) e → KeepsStale (f (fresh s)) e → P e) : Completes c s P :=
  ⟨_, hc, rfl, rfl, hP _ (settle_follows _) (settle_keepsStale _)⟩

end Sys2Proof

/-! What the guard records of an error, and how it restores an object value (R86, R89). -/

namespace Sys2Proof

open Machine

section

variable {ps : List Part} {ks : List (Nat × Nat)} {d e : Dev}

theorem Machine.Follows.framed (h : Follows d e) : Framed ps ks d e := (Framed.refl ps ks d).follow h

theorem Framed.guard (hp : .guard ∈ ps) (h : Framed ps ks d e) (x : GuardS) : Framed ps ks d { e with guard := x } :=
  h.fields (fun p hq => by cases p <;> first | exact absurd hp hq | rfl | exact fun _ => rfl) rfl

end

/-- The subindices of SYS.GUARD_LAST. -/
def lastObjs : List (Nat × Nat) := [(0x1C6, 1), (0x1C6, 2), (0x1C6, 3)]

/-- SYS.GUARD_LAST shows an error: its class, its slot index or word address, and when it was found (R89). -/
def ShowsLast (cls idx micro : Nat) (e : Dev) : Prop := on e 0x1C6 1 = cls ∧ on e 0x1C6 2 = idx ∧ on e 0x1C6 3 = micro

theorem ShowsLast.framed {cls idx micro : Nat} {ps : List Part} {ks : List (Nat × Nat)} {d e : Dev} (h : ShowsLast cls idx micro d)
    (hf : Framed ps ks d e) (hk : ∀ k ∈ ks, k ∉ lastObjs) : ShowsLast cls idx micro e := by
  have hon : ∀ sub, (0x1C6, sub) ∈ lastObjs → on e 0x1C6 sub = on d 0x1C6 sub := fun sub hm =>
    hf.on_eq (by simp [lastObjs] at hm; omega) (counted_of_lt _ (by decide)) (fun hq => hk _ hq hm)
  obtain ⟨h1, h2, h3⟩ := h
  exact ⟨(hon 1 (by decide)).trans h1, (hon 2 (by decide)).trans h2, (hon 3 (by decide)).trans h3⟩

theorem ShowsLast.follows {cls idx micro : Nat} {d e : Dev} (h : ShowsLast cls idx micro d) (he : Follows d e) :
    ShowsLast cls idx micro e := h.framed (ps := []) (ks := []) he.framed (by simp)

section

variable (cls idx : Nat) (d : Dev)

theorem guardLast_framed (ps : List Part) : Framed ps lastObjs d (guardLast cls idx d) :=
  .put (by decide) (by decide) (.put (by decide) (by decide) (.put (by decide) (by decide) (.refl _ _ _)))

theorem guardLast_shows : ShowsLast cls idx d.time.micro (guardLast cls idx d) := by
  refine ⟨?_, ?_, ?_⟩
  · rw [guardLast, on_put_other _ _ _ _ _ _ (by decide), on_put_other _ _ _ _ _ _ (by decide), on_put_same]
  · rw [guardLast, on_put_other _ _ _ _ _ _ (by decide), on_put_same]
  · rw [guardLast, on_put_same]

theorem on_guardLast {num : Nat} (sub : Nat) (hs : sub < 256) (hn : num < 0x3200) (h : num ≠ 0x1C6) :
    on (guardLast cls idx d) num sub = on d num sub :=
  (guardLast_framed cls idx d []).on_eq hs (counted_of_lt _ hn) (by simp [lastObjs, h])

end

section

variable {ps : List Part} {ks : List (Nat × Nat)} {cls idx : Nat} {d e : Dev}

/-- What comes after the record of an error, in one frame with it. -/
theorem Framed.of_guardLast (h : Framed ps ks (guardLast cls idx d) e) : Framed ps (ks ++ lastObjs) d e :=
  ((guardLast_framed cls idx d ps).mono (fun _ h => h) (fun _ => List.mem_append_right _)).trans
    (h.mono (fun _ h => h) (fun _ => List.mem_append_left _))

theorem ShowsLast.of_guardLast {s : State} (h : Framed ps ks (guardLast cls idx (fresh s)) e) (hk : ∀ k ∈ ks, k ∉ lastObjs) :
    ShowsLast cls idx s.dev.time.micro e := (guardLast_shows cls idx (fresh s)).framed h hk

end

/-! ### Object values restored -/

/-- The value of a key is replaced by `v`, without a commit of its own, and marked stale (R86). -/
def replaced (k : Nat) (v : Val) (d : Dev) : Dev :=
  { d with os := { d.os with
    cur := storeSet d.os.cur k v
    stale := if d.os.stale.contains k then d.os.stale else k :: d.os.stale } }

section

variable (num sub addr : Nat) (v : Val) (d : Dev)

theorem ov_replaced : ov (replaced (okey num sub) v d) num sub = v := storeGet_storeSet_same _ _ _

theorem mem_stale_replaced (k : Nat) : k ∈ (replaced k v d).os.stale := by
  simp only [replaced]
  split
  · simp_all
  · exact List.mem_cons_self

theorem replaced_framed (ps : List Part) (hs : sub < 256) : Framed ps [(num, sub)] d (replaced (okey num sub) v d) := by
  refine ⟨(onlyParts_of_fields (e := replaced (okey num sub) v d) rfl).mono (by simp), fun m t ht _ hm => ?_, rfl⟩
  refine storeGet_storeSet_other _ _ _ _ (fun h => hm ?_)
  obtain ⟨rfl, rfl⟩ := okey_inj hs ht h
  exact List.mem_singleton_self _

/-- A restored value is the previous committed one where there is one; the error is recorded and OBJ_STALE set (R86). -/
theorem restoreObj_eq : ∃ v, (∀ u, storeFind d.os.prev (okey num sub) = some u → v = u) ∧
    restoreObj num sub addr d = setStatus 0x1C0 0 5 (guardLast 6 addr (replaced (okey num sub) v d)) := by
  refine ⟨_, fun u hu => ?_, rfl⟩
  simp only [hu]

theorem restoreObj_framed (ps : List Part) (hs : sub < 256) :
    Framed ps ((0x1C0, 0) :: (num, sub) :: lastObjs) d (restoreObj num sub addr d) := by
  obtain ⟨v, _, h⟩ := restoreObj_eq num sub addr d
  rw [h]
  refine .put (by decide) List.mem_cons_self (((replaced_framed num sub v d ps hs).mono (fun _ h => h) (by simp)).trans ?_)
  exact (guardLast_framed _ _ _ _).mono (fun _ h => h) (fun _ h => List.mem_cons_of_mem _ (List.mem_cons_of_mem _ h))

theorem restoreObj_shows : ShowsLast 6 addr d.time.micro (restoreObj num sub addr d) := by
  obtain ⟨v, _, h⟩ := restoreObj_eq num sub addr d
  rw [h]
  have hl : ShowsLast 6 addr d.time.micro (guardLast 6 addr (replaced (okey num sub) v d)) := guardLast_shows _ _ _
  exact hl.framed (ps := []) (ks := [(0x1C0, 0)]) (.put (by decide) (by decide) (.refl _ _ _)) (by decide)

theorem on_restoreObj_status (hs : sub < 256) (hn : num ≠ 0x1C0) :
    on (restoreObj num sub addr d) 0x1C0 0 = setBit (on d 0x1C0 0) 5 := by
  obtain ⟨v, _, h⟩ := restoreObj_eq num sub addr d
  rw [h, on_setStatus_same, on_guardLast _ _ _ _ (by decide) (by decide) (by decide),
    (replaced_framed num sub v d [] hs).on_eq (by decide) (counted_of_lt _ (by decide)) (by simpa using fun h => absurd h.symm hn)]

/-- The value stays as restored, and stale, where the record of the error is of other objects. -/
theorem restoreObj_restores (hs : sub < 256) (h1 : num ≠ 0x1C0) (h2 : num ≠ 0x1C6) :
    okey num sub ∈ (restoreObj num sub addr d).os.stale ∧
      ∀ u, storeFind d.os.prev (okey num sub) = some u → ov (restoreObj num sub addr d) num sub = u := by
  obtain ⟨v, hv, h⟩ := restoreObj_eq num sub addr d
  have hkey : ∀ a b, b < 256 → num ≠ a → okey num sub ≠ okey a b := fun a b hb ha hk => ha (okey_inj hs hb hk).1
  have hlast := fun b (hb : b < 256) => hkey 0x1C6 b hb h2
  rw [h]
  refine ⟨?_, fun u hu => ?_⟩
  · exact mem_stale_put _ (hkey _ _ (by decide) h1) (mem_stale_put _ (hlast 3 (by decide)) (mem_stale_put _ (hlast 2 (by decide))
      (mem_stale_put _ (hlast 1 (by decide)) (mem_stale_replaced v d _))))
  · rw [setStatus, ov_put_other _ _ _ _ _ _ (hkey _ _ (by decide) h1).symm, guardLast,
      ov_put_other _ _ _ _ _ _ (hlast 3 (by decide)).symm, ov_put_other _ _ _ _ _ _ (hlast 2 (by decide)).symm,
      ov_put_other _ _ _ _ _ _ (hlast 1 (by decide)).symm, ov_replaced, hv u hu]

end

end Sys2Proof

/-! The scrubber (R77 to R79): it goes on by a word at each read, and a word whose code does not hold is handled by its class. -/

namespace Sys2Proof

open Machine

section

variable (d : Dev)

theorem scrubStep_framed : Framed [.guard] [(0x1C7, 0)] d (scrubStep d) :=
  .ite (.guard (by decide) (.refl _ _ _) _) (.put (by decide) (by decide) (.guard (by decide) (.refl _ _ _) _))

theorem scrubStep_guard : (scrubStep d).guard =
    { d.guard with scrubPos := if d.guard.scrubPos + 1 < sramWords then d.guard.scrubPos + 1 else 0 } := by
  unfold scrubStep
  dsimp only
  split
  · rfl
  · rfl

theorem storeFind_prev_scrubStep {k : Nat} (h : k ≠ okey 0x1C7 0) :
    storeFind (scrubStep d).os.prev k = storeFind d.os.prev k := by
  unfold scrubStep
  dsimp only
  split
  · rfl
  · exact storeFind_storeIns_other _ _ _ _ h.symm

theorem on_scrubStep_passes : on (scrubStep d) 0x1C7 0 =
    if d.guard.scrubPos + 1 < sramWords then on d 0x1C7 0 else incSat 32 (on d 0x1C7 0) := by
  unfold scrubStep
  dsimp only
  split
  · rfl
  · exact on_incr_same _ _ _ _

end

/-! ### The classes of a failing word -/

section

variable {i : Nat} {sl : SlotR} {d : Dev}

theorem scrubSlot_eq (h : slotAt d i = some sl) : scrubSlot i d =
    setStatus 0x1C0 0 1 (incr 32 0x1C2 0 { d with sched := { d.sched with
      kst := alDel d.sched.kst i
      alloc := if sl.kernel = 0x50 then d.sched.alloc.cleared else d.sched.alloc } }) := by
  rw [scrubSlot, h]

theorem scrubSlot_framed (h : slotAt d i = some sl) : Framed [.sched] [(0x1C0, 0), (0x1C2, 0)] d (scrubSlot i d) := by
  rw [scrubSlot_eq h]
  exact .put (by decide) (by decide) (.put (by decide) (by decide) (.sched (by decide) (.refl _ _ _) _))

theorem alGet_alDel_same {α : Type} (l : List (Nat × α)) (k : Nat) : alGet (alDel l k) k = none := by
  simp [alGet, alDel]

/-- The slot has no committed state: its next run starts from the entry state (R81). -/
theorem alGet_kst_scrubSlot (h : slotAt d i = some sl) : alGet (scrubSlot i d).sched.kst i = none := by
  rw [scrubSlot_eq h]
  exact alGet_alDel_same _ _

theorem on_scrubSlot_count (h : slotAt d i = some sl) : on (scrubSlot i d) 0x1C2 0 = incSat 32 (on d 0x1C2 0) := by
  rw [scrubSlot_eq h, on_setStatus_other _ _ _ _ _ _ (by decide), on_incr_same]
  rfl

theorem on_scrubSlot_status (h : slotAt d i = some sl) : on (scrubSlot i d) 0x1C0 0 = setBit (on d 0x1C0 0) 1 := by
  rw [scrubSlot_eq h, on_setStatus_same, on_incr_other _ _ _ _ _ _ (by decide)]
  rfl

end

theorem reloadStart_framed (g : Granule) (ks : List (Nat × Nat)) (d : Dev) : Framed [.guard] ks d (reloadStart g d) :=
  .ite (.refl _ _ _) (.guard (by decide) (.refl _ _ _) _)

theorem reloadStart_scrubPos (g : Granule) (d : Dev) : (reloadStart g d).guard.scrubPos = d.guard.scrubPos := by
  unfold reloadStart
  split
  · rfl
  · rfl

/-- The granule is on the list of those being reloaded (R85). -/
theorem reloadStart_lists (g : Granule) (d : Dev) : (reloadStart g d).guard.reload.any (fun p => p.1 == g) = true := by
  unfold reloadStart
  split
  case isTrue h => exact h
  case isFalse => simp

/-! ### A read of a word -/

/-- From `d` the scrubber has gone on by a word in `e`, and a pass that this completes is counted (R78). -/
def ScrubsOn (d e : Dev) : Prop :=
  on e 0x1C7 0 = (if d.guard.scrubPos + 1 < sramWords then on d 0x1C7 0 else incSat 32 (on d 0x1C7 0)) ∧
    e.guard.scrubPos = (if d.guard.scrubPos + 1 < sramWords then d.guard.scrubPos + 1 else 0)

/-- The device when the scrubber has gone on. -/
def scrubbed (s : State) : Dev := scrubStep (fresh s)

section

variable {s : State}

theorem scrubbed_framed (s : State) : Framed [.guard] [(0x1C7, 0)] s.dev (scrubbed s) := .of_fresh (scrubStep_framed _)

theorem scrubbed_micro (s : State) : (scrubbed s).time.micro = s.dev.time.micro :=
  congrArg TimeS.micro ((scrubbed_framed s).1 .time (by decide) : (scrubbed s).time = s.dev.time)

theorem on_scrubbed {num : Nat} (sub : Nat) (hs : sub < 256) (hn : num < 0x3200) (h : num ≠ 0x1C7) :
    on (scrubbed s) num sub = on s.dev num sub :=
  (scrubbed_framed s).on_eq hs (counted_of_lt _ hn) (by simp [h])

theorem guardLast_scrubbed_shows (cls idx : Nat) : ShowsLast cls idx s.dev.time.micro (guardLast cls idx (scrubbed s)) := by
  rw [← scrubbed_micro]
  exact guardLast_shows _ _ _

/-- What follows the scrubber's step leaves the step itself alone. -/
theorem ScrubsOn.of_framed {ps : List Part} {ks : List (Nat × Nat)} {e : Dev} (h : Framed ps ks (scrubbed s) e) (hk : (0x1C7, 0) ∉ ks)
    (hg : e.guard.scrubPos = (scrubbed s).guard.scrubPos) : ScrubsOn s.dev e := by
  refine ⟨?_, ?_⟩
  · rw [h.on_eq (by decide) (counted_of_lt _ (by decide)) hk, scrubbed, on_scrubStep_passes]
    rfl
  · rw [hg, scrubbed, scrubStep_guard]
    rfl

/-- The frame of a read, from that of what follows the scrubber's step. -/
theorem Framed.of_scrubbed {ps qs : List Part} {ks ls : List (Nat × Nat)} {e : Dev} (h : Framed ps ks (scrubbed s) e)
    (hp : ∀ p ∈ Part.guard :: ps, p ∈ qs) (hk : ∀ k ∈ (0x1C7, 0) :: ks, k ∈ ls) : Framed qs ls s.dev e :=
  ((scrubbed_framed s).mono (by simpa using hp _ List.mem_cons_self) (by simpa using hk _ List.mem_cons_self)).trans
    (h.mono (fun p hq => hp p (List.mem_cons_of_mem _ hq)) (fun k hq => hk k (List.mem_cons_of_mem _ hq)))

end

theorem wordRead_sound {w : WordRead} (h : ScrubHit) (d : Dev) (hw : wordCode w.data w.addr = w.code) : wordRead w h d = d :=
  if_pos (by simpa [Machine.wordOk] using hw)

theorem wordRead_fails {w : WordRead} (h : ScrubHit) (d : Dev) (hw : wordCode w.data w.addr ≠ w.code) :
    wordRead w h d = wordFault w h d :=
  if_neg (by simpa [Machine.wordOk] using hw)

section

variable {s : State} {w : WordRead} {h : ScrubHit} {x : Dev}

/-- A read whose word leads from the scrubber's step to `x`. -/
theorem scrubRead_completes {P : Dev → Prop} (hr : running s.dev = true) (hx : wordRead w h (scrubbed s) = x)
    (hP : ∀ e, Follows x e → KeepsStale x e → P e) : Completes (.scrubRead w h) s P := by
  have hd : scrubRead w h (fresh s) = wordRead w h (scrubbed s) := if_pos hr
  refine act_completes_stale (f := scrubRead w h) rfl ?_
  rwa [hd, hx]

/-- A word that asks nothing more of the guard. -/
theorem scrubRead_passes (hr : running s.dev = true) (hx : wordRead w h (scrubbed s) = scrubbed s) :
    Completes (.scrubRead w h) s (fun e => ScrubsOn s.dev e ∧ Framed [.guard] [(0x1C7, 0)] s.dev e) := by
  refine scrubRead_completes hr hx (fun e he _ => ?_)
  have hf : Framed [] [] (scrubbed s) e := he.framed
  exact ⟨.of_framed hf (by simp) (congrArg GuardS.scrubPos (he.part .guard)), hf.of_scrubbed (by simp) (by simp)⟩

end

section

variable {s : State} {w : WordRead} (hr : running s.dev = true) (hw : wordCode w.data w.addr ≠ w.code)

include hr hw

/-- Class 3: the slot whose committed state failed is counted as re-initialised (R79, R81). -/
theorem scrubRead_slotState {i : Nat} {sl : SlotR} (hs : slotAt s.dev i = some sl) :
    Completes (.scrubRead w (.slotState i)) s (fun e =>
      ScrubsOn s.dev e ∧ ShowsLast 3 i s.dev.time.micro e ∧ alGet e.sched.kst i = none ∧ on e 0x1C2 0 = incSat 32 (on s.dev 0x1C2 0) ∧
        on e 0x1C0 0 = setBit (on s.dev 0x1C0 0) 1 ∧
        Framed [.guard, .sched] ([(0x1C0, 0), (0x1C2, 0)] ++ (lastObjs ++ [(0x1C7, 0)])) s.dev e) := by
  have hsched : (scrubbed s).sched = s.dev.sched := (scrubbed_framed s).1 .sched (by decide)
  have hs' : slotAt (guardLast 3 i (scrubbed s)) i = some sl := by
    rw [← hs, slotAt, slotAt, img?, img?, ← hsched]
    rfl
  refine scrubRead_completes hr (wordRead_fails _ _ hw) (fun e he _ => ?_)
  replace he : Follows (scrubSlot i (guardLast 3 i (scrubbed s))) e := he
  have hbooks := (scrubSlot_framed hs').follow he
  have hall : Framed [.sched] ([(0x1C0, 0), (0x1C2, 0)] ++ lastObjs) (scrubbed s) e := hbooks.of_guardLast
  have hread : ∀ num, num < 0x1C6 → on (guardLast 3 i (scrubbed s)) num 0 = on s.dev num 0 := fun num hn => by
    rw [on_guardLast _ _ _ _ (by decide) (by omega) (by omega), on_scrubbed _ (by decide) (by omega) (by omega)]
  refine ⟨.of_framed hall (by decide) (congrArg GuardS.scrubPos (hall.1 .guard (by decide))),
    (guardLast_scrubbed_shows 3 i).framed hbooks (by decide), ?_, ?_, ?_, hall.of_scrubbed (by decide) (by decide)⟩
  · rw [he.part .sched]
    exact alGet_kst_scrubSlot hs'
  · rw [he.on _ _ (by decide) (by decide), on_scrubSlot_count hs', hread _ (by decide)]
  · rw [he.on _ _ (by decide) (by decide), on_scrubSlot_status hs', hread _ (by decide)]

/-- Class 5: the granule is reloaded (R79, R85). -/
theorem scrubRead_granule (g : Granule) : Completes (.scrubRead w (.granule g)) s (fun e =>
    ScrubsOn s.dev e ∧ ShowsLast 5 w.addr s.dev.time.micro e ∧ e.guard.reload.any (fun p => p.1 == g) = true ∧
      Framed [.guard] (lastObjs ++ [(0x1C7, 0)]) s.dev e) := by
  refine scrubRead_completes hr (wordRead_fails _ _ hw) (fun e he _ => ?_)
  replace he : Follows (reloadStart g (guardLast 5 w.addr (scrubbed s))) e := he
  have hguard : e.guard = _ := he.part .guard
  have hstart := (reloadStart_framed g [] (guardLast 5 w.addr (scrubbed s))).follow he
  have hall : Framed [.guard] lastObjs (scrubbed s) e := hstart.of_guardLast
  exact ⟨.of_framed hall (by decide) (by rw [hguard, reloadStart_scrubPos]; rfl), (guardLast_scrubbed_shows _ _).framed hstart (by simp),
    by rw [hguard]; exact reloadStart_lists _ _, hall.of_scrubbed (by decide) (by decide)⟩

/-- Class 6: the object value is restored (R79, R86). -/
theorem scrubRead_object {num sub : Nat} (hd : (findObj num).isSome = true) (hs : sub < 256) :
    Completes (.scrubRead w (.object num sub)) s (fun e =>
      ShowsLast 6 w.addr s.dev.time.micro e ∧ (num ≠ 0x1C0 → on e 0x1C0 0 = setBit (on s.dev 0x1C0 0) 5) ∧
        (num ∉ [0x1C0, 0x1C6, 0x1C7] → counted num sub = false → okey num sub ∈ e.os.stale ∧
          (∀ v, storeFind s.dev.os.prev (okey num sub) = some v → ov e num sub = v)) ∧
        Framed [.guard] ([(0x1C0, 0), (num, sub)] ++ (lastObjs ++ [(0x1C7, 0)])) s.dev e) := by
  refine scrubRead_completes hr ((wordRead_fails _ _ hw).trans (if_pos hd)) (fun e he hm => ?_)
  have hall : Framed [] ((0x1C0, 0) :: (num, sub) :: lastObjs) (scrubbed s) e := (restoreObj_framed num sub w.addr _ _ hs).follow he
  refine ⟨?_, fun hn => ?_, fun hn hc => ?_, hall.of_scrubbed (by simp) (by simp; tauto)⟩
  · rw [← scrubbed_micro]
    exact (restoreObj_shows _ _ _ _).follows he
  · rw [he.on _ _ (by decide) (by decide), on_restoreObj_status _ _ _ _ hs hn, on_scrubbed _ (by decide) (by decide) (by decide)]
  · simp only [List.mem_cons, List.not_mem_nil, or_false, not_or] at hn
    obtain ⟨h0, h6, h7⟩ := hn
    obtain ⟨hstale, hprev⟩ := restoreObj_restores num sub w.addr (scrubbed s) hs h0 h6
    refine ⟨hm _ _ hs (moves_counted hc) hstale, fun v hv => ?_⟩
    rw [he.ov _ _ hs (moves_counted hc)]
    refine hprev v ((storeFind_prev_scrubStep (fresh s) (fun hk => h7 ?_)).trans hv)
    exact (okey_inj hs (by decide) hk).1

/-- Class 7: the error is recorded; KEY_REDERIVE follows (R79, R87). -/
theorem scrubRead_key (num : Nat) : Completes (.scrubRead w (.key num)) s (fun e =>
    ScrubsOn s.dev e ∧ ShowsLast 7 w.addr s.dev.time.micro e ∧ Framed [.guard] (lastObjs ++ [(0x1C7, 0)]) s.dev e) := by
  refine scrubRead_completes hr (wordRead_fails _ _ hw) (fun e he _ => ?_)
  replace he : Follows (guardLast 7 w.addr (scrubbed s)) e := he
  have hall : Framed [] lastObjs (scrubbed s) e := (guardLast_framed _ _ _ _).follow he
  exact ⟨.of_framed hall (by decide) (congrArg GuardS.scrubPos (he.part .guard)), (guardLast_scrubbed_shows _ _).follows he,
    hall.of_scrubbed (by decide) (by decide)⟩

/-- Class 9: the core counts as stalled (R79, R497; log entry 54). -/
theorem scrubRead_management (core : Nat) : Completes (.scrubRead w (.management core)) s (fun e =>
    ScrubsOn s.dev e ∧ ShowsLast 9 w.addr s.dev.time.micro e ∧ e.startup = { s.dev.startup with stalled := some (core % 4) } ∧
      Framed [.guard, .startup] (lastObjs ++ [(0x1C7, 0)]) s.dev e) := by
  have hstart : (scrubbed s).startup = s.dev.startup := (scrubbed_framed s).1 .startup (by decide)
  refine scrubRead_completes hr (wordRead_fails _ _ hw) (fun e he _ => ?_)
  replace he : Follows (guardLast 9 w.addr (modStart (fun x => { x with stalled := some (core % 4) }) (scrubbed s))) e := he
  have hstall : Framed [.startup] lastObjs (scrubbed s) (modStart (fun x => { x with stalled := some (core % 4) }) (scrubbed s)) :=
    .startup (by decide) (.refl _ _ _) _
  have hall := (hstall.trans (guardLast_framed 9 w.addr _ _)).follow he
  refine ⟨.of_framed hall (by decide) (congrArg GuardS.scrubPos (he.part .guard)), ?_, ?_, hall.of_scrubbed (by decide) (by decide)⟩
  · have hl := guardLast_shows 9 w.addr (modStart (fun x => { x with stalled := some (core % 4) }) (scrubbed s))
    rw [modStart_time, scrubbed_micro] at hl
    exact hl.follows he
  · rw [← hstart]
    exact he.part .startup

end

end Sys2Proof

/-! Granules and their reloads (R85). -/

namespace Sys2Proof

open Machine

section

variable {s : State} {g : Granule} {data : Bytes} {d : Dev}

/-- The stored copies of a granule's CRC. -/
def crcCopies (d : Dev) (g : Granule) : List (Option Nat) := [d.guard.crcA.lookup (crcName g), d.guard.crcB.lookup (crcName g)]

theorem granuleOk_eq (h : ∃ x ∈ crcCopies d g, x.isSome = true) :
    granuleOk d g data = some (decide (some (crc32 data) ∈ crcCopies d g)) := by
  unfold granuleOk
  split
  case h_1 ha hb => simp [crcCopies, ha, hb] at h
  case h_2 => simp [crcCopies, eq_comm, Bool.decide_or, beq_eq_decide]

theorem granuleReload_agrees (hr : running d = true) (h : some (crc32 data) ∈ crcCopies d g) : granuleReload g data d =
    setStatus 0x1C0 0 2 (incr 32 0x1C3 0 { d with guard := { d.guard with reload := d.guard.reload.filter (fun p => p.1 != g) } }) := by
  simp only [granuleReload, granuleOk_eq ⟨_, h, rfl⟩, h, hr, decide_true, if_true, Bool.not_true, Bool.false_eq_true, if_false]

theorem granuleReload_fails {n : Nat} (hr : running d = true) (hc : ∃ x ∈ crcCopies d g, x.isSome = true)
    (h : some (crc32 data) ∉ crcCopies d g) (hn : d.guard.reload.find? (fun p => p.1 == g) = some (g, n)) : granuleReload g data d =
    if n = 0 then { d with guard := { d.guard with reload := d.guard.reload.filter (fun p => p.1 != g) ++ [(g, 1)] } }
    else failSilent 4 d := by
  simp only [granuleReload, granuleOk_eq hc, h, hr, hn, decide_false, Bool.not_true, Bool.false_eq_true, if_false, Option.map_some,
    Option.getD_some]

/-- A granule that is listed anew is found with its new count of failures. -/
theorem find?_relisted (l : List (Granule × Nat)) (g : Granule) (n : Nat) :
    (l.filter (fun p => p.1 != g) ++ [(g, n)]).find? (fun p => p.1 == g) = some (g, n) := by
  have hothers : (l.filter (fun p => p.1 != g)).find? (fun p => p.1 == g) = none := by
    simp only [List.find?_eq_none, List.mem_filter]
    simp
  rw [List.find?_append, hothers]
  simp

theorem granuleReload_completes {x : Dev} {P : Dev → Prop} (hr : running s.dev = true) (hx : granuleReload g data (fresh s) = x)
    (hP : ∀ e, Follows x e → P e) : Completes (.granuleReload g data) s P := by
  have hd : ifRun (granuleReload g data) (fresh s) = x := (if_pos hr).trans hx
  refine act_completes (f := ifRun (granuleReload g data)) rfl ?_
  rwa [hd]

/-- A granule that agrees with a copy of its CRC leaves the list. -/
theorem granuleReload_done (hr : running s.dev = true) (h : some (crc32 data) ∈ crcCopies s.dev g) :
    Completes (.granuleReload g data) s (fun e =>
      e.guard = { s.dev.guard with reload := s.dev.guard.reload.filter (fun p => p.1 != g) } ∧
        on e 0x1C3 0 = incSat 32 (on s.dev 0x1C3 0) ∧ on e 0x1C0 0 = setBit (on s.dev 0x1C0 0) 2 ∧
        Framed [.guard] [(0x1C0, 0), (0x1C3, 0)] s.dev e) := by
  refine granuleReload_completes hr (granuleReload_agrees (d := fresh s) hr h) (fun e he => ⟨he.part .guard, ?_, ?_, .of_fresh ?_⟩)
  · rw [he.on _ _ (by decide) (by decide), on_setStatus_other _ _ _ _ _ _ (by decide), on_incr_same]
    rfl
  · rw [he.on _ _ (by decide) (by decide), on_setStatus_same, on_incr_other _ _ _ _ _ _ (by decide)]
    rfl
  · exact .follow (.put (by decide) (by decide) (.put (by decide) (by decide) (.guard (by decide) (.refl _ _ _) _))) he

/-- The first failure is counted, and the granule is fetched again. -/
theorem granuleReload_again (hr : running s.dev = true) (hc : ∃ x ∈ crcCopies s.dev g, x.isSome = true)
    (h : some (crc32 data) ∉ crcCopies s.dev g) (hn : s.dev.guard.reload.find? (fun p => p.1 == g) = some (g, 0)) :
    Completes (.granuleReload g data) s (fun e =>
      e.guard.reload.find? (fun p => p.1 == g) = some (g, 1) ∧ Framed [.guard] [] s.dev e) := by
  refine granuleReload_completes hr (granuleReload_fails (d := fresh s) hr hc h hn) (fun e he => ⟨?_, .of_fresh ?_⟩)
  · rw [he.part .guard]
    exact find?_relisted _ _ _
  · exact .follow (.guard (by decide) (.refl _ _ _) _) he

/-- The second failure makes the unit fail-silent. -/
theorem granuleReload_silences {n : Nat} (hr : running s.dev = true) (hc : ∃ x ∈ crcCopies s.dev g, x.isSome = true)
    (h : some (crc32 data) ∉ crcCopies s.dev g) (hn : s.dev.guard.reload.find? (fun p => p.1 == g) = some (g, n + 1)) :
    Completes (.granuleReload g data) s (fun e =>
      e.phase = .failSilent ∧ on e 0x1C8 0 = 4 ∧ Framed [.phase, .pair, .startup] [(0x1C8, 0)] s.dev e) := by
  refine granuleReload_completes hr (granuleReload_fails (d := fresh s) hr hc h hn) (fun e he => ?_)
  obtain ⟨hp, hk, _, _, hf⟩ := failSilent_follows (by exact hr) he
  exact ⟨hp, hk, .of_fresh hf⟩

end

/-- Settles O16: one lemma for each class of a failing word, and one for each way of a reload (GUARD_LAST.02 and class 9 by log entry
54). -/
theorem hitsAreHandledByClass : Obligations.HitsAreHandledByClass := by
  refine ⟨fun s w hr => ⟨fun h hw => scrubRead_passes hr (wordRead_sound h _ hw), fun hw => ⟨?_, ?_, ?_, ?_, ?_, ?_⟩⟩,
    fun s g data hr => ⟨granuleReload_done hr, fun hc h => ⟨granuleReload_again hr hc h, fun n => granuleReload_silences hr hc h⟩⟩⟩
  · exact scrubRead_passes hr (wordRead_fails .other _ hw)
  · exact fun i sl => scrubRead_slotState hr hw
  · exact scrubRead_granule hr hw
  · exact fun num sub d hd => scrubRead_object hr hw (by rw [hd]; rfl)
  · exact scrubRead_key hr hw
  · exact scrubRead_management hr hw

end Sys2Proof

/-! Entries of the record store (R347, R420, R437): which parts and objects an entry on its way into the store may change. -/

namespace Sys2Proof

open Machine

section

variable {ps : List Part} {ks : List (Nat × Nat)} {d e : Dev}

theorem Framed.flash (hp : .flash ∈ ps) (h : Framed ps ks d e) (x : FlashS) : Framed ps ks d { e with flash := x } :=
  h.fields (fun p hq => by cases p <;> first | exact absurd hp hq | rfl | exact fun _ => rfl) rfl

theorem Framed.legal (hp : .legal ∈ ps) (h : Framed ps ks d e) (x : LegalS) : Framed ps ks d { e with legal := x } :=
  h.fields (fun p hq => by cases p <;> first | exact absurd hp hq | rfl | exact fun _ => rfl) rfl

theorem Framed.keys (hp : .keys ∈ ps) (h : Framed ps ks d e) (x : KeyS) : Framed ps ks d { e with keys := x } :=
  h.fields (fun p hq => by cases p <;> first | exact absurd hp hq | rfl | exact fun _ => rfl) rfl

theorem Framed.draws (hp : .draws ∈ ps) (h : Framed ps ks d e) (n : Nat) : Framed ps ks d { e with draws := n } :=
  h.fields (fun p hq => by cases p <;> first | exact absurd hp hq | rfl | exact fun _ => rfl) rfl

theorem Framed.putb {num sub : Nat} {b : Bytes} (hs : sub < 256) (hk : (num, sub) ∈ ks) (h : Framed ps ks d e) :
    Framed ps ks d (putb num sub b e) :=
  ⟨h.1.trans ((onlyParts_of_fields (e := Machine.putb num sub b e) rfl).mono (by simp)), h.2.1.putb hs hk, h.2.2⟩

/-- An object that counts or marks what follows any command is in every frame. -/
theorem Framed.put_counted {num sub n : Nat} (hs : sub < 256) (hc : counted num sub = true) (h : Framed ps ks d e) :
    Framed ps ks d (Machine.put num sub n e) := by
  refine h.trans ⟨(onlyParts_put num sub n e).mono (by simp), fun m t ht hm _ => ov_put_other _ _ _ _ _ _ (fun hk => ?_), rfl⟩
  obtain ⟨rfl, rfl⟩ := okey_inj hs ht hk
  exact absurd (hc.symm.trans hm) (by decide)

end

section

variable {ps : List Part} {ks : List (Nat × Nat)} {r : Nat}

/-- What passes through a ring changes what follows it, and the books of the ring (R420 to R422). -/
theorem ringPass_framed (hr : r < 16) (its : List RingItem) {go lost : Dev → Dev} (hg : ∀ x, Framed ps ks x (go x))
    (hl : ∀ x, Framed ps ks x (lost x)) (d : Dev) : Framed ps ks d (ringPass r its go lost d) := by
  have h3 : Follows d (ringStep r 3 its.length d) := put_ring_follows r 3 _ _ hr rfl
  have hdone : ∀ x, Follows x (ringDone r its.length x) := fun x =>
    (put_ring_follows r 2 _ _ hr rfl).trans (put_ring_follows r 4 _ _ hr rfl)
  have hwait : ∀ x, Follows x (modRing r (fun y => { y with q := y.q ++ its.map (fun i => { own := some i }) }) x) :=
    modRing_follows r _ (fun y => by simp [ringCore, List.filter_append, List.filter_map, Function.comp_def])
  exact .ite (hg d) (.ite (hl d) (.ite ((h3.trans (hdone _)).framed.trans (hg _))
    (.ite ((ringFull_follows r d hr).framed.trans (hl _)) (h3.trans (hwait _)).framed)))

end

section

variable {ps : List Part} {ks : List (Nat × Nat)} (hp : .flash ∈ ps) (i typ : Nat) (body : Bytes) (d : Dev)

theorem partPublish_framed : Framed ps ks d (partPublish i d) := by
  unfold partPublish
  split
  case isTrue h =>
    have hc : ∀ sub, counted (0x3310 + i) sub = true := fun sub => by simp [counted]; omega
    exact .put_counted (by decide) (hc 3) (.put_counted (by decide) (hc 2) (.put_counted (by decide) (hc 1) (.refl _ _ d)))
  case isFalse => exact .refl _ _ d

include hp

theorem modPart_framed (f : PartS → PartS) : Framed ps ks d (modPart i f d) := .flash hp (.refl _ _ d) _

theorem partAdd_framed {e : Dev} (h : partAdd i typ body d = some e) : Framed ps ks d e := by
  unfold partAdd at h
  dsimp only at h
  refine of_ite_eq h (fun h => ?_) (fun h => of_ite_eq h (fun h => absurd h (by simp)) (fun h => ?_))
  · exact Option.some.inj h ▸ (modPart_framed hp i d _).trans (partPublish_framed i _)
  · refine Option.some.inj h ▸ Framed.trans ?_ (partPublish_framed i _)
    have hreused : ∀ c : Bool, ∀ f, Framed ps ks d
        (if c = true ∧ 2 ≤ i ∧ i ≤ 4 then incr 32 (0x3310 + i) 4 (modPart i f d) else modPart i f d) := fun c f => by
      split
      case isTrue h =>
        exact .put_counted (by decide) (by simp [counted]; omega) (modPart_framed hp i d f)
      case isFalse => exact modPart_framed hp i d f
    exact .ite (.raise (hreused _ _)) (hreused _ _)

variable (hk : (0x2200, 0) ∈ ks)

include hk

theorem recHold_framed : Framed ps ks d (recHold i typ body d) := by
  have h : Framed ps ks d { d with flash := { d.flash with held := d.flash.held ++ [(i, typ, body)] } } := .flash hp (.refl _ _ d) _
  exact .ite (.raise (.put (by decide) hk h)) h

theorem recStore_framed : Framed ps ks d (recStore i typ body d) := by
  unfold recStore
  split
  case h_1 e he =>
    split at he
    · exact partAdd_framed hp i typ body d he
    · exact absurd he (by simp)
  case h_2 =>
    exact (Framed.ite (.put_counted (by decide) (by decide) (.refl _ _ d)) (.refl _ _ d)).trans (recHold_framed hp i typ body _ hk)

/-- An entry on its way changes the store alone, its own objects and BIL.STATUS (R347, R439). -/
theorem recPost_framed : Framed ps ks d (recPost i typ body d) := by
  have hhold := fun x => recHold_framed hp i typ body x hk
  exact .ite (.refl _ _ d) (.ite (hhold d) (ringPass_framed (partRing_lt i) _ (fun x => recStore_framed hp i typ body x hk) hhold d))

end

/-- The objects of the timeline, with BIL.STATUS (R348 to R350). -/
def tlObjs : List (Nat × Nat) := [(0x2200, 0), (0x220C, 1), (0x220C, 3), (0x220C, 4)]

theorem tlEntry_framed (kind ch : Nat) (data : Bytes) (d : Dev) : Framed [.legal, .flash] tlObjs d (tlEntry kind ch data d) := by
  unfold tlEntry tlEntryAt
  have hpost := fun e => recPost_framed (ps := [.legal, .flash]) (ks := tlObjs) (by decide) 1 0x50 e d (by decide)
  have hentry := fun n e x => Framed.legal (by decide) ((((hpost e).put (num := 0x220C) (sub := 1) (n := n) (by decide) (by decide)).putb
    (num := 0x220C) (sub := 3) (b := e) (by decide) (by decide))) x
  have hmark : ∀ (c : Prop) [Decidable c] (x : Dev) (code bit : Nat), Framed [.legal, .flash] tlObjs d x →
      Framed [.legal, .flash] tlObjs d (if c then raise code noInst 0 (setStatus 0x2200 0 bit x) else x) := fun c _ x code bit hx =>
    .ite (.raise (.put (by decide) (by decide) hx)) hx
  exact .ite (.put (by decide) (by decide) (.refl _ _ d)) (hmark _ _ _ _ (hmark _ _ _ _ (hentry _ _ _)))

end Sys2Proof

/-! Keys derived or fetched again, and legal registers recomputed (R87, R88, R489). -/

namespace Sys2Proof

open Machine

section

variable {s : State} {d : Dev} {num addr : Nat}

/-! ### Keys derived again -/

/-- The condition of KEY_REDERIVE: a derived key, or one that is installed. -/
theorem keyRederive_guard (hr : running d = true) (hk : num = 0 ∨ hasKey d num = true) :
    (!(running d) || (num != 0 && !(hasKey d num))) = false := by
  rcases hk with rfl | hk
  · simp [hr]
  · simp [hr, hk]

/-- No parent up to the root can be read: the root is lost. -/
theorem keyRederive_rootLost {norOk : Bool} {parents : List Bool} (hr : running d = true) (hk : num = 0 ∨ hasKey d num = true)
    (hp : ∀ p ∈ parents, p = false) : keyRederive num addr norOk parents d =
      failSilent 5 { guardLast 7 addr d with keys := { d.keys with rootLost := true } } := by
  have hnone : parents.findIdx? (fun ok => ok) = none := List.findIdx?_eq_none_iff.2 hp
  unfold keyRederive
  rw [keyRederive_guard hr hk, hnone]
  rfl

/-- A derived key and the failing parents on its way are derived again. -/
theorem keyRederive_derived {norOk : Bool} {up : Nat} {rest : List Bool} (hr : running d = true) :
    keyRederive 0 addr norOk (List.replicate up false ++ true :: rest) d =
      put 0x1C4 0 (satU 32 (on d 0x1C4 0 + up + 1)) (setStatus 0x1C0 0 3 (guardLast 7 addr d)) := by
  have hup : (List.replicate up false ++ true :: rest).findIdx? (fun ok => ok) = some up := by
    simp [List.findIdx?_append, List.findIdx?_cons]
  have hcount : on (guardLast 7 addr d) 0x1C4 0 = on d 0x1C4 0 := on_guardLast _ _ _ _ (by decide) (by decide) (by decide)
  unfold keyRederive
  rw [keyRederive_guard hr (.inl rfl), hup]
  exact congrArg (fun n => put 0x1C4 0 (satU 32 (n + (up + 1))) (setStatus 0x1C0 0 3 (guardLast 7 addr d))) hcount

/-- An installed key is unwrapped again; its shares get a new mask (R489). -/
theorem keyRederive_unwrapped {rest : List Bool} (hr : running d = true) (hn : num ≠ 0) (hk : hasKey d num = true) :
    keyRederive num addr true (true :: rest) d = remask num (guardLast 7 addr d) := by
  unfold keyRederive
  rw [keyRederive_guard hr (.inr hk)]
  simp only [List.findIdx?_cons, hn, if_true, if_false, Bool.false_eq_true]
  rfl

/-- A key is no longer installed. -/
def dropKey (num : Nat) (d : Dev) : Dev :=
  { d with keys := { d.keys with inst := alDel d.keys.inst num, masks := alDel d.keys.masks num, nor := alDel d.keys.nor num } }

/-- An installed key whose NOR copy does not pass is lost (R490). -/
theorem keyRederive_lost {rest : List Bool} (hr : running d = true) (hn : num ≠ 0) (hk : hasKey d num = true) :
    keyRederive num addr false (true :: rest) d =
      raise 0x8401 noInst num (setStatus 0x502 0 5 (publishInstalled (dropKey num (guardLast 7 addr d)))) := by
  unfold keyRederive
  rw [keyRederive_guard hr (.inr hk)]
  simp only [List.findIdx?_cons, hn, if_true, if_false, Bool.false_eq_true]
  rfl

theorem alGet_alDel_other {α : Type} (l : List (Nat × α)) {k j : Nat} (h : j ≠ k) : alGet (alDel l k) j = alGet l j := by
  unfold alGet alDel
  rw [List.find?_filter]
  congr 2
  funext p
  by_cases hp : p.1 = j
  · simp [hp, h]
  · simp [hp]

theorem hasKey_congr {e : Dev} (h : e.keys = d.keys) (k : Nat) : hasKey e k = hasKey d k := by rw [hasKey, hasKey, h]

theorem hasKey_dropKey_same : hasKey (dropKey num d) num = false := by
  rw [hasKey, dropKey, alGet_alDel_same]
  rfl

theorem hasKey_dropKey_other {k : Nat} (h : k ≠ num) : hasKey (dropKey num d) k = hasKey d k := by
  rw [hasKey, dropKey, alGet_alDel_other _ h]
  rfl

theorem publishInstalled_framed (ps : List Part) (d : Dev) : Framed ps [(0x502, 0), (0x540, 0)] d (publishInstalled d) :=
  .put (by decide) (by decide) (.put (by decide) (by decide) (.put (by decide) (by decide) (.refl _ _ _)))

theorem keyRederive_completes {norOk : Bool} {parents : List Bool} {x : Dev} {P : Dev → Prop} (hr : running s.dev = true)
    (hx : keyRederive num addr norOk parents (fresh s) = x) (hP : ∀ e, Follows x e → P e) :
    Completes (.keyRederive num addr norOk parents) s P := by
  have hd : ifRun (keyRederive num addr norOk parents) (fresh s) = x := (if_pos hr).trans hx
  refine act_completes (f := ifRun (keyRederive num addr norOk parents)) rfl ?_
  rwa [hd]

variable (hr : running s.dev = true)

include hr

/-- R87, R490: the loss of the root makes the unit fail-silent with cause 5. -/
theorem keyRederive_silences {norOk : Bool} {parents : List Bool} (hk : num = 0 ∨ hasKey s.dev num = true)
    (hp : ∀ p ∈ parents, p = false) : Completes (.keyRederive num addr norOk parents) s (fun e =>
      ShowsLast 7 addr s.dev.time.micro e ∧ e.phase = .failSilent ∧ on e 0x1C8 0 = 5 ∧ e.keys = { s.dev.keys with rootLost := true } ∧
        Framed [.phase, .pair, .startup, .keys] ((0x1C8, 0) :: lastObjs) s.dev e) := by
  refine keyRederive_completes hr (keyRederive_rootLost (d := fresh s) hr hk hp) (fun e he => ?_)
  obtain ⟨hph, hcause, _, _, hf⟩ := failSilent_follows (by exact hr) he
  have hkeys : Framed [.keys] [] (guardLast 7 addr (fresh s)) { guardLast 7 addr (fresh s) with keys := { s.dev.keys with rootLost := true } } :=
    .keys (by decide) (.refl _ _ _) _
  have hbooks := (hkeys.mono (qs := [.phase, .pair, .startup, .keys]) (ls := [(0x1C8, 0)]) (by decide) (by decide)).trans
    (hf.mono (by decide) (by decide))
  refine ⟨ShowsLast.of_guardLast hbooks (by decide), hph, hcause, hf.1 .keys (by decide), .of_fresh hbooks.of_guardLast⟩

/-- R87: each key derived again is counted. -/
theorem keyRederive_counts {norOk : Bool} {up : Nat} {rest : List Bool} :
    Completes (.keyRederive 0 addr norOk (List.replicate up false ++ true :: rest)) s (fun e =>
      ShowsLast 7 addr s.dev.time.micro e ∧ on e 0x1C4 0 = satU 32 (on s.dev 0x1C4 0 + up + 1) ∧
        on e 0x1C0 0 = setBit (on s.dev 0x1C0 0) 3 ∧ Framed [] ([(0x1C0, 0), (0x1C4, 0)] ++ lastObjs) s.dev e) := by
  refine keyRederive_completes hr (keyRederive_derived (d := fresh s) hr) (fun e he => ?_)
  have hbooks : Framed [] [(0x1C0, 0), (0x1C4, 0)] (guardLast 7 addr (fresh s)) e :=
    .follow (.put (by decide) (by decide) (.put (by decide) (by decide) (.refl _ _ _))) he
  refine ⟨ShowsLast.of_guardLast hbooks (by decide), ?_, ?_, .of_fresh hbooks.of_guardLast⟩
  · rw [he.on _ _ (by decide) (by decide), on_put_same, on_fresh]
  · rw [he.on _ _ (by decide) (by decide), on_put_other _ _ _ _ _ _ (by decide), on_setStatus_same,
      on_guardLast _ _ _ _ (by decide) (by decide) (by decide), on_fresh]

/-- R87, R489: an installed key that is unwrapped again stays as it is, under a new mask. -/
theorem keyRederive_remasks {rest : List Bool} (hn : num ≠ 0) (hk : hasKey s.dev num = true) :
    Completes (.keyRederive num addr true (true :: rest)) s (fun e =>
      ShowsLast 7 addr s.dev.time.micro e ∧ e.keys.inst = s.dev.keys.inst ∧ e.draws = s.dev.draws + 1 ∧
        Framed [.keys, .draws] lastObjs s.dev e) := by
  refine keyRederive_completes hr (keyRederive_unwrapped (d := fresh s) hr hn hk) (fun e he => ?_)
  have hmask : Framed [.keys, .draws] [] (guardLast 7 addr (fresh s)) e :=
    .follow (.keys (by decide) (.draws (by decide) (.refl _ _ _) _) _) he
  exact ⟨ShowsLast.of_guardLast hmask (by decide), (congrArg KeyS.inst (he.part .keys : e.keys = _) :), he.part .draws,
    .of_fresh hmask.of_guardLast⟩

/-- R87, R490: an installed key whose copy does not pass is no longer installed. -/
theorem keyRederive_loses {rest : List Bool} (hn : num ≠ 0) (hk : hasKey s.dev num = true) :
    Completes (.keyRederive num addr false (true :: rest)) s (fun e =>
      ShowsLast 7 addr s.dev.time.micro e ∧ raised e 0x8401 noInst = true ∧ hasKey e num = false ∧
        (∀ k, k ≠ num → hasKey e k = hasKey s.dev k) ∧ Framed [.keys] ([(0x502, 0), (0x540, 0)] ++ lastObjs) s.dev e) := by
  refine keyRederive_completes hr (keyRederive_lost (d := fresh s) hr hn hk) (fun e he => ?_)
  have hkeys : e.keys = (dropKey num (guardLast 7 addr (fresh s))).keys := he.part .keys
  have hdrop : Framed [.keys] [(0x502, 0), (0x540, 0)] (guardLast 7 addr (fresh s)) (dropKey num (guardLast 7 addr (fresh s))) :=
    .keys (by decide) (.refl _ _ _) _
  have hbooks := Framed.follow (.raise (.put (by decide) (by decide) (hdrop.trans (publishInstalled_framed _ _)))) he
  refine ⟨ShowsLast.of_guardLast hbooks (by decide), he.raised _ _ _ (raised_raise _ _ _ _), ?_, fun k h => ?_,
    .of_fresh hbooks.of_guardLast⟩
  · rw [hasKey_congr hkeys, hasKey_dropKey_same]
  · rw [hasKey_congr hkeys, hasKey_dropKey_other h]
    rfl

/-! ### TLS keys fetched again -/

/-- R87: with a partner the key comes back from the mirror copy, and the connection goes on. -/
theorem tlsKeyFetch_mirrored {n : Nat} (hn : n < 256) (ha : isActive s.dev = true) (ht : (ctx s.dev n).tls = true)
    (hp : partnerPresent s.dev = true) : Completes (.tlsKeyFetch n addr) s (fun e =>
      ShowsLast 7 addr s.dev.time.micro e ∧ ctx e n = ctx s.dev n ∧ on e 0x1C0 0 = setBit (on s.dev 0x1C0 0) 3 ∧
        Framed [] ((0x1C0, 0) :: lastObjs) s.dev e) := by
  have hc : (running (fresh s) && isActive (fresh s) && decide (n < 256) && (ctx (fresh s) n).tls) = true := by
    rw [show running (fresh s) = true from hr, show isActive (fresh s) = true from ha, decide_eq_true hn,
      show (ctx (fresh s) n).tls = true from ht]
    rfl
  have hp' : partnerPresent (guardLast 7 addr (fresh s)) = true := by
    rw [← hp, partnerPresent, partnerPresent, pairBit, pairBit, on_guardLast _ _ _ _ (by decide) (by decide) (by decide), on_fresh]
  have hx : onPart (decide (n < 256)) (ifRun (tlsKeyFetch n addr)) (fresh s) = setStatus 0x1C0 0 3 (guardLast 7 addr (fresh s)) := by
    rw [onPart, if_pos (decide_eq_true hn), ifRun, if_pos (by exact hr), tlsKeyFetch, hc]
    exact if_pos hp'
  refine act_completes (f := onPart (decide (n < 256)) (ifRun (tlsKeyFetch n addr))) rfl (fun e he => ?_)
  rw [hx] at he
  have hbooks : Framed [] [(0x1C0, 0)] (guardLast 7 addr (fresh s)) e := .follow (.put (by decide) (by decide) (.refl _ _ _)) he
  refine ⟨ShowsLast.of_guardLast hbooks (by decide), ?_, ?_, .of_fresh hbooks.of_guardLast⟩
  · rw [ctx, he.part .ses]
    rfl
  · rw [he.on _ _ (by decide) (by decide), on_setStatus_same, on_guardLast _ _ _ _ (by decide) (by decide) (by decide), on_fresh]

end

/-! ### Registers recomputed -/

section

variable {s : State} {m k addr : Nat} {lost : List Nat}

theorem billRecalc_completes {done : Bool} {x : Dev} {P : Dev → Prop} (hr : running s.dev = true) (hm : m < 66) (h1 : 1 ≤ k)
    (h10 : k ≤ 10) (hx : billRecalc m k addr lost done (fresh s) = x) (hP : ∀ e, Follows x e → P e) :
    Completes (.billRecalc m k addr lost done) s P := by
  have hd : onPart (decide (m < 66) && decide (1 ≤ k) && decide (k ≤ 10)) (ifRun (billRecalc m k addr lost done)) (fresh s) = x := by
    rw [onPart, if_pos (by simp [hm, h1, h10]), ifRun, if_pos (by exact hr), hx]
  refine act_completes (f := onPart (decide (m < 66) && decide (1 ≤ k) && decide (k ≤ 10)) (ifRun (billRecalc m k addr lost done)))
    rfl ?_
  rwa [hd]

variable {d : Dev}

/-- The condition of BILL_RECALC: the legal core meters, and the register exists. -/
theorem billRecalc_guard (hm : m < 66) (h1 : 1 ≤ k) (h10 : k ≤ 10) (hmet : meters d = true) :
    (!(meters d) || decide (66 ≤ m) || decide (k = 0) || decide (10 < k)) = false := by
  simp [hmet]
  omega

theorem recalcStart_new (h : (m, k) ∉ d.guard.recalc) :
    recalcStart m k d = { d with guard := { d.guard with recalc := d.guard.recalc ++ [(m, k)] } } := if_neg (by simpa using h)

theorem billRecalc_found (hm : m < 66) (h1 : 1 ≤ k) (h10 : k ≤ 10) (hmet : meters d = true) (h : (m, k) ∉ d.guard.recalc) :
    billRecalc m k addr lost false d =
      { guardLast 8 addr d with guard := { d.guard with recalc := d.guard.recalc ++ [(m, k)] } } := by
  have hc : d.guard.recalc.contains (m, k) = false := by simpa using h
  unfold billRecalc
  rw [billRecalc_guard hm h1 h10 hmet, hc]
  exact recalcStart_new (d := guardLast 8 addr d) h

theorem billRecalc_done (hm : m < 66) (h1 : 1 ≤ k) (h10 : k ≤ 10) (hmet : meters d = true) (h : (m, k) ∈ d.guard.recalc) :
    billRecalc m k addr lost true d = recalcDone m k lost d := by
  have hc : d.guard.recalc.contains (m, k) = true := by simpa using h
  unfold billRecalc
  rw [billRecalc_guard hm h1 h10 hmet, hc]
  rfl

/-- The recomputed value is in force; the register leaves the list, and the recomputation is counted (R88). -/
def recalcBooks (m k : Nat) (lost : List Nat) (d : Dev) : Dev :=
  setStatus 0x1C0 0 4 (incr 32 0x1C5 0 { put (0x2100 + m) k (recomputed d.legal m k (soundJournal d lost)) d with
    guard := { d.guard with recalc := d.guard.recalc.filter (· != (m, k)) } })

/-- After its books a recomputation has an entry in the timeline and a mark in the intervals and records of the channel. -/
theorem recalcDone_framed (m k : Nat) (lost : List Nat) (d : Dev) :
    Framed [.legal, .flash] tlObjs (recalcBooks m k lost d) (recalcDone m k lost d) :=
  .legal (by decide) (tlEntry_framed 0xA m (natLe 1 k) (recalcBooks m k lost d)) _

theorem recalcBooks_framed (hk : k ≤ 10) : Framed [.guard] [(0x1C0, 0), (0x1C5, 0), (0x2100 + m, k)] d (recalcBooks m k lost d) :=
  .put (by decide) (by simp) (.put (by decide) (by simp) (.guard (by decide) (.put (by omega) (by simp) (.refl _ _ _)) _))

theorem on_recalcBooks_register (hm : m < 66) (hk : k ≤ 10) :
    on (recalcBooks m k lost d) (0x2100 + m) k = recomputed d.legal m k (soundJournal d lost) := by
  rw [recalcBooks, on_setStatus_other _ _ _ _ _ _ (by simp [okey]; omega), on_incr_other _ _ _ _ _ _ (by simp [okey]; omega)]
  exact on_put_same d (0x2100 + m) k _

theorem on_recalcBooks_count (hk : k ≤ 10) : on (recalcBooks m k lost d) 0x1C5 0 = incSat 32 (on d 0x1C5 0) := by
  rw [recalcBooks, on_setStatus_other _ _ _ _ _ _ (by decide), on_incr_same]
  exact congrArg (incSat 32) (on_put_other d (0x2100 + m) k _ _ _ (by simp [okey]; omega))

theorem on_recalcBooks_status (hk : k ≤ 10) : on (recalcBooks m k lost d) 0x1C0 0 = setBit (on d 0x1C0 0) 4 := by
  rw [recalcBooks, on_setStatus_same, on_incr_other _ _ _ _ _ _ (by decide)]
  exact congrArg (setBit · 4) (on_put_other d (0x2100 + m) k _ _ _ (by simp [okey]; omega))

variable (hr : running s.dev = true) (hm : m < 66) (h1 : 1 ≤ k) (h10 : k ≤ 10) (hmet : meters s.dev = true)

include hr hm h1 h10 hmet

/-- R88, R89: a register that fails its check waits for its recomputation. -/
theorem billRecalc_starts (h : (m, k) ∉ s.dev.guard.recalc) : Completes (.billRecalc m k addr lost false) s (fun e =>
    ShowsLast 8 addr s.dev.time.micro e ∧ e.guard = { s.dev.guard with recalc := s.dev.guard.recalc ++ [(m, k)] } ∧
      Framed [.guard] lastObjs s.dev e) := by
  refine billRecalc_completes hr hm h1 h10 (billRecalc_found (d := fresh s) hm h1 h10 hmet h) (fun e he => ?_)
  have hlist : Framed [.guard] [] (guardLast 8 addr (fresh s)) e := .follow (.guard (by decide) (.refl _ _ _) _) he
  exact ⟨ShowsLast.of_guardLast hlist (by decide), he.part .guard, .of_fresh hlist.of_guardLast⟩

/-- R88: the register is its checkpoint and what of the journal is its own. -/
theorem billRecalc_recomputes (h : (m, k) ∈ s.dev.guard.recalc) : Completes (.billRecalc m k addr lost true) s (fun e =>
    on e (0x2100 + m) k = recomputed s.dev.legal m k (soundJournal s.dev lost) ∧ (m, k) ∉ e.guard.recalc ∧
      on e 0x1C5 0 = incSat 32 (on s.dev 0x1C5 0) ∧ on e 0x1C0 0 = setBit (on s.dev 0x1C0 0) 4 ∧
      OnlyParts [.guard, .legal, .flash] s.dev e) := by
  refine billRecalc_completes hr hm h1 h10 (billRecalc_done (d := fresh s) hm h1 h10 hmet h) (fun e he => ?_)
  have hafter := (recalcDone_framed m k lost (fresh s)).follow he
  have hread : ∀ num sub, sub < 256 → num < 0x2200 → on e num sub = on (recalcBooks m k lost (fresh s)) num sub :=
    fun num sub hs hn => hafter.on_eq hs (counted_of_lt _ (by omega)) (by simp [tlObjs]; omega)
  refine ⟨?_, ?_, ?_, ?_, ?_⟩
  · rw [hread _ _ (by omega) (by omega), on_recalcBooks_register hm h10]
    rfl
  · rw [hafter.1 .guard (by decide)]
    simp [recalcBooks]
  · rw [hread _ _ (by decide) (by decide), on_recalcBooks_count h10, on_fresh]
  · rw [hread _ _ (by decide) (by decide), on_recalcBooks_status h10, on_fresh]
  · have hbooks : Framed [.guard] [(0x1C0, 0), (0x1C5, 0), (0x2100 + m, k)] s.dev (recalcBooks m k lost (fresh s)) :=
      .of_fresh (recalcBooks_framed h10)
    exact (hbooks.1.mono (by decide)).trans (hafter.1.mono (by decide))

end

/-- Settles O17: one lemma for each outcome of a key's derivation, the fetch of a TLS key, and the two steps of a recomputation (what
is counted and GUARD_LAST.02 by log entry 54). -/
theorem recomputationsRestore : Obligations.RecomputationsRestore := by
  intro s addr hr
  refine ⟨fun _ _ _ hk hp => keyRederive_silences hr hk hp, fun _ _ _ => keyRederive_counts hr,
    fun _ _ hn hk => keyRederive_remasks hr hn hk, fun _ _ hn hk => keyRederive_loses hr hn hk,
    fun _ hn ha ht hp => tlsKeyFetch_mirrored hr hn ha ht hp, fun _ _ _ hm h1 h10 hmet =>
      ⟨billRecalc_starts hr hm h1 h10 hmet, billRecalc_recomputes hr hm h1 h10 hmet⟩⟩

end Sys2Proof

/-! A counterexample to O53: a NOR copy is written while ring 13 holds a piece of an update package at its head and is not stopped. The
model lets the rings serve what waits in them as the copy is written, since the last copy of a restore-factory starts them again
(R431, R506), and it does so at every copy: the piece is stored with this one (R515). The statement wants the update left as it was
whatever waits in the rings. -/

namespace Sys2Proof

open Machine

namespace PieceInRing

/-- The piece: its index, the CRC of its data, the data (R515). -/
def piece : Bytes := natLe 4 0 ++ natLe 4 (crc32 [7]) ++ [7]

/-- A device that runs. MON.CFG.01 waits for its NOR copy, and the piece waits in ring 13. -/
def start : State :=
  { State.reset with dev := modRing 13 (fun r => { r with q := [{ own := some (.piece 1 piece) }] }) { State.reset.dev with
      phase := .running
      os := { State.reset.dev.os with norDirty := [okey 0x3400 1] }
      update := { State.reset.dev.update with isOpen := true, size := 1, piece := 1024 } } }

/-- The device after the copy. -/
def after : Dev := settle (resumed (norCopyWritten 0x3400 1) (fresh start) start.mem).1

theorem exec_norCopyWritten : exec (.norCopyWritten 0x3400 1) start =
    .next { start with dev := after, mem := (resumed (norCopyWritten 0x3400 1) (fresh start) start.mem).2 } := rfl

/-- The piece is among those received. -/
theorem received : alGet after.update.got 0 = some [7] := by decide +kernel

end PieceInRing

/-- Refutes O53: a piece that waits in ring 13 is stored as a NOR copy is written (`PieceInRing.received`). -/
theorem not_startGoesOn : ¬ Obligations.StartGoesOn := by
  intro h
  obtain ⟨_, _, hcopy⟩ := h PieceInRing.start rfl
  obtain ⟨_, _, _, _, _, _, hframe⟩ :=
    (hcopy 0x3400 1 (by decide) rfl).of_exec_mem PieceInRing.exec_norCopyWritten
  have hupdate : PieceInRing.after.update = PieceInRing.start.dev.update := hframe.1 .update (by decide)
  have hgot := PieceInRing.received
  rw [hupdate] at hgot
  cases hgot

end Sys2Proof

/-! The accesses of a session (O54): a received frame moves only counters and status bits that no check of an access looks at
(`Machine.Alike`), so the server serves the request on a device that answers as the one before it. -/

namespace Sys2Proof.Machine

open Sys2Proof

/-! ### The dictionary's numbers fit their fields -/

/-- A row's group and the subindices it has take one byte each. -/
def rowFits (o : ObjD) : Bool := decide (o.group < 256) && o.subs.all (fun s => decide (s.hi < 256))

theorem dictFor_fits (l : Loc) : (dictFor l).all rowFits = true := by
  unfold dictFor
  repeat' split
  all_goals decide +kernel

theorem findObj_fits {num : Nat} {o : ObjD} {l : Loc} (h : findObj num = some (o, l)) :
    o.group < 256 ∧ ∀ s ∈ o.subs, s.hi < 256 := by
  unfold findObj at h
  split at h
  · cases h
  · obtain ⟨o', hfind, heq⟩ := Option.map_eq_some_iff.1 h
    cases heq
    simpa [rowFits] using List.all_eq_true.1 (dictFor_fits _) o (List.mem_of_find?_eq_some hfind)

/-- A subindex that a row has fits its byte. -/
theorem findSub_lt {num sub : Nat} {o : ObjD} {l : Loc} {s : SubD} (ho : findObj num = some (o, l)) (hs : findSub o sub = some s) :
    sub < 256 := by
  unfold findSub at hs
  split at hs
  · rename_i h0
    simp at h0
    omega
  · have hin := List.find?_some hs
    simp only [Bool.and_eq_true, decide_eq_true_eq] at hin
    exact lt_of_le_of_lt hin.2 ((findObj_fits ho).2 s (List.mem_of_find?_eq_some hs))

end Sys2Proof.Machine

namespace Sys2Proof.Machine

open Sys2Proof

/-- No object that a received frame counts or marks has this key: of FB.STAT and FB.STATUS a frame writes .02, .04 and .00 (R365). -/
abbrev Unheard (num sub : Nat) : Prop :=
  256 * num + sub < 0x300400 ∨ 0x300C00 ≤ 256 * num + sub ∨ (256 * num + sub) % 2 = 1 ∨ 6 ≤ (256 * num + sub) % 256

/-- The checks of an access find the same in both (R97): they differ in the events, what clients and buses hold, and the values that a
received frame counts or marks. -/
structure Alike (d e : Dev) : Prop where
  rest : e = { d with os := e.os, ev := e.ev, bus := e.bus, malpen := e.malpen, sent := e.sent }
  pend : e.os.pend = d.os.pend
  objs : ∀ num sub, Unheard num sub → ov e num sub = ov d num sub

namespace Alike

variable {d e : Dev} (h : Alike d e) {role num sub : Nat}

include h

/-! ### Values, and what no value enters -/

theorem ov (hk : Unheard num sub) : Machine.ov e num sub = Machine.ov d num sub := h.objs num sub hk
theorem on (hk : Unheard num sub) : Machine.on e num sub = Machine.on d num sub := congrArg valNat (h.ov hk)
theorem ob (hk : Unheard num sub) : Machine.ob e num sub = Machine.ob d num sub := congrArg valBytes (h.ov hk)
theorem oi (w : Nat) (hk : Unheard num sub) : Machine.oi w e num sub = Machine.oi w d num sub := congrArg (toS w) (h.on hk)
theorem oq (hk : Unheard num sub) : Machine.oq e num sub = Machine.oq d num sub := h.oi 32 hk
theorem oflag (hk : Unheard num sub) : Machine.oflag e num sub = Machine.oflag d num sub := congrArg (· != 0) (h.on hk)

theorem pair : e.pair = d.pair := by rw [h.rest]
theorem keys : e.keys = d.keys := by rw [h.rest]
theorem update : e.update = d.update := by rw [h.rest]
theorem sched : e.sched = d.sched := by rw [h.rest]

theorem img? : Machine.img? e = Machine.img? d := congrArg SchedS.image h.sched

theorem allPend : Machine.allPend e = Machine.allPend d := by rw [Machine.allPend, h.pend, h.pair]; rfl

theorem sealOpen : Machine.sealOpen e = Machine.sealOpen d := by
  rw [Machine.sealOpen, h.on (by decide)]; rfl

theorem lcState : Machine.lcState e = Machine.lcState d := h.on (by decide)

theorem sesState (n : Nat) : Machine.sesState e n = Machine.sesState d n := h.on (by simp only [oSes]; omega)

theorem anyRun : Machine.anyRun e = Machine.anyRun d := by
  simp (disch := (simp only [oStg]; omega)) only [Machine.anyRun, h.oflag]

theorem sessionOpen : Machine.sessionOpen e = Machine.sessionOpen d := by
  simp only [Machine.sessionOpen, h.sesState]

/-! ### The subindex as the device has it, and what is pending -/

theorem effTy (s : SubD) : Machine.effTy e num sub s = Machine.effTy d num sub s := by
  rw [Machine.effTy, h.ob (by decide)]; rfl

theorem assigned : Machine.assigned e num = Machine.assigned d num := by
  rw [Machine.assigned, h.ob (by decide)]; rfl

theorem objCode : Machine.objCode e num sub = Machine.objCode d num sub := by
  unfold Machine.objCode; simp only [h.assigned]

theorem isDomain : Machine.isDomain e num sub = Machine.isDomain d num sub := by
  unfold Machine.isDomain; simp only [h.effTy]

theorem effAcc (o : ObjD) (s : SubD) : Machine.effAcc e num sub o s = Machine.effAcc d num sub o s := by
  by_cases hn : num < 0x4100
  · have hpoint : ¬ 0x1C000 ≤ num := by omega
    simp [Machine.effAcc, locate, hn, hpoint]
  · unfold Machine.effAcc
    rw [h.ob (by decide), h.on (by omega), h.rest]
    rfl

theorem effDescriptor (o : ObjD) (s : SubD) : Machine.effDescriptor e num sub o s = Machine.effDescriptor d num sub o s := by
  unfold Machine.effDescriptor
  rw [h.effAcc, h.effTy, h.rest]
  rfl

theorem nextVal (hk : Unheard num sub) : Machine.nextVal e num sub = Machine.nextVal d num sub := by
  unfold Machine.nextVal
  rw [h.allPend, h.ov hk]

theorem namedBank {sel : Nat} (hk : Unheard sel 0) (k : Nat) : Machine.namedBank e sel k = Machine.namedBank d sel k := by
  unfold Machine.namedBank
  rw [h.nextVal hk, h.on hk]

/-! ### Roles and levels -/

theorem keyWriteCheck (busy : Bool) : Machine.keyWriteCheck e num role busy = Machine.keyWriteCheck d num role busy := by
  unfold Machine.keyWriteCheck hasKey
  rw [h.lcState, h.sealOpen, h.keys]

theorem rollCheck (m : Nat) : Machine.rollCheck e m role = Machine.rollCheck d m role := by
  unfold Machine.rollCheck
  rw [h.sealOpen]

theorem roleOk (o : ObjD) (v : Bytes) : Machine.roleOk e role num o sub v = Machine.roleOk d role num o sub v := by
  unfold Machine.roleOk
  rw [h.on (by decide), h.rollCheck, h.lcState, h.keys, h.keyWriteCheck]

theorem levelOk {o : ObjD} (hg : o.group < 256) : Machine.levelOk e o = Machine.levelOk d o := by
  unfold Machine.levelOk expertLevel
  rw [h.allPend, h.on (by omega)]

/-! ### Conditions of values and of the state, object by object -/

theorem storeUp : Machine.storeUp e = Machine.storeUp d := by
  unfold Machine.storeUp; rw [h.on (by decide)]

theorem ringSize {r : Nat} (hr : r < 16) : Machine.ringSize e r = Machine.ringSize d r := h.on (by omega)

theorem updPieceCheck (v : Bytes) : Machine.updPieceCheck e v = Machine.updPieceCheck d v := by
  unfold Machine.updPieceCheck
  rw [h.storeUp, h.ringSize (by decide), h.update]

theorem pieceLength (v : Bytes) : Machine.pieceLength e num v = Machine.pieceLength d num v := by
  unfold Machine.pieceLength; rw [h.updPieceCheck]

theorem tableInForce : Machine.tableInForce e = Machine.tableInForce d := by
  unfold Machine.tableInForce
  rw [h.on (by decide), h.on (by decide), h.ob (by omega)]

theorem pointsOk (t : Bytes) : Machine.pointsOk e t = Machine.pointsOk d t := by
  unfold Machine.pointsOk points pointInMatrix
  rw [h.ob (by decide), h.tableInForce, h.rest]
  rfl

theorem forgetOk (a : Nat) : Machine.forgetOk e a = Machine.forgetOk d a := by
  unfold Machine.forgetOk bindings
  rw [h.ob (by decide)]

theorem edgeOk (im : Image) : Machine.edgeOk e im = Machine.edgeOk d im := by
  funext x
  unfold Machine.edgeOk
  rw [h.ob (by decide)]

theorem matrixOk (t : Bytes) (im : Option Image) : Machine.matrixOk e im t = Machine.matrixOk d im t := by
  unfold Machine.matrixOk
  rw [h.on (by decide)]
  simp only [h.edgeOk]

theorem formatOk : Machine.formatOk e role = Machine.formatOk d role := by
  unfold Machine.formatOk nextLayout
  simp (disch := decide) only [h.on]

theorem gen {k : Nat} (hk : k < 2 ^ 20) : Machine.gen e k = Machine.gen d k := h.on (by omega)

theorem seccKey {k : Nat} (hk : k < 2 ^ 17) : Machine.seccKey e k = Machine.seccKey d k := by
  unfold Machine.seccKey seccBranch instKey
  rw [h.gen (by omega), h.gen (by omega), h.keys]

theorem chainOk {k : Nat} (hk : k < 2 ^ 17) (ch : Bytes) : Machine.chainOk e k ch = Machine.chainOk d k ch := by
  unfold Machine.chainOk
  rw [h.seccKey hk, h.ob (by decide)]

theorem lcCheck (target : Nat) (confirm : Bytes) (runs : Bool) :
    Machine.lcCheck e target role confirm runs = Machine.lcCheck d target role confirm runs := by
  unfold Machine.lcCheck hasKey
  rw [h.ob (by decide), h.lcState, h.keys]

theorem pubCheck (n : Nat) (v : Bytes) : Machine.pubCheck e n sub v = Machine.pubCheck d n sub v := by
  unfold Machine.pubCheck
  rw [h.lcState]

theorem pairBit (i : Nat) : Machine.pairBit e i = Machine.pairBit d i := by
  unfold Machine.pairBit; rw [h.on (by decide)]

theorem updBit (i : Nat) : Machine.updBit e i = Machine.updBit d i := by
  unfold Machine.updBit; rw [h.on (by decide)]

theorem updArg : Machine.updArg e num sub = Machine.updArg d num sub := by
  unfold Machine.updArg; rw [h.update]

theorem switchOk : Machine.switchOk e = Machine.switchOk d := by
  unfold Machine.switchOk partnerReady inHandover partnerPresent
  rw [h.oflag (by decide), h.pairBit, h.pairBit, h.pair]

theorem restartCheck (quiet : Bool) : Machine.restartCheck e quiet = Machine.restartCheck d quiet := by
  unfold Machine.restartCheck quietOk partnerPresent
  rw [h.anyRun, h.switchOk, h.pairBit, h.on (by decide), h.pair]

theorem namesMe (unit : Nat) : Machine.namesMe e unit = Machine.namesMe d unit := by
  unfold Machine.namesMe portNo
  rw [h.on (by decide)]

theorem updBeginCheck (size piece : Nat) : Machine.updBeginCheck e size piece = Machine.updBeginCheck d size piece := by
  unfold Machine.updBeginCheck
  rw [h.updBit, h.lcState]

theorem updActivateCheck (unit : Nat) (quiet : Bool) : Machine.updActivateCheck e unit quiet = Machine.updActivateCheck d unit quiet := by
  unfold Machine.updActivateCheck
  rw [h.namesMe, h.restartCheck, h.on (by decide)]

theorem updRejectCheck (unit : Nat) : Machine.updRejectCheck e unit = Machine.updRejectCheck d unit := by
  unfold Machine.updRejectCheck inTrial
  rw [h.namesMe, h.restartCheck, h.updBit]

/-! ### Range (check 8) -/

theorem asWritten (v : Nat) {n k : Nat} (hk : Unheard n k) :
    Machine.asWritten e num sub v n k = Machine.asWritten d num sub v n k := by
  unfold Machine.asWritten
  rw [h.nextVal hk]

section

variable {w w' : Nat → Nat → Nat} (hw : ∀ n k, Unheard n k → w n k = w' n k)

include hw

theorem basicOk (s : Nat) : Machine.basicOk e s w = Machine.basicOk d s w' := by
  unfold Machine.basicOk
  simp (disch := (simp only [oStg, oGrp]; omega)) only [hw]
  rw [h.rest]
  rfl

theorem groupBasicOk (s g : Nat) : Machine.groupBasicOk e s g w = Machine.groupBasicOk d s g w' := by
  unfold Machine.groupBasicOk
  simp (disch := (simp only [oStg, oGrp]; omega)) only [hw]
  rw [h.rest]
  rfl

theorem recLayoutOk (hn : ∀ k, k < 256 → Unheard num k) : Machine.recLayoutOk e (w num) = Machine.recLayoutOk d (w' num) := by
  unfold Machine.recLayoutOk
  rw [h.on (by decide), hw _ 1 (hn 1 (by decide)), hw _ 3 (hn 3 (by decide)), hw _ 4 (hn 4 (by decide))]

omit h in
theorem thermOk (hn : ∀ k, k < 256 → Unheard num k) : Machine.thermOk (w num) = Machine.thermOk (w' num) := by
  simp only [Machine.thermOk, hw _ 1 (hn 1 (by decide)), hw _ 2 (hn 2 (by decide)), hw _ 3 (hn 3 (by decide)),
    hw _ 4 (hn 4 (by decide))]

theorem devRange (hlt : num < 2 ^ 17) (hn : ∀ k, k < 256 → Unheard num k) (v : Val) :
    Machine.devRange e role num sub v w = Machine.devRange d role num sub v w' := by
  have hr : ∀ k, k < 256 → w num k = w' num k := fun k hk => hw num k (hn k hk)
  unfold Machine.devRange featOn
  dsimp only
  rw [hr 1 (by decide), hr 2 (by decide), hr 3 (by decide), h.on (by decide), h.pointsOk, h.forgetOk, h.matrixOk, h.img?,
    h.recLayoutOk hw hn, thermOk hw hn, h.chainOk (by omega), h.lcCheck, h.anyRun, h.keys, h.pubCheck, h.ob (by decide),
    h.updBeginCheck, h.updPieceCheck, h.updActivateCheck, h.updRejectCheck, h.updArg, h.updArg, h.updArg]

end

omit h in
theorem leQ {r r' : Nat → Nat} (hr : ∀ k, k < 256 → r k = r' k) {a b : Nat} (ha : a < 256) (hb : b < 256) :
    Machine.leQ r a b = Machine.leQ r' a b := by
  unfold Machine.leQ
  rw [hr a ha, hr b hb]

omit h in
/-- The bounds of the six candidates of a record, each `m` subindices from the one before. -/
theorem leQ_range {r r' : Nat → Nat} (hr : ∀ k, k < 256 → r k = r' k) {m : Nat} (hm : m < 16) :
    (List.range 6).all (fun j => Machine.leQ r (3 + m * j) (4 + m * j)) =
      (List.range 6).all (fun j => Machine.leQ r' (3 + m * j) (4 + m * j)) := by
  have hlt : ∀ j ∈ List.range 6, m * j ≤ 15 * 5 := fun j hj => Nat.mul_le_mul (by omega) (by have := List.mem_range.1 hj; omega)
  rw [Bool.eq_iff_iff, List.all_eq_true, List.all_eq_true]
  exact forall₂_congr fun j hj => by rw [leQ hr (by have := hlt j hj; omega) (by have := hlt j hj; omega)]

omit h in
/-- An object whose value a received frame leaves alone. -/
theorem unheard (hn : steadyObj num = true) {k : Nat} (hk : k < 256) : Unheard num k := by
  simp [steadyObj] at hn
  omega

theorem valueOk (hn : steadyObj num = true) (v : Val) : Machine.valueOk e role num sub v = Machine.valueOk d role num sub v := by
  have hw : ∀ n k, Unheard n k → Machine.asWritten e num sub (valNat v) n k = Machine.asWritten d num sub (valNat v) n k :=
    fun _ _ => h.asWritten _
  have hr : ∀ k, k < 256 → Machine.asWritten e num sub (valNat v) num k = Machine.asWritten d num sub (valNat v) num k :=
    fun k hk => hw num k (unheard hn hk)
  unfold Machine.valueOk
  dsimp only
  cases hl : locate num with
  | none => rfl
  | some l =>
    have hlt : num < 2 ^ 17 := by
      by_contra hge
      simp [locate, show ¬ num < 0x4100 by omega, show ¬ num < 0x4300 by omega, show ¬ num < 0x8000 by omega,
        show ¬ num < 0x10000 by omega, show ¬ num < 0x14000 by omega, show ¬ num < 0x18000 by omega, show ¬ num < 0x1C000 by omega,
        show ¬ num < 0x20000 by omega] at hl
    simp (disch := omega) only [hr, leQ hr, leQ_range hr, h.devRange hw hlt (fun k hk => unheard hn hk), h.basicOk hw,
      h.groupBasicOk hw]
    rw [h.rest]
    rfl

/-! ### State (check 9) -/

theorem devFixed : Machine.devFixed e role num = Machine.devFixed d role num := by
  unfold Machine.devFixed
  rw [h.sealOpen, h.on (by decide), h.namedBank (by decide), h.formatOk, h.keyWriteCheck, h.sessionOpen, h.anyRun]

theorem stateFixed : Machine.stateFixed e role num sub = Machine.stateFixed d role num sub := by
  unfold Machine.stateFixed
  have hbank : ∀ i, Unheard (oStg i 1) 0 := fun i => by simp only [oStg]; omega
  simp only [h.devFixed, h.namedBank (hbank _), h.sesState, h.on (show Unheard 0x4002 0 by decide), h.img?]
  rw [h.rest]

theorem dieThermClearOk : Machine.dieThermClearOk e = Machine.dieThermClearOk d := by
  have hk : ∀ k, k < 4 → Machine.on e 0x285 (k + 1) = Machine.on d 0x285 (k + 1) ∧
      Machine.oi 16 e 0x284 (k + 1) = Machine.oi 16 d 0x284 (k + 1) :=
    fun k hk => ⟨h.on (by omega), h.oi 16 (by omega)⟩
  rw [Bool.eq_iff_iff, Machine.dieThermClearOk, Machine.dieThermClearOk, List.all_eq_true, List.all_eq_true]
  exact forall₂_congr fun k hm => by rw [(hk k (List.mem_range.1 hm)).1, (hk k (List.mem_range.1 hm)).2]

theorem nodeClearOk (n : Nat) : Machine.nodeClearOk e n = Machine.nodeClearOk d n := by
  unfold Machine.nodeClearOk
  rw [h.oq (by omega), h.rest]
  rfl

theorem devState (v : Val) : Machine.devState e role num sub v = Machine.devState d role num sub v := by
  unfold Machine.devState
  dsimp only
  simp only [h.nodeClearOk]
  rw [h.img?, h.dieThermClearOk, h.ringSize (by decide), h.switchOk, h.lcCheck, h.anyRun, h.keys, h.rollCheck, h.pubCheck,
    h.updBeginCheck, h.updPieceCheck, h.updActivateCheck, h.updRejectCheck, h.updArg, h.updArg, h.updArg, h.rest]

theorem groupCarries (s g : Nat) : Machine.groupCarries e s g = Machine.groupCarries d s g := by
  unfold Machine.groupCarries
  rw [h.oq (by simp only [oGrp]; omega), h.oq (by simp only [oGrp]; omega)]

theorem maskCarries (s mask : Nat) : Machine.maskCarries e s mask = Machine.maskCarries d s mask := by
  unfold Machine.maskCarries
  simp only [h.groupCarries]
  rw [h.rest]
  rfl

theorem conThermClearOk (c m : Nat) : Machine.conThermClearOk e c m = Machine.conThermClearOk d c m := by
  unfold Machine.conThermClearOk
  simp (disch := (simp only [oCon]; omega)) only [h.on]
  rw [h.rest]
  rfl

theorem stgThermClearOk (s : Nat) : Machine.stgThermClearOk e s = Machine.stgThermClearOk d s := by
  unfold Machine.stgThermClearOk
  simp (disch := (simp only [oStg]; omega)) only [h.on]
  rw [h.rest]
  rfl

theorem lchClearOk (n m : Nat) : Machine.lchClearOk e n m = Machine.lchClearOk d n m := by
  unfold Machine.lchClearOk lchNodeStill
  simp (disch := omega) only [h.on]
  rw [h.rest]
  rfl

theorem stateValue (hn : steadyObj num = true) (v : Val) :
    Machine.stateValue e role num sub v = Machine.stateValue d role num sub v := by
  unfold Machine.stateValue stageThermal
  simp (disch := (simp only [oStg, oSes]; omega)) only [h.devState, h.maskCarries, h.asWritten _ (unheard hn (show 1 < 256 by decide)),
    h.groupCarries, h.oflag, h.stgThermClearOk, h.nodeClearOk, h.conThermClearOk, h.on, h.sesState, h.lchClearOk]
  rw [h.rest]
  rfl

theorem stateOk (hn : steadyObj num = true) (v : Val) : Machine.stateOk e role num sub v = Machine.stateOk d role num sub v := by
  unfold Machine.stateOk
  rw [h.stateFixed, h.stateValue hn]

/-! ### The accesses -/

theorem roomOk (level : Nat) (cmd : Bool) : Machine.roomOk e num sub level cmd = Machine.roomOk d num sub level cmd := by
  unfold Machine.roomOk
  rw [h.allPend]

theorem entered (v : Val) : Machine.entered e num v = Machine.entered d num v := by
  unfold Machine.entered
  rw [h.on (by decide)]

theorem recalcing (m s : Nat) : Machine.recalcing e m s = Machine.recalcing d m s := by
  rw [h.rest]
  rfl

theorem writeCheck (hn : steadyObj num = true) (v : Bytes) :
    Machine.writeCheck e role num sub v = Machine.writeCheck d role num sub v := by
  unfold Machine.writeCheck
  cases ho : findObj num with
  | none => rfl
  | some ol =>
    obtain ⟨o, l⟩ := ol
    dsimp only
    simp only [h.assigned, h.effAcc, h.effTy, h.roleOk, h.levelOk (findObj_fits ho).1, h.pieceLength, h.valueOk hn, h.stateOk hn,
      h.roomOk, h.entered, h.recalcing]

theorem ringIdle {r : Nat} (hr : r < 16) : Machine.ringIdle e r = Machine.ringIdle d r := by
  unfold Machine.ringIdle
  rw [h.oflag (by omega), h.rest]
  rfl

theorem readCheck : Machine.readCheck e role num sub = Machine.readCheck d role num sub := by
  unfold Machine.readCheck initSvcReadable
  simp only [h.assigned, h.lcState, h.ringSize (show 14 < 16 by decide), h.ringIdle (show 14 < 16 by decide), h.recalcing]

theorem viaPartner : Machine.viaPartner e num = Machine.viaPartner d num := by
  unfold Machine.viaPartner partnerPresent
  rw [h.pairBit, h.pair]

end Alike
end Sys2Proof.Machine

namespace Sys2Proof.Machine

open Sys2Proof

/-! ### The value of an admitted read -/

section

variable {d e : Dev} {role num sub : Nat}

/-- The read of a steady object moves nothing (R444). -/
theorem readVal_snd (hn : steadyObj num = true) : (readVal role num sub d).2 = d := by
  have hcur : ¬ (0x3328 ≤ num ∧ num < 0x3330) := by simp [steadyObj] at hn; omega
  unfold readVal
  split
  · rfl
  · split
    · rfl
    · simp only [if_neg hcur]
      repeat' split
      all_goals rfl

theorem Alike.readVal (h : Alike d e) (hn : steadyObj num = true) : (readVal role num sub e).1 = (readVal role num sub d).1 := by
  have hcur : ¬ (0x3328 ≤ num ∧ num < 0x3330) := by simp [steadyObj] at hn; omega
  have hev : num ≠ 0x100 ∧ num ≠ 0x101 ∧ num ≠ 0x102 ∧ num ≠ 0x103 ∧ num ≠ 0x104 := by simp [steadyObj] at hn; omega
  obtain ⟨h0, h1, h2, h3, h4⟩ := hev
  unfold Machine.readVal
  cases ho : findObj num with
  | none => rfl
  | some ol =>
    obtain ⟨o, l⟩ := ol
    cases hs : findSub o sub with
    | none => simp only [hs]
    | some s =>
      have hov : Machine.ov e num sub = Machine.ov d num sub := h.ov (Alike.unheard hn (findSub_lt ho hs))
      simp only [hs, if_neg hcur, if_neg h0, if_neg h1, if_neg h2, if_neg h3, if_neg h4, h.effTy, hov]
      repeat' split
      all_goals rfl

end

/-! ### A received frame changes nothing that an access looks at -/

section

variable {b : Nat} {d : Dev}

theorem fbErrBits_rest (b : Nat) (d : Dev) : fbErrBits b d = { d with os := (fbErrBits b d).os, ev := (fbErrBits b d).ev } := by
  unfold fbErrBits
  dsimp only
  split <;> rfl

theorem fbRecv_rest (b : Nat) (d : Dev) : fbRecv b d = { d with os := (fbRecv b d).os, ev := (fbRecv b d).ev } := by
  unfold fbRecv
  dsimp only
  split
  · rfl
  · exact fbErrBits_rest _ _

theorem ov_fbErrBits {num sub : Nat} (h : okey (0x3004 + b) 0 ≠ okey num sub) : ov (fbErrBits b d) num sub = ov d num sub := by
  unfold fbErrBits wrStatus
  dsimp only
  rw [ov_put_other _ _ _ _ _ _ h, ov_put_other _ _ _ _ _ _ h]
  split <;> rfl

theorem ov_fbRecv {num sub : Nat} (h0 : okey (0x3004 + b) 0 ≠ okey num sub) (h2 : okey (0x3008 + b) 2 ≠ okey num sub)
    (h4 : okey (0x3008 + b) 4 ≠ okey num sub) : ov (fbRecv b d) num sub = ov d num sub := by
  unfold fbRecv incr
  dsimp only
  split
  · exact ov_put_other _ _ _ _ _ _ h2
  · rw [ov_fbErrBits h0, ov_put_other _ _ _ _ _ _ h4, ov_put_other _ _ _ _ _ _ h2]

/-- The device as the server finds it when it has received a request of bus `b`. -/
theorem alike_fbRecv (hb : b < 4) (s : State) : Alike s.dev (fbRecv b (fresh s)) where
  rest := by rw [fbRecv_rest]; rfl
  pend := (fbRecv_framed b (fresh s)).2.2
  objs := fun num sub hk => ov_fbRecv (by simp only [okey]; omega) (by simp only [okey]; omega) (by simp only [okey]; omega)

/-- A received frame sets and clears bits 2 and 3 of FB.STATUS alone (R365). -/
theorem fbBit_fbRecv {i : Nat} (h2 : i ≠ 2) (h3 : i ≠ 3) : fbBit (fbRecv b d) b i = fbBit d b i := by
  have hput : ∀ (n j : Nat) (x : Bool), i ≠ j → (putBit n j x).testBit i = n.testBit i := by
    intro n j x hj
    cases x
    · simp [putBit, testBit_clearBit, Ne.symm hj]
    · simp [putBit, testBit_setBit, Ne.symm hj]
  have herr : ∀ x : Dev, fbBit (fbErrBits b x) b i = fbBit x b i := by
    intro x
    unfold fbBit fbErrBits wrStatus
    dsimp only
    rw [on_put_same, hput _ _ _ h3, on_put_same, hput _ _ _ h2]
    split <;> rfl
  have hinc : ∀ sub n (x : Dev), sub ≠ 0 → sub < 256 → fbBit (put (0x3008 + b) sub n x) b i = fbBit x b i := by
    intro sub n x h0 hs
    unfold fbBit
    rw [on_put_other _ _ _ _ _ _ (by simp only [okey]; omega)]
  unfold fbRecv incr
  dsimp only
  split
  · exact hinc _ _ _ (by decide) (by decide)
  · rw [herr, hinc _ _ _ (by decide) (by decide), hinc _ _ _ (by decide) (by decide)]

theorem fbMaySend_fbRecv : fbMaySend (fbRecv b d) b = fbMaySend d b := by
  unfold fbMaySend
  rw [fbBit_fbRecv (by decide) (by decide), fbBit_fbRecv (by decide) (by decide), fbBit_fbRecv (by decide) (by decide)]

theorem sesOf_fbRecv (c : Client) : sesOf? (fbRecv b d) c = sesOf? d c := by rw [fbRecv_rest]; rfl

theorem xferOf_fbRecv (c : Client) (tag : Nat) : xferOf? (fbRecv b d) c tag = xferOf? d c tag := by rw [fbRecv_rest]; rfl

theorem tagWaits_fbRecv (c : Client) (tag : Nat) : tagWaits (fbRecv b d) c tag = tagWaits d c tag := by rw [fbRecv_rest]; rfl

theorem xfersOf_fbRecv (c : Client) : xfersOf (fbRecv b d) c = xfersOf d c := by rw [fbRecv_rest]; rfl

theorem xfersAll_fbRecv : xfersAll (fbRecv b d) = xfersAll d := by rw [fbRecv_rest]; rfl

end

/-! ### A request that is heard, and its answer -/

section

variable {s : State} {p : PduIn} {m : MSes} {f : Dev → Dev} {x e : Dev}

/-- A PDU that the server hears on a field bus is served (R362, R367 to R369, R372). -/
theorem serve_hears (h : hears s.dev p) (op : Nat) : serve false op p f (fresh s) = f (fbRecv p.c.bus (fresh s)) := by
  obtain ⟨hb, hr, hs, ha, hfull, _, hid, hlen, hpad⟩ := h
  have hrun : running (fresh s) = true := by
    simp only [fbMayRecv, Bool.and_eq_true] at hr
    exact hr.1.1.1
  have hsound : pduSound p = true := by simp [pduSound, hid, ha]
  have hsend : fbMaySend (fbRecv p.c.bus (fresh s)) p.c.bus = true := by rw [fbMaySend_fbRecv]; exact hs
  have hwhole : ¬ (p.len ≠ p.data.length ∨ (if p.c.bus < 4 then p.pad.any (· != 0) else !p.pad.isEmpty) = true) := by
    rw [if_pos hb, hpad]
    simp [hlen]
  rw [serve, if_neg (by simp [hrun]), if_pos hb, fbTake_taken (d := fresh s) hr hsound hfull, if_pos hsend, whole, if_neg hwhole]

/-- A command that serves a PDU answers a state reached through what the server makes of the request. -/
theorem serve_completes {c : Instr} {op : Nat} {P : Dev → Prop} (hc : exec c s = act (serve false op p f) s) (h : hears s.dev p)
    (hx : f (fbRecv p.c.bus (fresh s)) = x) (hP : ∀ e, Follows x e → P e) : Completes c s P :=
  act_completes hc (fun e he => hP e (by rwa [serve_hears h, hx] at he))

/-- What is sent to a client of a field bus waits in its queue. -/
theorem sendPdu_bus {c : Client} {pdu : Bytes} (hb : c.bus < 4) (hs : fbMaySend x c.bus = true) (hp : pdu ≠ []) :
    sendPdu c pdu x = modFb c.bus (fun b => { b with tx := b.tx ++
      [{ id := canId 4 9 c.addr 0, payload := pdu ++ List.replicate (canLen pdu.length - pdu.length) 0 }] }) x := by
  rw [sendPdu, if_neg (by simpa using hp), if_pos hb, fbSend, if_pos hs]

theorem sendPdu_framed {c : Client} (hb : c.bus < 4) (pdu : Bytes) (ks : List (Nat × Nat)) (x : Dev) :
    Framed [.bus] ks x (sendPdu c pdu x) := by
  unfold sendPdu fbSend
  rw [if_pos hb]
  exact .ite (.refl _ _ _) (.ite (.modFb (by simp) (.refl _ _ _)) (.refl _ _ _))

/-- The answer to a client of a field bus is among the frames to be sent, whatever follows the command. -/
theorem replied_sendPdu {c : Client} {pdu : Bytes} (hb : c.bus < 4) (hs : fbMaySend x c.bus = true) (hp : pdu ≠ [])
    (h : Follows (sendPdu c pdu x) e) : replied e c pdu := by
  rw [sendPdu_bus hb hs hp] at h
  exact ⟨_, h.queued c.bus _ (by rw [fbS_modFb_same]; exact List.mem_append_right _ (List.mem_singleton.2 rfl)), rfl, List.take_left⟩

theorem pduBytes_ne_nil (op tag obj sub : Nat) (data : Bytes) : pduBytes op tag obj sub data ≠ [] := by
  simp [pduBytes, natLe]

/-- A request that is only answered: the answer waits on the client's bus, and all else but what the receipt counts is as it was. -/
theorem serve_answers {c : Instr} {op : Nat} {pdu : Bytes} (hc : exec c s = act (serve false op p f) s) (h : hears s.dev p)
    (hp : pdu ≠ []) (hx : f (fbRecv p.c.bus (fresh s)) = sendPdu p.c pdu (fbRecv p.c.bus (fresh s))) :
    Completes c s (fun e => replied e p.c pdu ∧ Framed [.bus] (busObjs p.c.bus) s.dev e) := by
  refine serve_completes hc h hx (fun e he => ?_)
  have hreceived : Framed [.bus] (busObjs p.c.bus) (fresh s) (fbRecv p.c.bus (fresh s)) :=
    (fbRecv_framed p.c.bus (fresh s)).mono (by simp) (fun _ hk => hk)
  obtain ⟨hb, _, hs, _⟩ := h
  exact ⟨replied_sendPdu hb (by rw [fbMaySend_fbRecv]; exact hs) hp he,
    .of_fresh ((hreceived.trans (sendPdu_framed hb pdu _ _)).follow he)⟩

end

end Sys2Proof.Machine

namespace Sys2Proof.Machine

open Sys2Proof

/-! ### The ways of a request -/

section

variable {s : State} {p : PduIn} {m : MSes} {lenOk : Bool} {g : MSes → Dev → Dev}

/-- The device as it serves the request: the frame is received. -/
def received (s : State) (p : PduIn) : Dev := fbRecv p.c.bus (fresh s)

theorem alike_received (h : hears s.dev p) : Alike s.dev (received s p) := alike_fbRecv h.1 s

/-- Without a session a request is refused (R379). -/
theorem inSession_none (ho : p.obj < 2 ^ 17) (hl : lenOk = true) (hs : sesOf? s.dev p.c = none) :
    inSession p lenOk g (received s p) = abortTo p aNoSession (received s p) := by
  have hses : sesOf? (received s p) p.c = none := (sesOf_fbRecv p.c).trans hs
  rw [inSession, if_neg (by simp [hl]; omega), hses]

/-- With as many transfers in progress as R377 allows a request is refused. -/
theorem inSession_limit (h : InSession s.dev p m) (hl : lenOk = true) (hx : 4 ≤ xfersOf s.dev p.c ∨ 64 ≤ xfersAll s.dev) :
    inSession p lenOk (fun m => freshTag p (g m)) (received s p) = abortTo p aLimit (received s p) := by
  obtain ⟨_, ho, _, hm, hfree, htag⟩ := h
  have hses : sesOf? (received s p) p.c = some m := (sesOf_fbRecv p.c).trans hm
  have hused : ((xferOf? (received s p) p.c p.tag).isSome || tagWaits (received s p) p.c p.tag) = false := by
    rw [received, xferOf_fbRecv, tagWaits_fbRecv]
    exact Bool.or_eq_false_iff.2 ⟨Option.isSome_eq_false_iff.2 (Option.isNone_iff_eq_none.2 hfree), htag⟩
  rw [inSession, if_neg (by simp [hl]; omega), hses]
  simp only [freshTag, hused, Bool.false_eq_true, if_false]
  rw [if_pos (by rw [received, xfersOf_fbRecv, xfersAll_fbRecv]; exact hx)]

/-- A request of a session with a free TAG is served. -/
theorem inSession_served (h : InSession s.dev p m) (hl : lenOk = true) (hc : xfersOf s.dev p.c < 4) (ha : xfersAll s.dev < 64) :
    inSession p lenOk (fun m => freshTag p (g m)) (received s p) = g m (received s p) := by
  obtain ⟨_, ho, _, hm, hfree, htag⟩ := h
  have hses : sesOf? (received s p) p.c = some m := (sesOf_fbRecv p.c).trans hm
  have hused : ((xferOf? (received s p) p.c p.tag).isSome || tagWaits (received s p) p.c p.tag) = false := by
    rw [received, xferOf_fbRecv, tagWaits_fbRecv]
    exact Bool.or_eq_false_iff.2 ⟨Option.isSome_eq_false_iff.2 (Option.isNone_iff_eq_none.2 hfree), htag⟩
  rw [inSession, if_neg (by simp [hl]; omega), hses]
  simp only [freshTag, hused, Bool.false_eq_true, if_false]
  rw [if_neg (by rw [received, xfersOf_fbRecv, xfersAll_fbRecv]; exact not_or.2 ⟨Nat.not_le.2 hc, Nat.not_le.2 ha⟩)]

end

/-! ### READ and DESCRIBE -/

section

variable {s : State} {p : PduIn} {m : MSes}

theorem mReadObj_value (h : InSession s.dev p m) (hc : xfersOf s.dev p.c < 4) (ha : xfersAll s.dev < 64) (hd : p.data = [])
    (ho : objCode s.dev p.obj p.sub = 0) (hdom : isDomain s.dev p.obj p.sub = false) (hr : readCheck s.dev m.role p.obj p.sub = 0)
    (hn : steadyObj p.obj = true) (hlen : (readVal m.role p.obj p.sub s.dev).1.length ≤ 56) :
    mReadObj p (received s p) =
      sendPdu p.c (pduBytes 2 p.tag p.obj p.sub (readVal m.role p.obj p.sub s.dev).1) (received s p) := by
  have hlike := alike_received h.1
  obtain ⟨hbus, _, _, _, _, hword, _⟩ := h.1
  rw [mReadObj, inSession_served h (by simp [hd]) hc ha]
  simp [hlike.objCode, hlike.isDomain, hlike.readCheck, ho, hdom, hr, hword, accessWord, hlike.readVal hn, readVal_snd hn, segMax,
    hbus, Nat.not_lt.2 hlen]

theorem mReadObj_refused (h : InSession s.dev p m) (hc : xfersOf s.dev p.c < 4) (ha : xfersAll s.dev < 64) (hd : p.data = [])
    (ho : objCode s.dev p.obj p.sub = 0) (hdom : isDomain s.dev p.obj p.sub = false) (hr : readCheck s.dev m.role p.obj p.sub ≠ 0) :
    mReadObj p (received s p) = abortTo p (readCheck s.dev m.role p.obj p.sub) (received s p) := by
  have hlike := alike_received h.1
  rw [mReadObj, inSession_served h (by simp [hd]) hc ha]
  simp [hlike.objCode, hlike.isDomain, hlike.readCheck, ho, hdom, hr]

theorem mDescribe_descriptor {o : ObjD} {k : Loc} {b : SubD} (h : InSession s.dev p m) (hc : xfersOf s.dev p.c < 4)
    (ha : xfersAll s.dev < 64) (hd : p.data = []) (hfo : findObj p.obj = some (o, k)) (hfs : findSub o p.sub = some b)
    (ho : objCode s.dev p.obj p.sub = 0) :
    mDescribe p (received s p) =
      sendPdu p.c (pduBytes 0x0D p.tag p.obj p.sub (effDescriptor s.dev p.obj p.sub o b)) (received s p) := by
  have hlike := alike_received h.1
  rw [mDescribe, inSession_served h (by simp [hd]) hc ha]
  simp [hlike.objCode, ho, hfo, hfs, hlike.effDescriptor]
end

end Sys2Proof.Machine

namespace Sys2Proof.Machine

open Sys2Proof

/-! ### WRITE -/

section

variable {s : State} {p : PduIn} {m : MSes} {w : Pend} {d e : Dev} {mon : Nat → Nat → Dev → Dev}

/-- A unit that works alone enters the write of a client, and answers it. -/
theorem acceptWrite_answers {c : Client} {b : Bytes} (hr : d.pair.role = .single) (hw : w.num ≠ 0x011) :
    acceptWrite w (.pdu c b) mon d = sendPdu c b (enterWrite w d) := by
  simp [acceptWrite, viaPartner, hr, replyTo, hw]

theorem enterWrite_framed (hl : w.level ≠ 0) : OnlyParts [] d (enterWrite w d) ∧ SameObjects [] d (enterWrite w d) := by
  rw [enterWrite_waits hl]
  exact ⟨onlyParts_of_fields rfl, .of_cur rfl⟩

theorem fbMaySend_enterWrite (hl : w.level ≠ 0) (b : Nat) : fbMaySend (enterWrite w d) b = fbMaySend d b := by
  rw [enterWrite_waits hl]
  rfl

theorem mWriteObj_entered (h : InSession s.dev p m) (hc : xfersOf s.dev p.c < 4) (ha : xfersAll s.dev < 64)
    (hr : s.dev.pair.role = .single) (ho : objCode s.dev p.obj p.sub = 0) (hdom : isDomain s.dev p.obj p.sub = false)
    (hnum : p.obj ≠ 0x011) (hn : steadyObj p.obj = true) (hw : writeCheck s.dev m.role p.obj p.sub p.data = (0, w)) :
    mWriteObj mon p (received s p) = sendPdu p.c (pduBytes 4 p.tag p.obj p.sub []) (enterWrite w (received s p)) := by
  have hlike := alike_received h.1
  have hrole : (received s p).pair.role = .single := by rw [hlike.pair, hr]
  have hnames : w.num = p.obj := by
    have hown := (writeCheck_names (by rw [hw])).1
    rwa [hw] at hown
  have hbus : p.c.bus < 4 := h.1.1
  have ⟨_, _, hlen, _⟩ := h
  rw [mWriteObj, inSession_served h rfl hc ha]
  simp [refusesWrite, hrole, hlike.objCode, hlike.isDomain, hlike.writeCheck hn, ho, hdom, hw, segMax, hbus, Nat.not_lt.2 hlen,
    acceptWrite_answers hrole (by rw [hnames]; exact hnum)]

theorem mWriteObj_standby (h : InSession s.dev p m) (hc : xfersOf s.dev p.c < 4) (ha : xfersAll s.dev < 64)
    (hr : s.dev.pair.role = .standby) (ho : ownWrite p.obj = false) :
    mWriteObj mon p (received s p) = abortTo p aStandby (received s p) := by
  have hrole : (received s p).pair.role = .standby := by rw [(alike_received h.1).pair, hr]
  rw [mWriteObj, inSession_served h rfl hc ha]
  simp [refusesWrite, hrole, ho]

/-- R37, R374: an admitted write of a frame level waits, and is answered at once. -/
theorem writeObj_waits (h : InSession s.dev p m) (hc : xfersOf s.dev p.c < 4) (ha : xfersAll s.dev < 64)
    (hr : s.dev.pair.role = .single) (ho : objCode s.dev p.obj p.sub = 0) (hdom : isDomain s.dev p.obj p.sub = false)
    (hnum : p.obj ≠ 0x011) (hn : steadyObj p.obj = true) (hw : writeCheck s.dev m.role p.obj p.sub p.data = (0, w))
    (hl : w.level ≠ 0) (hcmd : w.cmd = false) :
    Completes (.writeObj p) s (fun e =>
      replied e p.c (pduBytes 4 p.tag p.obj p.sub []) ∧
        e.os.pend = s.dev.os.pend.filter (fun q => q.cmd || q.num != w.num || q.sub != w.sub) ++ [w] ∧
        OnlyParts [.bus] s.dev e ∧ SameObjects (busObjs p.c.bus) s.dev e) := by
  refine serve_completes rfl h.1 (mWriteObj_entered h hc ha hr ho hdom hnum hn hw) (fun e he => ?_)
  obtain ⟨hb, _, hs, _⟩ := h.1
  have hsend : fbMaySend (enterWrite w (received s p)) p.c.bus = true := by
    rw [fbMaySend_enterWrite hl, received, fbMaySend_fbRecv]
    exact hs
  have hreceived : Framed [.bus] (busObjs p.c.bus) s.dev (received s p) :=
    .of_fresh ((fbRecv_framed p.c.bus (fresh s)).mono (by simp) (fun _ hk => hk))
  have hsent : Framed [.bus] (busObjs p.c.bus) (enterWrite w (received s p)) e :=
    (sendPdu_framed hb _ _ _).follow he
  obtain ⟨hparts, hobjs⟩ := enterWrite_framed (d := received s p) hl
  refine ⟨replied_sendPdu hb hsend (pduBytes_ne_nil _ _ _ _ _) he, ?_, (hreceived.1.trans (hparts.mono (by simp))).trans hsent.1,
    (hreceived.2.1.trans (hobjs.mono (by simp))).trans hsent.2.1⟩
  rw [hsent.2.2, enterWrite_waits hl]
  simp [hcmd, hreceived.2.2]

/-! ### SYS.FEATURE_ACCEPTED -/

/-- SYS.FEATURE_ACCEPTED is banked to the major frame (R107). -/
theorem writeCheck_featureAccepted {role : Nat} {v : Bytes} : (writeCheck d role 0x011 0 v).2.level = 3 := rfl

/-- A session but for the counters of what was sent. -/
def sesCore (x : MSes) : MSes := { x with txc := 0, evSent := 0 }

/-- What follows a command leaves the sessions alone but for those counters. -/
theorem Follows.sesOf (h : Follows d e) (c : Client) : (sesOf? e c).map sesCore = (sesOf? d c).map sesCore := by
  have hcore : e.malpen.ses.map sesCore = d.malpen.ses.map sesCore := congrArg MalpenS.ses (h.part .malpen : malpenCore _ = malpenCore _)
  have hfind : ∀ l : List MSes, (l.find? (fun x => x.client == c)).map sesCore = (l.map sesCore).find? (fun x => x.client == c) :=
    fun l => by rw [List.find?_map]; rfl
  rw [sesOf?, sesOf?, hfind, hfind, hcore]

theorem sesOf_takeView (c : Client) (v : Nat) : sesOf? (takeView c v d) c = (sesOf? d c).map (fun x => { x with want := v }) := by
  have hfind : (fun x : MSes => x.client == c) ∘ (fun x : MSes => if x.client == c then { x with want := v } else x) =
      fun x => x.client == c := by
    funext x
    simp only [Function.comp_apply]
    split <;> rfl
  rw [sesOf?, sesOf?, takeView, List.find?_map, hfind]
  cases hses : d.malpen.ses.find? (fun x => x.client == c) with
  | none => rfl
  | some x =>
    have hx : x.client = c := eq_of_beq (List.find?_some (p := fun x : MSes => x.client == c) hses)
    simp [hx]

theorem onlyParts_malpen {ps : List Part} (x : MalpenS) (h : .malpen ∈ ps) : OnlyParts ps d { d with malpen := x } := by
  intro q hq
  cases q <;> first | exact absurd h hq | rfl | exact fun _ => rfl

theorem takeView_framed (c : Client) (v : Nat) (d : Dev) : Framed [.malpen] [] d (takeView c v d) :=
  .of_os (onlyParts_malpen _ (by simp)) rfl

theorem sesOf_enterWrite (hl : w.level ≠ 0) (c : Client) : sesOf? (enterWrite w d) c = sesOf? d c := by
  rw [enterWrite_waits hl]
  rfl

theorem sesOf_fresh (s : State) (c : Client) : sesOf? (fresh s) c = sesOf? s.dev c := rfl

theorem featureAccepted_entered {c : Client} {v : Nat} (hr : running s.dev = true) (hs : sesOf? s.dev c = some m)
    (hrole : s.dev.pair.role = .single) (hv : v < 2 ^ 64) (hw : writeCheck s.dev m.role 0x011 0 (natLe 8 v) = (0, w)) :
    featureAccepted mon c v (fresh s) = emit (.result 0) (takeView c (valNat w.val) (enterWrite w (fresh s))) := by
  have hfresh : (fresh s).pair.role = .single := hrole
  have hses : sesOf? (fresh s) c = some m := hs
  have hcheck : writeCheck (fresh s) m.role 0x011 0 (natLe 8 v) = (0, w) := hw
  have hnum : w.num = 0x011 := by
    have hown := (writeCheck_names (by rw [hw])).1
    rwa [hw] at hown
  have hlen : ¬ 2 ^ 64 ≤ v := Nat.not_le.2 hv
  rw [featureAccepted, hses]
  simp only [hcheck, if_neg hlen]
  simp [running_fresh, hr, refusesWrite, hfresh, acceptWrite, viaPartner, replyTo, hnum, sendPdu]

/-- R107: what a client wants of the features is kept with its session, and the write waits for the major frame. -/
theorem featureAccepted_waits {c : Client} {v : Nat} (hr : running s.dev = true) (hs : sesOf? s.dev c = some m)
    (hrole : s.dev.pair.role = .single) (hv : v < 2 ^ 64) (hw : writeCheck s.dev m.role 0x011 0 (natLe 8 v) = (0, w)) :
    Completes (.featureAcceptedWrite c v) s (fun e =>
      answered e 0 = true ∧ w ∈ e.os.pend ∧ w.level = 3 ∧ (∀ x, sesOf? e c = some x → x.want = valNat w.val) ∧
        (sesOf? e c).isSome = true ∧ OnlyParts [.malpen] s.dev e ∧ SameObjects [] s.dev e) := by
  have hlevel : w.level = 3 := by
    have hown := writeCheck_featureAccepted (d := s.dev) (role := m.role) (v := natLe 8 v)
    rwa [hw] at hown
  have hl : w.level ≠ 0 := by omega
  obtain ⟨hparts, hobjs⟩ := enterWrite_framed (d := fresh s) hl
  refine act_completes rfl (fun e he => ?_)
  rw [featureAccepted_entered hr hs hrole hv hw] at he
  obtain ⟨heparts, heobjs, hepend⟩ := ((takeView_framed c _ _).follow (emit_follows _ _)).follow he
  obtain ⟨x, hx, hcore⟩ : ∃ x, sesOf? e c = some x ∧ sesCore x = sesCore { m with want := valNat w.val } := by
    rw [← Option.map_eq_some_iff, he.sesOf]
    exact congrArg (Option.map sesCore) ((sesOf_takeView c _).trans (by rw [sesOf_enterWrite hl, sesOf_fresh, hs]))
  refine ⟨he.answered 0 (answered_emit _ _), ?_, hlevel, fun y hy => ?_, by rw [hx]; rfl, ?_, ?_⟩
  · rw [hepend, enterWrite_waits hl]
    simp
  · cases hx.symm.trans hy
    exact congrArg MSes.want hcore
  · exact (onlyParts_of_fields (e := fresh s) rfl |>.trans hparts |>.mono (by simp)).trans heparts
  · exact (SameObjects.of_cur (d := s.dev) (e := fresh s) rfl |>.trans hobjs).trans heobjs

end

end Sys2Proof.Machine

namespace Sys2Proof

open Machine

/-- Settles O54: the server finds a device that is `Alike` the one that received the request, so the checks and the value of an
access are those of that device; what it answers, it queues on the client's bus. -/
theorem objectsAreServed : Obligations.ObjectsAreServed := by
  unfold Obligations.ObjectsAreServed
  intro s p m
  refine ⟨fun h ho hd hs => ?_, fun h hx hd => ?_, fun h hc ha => ⟨?_, ?_, ?_, ?_, ?_⟩, fun _ _ _ => featureAccepted_waits⟩
  · exact serve_answers rfl h (pduBytes_ne_nil _ _ _ _ _) (inSession_none ho (by simp [hd]) hs)
  · exact serve_answers rfl h.1 (pduBytes_ne_nil _ _ _ _ _) (inSession_limit h (by simp [hd]) hx)
  · intro hd ho hdom hr hn hlen
    exact serve_answers rfl h.1 (pduBytes_ne_nil _ _ _ _ _) (mReadObj_value h hc ha hd ho hdom hr hn hlen)
  · intro hd ho hdom hr _
    exact serve_answers rfl h.1 (pduBytes_ne_nil _ _ _ _ _) (mReadObj_refused h hc ha hd ho hdom hr)
  · intro o k b hd hfo hfs ho
    exact serve_answers rfl h.1 (pduBytes_ne_nil _ _ _ _ _) (mDescribe_descriptor h hc ha hd hfo hfs ho)
  · intro w hr ho hdom hnum hn hw
    exact writeObj_waits h hc ha hr ho hdom hnum hn hw
  · intro _ hr ho
    exact serve_answers rfl h.1 (pduBytes_ne_nil _ _ _ _ _) (mWriteObj_standby h hc ha hr ho)

end Sys2Proof

/-! Link-up of a lane (R113, R138 to R142, R145): what a step does to its lane, what it sends, and how a step fails. -/

namespace Sys2Proof

open Machine

/-! ### Rows that name a lane -/

section

variable {c : Instr} {s : State} {named : Bool} {g : Dev → Dev} {x : Dev} {P : Dev → Prop}

/-- A row whose index names something on the part, and what its update makes of the device. -/
theorem part_completes (hc : exec c s = act (onPart named g) s) (hn : named = true) (hx : g (fresh s) = x)
    (hP : ∀ e, Follows x e → P e) : Completes c s P :=
  act_completes hc (fun e he => hP e (by rwa [onPart, if_pos hn, hx] at he))

/-- The same for a row that acts only while the device runs. -/
theorem partRun_completes (hc : exec c s = act (onPart named (ifRun g)) s) (hn : named = true) (hr : running s.dev = true)
    (hx : g (fresh s) = x) (hP : ∀ e, Follows x e → P e) : Completes c s P :=
  part_completes hc hn ((if_pos hr).trans hx) hP

end

/-! ### An update of one lane -/

/-- Lane `l` becomes `x`, the other lanes stay. -/
structure OneLane (l : Nat) (x : LaneS) (d e : Dev) : Prop where
  lane : laneS e l = x
  others : ∀ k, k ≠ l → laneS e k = laneS d k

namespace OneLane

variable {l : Nat} {x : LaneS} {d e f : Dev}

theorem modLane (g : LaneS → LaneS) (d : Dev) : OneLane l (g (laneS d l)) d (modLane l g d) :=
  ⟨laneS_modLane_same _ _ _, fun _ hk => laneS_modLane_other _ _ _ _ hk.symm⟩

theorem setLane (g : LaneS → LaneS) (d : Dev) : OneLane l (g (laneS d l)) d (setLane l g d) :=
  ⟨(laneS_congr (setLane_lanes l d g) l).trans (modLane g d).lane,
    fun k hk => (laneS_congr (setLane_lanes l d g) k).trans ((modLane g d).others k hk)⟩

/-- What comes after the update changes no lane. -/
theorem keep (h : OneLane l x d e) (hk : ∀ j, laneS f j = laneS e j) : OneLane l x d f :=
  ⟨(hk l).trans h.lane, fun k hn => (hk k).trans (h.others k hn)⟩

theorem follow (h : OneLane l x d e) (k : Follows e f) : OneLane l x d f := h.keep (laneS_congr (k.part .lanes))

/-- What comes before the update changes the lane alone. -/
theorem after {y : LaneS} (h : OneLane l x d e) (k : OneLane l y e f) : OneLane l y d f :=
  ⟨k.lane, fun j hj => (k.others j hj).trans (h.others j hj)⟩

end OneLane

section

variable (l : Nat) (g : LaneS → LaneS) (d : Dev)

theorem on_setLane : on (setLane l g d) 0x200 (l + 1) = laneCode (g (laneS d l)) := by
  rw [← laneS_modLane_same d l g, setLane, publishLane]
  split
  case isTrue h => exact h
  case isFalse => exact on_put_same _ _ _ _

end

/-- What follows a command leaves the objects below the record store and the DMA rings alone. -/
theorem Machine.Follows.on_low {d e : Dev} (h : Follows d e) {num sub : Nat} (hs : sub < 256) (hn : num < 0x3200) :
    Machine.on e num sub = Machine.on d num sub := h.on_of_not_counted hs (counted_of_lt _ hn)

/-! ### Blocks on a lane -/

section

variable {l : Nat} {bs : List LineBlock} {d e : Dev}

theorem onLane_sendBlocks : onLane (sendBlocks l bs d) l bs = true := by
  simp [onLane, sendBlocks, emit]

theorem onLane_mono (hs : ∀ t, t ∈ d.sent → t ∈ e.sent) (h : onLane d l bs = true) : onLane e l bs = true := by
  obtain ⟨t, ht, hb⟩ := List.any_eq_true.1 h
  exact List.any_eq_true.2 ⟨t, hs t ht, hb⟩

theorem sendBlocks_follows (l : Nat) (bs : List LineBlock) (d : Dev) : Follows d (sendBlocks l bs d) := emit_follows _ _

theorem sendMarkers_follows (mk : Nat) (ts : List Nat) (d : Dev) : Follows d (forEach ts (sendMarker l mk) d) :=
  forEach_follows _ _ (fun _ _ => sendBlocks_follows _ _ _) _

theorem onLane_sendMarkers (mk : Nat) {ts : List Nat} (hn : ts.Nodup) {t : Nat} (ht : t ∈ ts) :
    onLane (forEach ts (sendMarker l mk) d) l [markerBlock mk t] = true :=
  forEach_turn (P := fun _ => True) (Q := fun x => onLane x l [markerBlock mk t] = true) hn ht (fun _ _ _ _ h => h)
    (fun _ _ _ x => onLane_mono (sendBlocks_follows _ _ x).sent) (fun _ _ => onLane_sendBlocks) trivial

end

/-! ### A step of link-up fails (R138, R141) -/

section

variable {l : Nat} {d : Dev}

theorem linkFail_lane (reason : Nat) : OneLane l { dropLink (laneS d l) with st := .identFail } d (linkFail l reason d) :=
  (OneLane.setLane (fun x => { dropLink x with st := .identFail }) d).follow (raise_follows _ _ _ _)

theorem on_linkFail (reason : Nat) : on (linkFail l reason d) 0x200 (l + 1) = 5 := on_setLane l _ d

theorem linkFail_framed (hl : l < 50) (reason : Nat) : Framed [.lanes] [(0x200, l + 1)] d (linkFail l reason d) :=
  .raise (setLane_framed l d hl _)

theorem raised_linkFail (reason : Nat) : raised (linkFail l reason d) 0x0C11 l = true := raised_raise _ _ _ _

end

/-- The lane has failed, and SYS.LANE_STATE shows it. -/
def LinkFailed (l : Nat) (d e : Dev) : Prop :=
  (laneS e l).st = .identFail ∧ (laneS e l).ctl = false ∧ (laneS e l).attempts = 0 ∧ on e 0x200 (l + 1) = 5 ∧
    raised e 0x0C11 l = true ∧ (∀ k, k ≠ l → laneS e k = laneS d k) ∧ Framed [.lanes] [(0x200, l + 1)] d e

theorem LinkFailed.of_follows {s : State} {l reason : Nat} {e : Dev} (hl : l < 50) (h : Follows (linkFail l reason (fresh s)) e) :
    LinkFailed l s.dev e := by
  have hlane := (linkFail_lane (l := l) (d := fresh s) reason).follow h
  refine ⟨by rw [hlane.lane], by rw [hlane.lane]; rfl, by rw [hlane.lane]; rfl, ?_, ?_, hlane.others, ?_⟩
  · rw [h.on_low (by omega) (by decide), on_linkFail]
  · exact h.raised _ _ _ (raised_linkFail reason)
  · exact .of_fresh ((linkFail_framed hl reason).follow h)

/-! ### Turns that read what none of them changes -/

/-- A value that no turn changes may be read before the first. -/
theorem forEach_fixed {α β : Type} {l : List α} {v : Dev → β} {f : β → α → Dev → Dev} (hv : ∀ b a x, v (f b a x) = v x) (d : Dev) :
    forEach l (fun a x => f (v x) a x) d = forEach l (f (v d)) d := by
  induction l generalizing d with
  | nil => rfl
  | cons a l ih =>
    have h := ih (f (v d) a d)
    rw [hv] at h
    exact h

/-! ### The numbers of the metering records (R317) -/

section

variable (di : Nat) (d : Dev)

theorem metroS_congr {d e : Dev} (h : e.lanes.metro = d.lanes.metro) (c : Nat) : metroS e c = metroS d c := by rw [metroS, metroS, h]

theorem metroS_modMetro_same (c : Nat) (g : MetroS → MetroS) : metroS (modMetro c g d) c = g (metroS d c) := getD_modAt_same _ _ _

theorem metroS_modMetro_other {c k : Nat} (g : MetroS → MetroS) (h : c ≠ k) : metroS (modMetro c g d) k = metroS d k :=
  getD_modAt_other _ _ _ _ h

/-- The numbering of a connector starts anew. -/
def anew (x : MetroS) : MetroS := { prevAcc := x.lastAcc.or x.prevAcc }

theorem metroLinkUp_eq : metroLinkUp di d =
    forEach (List.range (dispE d di).count) (fun i => modMetro ((dispE d di).first + i) anew) d :=
  forEach_fixed (v := fun x => dispE x di) (f := fun b i => modMetro (b.first + i) anew) (fun _ _ _ => rfl) d

/-- It writes the numbering alone. -/
theorem metroLinkUp_metro : ∃ m, metroLinkUp di d = { d with lanes := { d.lanes with metro := m } } := by
  rw [metroLinkUp_eq]
  refine forEach_keeps (P := fun x => ∃ m, x = { d with lanes := { d.lanes with metro := m } }) ?_ ⟨d.lanes.metro, rfl⟩
  rintro i _ x ⟨m, rfl⟩
  exact ⟨_, rfl⟩

theorem metroLinkUp_framed : Framed [.lanes] [] d (metroLinkUp di d) := by
  obtain ⟨m, hm⟩ := metroLinkUp_metro di d
  rw [hm]
  exact .lanes (by simp) (.refl _ _ d) _

theorem metroLinkUp_ev : (metroLinkUp di d).ev = d.ev := by
  obtain ⟨m, hm⟩ := metroLinkUp_metro di d
  rw [hm]

theorem laneS_metroLinkUp (k : Nat) : laneS (metroLinkUp di d) k = laneS d k := by
  obtain ⟨m, hm⟩ := metroLinkUp_metro di d
  rw [hm]
  rfl

theorem metroS_metroLinkUp {i : Nat} (hi : i < (dispE d di).count) :
    metroS (metroLinkUp di d) ((dispE d di).first + i) = anew (metroS d ((dispE d di).first + i)) := by
  rw [metroLinkUp_eq]
  refine forEach_turn (P := fun x => metroS x ((dispE d di).first + i) = metroS d ((dispE d di).first + i))
    (Q := fun x => metroS x ((dispE d di).first + i) = anew (metroS d ((dispE d di).first + i))) List.nodup_range (List.mem_range.2 hi)
    (fun a _ ha x hx => ?_) (fun a _ ha x hx => ?_) (fun x hx => ?_) rfl
  · rw [metroS_modMetro_other _ _ (by omega), hx]
  · rw [metroS_modMetro_other _ _ (by omega), hx]
  · rw [metroS_modMetro_same, hx]

end

/-! ### A lane comes UP (R138) -/

/-- A lane that is UP from now on. -/
def upLane (x : LaneS) : LaneS := { x with st := .up, everUp := true, busyMajor := true, quiet := false, launched := [] }

/-- The lane is UP and the event of it is raised; what comes after depends on the part. -/
def linkedUp (l : Nat) (d : Dev) : Dev := raise 0x0810 l 0 (setLane l upLane d)

section

variable {l : Nat} (d : Dev)

theorem linkedUp_framed (hl : l < 50) : Framed [.lanes] [(0x200, l + 1)] d (linkedUp l d) := .raise (setLane_framed l d hl _)

theorem linkUp_stage (h : l < 32) : linkUp l d = linkedUp l d := if_pos h

theorem linkUp_disp (h : 32 ≤ l) (h' : l < 48) : linkUp l d = metroLinkUp (l - 32) (linkedUp l d) :=
  (if_neg (by omega)).trans (if_pos h')

theorem linkUp_pair (h : 48 ≤ l) : linkUp l d = pairDegraded (linkedUp l d) :=
  (if_neg (by omega)).trans (if_neg (by omega))

theorem pairDegraded_framed : Framed [] [(0x400, 0)] d (pairDegraded d) :=
  .ite (.refl _ _ d) (.put (by decide) (by decide) (.refl _ _ d))

theorem pairDegraded_ev : (pairDegraded d).ev = d.ev := by
  unfold pairDegraded
  dsimp only
  split <;> rfl

/-- What comes after for any part changes neither a lane nor an event. -/
theorem linkUp_after (l : Nat) : (∀ k, laneS (linkUp l d) k = laneS (linkedUp l d) k) ∧ (linkUp l d).ev = (linkedUp l d).ev ∧
    Framed [.lanes] [(0x400, 0)] (linkedUp l d) (linkUp l d) := by
  by_cases h : l < 32
  · rw [linkUp_stage d h]
    exact ⟨fun _ => rfl, rfl, .refl _ _ _⟩
  · by_cases h' : l < 48
    · rw [linkUp_disp d (by omega) h']
      exact ⟨laneS_metroLinkUp _ _, metroLinkUp_ev _ _, (metroLinkUp_framed _ _).mono (by simp) (by simp)⟩
    · rw [linkUp_pair d (by omega)]
      have hf := pairDegraded_framed (linkedUp l d)
      exact ⟨laneS_congr (hf.1 .lanes (by simp)), pairDegraded_ev _, hf.mono (by simp) (by simp)⟩

theorem linkUp_lane : OneLane l (upLane (laneS d l)) d (linkUp l d) :=
  ((OneLane.setLane upLane d).follow (raise_follows 0x0810 l 0 _)).keep (linkUp_after d l).1

theorem raised_linkUp : raised (linkUp l d) 0x0810 l = true :=
  (raised_congr (linkUp_after d l).2.1 _ _ _).trans (raised_raise _ _ _ _)

theorem on_linkUp (hl : l < 50) : on (linkUp l d) 0x200 (l + 1) = laneCode (upLane (laneS d l)) :=
  ((linkUp_after d l).2.2.on_eq (by omega) (counted_of_lt _ (by decide)) (by simp)).trans (on_setLane l upLane d)

theorem linkUp_framed (hl : l < 50) : Framed [.lanes] [(0x200, l + 1), (0x400, 0)] d (linkUp l d) :=
  ((linkedUp_framed d hl).mono (by simp) (by simp)).trans ((linkUp_after d l).2.2.mono (by simp) (by simp))

/-- The lane of a stage or a dispenser has no part in the pair's status. -/
theorem linkUp_framed_part (hl : l < 48) : Framed [.lanes] [(0x200, l + 1)] d (linkUp l d) := by
  have h := linkedUp_framed d (by omega : l < 50)
  by_cases h' : l < 32
  · rwa [linkUp_stage d h']
  · rw [linkUp_disp d (by omega) hl]
    exact h.trans ((metroLinkUp_framed _ _).mono (by simp) (by simp))

end

/-! ### Block lock (R113, R138, R145) -/

section

variable {l : Nat} {hs : List Nat} {d : Dev}

theorem blockLock_unlocked (h : locked hs = false) : blockLock l hs d = d := if_pos (by simp [h])

/-- Link-up goes on from block lock. -/
theorem blockLock_goes (hr : running d = true) (hst : (laneS d l).st = .training ∨ (laneS d l).st = .down) (hh : locked hs = true) :
    (!(running d) || !((laneS d l).st == .training || (laneS d l).st == .down) || !(locked hs)) = false := by
  rcases hst with h | h <;> simp [hr, hh, h]

theorem blockLock_pair (hl : 48 ≤ l) (hr : running d = true) (hst : (laneS d l).st = .training ∨ (laneS d l).st = .down)
    (hh : locked hs = true) : blockLock l hs d = linkUp l d :=
  (if_neg (ne_true_of_eq_false (blockLock_goes hr hst hh))).trans (if_pos hl)

theorem blockLock_ranges (hl : l < 48) (hr : running d = true) (hst : (laneS d l).st = .training ∨ (laneS d l).st = .down)
    (hh : locked hs = true) :
    blockLock l hs d = forEach [0, 1, 2, 3] (sendMarker l 3) (setLane l (fun x => { x with st := .ranging, echos := [] }) d) :=
  (if_neg (ne_true_of_eq_false (blockLock_goes hr hst hh))).trans (if_neg (by omega))

end

section

variable {s : State} {l : Nat} {hs : List Nat}

/-- Sync headers that are not sound for long enough give no block lock. -/
theorem blockLock_waits (hr : running s.dev = true) (hl : l < 50) (hh : locked hs = false) :
    Completes (.blockLock l hs) s (Framed [] [] s.dev) :=
  partRun_completes (g := blockLock l hs) rfl (by simpa using hl) hr (blockLock_unlocked hh) (fun _ he => .fresh_follows he _ _)

/-- Block lock starts ranging with four RANGE markers. -/
theorem blockLock_starts_ranging (hr : running s.dev = true) (hl : l < 48)
    (hst : (laneS s.dev l).st = .training ∨ (laneS s.dev l).st = .down) (hh : locked hs = true) :
    Completes (.blockLock l hs) s (fun e => laneS e l = { laneS s.dev l with st := .ranging, echos := [] } ∧ on e 0x200 (l + 1) = 2 ∧
      (∀ t, t < 4 → onLane e l [markerBlock 3 t] = true) ∧ (∀ k, k ≠ l → laneS e k = laneS s.dev k) ∧
      Framed [.lanes] [(0x200, l + 1)] s.dev e) := by
  refine partRun_completes (g := blockLock l hs) rfl (by simp; omega) hr (blockLock_ranges (d := fresh s) hl hr hst hh) (fun e he => ?_)
  have hall := (sendMarkers_follows (l := l) 3 [0, 1, 2, 3] _).trans he
  have hlane := (OneLane.setLane (l := l) (fun x => { x with st := .ranging, echos := [] }) (fresh s)).follow hall
  refine ⟨hlane.lane, ?_, fun t ht => ?_, hlane.others, ?_⟩
  · rw [hall.on_low (by omega) (by decide), on_setLane]
    rfl
  · exact onLane_mono he.sent (onLane_sendMarkers 3 (by decide) (by simp; omega))
  · exact .of_fresh ((setLane_framed l _ (by omega) _).follow hall)

/-- A pair lane is neither ranged nor identified (R145). -/
theorem blockLock_brings_pair_up (hr : running s.dev = true) (hl : 48 ≤ l) (hl' : l < 50)
    (hst : (laneS s.dev l).st = .training ∨ (laneS s.dev l).st = .down) (hh : locked hs = true) :
    Completes (.blockLock l hs) s (fun e => (laneS e l).st = .up ∧ (laneS e l).everUp = true ∧ raised e 0x0810 l = true ∧
      (∀ k, k ≠ l → laneS e k = laneS s.dev k) ∧ Framed [.lanes] [(0x200, l + 1), (0x400, 0)] s.dev e) := by
  refine partRun_completes (g := blockLock l hs) rfl (by simpa using hl') hr (blockLock_pair (d := fresh s) hl hr hst hh) (fun e he => ?_)
  have hlane := (linkUp_lane (l := l) (fresh s)).follow he
  exact ⟨by rw [hlane.lane]; rfl, by rw [hlane.lane]; rfl, he.raised _ _ _ (raised_linkUp _), hlane.others,
    .of_fresh ((linkUp_framed _ hl').follow he)⟩

end

end Sys2Proof

/-! Ranging and the ends of link-up's steps (R113, R138, R139, R142). -/

namespace Sys2Proof

open Machine

/-! ### IDENT_REQ (R140) -/

section

variable (l : Nat) (d : Dev)

/-- The lane after an IDENT_REQ with its nonce. -/
def askedLane (x : LaneS) : LaneS :=
  { x with attempts := x.attempts + 1, devNonce := (draw 16 d).1, awaiting := true, identNs := 0 }

/-- An IDENT_REQ but for the frame that is sent. -/
def identAsked : Dev := modLane l (askedLane d) { d with draws := d.draws + 1 }

theorem identReq_follows : Follows (identAsked l d) (identReq l d) := sendBlocks_follows _ _ _

theorem identAsked_lane : OneLane l (askedLane d (laneS d l)) d (identAsked l d) :=
  have h := OneLane.modLane (l := l) (askedLane d) { d with draws := d.draws + 1 }
  ⟨h.lane, h.others⟩

theorem identAsked_framed : Framed [.lanes, .draws] [] d (identAsked l d) := .lanes (by simp) (.draws (by simp) (.refl _ _ d) _) _

end

/-! ### Ranging (R139) -/

/-- A tag that no round trip has been measured for adds one. -/
theorem length_alSet_of_none {α : Type} {l : List (Nat × α)} {k : Nat} (a : α) (h : alGet l k = none) :
    (alSet l k a).length = l.length + 1 := by
  induction l with
  | nil => rfl
  | cons p l ih =>
    obtain ⟨j, b⟩ := p
    have hj : j ≠ k := fun e => by simp [alGet, e] at h
    have hl : alGet l k = none := by simpa [alGet, hj] using h
    simp only [alSet]
    split
    · rfl
    · rw [if_neg hj.symm, List.length_cons, ih hl, List.length_cons]

/-- The delay in ns that four round trips give (R139). -/
def rangedNs (mode : Nat) (es : List (Nat × Nat)) : Nat :=
  (divHalfUp (sumI (es.map (fun p => (p.2 : Int) - 40 * blockPs mode))) 8000).toNat

theorem rangedNs_eq (mode : Nat) (es : List (Nat × Nat)) :
    rangedNs mode es = (divHalfUp (sumI (es.map (fun p => (p.2 : Int) - (40 * blockPs mode : Nat)))) 8000).toNat := by
  simp only [rangedNs, Nat.cast_mul, Nat.cast_ofNat]

section

variable {l tag rt : Nat} {d : Dev}

/-- A round trip is measured. -/
def echoTaken (l tag rt : Nat) (d : Dev) : Dev := modLane l (fun x => { x with echos := alSet (laneS d l).echos tag rt }) d

theorem echoTaken_lane (l tag rt : Nat) (d : Dev) :
    OneLane l { laneS d l with echos := alSet (laneS d l).echos tag rt } d (echoTaken l tag rt d) :=
  OneLane.modLane (fun x => { x with echos := alSet (laneS d l).echos tag rt }) d

theorem echoTaken_framed (l tag rt : Nat) (d : Dev) : Framed [.lanes] [] d (echoTaken l tag rt d) := .lanes (by simp) (.refl _ _ d) _

/-- The delay is published. -/
def echoRanged (l tag rt : Nat) (d : Dev) : Dev :=
  put 0x203 (l + 1) (satU 16 (rangedNs (laneS d l).mode (alSet (laneS d l).echos tag rt))) (echoTaken l tag rt d)

theorem echoRanged_framed (hl : l < 48) (tag rt : Nat) (d : Dev) : Framed [.lanes] [(0x203, l + 1)] d (echoRanged l tag rt d) :=
  .put (by omega) (by simp) ((echoTaken_framed l tag rt d).mono (by simp) (by simp))

variable (hr : running d = true) (hst : (laneS d l).st = .ranging) (ht : tag < 4) (hn : alGet (laneS d l).echos tag = none)

include hr hst ht hn

/-- The round trip of a tag that is awaited. -/
theorem echo_awaited :
    (!(running d) || (laneS d l).st != .ranging || decide (4 ≤ tag) || (alGet (laneS d l).echos tag).isSome) = false := by
  simp [hr, hst, ht, hn]

theorem echo_early (h : (laneS d l).echos.length < 3) : echo l tag rt d = echoTaken l tag rt d := by
  unfold echo
  dsimp only
  rw [if_neg (ne_true_of_eq_false (echo_awaited hr hst ht hn)), if_pos (by rw [length_alSet_of_none rt hn]; omega)]
  rfl

/-- The fourth ends ranging: the lane is too long, or identification begins. -/
theorem echo_last (h : (laneS d l).echos.length = 3) : echo l tag rt d =
    if 2000 < rangedNs (laneS d l).mode (alSet (laneS d l).echos tag rt) then linkFail l 1 (echoRanged l tag rt d)
    else identReq l (setLane l (fun x => { x with st := .identifying, attempts := 0 }) (echoRanged l tag rt d)) := by
  unfold echo
  dsimp only
  rw [if_neg (ne_true_of_eq_false (echo_awaited hr hst ht hn)), if_neg (by rw [length_alSet_of_none rt hn]; omega)]
  rw [echoRanged, rangedNs_eq]
  rfl

end

section

variable {s : State} {l tag rt : Nat} (hr : running s.dev = true) (hl : l < 48) (hst : (laneS s.dev l).st = .ranging) (ht : tag < 4)
  (hn : alGet (laneS s.dev l).echos tag = none)

include hr hl hst ht hn

/-- Before the fourth a round trip is kept. -/
theorem echoMarker_keeps (h : (laneS s.dev l).echos.length < 3) : Completes (.echoMarker l tag rt) s (fun e =>
    laneS e l = { laneS s.dev l with echos := alSet (laneS s.dev l).echos tag rt } ∧ (∀ k, k ≠ l → laneS e k = laneS s.dev k) ∧
      Framed [.lanes] [] s.dev e) := by
  refine partRun_completes (g := echo l tag rt) rfl (by simpa using hl) hr (echo_early (d := fresh s) hr hst ht hn h) (fun e he => ?_)
  have hlane := (echoTaken_lane l tag rt (fresh s)).follow he
  exact ⟨hlane.lane, hlane.others, .of_fresh ((echoTaken_framed l tag rt _).follow he)⟩

/-- The fourth gives the delay (R139). -/
theorem echoMarker_ends_ranging (h : (laneS s.dev l).echos.length = 3) :
    let ns := rangedNs (laneS s.dev l).mode (alSet (laneS s.dev l).echos tag rt)
    Completes (.echoMarker l tag rt) s (fun e => on e 0x203 (l + 1) = satU 16 ns ∧
      (if 2000 < ns then (laneS e l).st = .identFail ∧ raised e 0x0C11 l = true
       else (laneS e l).st = .identifying ∧ (laneS e l).awaiting = true ∧ (laneS e l).attempts = 1) ∧
      (∀ k, k ≠ l → laneS e k = laneS s.dev k) ∧ Framed [.lanes, .draws] [(0x200, l + 1), (0x203, l + 1)] s.dev e) := by
  intro ns
  refine partRun_completes (g := echo l tag rt) rfl (by simpa using hl) hr (echo_last (d := fresh s) hr hst ht hn h) (fun e he => ?_)
  have hranged : on (echoRanged l tag rt (fresh s)) 0x203 (l + 1) = satU 16 ns := on_put_same _ _ _ _
  have hframe : Framed [.lanes, .draws] [(0x200, l + 1), (0x203, l + 1)] (fresh s) (echoRanged l tag rt (fresh s)) :=
    (echoRanged_framed hl tag rt _).mono (by simp) (by simp)
  have hlane : OneLane l _ (fresh s) (echoRanged l tag rt (fresh s)) :=
    (echoTaken_lane l tag rt (fresh s)).keep (fun _ => rfl)
  change Follows (if 2000 < ns then _ else _) e at he
  split at he
  case isTrue hlong =>
    have hfail := (hlane.after (linkFail_lane 1)).follow he
    have hstep := linkFail_framed (d := echoRanged l tag rt (fresh s)) (by omega : l < 50) 1
    rw [if_pos hlong]
    refine ⟨?_, ⟨by rw [hfail.lane], he.raised _ _ _ (raised_linkFail 1)⟩, hfail.others, ?_⟩
    · rw [he.on_low (by omega) (by decide), hstep.on_eq (by omega) (counted_of_lt _ (by decide)) (by simp), hranged]
    · exact .of_fresh ((hframe.trans (hstep.mono (by simp) (by simp))).follow he)
  case isFalse hlong =>
    have hall := (identReq_follows _ _).trans he
    have hident := ((hlane.after (OneLane.setLane (fun x => { x with st := .identifying, attempts := 0 }) _)).after
      (identAsked_lane l _)).follow hall
    have hstep := (setLane_framed l (echoRanged l tag rt (fresh s)) (by omega)
      (fun x => { x with st := .identifying, attempts := 0 })).mono (qs := [.lanes, .draws]) (by simp) (fun _ h => h) |>.trans
      ((identAsked_framed l _).mono (fun _ h => h) (by simp))
    have hset := (OneLane.setLane (l := l) (fun x => { x with st := .identifying, attempts := 0 }) (echoRanged l tag rt (fresh s))).lane
    rw [if_neg hlong]
    refine ⟨?_, ⟨?_, ?_, ?_⟩, hident.others, ?_⟩
    · rw [hall.on_low (by omega) (by decide), hstep.on_eq (by omega) (counted_of_lt _ (by decide)) (by simp), hranged]
    · rw [hident.lane, hset]; rfl
    · rw [hident.lane]; rfl
    · rw [hident.lane, hset]; rfl
    · exact .of_fresh ((hframe.trans (hstep.mono (fun _ h => h) (by simp))).follow hall)

end

/-! ### Steps without their answer (R113, R138, R139, R142) -/

section

variable {s : State} {l : Nat} (hr : running s.dev = true)

include hr

theorem blockLockTimeout_fails (hl : l < 50) (hst : (laneS s.dev l).st = .training ∨ (laneS s.dev l).st = .down) :
    Completes (.blockLockTimeout l) s (LinkFailed l s.dev) := by
  have hx : blockLockTimeout l (fresh s) = linkFail l 7 (fresh s) := if_pos (by
    change (running s.dev && ((laneS s.dev l).st == .training || (laneS s.dev l).st == .down)) = true
    rcases hst with h | h <;> simp [hr, h])
  exact partRun_completes (g := blockLockTimeout l) rfl (by simpa using hl) hr hx (fun _ he => .of_follows hl he)

theorem rangingTimeout_fails (hl : l < 48) (hst : (laneS s.dev l).st = .ranging) :
    Completes (.rangingTimeout l) s (LinkFailed l s.dev) := by
  have hx : rangingTimeout l (fresh s) = linkFail l 8 (fresh s) := if_pos (by
    change (running s.dev && (laneS s.dev l).st == .ranging) = true
    simp [hr, hst])
  exact partRun_completes (g := rangingTimeout l) rfl (by simpa using hl) hr hx (fun _ he => .of_follows (by omega) he)

section

variable (hl : l < 48) (hst : (laneS s.dev l).st = .identifying) (ha : (laneS s.dev l).awaiting = true)

include hst ha

theorem identRspTimeout_eq : identRspTimeout l (fresh s) = if 3 ≤ (laneS s.dev l).attempts then linkFail l 2 (fresh s)
    else modLane l (fun x => { x with awaiting := false, identNs := 0 }) (fresh s) := if_pos (by
  change (running s.dev && (laneS s.dev l).st == .identifying && (laneS s.dev l).awaiting) = true
  simp [hr, hst, ha])

include hl

theorem identRspTimeout_fails (h3 : 3 ≤ (laneS s.dev l).attempts) : Completes (.identRspTimeout l) s (LinkFailed l s.dev) :=
  partRun_completes (g := identRspTimeout l) rfl (by simpa using hl) hr ((identRspTimeout_eq hr hst ha).trans (if_pos h3))
    (fun _ he => .of_follows (by omega) he)

/-- Before the third attempt the lane waits for the next. -/
theorem identRspTimeout_waits (h3 : (laneS s.dev l).attempts < 3) : Completes (.identRspTimeout l) s (fun e =>
    laneS e l = { laneS s.dev l with awaiting := false, identNs := 0 } ∧ (∀ k, k ≠ l → laneS e k = laneS s.dev k) ∧
      Framed [.lanes] [] s.dev e) := by
  refine partRun_completes (g := identRspTimeout l) rfl (by simpa using hl) hr
    ((identRspTimeout_eq hr hst ha).trans (if_neg (by omega))) (fun e he => ?_)
  have hlane := (OneLane.modLane (l := l) (fun x => { x with awaiting := false, identNs := 0 }) (fresh s)).follow he
  exact ⟨hlane.lane, hlane.others, .of_fresh ((Framed.lanes (by simp) (.refl _ _ _) _).follow he)⟩

end

/-- A lane that has failed starts again. -/
theorem linkupRetry_trains (hl : l < 50) (hst : (laneS s.dev l).st = .identFail) : Completes (.linkupRetry l) s (fun e =>
    (laneS e l).st = .training ∧ on e 0x200 (l + 1) = 1 ∧ (∀ k, k ≠ l → laneS e k = laneS s.dev k) ∧
      Framed [.lanes] [(0x200, l + 1)] s.dev e) := by
  have hx : linkupRetry l (fresh s) = linkStart l (laneS s.dev l).mode (fresh s) := if_pos (by
    change (running s.dev && (laneS s.dev l).st == .identFail) = true
    simp [hr, hst])
  refine part_completes (g := linkupRetry l) rfl (by simpa using hl) hx (fun e he => ?_)
  have hall := (sendBlocks_follows l [] _).trans he
  have hlane := (OneLane.setLane (l := l) _ (fresh s)).follow hall
  refine ⟨by rw [hlane.lane], ?_, hlane.others, .of_fresh ((setLane_framed l _ hl _).follow hall)⟩
  rw [hall.on_low (by omega) (by decide), on_setLane]
  rfl

/-- Invalid sync headers that are too few keep the lane (R113). -/
theorem laneDown_holds {ts : List Nat} (hl : l < 50) (h : lockLost (laneS s.dev l).mode ts = false) :
    Completes (.laneDown l ts) s (Framed [] [] s.dev) := by
  have hx : laneDown l ts (fresh s) = fresh s := if_neg (by
    change ¬ (_ && lockLost (laneS s.dev l).mode ts) = true
    simp [h])
  exact partRun_completes (g := laneDown l ts) rfl (by simpa using hl) hr hx (fun _ he => .fresh_follows he _ _)

/-- A lane without block lock. -/
def laneLost (l : Nat) (d : Dev) : Dev := setLane l (fun x => { dropLink x with st := .down }) d

/-- A lane that loses block lock is down at once (R142). -/
theorem laneDown_drops {ts : List Nat} (hl : l < 50)
    (hst : (laneS s.dev l).st = .ranging ∨ (laneS s.dev l).st = .identifying ∨ (laneS s.dev l).st = .up)
    (h : lockLost (laneS s.dev l).mode ts = true) : Completes (.laneDown l ts) s (fun e =>
      (laneS e l).st = .down ∧ (laneS e l).ctl = false ∧ (laneS e l).latch = none ∧ on e 0x200 (l + 1) = 6 ∧
        raised e 0x0C10 l = true ∧ (∀ k, k ≠ l → laneS e k = laneS s.dev k) ∧
        Framed [.lanes] [(0x200, l + 1), (0x400, 0)] s.dev e) := by
  have hx : laneDown l ts (fresh s) = raise 0x0C10 l 1 (if 48 ≤ l then pairDegraded (laneLost l (fresh s)) else laneLost l (fresh s)) :=
    if_pos (by
      change (running s.dev && ((laneS s.dev l).st == .ranging || (laneS s.dev l).st == .identifying || (laneS s.dev l).st == .up) &&
        lockLost (laneS s.dev l).mode ts) = true
      rcases hst with h' | h' | h' <;> simp [hr, h, h'])
  refine partRun_completes (g := laneDown l ts) rfl (by simpa using hl) hr hx (fun e he => ?_)
  have hafter : Framed [] [(0x400, 0)] (laneLost l (fresh s)) e := Framed.follow (.raise (.ite (pairDegraded_framed _) (.refl _ _ _))) he
  have hlane := (OneLane.setLane (l := l) (fun x => { dropLink x with st := .down }) (fresh s)).keep
    (laneS_congr (hafter.1 .lanes (by simp)))
  refine ⟨by rw [hlane.lane], by rw [hlane.lane]; rfl, by rw [hlane.lane]; rfl, ?_, ?_, hlane.others, ?_⟩
  · rw [hafter.on_eq (by omega) (counted_of_lt _ (by decide)) (by simp), laneLost, on_setLane]
    rfl
  · exact he.raised _ _ _ (raised_raise _ _ _ _)
  · exact .of_fresh (((setLane_framed l _ hl _).mono (by simp) (by simp)).trans (hafter.mono (by simp) (by simp)))

end

/-- Settles O24: block lock, ranging, the steps without their answer, and the loss of block lock. -/
theorem linkUpGoesAndFails : Obligations.LinkUpGoesAndFails := by
  refine ⟨fun s l hs hr => ⟨fun hl hh => blockLock_waits hr hl hh, fun hl hst hh => blockLock_starts_ranging hr hl hst hh,
    fun hl hl' hst hh => blockLock_brings_pair_up hr hl hl' hst hh, fun _ _ hl hst ht hn h => echoMarker_keeps hr hl hst ht hn h,
    fun _ _ hl hst ht hn h => echoMarker_ends_ranging hr hl hst ht hn h⟩, fun s l hr hl => ?_⟩
  exact ⟨fun hst => blockLockTimeout_fails hr hl hst, fun hl hst => rangingTimeout_fails hr hl hst,
    fun hl hst ha h3 => identRspTimeout_fails hr hl hst ha h3, fun hl hst ha h3 => identRspTimeout_waits hr hl hst ha h3,
    fun hst => linkupRetry_trains hr hl hst, fun _ h => laneDown_holds hr hl h, fun _ hst h => laneDown_drops hr hl hst h⟩

end Sys2Proof

/-! Identification of a stage or a dispenser (R131, R138, R140, R141). -/

namespace Sys2Proof

open Machine

/-! ### What frames leave alone -/

theorem Framed.ob_eq {ps : List Part} {ks : List (Nat × Nat)} {d e : Dev} (h : Framed ps ks d e) {num sub : Nat} (hs : sub < 256)
    (hc : counted num sub = false) (hk : (num, sub) ∉ ks) : ob e num sub = ob d num sub := congrArg valBytes (h.ov_eq hs hc hk)

theorem counted_oCon (c off sub : Nat) : counted (oCon c off) sub = false := by
  have h1 : ¬ oCon c off ≤ 0x34FF := by unfold oCon; omega
  have h2 : ¬ oCon c off < 0x3210 := by omega
  simp [counted, ringBook, h1, h2]

theorem dispE_congr {d e : Dev} (h : e.sched = d.sched) (i : Nat) : dispE e i = dispE d i := by rw [dispE, dispE, img?, img?, h]

/-! ### The rated current of a dispenser's connectors -/

/-- CON.RATED of every connector of a dispenser. -/
def conRated (di v : Nat) (d : Dev) : Dev :=
  forEach (List.range (dispE d di).count) (fun i => put (oCon ((dispE d di).first + i) 0x21) 0 v) d

/-- The objects that this writes. -/
def ratedObjs (x : DispE) : List (Nat × Nat) := (List.range x.count).map (fun i => (oCon (x.first + i) 0x21, 0))

theorem not_mem_ratedObjs {x : DispE} {num sub : Nat} (h : num < 0x10000) : (num, sub) ∉ ratedObjs x := by
  simp only [ratedObjs, List.mem_map, Prod.mk.injEq, oCon]
  omega

section

variable (di v : Nat) (d : Dev)

theorem conRated_eq : forEach (List.range (dispE d di).count) (fun i e => put (oCon ((dispE e di).first + i) 0x21) 0 v e) d =
    conRated di v d :=
  forEach_fixed (v := fun x => dispE x di) (f := fun b i => put (oCon (b.first + i) 0x21) 0 v) (fun _ _ _ => rfl) d

theorem conRated_framed : Framed [] (ratedObjs (dispE d di)) d (conRated di v d) :=
  Framed.forEach (fun i hi x => .put (by decide) (List.mem_map.2 ⟨i, hi, rfl⟩) (.refl _ _ x)) (.refl _ _ d)

theorem on_conRated {i : Nat} (hi : i < (dispE d di).count) : on (conRated di v d) (oCon ((dispE d di).first + i) 0x21) 0 = v :=
  forEach_turn (P := fun _ => True) (Q := fun x => on x (oCon ((dispE d di).first + i) 0x21) 0 = v) List.nodup_range (List.mem_range.2 hi)
    (fun _ _ _ _ h => h)
    (fun a _ ha x hx => (on_put_other x _ _ _ _ _ (by simp only [okey, oCon]; omega)).trans hx) (fun x _ => on_put_same x _ _ _) trivial

end

/-! ### IDENT_RSP -/

/-- A sound answer to the IDENT_REQ that a lane awaits. -/
structure IdentAnswered (d : Dev) (l : Nat) (f : Frame) : Prop where
  runs : running d = true
  lane : l < 48
  bound : laneBound d l = true
  sound : frameSound f = true
  kind : f.kind = 9
  words : f.words = 8
  reserved : fieldLe f.body 52 4 = 0
  identifying : (laneS d l).st = .identifying
  awaiting : (laneS d l).awaiting = true

/-- The answer is published. -/
def identPublished (l : Nat) (f : Frame) (d : Dev) : Dev :=
  putb (0x210 + l) 0 (f.body.take 56) (modLane l (fun x => { x with awaiting := false }) d)

/-- A stage's rated current waits. -/
def stageIdentified (l : Nat) (f : Frame) (d : Dev) : Dev := modStg l (fun s => { s with ratedNew := some (ratedQ f.body) }) d

/-- The key of a dispenser's metering records (R131). -/
def meteringKey (di : Nat) (nonce : Bytes) (d : Dev) (x : LaneS) : Option Bytes :=
  (alGet d.keys.inst (0x520 + di)).map (fun k => kMac k x.devNonce nonce di (lanePort d))

/-- The lane of an identified dispenser. -/
def keyedLane (di : Nat) (nonce : Bytes) (d : Dev) (x : LaneS) : LaneS :=
  { x with partNonce := nonce, relink := false, kmac := meteringKey di nonce d x }

theorem keyedLane_eq (di : Nat) (nonce : Bytes) (d : Dev) : keyedLane di nonce d = fun x => { x with
    partNonce := nonce, relink := false
    kmac := if hasKey d (0x520 + di)
      then some (kMac (instKey d (0x520 + di)) x.devNonce nonce di (lanePort d)) else none } := by
  unfold keyedLane meteringKey hasKey instKey
  cases alGet d.keys.inst (0x520 + di) <;> rfl

/-- A dispenser's connectors have their rated current, its lane the key. -/
def dispIdentified (l : Nat) (f : Frame) (d : Dev) : Dev :=
  let e := conRated (l - 32) (ratedQ f.body) d
  modLane l (keyedLane (l - 32) (f.body.take 16) e) e

section

variable {l : Nat} {f : Frame} {d : Dev} (h : IdentAnswered d l f)

include h

theorem identRsp_answered : identRsp l f d =
    if identCheck d l f.body ≠ 0 then linkFail l (identCheck d l f.body) (identPublished l f d)
    else linkUp l (if l < 32 then stageIdentified l f (identPublished l f d) else dispIdentified l f (identPublished l f d)) := by
  have h1 : (!(running d) || !(laneBound d l) || decide (48 ≤ l)) = false := by simp [h.runs, h.bound, h.lane]
  have h2 : (!(frameSound f) || f.kind != 9 || f.words != 8 || fieldLe f.body 52 4 != 0) = false := by
    simp [h.sound, h.kind, h.words, h.reserved]
  have h3 : ((laneS d l).st != .identifying || !(laneS d l).awaiting) = false := by simp [h.identifying, h.awaiting]
  unfold identRsp
  dsimp only
  rw [if_neg (ne_true_of_eq_false h1), if_neg (ne_true_of_eq_false h2), if_neg (ne_true_of_eq_false h3)]
  simp only [dispIdentified, ← conRated_eq, keyedLane_eq]
  rfl

theorem identRsp_stage (hl : l < 32) (hc : identCheck d l f.body = 0) :
    identRsp l f d = linkUp l (stageIdentified l f (identPublished l f d)) := by
  rw [identRsp_answered h, if_neg (not_not.2 hc), if_pos hl]

theorem identRsp_disp (hl : 32 ≤ l) (hc : identCheck d l f.body = 0) :
    identRsp l f d = linkUp l (dispIdentified l f (identPublished l f d)) := by
  rw [identRsp_answered h, if_neg (not_not.2 hc), if_neg (by omega)]

end

/-! ### What the answer leaves behind -/

section

variable (l : Nat) (f : Frame) (d : Dev)

theorem identPublished_lane : OneLane l { laneS d l with awaiting := false } d (identPublished l f d) :=
  (OneLane.modLane (l := l) (fun x => { x with awaiting := false }) d).keep (fun _ => rfl)

theorem identPublished_framed : Framed [.lanes] [(0x210 + l, 0)] d (identPublished l f d) :=
  .putb (by decide) (by simp) (.lanes (by simp) (.refl _ _ d) _)

theorem ob_identPublished : ob (identPublished l f d) (0x210 + l) 0 = f.body.take 56 := by
  rw [ob, identPublished, ov_putb_same]
  rfl

theorem stageIdentified_framed : Framed [.stg] [] d (stageIdentified l f d) := .stg (by simp) (.refl _ _ d) _

/-- The metering key depends on the keys and on the port alone. -/
theorem meteringKey_congr {ps : List Part} {ks : List (Nat × Nat)} {d e : Dev} (h : Framed ps ks d e) (hkeys : .keys ∉ ps)
    (hpair : .pair ∉ ps) (hk : (0x403, 0) ∉ ks) (di : Nat) (nonce : Bytes) (x : LaneS) :
    meteringKey di nonce e x = meteringKey di nonce d x := by
  have hp : e.pair = d.pair := h.1 .pair hpair
  have ho : on e 0x403 0 = on d 0x403 0 := h.on_eq (by decide) (by decide) hk
  have hi : e.keys = d.keys := h.1 .keys hkeys
  simp only [meteringKey, lanePort, portNo, hi, hp, ho]

theorem dispIdentified_framed : Framed [.lanes] (ratedObjs (dispE d (l - 32))) d (dispIdentified l f d) :=
  .lanes (by simp) ((conRated_framed _ _ d).mono (by simp) (fun _ h => h)) _

theorem dispIdentified_lane :
    OneLane l (keyedLane (l - 32) (f.body.take 16) d (laneS d l)) d (dispIdentified l f d) := by
  have hr := conRated_framed (l - 32) (ratedQ f.body) d
  have hs := laneS_congr (hr.1 .lanes (by simp))
  have h := OneLane.modLane (l := l) (keyedLane (l - 32) (f.body.take 16) (conRated (l - 32) (ratedQ f.body) d))
    (conRated (l - 32) (ratedQ f.body) d)
  refine ⟨h.lane.trans ?_, fun k hk => (h.others k hk).trans (hs k)⟩
  rw [hs, keyedLane, meteringKey_congr hr (by simp) (by simp) (not_mem_ratedObjs (by decide))]
  rfl

theorem dispIdentified_metro (c : Nat) : metroS (dispIdentified l f d) c = metroS d c := by
  have h : (conRated (l - 32) (ratedQ f.body) d).lanes = d.lanes := (conRated_framed _ _ d).1 .lanes (by simp)
  exact metroS_congr (congrArg LanesS.metro h) c

theorem on_dispIdentified {i : Nat} (hi : i < (dispE d (l - 32)).count) :
    on (dispIdentified l f d) (oCon ((dispE d (l - 32)).first + i) 0x21) 0 = ratedQ f.body := on_conRated _ _ d hi

/-- The numbers of a dispenser's connectors after its link-up (R317). -/
theorem metroS_linkUp {l : Nat} (hl : 32 ≤ l) (hl' : l < 48) {i : Nat} (hi : i < (dispE d (l - 32)).count) :
    metroS (linkUp l d) ((dispE d (l - 32)).first + i) = anew (metroS d ((dispE d (l - 32)).first + i)) := by
  have h := linkedUp_framed d (by omega : l < 50)
  have hd := dispE_congr (h.1 .sched (by simp)) (l - 32)
  have hm : metroS (linkedUp l d) ((dispE d (l - 32)).first + i) = metroS d ((dispE d (l - 32)).first + i) :=
    metroS_congr (congrArg LanesS.metro (setLane_lanes l d upLane)) _
  rw [linkUp_disp d hl hl', ← hd, metroS_metroLinkUp _ _ (by rwa [hd]), hd, hm]

end

section

variable {s : State} {l : Nat} {f : Frame} (h : IdentAnswered s.dev l f)

include h

theorem IdentAnswered.fresh : IdentAnswered (fresh s) l f :=
  ⟨h.runs, h.lane, h.bound, h.sound, h.kind, h.words, h.reserved, h.identifying, h.awaiting⟩

theorem identRsp_completes {x : Dev} {P : Dev → Prop} (hx : identRsp l f (Machine.fresh s) = x)
    (hP : ∀ e, Follows x e → P e) : Completes (.identRsp l f) s P :=
  partRun_completes (g := identRsp l f) rfl (by simpa using h.lane) h.runs hx hP

/-- An answer that fails a check (R141). -/
theorem identRsp_fails (hc : identCheck s.dev l f.body ≠ 0) : Completes (.identRsp l f) s (fun e =>
    (laneS e l).st = .identFail ∧ raised e 0x0C11 l = true ∧ ob e (0x210 + l) 0 = f.body.take 56 ∧
      (∀ k, k ≠ l → laneS e k = laneS s.dev k) ∧ Framed [.lanes] [(0x200, l + 1), (0x210 + l, 0)] s.dev e) := by
  refine identRsp_completes h ((identRsp_answered h.fresh).trans (if_pos hc)) (fun e he => ?_)
  have hl := h.lane
  have hlane := ((identPublished_lane l f (Machine.fresh s)).after (linkFail_lane _)).follow he
  have hfail := (linkFail_framed (d := identPublished l f (Machine.fresh s)) (by omega : l < 50) _).follow he
  refine ⟨by rw [hlane.lane], he.raised _ _ _ (raised_linkFail _), ?_, hlane.others, ?_⟩
  · rw [hfail.ob_eq (by decide) (counted_of_lt _ (by omega)) (by simp), ob_identPublished]
  · exact .of_fresh (((identPublished_framed l f _).mono (by simp) (by simp)).trans (hfail.mono (by simp) (by simp)))

/-- A stage whose answer passes every check is UP, and its rated current waits (R138, R167). -/
theorem identRsp_brings_stage_up (hl : l < 32) (hc : identCheck s.dev l f.body = 0) :
    Completes (.identRsp l f) s (fun e =>
      (laneS e l).st = .up ∧ raised e 0x0810 l = true ∧ ob e (0x210 + l) 0 = f.body.take 56 ∧ on e 0x200 (l + 1) = laneCode (laneS e l) ∧
        (stgS e l).ratedNew = some (ratedQ f.body) ∧ (∀ k, k ≠ l → laneS e k = laneS s.dev k ∧ stgS e k = stgS s.dev k) ∧
        Framed [.lanes, .stg] [(0x200, l + 1), (0x210 + l, 0)] s.dev e) := by
  refine identRsp_completes h (identRsp_stage h.fresh hl hc) (fun e he => ?_)
  have hpub := identPublished_framed l f (Machine.fresh s)
  have hident := stageIdentified_framed l f (identPublished l f (Machine.fresh s))
  have hup := (linkUp_framed_part (stageIdentified l f (identPublished l f (Machine.fresh s))) h.lane).follow he
  have hlane := (((identPublished_lane l f _).keep (laneS_congr (hident.1 .lanes (by simp)))).after (linkUp_lane _)).follow he
  have hstg := stgS_congr (hup.1 .stg (by simp))
  refine ⟨by rw [hlane.lane]; rfl, he.raised _ _ _ (raised_linkUp _), ?_, ?_, ?_, fun k hk => ⟨hlane.others k hk, ?_⟩, ?_⟩
  · rw [hup.ob_eq (by decide) (counted_of_lt _ (by omega)) (by simp), hident.ob_eq (by decide) (counted_of_lt _ (by omega)) (by simp),
      ob_identPublished]
  · rw [he.on_low (by omega) (by decide), on_linkUp _ (by omega), hlane.lane]
  · rw [hstg, stageIdentified, stgS_modStg_same]
  · rw [hstg, stageIdentified, stgS_modStg_other _ _ _ _ hk.symm]
    rfl
  · exact .of_fresh (((hpub.mono (by simp) (by simp)).trans (hident.mono (by simp) (by simp))).trans (hup.mono (by simp) (by simp)))

/-- A dispenser whose answer passes every check is UP with the key of its metering records, the numbers of which start anew (R131,
R317). -/
theorem identRsp_brings_dispenser_up (hl : 32 ≤ l) (hc : identCheck s.dev l f.body = 0) :
    let x := dispE s.dev (l - 32)
    Completes (.identRsp l f) s (fun e =>
      (laneS e l).st = .up ∧ raised e 0x0810 l = true ∧ ob e (0x210 + l) 0 = f.body.take 56 ∧ on e 0x200 (l + 1) = laneCode (laneS e l) ∧
        (laneS e l).partNonce = f.body.take 16 ∧
        (laneS e l).kmac = meteringKey (l - 32) (f.body.take 16) s.dev (laneS s.dev l) ∧
        (∀ i, i < x.count → x.first + i < 64 → on e (oCon (x.first + i) 0x21) 0 = ratedQ f.body ∧
          (metroS e (x.first + i)).lastAcc = none ∧
          (metroS e (x.first + i)).prevAcc = (metroS s.dev (x.first + i)).lastAcc.or (metroS s.dev (x.first + i)).prevAcc) ∧
        (∀ k, k ≠ l → laneS e k = laneS s.dev k) ∧
        Framed [.lanes] ([(0x200, l + 1), (0x210 + l, 0)] ++ ratedObjs x) s.dev e) := by
  intro x
  refine identRsp_completes h (identRsp_disp h.fresh hl hc) (fun e he => ?_)
  have hl48 := h.lane
  have hpub := identPublished_framed l f (Machine.fresh s)
  have hident := dispIdentified_framed l f (identPublished l f (Machine.fresh s))
  have hup := (linkUp_framed_part (dispIdentified l f (identPublished l f (Machine.fresh s))) hl48).follow he
  have hlane := (((identPublished_lane l f _).after (dispIdentified_lane l f _)).after (linkUp_lane _)).follow he
  have hpubl := (identPublished_lane l f (Machine.fresh s)).lane
  have hidl := (dispIdentified_lane l f (identPublished l f (Machine.fresh s))).lane
  refine ⟨?_, he.raised _ _ _ (raised_linkUp _), ?_, ?_, ?_, ?_, fun i hi _ => ?_, hlane.others, ?_⟩
  · rw [hlane.lane]
    rfl
  · rw [hup.ob_eq (by decide) (counted_of_lt _ (by omega)) (by simp),
      hident.ob_eq (by decide) (counted_of_lt _ (by omega)) (not_mem_ratedObjs (by omega)), ob_identPublished]
  · rw [he.on_low (by omega) (by decide), on_linkUp _ (by omega), hlane.lane]
  · rw [hlane.lane, hidl]
    rfl
  · rw [hlane.lane, hidl, hpubl]
    exact meteringKey_congr hpub (by simp) (by simp) (by simp; omega) _ _ _
  · have hd : dispE (dispIdentified l f (identPublished l f (Machine.fresh s))) (l - 32) = x := dispE_congr (hident.1 .sched (by simp)) _
    have hm := metroS_linkUp (dispIdentified l f (identPublished l f (Machine.fresh s))) hl hl48 (i := i) (by rwa [hd])
    rw [hd, dispIdentified_metro, ← metroS_congr (congrArg LanesS.metro (he.part .lanes))] at hm
    refine ⟨?_, congrArg MetroS.lastAcc hm, congrArg MetroS.prevAcc hm⟩
    rw [hup.on_eq (by decide) (counted_oCon _ _ _) (by simp [oCon])]
    exact on_dispIdentified l f (identPublished l f (Machine.fresh s)) hi
  · exact .of_fresh (((hpub.mono (fun _ h => h) (by simp)).trans
      (hident.mono (fun _ h => h) (fun _ => List.mem_append_right _))).trans (hup.mono (fun _ h => h) (by simp)))

end

/-- Settles O25: an answer that passes every check on a stage's lane and on a dispenser's, and one that fails a check. -/
theorem identificationBringsLanesUp : Obligations.IdentificationBringsLanesUp := by
  intro s l f hr hl hb hs hk hw hv hst ha
  have h : IdentAnswered s.dev l f := ⟨hr, hl, hb, hs, hk, hw, hv, hst, ha⟩
  exact ⟨fun hl' hc => identRsp_brings_stage_up h hl' hc, fun hl' hc => identRsp_brings_dispenser_up h hl' hc,
    fun hc => identRsp_fails h hc⟩

end Sys2Proof

/-! The release of answers to vehicles (O48). When a PAIR frame has been sent, the answers whose deltas it carried go out (R303), and each
goes by way of ring 9 (R420). While ring 9 is stopped, or serves others, the answer waits in it (R422), where the statement wants it
sent. -/

namespace Sys2Proof

open Machine

namespace AnswerInRing

/-- An active unit of a pair that runs, its PAIR frame on the way, an answer for the vehicle of connector 0 ready with it, ring 9
stopped. -/
def start : State :=
  { State.reset with dev := put 0x3209 7 1 { State.reset.dev with
      phase := .running
      pair := { State.reset.dev.pair with declared := true, role := .active, sending := true }
      ses := { State.reset.dev.ses with ready := [(0, mStop, [0])] } } }

/-- The device after the frame has been sent. -/
def after : Dev := settle (pairFrameSent monWriteDone (fresh start))

theorem exec_pairFrameSent : exec .pairFrameSent start = .next { start with dev := after } := rfl

/-- The answer waits in ring 9. -/
theorem waits : (ring after 9).q.length = 1 := by decide +kernel

/-- Nothing is sent. -/
theorem not_sent : after.sent = [] := by decide +kernel

end AnswerInRing

/-- Refutes O48: an answer that is released while ring 9 is stopped waits in the ring (`AnswerInRing.waits`, `AnswerInRing.not_sent`). -/
theorem not_pairSignals : ¬ Obligations.PairSignals := by
  intro h
  obtain ⟨_, _, _, _, hsent, _⟩ := h.2 AnswerInRing.start rfl
  obtain ⟨_, _, _, hgone, _⟩ := (hsent rfl rfl).of_exec AnswerInRing.exec_pairFrameSent
  have hmem := hgone (0, mStop, [0]) List.mem_cons_self (by decide)
  rw [AnswerInRing.not_sent] at hmem
  exact List.not_mem_nil hmem

end Sys2Proof

/-! The rings that no consequence of a command passes through: what follows posts to rings 12 and 15 alone (R420, R543). -/

namespace Sys2Proof

open Machine

/-- Ring `r` is as it was, with the descriptors that wait in it. -/
def KeepsRing (r : Nat) (d e : Dev) : Prop := ring e r = ring d r

namespace KeepsRing

variable {r : Nat} {d e f : Dev}

theorem refl (r : Nat) (d : Dev) : KeepsRing r d d := rfl

theorem trans (h : KeepsRing r d e) (k : KeepsRing r e f) : KeepsRing r d f := Eq.trans k h

/-- An update that leaves the rings alone. -/
theorem of_dma (h : e.dma = d.dma) : KeepsRing r d e := congrArg (fun x : List RingS => x.getD r {}) h

theorem ite {c : Prop} [Decidable c] (h : KeepsRing r d e) (k : KeepsRing r d f) : KeepsRing r d (if c then e else f) := by
  split
  · exact h
  · exact k

theorem modRing {q : Nat} (g : RingS → RingS) (h : q ≠ r) (d : Dev) : KeepsRing r d (modRing q g d) := ring_modRing_other d q r g h

theorem forEach {α : Type} {l : List α} {g : α → Dev → Dev} (h : ∀ a x, KeepsRing r x (g a x)) (d : Dev) : KeepsRing r d (forEach l g d) :=
  forEach_keeps (P := KeepsRing r d) (fun a _ _ hx => hx.trans (h a _)) (.refl r d)

end KeepsRing

section

variable {r q : Nat} (hq : q ≠ r)

include hq

theorem ringFull_keepsRing (d : Dev) : KeepsRing r d (ringFull q d) :=
  .ite (.of_dma rfl) ((KeepsRing.of_dma (e := incr 32 (0x3200 + q) 6 d) rfl).trans ((KeepsRing.modRing _ hq _).trans (.of_dma rfl)))

/-- What passes through one ring leaves the others alone. -/
theorem ringPass_keepsRing (its : List RingItem) {go lost : Dev → Dev} (hg : ∀ x, KeepsRing r x (go x))
    (hl : ∀ x, KeepsRing r x (lost x)) (d : Dev) : KeepsRing r d (ringPass q its go lost d) := by
  have hdone : KeepsRing r d (ringDone q its.length (ringStep q 3 its.length d)) := .of_dma rfl
  have hwait := KeepsRing.modRing (r := r) (q := q) (fun x => { x with q := x.q ++ its.map (fun i => { own := some i }) }) hq
    (ringStep q 3 its.length d)
  exact .ite (hg d) (.ite (hl d) (.ite (hdone.trans (hg _)) (.ite ((ringFull_keepsRing hq d).trans (hl _))
    ((KeepsRing.of_dma rfl).trans hwait))))

end

section

variable {r : Nat}

theorem emit_keepsRing (t : Tx) (d : Dev) : KeepsRing r d (emit t d) := .of_dma rfl

theorem monSend_keepsRing (cmd seq : Nat) (b : Bytes) (d : Dev) : KeepsRing r d (monSend cmd seq b d) := .of_dma rfl

theorem traceSend_keepsRing (rs : List Bytes) (d : Dev) : KeepsRing r d (traceSend rs d) :=
  .forEach (fun _ _ => monSend_keepsRing _ _ _ _) d

theorem traceDrop_keepsRing (n : Nat) (d : Dev) : KeepsRing r d (traceDrop n d) := .of_dma rfl

theorem traceEvent_keepsRing (h : r ≠ 15) (v : EvRec) (d : Dev) : KeepsRing r d (traceEvent v d) := by
  have hpost : ∀ rs, KeepsRing r d (tracePost rs d) := fun rs => by
    unfold tracePost
    exact .ite (.refl r d) (.ite (ringPass_keepsRing h.symm _ (traceSend_keepsRing _) (.refl r) (modMon _ d))
      (ringPass_keepsRing h.symm _ (.refl r) (traceDrop_keepsRing _) d))
  exact .ite (hpost _) (.refl r d)

theorem fbSend_keepsRing (b prio typ dest : Nat) (p : Bytes) (d : Dev) : KeepsRing r d (fbSend b prio typ dest p d) :=
  .ite (.of_dma rfl) (.refl r d)

theorem sendPdu_keepsRing (h : r ≠ 12) (c : Client) (b : Bytes) (d : Dev) : KeepsRing r d (sendPdu c b d) := by
  have hudp : ∀ its t m, KeepsRing r d (ringPass 12 its (emit t) id { d with malpen := m }) := fun its t m =>
    (KeepsRing.of_dma (e := { d with malpen := m }) rfl).trans
      (ringPass_keepsRing h.symm its (emit_keepsRing t) (.refl r) _)
  unfold sendPdu
  refine .ite (.refl r d) (.ite (fbSend_keepsRing _ _ _ _ _ d) ?_)
  split
  · dsimp only
    exact hudp _ _ _
  · exact hudp _ _ d.malpen

theorem notifyEvent_keepsRing (h : r ≠ 12) (v : EvRec) (d : Dev) : KeepsRing r d (notifyEvent v d) :=
  .forEach (fun _ x => .ite (.refl r x) (.ite (fbSend_keepsRing _ _ _ _ _ (modMal _ x)) (sendPdu_keepsRing h _ _ (modMal _ x)))) d

theorem capTrigger_keepsRing (k code : Nat) (d : Dev) : KeepsRing r d (capTrigger k code d) :=
  .ite (.refl r d) (.ite (.of_dma rfl) (.ite (.of_dma rfl) (.of_dma rfl)))

theorem capOnEvent_keepsRing (v : EvRec) (d : Dev) : KeepsRing r d (capOnEvent v d) :=
  .ite (.refl r d) (.ite (capTrigger_keepsRing _ _ d) (.ite (.forEach (fun _ _ => capTrigger_keepsRing _ _ _) d) (.refl r d)))

variable (h12 : r ≠ 12) (h15 : r ≠ 15)

include h12 h15

theorem tellEvent_keepsRing (v : EvRec) (d : Dev) : KeepsRing r d (tellEvent v d) :=
  ((notifyEvent_keepsRing h12 v d).trans (traceEvent_keepsRing h15 v _)).trans (capOnEvent_keepsRing v _)

theorem settle_keepsRing (d : Dev) : KeepsRing r d (settle d) := by
  have hrate : KeepsRing r d (monRate d) := .ite (.refl r d) (.of_dma rfl)
  have hseen : ∀ x : Dev, KeepsRing r x { x with ev := { x.ev with fresh := [] } } := fun _ => .of_dma rfl
  exact .ite ((hrate.trans (hseen _)).trans (.forEach (tellEvent_keepsRing h12 h15) _)) (hseen d)

/-- A command that acts on the device alone, and a ring that what follows it does not pass through. -/
theorem act_completes_ring {c : Instr} {s : State} {f : Dev → Dev} {P : Dev → Prop} (hc : exec c s = act f s)
    (hP : ∀ e, Follows (f (fresh s)) e → ring e r = ring (f (fresh s)) r → P e) : Completes c s P :=
  ⟨_, hc, rfl, rfl, hP _ (settle_follows _) (settle_keepsRing h12 h15 _)⟩

end

end Sys2Proof

/-! Short-circuit blocks, fragments of vehicle frames, and the sleep of an upstream direction (R126, R132, R143, R170, R171, R290). -/

namespace Sys2Proof

open Machine

/-! ### SC_BLOCK (R126, R170, R171) -/

theorem counted_oStg (k off sub : Nat) : counted (oStg k off) sub = false := by
  have h1 : ¬ oStg k off ≤ 0x34FF := by unfold oStg; omega
  have h2 : ¬ oStg k off < 0x3210 := by omega
  simp [counted, ringBook, h1, h2]

/-- A phase of a stage is marked as tripped, and counted. -/
def scMarked (k p : Nat) (d : Dev) : Dev :=
  setStatus (oStg k 0x0B) 0 p (incr 32 (oStg k 0x0D) (p + 1) (modStg k (fun x => { x with tripped := setBit x.tripped p }) d))

section

variable {k p : Nat} {sample : Int} {d : Dev}

/-- The block goes to the stage of an active unit unless it is LOST. -/
def scSent (k mask : Nat) (d : Dev) : Dev :=
  if isActive d && !((stgS d k).lost) then sendFrame k 6 (natLe 4 (on d 0x402 0) ++ natLe 4 mask) d else d

theorem scSent_follows (k mask : Nat) (d : Dev) : Follows d (scSent k mask d) := by
  unfold scSent
  split
  · exact sendBlocks_follows _ _ _
  · exact .refl d

theorem scBlock_above (hr : running d = true) (hk : k < 32) (hb : laneBound d k = true) (hp : p < (stageE d k).phases)
    (hs : scLimit d k < sample.natAbs) (hup : (laneS d k).st = .up) : scBlock k p sample d =
    scSent k (setBit (stgS d k).tripped p) (raise 0x2E01 k (setBit (stgS d k).tripped p) (scMarked k p d)) := by
  have h : (!(running d) || !(laneBound d k) || decide (32 ≤ k) || decide ((stageE d k).phases ≤ p) ||
      decide (sample.natAbs ≤ scLimit d k) || (laneS d k).st != .up) = false := by
    simp [hr, hb, hk, hp, hs, hup]
  unfold scBlock
  rw [if_neg (ne_true_of_eq_false h)]
  simp only [stgS_modStg_same]
  rfl

theorem scMarked_framed (hp : p < 32) (d : Dev) : Framed [.stg] [(oStg k 0x0B, 0), (oStg k 0x0D, p + 1)] d (scMarked k p d) :=
  .put (by decide) (by simp) (.put (by omega) (by simp) (.stg (by simp) (.refl _ _ d) _))

theorem on_scMarked_mask (d : Dev) : on (scMarked k p d) (oStg k 0x0B) 0 = setBit (on d (oStg k 0x0B) 0) p := by
  rw [scMarked, on_setStatus_same, on_incr_other _ _ _ _ _ _ (by simp only [okey, oStg]; omega), on_modStg]

theorem on_scMarked_count (hp : p < 32) (d : Dev) :
    on (scMarked k p d) (oStg k 0x0D) (p + 1) = incSat 32 (on d (oStg k 0x0D) (p + 1)) := by
  rw [scMarked, on_setStatus_other _ _ _ _ _ _ (by simp only [okey, oStg]; omega), on_incr_same, on_modStg]

theorem sent_scSent {mask : Nat} (ha : isActive d = true) (hl : (stgS d k).lost = false) :
    Sent (scSent k mask d) k 6 d.time.micro (natLe 4 (on d 0x402 0) ++ natLe 4 mask) := by
  rw [scSent, if_pos (by rw [ha, hl]; rfl)]
  exact sent_sendFrame k 6 _ rfl

end

theorem scBlock_trips {s : State} {k p : Nat} {sample : Int} (hr : running s.dev = true) (hk : k < 32) (hp : p < 32)
    (hb : laneBound s.dev k = true) (hph : p < (stageE s.dev k).phases) (hs : scLimit s.dev k < sample.natAbs)
    (hup : (laneS s.dev k).st = .up) :
    let mask := setBit (stgS s.dev k).tripped p
    Completes (.scBlock k p sample) s (fun e => raised e 0x2E01 k = true ∧ (stgS e k).tripped = mask ∧
      on e (oStg k 0x0B) 0 = setBit (on s.dev (oStg k 0x0B) 0) p ∧
      on e (oStg k 0x0D) (p + 1) = incSat 32 (on s.dev (oStg k 0x0D) (p + 1)) ∧
      (isActive s.dev = true → (stgS s.dev k).lost = false →
        launched e k 6 s.dev.time.micro (natLe 4 (on s.dev 0x402 0) ++ natLe 4 mask) = true) ∧
      (∀ j, j ≠ k → stgS e j = stgS s.dev j) ∧ Framed [.stg] [(oStg k 0x0B, 0), (oStg k 0x0D, p + 1)] s.dev e) := by
  intro mask
  have hx := scBlock_above (d := fresh s) hr hk hb hph hs hup
  refine partRun_completes (g := scBlock k p sample) rfl (by simp [hk, hp]) hr hx (fun e he => ?_)
  have hraise := raise_follows 0x2E01 k mask (scMarked k p (fresh s))
  have hall := (hraise.trans (scSent_follows k mask _)).trans he
  have hmark := scMarked_framed (k := k) hp (fresh s)
  have hepoch : on (scMarked k p (fresh s)) 0x402 0 = on s.dev 0x402 0 :=
    hmark.on_eq (by decide) (by decide) (by simp [oStg]; omega)
  refine ⟨?_, ?_, ?_, ?_, fun ha hl => ?_, fun j hj => ?_, .of_fresh (hmark.follow hall)⟩
  · exact he.raised _ _ _ ((scSent_follows k mask _).raised _ _ _ (raised_raise _ _ _ _))
  · rw [stgS_congr (hall.part .stg)]
    exact congrArg StgS.tripped (stgS_modStg_same (fresh s) k _)
  · rw [hall.on_of_not_counted (by decide) (counted_oStg _ _ _), on_scMarked_mask, on_fresh]
  · rw [hall.on_of_not_counted (by omega) (counted_oStg _ _ _), on_scMarked_count hp, on_fresh]
  · have hlost : (stgS (scMarked k p (fresh s)) k).lost = false :=
      (congrArg StgS.lost (stgS_modStg_same (fresh s) k (fun x => { x with tripped := setBit x.tripped p }))).trans hl
    have hsent := sent_scSent (k := k) (mask := mask) (d := raise 0x2E01 k mask (scMarked k p (fresh s))) ha hlost
    rw [on_raise, hepoch] at hsent
    exact (hsent.mono he.sent).launched
  · rw [stgS_congr (hall.part .stg)]
    exact stgS_modStg_other (fresh s) k j _ hj.symm

/-! ### Fragments of vehicle frames (R132, R290) -/

/-- What a connector's frame has so far. -/
def vethGot (d : Dev) (c : Nat) : Bytes := (alGet d.lanes.vethRx c).getD []

/-- The fragments held of a connector's frame are given up. -/
def vethDrop (c : Nat) (d : Dev) : Dev := { d with lanes := { d.lanes with vethRx := alDel d.lanes.vethRx c } }

/-- The fragments of a connector's frame are held. -/
def vethHold (c : Nat) (f : Bytes) (d : Dev) : Dev := { d with lanes := { d.lanes with vethRx := alSet d.lanes.vethRx c f } }

/-- A whole frame goes by way of ring 8 where the device keeps it. -/
def vethWhole (c : Nat) (f : Bytes) (d : Dev) : Dev :=
  if f.length < 14 ∨ !(vehWanted d c f) then d else ringPass 8 [.vehicleUp c f] (vehTake c f) id d

section

variable {c off di i : Nat} {last : Bool} {b : Bytes} {d : Dev}

theorem veth_up (hc : connDisp d c = some (di, i)) (hr : running d = true) (hup : (laneS d (32 + di)).st = .up) :
    veth c off last b d =
      if off ≠ (vethGot d c).length ∨ b = [] ∨ 1024 < b.length ∨ 1514 < (vethGot d c ++ b).length then vethDrop c d
      else if last then vethWhole c (vethGot d c ++ b) (vethDrop c d) else vethHold c (vethGot d c ++ b) d := by
  have h : (!(running d) || (laneS d (32 + di)).st != .up) = false := by simp [hr, hup]
  simp only [veth, hc]
  rw [if_neg (ne_true_of_eq_false h)]
  rfl

theorem veth_in_order {got : Bytes} (hb : b ≠ []) (hlen : b.length ≤ 1024) (ho : off = got.length) (hall : (got ++ b).length ≤ 1514) :
    ¬ (off ≠ got.length ∨ b = [] ∨ 1024 < b.length ∨ 1514 < (got ++ b).length) := by
  simp only [not_or, not_not, not_lt]
  exact ⟨ho, hb, hlen, hall⟩

theorem vethDrop_framed (c : Nat) (d : Dev) : Framed [.lanes] [] d (vethDrop c d) := .lanes (by simp) (.refl _ _ d) _

theorem vethHold_framed (c : Nat) (f : Bytes) (d : Dev) : Framed [.lanes] [] d (vethHold c f d) := .lanes (by simp) (.refl _ _ d) _

theorem vehTake_framed (c : Nat) (f : Bytes) (d : Dev) : Framed [.lanes] [] d (vehTake c f d) := .lanes (by simp) (.refl _ _ d) _

theorem vethWhole_framed (c : Nat) (f : Bytes) (d : Dev) : Framed [.lanes] [] d (vethWhole c f d) :=
  .ite (.refl _ _ d) (ringPass_framed (by decide) _ (vehTake_framed c f) (fun x => .refl _ _ x) d)

/-- One descriptor passes through a ring (R421, R422). -/
theorem ringPass_one (r : Nat) (it : RingItem) (go lost : Dev → Dev) (d : Dev) : ringPass r [it] go lost d =
    if ringSize d r = 0 then lost d
    else if ringIdle d r then go (ringDone r 1 (ringStep r 3 1 d))
    else if ringRoom d r < 1 then lost (ringFull r d)
    else modRing r (fun x => { x with q := x.q ++ [{ own := some it }] }) (ringStep r 3 1 d) := if_neg (List.cons_ne_nil _ _)

/-- A whole frame that the device keeps waits for its row where ring 8 moves it at once. -/
theorem vethWhole_lanes {f : Bytes} (h : 14 ≤ f.length) (d : Dev) : (vethWhole c f d).lanes = { d.lanes with
    vehIn := d.lanes.vehIn ++ if vehWanted d c f = true ∧ ringSize d 8 ≠ 0 ∧ ringIdle d 8 = true then [(c, f)] else [] } := by
  unfold vethWhole
  cases hw : vehWanted d c f
  · simp
  · rw [if_neg (by simp; omega), ringPass_one]
    by_cases hz : ringSize d 8 = 0
    · simp [hz]
    · rw [if_neg hz]
      by_cases hi : ringIdle d 8 = true
      · simp [hi, hz, vehTake, ringDone, ringStep]
      · rw [if_neg hi]
        have hfull : (ringFull 8 d).lanes = d.lanes := (ringFull_follows 8 d (by decide)).part .lanes
        split <;> simp [hi, hfull, ringStep]

/-- A whole frame that the device keeps waits in ring 8 where the engine does not serve it. -/
theorem vethWhole_waits {f : Bytes} (h : 14 ≤ f.length) (hw : vehWanted d c f = true) (hi : ringIdle d 8 = false)
    (hroom : 0 < ringRoom d 8) : (ring (vethWhole c f d) 8).q = (ring d 8).q ++ [{ own := some (.vehicleUp c f) }] := by
  have hz : ringSize d 8 ≠ 0 := fun hz => by simp [ringRoom, hz] at hroom
  rw [vethWhole, if_neg (by simp [hw]; omega), ringPass_one, if_neg hz, if_neg (by simp [hi]), if_neg (by omega), ring_modRing_same]
  rfl

end

section

variable {s : State} {c off di i : Nat} {last : Bool} {b : Bytes} (hr : running s.dev = true) (hc : c < 64)
  (hd : connDisp s.dev c = some (di, i)) (hup : (laneS s.dev (32 + di)).st = .up)

include hr hc hd hup

theorem vethRecord_completes {x : Dev} {P : Dev → Prop}
    (hx : (if off ≠ (vethGot s.dev c).length ∨ b = [] ∨ 1024 < b.length ∨ 1514 < (vethGot s.dev c ++ b).length then vethDrop c (fresh s)
      else if last then vethWhole c (vethGot s.dev c ++ b) (vethDrop c (fresh s)) else vethHold c (vethGot s.dev c ++ b) (fresh s)) = x)
    (hP : ∀ e, Follows x e → ring e 8 = ring x 8 → P e) : Completes (.vethRecord c off last b) s P := by
  have hf : onPart (decide (c < 64)) (ifRun (veth c off last b)) (fresh s) = x :=
    (if_pos (by simpa using hc)).trans ((if_pos hr).trans ((veth_up (d := fresh s) hd hr hup).trans hx))
  refine act_completes_ring (r := 8) (f := onPart (decide (c < 64)) (ifRun (veth c off last b))) (by decide) (by decide) rfl
    (fun e he hring => ?_)
  rw [hf] at he hring
  exact hP e he hring

/-- A fragment out of order, or past the longest frame, discards those held. -/
theorem vethRecord_drops (h : off ≠ (vethGot s.dev c).length ∨ 1514 < (vethGot s.dev c ++ b).length) :
    Completes (.vethRecord c off last b) s (fun e =>
      alGet e.lanes.vethRx c = none ∧ e.lanes.vehIn = s.dev.lanes.vehIn ∧ Framed [.lanes] [] s.dev e) := by
  refine vethRecord_completes hr hc hd hup (if_pos (by tauto)) (fun e he _ => ?_)
  have hl : e.lanes = _ := he.part .lanes
  exact ⟨by rw [hl]; exact alGet_alDel_same _ _, by rw [hl]; rfl, .of_fresh ((vethDrop_framed c _).follow he)⟩

variable (hb : b ≠ []) (hlen : b.length ≤ 1024) (ho : off = (vethGot s.dev c).length) (hall : (vethGot s.dev c ++ b).length ≤ 1514)

include hb hlen ho hall

/-- A fragment in order joins those held. -/
theorem vethRecord_joins : Completes (.vethRecord c off false b) s (fun e =>
    alGet e.lanes.vethRx c = some (vethGot s.dev c ++ b) ∧ e.lanes.vehIn = s.dev.lanes.vehIn ∧ Framed [.lanes] [] s.dev e) := by
  refine vethRecord_completes hr hc hd hup (last := false)
    ((if_neg (veth_in_order hb hlen ho hall)).trans (if_neg (by decide))) (fun e he _ => ?_)
  have hl : e.lanes = _ := he.part .lanes
  exact ⟨by rw [hl]; exact alGet_alSet_same _ _ _, by rw [hl]; rfl, .of_fresh ((vethHold_framed c _ _).follow he)⟩

/-- The last fragment makes the frame whole (R290, R420, R422). -/
theorem vethRecord_completes_frame (h14 : 14 ≤ (vethGot s.dev c ++ b).length) : Completes (.vethRecord c off true b) s (fun e =>
    alGet e.lanes.vethRx c = none ∧
      e.lanes.vehIn = s.dev.lanes.vehIn ++
        (if vehWanted s.dev c (vethGot s.dev c ++ b) = true ∧ ringSize s.dev 8 ≠ 0 ∧ ringIdle s.dev 8 = true
          then [(c, vethGot s.dev c ++ b)] else []) ∧
      (vehWanted s.dev c (vethGot s.dev c ++ b) = true → ringIdle s.dev 8 = false → 0 < ringRoom s.dev 8 →
        (ring e 8).q = (ring s.dev 8).q ++ [{ own := some (.vehicleUp c (vethGot s.dev c ++ b)) }]) ∧
      Framed [.lanes] [] s.dev e) := by
  refine vethRecord_completes hr hc hd hup (last := true)
    ((if_neg (veth_in_order hb hlen ho hall)).trans (if_pos rfl)) (fun e he hring => ?_)
  have hl : e.lanes = _ := (he.part .lanes : e.lanes = _).trans (vethWhole_lanes h14 (vethDrop c (fresh s)))
  refine ⟨by rw [hl]; exact alGet_alDel_same _ _, by rw [hl]; rfl, fun hw hi hroom => ?_, ?_⟩
  · rw [hring]
    exact vethWhole_waits (d := vethDrop c (fresh s)) h14 hw hi hroom
  · exact .of_fresh (((vethDrop_framed c _).trans (vethWhole_framed c _ _)).follow he)

end

/-! ### Sleep of the upstream direction (R143) -/

section

variable {s : State} {l : Nat} (hr : running s.dev = true) (hl : l < 48)

include hr hl

theorem sleepMarker_sleeps (hup : (laneS s.dev l).st = .up) : Completes (.sleepMarker l) s (fun e =>
    laneS e l = { laneS s.dev l with upSleep := true } ∧ on e 0x200 (l + 1) = 7 ∧ (∀ k, k ≠ l → laneS e k = laneS s.dev k) ∧
      Framed [.lanes] [(0x200, l + 1)] s.dev e) := by
  have hx : sleepMarker l (fresh s) = setLane l (fun x => { x with upSleep := true }) (fresh s) := if_pos (by
    change (running s.dev && decide (l < 48) && (laneS s.dev l).st == .up) = true
    simp [hr, hl, hup])
  refine part_completes (g := sleepMarker l) rfl (by simpa using hl) hx (fun e he => ?_)
  have hlane := (OneLane.setLane (l := l) (fun x => { x with upSleep := true }) (fresh s)).follow he
  have hst : (laneS (fresh s) l).st = .up := hup
  refine ⟨hlane.lane, ?_, hlane.others, .of_fresh ((setLane_framed l _ (by omega) _).follow he)⟩
  rw [he.on_low (by omega) (by decide), on_setLane]
  simp [laneCode, hst]

theorem upstreamWake_wakes : Completes (.upstreamWake l) s (fun e =>
    laneS e l = { laneS s.dev l with upSleep := false } ∧ (∀ k, k ≠ l → laneS e k = laneS s.dev k) ∧
      Framed [.lanes] [(0x200, l + 1)] s.dev e) := by
  have hx : upstreamWake l (fresh s) = upAwake l (fresh s) := if_pos (by
    change (running s.dev && decide (l < 48)) = true
    simp [hr, hl])
  refine part_completes (g := upstreamWake l) rfl (by simpa using hl) hx (fun e he => ?_)
  have hlanes := laneS_congr (he.part .lanes)
  exact ⟨(hlanes l).trans (laneS_upAwake_same l _), fun k hk => (hlanes k).trans (laneS_upAwake_other l _ hk),
    .of_fresh ((upAwake_framed l _ (by omega)).follow he)⟩

end

/-- Settles O27: the short-circuit block, the ways of a fragment, and the two ends of a sleep. -/
theorem blocksFragmentsAndSleep : Obligations.BlocksFragmentsAndSleep := by
  refine ⟨fun s k p sample hr hk hp hb hph hs hup => scBlock_trips hr hk hp hb hph hs hup, fun s hr => ⟨?_, ?_, ?_⟩⟩
  · intro c off b di i hc hd hup hb hlen
    exact ⟨fun ho hall => vethRecord_joins hr hc hd hup hb hlen ho hall,
      fun ho h14 hall => vethRecord_completes_frame hr hc hd hup hb hlen ho hall h14,
      fun _ h => vethRecord_drops hr hc hd hup h⟩
  · exact fun l hl hup => sleepMarker_sleeps hr hl hup
  · exact fun l hl _ => upstreamWake_wakes hr hl

end Sys2Proof

/-! Clamps, saturation and the outputs of a slot: what the kernels of converter control share (R58, R153, R158). -/

namespace Sys2Proof

open Machine

section

variable {lo hi x : Int}

theorem clampHi_le (lo hi x : Int) : clampHi lo hi x ≤ hi := min_le_right _ _

theorem le_clampHi (x : Int) (h : lo ≤ hi) : lo ≤ clampHi lo hi x := le_min (le_max_right _ _) h

theorem clampHi_eq_self (hl : lo ≤ x) (hh : x ≤ hi) : clampHi lo hi x = x := by
  rw [clampHi, max_eq_left hl, min_eq_left hh]

theorem clampHi_eq_hi (h : hi ≤ lo) : clampHi lo hi x = hi := min_eq_right (h.trans (le_max_right _ _))

/-- A second upper bound is one bound with the first. -/
theorem min_clampHi (lo hi top x : Int) : min (clampHi lo hi x) top = clampHi lo (min hi top) x := min_assoc _ _ _

/-- A clamp symmetric about 0 keeps its bound on both sides. -/
theorem clampHi_neg_mem (x : Int) (h : 0 ≤ hi) : -hi ≤ clampHi (-hi) hi x ∧ clampHi (-hi) hi x ≤ hi :=
  ⟨le_clampHi x (by omega), clampHi_le _ _ _⟩

theorem satS_lt (x : Int) : satS 32 x < 2 ^ 31 := by
  unfold satS clampI
  split
  · norm_num
  · split <;> omega

theorem satS_eq_self (hl : -(2 ^ 31) ≤ x) (hh : x < 2 ^ 31) : satS 32 x = x := by
  rw [satS, clampI, if_neg (by omega), if_neg (by omega)]

/-- Bounds inside the range of a word see no saturation. -/
theorem clampHi_satS (hl : -(2 ^ 31) ≤ lo) (hh : hi < 2 ^ 31) : clampHi lo hi (satS 32 x) = clampHi lo hi x := by
  unfold clampHi satS clampI
  omega

end

section

variable {im : Image} {sl : SlotR}

/-- An output bound to an object. -/
theorem outTo_object {j : Nat} (v : Int) (o : KOut) (h : (bindAt im sl (sl.ins + j)).kind = 1) :
    outTo im sl j v o = { o with outs := o.outs ++ [(outKey im sl j, ofS (bindWidth (bindAt im sl (sl.ins + j)).ty) v)] } := if_pos h

/-- What an output bound to a launch register puts there. -/
def fieldOut (im : Image) (sl : SlotR) (j : Nat) (v : Int) : Nat × Nat :=
  (outField im sl j, ofS (bindWidth (bindAt im sl (sl.ins + j)).ty) v)

theorem outTo_field {j : Nat} (v : Int) (o : KOut) (h : (bindAt im sl (sl.ins + j)).kind ≠ 1) :
    outTo im sl j v o = { o with lreg := o.lreg ++ [fieldOut im sl j v] } := if_neg h

theorem foldl_outTo_fields (first : Nat) (l : List (Nat × Int)) (o : KOut)
    (h : ∀ p ∈ l, (bindAt im sl (sl.ins + (first + p.1))).kind ≠ 1) :
    l.foldl (fun o p => outTo im sl (first + p.1) p.2 o) o =
      { o with lreg := o.lreg ++ l.map (fun p => fieldOut im sl (first + p.1) p.2) } := by
  induction l generalizing o with
  | nil => simp
  | cons p l ih =>
    rw [List.foldl_cons, outTo_field _ _ (h p (by simp)), ih _ (fun q hq => h q (by simp [hq]))]
    simp

/-- A run of outputs that are all bound to launch registers. -/
theorem outList_fields (first n : Nat) (f : Nat → Int) (o : KOut)
    (h : ∀ j, j < n → (bindAt im sl (sl.ins + (first + j))).kind ≠ 1) :
    outList im sl first ((List.range n).map f) o =
      { o with lreg := o.lreg ++ (List.range n).map (fun j => fieldOut im sl (first + j) (f j)) } := by
  have hz : (List.range n).zip ((List.range n).map f) = (List.range n).map (fun j => (j, f j)) := by
    simpa using List.zip_map' (f := id) (g := f) (l := List.range n)
  rw [outList, List.length_map, List.length_range, hz, foldl_outTo_fields _ _ _ (by simpa using h)]
  simp

end

end Sys2Proof

/-! The loops of a group (R155 to R159). -/

namespace Sys2Proof

open Machine

/-! ### PI and PID (R155, R156) -/

section

variable (i kp ki umin umax m r y t dterm : Int)

/-- The output that the loop asks for before its limits, from the proportional term and the integral. -/
def piAsked (i kp ki r y dterm : Int) : Int :=
  q16 (satS 64 (satS 64 (kp * satS 32 (r - y) + dterm) + satS 64 (i + ki * satS 32 (r - y))))

theorem piStep_out : (piStep i kp ki umin umax m r y t dterm).1 =
    clampHi umin (min umax (satS 32 (t + m))) (piAsked i kp ki r y dterm) := by
  rw [← min_clampHi, min_def]
  simp only [piStep, piAsked, ← not_lt, ite_not]

theorem piStep_integral : (piStep i kp ki umin umax m r y t dterm).2 =
    if (piStep i kp ki umin umax m r y t dterm).1 ≠ piAsked i kp ki r y dterm then
      satS 64 ((piStep i kp ki umin umax m r y t dterm).1 * 2 ^ 24 - satS 64 (kp * satS 32 (r - y) + dterm))
    else satS 64 (i + ki * satS 32 (r - y)) := rfl

/-- The output keeps to its limits and takes what was asked for between them; the integral follows each limit that acts. -/
theorem piStep_limited :
    let u := (piStep i kp ki umin umax m r y t dterm).1
    let i' := (piStep i kp ki umin umax m r y t dterm).2
    let lim := satS 32 (t + m)
    let w := piAsked i kp ki r y dterm
    u ≤ lim ∧ u ≤ umax ∧ (umin ≤ umax → umin ≤ lim → umin ≤ u) ∧ (u = w → i' = satS 64 (i + ki * satS 32 (r - y))) ∧
      (u ≠ w → i' = satS 64 (u * 2 ^ 24 - satS 64 (kp * satS 32 (r - y) + dterm))) ∧ (umin ≤ w → w ≤ min umax lim → u = w) := by
  intro u i' lim w
  have hu : u = clampHi umin (min umax lim) w := piStep_out ..
  have hi : i' = if u ≠ w then _ else _ := piStep_integral ..
  have htop : u ≤ min umax lim := hu ▸ clampHi_le _ _ _
  refine ⟨htop.trans (min_le_right _ _), htop.trans (min_le_left _ _), fun h1 h2 => ?_, fun h => ?_, fun h => ?_, fun h1 h2 => ?_⟩
  · exact hu ▸ le_clampHi _ (le_min h1 h2)
  · rw [hi, if_neg (not_not.2 h)]
  · rw [hi, if_pos h]
  · rw [hu, clampHi_eq_self h1 h2]

end

/-- The step of the loop with the operands that its bindings name (R155, R160). -/
def kPiStep (pid : Bool) (d : Dev) (im : Image) (sl : SlotR) (st : List Int) : Int × Int :=
  let cf := fun k => rdq d sl.cell (bankObj d sl.cell (bindObj (bindAt im sl 3))) ((bindAt im sl 3).sub + k)
  piStep (st.getD 0 0) (cf 0) (cf 1) (cf 2) (cf 3)
    (rdq d sl.cell (bankObj d sl.cell (bindObj (bindAt im sl 3))) (if pid then 0x1F else 0x19))
    (inpT d im sl 0) (inpT d im sl 1) (inpT d im sl 2)
    (if pid then cf 4 * satS 32 (satS 32 (inpT d im sl 0 - inpT d im sl 1) - st.getD 1 0) else 0)

section

variable {pid : Bool} {d : Dev} {im : Image} {sl : SlotR} {st : List Int} {l : Loc}
  (hl : locate (bindObj (bindAt im sl 3)) = some l) (hg : l.blk = .grp)

include hl hg

/-- A group that does not deliver holds its loops (R156). -/
theorem kPi_idle (h : rd d sl.cell (oGrp l.inst l.sub 0) 7 = 0) : kPi pid d im sl st = outTo im sl 0 0 {} := by
  simp [kPi, hl, hg, h]

/-- The voltage loop in reverse delivery (R156). -/
theorem kPi_reverse (h : rd d sl.cell (oGrp l.inst l.sub 0) 7 ≠ 0)
    (hrev : (bindAt im sl 1).kind = 1 ∧ bindObj (bindAt im sl 1) = oGrp l.inst l.sub 0 ∧ (bindAt im sl 1).sub = 1 ∧
      rdq d sl.cell (oGrp l.inst l.sub 0) 5 = -65536) :
    kPi pid d im sl st = outTo im sl 0 (rdq d sl.cell (bankObj d sl.cell (bindObj (bindAt im sl 3))) ((bindAt im sl 3).sub + 3)) {} := by
  simp [kPi, hl, hg, h, hrev]

theorem kPi_runs (h : rd d sl.cell (oGrp l.inst l.sub 0) 7 ≠ 0)
    (hrev : ¬((bindAt im sl 1).kind = 1 ∧ bindObj (bindAt im sl 1) = oGrp l.inst l.sub 0 ∧ (bindAt im sl 1).sub = 1 ∧
      rdq d sl.cell (oGrp l.inst l.sub 0) 5 = -65536)) :
    kPi pid d im sl st = outTo im sl 0 (kPiStep pid d im sl st).1
      { st := (kPiStep pid d im sl st).2 :: (if pid then [satS 32 (inpT d im sl 0 - inpT d im sl 1)] else []) } := by
  simp only [kPi, hl, hg, if_true, if_neg h, if_neg hrev]
  cases pid <;> rfl

end

/-! ### MINSEL (R157) -/

/-- Candidate `j` is the first of the lowest of the first `n` candidates. -/
structure IsLowest (f : Nat → Int) (n j : Nat) : Prop where
  lt : j < n
  le : ∀ k, k < n → f j ≤ f k
  first : ∀ k, k < j → f j < f k

namespace IsLowest

variable {f : Nat → Int} {n j : Nat}

theorem one (f : Nat → Int) : IsLowest f 1 0 where
  lt := Nat.one_pos
  le k hk := by rw [Nat.lt_one_iff.1 hk]
  first k hk := absurd hk (Nat.not_lt_zero k)

theorem of_lower (h : IsLowest f n j) (hlt : f n < f j) : IsLowest f (n + 1) n where
  lt := Nat.lt_succ_self n
  le k hk := by
    obtain hk | rfl := Nat.lt_succ_iff_lt_or_eq.1 hk
    · exact (hlt.trans_le (h.le k hk)).le
    · exact le_rfl
  first k hk := hlt.trans_le (h.le k hk)

theorem of_not_lower (h : IsLowest f n j) (hge : ¬f n < f j) : IsLowest f (n + 1) j where
  lt := h.lt.trans (Nat.lt_succ_self n)
  le k hk := by
    obtain hk | rfl := Nat.lt_succ_iff_lt_or_eq.1 hk
    · exact h.le k hk
    · exact not_lt.1 hge
  first := h.first

/-- The candidates that follow are compared with the lowest so far. -/
theorem minSel (m : Nat) (h : IsLowest f n j) :
    ∃ i, minSel ((List.range' n m).map f) n (j, f j) = (i, f i) ∧ IsLowest f (n + m) i := by
  induction m generalizing n j with
  | zero => exact ⟨j, rfl, h⟩
  | succ m ih =>
    rw [List.range'_succ, List.map_cons, Machine.minSel, Nat.add_comm m, ← Nat.add_assoc]
    split
    case isTrue hlt => exact ih (h.of_lower hlt)
    case isFalse hge => exact ih (h.of_not_lower hge)

end IsLowest

section

variable {d : Dev} {im : Image} {sl : SlotR} {st : List Int}

theorem kMinsel_lowest (h0 : (bindAt im sl (sl.ins + 0)).kind = 1) (h1 : (bindAt im sl (sl.ins + 1)).kind = 1) (hp : 1 ≤ sl.p1) :
    ∃ j, IsLowest (inp d im sl) sl.p1 j ∧ kMinsel d im sl st =
      { outs := [(outKey im sl 0, ofS (bindWidth (bindAt im sl (sl.ins + 0)).ty) (inp d im sl j)),
          (outKey im sl 1, ofS (bindWidth (bindAt im sl (sl.ins + 1)).ty) j)] } := by
  obtain ⟨m, hm⟩ := Nat.exists_eq_add_of_le hp
  obtain ⟨j, hj, hlow⟩ := (IsLowest.one (inp d im sl)).minSel m
  have hxs : (List.range sl.p1).map (inp d im sl) = inp d im sl 0 :: (List.range' 1 m).map (inp d im sl) := by
    rw [hm, Nat.add_comm, List.range_eq_range', List.range'_succ, List.map_cons]
  have hsel : kMinsel d im sl st = outTo im sl 1 j (outTo im sl 0 (inp d im sl j) {}) := by
    simp only [kMinsel, hxs, List.drop_one, List.tail_cons, List.headD_cons, hj]
  refine ⟨j, hm ▸ hlow, ?_⟩
  rw [hsel, outTo_object _ _ h0, outTo_object _ _ h1]
  rfl

end

/-! ### RAMP (R159) -/

/-- The output of a ramp that moves from `was` to `target`. -/
def rampMove (was step target : Int) : Int := satS 32 (was + clampHi (-step) step (satS 32 (target - was)))

section

variable {was step target : Int} (h0 : 0 ≤ step) (hs : step < 2 ^ 31) (hw : -(2 ^ 31) ≤ was) (hw' : was < 2 ^ 31)
  (ht : -(2 ^ 31) ≤ target) (ht' : target < 2 ^ 31)

include h0 hs hw hw' ht ht'

/-- Between words, with a step that is one, nothing saturates. -/
theorem rampMove_eq : rampMove was step target = was + clampHi (-step) step (target - was) := by
  rw [rampMove, clampHi_satS (by omega) hs, satS_eq_self] <;> unfold clampHi <;> omega

/-- A ramp moves towards its target by at most one step, and reaches a target within a step. -/
theorem rampMove_between :
    let v := rampMove was step target
    v ≤ was + step ∧ was - step ≤ v ∧ (was ≤ target → was ≤ v ∧ v ≤ target) ∧ (target ≤ was → target ≤ v ∧ v ≤ was) ∧
      (was ≤ target → target ≤ was + step → v = target) ∧ (target ≤ was → was - step ≤ target → v = target) := by
  simp only [rampMove_eq h0 hs hw hw' ht ht', clampHi]
  omega

end

section

variable {d : Dev} {im : Image} {sl : SlotR} {st : List Int}

/-- Where a ramp starts from: the measured voltage in its first run. -/
def rampFrom (st : List Int) (meas : Int) : Int := if st.getD 1 0 = 0 then meas else st.getD 0 0

theorem kRamp_stopped (h : inp d im sl 0 = 0 ∨ rd d sl.cell (bindObj (bindAt im sl 1)) 7 = 0) :
    kRamp d im sl st = outTo im sl 0 (inp d im sl 1) { st := [inp d im sl 1, 0, inp d im sl 1] } := by
  have h' : inp d im sl 0 = 0 ∨ (rd d sl.cell (bindObj (bindAt im sl 1)) 7 == 0) = true := h.imp_right beq_iff_eq.2
  rw [kRamp, rampStep, if_pos h']

theorem kRamp_moves (ht : inp d im sl 0 ≠ 0) (hs : rd d sl.cell (bindObj (bindAt im sl 1)) 7 ≠ 0) :
    kRamp d im sl st =
      let v := rampMove (rampFrom st (inp d im sl 1)) (mul16 (inp d im sl 2) (tMsQ d)) (inp d im sl 0)
      outTo im sl 0 v { st := [v, 1, if st.getD 1 0 = 0 then inp d im sl 1 else st.getD 2 0] } := by
  have h' : ¬(inp d im sl 0 = 0 ∨ (rd d sl.cell (bindObj (bindAt im sl 1)) 7 == 0) = true) := by simp [ht, hs]
  rw [kRamp, rampStep, if_neg h']
  rfl

end

/-! ### The four loops -/

/-- Settles O12: the bounds are those of one clamp for PI, PID and LIMIT; MINSEL by `IsLowest`; RAMP by `rampMove_eq`. -/
theorem groupLoopKernels : Obligations.GroupLoopKernels := by
  intro d im sl st hk
  have h0 := hk 0 (by decide)
  refine ⟨fun pid l hl hg => ⟨fun hs => ?_, fun hs hrev => ?_, fun hs hrev => ?_⟩, fun hp => ?_, ?_, fun ht => ?_, fun ht hs => ?_⟩
  · rw [kPi_idle hl hg hs, outTo_object _ _ h0, ofS, Int.zero_emod]
    rfl
  · rw [kPi_reverse hl hg hs hrev, outTo_object _ _ h0]
    rfl
  · refine ⟨(kPiStep pid d im sl st).1, (kPiStep pid d im sl st).2, ?_, ?_⟩
    · rw [kPi_runs hl hg hs hrev, outTo_object _ _ h0]
      rfl
    · exact piStep_limited _ _ _ _ _ _ _ _ _ _
  · obtain ⟨j, hlow, hj⟩ := kMinsel_lowest (d := d) (st := st) h0 (hk 1 (by decide)) hp
    exact ⟨j, hlow.lt, hj, hlow.le, hlow.first⟩
  · exact ⟨_, outTo_object _ _ h0, clampHi_le _ _ _, le_clampHi _, fun h => clampHi_eq_hi h.le, clampHi_eq_self⟩
  · rw [kRamp_stopped ht, outTo_object _ _ h0]
    rfl
  · intro hstep hw hw' ht' ht''
    refine ⟨_, (kRamp_moves ht hs).trans (outTo_object _ _ h0), ?_⟩
    exact rampMove_between hstep (satS_lt _) hw hw' ht' ht''

end Sys2Proof

/-! The phase kernels (R163, R165, R166, R173, R175 to R177). -/

namespace Sys2Proof

open Machine

/-! ### Compensators, BALANCE, PACK and DIODE_EMU (R163, R165, R166, R175) -/

theorem compStep_clamped (h b a : List Int) (e : Int) {lo hi : Int} (hlh : lo ≤ hi) :
    lo ≤ (compStep h b a lo hi e).1 ∧ (compStep h b a lo hi e).1 ≤ hi :=
  ⟨le_clampHi _ hlh, clampHi_le _ _ _⟩

section

variable {kb lim : Int} {on : List Bool} {cur : List Int} (hlen : on.length = cur.length)

include hlen

theorem length_balanceTrims : (balanceTrims kb lim on cur).length = on.length := by
  simp [balanceTrims, hlen]

/-- The trim of a phase: 0 where it is not enabled, and otherwise a clamped value. -/
theorem getD_balanceTrims {j : Nat} (hj : j < on.length) :
    ∃ x, (balanceTrims kb lim on cur).getD j 0 = if on.getD j false then clampHi (-lim) lim x else 0 := by
  have hj' : j < cur.length := hlen ▸ hj
  simp only [balanceTrims, List.getD_eq_getElem?_getD, List.getElem?_map, hj, hj',
    List.getElem?_eq_getElem, List.zip_eq_zipWith, List.getElem?_zipWith, Option.map_some, Option.getD_some]
  exact ⟨_, rfl⟩

theorem balanceTrims_bounded (hl : 0 ≤ lim) {j : Nat} (hj : j < on.length) :
    -lim ≤ (balanceTrims kb lim on cur).getD j 0 ∧ (balanceTrims kb lim on cur).getD j 0 ≤ lim ∧
      (on.getD j false = false → (balanceTrims kb lim on cur).getD j 0 = 0) := by
  obtain ⟨x, hx⟩ := getD_balanceTrims (kb := kb) (lim := lim) hlen hj
  rw [hx]
  split
  case isTrue hon => exact ⟨(clampHi_neg_mem x hl).1, (clampHi_neg_mem x hl).2, fun h => absurd (hon.symm.trans h) (by decide)⟩
  case isFalse => exact ⟨by omega, hl, fun _ => rfl⟩

end

section

variable {d : Dev} {im : Image} {sl : SlotR} {st : List Int}

/-- The limit of PACK's trims (R166). -/
def packTrimMax (d : Dev) (im : Image) (sl : SlotR) : Int := rdq d sl.cell (phBank d sl.cell (bindAt im sl sl.ins).sub) 10

/-- The launch register takes the duties of the phases and then their trims. -/
theorem kPack_fields (hk : ∀ j, j < 2 * sl.p1 → (bindAt im sl (sl.ins + j)).kind ≠ 1) :
    kPack d im sl st = { lreg :=
      (List.range sl.p1).map (fun j => fieldOut im sl j (clampHi 0 65535 (inp d im sl j))) ++
      (List.range sl.p1).map (fun j => fieldOut im sl (sl.p1 + j)
        (clampHi (-packTrimMax d im sl) (packTrimMax d im sl) (inp d im sl (sl.p1 + j)))) } := by
  rw [kPack, outList_fields 0 sl.p1 _ _ (fun j hj => hk _ (by omega)), outList_fields sl.p1 sl.p1 _ _ (fun j hj => hk _ (by omega))]
  simp [packTrimMax]

end

theorem diodeStep_of_some {zc : Nat} (h : zc ≠ 0) (q x : Int) :
    q - 1024 ≤ diodeStep (some q) x zc ∧ diodeStep (some q) x zc ≤ q + 1024 := by
  rw [diodeStep, if_neg h]
  exact ⟨le_clampHi _ (by simp only [Option.getD_some]; omega), clampHi_le _ _ _⟩

theorem diodeStep_none (x : Int) (zc : Nat) : diodeStep none x zc = x := by
  unfold diodeStep
  split
  · rfl
  · exact clampHi_eq_self (by simp) (by simp)

/-! ### Phases as bits of a mask (R176, R177) -/

/-- The phases of `en` are phases of `a`. -/
def Within (a en : Nat) : Prop := ∀ i, en.testBit i = true → a.testBit i = true

theorem within_iff {a en : Nat} : Within a en ↔ en &&& a = en := by
  refine ⟨fun h => Nat.eq_of_testBit_eq fun i => ?_, fun h i hi => ?_⟩
  · rw [Nat.testBit_and]
    cases hi : en.testBit i
    · rfl
    · simp [h i hi]
  · rw [← h, Nat.testBit_and] at hi
    exact (Bool.and_eq_true_iff.1 hi).2

theorem within_and (a n : Nat) : Within a (n &&& a) := within_iff.2 (by rw [Nat.and_assoc, Nat.and_self])

section

variable {a en i : Nat}

theorem Within.setBit (h : Within a en) (hi : a.testBit i = true) : Within a (setBit en i) := by
  intro j hj
  rw [testBit_setBit] at hj
  obtain hj | hj := Bool.or_eq_true_iff.1 hj
  · exact h j hj
  · exact of_decide_eq_true hj ▸ hi

theorem Within.clearBit (h : Within a en) : Within a (clearBit en i) := by
  intro j hj
  rw [testBit_clearBit] at hj
  exact h j (Bool.and_eq_true_iff.1 hj).1

theorem lt_of_testBit (ha : a < 2 ^ 32) (hi : a.testBit i = true) : i < 32 := by
  by_contra hge
  rw [Nat.testBit_eq_false_of_lt (ha.trans_le (Nat.pow_le_pow_right (by decide) (not_lt.1 hge)))] at hi
  exact Bool.false_ne_true hi

/-- A mask with fewer phases than another lacks one of them. -/
theorem exists_not_testBit_of_popCount_lt (h : popCount 32 en < popCount 32 a) : ∃ i, i ∈ bitsSet 32 a ∧ en.testBit i = false := by
  by_contra hno
  refine absurd h (not_lt.2 ?_)
  simp only [popCount, ← List.countP_eq_length_filter]
  refine List.countP_mono_left fun i hi ha => ?_
  by_contra hen
  exact hno ⟨i, mem_bitsSet.2 ⟨List.mem_range.1 hi, ha⟩, by simpa using hen⟩

theorem exists_testBit_of_popCount_pos (h : 0 < popCount 32 en) : ∃ i, i < 32 ∧ en.testBit i = true := by
  obtain ⟨i, hi⟩ := List.exists_mem_of_length_pos (l := bitsSet 32 en) h
  exact ⟨i, mem_bitsSet.1 hi⟩

end

/-! ### SHED (R176, R177) -/

section

variable {a en tail p i : Nat} {ok : Nat → Bool}

theorem ringNext_some (h : ringNext a p ok = some i) : i ∈ bitsSet 32 a ∧ ok i = true := by
  have hmem := List.mem_of_find?_eq_some h
  simp only [List.mem_append, List.mem_filter] at hmem
  exact ⟨hmem.elim And.left And.left, List.find?_some h⟩

/-- The ring from any phase on reaches every phase. -/
theorem ringNext_ne_none (hi : i ∈ bitsSet 32 a) (hok : ok i = true) : ringNext a p ok ≠ none := by
  intro h
  refine absurd hok (List.find?_eq_none.1 h i ?_)
  simp only [List.mem_append, List.mem_filter, decide_eq_true_eq]
  exact (lt_or_ge p i).imp (⟨hi, ·⟩) (⟨hi, ·⟩)

/-- Where a permitted phase is left, one is enabled. -/
theorem shedAdd_sets (rot : Bool) (h : ∃ i, i ∈ bitsSet 32 a ∧ en.testBit i = false) :
    ∃ i, i ∈ bitsSet 32 a ∧ shedAdd rot a en tail = setBit en i := by
  obtain ⟨i, hi, hen⟩ := h
  have hok : (!en.testBit i) = true := by simp [hen]
  cases rot with
  | true =>
    obtain ⟨j, hj⟩ := Option.ne_none_iff_exists'.1 (ringNext_ne_none (p := (tail + 31) % 32) (ok := fun i => !en.testBit i) hi hok)
    exact ⟨j, (ringNext_some hj).1, by simp [shedAdd, hj]⟩
  | false =>
    cases hf : (bitsSet 32 a).find? (fun i => !en.testBit i) with
    | none => exact absurd hok (List.find?_eq_none.1 hf i hi)
    | some j => exact ⟨j, List.mem_of_find?_eq_some hf, by simp [shedAdd, hf]⟩

/-- While a phase is enabled, the tail stands on one. -/
theorem testBit_shedTail (h : ∃ i, i ∈ bitsSet 32 a ∧ en.testBit i = true) : en.testBit (shedTail a en tail) = true := by
  obtain ⟨i, hi, hen⟩ := h
  unfold shedTail
  split
  · assumption
  · obtain ⟨j, hj⟩ := Option.ne_none_iff_exists'.1 (ringNext_ne_none (p := tail) (ok := fun i => en.testBit i) hi hen)
    rw [hj, Option.getD_some]
    exact (ringNext_some hj).2

/-- Where a phase is enabled, one is disabled. -/
theorem shedDrop_clears (rot : Bool) (ht : tail ∈ bitsSet 32 a) (h : en.testBit tail = true) :
    ∃ i, i ∈ bitsSet 32 a ∧ (shedDrop rot a en tail).1 = clearBit en i := by
  cases rot with
  | true => exact ⟨tail, ht, rfl⟩
  | false =>
    cases hf : ((bitsSet 32 a).filter (fun i => en.testBit i)).getLast? with
    | none => exact absurd (List.getLast?_eq_none_iff.1 hf ▸ List.mem_filter.2 ⟨ht, h⟩) List.not_mem_nil
    | some j => exact ⟨j, (List.mem_filter.1 (List.mem_of_getLast? hf)).1, by simp [shedDrop, hf]⟩

end

/-- The phases that SHED finds enabled: those of its last run that are still permitted (R176). -/
def shedFrom (st : List Int) (a : Nat) : Nat := (if st = [] then a else (st.getD 0 0).toNat) &&& a

/-- A run of SHED keeps the enabled phases, enables one permitted phase or disables one. -/
theorem shedStep_cases (rot : Bool) (st : List Int) (a : Nat) (ig r : Int) (lo hi dwell nmin : Nat) (tm : Int) (ha : a < 2 ^ 32) :
    let o := shedStep rot st a ig r lo hi dwell nmin tm
    let en := shedFrom st a
    (o.1.getD 0 0 = en ∧ o.2 = false) ∨
      ∃ i, i ∈ bitsSet 32 a ∧ o.2 = true ∧ (o.1.getD 0 0 = setBit en i ∨ o.1.getD 0 0 = clearBit en i) := by
  intro o en
  have hin : Within a en := within_and a _
  have hmem : ∀ i, en.testBit i = true → i ∈ bitsSet 32 a := fun i hi => mem_bitsSet.2 ⟨lt_of_testBit ha (hin i hi), hin i hi⟩
  have ho : shedStep rot st a ig r lo hi dwell nmin tm = o := rfl
  clear_value o
  unfold shedStep at ho
  extract_lets low en₀ tail at ho
  split at ho
  case isTrue hadd =>
    obtain ⟨i, hi, heq⟩ := shedAdd_sets (tail := tail) rot (exists_not_testBit_of_popCount_lt hadd.2)
    exact .inr ⟨i, hi, ho ▸ rfl, .inl (ho ▸ congrArg Nat.cast heq)⟩
  case isFalse =>
    split at ho
    case isTrue hshed =>
      split at ho
      case isTrue =>
        obtain ⟨i, -, hi⟩ := exists_testBit_of_popCount_pos (Nat.zero_lt_of_lt hshed.2.1)
        have htail : en.testBit tail = true := testBit_shedTail ⟨i, hmem i hi, hi⟩
        obtain ⟨j, hj, heq⟩ := shedDrop_clears rot (hmem tail htail) htail
        exact .inr ⟨j, hj, ho ▸ rfl, .inr (ho ▸ congrArg Nat.cast heq)⟩
      case isFalse => exact .inl (ho ▸ ⟨rfl, rfl⟩)
    case isFalse => exact .inl (ho ▸ ⟨rfl, rfl⟩)

/-! ### I2T (R173) -/

/-- The integral of a run of I2T, in 2^-24 A²·s. -/
def i2tSum (st : List Int) (ig ic tm : Int) : Int :=
  max 0 (min (2 ^ 64 - 1) (st.getD 0 0 + divHalfUp ((ig * ig - ic * ic) * tm) (256 * 1000000000)))

/-- The state at an integral `a` and a limit `t`, after the state `s` (0 NORMAL, 1 FOLD, 2 TRIP). -/
def i2tState (s a t : Int) : Int :=
  if a ≥ t then 2 else if s = 0 ∧ 10 * a ≥ 8 * t then 1 else if s ≠ 0 ∧ 2 * a < t then 0 else s

theorem i2tStep_eq (st : List Int) (ig ic trip tm : Int) :
    i2tStep st ig ic trip tm = [i2tSum st ig ic tm, i2tState (st.getD 1 0) (i2tSum st ig ic tm) (trip * 2 ^ 24)] := rfl

theorem i2tSum_bounds (st : List Int) (ig ic tm : Int) : 0 ≤ i2tSum st ig ic tm ∧ i2tSum st ig ic tm < 2 ^ 64 := by
  unfold i2tSum
  omega

section

variable {s a t : Int}

theorem i2tState_trip (h : t ≤ a) : i2tState s a t = 2 := if_pos h

theorem i2tState_normal (h : a < t) (hhalf : 2 * a < t) : i2tState s a t = 0 := by
  rw [i2tState, if_neg (by omega), if_neg (by omega)]
  split <;> omega

theorem i2tState_fold (h : a < t) (hfold : 8 * t ≤ 10 * a) (hs : s = 0) : i2tState s a t = 1 := by
  rw [i2tState, if_neg (by omega), if_pos ⟨hs, hfold⟩]

theorem i2tState_keeps (h : a < t) (hhalf : t ≤ 2 * a) (hs : s ≠ 0 ∨ 10 * a < 8 * t) : i2tState s a t = s := by
  rw [i2tState, if_neg (by omega), if_neg (by omega), if_neg (by omega)]

end

/-! ### The phase kernels together -/

/-- Settles O13: the clamps of the compensators and of the trims, `shedStep_cases` for SHED, and the state of I2T by its integral. -/
theorem phaseKernels : Obligations.PhaseKernels := by
  refine ⟨fun h b a lo hi e hlh => ?_, fun kb lim on cur hl hlen => ?_, fun d im sl st hk => ?_, fun p x zc => ?_,
    fun rot st a ig r lo hi dwell nmin tm ha => ?_, fun st ig ic trip tm _ => ?_⟩
  · obtain ⟨hlo, hhi⟩ := compStep_clamped h b a e hlh
    exact ⟨hlo, hhi, rfl⟩
  · exact ⟨length_balanceTrims hlen, fun j hj => balanceTrims_bounded hlen hl hj⟩
  · intro tm k htm
    have hlreg : k = _ := kPack_fields hk
    refine ⟨by simp [hlreg, two_mul], by rw [hlreg], by rw [hlreg], fun j hj => ?_⟩
    have hduty : k.lreg.getD j default = fieldOut im sl j (clampHi 0 65535 (inp d im sl j)) := by
      simp [hlreg, List.getD_eq_getElem?_getD, List.getElem?_append_left, hj]
    have htrim : k.lreg.getD (sl.p1 + j) default = fieldOut im sl (sl.p1 + j) (clampHi (-tm) tm (inp d im sl (sl.p1 + j))) := by
      simp [hlreg, List.getD_eq_getElem?_getD, hj]
      rfl
    obtain ⟨hge, hle⟩ := clampHi_neg_mem (inp d im sl (sl.p1 + j)) htm
    rw [hduty, htrim]
    exact ⟨rfl, rfl, _, _, le_clampHi _ (by decide), clampHi_le _ _ _, hge, hle, rfl, rfl⟩
  · exact ⟨fun h => if_pos h, fun h q hq => hq ▸ diodeStep_of_some h q x, diodeStep_none x zc⟩
  · have hin : Within a (shedFrom st a) := within_and a _
    obtain ⟨hen, hno⟩ | ⟨i, hi, hyes, hen⟩ := shedStep_cases rot st a ig r lo hi dwell nmin tm ha
    · exact ⟨_, hen, within_iff.1 hin, fun _ => rfl, fun h => absurd (hno.symm.trans h) Bool.false_ne_true⟩
    · obtain ⟨hi32, hbit⟩ := mem_bitsSet.1 hi
      have hnot : ∀ {P : Prop}, _ = false → P := fun h => absurd (h.symm.trans hyes) Bool.false_ne_true
      obtain hen | hen := hen
      · exact ⟨_, hen, within_iff.1 (hin.setBit hbit), hnot, fun _ => ⟨i, hi32, hbit, .inl rfl⟩⟩
      · exact ⟨_, hen, within_iff.1 hin.clearBit, hnot, fun _ => ⟨i, hi32, hbit, .inr rfl⟩⟩
  · obtain ⟨h0, h64⟩ := i2tSum_bounds st ig ic tm
    rw [i2tStep_eq]
    exact ⟨h0, h64, i2tState_trip, i2tState_normal, i2tState_fold, i2tState_keeps⟩

end Sys2Proof

/-! Stages that are LOST, and short latches with their retry (R197 to R200, R586). -/

namespace Sys2Proof

open Machine

/-! ### An update of one stage -/

/-- The supervision state of stage `k` becomes `x`, the other stages stay. -/
structure OneStage (k : Nat) (x : StgS) (d e : Dev) : Prop where
  stage : stgS e k = x
  others : ∀ j, j ≠ k → stgS e j = stgS d j

namespace OneStage

variable {k : Nat} {x : StgS} {d e f : Dev}

theorem modStg (k : Nat) (g : StgS → StgS) (d : Dev) : OneStage k (g (stgS d k)) d (modStg k g d) :=
  ⟨stgS_modStg_same _ _ _, fun _ hj => stgS_modStg_other _ _ _ _ hj.symm⟩

/-- What comes after the update changes no stage. -/
theorem keep (h : OneStage k x d e) (he : f.stg = e.stg) : OneStage k x d f :=
  ⟨(stgS_congr he k).trans h.stage, fun j hj => (stgS_congr he j).trans (h.others j hj)⟩

theorem follow (h : OneStage k x d e) (he : Follows e f) : OneStage k x d f := h.keep (he.part .stg)

end OneStage

theorem group_modAt (x : StgS) (g : Nat) (f : GrpS → GrpS) : (modAt x.groups g f).getD g {} = f (x.groups.getD g {}) :=
  getD_modAt_same _ _ _

theorem counted_oGrp (k g off sub : Nat) : counted (oGrp k g off) sub = false :=
  (congrArg (counted · sub) (by simp only [oGrp, oStg]; omega)).trans (counted_oStg k (0x40 + 0x20 * g + off) sub)

theorem Framed.atSwap {ps : List Part} {ks : List (Nat × Nat)} {d e : Dev} (l : List Nat) (h : Framed ps ks d e) :
    Framed ps ks d (atSwap l e) :=
  h.trans ⟨(onlyParts_of_fields rfl).mono (by simp), .of_cur rfl, rfl⟩

/-! ### A stage becomes LOST (R197) -/

/-- The first `n` groups of a stage offer no current. -/
def capCleared (k n : Nat) (d : Dev) : Dev := forEach (List.range n) (fun g => putq (oGrp k g 0x15) 0 0) d

/-- The objects in which the first `n` groups of a stage offer their current. -/
def capObjs (k n : Nat) : List (Nat × Nat) := (List.range n).map (fun g => (oGrp k g 0x15, 0))

section

variable {k n : Nat} {d : Dev}

theorem capCleared_succ (k n : Nat) (d : Dev) : capCleared k (n + 1) d = putq (oGrp k n 0x15) 0 0 (capCleared k n d) := by
  simp [capCleared, forEach, List.range_succ]

theorem capCleared_stg (k n : Nat) (d : Dev) : (capCleared k n d).stg = d.stg := by
  induction n with
  | zero => rfl
  | succ n ih => rw [capCleared_succ, putq_stg, ih]

theorem capCleared_framed (k n : Nat) (d : Dev) : Framed [] (capObjs k n) d (capCleared k n d) :=
  .forEach (fun _ hg x => .put (by decide) (List.mem_map_of_mem hg) (.refl _ _ x)) (.refl _ _ d)

theorem on_capCleared {g : Nat} (hg : g < n) : on (capCleared k n d) (oGrp k g 0x15) 0 = 0 := by
  induction n with
  | zero => exact absurd hg (Nat.not_lt_zero g)
  | succ n ih =>
    rw [capCleared_succ]
    by_cases h : n = g
    · exact h ▸ on_put_same _ _ _ _
    · exact (on_put_other _ _ _ _ _ _ (by simp only [okey, oGrp]; omega)).trans (ih (by omega))

/-- The status word of a stage is none of the objects of its groups. -/
theorem status_notMem_capObjs (k n : Nat) : (oStg k 0x105, 0) ∉ capObjs k n := by
  simp only [capObjs, List.mem_map, Prod.mk.injEq, not_exists, oGrp, oStg]
  omega

/-- A stage is marked as LOST. -/
def lostMarked (k : Nat) (d : Dev) : Dev :=
  setStatus (oStg k 0x105) 0 1
    (capCleared k (stageE d k).groups (modStg k (fun x => { x with lost := true, validCnt := 0 }) d))

theorem stgLost_marks (hr : running d = true) (hh : (stgS d k).hold = true) (hl : (stgS d k).lost = false)
    (hc : on d 0x206 0 ≤ (stgS d k).holdCnt) : stgLost k d = raise 0x2E05 k 0 (lostMarked k d) := if_pos (by simp [hr, hh, hl, hc])

theorem lostMarked_stage (k : Nat) (d : Dev) : OneStage k { stgS d k with lost := true, validCnt := 0 } d (lostMarked k d) :=
  (OneStage.modStg k (fun x => { x with lost := true, validCnt := 0 }) d).keep (capCleared_stg k (stageE d k).groups _)

theorem lostMarked_framed (k : Nat) (d : Dev) :
    Framed [.stg] ((oStg k 0x105, 0) :: capObjs k (stageE d k).groups) d (lostMarked k d) :=
  .put (by decide) (by simp) (.trans (.stg (by simp) (.refl _ _ d) _)
    ((capCleared_framed k _ _).mono (by simp) (fun _ => List.mem_cons_of_mem _)))

theorem on_lostMarked_status (k : Nat) (d : Dev) : on (lostMarked k d) (oStg k 0x105) 0 = setBit (on d (oStg k 0x105) 0) 1 := by
  rw [lostMarked, on_setStatus_same,
    (capCleared_framed k _ _).on_eq (by decide) (counted_oStg _ _ _) (status_notMem_capObjs k _), on_modStg]

theorem on_lostMarked_cap {g : Nat} (hg : g < (stageE d k).groups) : on (lostMarked k d) (oGrp k g 0x15) 0 = 0 :=
  (on_setStatus_other _ _ _ _ _ _ (by simp only [okey, oGrp, oStg]; omega)).trans (on_capCleared hg)

/-- The contactors of a LOST stage count as open. -/
theorem gfbOf_lost (h : (stgS d k).lost = true) (g : Nat) : gfbOf d k g = false := by simp [gfbOf, h]

end

theorem stgLost_completes {s : State} {k : Nat} (hr : running s.dev = true) (hk : k < 32) (hh : (stgS s.dev k).hold = true)
    (hl : (stgS s.dev k).lost = false) (hc : on s.dev 0x206 0 ≤ (stgS s.dev k).holdCnt) : Completes (.stgLost k) s (fun e =>
      stgS e k = { stgS s.dev k with lost := true, validCnt := 0 } ∧ (∀ j, j ≠ k → stgS e j = stgS s.dev j) ∧
        on e (oStg k 0x105) 0 = setBit (on s.dev (oStg k 0x105) 0) 1 ∧
        (∀ g, g < (stageE s.dev k).groups → on e (oGrp k g 0x15) 0 = 0) ∧ (∀ g, gfbOf e k g = false) ∧ raised e 0x2E05 k = true ∧
        Framed [.stg] ((oStg k 0x105, 0) :: capObjs k (stageE s.dev k).groups) s.dev e) := by
  refine part_completes rfl (by simp [hk]) (stgLost_marks (d := fresh s) hr hh hl hc) (fun e he => ?_)
  have hall := (raise_follows 0x2E05 k 0 (lostMarked k (fresh s))).trans he
  obtain ⟨hstage, hothers⟩ := (lostMarked_stage k (fresh s)).follow hall
  refine ⟨hstage, hothers, ?_, fun g hg => ?_, gfbOf_lost (by rw [hstage]), he.raised _ _ _ (raised_raise _ _ _ _),
    .of_fresh ((lostMarked_framed k _).follow hall)⟩
  · rw [hall.on_of_not_counted (by decide) (counted_oStg _ _ _), on_lostMarked_status, on_fresh]
  · exact (hall.on_of_not_counted (by decide) (counted_oGrp _ _ _ _)).trans (on_lostMarked_cap hg)

/-! ### LOST ends (R197, R586) -/

/-- The stage is back; its next STAGE_DOWN frame carries RUN 0. -/
def Machine.StgS.resumed (x : StgS) : StgS :=
  { x with lost := false, startLost := false, hold := false, holdEnds := false, holdCnt := 0, validCnt := 0, resume := true }

/-- The status word of a stage that is back, and its launch register without RUN. -/
def lostEnded (k : Nat) (d : Dev) : Dev :=
  let x := clrStatus (oStg k 0x105) 0 1 (clrStatus (oStg k 0x105) 0 0 (modStg k StgS.resumed d))
  { x with lanes := { x.lanes with lreg := alSet x.lanes.lreg (fkey 3 k 0x111 0) 0 } }

/-- How many valid frames in a row end the LOST of a stage. -/
def lostNeed (d : Dev) (k : Nat) : Nat :=
  if (stgS d k).startLost && d.pair.role == .standby then (if (stgS d k).prevValid then 0 else 1) else minMicros d.time.code

theorem minMicros_ne_zero (code : Nat) : minMicros code ≠ 0 := by
  unfold minMicros
  split <;> decide

section

variable {k : Nat} {d : Dev}

theorem lostEnd_eq (k : Nat) (d : Dev) : lostEnd k d =
    if running d && (stgS d k).lost && decide ((stgS d k).validCnt ≥ lostNeed d k) &&
      (decide (lostNeed d k = 0) || lostEndStatus (fieldLe (upBody d k) 0 4)) && (decide (lostNeed d k ≠ 0) || (stgS d k).prevValid)
    then lostEnded k d else d := rfl

theorem lostEnd_valid (hr : running d = true) (hl : (stgS d k).lost = true) (hs : (stgS d k).startLost = false)
    (hv : minMicros d.time.code ≤ (stgS d k).validCnt) (hw : lostEndStatus (fieldLe (upBody d k) 0 4) = true) :
    lostEnd k d = lostEnded k d := by
  have hneed : lostNeed d k = minMicros d.time.code := if_neg (by simp [hs])
  rw [lostEnd_eq, hneed]
  exact if_pos (by simp [hr, hl, hv, hw, minMicros_ne_zero])

/-- On a STANDBY unit the LOST of the start ends at the first valid frame. -/
theorem lostEnd_start (hr : running d = true) (hl : (stgS d k).lost = true) (hs : (stgS d k).startLost = true)
    (hrole : d.pair.role = .standby) (hp : (stgS d k).prevValid = true) : lostEnd k d = lostEnded k d := by
  have hneed : lostNeed d k = 0 := by simp [lostNeed, hs, hrole, hp]
  rw [lostEnd_eq, hneed]
  exact if_pos (by simp [hr, hl, hp])

theorem lostEnded_stage (k : Nat) (d : Dev) : OneStage k (stgS d k).resumed d (lostEnded k d) := (OneStage.modStg k _ d).keep rfl

theorem lostEnded_framed (k : Nat) (d : Dev) : Framed [.stg, .lanes] [(oStg k 0x105, 0)] d (lostEnded k d) :=
  .lanes (by simp) (.put (by decide) (by simp) (.put (by decide) (by simp) (.stg (by simp) (.refl _ _ d) _))) _

theorem on_lostEnded_status (k : Nat) (d : Dev) :
    on (lostEnded k d) (oStg k 0x105) 0 = clearBit (clearBit (on d (oStg k 0x105) 0) 0) 1 :=
  (on_clrStatus_same _ _ _ _).trans (congrArg (clearBit · 1) (on_clrStatus_same _ _ _ _))

end

/-- A stage that comes back, whichever of the two conditions ends its LOST. -/
theorem lostEnd_completes {s : State} {k : Nat} (hk : k < 32) (hx : lostEnd k (fresh s) = lostEnded k (fresh s)) :
    Completes (.lostEnd k) s (fun e => (stgS e k).lost = false ∧ (stgS e k).startLost = false ∧ (stgS e k).hold = false ∧
      (∀ j, j ≠ k → stgS e j = stgS s.dev j) ∧ on e (oStg k 0x105) 0 = clearBit (clearBit (on s.dev (oStg k 0x105) 0) 0) 1 ∧
      alGet e.lanes.lreg (fkey 3 k 0x111 0) = some 0 ∧ Framed [.stg, .lanes] [(oStg k 0x105, 0)] s.dev e) := by
  refine part_completes rfl (by simp [hk]) hx (fun e he => ?_)
  obtain ⟨hstage, hothers⟩ := (lostEnded_stage k (fresh s)).follow he
  have hlanes : e.lanes = (lostEnded k (fresh s)).lanes := he.part .lanes
  refine ⟨by rw [hstage]; rfl, by rw [hstage]; rfl, by rw [hstage]; rfl, hothers, ?_, ?_, .of_fresh ((lostEnded_framed k _).follow he)⟩
  · rw [he.on_of_not_counted (by decide) (counted_oStg _ _ _), on_lostEnded_status, on_fresh]
  · rw [hlanes]
    exact alGet_alSet_same _ _ _

/-! ### What a group offers while it is latched off (R199) -/

/-- The objects that show which phases of a group are on and what it can carry. -/
def measObjs (k g : Nat) : List (Nat × Nat) := (oGrp k g 0x15, 0) :: [5, 6, 7, 8, 9].map (fun sub => (oGrp k g 0, sub))

section

variable {k g : Nat} {d : Dev}

theorem publishMeasMask_framed (k g : Nat) (d : Dev) : Framed [] (measObjs k g) d (publishMeasMask k g d) :=
  .put (by decide) (by simp [measObjs]) (.put (by decide) (by simp [measObjs]) (.put (by decide) (by simp [measObjs])
    (.put (by decide) (by simp [measObjs]) (.put (by decide) (by simp [measObjs]) (.put (by decide) (by simp [measObjs])
      (.refl _ _ d))))))

/-- A group that is latched off has no phase on, none available, and no current to offer. -/
theorem publishMeasMask_short (h : shortSet d k g = true) : ∃ sig v, publishMeasMask k g d =
    putq (oGrp k g 0x15) 0 0 (putq (oGrp k g 0) 9 v (put (oGrp k g 0) 8 0 (put (oGrp k g 0) 7 0
      (putq (oGrp k g 0) 6 0 (putq (oGrp k g 0) 5 sig d))))) := by
  have hnone : popCount 32 0 = 0 := by decide
  simp only [publishMeasMask, h, if_true, Nat.and_zero, ite_self, hnone, Nat.cast_zero, mul_zero, Int.zero_ediv]
  exact ⟨_, _, rfl⟩

/-- The objects of a group that is latched off show it without a phase and without current. -/
theorem on_publishMeasMask_short (h : shortSet d k g = true) : on (publishMeasMask k g d) (oGrp k g 0) 7 = 0 ∧
    on (publishMeasMask k g d) (oGrp k g 0) 8 = 0 ∧ on (publishMeasMask k g d) (oGrp k g 0x15) 0 = 0 := by
  obtain ⟨sig, v, hpub⟩ := publishMeasMask_short h
  have hcap : ∀ sub, sub < 256 → okey (oGrp k g 0x15) 0 ≠ okey (oGrp k g 0) sub := by simp only [okey, oGrp]; omega
  have hsub : ∀ a b, a ≠ b → okey (oGrp k g 0) a ≠ okey (oGrp k g 0) b := by simp only [okey]; omega
  rw [hpub]
  refine ⟨?_, ?_, on_put_same _ _ _ _⟩
  · refine (on_put_other _ _ _ _ _ _ (hcap 7 (by decide))).trans ((on_put_other _ _ _ _ _ _ (hsub 9 7 (by decide))).trans ?_)
    exact (on_put_other _ _ _ _ _ _ (hsub 8 7 (by decide))).trans (on_put_same _ _ _ _)
  · refine (on_put_other _ _ _ _ _ _ (hcap 8 (by decide))).trans ((on_put_other _ _ _ _ _ _ (hsub 9 8 (by decide))).trans ?_)
    exact on_put_same _ _ _ _

/-! ### A short latches a group off (R198, R199) -/

theorem status_notMem_measObjs (k g : Nat) : (oStg k 0x105, 0) ∉ measObjs k g := by
  simp only [measObjs, oGrp, oStg, List.map_cons, List.map_nil, List.mem_cons, Prod.mk.injEq, List.not_mem_nil, or_false,
    and_true, OfNat.zero_ne_ofNat, and_false]
  omega

/-- The latch of a group in the status word: OUT_SHORT or the like, and whether it stands on the connector's side. -/
def shortMarked (k g : Nat) (d : Dev) : Dev :=
  wrStatus (oStg k 0x105) 0 (12 + g) (shortConn d k g) (setStatus (oStg k 0x105) 0 (4 + g) d)

/-- A group just latched: the latch on the stage bus alone waits 5 s for its retry, if it has not been used. -/
def Machine.GrpS.latched (now : Nat) (retry : Bool) (x : GrpS) : GrpS :=
  { x with shortCnt := 0, allBlocked := false, retry := retry, retryAt := now + 5000000000 }

/-- A latch on the stage bus alone whose retry has not been used. -/
def retryLeft (d : Dev) (k g : Nat) : Bool := !(shortConn d k g) && !((on d (oStg k 0x105) 0).testBit (8 + g))

def shortLatched (k g : Nat) (d : Dev) : Dev :=
  modGrp k g (GrpS.latched d.startup.t (retryLeft d k g))
    (atSwap ([5, 6, 7, 8, 9].map (okey (oGrp k g 0)) ++ [okey (oGrp k g 0x15) 0, okey (oStg k 0x105) 0])
      (publishMeasMask k g (shortMarked k g d)))

/-- The event of a latch: SSTART_SHORT while the group still ramps up, OUT_SHORT otherwise. -/
def shortEvent (d : Dev) (k g : Nat) : Nat :=
  if ((stgS d k).groups.getD g {}).allBlocked = false ∧ oq d (oGrp k g 3) 0 < oq d (oGrp k g 0x0D) 0 then 0x2E03 else 0x2E04

theorem latchShort_eq (k g : Nat) (d : Dev) :
    latchShort k g d = raise (shortEvent d k g) k (g + 256 * boolNat (shortConn d k g)) (shortLatched k g d) := by
  have hcode : (if (decide (oq d (oGrp k g 3) 0 < oq d (oGrp k g 0x0D) 0) && !(((stgS d k).groups.getD g {}).allBlocked)) = true
      then 0x2E03 else 0x2E04) = shortEvent d k g := by simp [shortEvent, and_comm]
  rw [← hcode]
  rfl

theorem outShort_latches (hr : running d = true) (hk : k < 32) (hg : g < 4) (hw : (on d (oStg k 0x105) 0).testBit (4 + g) = false)
    (hc : 5 ≤ ((stgS d k).groups.getD g {}).shortCnt ∨ ((stgS d k).groups.getD g {}).allBlocked = true) :
    outShort k g d = latchShort k g d := if_pos (by simpa [hr, hk, hg, shortSet, hw] using hc)

theorem on_shortMarked_status (k g : Nat) (d : Dev) : on (shortMarked k g d) (oStg k 0x105) 0 =
    putBit (setBit (on d (oStg k 0x105) 0) (4 + g)) (12 + g) (shortConn d k g) :=
  (on_put_same _ _ _ _).trans (congrArg (putBit · _ _) (on_setStatus_same _ _ _ _))

theorem shortSet_shortMarked (k g : Nat) (d : Dev) : shortSet (shortMarked k g d) k g = true := by
  rw [shortSet, on_shortMarked_status, putBit]
  split
  · simp [testBit_setBit]
  · rw [testBit_clearBit, testBit_setBit]
    simp

theorem on_shortLatched_status (k g : Nat) (d : Dev) : on (shortLatched k g d) (oStg k 0x105) 0 =
    putBit (setBit (on d (oStg k 0x105) 0) (4 + g)) (12 + g) (shortConn d k g) :=
  ((publishMeasMask_framed k g _).on_eq (by decide) (counted_oStg _ _ _) (status_notMem_measObjs k g)).trans
    (on_shortMarked_status k g d)

theorem shortLatched_framed (k g : Nat) (d : Dev) : Framed [.stg] ((oStg k 0x105, 0) :: measObjs k g) d (shortLatched k g d) := by
  have hmark : Framed [.stg] ((oStg k 0x105, 0) :: measObjs k g) d (shortMarked k g d) :=
    .put (by decide) (by simp) (.put (by decide) (by simp) (.refl _ _ d))
  exact .stg (by simp) (.atSwap _ (hmark.trans
    ((publishMeasMask_framed k g _).mono (by simp) (fun _ => List.mem_cons_of_mem _)))) _

theorem shortLatched_stage (k g : Nat) (d : Dev) : OneStage k { stgS d k with
    groups := modAt (stgS d k).groups g (GrpS.latched d.startup.t (retryLeft d k g)) } d (shortLatched k g d) :=
  OneStage.modStg k (fun x => { x with groups := modAt x.groups g (GrpS.latched d.startup.t (retryLeft d k g)) }) d |>.keep rfl

end

theorem outShort_completes {s : State} {k g : Nat} (hr : running s.dev = true) (hk : k < 32) (hg : g < 4)
    (hw : (on s.dev (oStg k 0x105) 0).testBit (4 + g) = false)
    (hc : 5 ≤ ((stgS s.dev k).groups.getD g {}).shortCnt ∨ ((stgS s.dev k).groups.getD g {}).allBlocked = true) :
    Completes (.outShort k g) s (fun e => raised e (shortEvent s.dev k g) k = true ∧
      on e (oStg k 0x105) 0 = putBit (setBit (on s.dev (oStg k 0x105) 0) (4 + g)) (12 + g) (shortConn s.dev k g) ∧
      on e (oGrp k g 0) 7 = 0 ∧ on e (oGrp k g 0) 8 = 0 ∧ on e (oGrp k g 0x15) 0 = 0 ∧
      ((stgS e k).groups.getD g {}).retry = retryLeft s.dev k g ∧ (∀ j, j ≠ k → stgS e j = stgS s.dev j) ∧
      Framed [.stg] ((oStg k 0x105, 0) :: measObjs k g) s.dev e) := by
  refine part_completes rfl (by simp [hk, hg])
    ((outShort_latches (d := fresh s) hr hk hg hw hc).trans (latchShort_eq k g (fresh s))) (fun e he => ?_)
  have hall := (raise_follows _ _ _ (shortLatched k g (fresh s))).trans he
  obtain ⟨hstage, hothers⟩ := (shortLatched_stage k g (fresh s)).follow hall
  obtain ⟨hmask, havail, hcap⟩ := on_publishMeasMask_short (shortSet_shortMarked k g (fresh s))
  refine ⟨he.raised _ _ _ (raised_raise _ _ _ _), ?_, ?_, ?_, ?_, ?_, hothers, .of_fresh ((shortLatched_framed k g _).follow hall)⟩
  · rw [hall.on_of_not_counted (by decide) (counted_oStg _ _ _), on_shortLatched_status]
    rfl
  · exact (hall.on_of_not_counted (by decide) (counted_oGrp _ _ _ _)).trans hmask
  · exact (hall.on_of_not_counted (by decide) (counted_oGrp _ _ _ _)).trans havail
  · exact (hall.on_of_not_counted (by decide) (counted_oGrp _ _ _ _)).trans hcap
  · rw [hstage]
    exact congrArg GrpS.retry (group_modAt _ _ _)

/-! ### The one retry of a latch on the stage bus (R200) -/

/-- The retry that waits is used, or given up. -/
def retryTaken (k g : Nat) (d : Dev) : Dev := modGrp k g (fun x => { x with retry := false }) d

/-- The latch is taken off the group, whose retry counts as used. -/
def unlatched (k g : Nat) (d : Dev) : Dev := setStatus (oStg k 0x105) 0 (8 + g) (clrStatus (oStg k 0x105) 0 (4 + g) d)

/-- The latch still stands, and the stage may try again. -/
def mayRetry (d : Dev) (k g : Nat) : Bool :=
  (on d (oStg k 0x105) 0).testBit (4 + g) && !((stgS d k).hold) && !((stgS d k).lost) && !(stageThermal d k)

section

variable {k g : Nat} {d e : Dev}

theorem shortRetry_waits (hr : running d = true) (hk : k < 32) (hg : g < 4) (hw : retryWaits d k g = true) : shortRetry k g d =
    if mayRetry d k g then raise 0x2805 k g (unlatched k g (retryTaken k g d)) else retryTaken k g d :=
  if_pos (by simp [hr, hk, hg, hw])

theorem shortRetry_of_not_waiting (hw : retryWaits d k g = false) : shortRetry k g d = d := if_neg (by simp [hw])

theorem on_unlatched_status (k g : Nat) (d : Dev) : on (unlatched k g d) (oStg k 0x105) 0 =
    setBit (clearBit (on d (oStg k 0x105) 0) (4 + g)) (8 + g) :=
  (on_setStatus_same _ _ _ _).trans (congrArg (setBit · _) (on_clrStatus_same _ _ _ _))

theorem retryTaken_framed (k g : Nat) (ks : List (Nat × Nat)) (d : Dev) : Framed [.stg] ks d (retryTaken k g d) :=
  .stg (by simp) (.refl _ _ d) _

theorem unlatched_framed (k g : Nat) (d : Dev) : Framed [.stg] [(oStg k 0x105, 0)] d (unlatched k g (retryTaken k g d)) :=
  .put (by decide) (by simp) (.put (by decide) (by simp) (retryTaken_framed k g _ d))

/-- No retry of the group waits any more; the other stages stay. -/
theorem no_retry_of_retryTaken (he : e.stg = (retryTaken k g d).stg) :
    ((stgS e k).groups.getD g {}).retry = false ∧ (∀ j, j ≠ k → stgS e j = stgS d j) := by
  obtain ⟨hstage, hothers⟩ := (OneStage.modStg k (fun x => { x with groups := modAt x.groups g (fun y => { y with retry := false }) })
    d).keep he
  refine ⟨?_, hothers⟩
  rw [hstage]
  exact congrArg GrpS.retry (group_modAt _ _ _)

theorem retryUsedClear_clears (hr : running d = true) (hk : k < 32) (hg : g < 4) (hu : (on d (oStg k 0x105) 0).testBit (8 + g) = true)
    (hw : (on d (oStg k 0x105) 0).testBit (4 + g) = false) (hv : 1000000000 ≤ ((stgS d k).groups.getD g {}).vrefNs) :
    retryUsedClear k g d = clrStatus (oStg k 0x105) 0 (8 + g) d := if_pos (by simpa [hr, hk, hg, hu, shortSet, hw] using hv)

end

section

variable {s : State} {k g : Nat} (hr : running s.dev = true) (hk : k < 32) (hg : g < 4)

include hk hg

theorem shortRetry_completes_none (hw : retryWaits s.dev k g = false) : Completes (.shortRetry k g) s (Framed [] [] s.dev) :=
  part_completes rfl (by simp [hk, hg]) (shortRetry_of_not_waiting (d := fresh s) hw)
    (fun _ he => .of_fresh ((Framed.refl _ _ _).follow he))

include hr

theorem shortRetry_completes_go (hw : retryWaits s.dev k g = true) (hgo : mayRetry s.dev k g = true) :
    Completes (.shortRetry k g) s (fun e => raised e 0x2805 k = true ∧
      on e (oStg k 0x105) 0 = setBit (clearBit (on s.dev (oStg k 0x105) 0) (4 + g)) (8 + g) ∧
      (((stgS e k).groups.getD g {}).retry = false ∧ (∀ j, j ≠ k → stgS e j = stgS s.dev j)) ∧
      Framed [.stg] [(oStg k 0x105, 0)] s.dev e) := by
  refine part_completes rfl (by simp [hk, hg])
    ((shortRetry_waits (d := fresh s) hr hk hg hw).trans (if_pos hgo)) (fun e he => ?_)
  have hall := (raise_follows _ _ _ (unlatched k g (retryTaken k g (fresh s)))).trans he
  refine ⟨he.raised _ _ _ (raised_raise _ _ _ _), ?_, no_retry_of_retryTaken (hall.part .stg),
    .of_fresh ((unlatched_framed k g _).follow hall)⟩
  rw [hall.on_of_not_counted (by decide) (counted_oStg _ _ _), on_unlatched_status]
  rfl

theorem shortRetry_completes_stay (hw : retryWaits s.dev k g = true) (hgo : mayRetry s.dev k g = false) :
    Completes (.shortRetry k g) s (fun e =>
      (((stgS e k).groups.getD g {}).retry = false ∧ (∀ j, j ≠ k → stgS e j = stgS s.dev j)) ∧ Framed [.stg] [] s.dev e) :=
  part_completes rfl (by simp [hk, hg])
    ((shortRetry_waits (d := fresh s) hr hk hg hw).trans (if_neg (ne_true_of_eq_false hgo)))
    (fun _ he => ⟨no_retry_of_retryTaken (he.part .stg), .of_fresh ((retryTaken_framed k g _ _).follow he)⟩)

theorem retryUsedClear_completes (hu : (on s.dev (oStg k 0x105) 0).testBit (8 + g) = true)
    (hw : (on s.dev (oStg k 0x105) 0).testBit (4 + g) = false)
    (hv : 1000000000 ≤ ((stgS s.dev k).groups.getD g {}).vrefNs) : Completes (.retryUsedClear k g) s (fun e =>
      on e (oStg k 0x105) 0 = clearBit (on s.dev (oStg k 0x105) 0) (8 + g) ∧ Framed [] [(oStg k 0x105, 0)] s.dev e) := by
  refine part_completes rfl (by simp [hk, hg]) (retryUsedClear_clears (d := fresh s) hr hk hg hu hw hv) (fun e he => ⟨?_, ?_⟩)
  · rw [he.on_of_not_counted (by decide) (counted_oStg _ _ _), on_clrStatus_same, on_fresh]
  · exact .of_fresh (.follow (.put (by decide) (by simp) (.refl _ _ _)) he)

end

/-! ### Stages and shorts together -/

/-- Settles O19: a row whose condition holds makes one marked update of the device (`lostMarked`, `lostEnded`, `shortLatched`,
`unlatched`), whose objects, stages and frame are said once each and then hold after what follows the command. -/
theorem stagesAndShorts : Obligations.StagesAndShorts := by
  unfold Obligations.StagesAndShorts
  refine ⟨fun s k hr hk => ⟨stgLost_completes hr hk, fun hl hs hv hw => ?_, fun hl hs hrole hp => ?_⟩,
    fun s k g hr hk hg => ⟨outShort_completes hr hk hg, ⟨shortRetry_completes_go hr hk hg, shortRetry_completes_stay hr hk hg,
      shortRetry_completes_none hk hg⟩, retryUsedClear_completes hr hk hg⟩⟩
  · exact lostEnd_completes hk (lostEnd_valid (d := fresh s) hr hl hs hv hw)
  · exact lostEnd_completes hk (lostEnd_start (d := fresh s) hr hl hs hrole hp)

end Sys2Proof

/-! Contactors under command (R240, R241): what a run of a sequencer may do to the command of one contactor. -/

namespace Sys2Proof

open Machine

theorem testBit_putBit (n i j : Nat) (v : Bool) : (putBit n i v).testBit j = if i = j then v else n.testBit j := by
  cases v
  · by_cases h : i = j <;> simp [putBit, testBit_clearBit, h]
  · by_cases h : i = j <;> simp [putBit, testBit_setBit, h]

theorem alGet_alSet_other {α : Type} (l : List (Nat × α)) {k j : Nat} (a : α) (h : k ≠ j) :
    alGet (alSet l k a) j = alGet l j := by
  induction l with
  | nil => simp [alSet, alGet, h]
  | cons p l ih =>
    obtain ⟨i, b⟩ := p
    unfold alSet
    split
    · simp [alGet, h]
    · split
      case isTrue hki => subst hki; simp [alGet, h]
      case isFalse =>
        by_cases hij : i = j
        · simp [alGet, hij]
        · simpa [alGet, hij] using ih

/-! ### One command of a node (R241) -/

/-- The command of contactor `b` may change: its feedback agrees with it, or T_OP has passed since it was given. -/
def MayCommand (x : NodeIn) (b : Nat) (q : NSeq) : Prop :=
  (b = 16 ∧ q.cmd.testBit 16 = x.conFb) ∨ (∃ e ∈ x.es, e.k = b ∧ q.cmd.testBit b = e.fb) ∨ x.tOp ≤ tcOf q b

/-- From `q` to `r` contactor `b` keeps its command and the age of it, or its command could change in `q`. -/
def Obeys (x : NodeIn) (b : Nat) (q r : NSeq) : Prop :=
  (r.cmd.testBit b = q.cmd.testBit b ∧ tcOf r b = tcOf q b) ∨ MayCommand x b q

/-- From `q` to `r` no contactor is newly commanded to close. -/
def NoneCloses (q r : NSeq) : Prop := ∀ c, r.cmd.testBit c = true → q.cmd.testBit c = true

section

variable {x : NodeIn} {b : Nat} {q r s : NSeq}

theorem MayCommand.congr (hc : r.cmd.testBit b = q.cmd.testBit b) (ht : tcOf r b = tcOf q b) (h : MayCommand x b r) :
    MayCommand x b q := by
  obtain ⟨rfl, h⟩ | ⟨e, he, hk, h⟩ | h := h
  · exact .inl ⟨rfl, hc ▸ h⟩
  · exact .inr (.inl ⟨e, he, hk, hc ▸ h⟩)
  · exact .inr (.inr (ht ▸ h))

theorem Obeys.refl (x : NodeIn) (b : Nat) (q : NSeq) : Obeys x b q q := .inl ⟨rfl, rfl⟩

theorem Obeys.trans (h : Obeys x b q r) (k : Obeys x b r s) : Obeys x b q s := by
  obtain ⟨hc, ht⟩ | h := h
  · obtain ⟨kc, kt⟩ | k := k
    · exact .inl ⟨kc.trans hc, kt.trans ht⟩
    · exact .inr (k.congr hc ht)
  · exact .inr h

/-- What writes neither commands nor their ages obeys. -/
theorem Obeys.keep (h : Obeys x b q r) (hc : s.cmd = r.cmd) (ht : s.tc = r.tc) : Obeys x b q s :=
  h.trans (.inl ⟨by rw [hc], by rw [tcOf, tcOf, ht]⟩)

theorem NoneCloses.trans (h : NoneCloses q r) (k : NoneCloses r s) : NoneCloses q s := fun c hc => h c (k c hc)

/-! ### What each function of the node sequencer does to the commands -/

theorem nodeCmd_obeys {fb : Bool} {k : Nat} (v : Bool) (h : q.cmd.testBit k = fb → MayCommand x k q) :
    Obeys x b q (nodeCmd x fb k v q) := by
  unfold nodeCmd
  split
  · exact .refl x b q
  · split
    · exact .refl x b q
    case isFalse hwait =>
      by_cases hk : k = b
      · subst hk
        by_cases hfb : q.cmd.testBit k = fb
        · exact .inr (h hfb)
        · exact .inr (.inr (.inr (Nat.not_lt.1 (fun ht => hwait ⟨hfb, ht⟩))))
      · exact .inl ⟨(testBit_putBit _ _ _ _).trans (if_neg hk), congrArg (·.getD 0) (alGet_alSet_other _ _ hk)⟩

theorem nodeCmd_edge_obeys {e : EdgeIn} (he : e ∈ x.es) (v : Bool) (q : NSeq) : Obeys x b q (nodeCmd x e.fb e.k v q) :=
  nodeCmd_obeys v (fun h => .inr (.inl ⟨e, he, rfl, h⟩))

theorem nodeCmd_con_obeys (v : Bool) (q : NSeq) : Obeys x b q (nodeCmd x x.conFb 16 v q) :=
  nodeCmd_obeys v (fun h => .inl ⟨rfl, h⟩)

theorem dropEdges_obeys (q : NSeq) : Obeys x b q (dropEdges x q) :=
  List.foldlRecOn x.es _ (.refl x b q) (fun r h e he => by
    split
    · exact h.trans (nodeCmd_edge_obeys he false r)
    · exact h)

theorem joinEdges_obeys (q : NSeq) : Obeys x b q (joinEdges x q) :=
  List.foldlRecOn x.es _ (.refl x b q) (fun r h e he => by
    split
    · exact h.trans (nodeCmd_edge_obeys he true r)
    · split
      · exact h.keep rfl rfl
      · exact h)

theorem dropConn_obeys (q : NSeq) : Obeys x b q (dropConn x q) := by
  unfold dropConn
  split
  · exact nodeCmd_con_obeys false q
  · exact .refl x b q

/-- The discharge has a contactor of its own. -/
theorem discharge_obeys (hb : b ≠ 17) (q : NSeq) : Obeys x b q (discharge x q) := by
  unfold discharge
  split
  · exact .inl ⟨(testBit_putBit _ _ _ _).trans (if_neg hb.symm), rfl⟩
  · exact .refl x b q

theorem goto_obeys (q : NSeq) (st : Nat) : Obeys x b q (q.goto st) := (Obeys.refl x b q).keep rfl rfl

/-- What a connector opens in STOP. -/
theorem opening_obeys (hb : b ≠ 17) (q : NSeq) : Obeys x b q (discharge x (dropConn x (dropEdges x q))) :=
  ((dropEdges_obeys q).trans (dropConn_obeys _)).trans (discharge_obeys hb _)

theorem stopNode_obeys (hb : b ≠ 17) (q : NSeq) : Obeys x b q (stopNode x q) := (goto_obeys q 5).trans (opening_obeys hb _)

/-- What a connector opens and closes in JOIN, RAISE and DELIVER. -/
theorem joining_obeys (q : NSeq) : Obeys x b q (joinEdges x (dropEdges x q)) := (dropEdges_obeys q).trans (joinEdges_obeys _)

theorem nodeCmd_opens (fb : Bool) (k : Nat) (q : NSeq) : NoneCloses q (nodeCmd x fb k false q) := by
  unfold nodeCmd
  split
  · exact fun _ h => h
  · split
    · exact fun _ h => h
    · intro c hc
      dsimp only at hc
      rw [testBit_putBit] at hc
      split at hc
      · exact absurd hc Bool.false_ne_true
      · exact hc

theorem idleCmds_opens (x : NodeIn) (q : NSeq) : NoneCloses q (idleCmds x q) := by
  have hdisch : NoneCloses q { q with cmd := clearBit q.cmd 17 } := fun c hc => by
    dsimp only at hc
    rw [testBit_clearBit, Bool.and_eq_true] at hc
    exact hc.1
  exact .trans (List.foldlRecOn x.es _ hdisch (fun r h e _ => h.trans (nodeCmd_opens e.fb e.k r))) (nodeCmd_opens _ _ _)

/-! ### What each function of the node sequencer does to the state -/

@[simp] theorem nodeCmd_state (fb : Bool) (k : Nat) (v : Bool) (q : NSeq) : (nodeCmd x fb k v q).state = q.state := by
  unfold nodeCmd
  split
  · rfl
  · split <;> rfl

theorem foldl_state {f : NSeq → EdgeIn → NSeq} (h : ∀ q e, (f q e).state = q.state) (l : List EdgeIn) (q : NSeq) :
    (l.foldl f q).state = q.state :=
  List.foldlRecOn (motive := fun r => r.state = q.state) l f rfl (fun r hr e _ => (h r e).trans hr)

@[simp] theorem dropEdges_state (x : NodeIn) (q : NSeq) : (dropEdges x q).state = q.state :=
  foldl_state (fun r e => by
    split
    · exact nodeCmd_state _ _ _ r
    · rfl) x.es q

@[simp] theorem joinEdges_state (x : NodeIn) (q : NSeq) : (joinEdges x q).state = q.state :=
  foldl_state (fun r e => by
    split
    · exact nodeCmd_state _ _ _ r
    · split <;> rfl) x.es q

@[simp] theorem dropConn_state (x : NodeIn) (q : NSeq) : (dropConn x q).state = q.state := by
  unfold dropConn
  split
  · exact nodeCmd_state _ _ _ q
  · rfl

@[simp] theorem discharge_state (x : NodeIn) (q : NSeq) : (discharge x q).state = q.state := by
  unfold discharge
  split <;> rfl

@[simp] theorem goto_state (q : NSeq) (st : Nat) : (q.goto st).state = st := rfl

@[simp] theorem stopNode_state (x : NodeIn) (q : NSeq) : (stopNode x q).state = 5 := by simp [stopNode]

@[simp] theorem idleCmds_state (x : NodeIn) (q : NSeq) : (idleCmds x q).state = q.state :=
  (nodeCmd_state _ _ _ _).trans (foldl_state (fun r _ => nodeCmd_state _ _ _ r) x.es _)

end

/-! ### One run of a connector (R244) -/

/-- The moves between the states of a connector. -/
inductive ConnMove (x : NodeIn) : Nat → Nat → Prop
  | stay (st : Nat) : ConnMove x st st
  | connect : ConnMove x 0 1
  | join : ConnMove x 1 2
  | raise : ConnMove x 2 3
  | deliver (hq : x.req = 3) (hr : x.ready = true) : ConnMove x 3 4
  | stop (st : Nat) (h1 : 1 ≤ st) (h4 : st ≤ 4) : ConnMove x st 5
  | discharge : ConnMove x 5 6
  | idle : ConnMove x 6 0
  | clear (h : x.clr = true) : ConnMove x 7 0

section

variable {x : NodeIn} {q : NSeq} {st st' : Nat}

theorem ConnMove.kept {s : Nat} (h : s = st) : ConnMove x st s := h ▸ .stay s

theorem ConnMove.le (m : ConnMove x st st') (h : st ≤ 7) : st' ≤ 7 := by cases m <;> omega

theorem ConnMove.fault_stays (m : ConnMove x 7 st') (h : x.clr = false) : st' = 7 := by
  cases m with
  | stay => rfl
  | stop _ _ h4 => omega
  | clear hc => exact absurd hc (ne_true_of_eq_false h)

theorem ConnMove.to_deliver (m : ConnMove x st 4) : st = 4 ∨ (st = 3 ∧ x.ready = true ∧ x.req = 3) := by
  cases m with
  | stay => exact .inl rfl
  | deliver hq hr => exact .inr ⟨rfl, hr, hq⟩

/-- A connector that is to stop, in CONNECT to DELIVER. -/
theorem connRun_of_stop (h1 : 1 ≤ q.state) (h4 : q.state ≤ 4) (h : x.stop = true) : connRun x q = stopNode x q := by
  interval_cases hs : q.state <;> simp only [connRun, hs, h, if_true]

/-- A run of a connector that is idle opens contactors alone. -/
theorem connRun_idle_opens (h : q.state = 0) : NoneCloses q (connRun x q) := by
  have hidle := idleCmds_opens x q
  simp only [connRun, h]
  split
  · split <;> exact hidle
  · exact hidle

theorem connRun_obeys {b : Nat} (hb : b ≠ 17) (h1 : 1 ≤ q.state) (h5 : q.state ≤ 5) : Obeys x b q (connRun x q) := by
  have hstop := stopNode_obeys (x := x) hb q
  have hjoin := joining_obeys (x := x) (b := b) q
  interval_cases hs : q.state <;> simp only [connRun, hs]
  · split
    · exact hstop
    · split
      · exact goto_obeys q 2
      · split
        · exact (Obeys.refl x b q).keep rfl rfl
        · split
          · exact nodeCmd_con_obeys true q
          · exact (Obeys.refl x b q).keep rfl rfl
  · split
    · exact hstop
    · split
      · exact hjoin.trans (goto_obeys _ 3)
      · exact hjoin
  · split
    · exact hstop
    · split
      · exact hjoin.trans (goto_obeys _ 4)
      · exact hjoin
  · split
    · exact hstop
    · exact hjoin
  · split
    · exact (opening_obeys hb q).trans ((goto_obeys _ 6).trans (discharge_obeys hb _))
    · exact opening_obeys hb q

theorem connRun_moves (h7 : q.state ≤ 7) : ConnMove x q.state (connRun x q).state := by
  by_cases hstop : 1 ≤ q.state ∧ q.state ≤ 4 ∧ x.stop = true
  · obtain ⟨h1, h4, hx⟩ := hstop
    rw [connRun_of_stop h1 h4 hx, stopNode_state]
    exact .stop _ h1 h4
  have hgo (h1 : 1 ≤ q.state) (h4 : q.state ≤ 4) : ¬ x.stop = true := fun hx => hstop ⟨h1, h4, hx⟩
  interval_cases hs : q.state <;> simp only [connRun, hs]
  · split
    · split
      · exact .connect
      · exact .kept (by simp [hs])
    · exact .kept (by simp [hs])
  · rw [if_neg (hgo (by decide) (by decide))]
    split
    · exact .join
    · split
      · exact .kept rfl
      · split
        · exact .kept (by simp [hs])
        · exact .kept rfl
  · rw [if_neg (hgo (by decide) (by decide))]
    split
    · exact .raise
    · exact .kept (by simp [hs])
  · rw [if_neg (hgo (by decide) (by decide))]
    split
    case isTrue h => exact .deliver h.1 h.2
    case isFalse => exact .kept (by simp [hs])
  · rw [if_neg (hgo (by decide) (by decide))]
    exact .kept (by simp [hs])
  · split
    · rw [discharge_state]
      exact .discharge
    · exact .kept (by simp [hs])
  · split
    · exact .idle
    · exact .kept (by simp [hs])
  · split
    case isTrue h => exact .clear h
    case isFalse => exact .kept (by simp [hs])

end

/-! ### One run of a node -/

/-- What a run of a node does before its state machine: timers, the request it waits to see gone, feedback, and faults that no
longer hold. -/
def nodeTick (x : NodeIn) (q : NSeq) : NSeq :=
  let fb := maskOf ((x.es.filter (·.fb)).map (·.k)) + 2 ^ 16 * boolNat x.conFb + 2 ^ 17 * boolNat x.disFb
  { q with t := q.t + x.t, tc := q.tc.map (fun p => (p.1, p.2 + x.t)), refuse := 0,
           need0 := q.need0 && (if x.n < 64 then decide (x.req ≠ 0) else tieBuilt x), fb := fb,
           faults := q.faults &&& (q.cmd ^^^ fb), disFail := q.disFail && !x.conFb && q.cmd.testBit 17 }

section

variable {x : NodeIn} {q : NSeq}

theorem nodeRun_of_connector (h : x.n < 64) : nodeRun x q = connRun x (nodeTick x q) := if_pos h

/-- A command grows older by the time of the run. -/
theorem tcOf_nodeTick_le (x : NodeIn) (q : NSeq) (b : Nat) : tcOf (nodeTick x q) b ≤ tcOf q b + x.t := by
  have hmap : alGet (nodeTick x q).tc b = (alGet q.tc b).map (· + x.t) := by
    simp [nodeTick, alGet, List.find?_map, Function.comp_def]
  rw [tcOf, tcOf, hmap]
  cases alGet q.tc b with
  | none => exact Nat.zero_le _
  | some t => exact le_refl _

/-- R241 for a connector in CONNECT to STOP. -/
theorem nodeRun_command {b : Nat} (hn : x.n < 64) (h1 : 1 ≤ q.state) (h5 : q.state ≤ 5) (hb : b ≠ 17)
    (h : (nodeRun x q).cmd.testBit b ≠ q.cmd.testBit b) :
    (b = 16 ∧ q.cmd.testBit 16 = x.conFb) ∨ (∃ e ∈ x.es, e.k = b ∧ q.cmd.testBit b = e.fb) ∨ x.tOp ≤ tcOf q b + x.t := by
  rw [nodeRun_of_connector hn] at h
  obtain ⟨hc, _⟩ | hmay := connRun_obeys (x := x) (q := nodeTick x q) hb h1 h5
  · exact absurd hc h
  · exact hmay.imp_right (Or.imp_right (fun ht => ht.trans (tcOf_nodeTick_le x q b)))

theorem nodeRun_moves (hn : x.n < 64) (h7 : q.state ≤ 7) : ConnMove x q.state (nodeRun x q).state := by
  rw [nodeRun_of_connector hn]
  exact connRun_moves (q := nodeTick x q) h7

theorem nodeRun_idle_opens (hn : x.n < 64) (h : q.state = 0) : NoneCloses q (nodeRun x q) := by
  rw [nodeRun_of_connector hn]
  exact connRun_idle_opens (q := nodeTick x q) h

theorem nodeRun_of_stop (hn : x.n < 64) (h1 : 1 ≤ q.state) (h4 : q.state ≤ 4) (h : x.stop = true) : (nodeRun x q).state = 5 := by
  rw [nodeRun_of_connector hn, connRun_of_stop (q := nodeTick x q) h1 h4 h, stopNode_state]

end

/-! ### One run of a group (R240, R242) -/

/-- From `q` to `r` the output contactor is not commanded open, or the group's current is below 1 %, or it shows open. -/
def OpensLow (x : GrpIn) (q r : GSeq) : Prop := q.close = true → r.close = false → igLow x = true ∨ x.gfb = false

/-- What a run of a group does before its state machine: timers, and the refusal of an assignment that has gone. -/
def groupTick (x : GrpIn) (q : GSeq) : GSeq :=
  { q with t := q.t + x.t, tc := q.tc + x.t, refuse := 0,
           refused := if q.refused = some x.asg ∧ openSt x.asgSt then q.refused else none }

section

variable {x : GrpIn} {q r s : GSeq}

theorem OpensLow.keep (h : r.close = q.close) : OpensLow x q r := fun hq hr => absurd (hq.symm.trans (h.symm.trans hr)) (by decide)

theorem OpensLow.close (h : r.close = true) : OpensLow x q r := fun _ hr => absurd (h.symm.trans hr) (by decide)

theorem OpensLow.low (h : igLow x = true) : OpensLow x q r := fun _ _ => .inl h

theorem OpensLow.trans (h : OpensLow x q r) (k : OpensLow x r s) : OpensLow x q s := fun hq hs => by
  cases hr : r.close with
  | true => exact k hr hs
  | false => exact h hq hr

@[simp] theorem command_close (q : GSeq) (c : Bool) : (q.command c).close = c := by
  unfold GSeq.command
  split
  case isTrue h => exact h
  case isFalse => rfl

@[simp] theorem groupGoto_close (q : GSeq) (st : Nat) : (q.goto st).close = q.close := rfl

theorem groupOpen_opensLow (q : GSeq) : OpensLow x q (groupOpen x q) := by
  unfold groupOpen
  split
  case isTrue h =>
    obtain ⟨hlow, _⟩ | hopen := h
    · exact .low hlow
    · exact fun _ _ => .inr (by simpa using hopen)
  case isFalse => exact .keep rfl

theorem groupHold_of_open (h : q.state = 8 ∨ q.state = 9) : groupHold x q = groupOpen x { q with vset := 0, ieb := 0 } := by
  obtain h | h := h <;> simp only [groupHold, h]

theorem groupHold_close (h8 : q.state ≠ 8) (h9 : q.state ≠ 9) : (groupHold x q).close = q.close := by
  unfold groupHold
  split
  case h_5 => split <;> rfl
  case h_8 h => exact absurd h h8
  case h_9 h => exact absurd h h9
  all_goals rfl

/-- What a state holds: only a group in DOWN's last step or in FAULT opens its contactor there. -/
theorem groupHold_opensLow (q : GSeq) : OpensLow x q (groupHold x q) := by
  by_cases h : q.state = 8 ∨ q.state = 9
  · rw [groupHold_of_open h]
    exact OpensLow.trans (r := { q with vset := 0, ieb := 0 }) (.keep rfl) (groupOpen_opensLow _)
  · exact .keep (groupHold_close (fun h8 => h (.inl h8)) (fun h9 => h (.inr h9)))

/-- A group in its turn opens below 1 % alone. -/
theorem groupTurn_opensLow (h : q.state = 5) : OpensLow x q (groupNext x q) := by
  simp only [groupNext, h]
  split
  · split
    · exact .keep rfl
    · split
      case isTrue hlow => exact .low hlow
      case isFalse => exact .keep rfl
  · split
    · cases hlow : igLow x with
      | true => exact .low hlow
      | false => exact .keep rfl
    · split
      · split
        · exact .keep rfl
        · split
          · exact .keep rfl
          · split
            · exact .close (command_close q true)
            · exact .keep rfl
      · split <;> exact .keep rfl

theorem groupNext_opensLow (h3 : 3 ≤ q.state) (h8 : q.state ≤ 8) : OpensLow x q (groupNext x q) := by
  by_cases hturn : q.state = 5
  · exact groupTurn_opensLow hturn
  interval_cases hs : q.state <;> simp only [groupNext, hs]
  · split
    · exact .keep rfl
    · split <;> exact .keep rfl
  · split
    · exact .keep rfl
    · split <;> exact .keep rfl
  · exact absurd rfl hturn
  · split
    · exact .keep rfl
    · split
      · exact .keep rfl
      · split <;> exact .keep rfl
  · split <;> exact .keep rfl
  · split
    · exact .keep rfl
    case isFalse h => exact fun hq _ => absurd (.inr hq) h

/-- R240 for a group in MATCH to DOWN. -/
theorem groupRun_opensLow (h3 : 3 ≤ q.state) (h8 : q.state ≤ 8) (hl : x.lost = false) : OpensLow x q (groupRun x q) := by
  have hrun : groupRun x q = groupHold x (groupNext x (groupTick x q)) := if_neg (by simp [hl])
  rw [hrun]
  exact (OpensLow.keep (r := groupTick x q) rfl).trans
    ((groupNext_opensLow (q := groupTick x q) h3 h8).trans (groupHold_opensLow _))

/-- A group in FAULT holds its references at 0 until it is cleared. -/
theorem groupRun_fault (h : q.state = 9) (hclr : x.clr = false) :
    groupRun x q = groupOpen x { groupTick x q with vset := 0, ieb := 0 } := by
  have hrun : groupRun x q = groupHold x (groupNext x (groupTick x q)) := if_neg (by simp [h])
  have hnext : groupNext x (groupTick x q) = groupTick x q := by simp [groupNext, groupTick, h, hclr]
  rw [hrun, hnext, groupHold_of_open (q := groupTick x q) (.inr h)]

theorem groupOpen_holds (q : GSeq) :
    (groupOpen x q).state = q.state ∧ (groupOpen x q).vset = q.vset ∧ (groupOpen x q).ieb = q.ieb := by
  unfold groupOpen groupCmd GSeq.command
  split
  · split
    · exact ⟨rfl, rfl, rfl⟩
    · split <;> exact ⟨rfl, rfl, rfl⟩
  · exact ⟨rfl, rfl, rfl⟩

end

/-! ### Sequencers under command -/

/-- Settles O15: a run of a connector is a chain of commands, each of which waits for feedback or T_OP (`Obeys`), between states
that `ConnMove` lists; a group's output contactor opens in the rows that ask for a current below 1 % (`OpensLow`). -/
theorem sequencersObeyFeedback : Obligations.SequencersObeyFeedback := by
  unfold Obligations.SequencersObeyFeedback
  refine ⟨fun x q b hn h1 h5 hb h => nodeRun_command hn h1 h5 hb h, fun x q hn h7 => ?_, fun x q h3 h8 hq hr => ?_,
    fun x q h9 hclr => ?_⟩
  · have hmove := nodeRun_moves hn h7
    exact ⟨hmove.le h7, fun h hclr => (h ▸ hmove).fault_stays hclr, fun h1 h4 hs => nodeRun_of_stop hn h1 h4 hs,
      fun h => nodeRun_idle_opens hn h, fun h => (h ▸ hmove).to_deliver⟩
  · cases hl : x.lost with
    | true => exact .inl rfl
    | false => exact .inr (groupRun_opensLow h3 h8 hl hq hr)
  · obtain ⟨hstate, hvset, hieb⟩ := groupOpen_holds (x := x) { groupTick x q with vset := 0, ieb := 0 }
    rw [groupRun_fault h9 hclr]
    exact ⟨hstate.trans h9, hvset, hieb⟩

end Sys2Proof

/-! Contactor faults, refused closings and failed discharges (R241, R244, R246, R247): each row updates the state machine of the
group or of the node that it names, and raises its event. -/

namespace Sys2Proof

open Machine

/-! ### An update of one state machine -/

/-- The state machine of node `n` becomes `y`, those of the other nodes and of the groups stay. -/
structure OneNode (n : Nat) (y : NSeq) (d e : Dev) : Prop where
  node : nSeq e n = y
  others : ∀ j, j ≠ n → nSeq e j = nSeq d j
  groups : ∀ i j, gSeq e i j = gSeq d i j

section

variable {n : Nat} {y : NSeq} {d e f : Dev}

theorem gSeq_congr (h : e.energy = d.energy) (i j : Nat) : gSeq e i j = gSeq d i j := by rw [gSeq, gSeq, h]

theorem nSeq_congr (h : e.energy = d.energy) (j : Nat) : nSeq e j = nSeq d j := by rw [nSeq, nSeq, h]

theorem nSeq_modGSeq (k g : Nat) (w : GSeq → GSeq) (d : Dev) (j : Nat) : nSeq (modGSeq k g w d) j = nSeq d j := rfl

theorem Framed.energy {ps : List Part} {ks : List (Nat × Nat)} (hp : .energy ∈ ps) (h : Framed ps ks d e) (x : EnergyS) :
    Framed ps ks d { e with energy := x } :=
  h.fields (fun p hq => by cases p <;> first | exact absurd hp hq | rfl | exact fun _ => rfl) rfl

theorem OneNode.modNSeq (n : Nat) (w : NSeq → NSeq) (d : Dev) : OneNode n (w (nSeq d n)) d (modNSeq n w d) :=
  ⟨nSeq_modNSeq_same _ _ _, fun _ h => nSeq_modNSeq_other _ _ _ _ h.symm, fun _ _ => rfl⟩

/-- What comes after the update changes no state machine. -/
theorem OneNode.keep (h : OneNode n y d e) (hf : f.energy = e.energy) : OneNode n y d f :=
  ⟨(nSeq_congr hf n).trans h.node, fun j hj => (nSeq_congr hf j).trans (h.others j hj),
    fun i j => (gSeq_congr hf i j).trans (h.groups i j)⟩

theorem OneNode.follow (h : OneNode n y d e) (he : Follows e f) : OneNode n y d f := h.keep (he.part .energy)

theorem OneNode.of_fresh {s : State} (h : OneNode n y (fresh s) e) : OneNode n y s.dev e := ⟨h.node, h.others, h.groups⟩

theorem modGSeq_framed (k g : Nat) (w : GSeq → GSeq) (d : Dev) : Framed [.energy] [] d (modGSeq k g w d) :=
  .energy (by simp) (.refl _ _ d) _

theorem modNSeq_framed (n : Nat) (w : NSeq → NSeq) (ks : List (Nat × Nat)) (d : Dev) : Framed [.energy] ks d (modNSeq n w d) :=
  .energy (by simp) (.refl _ _ d) _

end

section

variable {c : Instr} {s : State} {named : Bool} {u : Dev → Dev} {code inst data : Nat}

/-- A row that updates one group's state machine and raises an event. -/
theorem group_completes {k g : Nat} {w : GSeq → GSeq} (hc : exec c s = act (onPart named (ifRun u)) s) (hn : named = true)
    (hr : running s.dev = true) (hu : u (fresh s) = raise code inst data (modGSeq k g w (fresh s))) :
    Completes c s (fun e => raised e code inst = true ∧ gSeq e k g = w (gSeq s.dev k g) ∧
      (∀ i j, 4 * i + j ≠ 4 * k + g → gSeq e i j = gSeq s.dev i j) ∧ (∀ j, nSeq e j = nSeq s.dev j) ∧
      Framed [.energy] [] s.dev e) := by
  refine partRun_completes hc hn hr hu (fun e he => ?_)
  have hall := (raise_follows code inst data (modGSeq k g w (fresh s))).trans he
  have henergy : e.energy = (modGSeq k g w (fresh s)).energy := hall.part .energy
  refine ⟨he.raised _ _ _ (raised_raise _ _ _ _), ?_, fun i j hij => ?_, fun j => ?_,
    .of_fresh ((modGSeq_framed k g w _).follow hall)⟩
  · exact (gSeq_congr henergy k g).trans (gSeq_modGSeq_same _ _ _ _)
  · exact (gSeq_congr henergy i j).trans (getD_modAt_other _ _ _ _ hij.symm)
  · exact (nSeq_congr henergy j).trans (nSeq_modGSeq k g w (fresh s) j)

/-- A row that updates one node's state machine and raises an event. -/
theorem node_completes {n : Nat} {w : NSeq → NSeq} (hc : exec c s = act (onPart named (ifRun u)) s) (hn : named = true)
    (hr : running s.dev = true) (hu : u (fresh s) = raise code inst data (modNSeq n w (fresh s))) :
    Completes c s (fun e => raised e code inst = true ∧ OneNode n (w (nSeq s.dev n)) s.dev e ∧ Framed [.energy] [] s.dev e) := by
  refine partRun_completes hc hn hr hu (fun e he => ?_)
  have hall := (raise_follows code inst data (modNSeq n w (fresh s))).trans he
  exact ⟨he.raised _ _ _ (raised_raise _ _ _ _), ((OneNode.modNSeq n w (fresh s)).follow hall).of_fresh,
    .of_fresh ((modNSeq_framed n w [] _).follow hall)⟩

end

/-! ### A contactor in fault (R241) -/

/-- A group whose contactor is in fault: no command, no reference. -/
def Machine.GSeq.faulted (q : GSeq) : GSeq := { (q.command false).goto 9 with vset := 0, ieb := 0 }

/-- A node in FAULT, by a fault of its own or by an earlier one. -/
def Machine.NSeq.inFault (x : NSeq) : NSeq := if x.state = 7 then x else x.goto 7

/-- Contactor `c` of a node is in fault: its command is withdrawn. -/
def Machine.NSeq.ctcFaulted (c : Nat) (x : NSeq) : NSeq :=
  { x.inFault with cmd := clearBit x.cmd c, faults := setBit x.faults c }

/-- A group whose assignment is refused. -/
def refusedGroup (asg : Nat) (q : GSeq) : GSeq := { q.idle with refused := some asg, refuse := 0 }

/-- A node that stops because a closing stays refused. -/
def refusedNode (x : NSeq) : NSeq := { x.goto 5 with need0 := true }

section

variable {d : Dev} {n k g c : Nat}

/-- A contactor number of DATA that names the output contactor of a group. -/
theorem groupCtc_range (hk : k < 32) (hg : g < 4) : 0x80 ≤ 0x80 + 4 * k + g ∧ 0x80 + 4 * k + g < 0x100 := by omega

theorem groupCtc_stage (hg : g < 4) : (0x80 + 4 * k + g - 0x80) / 4 = k := by omega

theorem groupCtc_group (hg : g < 4) : (0x80 + 4 * k + g - 0x80) % 4 = g := by omega

theorem ctcFault_group (hr : running d = true) (hk : k < 32) (hg : g < 4) (hfb : (gSeq d k g).close ≠ gfbOf d k g)
    (hst : (gSeq d k g).state ≠ 9) : ctcFault n (0x80 + 4 * k + g) d =
      raise 0x2C06 k (0x80 + 4 * k + g + 256 * boolNat (gfbOf d k g)) (modGSeq k g GSeq.faulted d) := by
  unfold ctcFault
  rw [if_neg (by simp [hr]), if_pos (groupCtc_range hk hg)]
  simp only [groupCtc_stage hg, groupCtc_group hg]
  exact if_neg (not_or.2 ⟨hfb, hst⟩)

theorem ctcFault_node (hr : running d = true) (hn : n < 68) (hc : c ≤ 16) (hf : (nSeq d n).faults.testBit c = false)
    (hfb : (nSeq d n).cmd.testBit c ≠ (nSeq d n).fb.testBit c) : ctcFault n c d =
      raise 0x3401 n (c + 256 * boolNat ((nSeq d n).fb.testBit c)) (modNSeq n (NSeq.ctcFaulted c) d) := by
  unfold ctcFault
  rw [if_neg (by simp [hr]), if_neg (by omega)]
  exact if_pos ⟨hn, hc, by simp [hf], hfb⟩

/-! ### A closing that stays refused, and a discharge that fails (R244, R246, R247) -/

theorem closeRefused_group (hr : running d = true) (hk : k < 32) (hg : g < 4) (hq : (gSeq d k g).refuse ≠ 0)
    (hst : (gSeq d k g).state = 1) : closeRefused n (0x80 + 4 * k + g) d =
      raise 0x3201 n (0x80 + 4 * k + g + 256 * (gSeq d k g).refuse) (modGSeq k g (refusedGroup (on d (oGrp k g 0x16) 0)) d) := by
  unfold closeRefused
  rw [if_neg (by simp [hr]), if_pos (groupCtc_range hk hg)]
  simp only [groupCtc_stage hg, groupCtc_group hg]
  rw [if_neg hq]
  exact if_pos hst

/-- A node that stops because a closing stays refused shows the reason. -/
def nodeRefused (n : Nat) (d : Dev) : Dev := put (nodeSeqO n) 2 (nSeq d n).refuse (modNSeq n refusedNode d)

theorem nodeRefused_node (n : Nat) (d : Dev) : OneNode n (refusedNode (nSeq d n)) d (nodeRefused n d) :=
  (OneNode.modNSeq n refusedNode d).keep rfl

theorem nodeRefused_framed (n : Nat) (d : Dev) : Framed [.energy] [(nodeSeqO n, 2)] d (nodeRefused n d) :=
  .put (by decide) (by simp) (modNSeq_framed n refusedNode _ d)

theorem closeRefused_node (hr : running d = true) (hn : n < 68) (hc : c ≤ 16) (hq : (nSeq d n).refuse ≠ 0)
    (h1 : 1 ≤ (nSeq d n).state) (h3 : (nSeq d n).state ≤ 3) : closeRefused n c d =
      raise 0x3201 n (c + 256 * (nSeq d n).refuse) (nodeRefused n d) := by
  unfold closeRefused
  rw [if_neg (by simp [hr]), if_neg (by omega)]
  exact if_pos ⟨hn, hq, h1, h3⟩

theorem counted_nodeSeqO (hn : n < 68) (sub : Nat) : counted (nodeSeqO n) sub = false := by
  unfold nodeSeqO
  split
  · exact counted_oCon _ _ _
  · exact counted_of_lt _ (by omega)

/-- The value of DISCH_FAIL: the section's voltage as the dispenser reports it. -/
def dischVolt (d : Dev) (c : Nat) : Nat := match connDisp d c with | some (di, i) => dispField d di 0x201 i | none => 0

theorem dischFail_fails (hr : running d = true) (hn : n < 64)
    (hst : (nSeq d n).state = 5 ∨ (nSeq d n).state = 6 ∨ (nSeq d n).state = 7) (hf : (nSeq d n).disFail = false)
    (hfb : (nSeq d n).fb.testBit 16 = false) (hcmd : (nSeq d n).cmd.testBit 17 = true)
    (hv : oq d (nodeCfg n) 6 ≤ vConnQ d n) : dischFail n d =
      raise 0x3402 n (dischVolt d n) (modNSeq n (fun x => { x.inFault with disFail := true }) d) :=
  if_pos (by simpa [hr, hn, hf, hfb, hcmd, hv, or_assoc] using hst)

end

theorem closeRefused_node_completes {s : State} {n c : Nat} (hr : running s.dev = true) (hn : n < 68) (hc : c ≤ 16)
    (hq : (nSeq s.dev n).refuse ≠ 0) (h1 : 1 ≤ (nSeq s.dev n).state) (h3 : (nSeq s.dev n).state ≤ 3) :
    Completes (.closeRefused n c) s (fun e => raised e 0x3201 n = true ∧ on e (nodeSeqO n) 2 = (nSeq s.dev n).refuse ∧
      OneNode n (refusedNode (nSeq s.dev n)) s.dev e ∧ Framed [.energy] [(nodeSeqO n, 2)] s.dev e) := by
  refine partRun_completes rfl (by simp; omega) hr (closeRefused_node (d := fresh s) hr hn hc hq h1 h3) (fun e he => ?_)
  have hall := (raise_follows 0x3201 n _ (nodeRefused n (fresh s))).trans he
  refine ⟨he.raised _ _ _ (raised_raise _ _ _ _), ?_, ((nodeRefused_node n (fresh s)).follow hall).of_fresh,
    .of_fresh ((nodeRefused_framed n _).follow hall)⟩
  rw [hall.on_of_not_counted (by decide) (counted_nodeSeqO hn 2)]
  exact on_put_same _ _ _ _

/-! ### Lines and busbars that have bled (R233) -/

/-- A voltage that is 0 from now on, as its object shows it and as its slot has output it in this micro-frame. -/
def voltZeroed (num sub : Nat) (d : Dev) : Dev :=
  put num sub 0 { d with sched := { d.sched with
    outs := d.sched.outs.map (fun o => if o.key = okey num sub then { o with val := .num 0 } else o) } }

section

variable {slot : Option Nat} {w : List Int → List Int} {num sub i : Nat} {st : List Int} {d : Dev}

theorem voltZeroed_framed (hs : sub < 256) (d : Dev) : Framed [.sched] [(num, sub)] d (voltZeroed num sub d) :=
  .put hs (by simp) (.sched (by simp) (.refl _ _ d) _)

theorem zeroVolt_of_state (hi : slot = some i) (h : alGet d.sched.kst i = some st) : zeroVolt slot w num sub d =
    { voltZeroed num sub d with sched := { (voltZeroed num sub d).sched with kst := alSet d.sched.kst i (w st) } } := by
  subst hi
  change (match alGet d.sched.kst i with | some st => _ | none => _) = _
  rw [h]
  rfl

theorem zeroVolt_of_stateless (h : ∀ i st, slot = some i → alGet d.sched.kst i ≠ some st) :
    zeroVolt slot w num sub d = voltZeroed num sub d := by
  cases hs : slot with
  | none => rfl
  | some i =>
    have hk : alGet d.sched.kst i = none := Option.eq_none_iff_forall_ne_some.2 (fun st => h i st hs)
    change (match alGet d.sched.kst i with | some st => _ | none => _) = _
    rw [hk]
    rfl

theorem zeroVolt_framed (slot : Option Nat) (w : List Int → List Int) (hs : sub < 256) (d : Dev) :
    Framed [.sched] [(num, sub)] d (zeroVolt slot w num sub d) := by
  by_cases h : ∃ i st, slot = some i ∧ alGet d.sched.kst i = some st
  · obtain ⟨i, st, hi, hst⟩ := h
    rw [zeroVolt_of_state hi hst]
    exact .sched (by simp) (voltZeroed_framed hs d) _
  · rw [zeroVolt_of_stateless (fun i st hi hst => h ⟨i, st, hi, hst⟩)]
    exact voltZeroed_framed hs d

theorem on_zeroVolt (slot : Option Nat) (w : List Int → List Int) (num sub : Nat) (d : Dev) :
    on (zeroVolt slot w num sub d) num sub = 0 := by
  by_cases h : ∃ i st, slot = some i ∧ alGet d.sched.kst i = some st
  · obtain ⟨i, st, hi, hst⟩ := h
    rw [zeroVolt_of_state hi hst]
    exact on_put_same _ _ _ _
  · rw [zeroVolt_of_stateless (fun i st hi hst => h ⟨i, st, hi, hst⟩)]
    exact on_put_same _ _ _ _

theorem kst_zeroVolt (hi : slot = some i) (h : alGet d.sched.kst i = some st) :
    alGet (zeroVolt slot w num sub d).sched.kst i = some (w st) := by
  rw [zeroVolt_of_state hi h]
  exact alGet_alSet_same _ _ _

theorem bleedBus_zeroes {k g : Nat} (hr : running d = true) (hk : k < 32) (hg : g < 4) (hfb : gfbOf d k g = false)
    (hj : busJoin d 64 k g = none) : bleedLine (.bus k g) d =
      zeroVolt ((img? d).bind (fun im => seqIndex im k)) (fun st => setAt st (g + 1) 1) (oGrp k g 0x19) 2 d :=
  if_pos (by simp [hr, hk, hg, hfb, hj])

theorem bleedNode_zeroes {n : Nat} (hr : running d = true) (hn : n < 68) (hj : lineJoined d 64 n = false) :
    bleedLine (.node n) d = zeroVolt ((img? d).bind (fun im => ebIndex im n)) (fun _ => [2]) (nodeEb n) 5 d :=
  if_pos (by simp [hr, hn, hj])

theorem bleedNode_of_joined {n : Nat} (hj : lineJoined d 64 n = true) : bleedLine (.node n) d = d := if_neg (by simp [hj])

theorem counted_nodeEb {n : Nat} (hn : n < 68) (sub : Nat) : counted (nodeEb n) sub = false := by
  unfold nodeEb
  split
  · exact counted_oCon _ _ _
  · exact counted_of_lt _ (by omega)

end

/-- The bleed of a line or a busbar whose voltage becomes 0. -/
theorem bleed_completes {s : State} {line : BleedLine} {slot : Option Nat} {w : List Int → List Int} {num sub : Nat}
    (hr : running s.dev = true) (hu : bleedLine line (fresh s) = zeroVolt slot w num sub (fresh s)) (hs : sub < 256)
    (hc : counted num sub = false) : Completes (.bleedTimeExpiry line) s (fun e => on e num sub = 0 ∧
      (∀ i st, slot = some i → alGet s.dev.sched.kst i = some st → alGet e.sched.kst i = some (w st)) ∧
      Framed [.sched] [(num, sub)] s.dev e) := by
  refine act_completes rfl (fun e he => ?_)
  rw [show ifRun (bleedLine line) (fresh s) = _ from (if_pos hr).trans hu] at he
  have hsched : e.sched = (zeroVolt slot w num sub (fresh s)).sched := he.part .sched
  refine ⟨?_, fun i st hi hst => ?_, .of_fresh ((zeroVolt_framed slot w hs _).follow he)⟩
  · rw [he.on_of_not_counted hs hc, on_zeroVolt]
  · rw [hsched]
    exact kst_zeroVolt (d := fresh s) hi hst

theorem bleedNode_completes_joined {s : State} {n : Nat} (hr : running s.dev = true) (hj : lineJoined s.dev 64 n = true) :
    Completes (.bleedTimeExpiry (.node n)) s (Framed [] [] s.dev) := by
  refine act_completes rfl (fun e he => ?_)
  rw [show ifRun (bleedLine (.node n)) (fresh s) = _ from (if_pos hr).trans (bleedNode_of_joined (d := fresh s) hj)] at he
  exact .fresh_follows he _ _

/-! ### Contactors and bleeds together -/

/-- Settles O20: each row acts on the one state machine that it names (`group_completes`, `node_completes`); a bleed that has
ended makes one voltage 0, in its object and in the state of its slot (`bleed_completes`). -/
theorem contactorsAndBleeds : Obligations.ContactorsAndBleeds := by
  unfold Obligations.ContactorsAndBleeds
  intro s n k g hr hn hk hg
  have hnamed : decide (n < 0x200) = true := decide_eq_true (by omega)
  refine ⟨fun hfb hst => group_completes rfl hnamed hr (ctcFault_group (d := fresh s) hr hk hg hfb hst), fun c hc hf hfb => ?_,
    fun hq hst => group_completes rfl hnamed hr (closeRefused_group (d := fresh s) hr hk hg hq hst), fun c hc hq h1 h3 => ?_,
    fun hcon hst hf hfb hcmd hv => ?_, fun hfb hj => ?_, fun hj => ?_, fun hj => bleedNode_completes_joined hr hj⟩
  · refine (node_completes rfl hnamed hr (ctcFault_node (d := fresh s) hr hn hc hf hfb)).mono (fun e he => ?_)
    obtain ⟨hev, ⟨hnode, hothers, hgroups⟩, hparts, hobjs, hpend⟩ := he
    exact ⟨hev, hobjs, hnode, hothers, hgroups, hparts, hpend⟩
  · refine (closeRefused_node_completes hr hn hc hq h1 h3).mono (fun e he => ?_)
    obtain ⟨hev, hwhy, ⟨hnode, hothers, hgroups⟩, hparts, hobjs, hpend⟩ := he
    exact ⟨hev, hwhy, ⟨hnode, hothers, hgroups, hparts, hpend⟩, hobjs⟩
  · refine (node_completes rfl (decide_eq_true hcon) hr
      (dischFail_fails (d := fresh s) hr hcon hst hf hfb hcmd hv)).mono (fun e he => ?_)
    obtain ⟨hev, ⟨hnode, hothers, hgroups⟩, hparts, hobjs, hpend⟩ := he
    exact ⟨hev, ⟨hnode, hothers, hgroups, hparts, hpend⟩, hobjs⟩
  · refine (bleed_completes hr (bleedBus_zeroes (d := fresh s) hr hk hg hfb hj) (by decide)
      (counted_oGrp _ _ _ _)).mono (fun e he => ?_)
    obtain ⟨hvolt, hstate, hframe⟩ := he
    exact ⟨hvolt, fun im i st him hi h => hstate i st (Option.bind_eq_some_iff.2 ⟨im, him, hi⟩) h, hframe⟩
  · refine (bleed_completes hr (bleedNode_zeroes (d := fresh s) hr hn hj) (by decide)
      (counted_nodeEb hn 5)).mono (fun e he => ?_)
    obtain ⟨hvolt, hstate, hframe⟩ := he
    exact ⟨hvolt, fun im i st him hi h => hstate i st (Option.bind_eq_some_iff.2 ⟨im, him, hi⟩) h, hframe⟩

end Sys2Proof

/-! THERM3 (R253, R254, R256, R260): the level of a sensor by the thresholds at or below its reading, the latch, and the limit. -/

namespace Sys2Proof

open Machine

/-! ### The level of a sensor (R253) -/

/-- The threshold of a level: WARN, THROTTLE, SHUTDOWN. -/
def Machine.ThLim.threshold (c : ThLim) (k : Nat) : Int := if k = 1 then c.w else if k = 2 then c.t else c.s

section

variable {c : ThLim} {x : Int} {k old : Nat}

theorem thUp_le_three (c : ThLim) (x : Int) : thUp c x ≤ 3 := by
  unfold thUp
  split_ifs <;> decide

/-- A level whose threshold is reached is not above the level of the reading, in whatever order the thresholds stand. -/
theorem le_thUp (h1 : 1 ≤ k) (h3 : k ≤ 3) (h : c.threshold k ≤ x) : k ≤ thUp c x := by
  obtain rfl | rfl | rfl : k = 1 ∨ k = 2 ∨ k = 3 := by omega
  all_goals
    simp only [ThLim.threshold, thUp] at h ⊢
    split_ifs <;> simp_all

theorem threshold_thUp_le (h : 0 < thUp c x) : c.threshold (thUp c x) ≤ x := by
  unfold thUp at h ⊢
  split_ifs at h ⊢
  case pos hs => exact hs
  case pos ht => exact ht
  case pos hw => exact hw
  case neg => exact absurd h (lt_irrefl 0)

theorem lt_threshold_succ_thUp (h : thUp c x < 3) : x < c.threshold (thUp c x + 1) :=
  lt_of_not_ge (fun hr => absurd (le_thUp (Nat.le_add_left 1 _) h hr) (Nat.not_succ_le_self _))

/-- To fall, a reading is graded as if it were higher by HYST. -/
theorem thDn_eq (c : ThLim) (x : Int) : thDn c x = thUp c (x + c.h) := by
  simp only [thDn, thUp, ge_iff_le, sub_le_iff_le_add]

theorem thLevel_of_higher (h : old < thUp c x) : thLevel c x old = thUp c x := if_pos h

theorem thLevel_of_not_higher (h : thUp c x ≤ old) : thLevel c x old = min old (thUp c (x + c.h)) := by
  rw [← thDn_eq]
  exact if_neg (Nat.not_lt.2 h)

theorem thLevel_le_three (h : old ≤ 3) : thLevel c x old ≤ 3 := by
  unfold thLevel
  split
  · exact thUp_le_three c x
  · exact (min_le_left _ _).trans h

/-- The level rises as soon as the reading reaches a higher threshold. -/
theorem le_thLevel (hh : 0 ≤ c.h) (h1 : 1 ≤ k) (h3 : k ≤ 3) (h : c.threshold k ≤ x) : k ≤ thLevel c x old := by
  have hup : k ≤ thUp c x := le_thUp h1 h3 h
  rcases lt_or_ge old (thUp c x) with hr | hr
  · rwa [thLevel_of_higher hr]
  · rw [thLevel_of_not_higher hr]
    exact le_min (hup.trans hr) (le_thUp h1 h3 (by omega))

theorem threshold_le_of_lt_thLevel (h : old < thLevel c x old) : c.threshold (thLevel c x old) ≤ x := by
  rcases lt_or_ge old (thUp c x) with hr | hr
  · rw [thLevel_of_higher hr]
    exact threshold_thUp_le (Nat.zero_lt_of_lt hr)
  · rw [thLevel_of_not_higher hr] at h
    exact absurd h (Nat.not_lt.2 (min_le_left _ _))

/-- The level falls only when the reading is below the next threshold by more than HYST. -/
theorem lt_of_thLevel_lt (hold : old ≤ 3) (h : thLevel c x old < old) : x < c.threshold (thLevel c x old + 1) - c.h := by
  rcases lt_or_ge old (thUp c x) with hr | hr
  · rw [thLevel_of_higher hr] at h
    exact absurd h (Nat.not_lt.2 hr.le)
  · rw [thLevel_of_not_higher hr] at h ⊢
    have hmin : min old (thUp c (x + c.h)) = thUp c (x + c.h) := min_eq_right (by omega)
    rw [hmin] at h ⊢
    exact lt_sub_iff_add_lt.2 (lt_threshold_succ_thUp (h.trans_le hold))

end

/-! ### The latch and the limit (R256, R260) -/

/-- A sensor without a fault reads SHUTDOWN or more. -/
def shutsDown (c : ThLim) (ss : List ThSens) : Bool := ss.any (fun y => !y.fault && decide (thUp c y.x = 3))

/-- The regime of a run that leaves the latch off: 2 holds the limit down, 1 keeps it, 0 lets it up. -/
def freeRegime (c : ThLim) (ss : List ThSens) : Nat :=
  if (ss.map (thNew c)).foldl max 0 = 2 ∧ ss.any (fun y => y.fault || decide (thUp c y.x ≥ 2)) then 2
  else if (ss.map (thNew c)).foldl max 0 = 2 then 1 else 0

/-- The limit of a run in a regime that leaves the latch off. -/
def freeLimit (step r floor reg : Nat) (q : ThReg) : Nat :=
  if reg = 2 ∧ (q.reg1 ≠ 2 ∨ r ≤ q.t) then max floor (q.lim - step)
  else if reg = 0 ∧ r ≤ q.t ∧ q.lim < 100 then min 100 (q.lim + step) else q.lim

section

variable {c : ThLim} {x : Int} {step r floor reg : Nat} {due : Bool} {ss : List ThSens} {q : ThReg}

theorem thUp_eq_three_iff : thUp c x = 3 ↔ c.s ≤ x := by
  refine ⟨fun h => ?_, fun h => (thUp_le_three c x).antisymm (le_thUp (k := 3) (by decide) le_rfl h)⟩
  have hr := threshold_thUp_le (h ▸ Nat.succ_pos 2 : 0 < thUp c x)
  rwa [h] at hr

theorem shutsDown_iff : shutsDown c ss = true ↔ ∃ y, y ∈ ss ∧ y.fault = false ∧ c.s ≤ y.x := by
  simp [shutsDown, thUp_eq_three_iff]

theorem thermStep_lvls : (thermStep c step r floor due ss q).lvls = ss.map (thNew c) := rfl

theorem thermStep_cleared :
    (thermStep c step r floor due ss q).cleared = (due && (q.latch || shutsDown c ss) && !shutsDown c ss) := rfl

theorem thermStep_latch : (thermStep c step r floor due ss q).reg.latch =
    ((q.latch || shutsDown c ss) && !(thermStep c step r floor due ss q).cleared) := rfl

theorem thermStep_t_le : (thermStep c step r floor due ss q).reg.t ≤ r := min_le_right _ _

/-- While the latch is on, the limit is 0. -/
theorem thermStep_of_latched (h : (thermStep c step r floor due ss q).reg.latch = true) :
    (thermStep c step r floor due ss q).reg.reg1 = 3 ∧ (thermStep c step r floor due ss q).reg.lim = 0 := by
  rw [thermStep_latch, thermStep_cleared] at h
  unfold shutsDown at h
  constructor <;> simp only [thermStep, h, if_true]

theorem thermStep_of_shutsDown (h : shutsDown c ss = true) : (thermStep c step r floor due ss q).reg.latch = true ∧
    (thermStep c step r floor due ss q).cleared = false := by
  simp [thermStep_latch, thermStep_cleared, h]

/-- Without a clear the latch stays. -/
theorem thermStep_of_not_due (hq : q.latch = true) (hd : due = false) :
    (thermStep c step r floor due ss q).reg.latch = true := by
  simp [thermStep_latch, thermStep_cleared, hq, hd]

/-- A clear that finds no sensor at SHUTDOWN takes the latch off. -/
theorem thermStep_of_due (hq : q.latch = true) (hd : due = true) (hs : shutsDown c ss = false) :
    (thermStep c step r floor due ss q).reg.latch = false ∧ (thermStep c step r floor due ss q).cleared = true := by
  simp [thermStep_latch, thermStep_cleared, hq, hd, hs]

theorem thermStep_of_free (hq : q.latch = false) (hs : shutsDown c ss = false) :
    (thermStep c step r floor due ss q).reg.latch = false ∧
      (thermStep c step r floor due ss q).reg.reg1 = freeRegime c ss ∧
      (thermStep c step r floor due ss q).reg.lim = freeLimit step r floor (freeRegime c ss) q := by
  have hlatch : (thermStep c step r floor due ss q).reg.latch = false := by simp [thermStep_latch, hq, hs]
  have hreg : freeRegime c ss ≠ 3 := by
    unfold freeRegime
    split_ifs <;> decide
  unfold shutsDown at hs
  refine ⟨hlatch, ?_, ?_⟩
  · simp [thermStep, hq, hs, freeRegime]
  · rw [freeLimit]
    unfold freeRegime at hreg ⊢
    simp only [thermStep, hq, hs, Bool.or_self, Bool.and_false, Bool.false_and, Bool.false_eq_true, if_false, ge_iff_le] at hreg ⊢
    rw [if_neg hreg, apply_ite Prod.fst, apply_ite Prod.fst]

theorem freeLimit_bounded (hf : floor ≤ q.lim) (hl : q.lim ≤ 100) :
    floor ≤ freeLimit step r floor reg q ∧ freeLimit step r floor reg q ≤ 100 := by
  unfold freeLimit
  split_ifs <;> omega

theorem freeLimit_keeps : freeLimit step r floor 1 q = q.lim := by simp [freeLimit]

/-- The limit goes down by STEP at once as the regime begins. -/
theorem freeLimit_lowers (h : q.reg1 ≠ 2) : freeLimit step r floor 2 q = max floor (q.lim - step) := by simp [freeLimit, h]

theorem freeLimit_raises (ht : r ≤ q.t) (hl : q.lim ≤ 100) : freeLimit step r floor 0 q = min 100 (q.lim + step) := by
  simp only [freeLimit, OfNat.zero_ne_ofNat, false_and, if_false, ht, true_and]
  split_ifs <;> omega

theorem thermStep_level {j : Nat} {y : ThSens} (h : ss[j]? = some y) :
    (thermStep c step r floor due ss q).lvls[j]? = some (thNew c y) := by
  rw [thermStep_lvls, List.getElem?_map, h, Option.map_some]

theorem thNew_of_fault {y : ThSens} (h : y.fault = true) : thNew c y = 2 := if_pos h

theorem thNew_of_sound {y : ThSens} (h : y.fault = false) : thNew c y = thLevel c y.x y.old := if_neg (ne_true_of_eq_false h)

end

/-- Settles O14: a level by the highest threshold that the reading, or the reading raised by HYST, reaches; the latch and the limit
by whether the latch is on after the run (`thermStep_of_latched`, `thermStep_of_free`). -/
theorem thermalKernel : Obligations.ThermalKernel := by
  unfold Obligations.ThermalKernel
  intro c step r floor due ss q hh
  refine ⟨List.length_map _, thermStep_t_le, fun j y hj => ⟨fun hf => ?_, fun hf hold => ?_⟩, fun hs => ?_, fun hq hd => ?_,
    fun hq hd hs => thermStep_of_due hq hd (eq_false_of_ne_true (mt shutsDown_iff.1 hs)), fun hq hs hlo hhi => ?_⟩
  · rw [thermStep_level hj, thNew_of_fault hf]
  · exact ⟨thLevel c y.x y.old, (thermStep_level hj).trans (congrArg some (thNew_of_sound hf)), thLevel_le_three hold,
      fun _ h1 h3 => le_thLevel hh h1 h3, threshold_le_of_lt_thLevel, lt_of_thLevel_lt hold⟩
  · obtain ⟨hlatch, hclear⟩ := thermStep_of_shutsDown (shutsDown_iff.2 hs)
    obtain ⟨hreg, hlim⟩ := thermStep_of_latched hlatch
    exact ⟨hlatch, hlim, hreg, hclear⟩
  · have hlatch : (thermStep c step r floor due ss q).reg.latch = true := thermStep_of_not_due hq hd
    exact ⟨hlatch, (thermStep_of_latched hlatch).2⟩
  · obtain ⟨hlatch, hreg, hlim⟩ := thermStep_of_free hq (eq_false_of_ne_true (mt shutsDown_iff.1 hs))
    rw [hreg, hlim]
    obtain ⟨hfloor, htop⟩ := freeLimit_bounded hlo hhi
    refine ⟨hlatch, hfloor, htop, fun h => ?_, fun h hnew => ?_, fun h ht => ?_⟩
    · rw [h, freeLimit_keeps]
    · rw [h, freeLimit_lowers hnew]
    · rw [h, freeLimit_raises ht hhi]

end Sys2Proof

/-! Coolant that does not flow (R254): both coolant sensors of its connector become faulted. -/

namespace Sys2Proof

open Machine

/-! ### The fault mask of a connector -/

/-- The device with the coolant of a connector marked as not flowing. -/
def flowFaulted (c : Nat) (d : Dev) : Dev := { d with therm := { d.therm with flowFault := c :: d.therm.flowFault } }

/-- The flow that COOL_FLOW_LOW reports. -/
def coolFlow (c : Nat) (d : Dev) : Nat := match connDisp d c with | some (di, i) => dispField d di 0x213 i | none => 0

section

variable {c m b : Nat} {d e : Dev}

/-- Both coolant sensors of a connector without flow are faulted, whether its dispenser still reports or not. -/
theorem testBit_conFaultMask_coolant (hc : (connDisp d c).isSome = true) (hf : c ∈ d.therm.flowFault) :
    (conFaultMask d c).testBit 4 = true ∧ (conFaultMask d c).testBit 5 = true := by
  obtain ⟨⟨di, i⟩, hd⟩ := Option.isSome_iff_exists.1 hc
  simp only [conFaultMask, hd, List.contains_iff_mem.2 hf, Bool.or_true, if_true]
  split
  · decide
  · simp only [Nat.testBit_or]
    exact ⟨Bool.or_true _, Bool.or_true _⟩

/-! ### A fault mask put into force -/

/-- All that comes on top of the mask's value are events. -/
theorem putFault_follows (c m : Nat) (d : Dev) : Follows (put (oCon c 0x42) 0 m d) (putFault false c m d) :=
  forEach_follows _ _ (fun b => raise_follows 0x3403 c b) _

theorem on_putFault (c m : Nat) (d : Dev) : on (putFault false c m d) (oCon c 0x42) 0 = m :=
  ((putFault_follows c m d).on_of_not_counted (by decide) (counted_oCon _ _ _)).trans (on_put_same _ _ _ _)

theorem putFault_framed (c m : Nat) (d : Dev) : Framed [] [(oCon c 0x42, 0)] d (putFault false c m d) :=
  (Framed.put (by decide) (by simp) (.refl _ _ d)).follow (putFault_follows c m d)

theorem raised_forEach_raise {code inst : Nat} {l : List Nat} (h : l ≠ []) (d : Dev) :
    raised (forEach l (fun b => raise code inst b) d) code inst = true := by
  obtain ⟨b, l, rfl⟩ := List.exists_cons_of_ne_nil h
  exact (forEach_follows l _ (fun b => raise_follows code inst b) _).raised _ _ _ (raised_raise code inst b d)

/-- A supervised sensor that the mask adds raises its event. -/
theorem raised_putFault (hb : b < 8) (hnew : m.testBit b = true) (hold : (on d (oCon c 0x42) 0).testBit b = false)
    (hsup : (supervised d false c).testBit b = true) : raised (putFault false c m d) 0x3403 c = true := by
  refine raised_forEach_raise (List.ne_nil_of_mem (a := b) (mem_bitsSet.2 ⟨hb, ?_⟩)) _
  rw [Nat.testBit_and, testBit_clearMask]
  simp [hnew, hold, hsup]

/-! ### COOL_FLOW_LOW -/

theorem Framed.therm {ps : List Part} {ks : List (Nat × Nat)} (hp : .therm ∈ ps) (h : Framed ps ks d e) (x : ThermS) :
    Framed ps ks d { e with therm := x } :=
  h.fields (fun p hq => by cases p <;> first | exact absurd hp hq | rfl | exact fun _ => rfl) rfl

/-- The flow condition enters the state, and COOL_FLOW_LOW is raised. -/
def flowRaised (c : Nat) (d : Dev) : Dev := raise 0x3204 c (coolFlow c d) (flowFaulted c d)

theorem flowRaised_framed (c : Nat) (ks : List (Nat × Nat)) (d : Dev) : Framed [.therm] ks d (flowRaised c d) :=
  .raise (.therm (by simp) (.refl _ _ d) _)

theorem coolFlowLow_faults (hr : running d = true) (hl : 3 ≤ (alGet d.therm.flowLow c).getD 0) (hf : c ∉ d.therm.flowFault) :
    coolFlowLow c d = putFault false c (conFaultMask (flowFaulted c d) c) (flowRaised c d) :=
  if_pos (by simp [hr, hl, hf])

end

/-- Settles O21: the flow condition enters the state and its event is raised (`flowRaised`); the mask that is then put into force is
that of the state with the condition, so it names both coolant sensors. -/
theorem coolantFlowFault : Obligations.CoolantFlowFault := by
  unfold Obligations.CoolantFlowFault
  intro s c hr hc hlow hf
  refine part_completes rfl (decide_eq_true hc) (coolFlowLow_faults (d := fresh s) hr hlow hf) (fun e he => ?_)
  have hput := (putFault_follows c (conFaultMask (flowFaulted c (fresh s)) c) (flowRaised c (fresh s))).trans he
  have htherm : e.therm = { s.dev.therm with flowFault := c :: s.dev.therm.flowFault } := hput.part .therm
  have hmask : on e (oCon c 0x42) 0 = conFaultMask (flowFaulted c (fresh s)) c :=
    (he.on_of_not_counted (by decide) (counted_oCon _ _ _)).trans (on_putFault _ _ _)
  refine ⟨?_, htherm, ?_, fun hcon => ?_, fun b hb hnew hold hsup => he.raised _ _ _ ?_, ?_⟩
  · exact hput.raised _ _ _ ((raised_congr rfl _ _ _).trans (raised_raise _ _ _ _))
  · rw [hmask, htherm]
    rfl
  · rw [hmask]
    exact testBit_conFaultMask_coolant (d := flowFaulted c (fresh s)) hcon List.mem_cons_self
  · refine raised_putFault (by omega) (hmask ▸ hnew) ?_ hsup
    rwa [(flowRaised_framed c [] (fresh s)).on_eq (by decide) (counted_oCon _ _ _) List.not_mem_nil]
  · exact .of_fresh (((flowRaised_framed c _ _).trans ((putFault_framed c _ _).mono (by simp) (fun _ h => h))).follow he)

end Sys2Proof

/-! A counterexample to O22: a state whose list of load channels goes on past L31. The end of an inrush window goes through the channels
L0 to L31 (R278), so an entry behind them still names the window as one that its delay waits for. The statement says of every entry,
not of L0 to L31 alone, that it no longer does. -/

namespace Sys2Proof

open Machine

namespace ChannelPastL31

/-- A unit that runs. L0 is inside its inrush window, and the entry behind L31 waits for the end of that window. -/
def start : State :=
  { State.reset with dev := { State.reset.dev with
      phase := .running
      lch := { State.reset.dev.lch with ch := { inrush := true } :: List.replicate 31 {} ++ [{ waitFor := [0] }] } } }

/-- The window is open, as the clause wants it. -/
theorem in_window : running start.dev = true ∧ (lch start.dev 0).inrush = true := by decide +kernel

/-- The device after the end of the window. -/
def after : Dev := settle (onPart (decide (0 < 32)) (inrushEnd 0 false) (fresh start))

theorem exec_inrushWindowEnd : exec (.inrushWindowEnd 0 false) start = .next { start with dev := after } := rfl

theorem still_waits : (lch after 32).waitFor = [0] := by decide +kernel

end ChannelPastL31

/-- Refutes O22: the end of an inrush window reaches no entry behind L31 (`ChannelPastL31.still_waits`). -/
theorem not_loadChannelEvents : ¬ Obligations.LoadChannelEvents := by
  intro h
  obtain ⟨hruns, hopen⟩ := ChannelPastL31.in_window
  obtain ⟨_, _, _, _, _, _, _, hend⟩ := h.2 ChannelPastL31.start 0 hruns (by decide)
  obtain ⟨_, hchans, _⟩ := (hend hopen).of_exec ChannelPastL31.exec_inrushWindowEnd
  have hwait := (hchans 32).2
  rw [ChannelPastL31.still_waits] at hwait
  exact absurd hwait (by decide +kernel)

end Sys2Proof

/-! Switching load channels (R272, R275, R278): what an update of the channels leaves alone, and what switching one off or on does to
it and to the others. -/

namespace Sys2Proof

open Machine

section

variable {ps : List Part} {ks : List (Nat × Nat)} {d e f : Dev}

theorem Framed.lch (hp : .lch ∈ ps) (h : Framed ps ks d e) (x : LchsS) : Framed ps ks d { e with lch := x } :=
  h.fields (fun p hq => by cases p <;> first | exact absurd hp hq | rfl | exact fun _ => rfl) rfl

theorem lch_congr (h : e.lch = d.lch) (n : Nat) : lch e n = lch d n := by rw [lch, lch, h]

/-! ### Updates of the channels alone -/

/-- Nothing but the channels of the load die differs; their supply is as it was. -/
def OnlyChannels (d e : Dev) : Prop := ∃ ch, e = { d with lch := { d.lch with ch := ch } }

namespace OnlyChannels

theorem refl (d : Dev) : OnlyChannels d d := ⟨d.lch.ch, rfl⟩

theorem trans (h : OnlyChannels d e) (k : OnlyChannels e f) : OnlyChannels d f := by
  obtain ⟨_, rfl⟩ := h
  obtain ⟨ch, rfl⟩ := k
  exact ⟨ch, rfl⟩

theorem modLch (n : Nat) (w : LchS → LchS) (d : Dev) : OnlyChannels d (modLch n w d) := ⟨_, rfl⟩

theorem forEach {l : List Nat} {u : Nat → Dev → Dev} (hu : ∀ n x, OnlyChannels x (u n x)) (d : Dev) :
    OnlyChannels d (forEach l u d) :=
  forEach_keeps (fun n _ x hx => hx.trans (hu n x)) (.refl d)

theorem framed (h : OnlyChannels d e) : Framed [.lch] [] d e := by
  obtain ⟨ch, rfl⟩ := h
  exact .lch (by simp) (.refl _ _ d) _

theorem supply (h : OnlyChannels d e) : e.lch.supply = d.lch.supply ∧ e.lch.vload = d.lch.vload := by
  obtain ⟨ch, rfl⟩ := h
  exact ⟨rfl, rfl⟩

theorem unfitted (h : OnlyChannels d e) : e.lch.unfitted = d.lch.unfitted := by
  obtain ⟨ch, rfl⟩ := h
  rfl

theorem cmdOn (h : OnlyChannels d e) (n : Nat) : cmdOn e n = cmdOn d n := by
  obtain ⟨ch, rfl⟩ := h
  rfl

end OnlyChannels

end

section

variable {n k : Nat} {d : Dev}

/-! ### Switching off -/

/-- A channel but for the delay of its waiting retry (R278). -/
def Machine.LchS.exceptDelay (x : LchS) : LchS := { x with waitFor := [], due := 0 }

theorem on_of_exceptDelay {x y : LchS} (h : x.exceptDelay = y.exceptDelay) : x.on = y.on :=
  show x.exceptDelay.on = y.exceptDelay.on from congrArg LchS.on h

theorem inrush_of_exceptDelay {x y : LchS} (h : x.exceptDelay = y.exceptDelay) : x.inrush = y.inrush :=
  show x.exceptDelay.inrush = y.exceptDelay.inrush from congrArg LchS.inrush h

theorem exceptDelay_modLch {w : LchS → LchS} (hw : ∀ x, (w x).exceptDelay = x.exceptDelay) (m k : Nat) (d : Dev) :
    (lch (modLch m w d) k).exceptDelay = (lch d k).exceptDelay := by
  by_cases h : m = k
  · rw [h, lch_modLch_same, hw]
  · rw [lch_modLch_other _ _ _ _ h]

/-- The end of a window moves the delays of other channels, and nothing else of them. -/
theorem exceptDelay_closeWindow (n k : Nat) (d : Dev) : (lch (closeWindow n d) k).exceptDelay =
    (lch (modLch n (fun x => { x with inrush := false }) d) k).exceptDelay := by
  unfold closeWindow
  generalize modLch n (fun x => { x with inrush := false }) d = d
  refine forEach_keeps (P := fun x => (lch x k).exceptDelay = (lch d k).exceptDelay) (fun m _ x hx => ?_) rfl
  dsimp only
  split
  · exact hx
  · exact (exceptDelay_modLch (by exact fun _ => rfl) m k x).trans hx

theorem closeWindow_onlyChannels (n : Nat) (d : Dev) : OnlyChannels d (closeWindow n d) := by
  refine (OnlyChannels.modLch n _ d).trans (.forEach (fun m x => ?_) _)
  dsimp only
  split
  · exact .refl x
  · exact .modLch m _ x

theorem switchOff_onlyChannels (n : Nat) (d : Dev) : OnlyChannels d (switchOff n d) :=
  (OnlyChannels.modLch n _ d).trans (closeWindow_onlyChannels n _)

theorem exceptDelay_switchOff_same (n : Nat) (d : Dev) : (lch (switchOff n d) n).exceptDelay =
    { lch d n with on := false, inrush := false, flags := clearBit (lch d n).flags 1 }.exceptDelay := by
  rw [switchOff, exceptDelay_closeWindow, lch_modLch_same, lch_modLch_same]

theorem exceptDelay_switchOff_other (h : n ≠ k) : (lch (switchOff n d) k).exceptDelay = (lch d k).exceptDelay := by
  rw [switchOff, exceptDelay_closeWindow, lch_modLch_other _ _ _ _ h, lch_modLch_other _ _ _ _ h]

theorem switchOff_off (n : Nat) (d : Dev) : (lch (switchOff n d) n).on = false ∧ (lch (switchOff n d) n).inrush = false :=
  have h := exceptDelay_switchOff_same n d
  ⟨on_of_exceptDelay h, inrush_of_exceptDelay h⟩

/-! ### Switching on -/

theorem switchOn_onlyChannels (window : Bool) (n : Nat) (d : Dev) : OnlyChannels d (switchOn window n d) := .modLch n _ d

theorem lch_switchOn_other (window : Bool) (h : n ≠ k) : lch (switchOn window n d) k = lch d k := lch_modLch_other _ _ _ _ h

theorem switchOn_on (window : Bool) (n : Nat) (d : Dev) : (lch (switchOn window n d) n).on = true :=
  congrArg LchS.on (lch_modLch_same d n _)

end

end Sys2Proof

/-! The supply groups of the load channels (R272, R283, R565): the channels of a group take their turns, each on its own. -/

namespace Sys2Proof

open Machine

section

variable {g n mv : Nat} {d e f : Dev}

theorem mem_groupChans : n ∈ groupChans g ↔ n / 8 = g := by
  simp only [groupChans, List.mem_map, List.mem_range]
  constructor
  · rintro ⟨i, hi, rfl⟩
    omega
  · exact fun h => ⟨n % 8, by omega, by omega⟩

/-- A channel of another group has no turn. -/
theorem ne_of_mem_groupChans {a : Nat} (ha : a ∈ groupChans g) (h : n / 8 ≠ g) : a ≠ n :=
  fun e => h (mem_groupChans.1 (e ▸ ha))

theorem groupChans_nodup (g : Nat) : (groupChans g).Nodup := List.nodup_range.map (fun _ _ h => by simpa using h)

/-- The supply of a group as measured: its state and its VLOAD. -/
def supplied (g state mv : Nat) (d : Dev) : Dev :=
  { d with lch := { d.lch with supply := setAt d.lch.supply g state, vload := setAt d.lch.vload g mv } }

theorem supplied_supply (g state mv : Nat) (d : Dev) : (supplied g state mv d).lch.supply.getD g 0 = state ∧
    (supplied g state mv d).lch.vload.getD g 0 = mv := ⟨getD_modAt_same _ _ _, getD_modAt_same _ _ _⟩

/-- What changes only channels after the measurement leaves the supply as measured, and so does what follows the command. -/
theorem OnlyChannels.follow_supplied {state : Nat} (h : OnlyChannels (supplied g state mv d) e) (he : Follows e f) :
    f.lch.supply.getD g 0 = state ∧ f.lch.vload.getD g 0 = mv ∧ Framed [.lch] [] d f := by
  obtain ⟨hs, hv⟩ := h.supply
  have hlch : f.lch = e.lch := he.part .lch
  rw [hlch, hs, hv]
  exact ⟨(supplied_supply g state mv d).1, (supplied_supply g state mv d).2,
    .follow (.trans (.lch (by simp) (.refl _ _ d) _) h.framed) he⟩

/-! ### The supply is lost -/

/-- A channel that conducts is switched off. -/
def offIfOn (n : Nat) (d : Dev) : Dev := if (lch d n).on then switchOff n d else d

def groupOff (g : Nat) (d : Dev) : Dev := forEach (groupChans g) offIfOn d

theorem offIfOn_onlyChannels (n : Nat) (d : Dev) : OnlyChannels d (offIfOn n d) := by
  unfold offIfOn
  split
  · exact switchOff_onlyChannels n d
  · exact .refl d

theorem exceptDelay_offIfOn_other {k : Nat} (h : n ≠ k) : (lch (offIfOn n d) k).exceptDelay = (lch d k).exceptDelay := by
  unfold offIfOn
  split
  · exact exceptDelay_switchOff_other h
  · rfl

theorem offIfOn_off (n : Nat) (d : Dev) : (lch (offIfOn n d) n).on = false ∧
    ((lch (offIfOn n d) n).inrush = false ∨ (lch d n).on = false) := by
  unfold offIfOn
  split
  · exact ⟨(switchOff_off n d).1, .inl (switchOff_off n d).2⟩
  case isFalse h => exact ⟨by simpa using h, .inr (by simpa using h)⟩

theorem groupOff_onlyChannels (g : Nat) (d : Dev) : OnlyChannels d (groupOff g d) := .forEach offIfOn_onlyChannels d

/-- A channel of the group is off, and its window, if it conducted, has ended. -/
theorem groupOff_off (h : n / 8 = g) : (lch (groupOff g d) n).on = false ∧
    ((lch (groupOff g d) n).inrush = false ∨ (lch d n).on = false) := by
  refine forEach_turn (P := fun x => (lch x n).on = (lch d n).on)
    (Q := fun x => (lch x n).on = false ∧ ((lch x n).inrush = false ∨ (lch d n).on = false))
    (groupChans_nodup g) (mem_groupChans.2 h) (fun a _ ha x hx => ?_) (fun a _ ha x hx => ?_) (fun x hx => ?_) rfl
  · exact (on_of_exceptDelay (exceptDelay_offIfOn_other ha)).trans hx
  · have hon := on_of_exceptDelay (exceptDelay_offIfOn_other (d := x) ha)
    have hinrush := inrush_of_exceptDelay (exceptDelay_offIfOn_other (d := x) ha)
    exact ⟨hon.trans hx.1, hx.2.imp_left hinrush.trans⟩
  · exact hx ▸ offIfOn_off n x

/-- A channel of another group conducts as before. -/
theorem groupOff_other (h : n / 8 ≠ g) : (lch (groupOff g d) n).on = (lch d n).on := by
  refine forEach_keeps (P := fun x => (lch x n).on = (lch d n).on) (fun a ha x hx => ?_) rfl
  exact (on_of_exceptDelay (exceptDelay_offIfOn_other (ne_of_mem_groupChans ha h))).trans hx

/-- LCH_VLOAD, except for a group that is unfitted (R565). -/
def vloadEvent (g mv : Nat) (d : Dev) : Dev := (if d.lch.unfitted.contains g then id else raise 0x7A03 g mv) d

theorem vloadEvent_follows (g mv : Nat) (d : Dev) : Follows d (vloadEvent g mv d) := by
  unfold vloadEvent
  split
  · exact .refl d
  · exact raise_follows _ _ _ d

theorem raised_vloadEvent (g mv : Nat) (d : Dev) : raised (vloadEvent g mv d) 0x7A03 g = true ∨ g ∈ d.lch.unfitted := by
  unfold vloadEvent
  split
  case isTrue h => exact .inr (List.contains_iff_mem.1 h)
  · exact .inl (raised_raise _ _ _ d)

theorem lchVload_out (hr : running d = true) (hg : g < 4) (hv : mv < 14500 ∨ 38000 < mv) :
    lchVload g mv d = vloadEvent g mv (groupOff g (supplied g (if mv < 14500 then 1 else 2) mv d)) := by
  rw [vloadEvent, (groupOff_onlyChannels g _).unfitted]
  exact if_pos (by simp [loadLive, hr, hg, hv])

theorem lchVload_inRange (hl : 14500 ≤ mv) (hh : mv ≤ 38000) : lchVload g mv d = d :=
  if_neg (by simp [Nat.not_lt.2 hl, Nat.not_lt.2 hh])

/-! ### The supply is back -/

/-- A channel that comes on with the supply: commanded on, off, and held off by nothing of its own. -/
def returnsOn (d : Dev) (n : Nat) : Bool :=
  cmdOn d n && !((lch d n).on) && !((lch d n).locked) && !((lch d n).latch) && !((lch d n).wait)

def onIfReturns (n : Nat) (d : Dev) : Dev := if returnsOn d n then switchOn true n d else d

def groupOn (g : Nat) (d : Dev) : Dev := forEach (groupChans g) onIfReturns d

theorem onIfReturns_onlyChannels (n : Nat) (d : Dev) : OnlyChannels d (onIfReturns n d) := by
  unfold onIfReturns
  split
  · exact switchOn_onlyChannels true n d
  · exact .refl d

theorem lch_onIfReturns_other {k : Nat} (h : n ≠ k) : lch (onIfReturns n d) k = lch d k := by
  unfold onIfReturns
  split
  · exact lch_switchOn_other true h
  · rfl

theorem onIfReturns_on (n : Nat) (d : Dev) : (lch (onIfReturns n d) n).on = ((lch d n).on || returnsOn d n) := by
  unfold onIfReturns
  split
  case isTrue h => rw [switchOn_on, h, Bool.or_true]
  case isFalse h => rw [eq_false_of_ne_true h, Bool.or_false]

theorem groupOn_onlyChannels (g : Nat) (d : Dev) : OnlyChannels d (groupOn g d) := .forEach onIfReturns_onlyChannels d

theorem returnsOn_congr (h : OnlyChannels d e) (hn : lch e n = lch d n) : returnsOn e n = returnsOn d n := by
  rw [returnsOn, returnsOn, h.cmdOn, hn]

/-- A channel of the group conducts if it did, or if it comes on with the supply. -/
theorem groupOn_on (h : n / 8 = g) : (lch (groupOn g d) n).on = ((lch d n).on || returnsOn d n) := by
  refine forEach_turn (P := fun x => OnlyChannels d x ∧ lch x n = lch d n)
    (Q := fun x => (lch x n).on = ((lch d n).on || returnsOn d n))
    (groupChans_nodup g) (mem_groupChans.2 h) (fun a _ ha x hx => ?_) (fun a _ ha x hx => ?_) (fun x hx => ?_) ⟨.refl d, rfl⟩
  · exact ⟨hx.1.trans (onIfReturns_onlyChannels a x), (lch_onIfReturns_other ha).trans hx.2⟩
  · rwa [lch_onIfReturns_other ha]
  · rw [onIfReturns_on, returnsOn_congr hx.1 hx.2, hx.2]

/-- A channel of another group is as it was. -/
theorem groupOn_other (h : n / 8 ≠ g) : lch (groupOn g d) n = lch d n := by
  exact forEach_keeps (P := fun x => lch x n = lch d n)
    (fun a ha x hx => (lch_onIfReturns_other (ne_of_mem_groupChans ha h)).trans hx) rfl

theorem on_or_returnsOn : ((lch d n).on || returnsOn d n) = true ↔ (lch d n).on = true ∨
    (cmdOn d n = true ∧ (lch d n).locked = false ∧ (lch d n).latch = false ∧ (lch d n).wait = false) := by
  unfold returnsOn
  cases (lch d n).on <;> simp [and_assoc]

theorem vloadReturn_back (hr : running d = true) (hg : g < 4) (hl : 15500 ≤ mv) (hh : mv ≤ 37000)
    (hs : d.lch.supply.getD g 0 ≠ 0) : vloadReturn g mv d = groupOn g (supplied g 0 mv d) :=
  if_pos (by simpa [loadLive, hr, hg, hl, hh] using hs)

theorem vloadReturn_stays (h : mv < 15500 ∨ 37000 < mv ∨ d.lch.supply.getD g 0 = 0) : vloadReturn g mv d = d := by
  refine if_neg (fun hc => ?_)
  simp only [Bool.and_eq_true, decide_eq_true_eq] at hc
  omega

end

/-! ### The two commands -/

section

variable {s : State} {g mv : Nat} (hr : running s.dev = true) (hg : g < 4)

include hr hg

theorem lchVload_completes (hv : mv < 14500 ∨ 38000 < mv) : Completes (.lchVload g mv) s (fun e =>
    (raised e 0x7A03 g = true ∨ g ∈ s.dev.lch.unfitted) ∧ e.lch.supply.getD g 0 = (if mv < 14500 then 1 else 2) ∧
      e.lch.vload.getD g 0 = mv ∧ (∀ n, n / 8 = g → (lch e n).inrush = false ∨ (lch s.dev n).on = false) ∧
      (∀ n, n / 8 = g → (lch e n).on = false) ∧ (∀ n, n / 8 ≠ g → (lch e n).on = (lch s.dev n).on) ∧ Framed [.lch] [] s.dev e) := by
  refine part_completes rfl (by simp [hg]) (lchVload_out (d := fresh s) hr hg hv) (fun e he => ?_)
  have hoff := groupOff_onlyChannels g (supplied g (if mv < 14500 then 1 else 2) mv (fresh s))
  have hall := (vloadEvent_follows g mv _).trans he
  obtain ⟨hsupply, hvload, hframed⟩ := hoff.follow_supplied hall
  refine ⟨?_, hsupply, hvload, fun n hn => ?_, fun n hn => ?_, fun n hn => ?_, .of_fresh hframed⟩
  · exact (raised_vloadEvent g mv _).imp (he.raised _ _ _) (fun h => hoff.unfitted ▸ h)
  · rw [lch_congr (hall.part .lch)]
    exact (groupOff_off hn).2
  · rw [lch_congr (hall.part .lch)]
    exact (groupOff_off hn).1
  · rw [lch_congr (hall.part .lch)]
    exact groupOff_other hn

theorem vloadReturn_completes (hl : 15500 ≤ mv) (hh : mv ≤ 37000) (hs : s.dev.lch.supply.getD g 0 ≠ 0) :
    Completes (.vloadReturn g mv) s (fun e => e.lch.supply.getD g 0 = 0 ∧ e.lch.vload.getD g 0 = mv ∧
      (∀ n, n / 8 = g → ((lch e n).on = true ↔ (lch s.dev n).on = true ∨
        (cmdOn s.dev n = true ∧ (lch s.dev n).locked = false ∧ (lch s.dev n).latch = false ∧ (lch s.dev n).wait = false))) ∧
      (∀ n, n / 8 ≠ g → lch e n = lch s.dev n) ∧ Framed [.lch] [] s.dev e) := by
  refine part_completes rfl (by simp [hg]) (vloadReturn_back (d := fresh s) hr hg hl hh hs) (fun e he => ?_)
  obtain ⟨hsupply, hvload, hframed⟩ := (groupOn_onlyChannels g (supplied g 0 mv (fresh s))).follow_supplied he
  refine ⟨hsupply, hvload, fun n hn => ?_, fun n hn => ?_, .of_fresh hframed⟩
  · rw [lch_congr (he.part .lch), groupOn_on hn]
    exact on_or_returnsOn
  · rw [lch_congr (he.part .lch)]
    exact groupOn_other hn

end

/-- Settles O23: the channels of the group switch in turn (`groupOff`, `groupOn`), none of them disturbs another, and the other groups
are no part of it. -/
theorem supplyGroups : Obligations.SupplyGroups := by
  unfold Obligations.SupplyGroups
  refine fun s g mv hr hg => ⟨lchVload_completes hr hg, fun hl hh => ?_, fun h => ?_, vloadReturn_completes hr hg⟩
  · exact part_completes rfl (by simp [hg]) (lchVload_inRange (d := fresh s) hl hh)
      (fun _ he => .of_fresh ((Framed.refl _ _ _).follow he))
  · exact part_completes rfl (by simp [hg]) (vloadReturn_stays (d := fresh s) h)
      (fun _ he => .of_fresh ((Framed.refl _ _ _).follow he))

end Sys2Proof

/-! Counterexamples to O34 and O35. A context in PARAMETERS, in which a pre-charge request still waits for its response. A station-side
end puts its notice into the next response (R300), and that is the one to the pre-charge request that waits: the response to the
vehicle's present message carries none. The statements want the notice in the latter, and exclude no context with a request that waits. -/

namespace Sys2Proof

open Machine

/-- A unit that waits for no partner has sent its answer (R303). -/
theorem told_alone {e : Dev} {c msg : Nat} {args : List Nat} (h : waitsForPartner e = false) :
    told e c msg args ↔ .vehicle c msg args ∈ e.sent := by simp [told, h]

namespace PrechargeWaits

/-- An image whose dispenser 0 has connectors 0 and 1. -/
def image : Image :=
  { micro := 4, flags := 0, cells := 1, sequence := 1, siteId := 0, lanes := [], stages := [], disps := [{ count := 2 }], dir := [],
    slots := [], binds := [], digest := [], ofsSlots := 0, ofsBinds := 0 }

/-- A single unit that runs. Context 0 serves connector 1, whose insulation has failed; its session is in PARAMETERS, and a pre-charge
request waits in it. -/
def start : State :=
  { State.reset with dev := put (oSes 0 0) 0 4 (put (oSes 0 1) 0 1 (put (oCon 1 0x51) 0 0 (put 0x3209 1 16 { State.reset.dev with
      phase := .running
      sched := { image := some image }
      lanes := { State.reset.dev.lanes with recs := [{}, { curIso := 3 }] }
      pair := { State.reset.dev.pair with role := .single }
      ses := { State.reset.dev.ses with ctx := [{ pcPending := true }] } }))) }

theorem serves : Serves start.dev 1 0 := by
  unfold Serves
  and_intros <;> decide +kernel

theorem in_parameters : sesState start.dev 0 = 4 := by decide +kernel

theorem insulation_failed : isoState start.dev 1 = 3 := by decide +kernel

/-- A contract is admitted under ISO 15118-20 only. -/
theorem contract_refused : authAllowed start.dev 0 1 true = false := by decide +kernel

/-- The device after the authorization that is refused. -/
def afterAuth : Dev := settle (onPart (decide (1 < 64)) (authorization 1 true [] []) (fresh start))

/-- The device after the cable check. -/
def afterCable : Dev := settle (onPart (decide (1 < 64)) (cableCheck 1) (fresh start))

theorem exec_authorization : exec (.authorization 1 true [] []) start = .next { start with dev := afterAuth } := rfl

theorem exec_cableCheck : exec (.cableCheck 1) start = .next { start with dev := afterCable } := rfl

/-- The notice, 3, goes with the response to the pre-charge request; the authorization meets a bare refusal. -/
theorem sent_afterAuth : afterAuth.sent = [.vehicle 1 mAuth [2], .vehicle 1 mPrecharge [0, 2, 3]] := by decide +kernel

/-- The notice, 2, goes with the response to the pre-charge request; the one to the cable check carries none. -/
theorem sent_afterCable : afterCable.sent = [.vehicle 1 mCable [0], .vehicle 1 mPrecharge [0, 2, 2]] := by decide +kernel

theorem alone_afterAuth : waitsForPartner afterAuth = false := by decide +kernel

theorem alone_afterCable : waitsForPartner afterCable = false := by decide +kernel

end PrechargeWaits

/-- Refutes O34: where a pre-charge request waits, the refusal of an authorization tells no notice (`PrechargeWaits.sent_afterAuth`). -/
theorem not_sessionsOpen : ¬ Obligations.SessionsOpen := by
  intro h
  obtain ⟨_, hauth, _⟩ := h.2 PrechargeWaits.start 1 0 PrechargeWaits.serves
  obtain ⟨hrefused, _⟩ := hauth true [] [] (.inr PrechargeWaits.in_parameters)
  obtain ⟨_, htold, _⟩ := (hrefused PrechargeWaits.contract_refused).of_exec PrechargeWaits.exec_authorization
  rw [told_alone PrechargeWaits.alone_afterAuth, PrechargeWaits.sent_afterAuth] at htold
  exact absurd htold (by decide)

/-- Refutes O35: where a pre-charge request waits, the cable check that ends the session tells no notice
(`PrechargeWaits.sent_afterCable`). -/
theorem not_sessionCharges : ¬ Obligations.SessionCharges := by
  intro h
  obtain ⟨_, _, _, _, hfault, _⟩ := h PrechargeWaits.start 1 0 PrechargeWaits.serves
  have hrun := hfault (.inl PrechargeWaits.in_parameters) PrechargeWaits.insulation_failed
  obtain ⟨_, htold, _⟩ := hrun.of_exec PrechargeWaits.exec_cableCheck
  rw [told_alone PrechargeWaits.alone_afterCable, PrechargeWaits.sent_afterCable] at htold
  exact absurd htold (by decide)

end Sys2Proof

/-! What the updates of a session context write: its objects and those of its connector that a change of state moves (R294, R295), with
the counts of sessions and of records that wait; and that whatever was raised before stays raised. -/

namespace Sys2Proof

open Machine

/-- A frame in which what was raised stays raised. -/
structure Contained (ps : List Part) (ks : List (Nat × Nat)) (d e : Dev) : Prop where
  framed : Framed ps ks d e
  raised : ∀ code inst ended, raised d code inst ended = true → raised e code inst ended = true

namespace Contained

variable {ps qs : List Part} {ks ls : List (Nat × Nat)} {d e f : Dev}

theorem refl (ps : List Part) (ks : List (Nat × Nat)) (d : Dev) : Contained ps ks d d := ⟨.refl _ _ d, fun _ _ _ h => h⟩

theorem trans (h : Contained ps ks d e) (k : Contained ps ks e f) : Contained ps ks d f :=
  ⟨h.framed.trans k.framed, fun c i b hr => k.raised c i b (h.raised c i b hr)⟩

theorem mono (h : Contained ps ks d e) (hp : ∀ p ∈ ps, p ∈ qs) (hk : ∀ k ∈ ks, k ∈ ls) : Contained qs ls d e :=
  ⟨h.framed.mono hp hk, h.raised⟩

theorem ite {c : Prop} [Decidable c] (h : Contained ps ks d e) (k : Contained ps ks d f) : Contained ps ks d (if c then e else f) := by
  split
  · exact h
  · exact k

/-- What follows a command, and whatever does no more than that. -/
theorem of_follows (h : Follows d e) : Contained ps ks d e := ⟨h.framed, h.raised⟩

/-- An update that raises nothing. -/
theorem of_ev (h : Framed ps ks d e) (hv : e.ev = d.ev) : Contained ps ks d e :=
  ⟨h, fun c i b hr => (raised_congr hv c i b).trans hr⟩

theorem put {num sub n : Nat} (hs : sub < 256) (hk : (num, sub) ∈ ks) (h : Contained ps ks d e) : Contained ps ks d (put num sub n e) :=
  h.trans (.of_ev (.put hs hk (.refl _ _ e)) rfl)

theorem raise {code inst data : Nat} (h : Contained ps ks d e) : Contained ps ks d (raise code inst data e) :=
  h.trans (.of_follows (raise_follows code inst data e))

end Contained

theorem Framed.ses {ps : List Part} {ks : List (Nat × Nat)} {d e : Dev} (hp : .ses ∈ ps) (h : Framed ps ks d e) (x : SesS) :
    Framed ps ks d { e with ses := x } :=
  h.fields (fun p hq => by cases p <;> first | exact absurd hp hq | rfl | exact fun _ => rfl) rfl

theorem Contained.ses {ps : List Part} {ks : List (Nat × Nat)} {d e : Dev} (hp : .ses ∈ ps) (h : Contained ps ks d e) (x : SesS) :
    Contained ps ks d { e with ses := x } := h.trans (.of_ev (.ses hp (.refl _ _ e) x) rfl)

theorem Contained.modCtx {ps : List Part} {ks : List (Nat × Nat)} {d e : Dev} {n : Nat} {f : CtxS → CtxS} (hp : .ses ∈ ps)
    (h : Contained ps ks d e) : Contained ps ks d (modCtx n f e) := h.ses hp _

theorem counted_oSes (n off sub : Nat) : counted (oSes n off) sub = false := by
  have h1 : ¬ oSes n off ≤ 0x34FF := by unfold oSes; omega
  have h2 : ¬ oSes n off < 0x3210 := by omega
  simp [counted, ringBook, h1, h2]

/-- Only the session part matters to a context. -/
theorem ctx_congr {d e : Dev} (h : e.ses.ctx = d.ses.ctx) (n : Nat) : ctx e n = ctx d n := by rw [ctx, ctx, h]

/-! ### Changes of state (R294, R295, R306) -/

/-- The objects in which a session asks for its connector. -/
def reqObjs (c : Nat) : List (Nat × Nat) := (oCon c 0x34, 1) :: (List.range 10).map (fun sub => (oCon c 0x20, sub))

/-- The objects that the entry into a state writes. -/
def enterObjs (n c : Nat) : List (Nat × Nat) := (oSes n 0, 0) :: (0x301, 1) :: (0x301, 2) :: reqObjs c

/-- The objects that a context writes as it lets go of its connector and its record. -/
def leaveObjs (c : Nat) : List (Nat × Nat) := [(oCon c 0x51, 0), (0x220F, 0)]

/-- The objects that the end of a context writes. -/
def closeObjs (n c : Nat) : List (Nat × Nat) := (oCon c 0x51, 0) :: (0x220F, 0) :: enterObjs n c

theorem req_mem {c k : Nat} (h : k < 10) : (oCon c 0x20, k) ∈ reqObjs c :=
  List.mem_cons_of_mem _ (List.mem_map_of_mem (List.mem_range.2 h))

/-- The objects of a context are none in which its connector is asked. -/
theorem oSes_notMem_reqObjs {c : Nat} (hc : c < 64) (n off sub : Nat) : (oSes n off, sub) ∉ reqObjs c := by
  simp [reqObjs, oSes, oCon]
  omega

/-- An object of a context that the entry into a state does not write. -/
theorem oSes_notMem_enterObjs {c m n off sub : Nat} (hc : c < 64) (h : oSes m off ≠ oSes n 0) : (oSes m off, sub) ∉ enterObjs n c := by
  have hcount : oSes m off ≠ 0x301 := by simp only [oSes]; omega
  simp [enterObjs, h, hcount, oSes_notMem_reqObjs hc]

theorem oSes_notMem_closeObjs {c m n off sub : Nat} (hc : c < 64) (h : oSes m off ≠ oSes n 0) : (oSes m off, sub) ∉ closeObjs n c := by
  have hcon : oSes m off ≠ oCon c 0x51 := by simp only [oSes, oCon]; omega
  have hpend : oSes m off ≠ 0x220F := by simp only [oSes]; omega
  simp [closeObjs, hcon, hpend, oSes_notMem_enterObjs hc h]

section

variable {ps : List Part} {n c : Nat} {d : Dev}

theorem setReq_contained {k : Nat} (hk : k < 10) (v : Nat) (d : Dev) : Contained ps (reqObjs c) d (setReq c k v d) :=
  .ite (.refl _ _ d) (.put (by omega) (req_mem hk) (.refl _ _ d))

theorem setStep_contained (v : Nat) (d : Dev) : Contained ps (reqObjs c) d (setStep c v d) :=
  .ite (.refl _ _ d) (.put (by decide) List.mem_cons_self (.refl _ _ d))

/-- The request of a session's connector (R295): MODE, STEP, and V_TARGET where the state fixes it. -/
theorem sesReq_contained (n : Nat) (d : Dev) : Contained ps (reqObjs (sesConn d n)) d (sesReq n d) := by
  have hmode : ∀ v x, Contained ps (reqObjs (sesConn d n)) x (setReq (sesConn d n) 1 v x) := setReq_contained (by decide)
  have hvolt : ∀ v x, Contained ps (reqObjs (sesConn d n)) x (setReq (sesConn d n) 9 v x) := setReq_contained (by decide)
  have hstep : ∀ v x, Contained ps (reqObjs (sesConn d n)) x (setStep (sesConn d n) v x) := setStep_contained
  unfold sesReq
  split
  · exact ((hmode _ d).trans (hstep _ _)).trans (hvolt _ _)
  · exact (hmode _ d).trans (hstep _ _)
  · exact (Contained.ite (hmode _ d) (.refl _ _ d)).trans (hstep _ _)
  · exact (hmode _ d).trans (hstep _ _)
  · exact ((hmode _ d).trans (hstep _ _)).trans (hvolt _ _)

theorem setReq_ses (c k v : Nat) (d : Dev) : (setReq c k v d).ses = d.ses := by
  unfold setReq
  split
  · rfl
  · exact put_ses _ _ _ _

theorem setStep_ses (c v : Nat) (d : Dev) : (setStep c v d).ses = d.ses := by
  unfold setStep
  split
  · rfl
  · exact put_ses _ _ _ _

theorem sesReq_ses (n : Nat) (d : Dev) : (sesReq n d).ses = d.ses := by
  have hmode : (if on d (oCon (sesConn d n) 0x20) 1 = 0 then setReq (sesConn d n) 1 1 d else d).ses = d.ses := by
    split
    · exact setReq_ses _ _ _ _
    · rfl
  unfold sesReq
  split <;> simp only [setReq_ses, setStep_ses, hmode]

theorem sesDelta_contained {ks : List (Nat × Nat)} (hp : .ses ∈ ps) (n : Nat) (d : Dev) : Contained ps ks d (sesDelta n d) :=
  .ite (.ses hp (.refl _ _ d) _) (.refl _ _ d)

/-- A change waits for its record; contexts and the last one taken are as they were. -/
theorem sesDelta_ses (n : Nat) (d : Dev) : ∃ l, (sesDelta n d).ses = { d.ses with deltas := l } := by
  unfold sesDelta
  split
  · exact ⟨_, rfl⟩
  · exact ⟨_, rfl⟩

theorem sesConn_state (n m st : Nat) (d : Dev) : sesConn (put (oSes n 0) 0 st d) m = sesConn d m :=
  on_put_other _ _ _ _ _ _ (by simp only [okey, oSes]; omega)

/-- The state is entered once the request stands; the counts come after (R306). -/
theorem sesEnter_after (n st : Nat) (d : Dev) :
    Contained [.ses] ((0x301, 1) :: (0x301, 2) :: reqObjs (sesConn d n)) (put (oSes n 0) 0 st d) (sesEnter n st d) := by
  have hreq := sesReq_contained (ps := [.ses]) n (put (oSes n 0) 0 st d)
  rw [sesConn_state] at hreq
  exact (Contained.put (by decide) (by simp) (.put (by decide) (by simp)
    (hreq.mono (fun _ h => h) (by simp; tauto)))).trans (sesDelta_contained (by decide) n _)

theorem sesEnter_contained (n st : Nat) (d : Dev) : Contained [.ses] (enterObjs n (sesConn d n)) d (sesEnter n st d) :=
  (Contained.put (by decide) List.mem_cons_self (.refl _ _ d)).trans
    ((sesEnter_after n st d).mono (fun _ h => h) (fun _ => List.mem_cons_of_mem _))

theorem sesState_sesEnter (hc : sesConn d n < 64) (st : Nat) : sesState (sesEnter n st d) n = st := by
  rw [sesState, (sesEnter_after n st d).framed.on_eq (by decide) (counted_oSes _ _ _)
    (by simp [oSes_notMem_reqObjs hc]), on_put_same]

theorem sesEnter_ses (n st : Nat) (d : Dev) : ∃ l, (sesEnter n st d).ses = { d.ses with deltas := l } := by
  obtain ⟨l, hl⟩ := sesDelta_ses n (sesCount (sesReq n (put (oSes n 0) 0 st d)))
  exact ⟨l, hl.trans (by rw [sesCount, put_ses, put_ses, sesReq_ses, put_ses])⟩

/-- A context enters a state with its own part changed. -/
theorem sesEnter_modCtx_contained (n st : Nat) (f : CtxS → CtxS) (d : Dev) :
    Contained [.ses] (enterObjs n (sesConn d n)) d (sesEnter n st (modCtx n f d)) :=
  (Contained.modCtx (by decide) (.refl _ _ d)).trans (sesEnter_contained n st (modCtx n f d))

theorem ctx_sesEnter (n m st : Nat) (d : Dev) : ctx (sesEnter n st d) m = ctx d m := by
  obtain ⟨l, hl⟩ := sesEnter_ses n st d
  exact ctx_congr (by rw [hl]) m

end

/-! ### The end of a context (R294, R300) -/

section

variable {n : Nat} {d : Dev}

/-- Once in CLOSING, a context lets go of its connector, its record closes, and its connection stays open for its vehicle. -/
theorem closeCtx_after (n : Nat) (d : Dev) :
    Contained [.ses, .legal] (leaveObjs (sesConn d n)) (sesEnter n 10 d) (closeCtx n d) := by
  have hfree : ∀ (p : Prop) [Decidable p] x, Contained [.ses, .legal] (leaveObjs (sesConn d n)) x
      (if p then put (oCon (sesConn d n) 0x51) 0 0xFFFF x else x) := fun p _ x =>
    .ite (.put (by decide) (by simp [leaveObjs]) (.refl _ _ x)) (.refl _ _ x)
  have hclose : ∀ c cause x, Contained [.ses, .legal] (leaveObjs (sesConn d n)) x (sessionRecordClose n c cause x) := fun c cause x =>
    .put (by decide) (by simp [leaveObjs]) (.of_ev (.legal (by decide) (.refl _ _ x) _) rfl)
  have hkeep : ∀ c x, Contained [.ses, .legal] (leaveObjs (sesConn d n)) x (keepTalking n c x) := fun c x => by
    have hhush := Contained.ses (ps := [.ses, .legal]) (by decide) (.refl _ (leaveObjs (sesConn d n)) x) (hush c x).ses
    exact .ite hhush (.modCtx (by decide) hhush)
  unfold closeCtx
  dsimp only
  exact ((hfree _ _).trans (hclose _ _ _)).trans (hkeep _ _)

theorem closeCtx_contained (n : Nat) (d : Dev) : Contained [.ses, .legal] (closeObjs n (sesConn d n)) d (closeCtx n d) :=
  ((sesEnter_contained n 10 d).mono (by simp) (fun _ h => List.mem_cons_of_mem _ (List.mem_cons_of_mem _ h))).trans
    ((closeCtx_after n d).mono (fun _ h => h) (by simp [leaveObjs]))

theorem sesState_closeCtx (hc : sesConn d n < 64) : sesState (closeCtx n d) n = 10 := by
  rw [sesState, (closeCtx_after n d).framed.on_eq (by decide) (counted_oSes _ _ _) (by simp [leaveObjs, oSes, oCon]; omega)]
  exact sesState_sesEnter hc 10

/-- STOPPING is left at once where no contactor shows closed. -/
theorem stopDone_contained (n : Nat) (d : Dev) : Contained [.ses, .legal] (closeObjs n (sesConn d n)) d (stopDone n d) :=
  .ite (.ite ((sesEnter_modCtx_contained n 9 _ d).mono (by simp)
    (fun _ h => List.mem_cons_of_mem _ (List.mem_cons_of_mem _ h))) (closeCtx_contained n d)) (.refl _ _ d)

theorem sesState_stopDone (hc : sesConn d n < 64) (h8 : sesState d n = 8) (hw : (ctx d n).vehWaits = false) :
    sesState (stopDone n d) n = (if anyClosed d (sesConn d n) = true then 8 else if (ctx d n).resumable = true then 9 else 10) := by
  unfold stopDone
  by_cases ha : anyClosed d (sesConn d n) = true
  · rw [if_neg (by simp [ha]), if_pos ha, h8]
  · rw [if_pos ⟨h8, by simp [ha], by simp [hw]⟩, if_neg ha]
    split
    · exact sesState_sesEnter (d := modCtx n _ d) hc 9
    · exact sesState_closeCtx hc

end

/-! ### Answers -/

section

variable {ks : List (Nat × Nat)}

/-- What passes through a ring is served, is lost, or waits (R421, R422); before that only the books of the ring move, and what a full
ring raises. -/
theorem ringPass_outcome {r : Nat} (hr : r < 16) (its : List RingItem) (go lost : Dev → Dev) (d : Dev) : ∃ x, Follows d x ∧
    (ringPass r its go lost d = go x ∨ ringPass r its go lost d = lost x ∨ ringPass r its go lost d = x) := by
  have hposted : Follows d (ringStep r 3 its.length d) := put_ring_follows r 3 _ _ hr rfl
  have hdone : ∀ x, Follows x (ringDone r its.length x) := fun x =>
    (put_ring_follows r 2 _ _ hr rfl).trans (put_ring_follows r 4 _ _ hr rfl)
  unfold ringPass
  split
  · exact ⟨d, .refl d, .inl rfl⟩
  · split
    · exact ⟨d, .refl d, .inr (.inl rfl)⟩
    · split
      · exact ⟨_, hposted.trans (hdone _), .inl rfl⟩
      · split
        · exact ⟨_, ringFull_follows r d hr, .inr (.inl rfl)⟩
        · refine ⟨_, hposted.trans (modRing_follows r _ (fun y => ?_) _), .inr (.inr rfl)⟩
          simp [ringCore, List.filter_append, List.filter_map, Function.comp_def]

theorem ringPass_contained {ps : List Part} {r : Nat} (hr : r < 16) (its : List RingItem) {go lost : Dev → Dev}
    (hg : ∀ x, Contained ps ks x (go x)) (hl : ∀ x, Contained ps ks x (lost x)) (d : Dev) :
    Contained ps ks d (ringPass r its go lost d) := by
  obtain ⟨x, hx, h | h | h⟩ := ringPass_outcome hr its go lost d
  · exact h ▸ (Contained.of_follows hx).trans (hg x)
  · exact h ▸ (Contained.of_follows hx).trans (hl x)
  · exact h ▸ .of_follows hx

theorem sendVeh_contained (c msg : Nat) (args : List Nat) (d : Dev) :
    Contained [.ses, .draws, .lanes] ks d (sendVeh c msg args d) := by
  have hgo : ∀ f x, Contained [.ses, .draws, .lanes] ks x (vehGo c msg args f x) := fun f x =>
    .of_ev (.lanes (by decide) (.emit (.refl _ _ x) _) _) rfl
  have hdraw : Contained [.ses, .draws, .lanes] ks d { d with draws := d.draws + 1 } := .of_ev (.draws (by decide) (.refl _ _ d) _) rfl
  exact hdraw.trans (ringPass_contained (by decide) _ (hgo _) (.refl _ _) _)

theorem sendAnswer_contained (c msg : Nat) (args : List Nat) (d : Dev) :
    Contained [.ses, .draws, .lanes] ks d (sendAnswer c msg args d) := by
  unfold sendAnswer
  refine .ite (sendVeh_contained _ _ _ d) (.ite ?_ (sendVeh_contained _ _ _ d))
  split
  · exact .ite (sendVeh_contained _ _ _ d) (.ite (.ses (by decide) (.refl _ _ d) _) (.refl _ _ d))
  · exact .refl _ _ d

/-- An answer, sent or held for the partner, changes no object. -/
theorem respond_contained (n c msg : Nat) (args : List Nat) (d : Dev) :
    Contained [.ses, .draws, .lanes] ks d (respond n c msg args d) := by
  have htold : ∀ f, Contained [.ses, .draws, .lanes] ks d (modCtx n f { d with draws := d.draws + 1 }) := fun f =>
    .modCtx (by decide) (.of_ev (.draws (by decide) (.refl _ _ d) _) rfl)
  exact .ite (.ses (by decide) ((htold _).trans (sesDelta_contained (by decide) n _)) _)
    (((htold _).trans (sesDelta_contained (by decide) n _)).trans (sendAnswer_contained _ _ _ _))

end

/-! ### The end of a session from the station side (R300) -/

/-- The cause and the time of an end are booked; causes from 3 on raise SES_FAULT. -/
def endBooked (n cause : Nat) (d : Dev) : Dev :=
  put (oSes n 0x0B) 2 (civilNs d)
    (if 3 ≤ cause then raise 0x3E01 n (sesConn d n + 256 * cause) (put (oSes n 0x0C) 1 cause d) else put (oSes n 0x0C) 1 cause d)

/-- What an end makes of a context. -/
def ending (resumable : Bool) (notice : Nat) (x : CtxS) : CtxS :=
  { x with resumable := resumable, pcPending := false, dirWait := false, vehWaits := false, notice := notice }

/-- A context in STOPPING, its end booked. -/
def stopping (n cause : Nat) (resumable : Bool) (d : Dev) : Dev :=
  sesEnter n 8 (modCtx n (ending resumable (noticeOf (oldProto (endBooked n cause d) n) cause)) (endBooked n cause d))

/-- The objects that the end of a session writes. -/
def stopObjs (n c : Nat) : List (Nat × Nat) := (oSes n 0x0B, 2) :: (oSes n 0x0C, 1) :: closeObjs n c

section

variable {n cause : Nat} {resumable : Bool} {d : Dev}

theorem sesStop_open (h3 : 3 ≤ sesState d n) (h7 : sesState d n ≤ 7) : sesStop n cause resumable d =
    if (ctx d n).pcPending = true then
      respond n (sesConn d n) mPrecharge [vConnRaw (stopDone n (stopping n cause resumable d)) (sesConn d n), 2]
        (stopDone n (stopping n cause resumable d))
    else stopDone n (stopping n cause resumable d) := by
  have h0 : ¬(sesState d n = 0 ∨ sesState d n = 10) := by omega
  have h8 : ¬ sesState d n = 8 := by omega
  have h9 : ¬ sesState d n = 9 := by omega
  have h2 : ¬ sesState d n ≤ 2 := by omega
  unfold sesStop
  simp only [h0, h8, h9, h2, if_false]
  rfl

theorem endBooked_contained (n cause : Nat) (d : Dev) : Contained [] [(oSes n 0x0B, 2), (oSes n 0x0C, 1)] d (endBooked n cause d) := by
  have hcause : Contained [] [(oSes n 0x0B, 2), (oSes n 0x0C, 1)] d (put (oSes n 0x0C) 1 cause d) :=
    .put (by decide) (by simp) (.refl _ _ d)
  exact .put (by decide) (by simp) (.ite (.raise hcause) hcause)

theorem on_endBooked_time (n cause : Nat) (d : Dev) : on (endBooked n cause d) (oSes n 0x0B) 2 = civilNs d := on_put_same _ _ _ _

theorem on_endBooked_cause (n cause : Nat) (d : Dev) : on (endBooked n cause d) (oSes n 0x0C) 1 = cause := by
  rw [endBooked, on_put_other _ _ _ _ _ _ (by simp only [okey, oSes]; omega)]
  split
  · exact on_put_same d _ _ _
  · exact on_put_same d _ _ _

theorem raised_endBooked (h : 3 ≤ cause) (d : Dev) : raised (endBooked n cause d) 0x3E01 n = true := by
  rw [endBooked, if_pos h]
  exact raised_raise _ _ _ _

/-- An object of the context that the end does not book. -/
theorem on_endBooked_state (n cause off : Nat) (d : Dev) :
    on (endBooked n cause d) (oSes n off) 0 = on d (oSes n off) 0 :=
  (endBooked_contained n cause d).framed.on_eq (by decide) (counted_oSes _ _ _) (by simp)

theorem stopping_after (n cause : Nat) (resumable : Bool) (d : Dev) :
    Contained [.ses] (enterObjs n (sesConn d n)) (endBooked n cause d) (stopping n cause resumable d) := by
  have h := sesEnter_modCtx_contained n 8 (ending resumable (noticeOf (oldProto (endBooked n cause d) n) cause)) (endBooked n cause d)
  rwa [sesConn, on_endBooked_state] at h

end


section

variable {n cause : Nat} {resumable : Bool} {d : Dev}

theorem sesConn_stopping (hc : sesConn d n < 64) : sesConn (stopping n cause resumable d) n = sesConn d n := by
  rw [sesConn, (stopping_after n cause resumable d).framed.on_eq (by decide) (counted_oSes _ _ _)
    (oSes_notMem_enterObjs hc (by simp [oSes])), on_endBooked_state, sesConn]

theorem sesState_stopping (hc : sesConn d n < 64) : sesState (stopping n cause resumable d) n = 8 :=
  sesState_sesEnter (d := modCtx n _ (endBooked n cause d)) (by rwa [sesConn, on_modCtx, on_endBooked_state]) 8

theorem ctx_stopping : ctx (stopping n cause resumable d) n =
    ending resumable (noticeOf (oldProto (endBooked n cause d) n) cause) (ctx (endBooked n cause d) n) := by
  rw [stopping, ctx_sesEnter, ctx_modCtx_same]

theorem anyClosed_stopping :
    anyClosed (stopping n cause resumable d) (sesConn d n) = anyClosed d (sesConn d n) := by
  rw [anyClosed, anyClosed, (stopping_after n cause resumable d).framed.on_eq (by decide) (counted_oCon _ _ _)
      (by simp [enterObjs, reqObjs, oSes, oCon]),
    (endBooked_contained n cause d).framed.on_eq (by decide) (counted_oCon _ _ _) (by simp [oSes, oCon])]

variable (h3 : 3 ≤ sesState d n) (h7 : sesState d n ≤ 7) (hc : sesConn d n < 64)

include h3 h7 hc

/-- After the end is booked only what a change of state writes moves. -/
theorem sesStop_after : Contained [.ses, .legal, .draws, .lanes] (closeObjs n (sesConn d n)) (endBooked n cause d)
    (sesStop n cause resumable d) := by
  have hdone := stopDone_contained n (stopping n cause resumable d)
  rw [sesConn_stopping hc] at hdone
  have hall : Contained [.ses, .legal, .draws, .lanes] (closeObjs n (sesConn d n)) (endBooked n cause d)
      (stopDone n (stopping n cause resumable d)) :=
    ((stopping_after n cause resumable d).mono (by simp) (fun _ h => List.mem_cons_of_mem _ (List.mem_cons_of_mem _ h))).trans
      (hdone.mono (by simp) (fun _ h => h))
  rw [sesStop_open h3 h7]
  exact .ite (hall.trans ((respond_contained _ _ _ _ _).mono (by simp) (fun _ h => h))) hall

theorem sesStop_contained : Contained [.ses, .legal, .draws, .lanes] (stopObjs n (sesConn d n)) d (sesStop n cause resumable d) :=
  ((endBooked_contained n cause d).mono (by simp) (by simp [stopObjs])).trans
    ((sesStop_after h3 h7 hc).mono (fun _ h => h) (fun _ h => List.mem_cons_of_mem _ (List.mem_cons_of_mem _ h)))

theorem sesState_sesStop : sesState (sesStop n cause resumable d) n =
    (if anyClosed d (sesConn d n) = true then 8 else if resumable = true then 9 else 10) := by
  have hdone : sesState (stopDone n (stopping n cause resumable d)) n =
      (if anyClosed d (sesConn d n) = true then 8 else if resumable = true then 9 else 10) := by
    rw [sesState_stopDone (by rwa [sesConn_stopping hc]) (sesState_stopping hc) (by rw [ctx_stopping]; rfl), sesConn_stopping hc,
      anyClosed_stopping, ctx_stopping]
    rfl
  rw [sesStop_open h3 h7]
  split
  · exact ((respond_contained (ks := []) _ _ _ _ _).framed.on_eq (by decide) (counted_oSes _ _ _) (by simp)).trans hdone
  · exact hdone

/-- R300: a session in AUTHORIZE to ENERGY ends under its cause. -/
theorem sesStop_ends : sesEnded n (sesConn d n) cause resumable d (sesStop n cause resumable d) := by
  have hon : ∀ off sub, sub < 256 → off ≠ 0 →
      on (sesStop n cause resumable d) (oSes n off) sub = on (endBooked n cause d) (oSes n off) sub := fun off sub hs h0 =>
    (sesStop_after h3 h7 hc).framed.on_eq hs (counted_oSes _ _ _)
      (oSes_notMem_closeObjs hc (by simp [oSes, h0]))
  refine ⟨sesState_sesStop h3 h7 hc, ?_, ?_, fun h => ?_⟩
  · rw [hon 0x0C 1 (by decide) (by decide), on_endBooked_cause]
  · rw [hon 0x0B 2 (by decide) (by decide), on_endBooked_time]
  · exact (sesStop_after h3 h7 hc).raised _ _ _ (raised_endBooked h d)

end

theorem sesEnded_follows {d e f : Dev} {n c cause : Nat} {resumable : Bool} (h : sesEnded n c cause resumable d e)
    (he : Follows e f) : sesEnded n c cause resumable d f := by
  obtain ⟨hst, hcause, htime, hraised⟩ := h
  have hon := fun off sub (hs : sub < 256) => he.on_of_not_counted hs (counted_oSes n off sub)
  exact ⟨(hon _ _ (by decide)).trans hst, (hon _ _ (by decide)).trans hcause, (hon _ _ (by decide)).trans htime,
    fun h3 => he.raised _ _ _ (hraised h3)⟩

end Sys2Proof

/-! LINK_STATE (R292, R293): what its payload publishes, the context that a vehicle takes, and the end of the session of one that is
gone. -/

namespace Sys2Proof

open Machine

theorem counted_linkObj (c sub : Nat) : counted (linkObj c) sub = false := counted_oCon c 0x53 sub

/-! ### Contexts as they are taken (R293) -/

/-- The objects of a context. -/
def ctxObjs (n : Nat) : List (Nat × Nat) := (List.range 15).flatMap (fun off => (List.range 7).map (fun sub => (oSes n off, sub)))

theorem mem_ctxObjs {n off sub : Nat} (ho : off < 15) (hs : sub < 7) : (oSes n off, sub) ∈ ctxObjs n :=
  List.mem_flatMap.2 ⟨off, List.mem_range.2 ho, List.mem_map_of_mem (List.mem_range.2 hs)⟩

/-- What lies below the contexts, or belongs to another one, is no object of a context. -/
theorem notMem_ctxObjs {n num sub : Nat} (h : num < 0x14000 ∨ ∃ m, m ≠ n ∧ num = oSes m 0) : (num, sub) ∉ ctxObjs n := by
  intro hm
  obtain ⟨off, ho, hm⟩ := List.mem_flatMap.1 hm
  obtain ⟨k, _, hk⟩ := List.mem_map.1 hm
  have hnum : oSes n off = num := congrArg Prod.fst hk
  have ho' := List.mem_range.1 ho
  rcases h with h | ⟨m, hmn, hm⟩
  · simp only [oSes] at hnum
    omega
  · simp only [oSes] at hnum hm
    omega

theorem putV_framed {ps : List Part} {ks : List (Nat × Nat)} {num sub : Nat} (hs : sub < 256) (hk : (num, sub) ∈ ks) (v : Val)
    (d : Dev) : Framed ps ks d { d with os := putV d.os (okey num sub) v } := by
  refine ⟨(onlyParts_of_fields (e := { d with os := putV d.os (okey num sub) v }) rfl).mono (by simp), fun m t ht _ hm => ?_, rfl⟩
  refine storeGet_storeSet_other _ _ _ _ (fun h => hm ?_)
  obtain ⟨rfl, rfl⟩ := okey_inj hs ht h
  exact hk

theorem sesClearObjs_framed (n : Nat) (d : Dev) : Framed [] (ctxObjs n) d (sesClearObjs n d) :=
  .forEach (fun off ho x => .forEach (fun sub hs y => by
    have hsub : sub < 7 := by simp at hs; omega
    exact .ite (putV_framed (by omega) (mem_ctxObjs (List.mem_range.1 ho) hsub) _ y) (.refl _ _ y)) (.refl _ _ x)) (.refl _ _ d)

/-- Context `n` as connector `c` takes it, still FREE. -/
def taken (n c : Nat) (d : Dev) : Dev :=
  let x := modCtx n (fun _ => { feat := on d 0x011 0 }) (sesClearObjs n d)
  put (oCon c 0x51) 0 n (put (oSes n 1) 0 c { x with ses := { x.ses with last := n } })

section

variable {n c : Nat} {d : Dev}

theorem takeCtx_some (h : nextFree d = some n) : takeCtx c d = sesEnter n 1 (taken n c d) := by
  simp only [takeCtx, h]
  rfl

theorem takeCtx_none (h : nextFree d = none) : takeCtx c d = raise 0x3A01 noInst c d := by
  simp only [takeCtx, h]

theorem sesConn_taken : sesConn (taken n c d) n = c :=
  (on_put_other _ _ _ _ _ _ (by simp only [okey, oCon, oSes]; omega)).trans (on_put_same _ _ _ _)

theorem taken_framed (n c : Nat) (d : Dev) : Framed [.ses] ((oCon c 0x51, 0) :: ctxObjs n) d (taken n c d) := by
  have hclear : Framed [.ses] ((oCon c 0x51, 0) :: ctxObjs n) d (sesClearObjs n d) :=
    (sesClearObjs_framed n d).mono (by simp) (fun _ => List.mem_cons_of_mem _)
  exact .put (by decide) List.mem_cons_self (.put (by decide) (List.mem_cons_of_mem _ (mem_ctxObjs (by decide) (by decide)))
    (.ses (by decide) (.ses (by decide) hclear _) _))

/-- Other contexts are as they were, and the next search begins behind the one taken. -/
theorem taken_ses (n c : Nat) (d : Dev) :
    (taken n c d).ses = { (modCtx n (fun _ => { feat := on d 0x011 0 }) d).ses with last := n } := by
  have hses : (sesClearObjs n d).ses = d.ses := (sesClearObjs_framed n d).1 .ses (by simp)
  rw [taken, put_ses, put_ses, modCtx, hses]
  rfl

/-- R293: the next free context is MATCHED with the connector; no other one changes. -/
theorem takeCtx_takes (hc : c < 64) (hn : n < 256) (h : nextFree d = some n) :
    sesState (takeCtx c d) n = 1 ∧ conCtx (takeCtx c d) c = some n ∧ sesConn (takeCtx c d) n = c ∧ (takeCtx c d).ses.last = n ∧
      (∀ m, m ≠ n → ctx (takeCtx c d) m = ctx d m) ∧
      Framed [.ses] ((oCon c 0x51, 0) :: ctxObjs n ++ enterObjs n c) d (takeCtx c d) := by
  have hconn : sesConn (taken n c d) n = c := sesConn_taken
  have henter := (sesEnter_contained n 1 (taken n c d)).framed
  rw [hconn] at henter
  obtain ⟨l, hses⟩ := sesEnter_ses n 1 (taken n c d)
  have hses' := hses.trans (by rw [taken_ses])
  rw [takeCtx_some h]
  refine ⟨sesState_sesEnter (by rwa [hconn]) 1, ?_, ?_, ?_, fun m hm => ?_, ?_⟩
  · have hon : on (sesEnter n 1 (taken n c d)) (oCon c 0x51) 0 = n :=
      (henter.on_eq (by decide) (counted_oCon _ _ _) (by simp [enterObjs, reqObjs, oCon, oSes]; omega)).trans (on_put_same _ _ _ _)
    rw [conCtx, hon]
    exact if_pos hn
  · exact (henter.on_eq (by decide) (counted_oSes _ _ _) (oSes_notMem_enterObjs hc (by simp [oSes]))).trans hconn
  · rw [hses']
  · exact (ctx_congr (by rw [hses']) m).trans (ctx_modCtx_other d n m _ hm.symm)
  · exact ((taken_framed n c d).mono (fun _ h => h) (fun _ h => List.mem_append_left _ h)).trans
      (henter.mono (fun _ h => h) (fun _ h => List.mem_append_right _ h))

end

/-! ### The payload (R292) -/

/-- The objects of CON.LINK. -/
def linkObjs (c : Nat) : List (Nat × Nat) := [(linkObj c, 1), (linkObj c, 2), (linkObj c, 3), (linkObj c, 4)]

/-- The objects of CON.LINK show a frame's payload. -/
def linkShown (c : Nat) (f : Bytes) (d : Dev) : Dev :=
  put (linkObj c) 4 0 (put (linkObj c) 3 (byteAt f 17) (put (linkObj c) 2 (byteAt f 16) (put (linkObj c) 1 (byteAt f 15) d)))

/-- The frame is taken from those that wait; the age of CON.LINK, and how long LINK has been 0, begin anew. -/
def linkTimed (c : Nat) (f : Bytes) (d : Dev) : Dev :=
  { d with
    lanes := { d.lanes with vehIn := d.lanes.vehIn.filter (fun p => !(p.1 == c && p.2 == f)) }
    ses := { d.ses with age := alSet d.ses.age c 0,
                        link0 := if byteAt f 16 = 0 then d.ses.link0 else alDel d.ses.link0 c } }

/-- What every well-formed frame does. -/
def linkSeen (c : Nat) (f : Bytes) (d : Dev) : Dev := linkTimed c f (linkShown c f d)

section

variable (c : Nat) (f : Bytes) (d : Dev)

theorem linkTimed_os : (linkTimed c f d).os = d.os := rfl

theorem linkTimed_framed : Framed [.lanes, .ses] (linkObjs c) d (linkTimed c f d) :=
  .of_os (fun p hp => by cases p <;> first | rfl | exact fun _ => rfl | exact absurd (by simp) hp) (linkTimed_os c f d)

theorem on_linkTimed (num sub : Nat) : on (linkTimed c f d) num sub = on d num sub := by rw [on, on, ov, ov, linkTimed_os]

theorem linkShown_framed : Framed [.lanes, .ses] (linkObjs c) d (linkShown c f d) :=
  .put (by decide) (by simp [linkObjs]) (.put (by decide) (by simp [linkObjs]) (.put (by decide) (by simp [linkObjs])
    (.put (by decide) (by simp [linkObjs]) (.refl _ _ d))))

theorem linkSeen_framed : Framed [.lanes, .ses] (linkObjs c) d (linkSeen c f d) :=
  (linkShown_framed c f d).trans (linkTimed_framed c f _)

/-- No context is taken yet, and none changes. -/
theorem linkSeen_ses : (linkSeen c f d).ses.ctx = d.ses.ctx ∧ (linkSeen c f d).ses.last = d.ses.last := by
  have htimed : ∀ x, (linkTimed c f x).ses.ctx = x.ses.ctx ∧ (linkTimed c f x).ses.last = x.ses.last := fun _ => ⟨rfl, rfl⟩
  have hshown : (linkShown c f d).ses = d.ses := by rw [linkShown, put_ses, put_ses, put_ses, put_ses]
  rw [linkSeen, (htimed _).1, (htimed _).2, hshown]
  exact ⟨rfl, rfl⟩

theorem on_linkSeen_pilot : on (linkSeen c f d) (linkObj c) 1 = byteAt f 15 := by
  rw [linkSeen, on_linkTimed, linkShown, on_put_other _ _ _ _ _ _ (by simp [okey]), on_put_other _ _ _ _ _ _ (by simp [okey]),
    on_put_other _ _ _ _ _ _ (by simp [okey]), on_put_same]

theorem on_linkSeen_link : on (linkSeen c f d) (linkObj c) 2 = byteAt f 16 := by
  rw [linkSeen, on_linkTimed, linkShown, on_put_other _ _ _ _ _ _ (by simp [okey]), on_put_other _ _ _ _ _ _ (by simp [okey]),
    on_put_same]

theorem on_linkSeen_flags : on (linkSeen c f d) (linkObj c) 3 = byteAt f 17 := by
  rw [linkSeen, on_linkTimed, linkShown, on_put_other _ _ _ _ _ _ (by simp [okey]), on_put_same]

/-- Every object but those of CON.LINK. -/
theorem on_linkSeen_other {num sub : Nat} (hs : sub < 256) (hn : counted num sub = false) (h : num ≠ linkObj c) :
    on (linkSeen c f d) num sub = on d num sub := (linkSeen_framed c f d).on_eq hs hn (by simp [linkObjs, h])

theorem sesState_linkSeen (n : Nat) : sesState (linkSeen c f d) n = sesState d n :=
  on_linkSeen_other c f d (by decide) (counted_oSes _ _ _) (by simp only [linkObj, oSes, oCon]; omega)

theorem sesConn_linkSeen (n : Nat) : sesConn (linkSeen c f d) n = sesConn d n :=
  on_linkSeen_other c f d (by decide) (counted_oSes _ _ _) (by simp only [linkObj, oSes, oCon]; omega)

theorem conCtx_linkSeen : conCtx (linkSeen c f d) c = conCtx d c := by
  rw [conCtx, conCtx, on_linkSeen_other c f d (by decide) (counted_oCon _ _ _) (by simp [linkObj, oCon])]

theorem anyClosed_linkSeen : anyClosed (linkSeen c f d) c = anyClosed d c := by
  rw [anyClosed, anyClosed, on_linkSeen_other c f d (by decide) (counted_oCon _ _ _) (by simp [linkObj, oCon])]

theorem nextFree_linkSeen : nextFree (linkSeen c f d) = nextFree d := by
  simp only [nextFree, sesState_linkSeen, (linkSeen_ses c f d).2]

theorem isActive_linkSeen : isActive (linkSeen c f d) = isActive d := by
  rw [isActive, isActive, (linkSeen_framed c f d).1 .pair (by simp)]

theorem civilNs_linkSeen : civilNs (linkSeen c f d) = civilNs d := by
  rw [civilNs, civilNs, (linkSeen_framed c f d).1 .time (by simp)]

theorem isMcs_linkSeen : isMcs (linkSeen c f d) c = isMcs d c := by
  simp only [isMcs, connDisp, dispE_congr ((linkSeen_framed c f d).1 .sched (by simp))]

/-- A vehicle that is plugged in, with its link up, may take a context (R287, R293). -/
theorem mayTake_linkSeen (hp : byteAt f 15 = 2 ∨ byteAt f 15 = 3) (hl : byteAt f 16 = 2) (hm : isMcs d c = false ∨ featOn d 2 = true) :
    mayTake (linkSeen c f d) c = true := by
  have hfeat : featOn (linkSeen c f d) 2 = featOn d 2 := by
    rw [featOn, featOn, on_linkSeen_other c f d (by decide) (counted_of_lt _ (by decide)) (by simp only [linkObj, oCon]; omega)]
  rw [mayTake, pilot, on_linkSeen_pilot, on_linkSeen_link, hfeat, isMcs_linkSeen, hl]
  simpa using ⟨hp, hm⟩

end

/-! ### What LINK_STATE does -/

/-- Neither the taking of a context nor the end of a session writes CON.LINK. -/
theorem linkObj_notMem {c : Nat} (hc : c < 64) (n sub : Nat) :
    (linkObj c, sub) ∉ (oCon c 0x51, 0) :: ctxObjs n ++ enterObjs n c ∧ (linkObj c, sub) ∉ stopObjs n c := by
  have hctx : (linkObj c, sub) ∉ ctxObjs n := notMem_ctxObjs (.inl (by simp only [linkObj, oCon]; omega))
  have hreq : (linkObj c, sub) ∉ reqObjs c := by simp [reqObjs, linkObj, oCon]
  have hself : ∀ off, linkObj c ≠ oSes n off := fun off => by simp only [linkObj, oCon, oSes]; omega
  have hdev : ∀ num, num < 0x10000 → linkObj c ≠ num := fun num h => by simp only [linkObj, oCon]; omega
  have hcon : linkObj c ≠ oCon c 0x51 := by simp [linkObj, oCon]
  simp [hctx, hreq, hself, hdev, hcon, stopObjs, closeObjs, enterObjs]

section

variable {c n : Nat} {f : Bytes} {d : Dev} (hr : running d = true) (hf : linkFrameOk d c f = true) (hc : c < 64)
  (ha : isActive d = true)

include hr hf hc

theorem linkFrame_taken : ¬ ((!(running d) || !(linkFrameOk d c f) || decide (64 ≤ c)) = true) := by simp [hr, hf, hc]

include ha

theorem linkState_takes (hn : conCtx d c = none) (hm : mayTake (linkSeen c f d) c = true) :
    linkState c f d = takeCtx c (linkSeen c f d) := by
  have hn' : conCtx (linkSeen c f d) c = none := by rw [conCtx_linkSeen, hn]
  have ha' : ¬ ((!(isActive (linkSeen c f d))) = true) := by
    rw [isActive_linkSeen, ha]
    decide
  refine (if_neg (linkFrame_taken hr hf hc)).trans ((if_neg ha').trans ?_)
  split
  case h_1 m hsome => exact absurd (hsome.symm.trans hn') (by simp)
  case h_2 => exact if_pos hm

/-- PILOT and the shutdown bit that end a session, with the cause that they give it (R300). -/
theorem linkState_stops {cause : Nat} (hn : conCtx d c = some n)
    (hcause : ((byteAt f 17).testBit 1 = true ∧ cause = 13) ∨ ((byteAt f 17).testBit 1 = false ∧ byteAt f 15 = 1 ∧ cause = 4)) :
    linkState c f d = sesStop n cause false (linkSeen c f d) := by
  have hn' : conCtx (linkSeen c f d) c = some n := by rw [conCtx_linkSeen, hn]
  have ha' : ¬ ((!(isActive (linkSeen c f d))) = true) := by
    rw [isActive_linkSeen, ha]
    decide
  refine (if_neg (linkFrame_taken hr hf hc)).trans ((if_neg ha').trans ?_)
  split
  case h_2 hnone => exact absurd (hnone.symm.trans hn') (by simp)
  case h_1 m hsome =>
    obtain rfl : m = n := Option.some.inj (hsome.symm.trans hn')
    rcases hcause with ⟨hbit, rfl⟩ | ⟨hbit, hpilot, rfl⟩
    · exact if_pos hbit
    · exact (if_neg (by simp [hbit])).trans (if_pos (by simp [hpilot]))

end

section

variable {s : State} {c : Nat} {f : Bytes} (hr : running s.dev = true) (ha : isActive s.dev = true) (hc : c < 64)

include hr hc

theorem linkState_completes {x : Dev} {P : Dev → Prop} (hx : linkState c f (fresh s) = x) (hP : ∀ e, Follows x e → P e) :
    Completes (.linkState c f) s P := partRun_completes rfl (by simp [hc]) hr hx hP

theorem linkStateTimeout_completes (h : 300 < on s.dev (linkObj c) 4) : Completes (.linkStateTimeout c) s (fun e =>
    on e (linkObj c) 1 = 0 ∧ on e (linkObj c) 2 = 0 ∧ Framed [] [(linkObj c, 1), (linkObj c, 2)] s.dev e) := by
  have hx : linkTimeout c (fresh s) = put (linkObj c) 2 0 (put (linkObj c) 1 0 (fresh s)) :=
    if_pos (by simp [hr, hc, on_fresh, h])
  refine partRun_completes rfl (by simp [hc]) hr hx (fun e he => ⟨?_, ?_, ?_⟩)
  · rw [he.on_of_not_counted (by decide) (counted_linkObj c 1), on_put_other _ _ _ _ _ _ (by simp [okey]), on_put_same]
  · rw [he.on_of_not_counted (by decide) (counted_linkObj c 2), on_put_same]
  · exact .of_fresh (.follow (.put (by decide) (by simp) (.put (by decide) (by simp) (.refl _ _ _))) he)

include ha

variable (hf : linkFrameOk s.dev c f = true)

include hf

/-- R293: a vehicle that is plugged in with its link up takes the next free context. -/
theorem linkState_matches {n : Nat} (hp : byteAt f 15 = 2 ∨ byteAt f 15 = 3) (hl : byteAt f 16 = 2)
    (hm : isMcs s.dev c = false ∨ featOn s.dev 2 = true) (hn : conCtx s.dev c = none) (hfree : nextFree s.dev = some n) :
    Completes (.linkState c f) s (fun e =>
      sesState e n = 1 ∧ conCtx e c = some n ∧ sesConn e n = c ∧ e.ses.last = n ∧ on e (linkObj c) 1 = byteAt f 15 ∧
        on e (linkObj c) 2 = 2 ∧
        (∀ m, m < 256 → m ≠ n → sesState e m = sesState s.dev m ∧ ctx e m = ctx s.dev m)) := by
  have hfree' : nextFree (linkSeen c f (fresh s)) = some n := (nextFree_linkSeen c f (fresh s)).trans hfree
  have hlt : n < 256 := by
    obtain ⟨i, _, hi⟩ := List.mem_map.1 (List.mem_of_find?_eq_some hfree)
    omega
  refine linkState_completes hr hc (linkState_takes (d := fresh s) hr hf hc ha hn (mayTake_linkSeen c f _ hp hl hm)) (fun e he => ?_)
  obtain ⟨hst, hcon, hconn, hlast, hctx, hframed⟩ := takeCtx_takes hc hlt hfree'
  have hses : e.ses = _ := he.part .ses
  have hlink : ∀ sub, sub < 256 → on e (linkObj c) sub = on (linkSeen c f (fresh s)) (linkObj c) sub := fun sub hs =>
    (he.on_of_not_counted hs (counted_linkObj c sub)).trans (hframed.on_eq hs (counted_linkObj c sub) (linkObj_notMem hc n sub).1)
  refine ⟨?_, ?_, ?_, ?_, ?_, ?_, fun m _ hmn => ⟨?_, ?_⟩⟩
  · exact (he.on_of_not_counted (by decide) (counted_oSes _ _ _)).trans hst
  · rw [← hcon, conCtx, conCtx, he.on_of_not_counted (by decide) (counted_oCon _ _ _)]
  · exact (he.on_of_not_counted (by decide) (counted_oSes _ _ _)).trans hconn
  · rw [hses, hlast]
  · rw [hlink 1 (by decide), on_linkSeen_pilot]
  · rw [hlink 2 (by decide), on_linkSeen_link, hl]
  · refine (he.on_of_not_counted (by decide) (counted_oSes _ _ _)).trans ((hframed.on_eq (by decide) (counted_oSes _ _ _) ?_).trans
      (sesState_linkSeen c f _ m))
    have hother : oSes m 0 ≠ oSes n 0 := by simp only [oSes]; omega
    have hcon : oSes m 0 ≠ oCon c 0x51 := by simp only [oSes, oCon]; omega
    simp [notMem_ctxObjs (.inr ⟨m, hmn, rfl⟩), oSes_notMem_enterObjs hc hother, hcon]
  · exact (ctx_congr (by rw [hses]) m).trans ((hctx m hmn).trans (ctx_congr (linkSeen_ses c f (fresh s)).1 m))

/-- R293: with every context taken the vehicle gets none, and SES_NO_CONTEXT tells it. -/
theorem linkState_finds_none (hp : byteAt f 15 = 2 ∨ byteAt f 15 = 3) (hl : byteAt f 16 = 2)
    (hm : isMcs s.dev c = false ∨ featOn s.dev 2 = true) (hn : conCtx s.dev c = none) (hfree : nextFree s.dev = none) :
    Completes (.linkState c f) s (fun e =>
      raised e 0x3A01 noInst = true ∧ conCtx e c = none ∧ ∀ m, m < 256 → sesState e m = sesState s.dev m) := by
  have hx := (linkState_takes (d := fresh s) hr hf hc ha hn (mayTake_linkSeen c f _ hp hl hm)).trans
    (takeCtx_none ((nextFree_linkSeen c f (fresh s)).trans hfree))
  refine linkState_completes hr hc hx (fun e he => ?_)
  have hall := (raise_follows 0x3A01 noInst c (linkSeen c f (fresh s))).trans he
  refine ⟨he.raised _ _ _ (raised_raise _ _ _ _), ?_, fun m _ => ?_⟩
  · rw [conCtx, hall.on_of_not_counted (by decide) (counted_oCon _ _ _), ← conCtx, conCtx_linkSeen]
    exact hn
  · exact (hall.on_of_not_counted (by decide) (counted_oSes _ _ _)).trans (sesState_linkSeen c f _ m)

/-- R300: a vehicle that is unplugged, or whose connector reports an emergency, ends its session. -/
theorem linkState_ends {n cause : Nat} (hn : conCtx s.dev c = some n) (hconn : sesConn s.dev n = c) (h3 : 3 ≤ sesState s.dev n)
    (h7 : sesState s.dev n ≤ 7)
    (hcause : ((byteAt f 17).testBit 1 = true ∧ cause = 13) ∨ ((byteAt f 17).testBit 1 = false ∧ byteAt f 15 = 1 ∧ cause = 4)) :
    Completes (.linkState c f) s (fun e =>
      sesEnded n c cause false s.dev e ∧ on e (linkObj c) 1 = byteAt f 15 ∧ on e (linkObj c) 3 = byteAt f 17) := by
  refine linkState_completes hr hc (linkState_stops (d := fresh s) hr hf hc ha hn hcause) (fun e he => ?_)
  have hconn' : sesConn (linkSeen c f (fresh s)) n = c := (sesConn_linkSeen c f _ n).trans hconn
  have hst3 : 3 ≤ sesState (linkSeen c f (fresh s)) n := h3.trans_eq (sesState_linkSeen c f (fresh s) n).symm
  have hst7 : sesState (linkSeen c f (fresh s)) n ≤ 7 := (sesState_linkSeen c f (fresh s) n).trans_le h7
  have hends := sesStop_ends (cause := cause) (resumable := false) hst3 hst7 (hconn'.trans_lt hc)
  have hkeeps := (sesStop_contained (cause := cause) (resumable := false) hst3 hst7 (hconn'.trans_lt hc)).framed
  rw [hconn'] at hends hkeeps
  have hlink : ∀ sub, sub < 256 → on e (linkObj c) sub = on (linkSeen c f (fresh s)) (linkObj c) sub := fun sub hs =>
    (he.on_of_not_counted hs (counted_linkObj c sub)).trans (hkeeps.on_eq hs (counted_linkObj c sub) (linkObj_notMem hc n sub).2)
  refine ⟨?_, (hlink 1 (by decide)).trans (on_linkSeen_pilot c f _), (hlink 3 (by decide)).trans (on_linkSeen_flags c f _)⟩
  obtain ⟨hstate, hbooked, htime, hraised⟩ := sesEnded_follows hends he
  rw [anyClosed_linkSeen] at hstate
  rw [civilNs_linkSeen] at htime
  exact ⟨hstate, hbooked, htime, hraised⟩

end

/-- Settles O37: LINK_STATE publishes its payload (`linkSeen`), on which a context is taken (`takeCtx_takes`) or a session ends
(`sesStop_ends`). -/
theorem linkStateStartsAndEnds : Obligations.LinkStateStartsAndEnds := by
  unfold Obligations.LinkStateStartsAndEnds
  refine fun s c hr ha hc => ⟨fun f n hf hp hl hm hn hfree => linkState_matches hr ha hc hf hp hl hm hn hfree,
    fun f hf hp hl hm hn hfree => linkState_finds_none hr ha hc hf hp hl hm hn hfree, fun f n hf h1 hbit hn hconn h3 h7 => ?_,
    fun f n hf hbit hn hconn h3 h7 => ?_, linkStateTimeout_completes hr hc⟩
  · exact (linkState_ends hr ha hc hf hn hconn h3 h7 (.inr ⟨hbit, h1, rfl⟩)).mono
      (fun _ ⟨hends, hpilot, _⟩ => ⟨hends, hpilot.trans h1⟩)
  · exact (linkState_ends hr ha hc hf hn hconn h3 h7 (.inl ⟨hbit, rfl⟩)).mono (fun _ ⟨hends, _, hflags⟩ => ⟨hends, hflags⟩)

end Sys2Proof

/-! What every command is: an update of the device, or one of the device and of the memory that DMA addresses (R38, R425, R431). -/

namespace Sys2Proof

open Machine

/-- A command that does not reach the memory acts on the device alone. -/
theorem exec_act {c : Instr} (h : reachesMemory c = false) (s : State) : ∃ f, exec c s = act f s := by
  cases c <;> first
    | (cases h; done)
    | exact ⟨_, rfl⟩

/-- The updates that the commands of DMA, of a start and of a boundary token make. -/
inductive MemUpdate : (Dev → Mem → Dev × Mem) → Prop where
  | start (x : StartIn) : MemUpdate (startMem x)
  | resume (f : Dev → Dev) : MemUpdate (resumed f)
  | post (named : Bool) (r : Nat) (x : Desc) : MemUpdate (onPartMem named (moving (dmaPost r x)))
  | complete (named : Bool) (r : Nat) (err : Bool) : MemUpdate (onPartMem named (moving (dmaComplete r err)))
  | timeout (named : Bool) (r : Nat) : MemUpdate (onPartMem named (moving (dmaTimeout r)))

theorem exec_actMem {c : Instr} (h : reachesMemory c = true) (s : State) : ∃ f, MemUpdate f ∧ exec c s = actMem f s := by
  cases c
  case startUp x => exact ⟨_, .start x, rfl⟩
  case norCopyWritten num sub => exact ⟨_, .resume _, rfl⟩
  case nullDesc r x => exact ⟨_, .post _ r _, rfl⟩
  case copyDesc r x => exact ⟨_, .post _ r _, rfl⟩
  case deinterleaveDesc r x => exact ⟨_, .post _ r _, rfl⟩
  case bitplaneDesc r x => exact ⟨_, .post _ r _, rfl⟩
  case descriptorComplete r err => exact ⟨_, .complete _ r err, rfl⟩
  case writeResponseTimeout r => exact ⟨_, .timeout _ r, rfl⟩
  case ringStartWrite role mask => exact ⟨_, .resume _, rfl⟩
  case emmcReinit ok => exact ⟨_, .resume _, rfl⟩
  case boundaryToken x => exact ⟨_, .resume (boundary x), rfl⟩
  all_goals cases h

/-- Settles O1: by the two shapes of a queue. -/
theorem stepRunsTheFront : Obligations.StepRunsTheFront := by
  unfold Obligations.StepRunsTheFront
  refine ⟨fun c q s => rfl, fun s h => ?_⟩
  unfold step
  rw [h]

/-- Settles O2: a command acts on the device alone (`exec_act`), or on the memory as well (`exec_actMem`). -/
theorem everyCommandAnswers : Obligations.EveryCommandAnswers := by
  intro c s
  cases hc : reachesMemory c with
  | false =>
    obtain ⟨f, hf⟩ := exec_act hc s
    exact ⟨_, hf, rfl, fun _ => rfl⟩
  | true =>
    obtain ⟨f, -, hf⟩ := exec_actMem hc s
    exact ⟨_, hf, rfl, fun h => by cases h⟩

/-- Settles O3: the state at reset lists no byte of memory. -/
theorem resetMeetsTheInvariant : Obligations.ResetMeetsTheInvariant := ⟨rfl, rfl, rfl, fun _ => rfl⟩

end Sys2Proof

/-! Rows whose index names nothing (log entry 2). -/

namespace Sys2Proof

open Machine

/-- A command whose update does nothing leaves the device as it was. -/
theorem act_idle {c : Instr} {s : State} {f : Dev → Dev} (hc : exec c s = act f s) (hf : f (fresh s) = fresh s) :
    Completes c s (Framed [] [] s.dev) :=
  act_completes hc (fun _ h => .fresh_follows (hf ▸ h) _ _)

theorem onPart_idle {c : Instr} {s : State} {named : Bool} {f : Dev → Dev} (hc : exec c s = act (onPart named f) s)
    (hn : named = false) : Completes c s (Framed [] [] s.dev) :=
  act_idle hc (if_neg (by simp [hn]))

theorem runSlot_of_none {kern i : Nat} {missing : Bind → Dev → Dev} {f : Dev → Image → SlotR → List Int → KOut} {r : SlotReport}
    {d : Dev} (h : slotAt d i = none) : runSlot kern missing f i r d = d := by
  unfold runSlot
  rw [h]
  cases img? d <;> rfl

theorem runSeq_of_none {stage : Bool} {i : Nat} {f : Dev → Image → SlotR → List Int → KOut} {r : SlotReport} {d : Dev}
    (h : slotAt d i = none) : runSeq stage f i r d = d := by
  unfold runSeq
  rw [h]
  cases img? d <;> rfl

/-- The run of a slot that the image in force does not have does nothing. -/
theorem run_idle {c : Instr} {x : SlotRun} {s : State} (hc : runOf c = some x) (h : slotAt s.dev x.slot = none) :
    Completes c s (Framed [] [] s.dev) := by
  cases c <;> first
    | (cases hc; exact act_idle rfl (runSlot_of_none h))
    | (cases hc; exact act_idle rfl (runSeq_of_none h))
    | cases hc

/-- Settles O4: the index is compared with the part's before anything else (`onPart_idle`), and a slot is looked up in the image
(`run_idle`). -/
theorem rowsThatNameNothing : Obligations.RowsThatNameNothing := by
  intro s n g r
  refine ⟨fun c hc hn => ?_, fun c hc hn => ?_, fun c hc hn => ?_, fun x c hc _ h => run_idle hc h⟩
  · have h32 : decide (n < 32) = false := by simpa using hn
    simp only [List.mem_cons, List.not_mem_nil, or_false] at hc
    rcases hc with rfl | rfl | rfl | rfl | rfl <;> exact onPart_idle rfl (by simp [h32])
  · have h64 : decide (n < 64) = false := by simpa using hn
    simp only [List.mem_cons, List.not_mem_nil, or_false] at hc
    rcases hc with rfl | rfl <;> exact onPart_idle rfl h64
  · have h32 : decide (n < 32) = false := by simpa using hn
    simp only [List.mem_cons, List.not_mem_nil, or_false] at hc
    rcases hc with rfl | rfl <;> exact onPart_idle rfl h32

end Sys2Proof

/-! The memory that DMA addresses (R425): what a byte written reads as, and the canonical form. -/

namespace Sys2Proof.Machine

/-! ### Reading what has been written -/

theorem memRead_memIns_same (m : Mem) (k : Nat) (v : Byte) : memRead (memIns m k v) k = v := by
  induction m with
  | nil => simp [memIns, memRead]
  | cons p m ih =>
    obtain ⟨a, b⟩ := p
    unfold memIns
    split
    · simp [memRead]
    · split
      · simp [memRead]
      · rename_i h
        simp [memRead, Ne.symm h, ih]

theorem memRead_memIns_other (m : Mem) {k j : Nat} (v : Byte) (h : j ≠ k) : memRead (memIns m k v) j = memRead m j := by
  induction m with
  | nil => simp [memIns, memRead, Ne.symm h]
  | cons p m ih =>
    obtain ⟨a, b⟩ := p
    unfold memIns
    split
    · simp [memRead, Ne.symm h]
    · split
      · subst_vars; simp [memRead, Ne.symm h]
      · simp [memRead, ih]

theorem memRead_memDel_same (m : Mem) (k : Nat) : memRead (memDel m k) k = memDefault := by
  induction m with
  | nil => rfl
  | cons p m ih =>
    obtain ⟨a, b⟩ := p
    unfold memDel at *
    by_cases h : a = k <;> simp [h, memRead, ih]

theorem memRead_memDel_other (m : Mem) {k j : Nat} (h : j ≠ k) : memRead (memDel m k) j = memRead m j := by
  induction m with
  | nil => rfl
  | cons p m ih =>
    obtain ⟨a, b⟩ := p
    unfold memDel at *
    by_cases ha : a = k
    · subst ha; simp [memRead, ih, Ne.symm h]
    · simp [ha, memRead, ih]

@[simp] theorem memRead_memWrite_same (m : Mem) (k : Nat) (v : Byte) : memRead (memWrite m k v) k = v := by
  unfold memWrite
  split
  · rw [memRead_memDel_same]; exact Eq.symm ‹_›
  · exact memRead_memIns_same m k v

theorem memRead_memWrite_other (m : Mem) {k j : Nat} (v : Byte) (h : j ≠ k) : memRead (memWrite m k v) j = memRead m j := by
  unfold memWrite
  split
  · exact memRead_memDel_other m h
  · exact memRead_memIns_other m v h

/-- A byte string lies where it has been written, and every other byte is as it was. -/
theorem memRead_memWriteN (bs : Bytes) (m : Mem) (k j : Nat) :
    memRead (memWriteN m k bs) j = if k ≤ j ∧ j < k + bs.length then bs.getD (j - k) 0 else memRead m j := by
  induction bs generalizing m k with
  | nil => simp [memWriteN]
  | cons b bs ih =>
    rw [memWriteN, ih]
    rcases Nat.lt_trichotomy j k with h | rfl | h
    · rw [if_neg (by omega), if_neg (by omega), memRead_memWrite_other _ _ (by omega)]
    · simp
    · have hj : j - k = (j - (k + 1)) + 1 := by omega
      by_cases hin : j < k + 1 + bs.length
      · rw [if_pos ⟨by omega, hin⟩, if_pos ⟨by omega, by simp; omega⟩, hj, List.getD_cons_succ]
      · rw [if_neg (by omega), if_neg (by simp; omega), memRead_memWrite_other _ _ (by omega)]

theorem memRead_memWriteN_outside {bs : Bytes} {k j : Nat} (m : Mem) (h : j < k ∨ k + bs.length ≤ j) :
    memRead (memWriteN m k bs) j = memRead m j := by
  rw [memRead_memWriteN, if_neg (by omega)]

theorem memRead_memWriteN_inside {bs : Bytes} {i : Nat} (m : Mem) (k : Nat) (h : i < bs.length) :
    memRead (memWriteN m k bs) (k + i) = bs.getD i 0 := by
  rw [memRead_memWriteN, if_pos ⟨by omega, by omega⟩, Nat.add_sub_cancel_left]

/-! ### The canonical form -/

/-- The bound below the first address of a memory. -/
def boundOk : Option Nat → Nat → Prop
  | some l, a => l < a
  | none, _ => True

theorem memWfFrom_cons {lo : Option Nat} {a : Nat} {b : Byte} {m : Mem} :
    memWfFrom lo ((a, b) :: m) = true ↔ boundOk lo a ∧ b ≠ memDefault ∧ memWfFrom (some a) m = true := by
  cases lo <;> simp [memWfFrom, boundOk, and_assoc]

theorem memWfFrom_mono {lo : Option Nat} {k : Nat} {m : Mem} (hk : boundOk lo k) (h : memWfFrom (some k) m = true) :
    memWfFrom lo m = true := by
  cases m with
  | nil => cases lo <;> rfl
  | cons p m =>
    obtain ⟨a, b⟩ := p
    obtain ⟨ha, hb, hm⟩ := memWfFrom_cons.1 h
    refine memWfFrom_cons.2 ⟨?_, hb, hm⟩
    cases lo with
    | none => trivial
    | some l => exact Nat.lt_trans hk ha

theorem memIns_keepsWf {lo : Option Nat} {m : Mem} {k : Nat} {v : Byte} (h : memWfFrom lo m = true) (hk : boundOk lo k)
    (hv : v ≠ memDefault) : memWfFrom lo (memIns m k v) = true := by
  induction m generalizing lo with
  | nil => exact memWfFrom_cons.2 ⟨hk, hv, rfl⟩
  | cons p m ih =>
    obtain ⟨a, b⟩ := p
    obtain ⟨ha, hb, hm⟩ := memWfFrom_cons.1 h
    unfold memIns
    split
    case isTrue hlt => exact memWfFrom_cons.2 ⟨hk, hv, memWfFrom_cons.2 ⟨hlt, hb, hm⟩⟩
    case isFalse hlt =>
      split
      case isTrue heq => exact memWfFrom_cons.2 ⟨hk, hv, heq ▸ hm⟩
      case isFalse hne => exact memWfFrom_cons.2 ⟨ha, hb, ih hm (by simp only [boundOk]; omega)⟩

theorem memDel_keepsWf {lo : Option Nat} {m : Mem} {k : Nat} (h : memWfFrom lo m = true) : memWfFrom lo (memDel m k) = true := by
  induction m generalizing lo with
  | nil => exact h
  | cons p m ih =>
    obtain ⟨a, b⟩ := p
    obtain ⟨ha, hb, hm⟩ := memWfFrom_cons.1 h
    unfold memDel at *
    by_cases hk : a = k
    · simpa [hk] using ih (memWfFrom_mono ha hm)
    · simpa [hk] using memWfFrom_cons.2 ⟨ha, hb, ih hm⟩

theorem memWriteN_keepsWf {m : Mem} (h : Memory.wf m = true) (k : Nat) (bs : Bytes) : Memory.wf (memWriteN m k bs) = true := by
  induction bs generalizing m k with
  | nil => exact h
  | cons b bs ih =>
    refine ih ?_ (k + 1)
    unfold memWrite
    split
    · exact memDel_keepsWf h
    · exact memIns_keepsWf h trivial ‹_›

end Sys2Proof.Machine

/-! What the DMA engine writes: byte strings at addresses, one after another (R423, R428 to R431). A property of the memory that such a
write keeps is kept by the engine. -/

namespace Sys2Proof.Machine

/-- A write of a byte string keeps the property. -/
def KeptByWrites (P : Mem → Prop) : Prop := ∀ m k bs, P m → P (memWriteN m k bs)

theorem foldl_keeps {α β : Type} {P : α → Prop} {f : α → β → α} (hf : ∀ a b, P a → P (f a b)) (l : List β) {a : α} (h : P a) :
    P (l.foldl f a) := by
  induction l generalizing a with
  | nil => exact h
  | cons b l ih => exact ih (hf a b h)

section

variable {P : Mem → Prop} (hP : KeptByWrites P) {d : Dev} {m : Mem}

include hP

theorem descStart_keeps (x : Desc) (h : P m) : P (descStart d x m).1 := by
  unfold descStart
  dsimp only
  split
  · exact h
  · refine foldl_keeps (P := fun a : Mem × Nat => P a.1) (fun a w ha => ?_) _ h
    split
    · exact ha
    · split
      · exact hP _ _ _ ha
      · exact ha

theorem startNext_keeps (l : List DescS) (first : Bool) (h : P m) : P (startNext d l first m).2 := by
  induction l generalizing first m with
  | nil => exact h
  | cons x l ih =>
    unfold startNext
    split
    · exact ih false h
    · split
      · exact h
      · exact descStart_keeps hP x.desc h

theorem pumpOne_keeps (r : Nat) {a : Dev × Mem} (h : P a.2) : P (pumpOne r a).2 := by
  unfold pumpOne
  split
  · exact startNext_keeps hP _ _ h
  · exact h

theorem serveRings_keeps (l : List Nat) (n : Nat) {a : Dev × Mem} (h : P a.2) : P (serveRings l n a).2 := by
  induction n generalizing a with
  | zero => exact h
  | succ n ih => exact ih (foldl_keeps (P := fun a : Dev × Mem => P a.2) (fun _ r ha => pumpOne_keeps hP r ha) l h)

theorem pump_keeps (r : Nat) (h : P m) : P (pump r d m).2 := serveRings_keeps hP _ _ h

theorem dmaResume_keeps (h : P m) : P (dmaResume d m).2 := by
  unfold dmaResume
  exact foldl_keeps (P := fun a : Dev × Mem => P a.2) (f := fun a l => serveClass l a.1 a.2)
    (fun _ _ ha => serveRings_keeps hP _ _ ha) ringClasses h

theorem dmaPost_keeps (r : Nat) (x : Desc) (h : P m) : P (dmaPost r x d m).2 := by
  unfold dmaPost
  dsimp only
  split
  · exact h
  · split
    · exact h
    · exact pump_keeps hP r h

theorem badDest_keeps (x : Desc) (h : P m) : P (badDest x d m).2 := foldl_keeps (fun _ _ ha => hP _ _ _ ha) _ h

theorem descDone_keeps (r : Nat) (x : DescS) (cause : Nat) (h : P m) : P (descDone r x cause d m).2 := by
  have hb : P (if cause = 0 then (d, m) else badDest x.desc d m).2 := by
    split
    · exact h
    · exact badDest_keeps hP x.desc h
  unfold descDone
  generalize (if cause = 0 then (d, m) else badDest x.desc d m) = b at hb ⊢
  dsimp only
  generalize (if cause = 0 then _ else _ : Dev) = e
  split
  · exact hb
  · exact pump_keeps hP r hb

theorem dmaComplete_keeps (r : Nat) (err : Bool) (h : P m) : P (dmaComplete r err d m).2 := by
  unfold dmaComplete
  split
  · split
    · exact descDone_keeps hP _ _ _ h
    · exact h
  · exact h

theorem dmaTimeout_keeps (r : Nat) (h : P m) : P (dmaTimeout r d m).2 := by
  unfold dmaTimeout
  split
  · split
    · exact descDone_keeps hP _ _ _ h
    · exact h
  · exact h

end

end Sys2Proof.Machine

namespace Sys2Proof

open Machine

theorem delivered_mem (o : Dev × Mem) : (delivered o).2 = o.2 := rfl

/-- Every update of the memory keeps what a write of a byte string keeps and the empty memory has. -/
theorem memUpdate_keeps {P : Mem → Prop} (hP : KeptByWrites P) (h0 : P []) {f : Dev → Mem → Dev × Mem} (hf : MemUpdate f) {d : Dev}
    {m : Mem} (h : P m) : P (f d m).2 := by
  have hpart : ∀ {named : Bool} {g : Dev → Mem → Dev × Mem}, P (g d m).2 → P (onPartMem named g d m).2 := by
    intro named g hg
    unfold onPartMem
    split
    · exact hg
    · exact h
  cases hf with
  | start x =>
    show P (if _ then [] else m)
    split
    · exact h0
    · exact h
  | resume f =>
    unfold resumed
    rw [delivered_mem]
    exact dmaResume_keeps hP h
  | post named r x => exact hpart (g := moving _) (by unfold moving; rw [delivered_mem]; exact dmaPost_keeps hP r x h)
  | complete named r err => exact hpart (g := moving _) (by unfold moving; rw [delivered_mem]; exact dmaComplete_keeps hP r err h)
  | timeout named r => exact hpart (g := moving _) (by unfold moving; rw [delivered_mem]; exact dmaTimeout_keeps hP r h)

/-- A command leads from a memory in canonical form to one in canonical form. -/
theorem exec_keepsInv {c : Instr} {s t : State} (h : Inv s) (he : exec c s = .next t) : Inv t := by
  cases hc : reachesMemory c with
  | false =>
    obtain ⟨f, hf⟩ := exec_act hc s
    cases hf.symm.trans he
    exact h
  | true =>
    obtain ⟨f, hf, hx⟩ := exec_actMem hc s
    cases hx.symm.trans he
    exact memUpdate_keeps (P := fun m => Memory.wf m = true) (fun m k bs hm => memWriteN_keepsWf hm k bs) rfl hf h

/-- Settles O5: an idle step changes nothing, and a command keeps the canonical form (`exec_keepsInv`). -/
theorem stepsKeepTheInvariant : Obligations.StepsKeepTheInvariant := by
  intro s t h hst
  unfold step at hst
  split at hst
  case h_1 => cases hst; exact h
  case h_2 c q _ => exact exec_keepsInv (s := s.withPending q) h hst

end Sys2Proof

/-! The metered supply: the frames of what metering does to flags and channels, and the conditions of the supply (R321, R325, R327). -/

namespace Sys2Proof

open Machine

/-! ### Open words of a channel -/

section

variable {ps : List Part} {ks : List (Nat × Nat)} {d e : Dev} {m bit : Nat}

theorem raiseEnd_follows (code inst data : Nat) (d : Dev) : Follows d (raiseEnd code inst data d) :=
  ⟨onlyParts_of_fields rfl, fun _ _ _ _ => rfl, rfl, fun _ _ _ h => raised_raiseEnd_mono _ _ _ _ _ _ _ h, fun _ h => h, fun _ _ h => h⟩

theorem Framed.raiseEnd {code inst data : Nat} (h : Framed ps ks d e) : Framed ps ks d (raiseEnd code inst data e) :=
  h.follow (raiseEnd_follows _ _ _ _)

theorem Framed.auxFlags (hk : (0x2180 + m, 1) ∈ ks) (h : Framed ps ks d e) : Framed ps ks d (auxFlags m e) :=
  .ite h (.put (by decide) hk h)

theorem Framed.intFlag (hp : .legal ∈ ps) (hk : (0x2180 + m, 1) ∈ ks) (h : Framed ps ks d e) : Framed ps ks d (intFlag m bit e) :=
  .legal hp (.auxFlags hk (.legal hp h _)) _

theorem Framed.intSign {pos neg : Bool} (hp : .legal ∈ ps) (hk : (0x2180 + m, 1) ∈ ks) (h : Framed ps ks d e) :
    Framed ps ks d (intSign m pos neg e) := .ite h (.auxFlags hk (.legal hp h _))

theorem auxFlags_legal (m : Nat) (d : Dev) : (auxFlags m d).legal = d.legal := by
  unfold auxFlags
  dsimp only
  split <;> rfl

theorem auxFlags_lanes (m : Nat) (d : Dev) : (auxFlags m d).lanes = d.lanes := by
  unfold auxFlags
  dsimp only
  split <;> rfl

/-- A flag of a channel leaves what was sorted into it. -/
theorem chanS_intFlag (m bit k : Nat) (d : Dev) : ∃ tf, chanS (intFlag m bit d) k = { chanS d k with tf := tf } := by
  have h : ∀ x, x.legal.chans = d.legal.chans → chanS x k = chanS d k := fun x hx => by rw [chanS, hx]; rfl
  unfold intFlag
  by_cases hk : m = k
  · subst hk
    rw [chanS_modCh_same, h _ (by rw [auxFlags_legal]; rfl)]
    exact ⟨_, rfl⟩
  · rw [chanS_modCh_other _ _ _ _ hk, h _ (by rw [auxFlags_legal]; rfl)]
    exact ⟨_, rfl⟩

theorem intFlag_lanes (m bit : Nat) (d : Dev) : (intFlag m bit d).lanes = d.lanes := auxFlags_lanes m _

theorem chanS_congr (h : e.legal = d.legal) (k : Nat) : chanS e k = chanS d k := by rw [chanS, h]; rfl

theorem intSign_chanS (m : Nat) (pos neg : Bool) (k : Nat) (d : Dev) : chanS (intSign m pos neg d) k = chanS d k := by
  unfold intSign
  split
  · rfl
  · exact chanS_congr (auxFlags_legal m _) k

/-- An object outside the open word of a channel. -/
theorem on_intFlag {num sub : Nat} (hs : sub < 256) (hn : num < 0x3200) (h : ¬(num = 0x2180 + m ∧ sub = 1)) :
    on (intFlag m bit d) num sub = on d num sub :=
  (Framed.intFlag (ps := [.legal]) (ks := [(0x2180 + m, 1)]) (by simp) (by simp) (.refl _ _ d)).on_eq hs (counted_of_lt _ hn)
    (by simpa using h)

theorem meters_running (h : meters d = true) : running d = true := ((Bool.and_eq_true _ _).mp h).1

end

/-! ### Conditions of the supply -/

section

variable {s : State} {k : Nat}

/-- The condition of an intake begins: its bit of MET.STATUS, the flag of its channel, its event. -/
def supplyBegins (code k bit flag : Nat) (d : Dev) : Dev := raise code k 0 (intFlag (64 + k) flag (setStatus 0x2000 0 bit d))

/-- The condition of an intake ends. -/
def supplyEnds (code k bit : Nat) (d : Dev) : Dev := raiseEnd code k 0 (clrStatus 0x2000 0 bit d)

theorem supplyBegins_completes {c : Instr} {f : Dev → Dev} {code bit flag : Nat} (hc : exec c s = act (onPart (decide (k < 2)) f) s)
    (hk : k < 2) (hx : f (fresh s) = supplyBegins code k bit flag (fresh s)) : Completes c s (fun e =>
      raised e code k = true ∧ on e 0x2000 0 = setBit (on s.dev 0x2000 0) bit ∧
        Framed [.legal] [(0x2000, 0), (0x2180 + 64 + k, 1)] s.dev e) := by
  refine part_completes hc (by simpa using hk) hx (fun e he => ⟨he.raised _ _ _ (raised_raise _ _ _ _), ?_, .of_fresh (.follow ?_ he)⟩)
  · rw [he.on_low (by decide) (by decide), supplyBegins, on_raise, on_intFlag (by decide) (by decide) (by omega), on_setStatus_same,
      on_fresh]
  · exact .raise (.intFlag (by simp) (by simp [← Nat.add_assoc]) (.put (by decide) (by simp) (.refl _ _ _)))

theorem supplyEnds_completes {c : Instr} {f : Dev → Dev} {code bit : Nat} (hc : exec c s = act (onPart (decide (k < 2)) f) s)
    (hk : k < 2) (hx : f (fresh s) = supplyEnds code k bit (fresh s)) : Completes c s (fun e =>
      raised e code k true = true ∧ on e 0x2000 0 = clearBit (on s.dev 0x2000 0) bit ∧ Framed [] [(0x2000, 0)] s.dev e) := by
  refine part_completes hc (by simpa using hk) hx (fun e he => ⟨he.raised _ _ _ (raised_raiseEnd _ _ _ _), ?_, .of_fresh (.follow ?_ he)⟩)
  · rw [he.on_low (by decide) (by decide), supplyEnds, on_raiseEnd, on_clrStatus_same, on_fresh]
  · exact .raiseEnd (.put (by decide) (by simp) (.refl _ _ _))

/-- Settles O31: a condition that stands where its bit is clear begins, one that is over where its bit is set ends. -/
theorem supplyConditions : Obligations.SupplyConditions := by
  intro s k hm hk w q
  have hgate : (!(meters (fresh s)) || decide (2 ≤ k)) = false := by
    have : meters (fresh s) = true := hm
    simp [this, hk]
  have hseq : metPhaseSeq k (fresh s) = _ := if_neg (ne_true_of_eq_false hgate)
  have hneu : metNeutral k (fresh s) = _ := if_neg (ne_true_of_eq_false hgate)
  have hclear : ∀ b, w.testBit b = false → (!((on (fresh s) 0x2000 0).testBit b)) = true := fun b h => congrArg (!·) h
  have hset : ∀ b, w.testBit b = true → ¬ (!((on (fresh s) 0x2000 0).testBit b)) = true := fun b h h' => by
    rw [show (on (fresh s) 0x2000 0).testBit b = true from h] at h'
    cases h'
  refine ⟨fun hr hb => ?_, fun hr hb => ?_, fun hr hb => ?_, fun hr hb => ?_⟩
  · exact supplyBegins_completes (flag := 4) rfl hk (hseq.trans (if_pos ⟨hr, hclear _ hb⟩))
  · exact supplyEnds_completes rfl hk (hseq.trans ((if_neg (fun h => hset _ hb h.2)).trans (if_pos ⟨hr, hb⟩)))
  · exact supplyBegins_completes (flag := 5) rfl hk (hneu.trans (if_pos ⟨hr, hclear _ hb⟩))
  · exact supplyEnds_completes rfl hk (hneu.trans ((if_neg (fun h => hset _ hb h.2)).trans (if_pos ⟨hr, hb⟩)))

end

end Sys2Proof

/-! Metered energy: sorting loses nothing, and what becomes of a metering block (R131, R314, R316 to R318, R420). -/

namespace Sys2Proof

open Machine

/-! ### Sorting (R316) -/

section

variable {dm : Nat} {q : Int} {c : ChanS}

theorem sortQ_imported : (sortQ dm q c).uImp * dm + (sortQ dm q c).rImp = c.uImp * dm + c.rImp + q.toNat := by
  have hdiv := Nat.div_add_mod (c.rImp + q.toNat) dm
  unfold sortQ
  split
  case isTrue =>
    dsimp only
    rw [Nat.add_mul, Nat.mul_comm (_ / dm)]
    omega
  case isFalse =>
    have h0 : q.toNat = 0 := by omega
    split <;> rw [h0] <;> rfl

theorem sortQ_exported : (sortQ dm q c).uExp * dm + (sortQ dm q c).rExp = c.uExp * dm + c.rExp + (-q).toNat := by
  have hdiv := Nat.div_add_mod (c.rExp + q.natAbs) dm
  unfold sortQ
  split
  case isTrue =>
    have h0 : (-q).toNat = 0 := by omega
    rw [h0]
    rfl
  case isFalse =>
    split
    case isTrue =>
      dsimp only
      rw [Nat.add_mul, Nat.mul_comm (_ / dm)]
      omega
    case isFalse =>
      have h0 : (-q).toNat = 0 := by omega
      rw [h0]
      rfl

theorem sortQ_residue_imp (hd : 0 < dm) (h : c.rImp < dm) : (sortQ dm q c).rImp < dm := by
  unfold sortQ
  split
  case isTrue => exact Nat.mod_lt _ hd
  case isFalse => split <;> exact h

theorem sortQ_residue_exp (hd : 0 < dm) (h : c.rExp < dm) : (sortQ dm q c).rExp < dm := by
  unfold sortQ
  split
  case isTrue => exact h
  case isFalse =>
    split
    case isTrue => exact Nat.mod_lt _ hd
    case isFalse => exact h

/-- Nothing is lost, quantity by quantity. -/
theorem sorted_conserved (hd : 0 < dm) (qs : List Int) (c : ChanS) :
    let e := qs.foldl (fun c q => sortQ dm q c) c
    e.uImp * dm + e.rImp = c.uImp * dm + c.rImp + (qs.map (fun q => q.toNat)).sum ∧
      e.uExp * dm + e.rExp = c.uExp * dm + c.rExp + (qs.map (fun q => (-q).toNat)).sum ∧
      (c.rImp < dm → e.rImp < dm) ∧ (c.rExp < dm → e.rExp < dm) := by
  induction qs generalizing c with
  | nil => exact ⟨rfl, rfl, id, id⟩
  | cons q qs ih =>
    obtain ⟨himp, hexp, hri, hre⟩ := ih (sortQ dm q c)
    have hqi := sortQ_imported (dm := dm) (q := q) (c := c)
    have hqe := sortQ_exported (dm := dm) (q := q) (c := c)
    refine ⟨?_, ?_, fun h => hri (sortQ_residue_imp hd h), fun h => hre (sortQ_residue_exp hd h)⟩
    · simp only [List.foldl_cons, List.map_cons, List.sum_cons]
      omega
    · simp only [List.foldl_cons, List.map_cons, List.sum_cons]
      omega

end

/-! ### Blocks of a connector -/

section

variable {c num : Nat} {b body : Bytes} {d e : Dev}

theorem Framed.modMetro {ps : List Part} {ks : List (Nat × Nat)} {g : MetroS → MetroS} (hp : .lanes ∈ ps) (h : Framed ps ks d e) :
    Framed ps ks d (modMetro c g e) := .lanes hp h _

/-- A discarded block: its flag, its count, its event. -/
theorem metroDiscard_framed (c why : Nat) (hc : c < 64) (d : Dev) :
    Framed [.legal] [(0x209, c + 1), (0x2180 + c, 1)] d (metroDiscard c why d) :=
  .raise (.intFlag (by simp) (by simp) (.put (by omega) (by simp) (.refl _ _ d)))

theorem on_metroDiscard (c why : Nat) (hc : c < 64) (d : Dev) :
    on (metroDiscard c why d) 0x209 (c + 1) = incSat 32 (on d 0x209 (c + 1)) := by
  rw [metroDiscard, on_raise, on_intFlag (by omega) (by decide) (by omega), on_incr_same]

theorem metroDiscard_lanes (c why : Nat) (d : Dev) : (metroDiscard c why d).lanes = d.lanes := intFlag_lanes c 2 _

theorem chanS_metroDiscard (c why m : Nat) (d : Dev) : ∃ tf, chanS (metroDiscard c why d) m = { chanS d m with tf := tf } :=
  chanS_intFlag c 2 m _

/-- The state of a connector that has accepted the block `num`. -/
def acceptedUpTo (num : Nat) (x : MetroS) : MetroS :=
  { x with lastAcc := some num, requested := x.requested.filter (fun n => decide (num < n)),
           wait := x.wait.filter (fun p => decide (num < p.1)), missing := x.missing.filter (fun p => decide (num < p.2)) }

/-- The number of a block that is taken, and its count. -/
def metroNoted (c num : Nat) (d : Dev) : Dev := incr 32 (0x2180 + c) 5 (modMetro c (acceptedUpTo num) d)

/-- The power and the energy of a block of a connector that is commissioned. -/
def metroSorted (c : Nat) (qs : List Int) (d : Dev) : Dev := sortAll c qs (puti 32 (0x2180 + c) 4 ((sumI qs).tdiv (16 * 10 ^ 14)) d)

theorem metroTake_eq (c num : Nat) (b : Bytes) (d : Dev) : metroTake c num b d =
    if on (metroNoted c num d) (0x2040 + c) 1 = 0 then metroNoted c num d
    else metroSorted c (blockQ (on (metroNoted c num d) (0x2040 + c) 1) b) (metroNoted c num d) := rfl

/-- The objects of a block that is taken. -/
def takeObjs (c : Nat) : List (Nat × Nat) := [(0x2180 + c, 1), (0x2180 + c, 4), (0x2180 + c, 5)]

theorem metroNoted_framed (c num : Nat) (d : Dev) : Framed [.legal, .lanes] (takeObjs c) d (metroNoted c num d) :=
  .put (by decide) (by simp [takeObjs]) (.modMetro (by simp) (.refl _ _ d))

theorem metroSorted_framed (c : Nat) (qs : List Int) (d : Dev) :
    Framed [.legal] [(0x2180 + c, 1), (0x2180 + c, 4)] d (metroSorted c qs d) :=
  .intSign (by simp) (by simp) (.legal (by simp) (.put (by decide) (by simp) (.refl _ _ d)) _)

theorem on_metroNoted_rated (c num : Nat) (hc : c < 64) (d : Dev) : on (metroNoted c num d) (0x2040 + c) 1 = on d (0x2040 + c) 1 :=
  (metroNoted_framed c num d).on_eq (by decide) (counted_of_lt _ (by omega)) (by simp [takeObjs])

theorem metroTake_framed (c num : Nat) (b : Bytes) (d : Dev) : Framed [.legal, .lanes] (takeObjs c) d (metroTake c num b d) := by
  rw [metroTake_eq]
  exact .ite (metroNoted_framed c num d) ((metroNoted_framed c num d).trans
    ((metroSorted_framed c _ _).mono (by simp) (by simp [takeObjs])))

theorem intSign_lanes (m : Nat) (pos neg : Bool) (d : Dev) : (intSign m pos neg d).lanes = d.lanes := by
  unfold intSign
  split
  · rfl
  · exact auxFlags_lanes m _

theorem intSign_ev (m : Nat) (pos neg : Bool) (d : Dev) : (intSign m pos neg d).ev = d.ev := by
  unfold intSign auxFlags
  dsimp only
  split
  · rfl
  · split <;> rfl

theorem metroTake_lanes (c num : Nat) (b : Bytes) (d : Dev) : (metroTake c num b d).lanes = (modMetro c (acceptedUpTo num) d).lanes := by
  rw [metroTake_eq]
  split
  · rfl
  · exact intSign_lanes _ _ _ _

theorem metroTake_ev (c num : Nat) (b : Bytes) (d : Dev) : (metroTake c num b d).ev = d.ev := by
  rw [metroTake_eq]
  split
  · rfl
  · exact intSign_ev _ _ _ _

theorem metroS_metroTake_same (c num : Nat) (b : Bytes) (d : Dev) : metroS (metroTake c num b d) c = acceptedUpTo num (metroS d c) :=
  (metroS_congr (congrArg LanesS.metro (metroTake_lanes c num b d)) c).trans (metroS_modMetro_same _ c _)

theorem metroS_metroTake_other {m : Nat} (h : m ≠ c) (num : Nat) (b : Bytes) (d : Dev) :
    metroS (metroTake c num b d) m = metroS d m :=
  (metroS_congr (congrArg LanesS.metro (metroTake_lanes c num b d)) m).trans (metroS_modMetro_other _ _ h.symm)

theorem on_metroTake_count (c num : Nat) (b : Bytes) (d : Dev)
    (hc : c < 64) : on (metroTake c num b d) (0x2180 + c) 5 = incSat 32 (on d (0x2180 + c) 5) := by
  have hnoted : on (metroNoted c num d) (0x2180 + c) 5 = incSat 32 (on d (0x2180 + c) 5) := on_incr_same _ _ _ _
  rw [metroTake_eq]
  split
  · exact hnoted
  · exact ((metroSorted_framed c _ _).on_eq (by decide) (counted_of_lt _ (by omega)) (by simp)).trans hnoted

/-- What a block that is taken adds to its channel. -/
def blockEnergy (d : Dev) (c : Nat) (b : Bytes) (x : ChanS) : ChanS :=
  if on d (0x2040 + c) 1 = 0 then x else (blockQ (on d (0x2040 + c) 1) b).foldl (fun x q => sortQ (dmOf d c) q x) x

theorem chanS_metroTake_same (c num : Nat) (hc : c < 64) (b : Bytes) (d : Dev) :
    chanS (metroTake c num b d) c = blockEnergy d c b (chanS d c) := by
  have hdm : ∀ x, dmOf x c = 87890625000000 := fun x => if_pos hc
  rw [metroTake_eq, on_metroNoted_rated c num hc, blockEnergy]
  split
  · rfl
  · simp only [metroSorted, sortAll, intSign_chanS, chanS_modCh_same, hdm]
    rfl

theorem chanS_metroTake_other {m : Nat} (h : m ≠ c) (num : Nat) (b : Bytes) (d : Dev) :
    chanS (metroTake c num b d) m = chanS d m := by
  rw [metroTake_eq]
  split
  · rfl
  · simp only [metroSorted, sortAll, intSign_chanS, chanS_modCh_other _ _ _ _ h.symm]
    rfl

/-! ### The order of the numbers -/

theorem lt_passMissing (runs : List (Nat × Nat)) (fuel l : Nat) : l < passMissing runs fuel l := by
  induction fuel generalizing l with
  | zero => exact Nat.lt_succ_self l
  | succ fuel ih =>
    unfold passMissing
    split
    case h_1 p hp =>
      have hin := List.find?_some hp
      simp only [Bool.and_eq_true, decide_eq_true_eq] at hin
      exact lt_of_lt_of_le (by omega) (ih p.2).le
    case h_2 => exact Nat.lt_succ_self l

/-- Nothing waits in order. -/
theorem metroDrain_idle (fuel : Nat) (h : ∀ l, (metroS d c).lastAcc = some l → alGet (metroS d c).wait (metroNext (metroS d c) l) = none) :
    metroDrain fuel c d = d := by
  cases fuel with
  | zero => rfl
  | succ fuel =>
    unfold metroDrain
    dsimp only
    split
    case h_1 => rfl
    case h_2 l hl => rw [h l hl]

theorem metroDrain_framed (fuel c : Nat) (d : Dev) : Framed [.legal, .lanes] (takeObjs c) d (metroDrain fuel c d) := by
  induction fuel generalizing d with
  | zero => exact .refl _ _ d
  | succ fuel ih =>
    unfold metroDrain
    dsimp only
    split
    · exact .refl _ _ d
    · split
      · exact (metroTake_framed _ _ _ _).trans (ih _)
      · exact .refl _ _ d

theorem metroDrain_ev (fuel c : Nat) (d : Dev) : (metroDrain fuel c d).ev = d.ev := by
  induction fuel generalizing d with
  | zero => rfl
  | succ fuel ih =>
    unfold metroDrain
    dsimp only
    split
    · rfl
    · split
      · exact (ih _).trans (metroTake_ev _ _ _ _)
      · rfl

/-- What is no longer requested stays so while blocks are taken. -/
theorem metroDrain_requested (fuel : Nat) {n : Nat} (h : n ∉ (metroS d c).requested) : n ∉ (metroS (metroDrain fuel c d) c).requested := by
  induction fuel generalizing d with
  | zero => exact h
  | succ fuel ih =>
    unfold metroDrain
    dsimp only
    split
    · exact h
    · split
      · refine ih ?_
        rw [metroS_metroTake_same]
        exact fun hn => h (List.mem_of_mem_filter hn)
      · exact h

/-! ### What the metrology die makes of a block (R131) -/

/-- The code that a block must carry. -/
def metroMac (d : Dev) (k : Bytes) (di i num : Nat) (body : Bytes) : Bytes :=
  (hmac256 k (natLe 1 di ++ natLe 1 i ++ natLe 1 (lanePort d) ++ [0] ++ natLe 4 num ++ body.take 128)).take 8

section

variable {di i : Nat} {k : Bytes} (hd : connDisp d c = some (di, i))

include hd

theorem metroTaken_unkeyed (hk : (laneS d (32 + di)).kmac = none) : metroTaken c num body d = metroDiscard c 3 d := by
  simp only [metroTaken, hd, hk]

variable (hk : (laneS d (32 + di)).kmac = some k)

include hk

theorem metroTaken_wrong (h : metroMac d k di i num body ≠ body.drop 128) : metroTaken c num body d = metroDiscard c 1 d := by
  simp only [metroTaken, hd, hk]
  exact if_pos h

variable (h : metroMac d k di i num body = body.drop 128) {l : Nat} (hl : (metroS d c).lastAcc = some l)

include h hl

theorem metroTaken_old (ho : num ≤ l) : metroTaken c num body d = metroDiscard c 2 d := by
  simp only [metroTaken, hd, hk, hl]
  exact (if_neg (not_not.2 h)).trans (if_pos ho)

theorem metroTaken_new (hn : l < num) (hm : meters d = true) : metroTaken c num body d = metroAccept c num (body.take 128) d := by
  simp only [metroTaken, hd, hk, hl]
  exact (if_neg (not_not.2 h)).trans ((if_neg (not_le.2 hn)).trans (if_pos hm))

end

/-! ### A block in its turn, and one ahead of it (R131, R317) -/

/-- A block waits ahead of its turn. -/
def waiting (num : Nat) (b : Bytes) (x : MetroS) : MetroS :=
  { x with wait := alSet x.wait num b, requested := x.requested.filter (· != num) }

/-- Numbers are requested of a connector. -/
def asked (ns : List Nat) (x : MetroS) : MetroS := { x with requested := x.requested ++ ns, resend := x.resend ++ ns }

/-- The numbers between the last accepted one and one ahead of its turn. -/
def between (l num : Nat) : List Nat := (List.range (num - 1 + 1 - (l + 1))).map (fun i => l + 1 + i)

theorem mem_between {l n : Nat} (h : l < n) (h' : n < num) : n ∈ between l num :=
  List.mem_map.2 ⟨n - (l + 1), List.mem_range.2 (by omega), by omega⟩

/-- A block ahead of its turn is kept, and the numbers between are asked for. -/
def keptAhead (c l num : Nat) (b : Bytes) (d : Dev) : Dev := modMetro c (asked (between l num)) (modMetro c (waiting num b) d)

theorem metroS_keptAhead_same (c l num : Nat) (b : Bytes) (d : Dev) :
    metroS (keptAhead c l num b d) c = asked (between l num) (waiting num b (metroS d c)) :=
  (metroS_modMetro_same _ c _).trans (congrArg _ (metroS_modMetro_same _ c _))

theorem metroS_keptAhead_other {m : Nat} (h : m ≠ c) (l num : Nat) (b : Bytes) (d : Dev) :
    metroS (keptAhead c l num b d) m = metroS d m :=
  (metroS_modMetro_other _ _ h.symm).trans (metroS_modMetro_other _ _ h.symm)

theorem keptAhead_framed (c l num : Nat) (b : Bytes) (d : Dev) : Framed [.lanes] [] d (keptAhead c l num b d) :=
  .modMetro (by simp) (.modMetro (by simp) (.refl _ _ _))

variable {l : Nat} (hl : (metroS d c).lastAcc = some l)

include hl

/-- The next block in order is taken; nothing else waits. -/
theorem metroAccept_next (hn : num = metroNext (metroS d c) l) (hw : (metroS d c).wait = []) :
    metroAccept c num b d = metroTake c num b d := by
  have hdrain : metroDrain 64 c (metroTake c num b d) = metroTake c num b d :=
    metroDrain_idle 64 (fun m _ => by rw [metroS_metroTake_same, acceptedUpTo, hw]; rfl)
  simp only [metroAccept, hl]
  exact (if_pos hn).trans hdrain

/-- A block ahead of its turn waits; the numbers between, few enough, are asked for again. -/
theorem metroAccept_ahead (hnext : metroNext (metroS d c) l = l + 1) (ht : metroTop (metroS d c) = l)
    (hw : (metroS d c).wait = []) (hm : (metroS d c).missing.any (fun p => decide (p.1 ≤ num) && decide (num ≤ p.2)) = false)
    (h1 : l + 1 < num) (h17 : num ≤ l + 17) :
    metroAccept c num b d = keptAhead c l num b d := by
  have hgo : metroAccept c num b d = metroAhead c num b d := by
    simp only [metroAccept, hl]
    exact if_neg (by omega)
  have hlo : max (l + 1) (num - 16) = l + 1 := by omega
  have hstate := metroS_keptAhead_same c l num b d
  have hwait : (metroS (keptAhead c l num b d) c).wait = [(num, b)] := by
    rw [hstate]
    exact congrArg (fun w => alSet w num b) hw
  have hdrain : metroDrain 64 c (keptAhead c l num b d) = keptAhead c l num b d := by
    refine metroDrain_idle 64 (fun m h => ?_)
    rw [hwait]
    rw [hstate] at h ⊢
    obtain rfl : l = m := Option.some.inj (hl.symm.trans h)
    have hm' : metroNext (asked (between l num) (waiting num b (metroS d c))) l = l + 1 := hnext
    have hne : num ≠ l + 1 := by omega
    simp [hm', alGet, hne]
  have hask : metroRequest c (l + 1) (num - 1) (modMetro c (waiting num b) d) = keptAhead c l num b d := rfl
  have hshort : ¬ (metroS (keptAhead c l num b d) c).wait.length ≥ 8 := by
    rw [hwait]
    simp
  unfold waiting at hask
  rw [hgo, metroAhead]
  simp only [hm, ht, hlo, if_pos h1, lt_irrefl, if_false, Bool.false_eq_true, hask, hdrain, hshort]

end

/-! ### A record on its way through ring 2 (R420) -/

section

variable {s : State} {c num di i : Nat} {body : Bytes} (hr : running s.dev = true) (hc : c < 64)
  (hd : connDisp s.dev c = some (di, i)) (hup : (laneS s.dev (32 + di)).st = .up) (hlen : body.length = 136)
  (hz : ringSize s.dev 2 ≠ 0)

/-- The device once ring 2 has moved a descriptor at once. -/
def metroMoved (s : State) : Dev := ringDone 2 1 (ringStep 2 3 1 (fresh s))

theorem metroMoved_follows (s : State) : Follows (fresh s) (metroMoved s) :=
  ((put_ring_follows 2 3 _ _ (by decide) rfl).trans (put_ring_follows 2 2 _ _ (by decide) rfl)).trans
    (put_ring_follows 2 4 _ _ (by decide) rfl)

theorem metroMoved_framed (s : State) : Framed [] [] s.dev (metroMoved s) := .fresh_follows (metroMoved_follows s) _ _

theorem on_metroMoved {num sub : Nat} (hs : sub < 256) (hn : num < 0x3200) : on (metroMoved s) num sub = on s.dev num sub :=
  (metroMoved_framed s).on_eq hs (counted_of_lt _ hn) (by simp)

theorem lanePort_metroMoved (s : State) : lanePort (metroMoved s) = lanePort s.dev := by
  have hpair : (metroMoved s).pair = s.dev.pair := (metroMoved_follows s).part .pair
  unfold lanePort portNo
  rw [on_metroMoved (by decide) (by decide), hpair]

theorem meters_metroMoved (s : State) : meters (metroMoved s) = meters s.dev := by
  have hphase : (metroMoved s).phase = s.dev.phase := (metroMoved_follows s).part .phase
  unfold meters running
  rw [on_metroMoved (by decide) (by decide), hphase]

theorem chanS_metroMoved (s : State) (m : Nat) : chanS (metroMoved s) m = chanS s.dev m :=
  chanS_congr ((metroMoved_follows s).part .legal) m

theorem metroS_metroMoved (s : State) (m : Nat) : metroS (metroMoved s) m = metroS s.dev m :=
  metroS_congr (congrArg LanesS.metro ((metroMoved_follows s).part .lanes)) m

theorem laneS_metroMoved (s : State) (m : Nat) : laneS (metroMoved s) m = laneS s.dev m :=
  laneS_congr ((metroMoved_follows s).part .lanes) m

theorem connDisp_metroMoved (s : State) (m : Nat) : connDisp (metroMoved s) m = connDisp s.dev m := by
  have himg : img? (metroMoved s) = img? s.dev := congrArg SchedS.image ((metroMoved_follows s).part .sched)
  unfold connDisp dispE
  rw [himg]

theorem metroMac_metroMoved (s : State) (k : Bytes) (di i num : Nat) (body : Bytes) :
    metroMac (metroMoved s) k di i num body = metroMac s.dev k di i num body := by
  unfold metroMac
  rw [lanePort_metroMoved]

include hr hc hd hup hlen hz

theorem metroRecord_completes {x : Dev} {P : Dev → Prop} (hx : (if ringIdle s.dev 2 then metroTaken c num body (metroMoved s)
      else if ringRoom s.dev 2 < 1 then ringFull 2 (fresh s)
      else modRing 2 (fun y => { y with q := y.q ++ [{ own := some (.metro c num body) }] }) (ringStep 2 3 1 (fresh s))) = x)
    (hP : ∀ e, Follows x e → ring e 2 = ring x 2 → P e) : Completes (.metroRecord c num body) s P := by
  have hd' : connDisp (fresh s) c = some (di, i) := hd
  have hup' : (laneS (fresh s) (32 + di)).st == .up := by
    rw [show (laneS (fresh s) (32 + di)).st = .up from hup]
    rfl
  have hgate : (!(running (fresh s)) || body.length != 136 || (connDisp (fresh s) c).isNone) = false := by
    rw [hd', show running (fresh s) = true from hr, hlen]
    rfl
  have hrow : metroRow c num body (fresh s) = x := by
    simp only [metroRow, hd']
    rw [if_pos hup', metroRecord, if_neg (ne_true_of_eq_false hgate), ringPass_one]
    exact (if_neg hz).trans hx
  have hf : onPart (decide (c < 64)) (ifRun (metroRow c num body)) (fresh s) = x :=
    (if_pos (by simpa using hc)).trans ((if_pos hr).trans hrow)
  refine act_completes_ring (r := 2) (f := onPart (decide (c < 64)) (ifRun (metroRow c num body))) (by decide) (by decide) rfl
    (fun e he hring => ?_)
  rw [hf] at he hring
  exact hP e he hring

/-- A record waits in ring 2 where the engine does not serve it. -/
theorem metroRecord_waits (hi : ringIdle s.dev 2 = false) (hroom : 0 < ringRoom s.dev 2) :
    Completes (.metroRecord c num body) s (fun e =>
      (ring e 2).q = (ring s.dev 2).q ++ [{ own := some (.metro c num body) }] ∧ Framed [] [] s.dev e) := by
  refine metroRecord_completes hr hc hd hup hlen hz ((if_neg (by simp [hi])).trans (if_neg (by omega))) (fun e he hring => ⟨?_, ?_⟩)
  · rw [hring, ring_modRing_same]
    rfl
  · have hmoved := modRing_follows 2 (fun y => { y with q := y.q ++ [{ own := some (.metro c num body) }] })
      (fun y => by simp [ringCore, List.filter_append]) (ringStep 2 3 1 (fresh s))
    exact .of_fresh ((Framed.put_counted (by decide) (by decide) (.refl _ _ _)).follow (hmoved.trans he))

theorem metroRecord_discards {why : Nat} (hi : ringIdle s.dev 2 = true)
    (hx : metroTaken c num body (metroMoved s) = metroDiscard c why (metroMoved s)) :
    Completes (.metroRecord c num body) s (fun e =>
      raised e 0x0C13 c = true ∧ on e 0x209 (c + 1) = incSat 32 (on s.dev 0x209 (c + 1)) ∧ e.lanes = s.dev.lanes ∧
        (∀ m, (chanS e m).uImp = (chanS s.dev m).uImp ∧ (chanS e m).uExp = (chanS s.dev m).uExp) ∧
        Framed [.legal] [(0x209, c + 1), (0x2180 + c, 1)] s.dev e) := by
  refine metroRecord_completes hr hc hd hup hlen hz ((if_pos hi).trans hx) (fun e he _ => ⟨?_, ?_, ?_, fun m => ?_, ?_⟩)
  · exact he.raised _ _ _ (raised_raise _ _ _ _)
  · rw [he.on_low (by omega) (by decide), on_metroDiscard c why hc, on_metroMoved (by omega) (by decide)]
  · have hmoved : (metroMoved s).lanes = s.dev.lanes := (metroMoved_follows s).part .lanes
    exact ((he.part .lanes).trans (metroDiscard_lanes c why _)).trans hmoved
  · obtain ⟨tf, htf⟩ := chanS_metroDiscard c why m (metroMoved s)
    rw [chanS_metroMoved] at htf
    rw [chanS_congr (he.part .legal), htf]
    exact ⟨rfl, rfl⟩
  · exact (((metroMoved_framed s).mono (by simp) (by simp)).trans (metroDiscard_framed c why hc _)).follow he

variable {k : Bytes} {l : Nat} (hi : ringIdle s.dev 2 = true) (hk : (laneS s.dev (32 + di)).kmac = some k)
  (hmac : metroMac s.dev k di i num body = body.drop 128) (hm : meters s.dev = true) (hl : (metroS s.dev c).lastAcc = some l)

include hi hk hmac hm hl

theorem metroRecord_accepts {x : Dev} {P : Dev → Prop} (hn : l < num) (hx : metroAccept c num (body.take 128) (metroMoved s) = x)
    (hP : ∀ e, Follows x e → P e) : Completes (.metroRecord c num body) s P :=
  metroRecord_completes hr hc hd hup hlen hz
    ((if_pos hi).trans ((metroTaken_new (d := metroMoved s) ((connDisp_metroMoved s c).trans hd)
      ((congrArg _ (laneS_metroMoved s _)).trans hk) ((metroMac_metroMoved s k di i num body).trans hmac)
      ((congrArg _ (metroS_metroMoved s c)).trans hl) hn ((meters_metroMoved s).trans hm)).trans hx)) (fun e he _ => hP e he)

theorem metroRecord_counts (hn : num = metroNext (metroS s.dev c) l) (hw : (metroS s.dev c).wait = []) :
    Completes (.metroRecord c num body) s (fun e =>
      (metroS e c).lastAcc = some num ∧ on e (0x2180 + c) 5 = incSat 32 (on s.dev (0x2180 + c) 5) ∧
        chanS e c = blockEnergy s.dev c (body.take 128) (chanS s.dev c) ∧
        (∀ m, m ≠ c → chanS e m = chanS s.dev m ∧ metroS e m = metroS s.dev m) ∧
        Framed [.legal, .lanes] [(0x2180 + c, 1), (0x2180 + c, 4), (0x2180 + c, 5)] s.dev e) := by
  have hlt : l < num := hn ▸ lt_passMissing _ _ _
  refine metroRecord_accepts hr hc hd hup hlen hz hi hk hmac hm hl hlt
    (metroAccept_next (d := metroMoved s) (by rw [metroS_metroMoved]; exact hl) (by rw [metroS_metroMoved]; exact hn)
      (by rw [metroS_metroMoved]; exact hw)) (fun e he => ⟨?_, ?_, ?_, fun m hne => ⟨?_, ?_⟩, ?_⟩)
  · rw [metroS_congr (congrArg LanesS.metro (he.part .lanes)), metroS_metroTake_same]
    rfl
  · rw [he.on_low (by decide) (by omega), on_metroTake_count _ _ _ _ hc, on_metroMoved (by decide) (by omega)]
  · rw [chanS_congr (he.part .legal), chanS_metroTake_same _ _ hc, chanS_metroMoved, blockEnergy, on_metroMoved (by decide) (by omega), blockEnergy,
      show dmOf (metroMoved s) c = dmOf s.dev c from (if_pos hc).trans (if_pos hc).symm]
  · rw [chanS_congr (he.part .legal), chanS_metroTake_other hne, chanS_metroMoved]
  · rw [metroS_congr (congrArg LanesS.metro (he.part .lanes)), metroS_metroTake_other hne, metroS_metroMoved]
  · exact (((metroMoved_framed s).mono (by simp) (by simp)).trans (metroTake_framed c num _ _)).follow he

theorem metroRecord_waits_ahead (hnext : metroNext (metroS s.dev c) l = l + 1) (ht : metroTop (metroS s.dev c) = l)
    (hw : (metroS s.dev c).wait = []) (hms : (metroS s.dev c).missing.any (fun p => decide (p.1 ≤ num) && decide (num ≤ p.2)) = false)
    (h1 : l + 1 < num) (h17 : num ≤ l + 17) : Completes (.metroRecord c num body) s (fun e =>
      (metroS e c).lastAcc = some l ∧ (metroS e c).wait = [(num, body.take 128)] ∧
        (∀ n, l < n → n < num → n ∈ (metroS e c).requested ∧ n ∈ (metroS e c).resend) ∧
        (∀ m, chanS e m = chanS s.dev m ∧ (m ≠ c → metroS e m = metroS s.dev m)) ∧ Framed [.lanes] [] s.dev e) := by
  refine metroRecord_accepts hr hc hd hup hlen hz hi hk hmac hm hl (by omega)
    (metroAccept_ahead (d := metroMoved s) (by rw [metroS_metroMoved]; exact hl) (by rw [metroS_metroMoved]; exact hnext)
      (by rw [metroS_metroMoved]; exact ht) (by rw [metroS_metroMoved]; exact hw) (by rw [metroS_metroMoved]; exact hms) h1 h17)
    (fun e he => ?_)
  have hmetro := metroS_congr (congrArg LanesS.metro (he.part .lanes))
  have hown : metroS e c = asked (between l num) (waiting num (body.take 128) (metroS s.dev c)) := by
    rw [hmetro, metroS_keptAhead_same, metroS_metroMoved]
  refine ⟨hown ▸ hl, ?_, fun n h h' => ?_, fun m => ⟨?_, fun hne => ?_⟩, ?_⟩
  · rw [hown]
    exact congrArg (fun w => alSet w num (body.take 128)) hw
  · rw [hown]
    exact ⟨List.mem_append_right _ (mem_between h h'), List.mem_append_right _ (mem_between h h')⟩
  · exact (chanS_congr (he.part .legal) m).trans (chanS_metroMoved s m)
  · rw [hmetro, metroS_keptAhead_other hne, metroS_metroMoved]
  · exact (((metroMoved_framed s).mono (by simp) (by simp)).trans (keptAhead_framed c l num _ _)).follow he

end

/-- Settles O28: sorting, quantity by quantity, and the ways of a block through ring 2. -/
theorem meteredEnergyIsKept : Obligations.MeteredEnergyIsKept := by
  refine ⟨fun dm qs c hd => sorted_conserved hd qs c, ?_⟩
  intro s c num di i body hr hc hd hup hlen hz x discarded
  have hd' : connDisp (metroMoved s) c = some (di, i) := (connDisp_metroMoved s c).trans hd
  have hk' : ∀ {o}, (laneS s.dev (32 + di)).kmac = o → (laneS (metroMoved s) (32 + di)).kmac = o := fun h =>
    (congrArg _ (laneS_metroMoved s _)).trans h
  refine ⟨metroRecord_waits hr hc hd hup hlen hz,
    fun hi hk => metroRecord_discards hr hc hd hup hlen hz hi (metroTaken_unkeyed hd' (hk' hk)), fun k hi hk => ?_⟩
  intro mac
  have hmoved : metroMac (metroMoved s) k di i num body = mac := metroMac_metroMoved s k di i num body
  refine ⟨fun h => ?_, fun l h hl ho => ?_, fun l h hm hl hn hw => ?_, fun l h hm hl ht hw hms hnext h1 h17 => ?_⟩
  · exact metroRecord_discards hr hc hd hup hlen hz hi (metroTaken_wrong hd' (hk' hk) (by rw [hmoved]; exact h))
  · exact metroRecord_discards hr hc hd hup hlen hz hi
      (metroTaken_old hd' (hk' hk) (hmoved.trans h) (by rw [metroS_metroMoved]; exact hl) ho)
  · exact metroRecord_counts hr hc hd hup hlen hz hi hk h hm hl hn hw
  · exact metroRecord_waits_ahead hr hc hd hup hlen hz hi hk h hm hl hnext ht hw hms h1 h17

end Sys2Proof

/-! A metering block that does not come (R317, R318). -/

namespace Sys2Proof

open Machine

section

variable {c num : Nat} {d : Dev}

/-- The voltage and current of a connector are those of its dispenser's last frame. -/
structure SameReadings (d e : Dev) : Prop where
  sched : e.sched = d.sched
  lanes : e.lanes.lanes = d.lanes.lanes
  recs : e.lanes.recs = d.lanes.recs

theorem SameReadings.laneS {d e : Dev} (h : SameReadings d e) (l : Nat) : laneS e l = laneS d l := by
  unfold Machine.laneS
  rw [h.lanes]

theorem SameReadings.dispE {d e : Dev} (h : SameReadings d e) (i : Nat) : dispE e i = dispE d i := by
  unfold Machine.dispE img?
  rw [h.sched]

theorem SameReadings.connDisp {d e : Dev} (h : SameReadings d e) (c : Nat) : connDisp e c = connDisp d c := by
  unfold Machine.connDisp
  simp only [h.dispE]

theorem SameReadings.dispField {d e : Dev} (h : SameReadings d e) (di code elem : Nat) :
    dispField e di code elem = dispField d di code elem := by
  unfold Machine.dispField
  simp only [h.laneS, h.dispE, h.recs]

/-- What a connector delivers in a block's time, as far as its last readings say. -/
def estimate (d : Dev) (c : Nat) : Int := if dispUp d c = true then vConnQ d c * iConnS d c else 0

theorem SameReadings.estimate {d e : Dev} (h : SameReadings d e) (c : Nat) : estimate e c = estimate d c := by
  unfold Sys2Proof.estimate dispUp vConnQ iConnS
  simp only [h.connDisp, h.laneS, h.dispField]

/-- The register that an estimate enters. -/
def estimateSub (q : Int) : Nat := if 0 ≤ q then 2 else 3

theorem estimateSub_mem (q : Int) : estimateSub q = 2 ∨ estimateSub q = 3 := by
  unfold estimateSub
  split <;> simp

/-- The block is declared missing. -/
def gapMissing (num : Nat) (x : MetroS) : MetroS :=
  { x with missing := x.missing ++ [(num, num)], requested := x.requested.filter (fun k => decide (k < num) || decide (num < k)) }

/-- The block is counted as missing and told. -/
def gapDeclared (c num : Nat) (d : Dev) : Dev :=
  let d := modMetro c (gapMissing num) d
  raise 0x0C14 c num (intFlag c 1 (put 0x20A (c + 1) (satU 32 (on d 0x20A (c + 1) + (num + 1 - num))) d))

/-- An estimate of whole units enters its register. -/
def addEstimate (c u : Nat) (q : Int) (d : Dev) : Dev :=
  put (0x2180 + c) (estimateSub q) (satU 96 (on d (0x2180 + c) (estimateSub q) + u)) d

theorem metroMissing_one (c num : Nat) (d : Dev) : metroMissing c num num d =
    addEstimate c ((num + 1 - num) * ((estimate (gapDeclared c num d) c).natAbs / (65536 * 3600000)))
      (estimate (gapDeclared c num d) c) (gapDeclared c num d) := if_neg (lt_irrefl num)

theorem gapDeclared_lanes (c num : Nat) (d : Dev) : (gapDeclared c num d).lanes = (modMetro c (gapMissing num) d).lanes :=
  intFlag_lanes c 1 _

theorem gapDeclared_readings (c num : Nat) (d : Dev) : SameReadings d (gapDeclared c num d) where
  sched := by
    have h : Framed [.legal] [(0x2180 + c, 1)] _ (gapDeclared c num d) := .raise (.intFlag (by simp) (by simp) (.refl _ _ _))
    exact h.1 .sched (by simp)
  lanes := (congrArg LanesS.lanes (gapDeclared_lanes c num d)).trans rfl
  recs := (congrArg LanesS.recs (gapDeclared_lanes c num d)).trans rfl

theorem metroMissing_estimates (c num : Nat) (d : Dev) : metroMissing c num num d =
    addEstimate c ((estimate d c).natAbs / (65536 * 3600000)) (estimate d c) (gapDeclared c num d) := by
  rw [metroMissing_one, (gapDeclared_readings c num d).estimate, Nat.add_sub_cancel_left, Nat.one_mul]

theorem gapDeclared_framed (hc : c < 64) (num : Nat) (d : Dev) :
    Framed [.legal, .lanes] [(0x20A, c + 1), (0x2180 + c, 1)] d (gapDeclared c num d) :=
  .raise (.intFlag (by simp) (by simp) (.put (by omega) (by simp) (.modMetro (by simp) (.refl _ _ _))))

theorem on_gapDeclared (hc : c < 64) (num : Nat) (d : Dev) :
    on (gapDeclared c num d) 0x20A (c + 1) = satU 32 (on d 0x20A (c + 1) + 1) := by
  rw [gapDeclared, on_raise, on_intFlag (by omega) (by decide) (by omega), on_put_same, Nat.add_sub_cancel_left]
  rfl

/-- The block is missing and estimated. -/
def gapEstimated (c num : Nat) (d : Dev) : Dev :=
  addEstimate c ((estimate d c).natAbs / (65536 * 3600000)) (estimate d c) (gapDeclared c num d)

/-- The objects of a block that is missing. -/
def gapObjs (c : Nat) : List (Nat × Nat) := [(0x20A, c + 1), (0x2180 + c, 1), (0x2180 + c, 2), (0x2180 + c, 3)]

theorem addEstimate_framed (c u : Nat) (q : Int) (d : Dev) : Framed [] [(0x2180 + c, 2), (0x2180 + c, 3)] d (addEstimate c u q d) := by
  have hsub := estimateSub_mem q
  exact .put (by omega) (by simpa using hsub) (.refl _ _ _)

theorem gapEstimated_framed (hc : c < 64) (num : Nat) (d : Dev) : Framed [.legal, .lanes] (gapObjs c) d (gapEstimated c num d) :=
  ((gapDeclared_framed hc num d).mono (by simp) (by simp [gapObjs])).trans ((addEstimate_framed _ _ _ _).mono (by simp) (by simp [gapObjs]))

theorem on_gapEstimated_count (hc : c < 64) (num : Nat) (d : Dev) :
    on (gapEstimated c num d) 0x20A (c + 1) = satU 32 (on d 0x20A (c + 1) + 1) :=
  ((addEstimate_framed _ _ _ _).on_eq (by omega) (by rfl) (by simp; omega)).trans (on_gapDeclared hc num d)

theorem on_gapEstimated (hc : c < 64) (num : Nat) (d : Dev) : on (gapEstimated c num d) (0x2180 + c) (estimateSub (estimate d c)) =
    satU 96 (on d (0x2180 + c) (estimateSub (estimate d c)) + (estimate d c).natAbs / (65536 * 3600000)) := by
  have hsub := estimateSub_mem (estimate d c)
  have hkept := (gapDeclared_framed hc num d).on_eq (num := 0x2180 + c) (sub := estimateSub (estimate d c)) (by omega)
    (counted_of_lt _ (by omega)) (by simp; omega)
  rw [gapEstimated, addEstimate, on_put_same, hkept]

theorem raised_gapEstimated (c num : Nat) (d : Dev) : raised (gapEstimated c num d) 0x0C14 c = true :=
  (raised_congr rfl _ _ _).trans (raised_raise _ _ _ _)

theorem metroS_gapEstimated_same (c num : Nat) (d : Dev) : metroS (gapEstimated c num d) c = gapMissing num (metroS d c) :=
  (metroS_congr (congrArg LanesS.metro (gapDeclared_lanes c num d)) c).trans (metroS_modMetro_same _ c _)

theorem metroS_gapEstimated_other {m : Nat} (h : m ≠ c) (num : Nat) (d : Dev) : metroS (gapEstimated c num d) m = metroS d m :=
  (metroS_congr (congrArg LanesS.metro (gapDeclared_lanes c num d)) m).trans (metroS_modMetro_other _ _ h.symm)

theorem chanS_gapEstimated (c num m : Nat) (d : Dev) : ∃ tf, chanS (gapEstimated c num d) m = { chanS d m with tf := tf } :=
  chanS_intFlag c 1 m _

theorem gapMissing_eq (num : Nat) (x : MetroS) : gapMissing num x =
    { x with missing := x.missing ++ [(num, num)], requested := x.requested.filter (· != num) } := by
  have h : (fun k : Nat => decide (k < num) || decide (num < k)) = (fun k => k != num) := by
    funext k
    rw [Bool.eq_iff_iff, Bool.or_eq_true, decide_eq_true_eq, decide_eq_true_eq, bne_iff_ne]
    omega
  unfold gapMissing
  rw [h]

theorem not_mem_gapMissing (num : Nat) (x : MetroS) : num ∉ (gapMissing num x).requested := by
  rw [gapMissing_eq]
  exact fun h => absurd (List.mem_filter.1 h).2 (by simp)

end

section

variable {s : State} {c num : Nat} (hr : running s.dev = true) (hc : c < 64)

include hr hc

theorem metroGap_completes {x : Dev} {P : Dev → Prop} (hx : (if (metroS s.dev c).requested.contains num
      then metroDrain 64 c (gapEstimated c num (fresh s)) else fresh s) = x)
    (hP : ∀ e, Follows x e → P e) : Completes (.metroGap c num) s P := by
  have hgap : metroGap c num (fresh s) = x := by
    unfold metroGap
    rw [show running (fresh s) = true from hr, metroMissing_estimates]
    exact hx
  exact partRun_completes (g := metroGap c num) rfl (by simpa using hc) hr hgap hP

theorem metroGap_declares (h : num ∈ (metroS s.dev c).requested) : Completes (.metroGap c num) s (fun e =>
    (raised e 0x0C14 c = true ∧ on e 0x20A (c + 1) = satU 32 (on s.dev 0x20A (c + 1) + 1) ∧ num ∉ (metroS e c).requested) ∧
      OnlyParts [.legal, .lanes] s.dev e) := by
  refine metroGap_completes hr hc (if_pos (by simpa using h)) (fun e he => ⟨⟨?_, ?_, ?_⟩, ?_⟩)
  · exact he.raised _ _ _ ((raised_congr (metroDrain_ev _ _ _) _ _ _).trans (raised_gapEstimated _ _ _))
  · rw [he.on_low (by omega) (by decide), (metroDrain_framed 64 c _).on_eq (by omega) (by rfl) (by simp [takeObjs]; omega),
      on_gapEstimated_count hc, on_fresh]
  · rw [metroS_congr (congrArg LanesS.metro (he.part .lanes))]
    exact metroDrain_requested 64 (by rw [metroS_gapEstimated_same]; exact not_mem_gapMissing _ _)
  · exact (Framed.of_fresh (((gapEstimated_framed hc num (fresh s)).mono (ls := gapObjs c ++ takeObjs c) (by simp)
      (fun k hk => List.mem_append_left _ hk)).trans (((metroDrain_framed 64 c _).mono (by simp)
      (fun k hk => List.mem_append_right _ hk)).follow he))).1

theorem metroGap_estimates (h : num ∈ (metroS s.dev c).requested) (hw : (metroS s.dev c).wait = []) :
    Completes (.metroGap c num) s (fun e =>
      (raised e 0x0C14 c = true ∧ on e 0x20A (c + 1) = satU 32 (on s.dev 0x20A (c + 1) + 1) ∧ num ∉ (metroS e c).requested) ∧
      metroS e c = gapMissing num (metroS s.dev c) ∧ (∀ m, m ≠ c → metroS e m = metroS s.dev m) ∧
      on e (0x2180 + c) (estimateSub (estimate s.dev c)) =
        satU 96 (on s.dev (0x2180 + c) (estimateSub (estimate s.dev c)) + (estimate s.dev c).natAbs / (65536 * 3600000)) ∧
      (∀ m, (chanS e m).uImp = (chanS s.dev m).uImp ∧ (chanS e m).uExp = (chanS s.dev m).uExp) ∧
      Framed [.legal, .lanes] (gapObjs c) s.dev e) := by
  have hdrain : metroDrain 64 c (gapEstimated c num (fresh s)) = gapEstimated c num (fresh s) := by
    refine metroDrain_idle 64 (fun l _ => ?_)
    rw [metroS_gapEstimated_same]
    exact congrArg (fun w => alGet w _) hw
  refine metroGap_completes hr hc ((if_pos (by simpa using h)).trans hdrain) (fun e he => ?_)
  have hmetro := metroS_congr (congrArg LanesS.metro (he.part .lanes))
  have hown : metroS e c = gapMissing num (metroS s.dev c) := (hmetro c).trans (metroS_gapEstimated_same c num _)
  refine ⟨⟨?_, ?_, ?_⟩, hown, fun m hm => ?_, ?_, fun m => ?_, ?_⟩
  · exact he.raised _ _ _ (raised_gapEstimated _ _ _)
  · rw [he.on_low (by omega) (by decide), on_gapEstimated_count hc, on_fresh]
  · rw [hown]
    exact not_mem_gapMissing _ _
  · exact (hmetro m).trans (metroS_gapEstimated_other hm num _)
  · have hsub := estimateSub_mem (estimate s.dev c)
    rw [he.on_low (by omega) (by omega)]
    exact on_gapEstimated hc num (fresh s)
  · obtain ⟨tf, htf⟩ := chanS_gapEstimated c num m (fresh s)
    rw [chanS_congr (he.part .legal), htf]
    exact ⟨rfl, rfl⟩
  · exact .of_fresh ((gapEstimated_framed hc num _).follow he)

end

/-- Settles O29: what a requested block that has not come leaves of its connector; one not requested changes nothing. -/
theorem missingBlocksAreEstimated : Obligations.MissingBlocksAreEstimated := by
  intro s c num hr hc x declared
  refine ⟨fun h => ?_, fun h => metroGap_declares hr hc h, fun h hw => ?_⟩
  · exact metroGap_completes hr hc (if_neg (by simpa using h)) (fun e he => .fresh_follows he _ _)
  · refine (metroGap_estimates hr hc h hw).mono (fun e he => ?_)
    rw [gapMissing_eq] at he
    exact he

end Sys2Proof

/-! ADC samples enter the histories of the intakes (R312, R313, R319). -/

namespace Sys2Proof

open Machine

section

variable {k : Nat} {d e f : Dev}

/-- What an intake's flags and its energy may change besides the intake itself. -/
structure IntakeFlags (k : Nat) (d e : Dev) : Prop where
  intakes : e.legal.intakes = d.legal.intakes
  chans : ∀ m, m < 64 → chanS e m = chanS d m
  frame : Framed [.legal] [(0x2000, 0), (0x2180 + (64 + k), 1)] d e

namespace IntakeFlags

theorem refl (k : Nat) (d : Dev) : IntakeFlags k d d := ⟨rfl, fun _ _ => rfl, .refl _ _ d⟩

theorem trans (h : IntakeFlags k d e) (g : IntakeFlags k e f) : IntakeFlags k d f :=
  ⟨g.intakes.trans h.intakes, fun m hm => (g.chans m hm).trans (h.chans m hm), h.frame.trans g.frame⟩

theorem ite {c : Prop} [Decidable c] (h : IntakeFlags k d e) (g : IntakeFlags k d f) : IntakeFlags k d (if c then e else f) := by
  split
  · exact h
  · exact g

theorem status (n : Nat) (h : IntakeFlags k d e) : IntakeFlags k d (put 0x2000 0 n e) :=
  h.trans ⟨rfl, fun _ _ => rfl, .put (by decide) (by simp) (.refl _ _ e)⟩

theorem raise {code inst data : Nat} (h : IntakeFlags k d e) : IntakeFlags k d (raise code inst data e) :=
  h.trans ⟨rfl, fun _ _ => rfl, .raise (.refl _ _ e)⟩

theorem raiseEnd {code inst data : Nat} (h : IntakeFlags k d e) : IntakeFlags k d (raiseEnd code inst data e) :=
  h.trans ⟨rfl, fun _ _ => rfl, .raiseEnd (.refl _ _ e)⟩

theorem auxFlags_same (m : Nat) (d : Dev) (hm : m = 64 + k) : IntakeFlags k d (auxFlags m d) :=
  ⟨by rw [auxFlags_legal], fun m' _ => chanS_congr (auxFlags_legal m d) m', .auxFlags (by simp [hm]) (.refl _ _ d)⟩

theorem eachInt_same (m : Nat) (f : IntS → IntS) (g : SRec → SRec) (d : Dev) : IntakeFlags k d (eachInt m f g d) :=
  ⟨rfl, fun _ _ => rfl, .legal (by simp) (.refl _ _ d) _⟩

theorem modCh_same (g : ChanS → ChanS) (d : Dev) : IntakeFlags k d (modCh (64 + k) g d) :=
  ⟨rfl, fun _ hm => chanS_modCh_other _ _ _ _ (by omega), .legal (by simp) (.refl _ _ d) _⟩

theorem flag {bit : Nat} (h : IntakeFlags k d e) : IntakeFlags k d (intFlag (64 + k) bit e) :=
  ((h.trans (eachInt_same _ _ _ e)).trans (auxFlags_same _ _ rfl)).trans (modCh_same _ _)

theorem sortAll (qs : List Int) (h : IntakeFlags k d e) : IntakeFlags k d (sortAll (64 + k) qs e) := by
  refine (h.trans (modCh_same (fun c => qs.foldl (fun c q => sortQ (dmOf e (64 + k)) q c) c) e)).trans ?_
  exact .ite (.refl k _) ((eachInt_same _ _ _ _).trans (auxFlags_same _ _ rfl))

theorem forEach {α : Type} {l : List α} {g : α → Dev → Dev} (hg : ∀ a x, IntakeFlags k x (g a x)) (d : Dev) :
    IntakeFlags k d (forEach l g d) := by
  induction l generalizing d with
  | nil => exact .refl k d
  | cons a l ih => exact (hg a d).trans (ih (g a d))

theorem intake (h : IntakeFlags k d e) (j : Nat) : intakeS e j = intakeS d j := by
  unfold intakeS
  rw [h.intakes]

theorem oi_eq (h : IntakeFlags k d e) (w ch : Nat) (hc : ch < 16) : oi w e (acCal ch) 3 = oi w d (acCal ch) 3 :=
  congrArg (toS w) (h.frame.on_eq (by decide) (counted_of_lt _ (by unfold acCal; omega)) (by simp))

end IntakeFlags

/-- The intake becomes `q`; nothing else but its flags and its energy changes. -/
structure IntakeSet (k : Nat) (q : IntakeS) (d e : Dev) : Prop where
  own : intakeS e k = q
  others : ∀ j, j ≠ k → intakeS e j = intakeS d j
  chans : ∀ m, m < 64 → chanS e m = chanS d m
  frame : Framed [.legal] [(0x2000, 0), (0x2180 + (64 + k), 1)] d e

theorem IntakeSet.modIntake (q : IntakeS) (d : Dev) : IntakeSet k q d (modIntake k (fun _ => q) d) :=
  ⟨intakeS_modIntake_same d k _, fun _ hj => intakeS_modIntake_other d _ _ _ hj.symm, fun _ _ => rfl, .legal (by simp) (.refl _ _ d) _⟩

theorem IntakeSet.before {q : IntakeS} (h : IntakeFlags k d e) (g : IntakeSet k q e f) : IntakeSet k q d f :=
  ⟨g.own, fun j hj => (g.others j hj).trans (h.intake j), fun m hm => (g.chans m hm).trans (h.chans m hm), h.frame.trans g.frame⟩

theorem IntakeSet.after {q : IntakeS} (h : IntakeSet k q d e) (g : IntakeFlags k e f) : IntakeSet k q d f :=
  ⟨(g.intake k).trans h.own, fun j hj => (g.intake j).trans (h.others j hj), fun m hm => (g.chans m hm).trans (h.chans m hm),
    h.frame.trans g.frame⟩

theorem IntakeSet.again {p q : IntakeS} (h : IntakeSet k p d e) (g : IntakeSet k q e f) : IntakeSet k q d f :=
  ⟨g.own, fun j hj => (g.others j hj).trans (h.others j hj), fun m hm => (g.chans m hm).trans (h.chans m hm), h.frame.trans g.frame⟩

/-- The sixteenth sample starts the count again and leaves the histories. -/
theorem intakeUpdate_sets (k : Nat) (d : Dev) : ∃ q, IntakeSet k q d (intakeUpdate k d) ∧ q.b = (intakeS d k).b ∧ q.cnt = 0 := by
  refine ⟨_, (IntakeSet.modIntake _ d).after (.forEach (fun j x => ?_) _), rfl, rfl⟩
  exact .ite (.raise (.flag (.status _ (.refl k x)))) (.ite (.raiseEnd (.status _ (.refl k x))) (.ite (.flag (.refl k x)) (.refl k x)))

/-- The check of the phase sequence leaves the histories and the count of samples. -/
theorem seqStep_keeps (live : Bool) (q : IntakeS) (x : List (List Int)) :
    (seqStep live q x).b = q.b ∧ (seqStep live q x).cnt = q.cnt := by
  unfold seqStep
  split
  · exact ⟨rfl, rfl⟩
  · dsimp only
    split
    · exact ⟨rfl, rfl⟩
    · split <;> exact ⟨rfl, rfl⟩

/-- The samples at full scale mark their channel. -/
def fullScale (k : Nat) (a : List Int) (d : Dev) : Dev :=
  forEach ((List.range 8).filter (fun j => let v := a.getD j 0; decide (v ≥ 2 ^ 23 - 1) || decide (v ≤ -(2 ^ 23))))
    (fun j d => raise 0x4A04 (8 * k + j) 0 (intFlag (64 + k) 3 (setStatus 0x2000 0 12 d))) d

theorem fullScale_flags (k : Nat) (a : List Int) (d : Dev) : IntakeFlags k d (fullScale k a d) :=
  .forEach (fun _ x => .raise (.flag (.status _ (.refl k x)))) d

/-- The histories of an intake with a new sample. -/
def sampledB (k : Nat) (a : List Int) (d : Dev) : List (List Int) :=
  (List.range 8).map (fun j => ((a.getD j 0 - oi 32 d (acCal (8 * k + j)) 3) :: (intakeS d k).b.getD j []).take 12)

/-- The primary values of an intake with a new sample (R313). -/
def sampledX (k : Nat) (a : List Int) (d : Dev) : List (List Int) :=
  (List.range 8).map (fun j => ((if fitted d (8 * k + j) then adcConvert (on d (acCal (8 * k + j)) 1 : Nat) (oi 32 d (acCal (8 * k + j)) 2)
    (oi 16 d (acCal (8 * k + j)) 4) ((sampledB k a d).getD j []) else 0) :: (intakeS d k).x.getD j []).take (intakeN d k))

/-- The intake with its new histories, after the check of its phase sequence (R325). -/
def sampledSeq (k : Nat) (a : List Int) (d : Dev) : IntakeS :=
  seqStep ([0, 1, 2].all (fun j => decide ((intakeS d k).rms.getD j 0 ≥ pctV d k 50)) && !(phaseLost d k))
    { intakeS d k with b := sampledB k a d, x := sampledX k a d } (sampledX k a d)

/-- The power of the new sample, gated (R315, R319). -/
def sampledP (k : Nat) (a : List Int) (d : Dev) : Int :=
  let v := fun j => ((sampledX k a d).getD j []).getD 0 0
  sumI ([0, 1, 2].map (fun j => if (sampledSeq k a d).gate.getD j false then v j * v (4 + j) else 0))

/-- The sum of the window (R315). -/
def sampledS (k : Nat) (a : List Int) (d : Dev) : Int :=
  (sampledSeq k a d).s + sampledP k a d - (sampledSeq k a d).p.getD (intakeN d k - 1) 0

/-- The intake with its window, where it is metered, and one sample counted. -/
def sampledIntake (k : Nat) (a : List Int) (d : Dev) : IntakeS :=
  let q := sampledSeq k a d
  let q := if metered d k then { q with p := (sampledP k a d :: q.p).take (intakeN d k), s := sampledS k a d } else { q with p := [], s := 0 }
  { q with cnt := q.cnt + 1 }

/-- The energy of the window enters the channel of a metered intake. -/
def sampledEnergy (k : Nat) (a : List Int) (d e : Dev) : Dev := if metered d k then sortAll (64 + k) [sampledS k a d] e else e

theorem intakeSample_eq (k : Nat) (a : List Int) (d : Dev) : intakeSample k a d =
    let x := fullScale k a d
    let y := sampledEnergy k a x (modIntake k (fun _ => sampledIntake k a x) x)
    if (sampledIntake k a x).cnt ≥ 16 then intakeUpdate k y else y := rfl

theorem sampledIntake_b (k : Nat) (a : List Int) (d : Dev) : (sampledIntake k a d).b = sampledB k a d := by
  unfold sampledIntake
  dsimp only
  split <;> exact (seqStep_keeps _ _ _).1

theorem sampledIntake_cnt (k : Nat) (a : List Int) (d : Dev) : (sampledIntake k a d).cnt = (intakeS d k).cnt + 1 := by
  unfold sampledIntake
  dsimp only
  split <;> exact congrArg (· + 1) (seqStep_keeps _ _ _).2

/-- One sample of an intake: its histories and its count (R312, R319). -/
theorem intakeSample_sets (k : Nat) (a : List Int) (d : Dev) : ∃ q, IntakeSet k q d (intakeSample k a d) ∧
    q.b = sampledB k a (fullScale k a d) ∧ q.cnt = if 16 ≤ (intakeS d k).cnt + 1 then 0 else (intakeS d k).cnt + 1 := by
  have hflags := fullScale_flags k a d
  have hset := (IntakeSet.modIntake (k := k) (sampledIntake k a (fullScale k a d)) _).before hflags
  have hsort := hset.after (f := sampledEnergy k a (fullScale k a d) _) (.ite (.sortAll _ (.refl k _)) (.refl k _))
  have hcnt : (sampledIntake k a (fullScale k a d)).cnt = (intakeS d k).cnt + 1 := by rw [sampledIntake_cnt, hflags.intake]
  rw [intakeSample_eq]
  dsimp only
  rw [hcnt]
  by_cases h : 16 ≤ (intakeS d k).cnt + 1
  · obtain ⟨q, hq, hb, hc⟩ := intakeUpdate_sets k (sampledEnergy k a (fullScale k a d) (modIntake k (fun _ => sampledIntake k a (fullScale k a d)) (fullScale k a d)))
    refine ⟨q, ?_, ?_, ?_⟩
    · rw [if_pos h]
      exact hsort.again hq
    · rw [hb, hsort.own, sampledIntake_b]
    · rw [hc, if_pos h]
  · refine ⟨_, ?_, sampledIntake_b k a _, ?_⟩
    · rw [if_neg h]
      exact hsort
    · rw [hcnt, if_neg h]

theorem getD_map_range {α : Type} (n j : Nat) (hj : j < n) (g : Nat → α) (x : α) : ((List.range n).map g).getD j x = g j := by
  simp [List.getD, hj]

/-- The newest entry of a history is the sample less its offset. -/
theorem sampledB_newest (k : Nat) (hk : k < 2) (a : List Int) (j : Nat) (hj : j < 8) (d : Dev) :
    ((sampledB k a (fullScale k a d)).getD j []).getD 0 0 = a.getD j 0 - oi 32 d (acCal (8 * k + j)) 3 := by
  rw [sampledB, getD_map_range 8 j hj, (fullScale_flags k a d).oi_eq 32 (8 * k + j) (by omega)]
  rfl

end

theorem adcSample_histories {s : State} (samples : List Int) (hm : meters s.dev = true) : Completes (.adcSample samples) s (fun e =>
    (∀ k j, k < 2 → j < 8 → ((intakeS e k).b.getD j []).getD 0 0 = samples.getD (8 * k + j) 0 - oi 32 s.dev (acCal (8 * k + j)) 3 ∧
      (intakeS e k).cnt = (if 16 ≤ (intakeS s.dev k).cnt + 1 then 0 else (intakeS s.dev k).cnt + 1)) ∧
    (∀ m, m < 64 → chanS e m = chanS s.dev m) ∧
    Framed [.legal] [(0x2000, 0), (0x2180 + 64, 1), (0x2180 + 65, 1)] s.dev e) := by
  refine act_completes (f := adcSample samples) rfl (fun e he => ?_)
  have hsample : adcSample samples (fresh s) = intakeSample 1 (samples.drop 8) (intakeSample 0 (samples.take 8) (fresh s)) := if_pos hm
  rw [hsample] at he
  obtain ⟨q, hq, hqb, hqc⟩ := intakeSample_sets 0 (samples.take 8) (fresh s)
  obtain ⟨p, hp, hpb, hpc⟩ := intakeSample_sets 1 (samples.drop 8) (intakeSample 0 (samples.take 8) (fresh s))
  have hlegal : ∀ k, intakeS e k = intakeS (intakeSample 1 (samples.drop 8) (intakeSample 0 (samples.take 8) (fresh s))) k := fun k => by
    unfold intakeS
    rw [he.part .legal]
  have h0 : intakeS e 0 = q := by rw [hlegal, hp.others 0 (by decide), hq.own]
  have h1 : intakeS e 1 = p := by rw [hlegal, hp.own]
  refine ⟨fun k j hk hj => ?_, fun m hmm => ?_, ?_⟩
  · obtain rfl | rfl : k = 0 ∨ k = 1 := by omega
    · rw [h0, hqb, sampledB_newest 0 (by decide) _ j hj, hqc]
      exact ⟨by simp [List.getD, hj]; rfl, rfl⟩
    · have hoi : oi 32 (intakeSample 0 (samples.take 8) (fresh s)) (acCal (8 * 1 + j)) 3 = oi 32 s.dev (acCal (8 * 1 + j)) 3 :=
        congrArg (toS 32) (hq.frame.on_eq (by decide) (counted_of_lt _ (by unfold acCal; omega)) (by simp))
      rw [h1, hpb, sampledB_newest 1 (by decide) _ j hj, hpc, hoi, hq.others 1 (by decide)]
      exact ⟨by simp [List.getD, List.getElem?_drop], rfl⟩
  · rw [chanS_congr (he.part .legal), hp.chans m hmm, hq.chans m hmm]
    rfl
  · exact .of_fresh (((hq.frame.mono (by simp) (by simp)).trans (hp.frame.mono (by simp) (by simp))).follow he)

end Sys2Proof

/-! Pulse outputs (R324, R330). -/

namespace Sys2Proof

open Machine

section

variable {x y : Nat} {d e f : Dev}

/-! ### One millisecond of an output -/

/-- The pulse output `x`. -/
def pulseS (d : Dev) (x : Nat) : PulseS := d.legal.pulses.getD x {}

/-- The accumulator with the units of the millisecond. -/
def pulseAcc (x : Nat) (d : Dev) : Nat :=
  (pulseS d x).a + (if on d (0x2008 + x) 2 = 0 then (chanS d (on d (0x2008 + x) 1)).msImp else (chanS d (on d (0x2008 + x) 1)).msExp)

/-- The output with its units, one millisecond later. -/
def pulseFed (x : Nat) (d : Dev) : PulseS := { pulseS d x with a := pulseAcc x d, left := (pulseS d x).left - 1 }

/-- What the output does, and the level that it then sends. -/
def pulseMove (x : Nat) (d : Dev) : PulseS × List Bool :=
  let p := pulseFed x d
  if p.busy && decide (p.left = 0) then ({ p with busy := false, left := on d (0x2008 + x) 4 }, [false])
  else if !p.busy && decide (p.left = 0) && decide (p.a ≥ on d (0x2008 + x) 3) && d.pair.role != .standby then
    ({ p with a := p.a - on d (0x2008 + x) 3, busy := true, left := on d (0x2008 + x) 4 }, [true])
  else (p, [])

/-- A thousand pulses wait. -/
def pulseHigh (x : Nat) (d : Dev) : Bool := decide (pulseAcc x d ≥ 1000 * on d (0x2008 + x) 3)

/-- The output after its millisecond, and what it sends. -/
def pulseMoved (x : Nat) (d : Dev) : Dev :=
  forEach (pulseMove x d).2 (fun v => emit (.pulse x v))
    (modLegal (fun l => { l with pulses := setAt l.pulses x { (pulseMove x d).1 with back := pulseHigh x d } }) d)

/-- The backlog that an output shows. -/
def pulseShown (x n : Nat) (d : Dev) : Dev := if on d (0x2008 + x) 5 = n then d else put (0x2008 + x) 5 n d

/-- The event of a long backlog. -/
def pulseTold (x : Nat) (b : Bool) (d : Dev) : Dev := if b then raise 0x4A05 x 0 (setStatus 0x2000 0 13 d) else d

theorem pulseStep_off (h : on d (0x2008 + x) 3 = 0) : pulseStep x d = d := if_pos h

theorem pulseMoved_eq (x : Nat) (d : Dev) : ∃ b, pulseMoved x d =
    { modLegal (fun l => { l with pulses := setAt l.pulses x { (pulseMove x d).1 with back := pulseHigh x d } }) d with sent := b } := by
  unfold pulseMoved
  generalize (pulseMove x d).2 = l
  generalize modLegal _ d = z
  induction l generalizing z with
  | nil => exact ⟨_, rfl⟩
  | cons v l ih =>
    obtain ⟨b, hb⟩ := ih (emit (.pulse x v) z)
    exact ⟨b, hb⟩

theorem pulseStep_on (h : on d (0x2008 + x) 3 ≠ 0) : pulseStep x d =
    pulseTold x (pulseHigh x d && !(pulseS d x).back)
      (pulseShown x (satU 32 ((pulseMove x d).1.a / on d (0x2008 + x) 3)) (pulseMoved x d)) := if_neg h

/-- What the turn of one output leaves: the other outputs, the channels, what is raised and sent. -/
structure PulseTurn (x : Nat) (d e : Dev) : Prop where
  others : ∀ y, y ≠ x → pulseS e y = pulseS d y
  chans : e.legal.chans = d.legal.chans
  pair : e.pair = d.pair
  frame : Framed [.legal] [(0x2000, 0), (0x2008 + x, 5)] d e
  raised : ∀ c i b, raised d c i b = true → raised e c i b = true
  sent : ∀ t, t ∈ d.sent → t ∈ e.sent
  bit : (on d 0x2000 0).testBit 13 = true → (on e 0x2000 0).testBit 13 = true

namespace PulseTurn

theorem refl (x : Nat) (d : Dev) : PulseTurn x d d :=
  ⟨fun _ _ => rfl, rfl, rfl, .refl _ _ d, fun _ _ _ h => h, fun _ h => h, fun h => h⟩

theorem trans (h : PulseTurn x d e) (g : PulseTurn x e f) : PulseTurn x d f :=
  ⟨fun y hy => (g.others y hy).trans (h.others y hy), g.chans.trans h.chans, g.pair.trans h.pair, h.frame.trans g.frame,
    fun c i b hr => g.raised c i b (h.raised c i b hr), fun t ht => g.sent t (h.sent t ht), fun hb => g.bit (h.bit hb)⟩

theorem set (x : Nat) (p : PulseS) (d : Dev) : PulseTurn x d (modLegal (fun l => { l with pulses := setAt l.pulses x p }) d) :=
  ⟨fun _ hy => getD_modAt_other _ _ _ _ hy.symm, rfl, rfl, .legal (by simp) (.refl _ _ d) _, fun _ _ _ h => h, fun _ h => h, fun h => h⟩

theorem emits (x : Nat) (l : List Bool) (d : Dev) : PulseTurn x d (forEach l (fun v => emit (.pulse x v)) d) := by
  induction l generalizing d with
  | nil => exact .refl x d
  | cons v l ih =>
    have hone : PulseTurn x d (emit (.pulse x v) d) :=
      ⟨fun _ _ => rfl, rfl, rfl, .emit (.refl _ _ d) _, fun _ _ _ h => h, fun _ h => List.mem_cons_of_mem _ h, fun h => h⟩
    exact hone.trans (ih _)

theorem shown (n : Nat) (hx : x < 4) (d : Dev) : PulseTurn x d (pulseShown x n d) := by
  unfold pulseShown
  split
  · exact .refl x d
  · refine ⟨fun _ _ => rfl, rfl, rfl, .put (by decide) (by simp) (.refl _ _ d), fun _ _ _ h => h, fun _ h => h, fun h => ?_⟩
    rwa [on_put_other _ _ _ _ _ _ (by unfold okey; omega)]

theorem told (x : Nat) (b : Bool) (d : Dev) : PulseTurn x d (pulseTold x b d) := by
  unfold pulseTold
  split
  · refine ⟨fun _ _ => rfl, rfl, rfl, .raise (.put (by decide) (by simp) (.refl _ _ d)), fun _ _ _ h => raised_raise_mono _ _ _ _ _ _ _ h,
      fun _ h => h, fun h => ?_⟩
    rw [on_raise, on_setStatus_same, testBit_setBit, h]
    rfl
  · exact .refl x d

end PulseTurn

theorem pulseMoved_turn (x : Nat) (d : Dev) : PulseTurn x d (pulseMoved x d) := (PulseTurn.set x _ d).trans (.emits x _ _)

theorem pulseStep_turn (hx : x < 4) (d : Dev) : PulseTurn x d (pulseStep x d) := by
  by_cases h : on d (0x2008 + x) 3 = 0
  · rw [pulseStep_off h]
    exact .refl x d
  · rw [pulseStep_on h]
    exact ((pulseMoved_turn x d).trans (.shown _ hx _)).trans (.told x _ _)

/-! ### What the turn of an output makes of it -/

/-- The outcome of the turn of an output that is enabled. -/
structure PulseDone (x : Nat) (d e : Dev) : Prop where
  own : pulseS e x = { (pulseMove x d).1 with back := pulseHigh x d }
  shown : on e (0x2008 + x) 5 = satU 32 ((pulseMove x d).1.a / on d (0x2008 + x) 3)
  told : pulseHigh x d = true → (pulseS d x).back = false → raised e 0x4A05 x = true ∧ (on e 0x2000 0).testBit 13 = true
  sent : ∀ v ∈ (pulseMove x d).2, .pulse x v ∈ e.sent

theorem pulseS_pulseMoved (x : Nat) (d : Dev) : pulseS (pulseMoved x d) x = { (pulseMove x d).1 with back := pulseHigh x d } := by
  obtain ⟨b, hb⟩ := pulseMoved_eq x d
  rw [hb]
  exact getD_modAt_same _ _ _

theorem sent_pulseMoved (x : Nat) (d : Dev) : ∀ v ∈ (pulseMove x d).2, .pulse x v ∈ (pulseMoved x d).sent := by
  unfold pulseMoved
  generalize modLegal _ d = z
  generalize (pulseMove x d).2 = l
  induction l generalizing z with
  | nil => exact fun v hv => absurd hv List.not_mem_nil
  | cons w l ih =>
    intro v hv
    obtain rfl | hv := List.mem_cons.1 hv
    · exact (PulseTurn.emits x l (emit (.pulse x v) z)).sent _ List.mem_cons_self
    · exact ih _ v hv

theorem on_pulseShown (n : Nat) (d : Dev) : on (pulseShown x n d) (0x2008 + x) 5 = n := by
  unfold pulseShown
  split
  case isTrue h => exact h
  case isFalse => exact on_put_same _ _ _ _

theorem pulseS_pulseShown (n : Nat) (d : Dev) : pulseS (pulseShown x n d) x = pulseS d x := by
  unfold pulseShown
  split <;> rfl

theorem pulseS_pulseTold (b : Bool) (d : Dev) : pulseS (pulseTold x b d) x = pulseS d x := by
  unfold pulseTold
  split <;> rfl

theorem pulseTold_tells (d : Dev) : raised (pulseTold x true d) 0x4A05 x = true ∧ (on (pulseTold x true d) 0x2000 0).testBit 13 = true := by
  refine ⟨raised_raise _ _ _ _, ?_⟩
  rw [pulseTold, if_pos rfl, on_raise, on_setStatus_same]
  exact testBit_setBit_same _ _

theorem on_pulseTold (b : Bool) (hx : x < 4) (d : Dev) : on (pulseTold x b d) (0x2008 + x) 5 = on d (0x2008 + x) 5 := by
  unfold pulseTold
  split
  · rw [on_raise, on_setStatus_other _ _ _ _ _ _ (by unfold okey; omega)]
  · rfl

theorem pulseStep_done (hx : x < 4) (h : on d (0x2008 + x) 3 ≠ 0) : PulseDone x d (pulseStep x d) := by
  rw [pulseStep_on h]
  refine ⟨?_, ?_, fun hh hb => ?_, fun v hv => ?_⟩
  · rw [pulseS_pulseTold, pulseS_pulseShown, pulseS_pulseMoved]
  · rw [on_pulseTold _ hx, on_pulseShown]
  · rw [hh, hb]
    exact pulseTold_tells _
  · exact ((PulseTurn.shown _ hx _).trans (.told x _ _)).sent _ (sent_pulseMoved x d v hv)

/-- The turns of the other outputs leave what this one became. -/
theorem PulseDone.after (hx : x < 4) (hne : y ≠ x) (h : PulseDone x d e) (g : PulseTurn y e f) : PulseDone x d f where
  own := (g.others x hne.symm).trans h.own
  shown := (g.frame.on_eq (by decide) (counted_of_lt _ (by omega)) (by simp; omega)).trans h.shown
  told := fun hh hb => ⟨g.raised _ _ _ (h.told hh hb).1, g.bit (h.told hh hb).2⟩
  sent := fun v hv => g.sent _ (h.sent v hv)

/-- What an output needs for its turn is as it was. -/
structure PulseInputs (x : Nat) (d e : Dev) : Prop where
  own : pulseS e x = pulseS d x
  chans : e.legal.chans = d.legal.chans
  pair : e.pair = d.pair
  config : ∀ sub, sub < 5 → on e (0x2008 + x) sub = on d (0x2008 + x) sub

theorem PulseInputs.after (hx : x < 4) (hne : y ≠ x) (h : PulseInputs x d e) (g : PulseTurn y e f) : PulseInputs x d f where
  own := (g.others x hne.symm).trans h.own
  chans := g.chans.trans h.chans
  pair := g.pair.trans h.pair
  config := fun sub hs => (g.frame.on_eq (by omega) (counted_of_lt _ (by omega)) (by simp; omega)).trans (h.config sub hs)

theorem PulseInputs.acc (h : PulseInputs x d e) : pulseAcc x e = pulseAcc x d := by
  unfold pulseAcc chanS
  rw [h.own, h.chans, h.config 1 (by decide), h.config 2 (by decide)]

theorem PulseInputs.high (h : PulseInputs x d e) : pulseHigh x e = pulseHigh x d := by
  unfold pulseHigh
  rw [h.acc, h.config 3 (by decide)]

theorem PulseInputs.move (h : PulseInputs x d e) : pulseMove x e = pulseMove x d := by
  unfold pulseMove pulseFed
  rw [h.own, h.acc, h.pair, h.config 3 (by decide), h.config 4 (by decide)]

theorem PulseInputs.done (h : PulseInputs x d e) (g : PulseDone x e f) : PulseDone x d f where
  own := by rw [g.own, h.move, h.high]
  shown := by rw [g.shown, h.move, h.config 3 (by decide)]
  told := fun hh hb => g.told (h.high.trans hh) ((congrArg PulseS.back h.own).trans hb)
  sent := fun v hv => g.sent v (h.move ▸ hv)

/-- The turns of the four outputs. -/
def pulseTurns (d : Dev) : Dev := forEach [0, 1, 2, 3] pulseStep d

theorem pulseTurns_done (hx : x < 4) (h : on d (0x2008 + x) 3 ≠ 0) : PulseDone x d (pulseTurns d) := by
  have hlt : ∀ y ∈ [0, 1, 2, 3], y < 4 := by decide
  refine forEach_turn (j := x) (P := PulseInputs x d) (by decide) ?_ (fun y hy hne z hz => hz.after hx hne (pulseStep_turn (hlt y hy) z))
    (fun y hy hne z hz => hz.after hx hne (pulseStep_turn (hlt y hy) z)) (fun z hz => ?_) ⟨rfl, rfl, rfl, fun _ _ => rfl⟩
  · interval_cases x <;> decide
  · exact hz.done (pulseStep_done hx (by rw [hz.config 3 (by decide)]; exact h))

/-- An output that is off stays as it is. -/
theorem pulseTurns_off (hx : x < 4) (h : on d (0x2008 + x) 3 = 0) : pulseS (pulseTurns d) x = pulseS d x := by
  have hlt : ∀ y ∈ [0, 1, 2, 3], y < 4 := by decide
  refine (forEach_keeps (P := PulseInputs x d) (fun y hy z hz => ?_) ⟨rfl, rfl, rfl, fun _ _ => rfl⟩).own
  by_cases hne : y = x
  · subst hne
    rw [pulseStep_off (by rw [hz.config 3 (by decide)]; exact h)]
    exact hz
  · exact hz.after hx hne (pulseStep_turn (hlt y hy) z)

/-- The objects of the outputs. -/
def pulseObjs : List (Nat × Nat) := [(0x2000, 0), (0x2008, 5), (0x2009, 5), (0x200A, 5), (0x200B, 5)]

theorem pulseTurns_framed (d : Dev) : Framed [.legal] pulseObjs d (pulseTurns d) ∧ (pulseTurns d).legal.chans = d.legal.chans := by
  refine forEach_keeps (P := fun z => Framed [.legal] pulseObjs d z ∧ z.legal.chans = d.legal.chans) (fun y hy z hz => ?_) ⟨.refl _ _ d, rfl⟩
  have hlt : ∀ y ∈ [0, 1, 2, 3], y < 4 := by decide
  have hturn := pulseStep_turn (hlt y hy) z
  refine ⟨hz.1.trans (hturn.frame.mono (by simp) ?_), hturn.chans.trans hz.2⟩
  have hy' := hlt y hy
  interval_cases y <;> decide

/-! ### The millisecond -/

/-- The units of the millisecond are used up. -/
def msUsed (c : ChanS) : ChanS := { c with msImp := 0, msExp := 0 }

def unitsUsed (d : Dev) : Dev := modLegal (fun l => { l with chans := l.chans.map msUsed }) d

theorem chanS_unitsUsed (m : Nat) (d : Dev) : chanS (unitsUsed d) m = msUsed (chanS d m) := by
  simp only [chanS, unitsUsed, modLegal, List.getD_eq_getElem?_getD, List.getElem?_map]
  cases d.legal.chans[m]? <;> rfl

/-- What an enabled output that is to stay, to release or to assert becomes. -/
theorem pulseMove_cases (x : Nat) (d : Dev) :
    if 1 < (pulseS d x).left then pulseMove x d = (pulseFed x d, [])
    else if (pulseS d x).busy = true then pulseMove x d = ({ pulseFed x d with busy := false, left := on d (0x2008 + x) 4 }, [false])
    else if on d (0x2008 + x) 3 ≤ pulseAcc x d ∧ d.pair.role ≠ .standby then
      pulseMove x d = ({ pulseFed x d with a := pulseAcc x d - on d (0x2008 + x) 3, busy := true, left := on d (0x2008 + x) 4 }, [true])
    else pulseMove x d = (pulseFed x d, []) := by
  have hbusy : (pulseFed x d).busy = (pulseS d x).busy := rfl
  have hleft : (pulseFed x d).left = (pulseS d x).left - 1 := rfl
  have hacc : (pulseFed x d).a = pulseAcc x d := rfl
  unfold pulseMove
  dsimp only
  split
  case isTrue h =>
    have h0 : (pulseFed x d).left ≠ 0 := by omega
    simp [h0]
  case isFalse h =>
    have h0 : (pulseFed x d).left = 0 := by omega
    split
    case isTrue hb => simp [h0, hbusy, hb]
    case isFalse hb =>
      split
      case isTrue hgo =>
        obtain ⟨ha, hs⟩ := hgo
        simp [h0, hbusy, hb, hacc, ha, hs]
      case isFalse hgo =>
        have hgo' : on d (0x2008 + x) 3 ≤ pulseAcc x d → d.pair.role = .standby := fun ha => by
          by_contra hs
          exact hgo ⟨ha, hs⟩
        simpa [h0, hbusy, hb, hacc] using hgo'

end

theorem pulseMs_outputs {s : State} (hm : meters s.dev = true) : Completes .pulseMs s (fun e =>
    (∀ m, (chanS e m).msImp = 0 ∧ (chanS e m).msExp = 0 ∧ (chanS e m).uImp = (chanS s.dev m).uImp ∧ (chanS e m).rImp = (chanS s.dev m).rImp) ∧
    (∀ x, x < 4 → (on s.dev (0x2008 + x) 3 = 0 → pulseS e x = pulseS s.dev x) ∧ (on s.dev (0x2008 + x) 3 ≠ 0 → PulseDone x s.dev e)) ∧
    Framed [.legal] pulseObjs s.dev e) := by
  refine act_completes (f := pulseMs) rfl (fun e he => ?_)
  have hms : pulseMs (fresh s) = unitsUsed (pulseTurns (fresh s)) :=
    if_neg (by rw [show meters (fresh s) = true from hm]; decide)
  rw [hms] at he
  obtain ⟨hframe, hchans⟩ := pulseTurns_framed (fresh s)
  have hoff := fun x hx h => pulseTurns_off (d := fresh s) (x := x) hx h
  have hdone := fun x hx h => pulseTurns_done (d := fresh s) (x := x) hx h
  generalize pulseTurns (fresh s) = y at he hframe hchans hoff hdone
  have hlegal : e.legal = (unitsUsed y).legal := he.part .legal
  have hown : ∀ x, pulseS e x = pulseS y x := fun x => by
    unfold pulseS
    rw [hlegal]
    rfl
  refine ⟨fun m => ?_, fun x hx => ⟨fun h => ?_, fun h => ?_⟩, ?_⟩
  · have hc : chanS y m = chanS s.dev m := by
      unfold chanS
      rw [hchans]
      rfl
    rw [chanS_congr hlegal, chanS_unitsUsed, hc]
    exact ⟨rfl, rfl, rfl, rfl⟩
  · exact (hown x).trans (hoff x hx h)
  · obtain ⟨hset, hshown, htold, hsent⟩ := hdone x hx h
    refine ⟨(hown x).trans hset, (he.on_low (by decide) (by omega)).trans hshown,
      fun hh hb => ⟨he.raised _ _ _ (htold hh hb).1, ?_⟩, fun v hv => he.sent _ (hsent v hv)⟩
    have hbit := (htold hh hb).2
    rwa [he.on_low (by decide) (by decide)]
  · exact .of_fresh ((hframe.trans (.legal (by simp) (.refl _ _ _) _)).follow he)

/-- Settles O30: the sample of each intake in turn, and the turn of each pulse output. -/
theorem samplesAndPulses : Obligations.SamplesAndPulses := by
  refine ⟨fun s samples hm => adcSample_histories samples hm, fun s hm => (pulseMs_outputs hm).mono (fun e he => ?_)⟩
  obtain ⟨hunits, hout, hframe⟩ := he
  refine ⟨hunits, fun x hx => ?_, hframe⟩
  intro p const c a q
  refine ⟨(hout x hx).1, fun hon => ?_⟩
  obtain ⟨hown, hshown, htold, hsent⟩ := (hout x hx).2 hon
  have hcases := pulseMove_cases x s.dev
  have hown' : e.legal.pulses.getD x {} = { (pulseMove x s.dev).1 with back := pulseHigh x s.dev } := hown
  refine ⟨?_, fun hh hb => htold (decide_eq_true hh) hb, ?_⟩
  · rw [hown']
    exact hshown
  · rw [hown']
    change if 1 < (pulseS s.dev x).left then _ else if (pulseS s.dev x).busy = true then _ else
      if on s.dev (0x2008 + x) 3 ≤ pulseAcc x s.dev ∧ s.dev.pair.role ≠ .standby then _ else _
    split at hcases
    case isTrue h =>
      rw [if_pos h, hcases]
      rfl
    case isFalse h =>
      rw [if_neg h]
      split at hcases
      case isTrue hb =>
        rw [if_pos hb]
        exact ⟨by rw [hcases]; rfl, hsent _ (by rw [hcases]; simp)⟩
      case isFalse hb =>
        rw [if_neg hb]
        split at hcases
        case isTrue hgo =>
          rw [if_pos hgo]
          exact ⟨by rw [hcases]; rfl, hsent _ (by rw [hcases]; simp)⟩
        case isFalse hgo =>
          rw [if_neg hgo, hcases]
          rfl

end Sys2Proof

/-! The management watchdog (R497, R504). -/

namespace Sys2Proof

open Machine

section

variable {ps : List Part} {ks : List (Nat × Nat)} {d e : Dev}

theorem Framed.update (hp : .update ∈ ps) (h : Framed ps ks d e) (x : UpdS) : Framed ps ks d { e with update := x } :=
  h.fields (fun p hq => by cases p <;> first | exact absurd hp hq | rfl | exact fun _ => rfl) rfl

theorem Framed.yard (hp : .yard ∈ ps) (h : Framed ps ks d e) (x : YardS) : Framed ps ks d { e with yard := x } :=
  h.fields (fun p hq => by cases p <;> first | exact absurd hp hq | rfl | exact fun _ => rfl) rfl

theorem Framed.malpen (hp : .malpen ∈ ps) (h : Framed ps ks d e) (x : MalpenS) : Framed ps ks d { e with malpen := x } :=
  h.fields (fun p hq => by cases p <;> first | exact absurd hp hq | rfl | exact fun _ => rfl) rfl

theorem Framed.mon (hp : .mon ∈ ps) (h : Framed ps ks d e) (x : MonS) : Framed ps ks d { e with mon := x } :=
  h.fields (fun p hq => by cases p <;> first | exact absurd hp hq | rfl | exact fun _ => rfl) rfl

/-- Frames that wait are in no frame of what a command leaves. -/
theorem Framed.modTx {b : Nat} {g : List CanFrame → List CanFrame} (h : Framed ps ks d e) :
    Framed ps ks d (Machine.modFb b (fun s => { s with tx := g s.tx }) e) := by
  refine h.fields (fun p _ => ?_) rfl
  cases p
  case bus =>
    intro n
    by_cases hn : b = n
    · subst hn
      rw [fbS_modFb_same]
      rfl
    · rw [fbS_modFb_other _ _ _ _ hn]
  case dma => exact fun _ => rfl
  all_goals rfl

/-! ### The end of all sessions -/

/-- The objects that count the sessions and the frames withdrawn. -/
def sesEndObjs : List (Nat × Nat) := [(0x3015, 1), (0x3008, 8), (0x3009, 8), (0x300A, 8), (0x300B, 8)]

theorem fbWithdraw_framed {b : Nat} (hb : b < 4) (f : CanFrame → Bool) (d : Dev) : Framed [] sesEndObjs d (fbWithdraw b f d) := by
  have hmem : (0x3008 + b, 8) ∈ sesEndObjs := by interval_cases b <;> decide
  exact .ite (.refl _ _ d) (.put (by decide) hmem (.modTx (.refl _ _ d)))

theorem endSession_framed (c : Client) (d : Dev) : Framed [.malpen] sesEndObjs d (endSession c d) := by
  have hcount : ∀ x : Dev, Framed [.malpen] sesEndObjs x (countSessions x) := fun x =>
    .ite (.refl _ _ x) (.put (by decide) (by decide) (.refl _ _ x))
  have hended := (Framed.malpen (ps := [.malpen]) (ks := sesEndObjs) (by simp) (.refl _ _ d)
    { d.malpen with ses := d.malpen.ses.filter (fun s => !(s.client == c)), xf := d.malpen.xf.filter (fun x => !(x.client == c)) }).trans
    (hcount _)
  refine .ite (.refl _ _ d) ?_
  dsimp only
  split
  case isTrue hb => exact hended.trans ((fbWithdraw_framed hb _ _).mono (by simp) (fun _ h => h))
  case isFalse => exact hended

theorem countSessions_malpen (d : Dev) : (countSessions d).malpen = d.malpen := by
  unfold countSessions
  split <;> rfl

theorem fbWithdraw_malpen (b : Nat) (f : CanFrame → Bool) (d : Dev) : (fbWithdraw b f d).malpen = d.malpen := by
  unfold fbWithdraw
  dsimp only
  split <;> rfl

theorem endSession_ses (c : Client) (d : Dev) : (endSession c d).malpen.ses = d.malpen.ses.filter (fun s => !(s.client == c)) := by
  unfold endSession
  split
  case isTrue h =>
    refine (List.filter_eq_self.2 fun x hx => ?_).symm
    have hnone : d.malpen.ses.any (fun s => s.client == c) = false := by simpa using h
    rw [List.any_eq_false.1 hnone x hx |> eq_false_of_ne_true]
    rfl
  case isFalse =>
    dsimp only
    split
    · rw [fbWithdraw_malpen, countSessions_malpen]
    · rw [countSessions_malpen]

/-- Sessions whose client is listed end. -/
theorem endSessions_ses (cs : List Client) (d : Dev) (h : ∀ x ∈ d.malpen.ses, x.client ∈ cs) :
    (forEach cs endSession d).malpen.ses = [] := by
  induction cs generalizing d with
  | nil => exact List.eq_nil_iff_forall_not_mem.2 (fun x hx => absurd (h x hx) List.not_mem_nil)
  | cons c cs ih =>
    refine ih (endSession c d) (fun x hx => ?_)
    rw [endSession_ses] at hx
    obtain ⟨hx, hne⟩ := List.mem_filter.1 hx
    obtain heq | hin := List.mem_cons.1 (h x hx)
    · rw [heq] at hne
      simp at hne
    · exact hin

theorem endSessions_framed (d : Dev) : Framed [.malpen] sesEndObjs d (endSessions d) :=
  .malpen (by simp) (.forEach (fun c _ x => endSession_framed c x) (.refl _ _ d)) _

theorem endSessions_malpen (d : Dev) : (endSessions d).malpen.ses = [] ∧ (endSessions d).malpen.xf = [] :=
  ⟨endSessions_ses _ d (fun _ hx => List.mem_map_of_mem hx), rfl⟩

/-! ### The monitor locks again -/

theorem monRelock_role (d : Dev) : (monRelock d).mon.role = none := by
  unfold monRelock
  split
  case isTrue =>
    have hpub : ∀ x, (monPublish x).mon = x.mon := fun x => by
      unfold monPublish
      dsimp only
      split <;> rfl
    exact congrArg MonS.role (hpub _)
  case isFalse h => simpa using h

theorem monRelock_framed (d : Dev) : Framed [.mon] [] d (monRelock d) := by
  have hpub : ∀ x : Dev, Framed [.mon] [] x (monPublish x) := fun x => .ite (.refl _ _ x) (.put_counted (by decide) (by decide) (.refl _ _ x))
  refine .ite (.raise (.trans (.put_counted (by decide) (by decide) (.mon (by simp) (.refl _ _ d) _)) (hpub _))) (.refl _ _ d)

theorem monRelock_raised (d : Dev) {c i : Nat} {b : Bool} (h : raised d c i b = true) : raised (monRelock d) c i b = true := by
  have hpub : ∀ x : Dev, (monPublish x).ev = x.ev := fun x => by
    unfold monPublish
    dsimp only
    split <;> rfl
  unfold monRelock
  split
  · refine raised_raise_mono _ _ _ _ _ _ _ ?_
    rwa [raised_congr (hpub _)]
  · exact h

/-! ### The cluster restarts -/

/-- The state of the start and of the watchdog after a restart of the cluster. -/
def restarted (x : StartS) : StartS :=
  { x with stalled := none, missed := [0, 0, 0, 0], kicked := [false, false, false, false]
           restarts := x.t :: x.restarts.filter (fun r => decide (x.t < r + 60000000000)) }

/-- The sessions, routes and dwell times that a restart of the cluster ends. -/
def clusterEnded (d : Dev) : Dev :=
  modStart restarted (modUpd (fun u => { u with dwell := 0 }) (endSessions { d with yard := { d.yard with routes := [] } }))

/-- The restart is counted and told. -/
def clusterTold (core : Nat) (d : Dev) : Dev := raise 0x0C01 core 0 (put 0x602 2 d.time.micro (incr 32 0x602 1 (setStatus 0x601 0 4 d)))

theorem mgmtRestartNow_eq (core : Nat) (d : Dev) : mgmtRestartNow core d = monRelock (clusterTold core (clusterEnded d)) := rfl

theorem clusterEnded_framed (d : Dev) : Framed [.malpen, .yard, .update, .startup] sesEndObjs d (clusterEnded d) :=
  .startup (by simp) (.update (by simp) ((Framed.yard (by simp) (.refl _ _ d) _).trans
    ((endSessions_framed _).mono (by simp) (fun _ h => h))) _) _

theorem clusterTold_framed (core : Nat) (d : Dev) : Framed [] [(0x601, 0), (0x602, 1), (0x602, 2)] d (clusterTold core d) :=
  .raise (.put (by decide) (by simp) (.put (by decide) (by simp) (.put (by decide) (by simp) (.refl _ _ d))))

theorem mgmtRestartNow_framed (core : Nat) (d : Dev) : Framed [.malpen, .yard, .update, .startup, .mon]
    (sesEndObjs ++ [(0x601, 0), (0x602, 1), (0x602, 2)]) d (mgmtRestartNow core d) := by
  rw [mgmtRestartNow_eq]
  exact ((clusterEnded_framed d).mono (by simp) (fun _ h => List.mem_append_left _ h)).trans
    (((clusterTold_framed core _).mono (by simp) (fun _ h => List.mem_append_right _ h)).trans
      ((monRelock_framed _).mono (by simp) (by simp)))

theorem on_mgmtRestartNow (core : Nat) (d : Dev) : on (mgmtRestartNow core d) 0x602 1 = incSat 32 (on d 0x602 1) := by
  have hended : on (clusterEnded d) 0x602 1 = on d 0x602 1 := (clusterEnded_framed d).on_eq (by decide) (by decide) (by decide)
  have htold : on (clusterTold core (clusterEnded d)) 0x602 1 = incSat 32 (on (clusterEnded d) 0x602 1) := by
    rw [clusterTold, on_raise, on_put_other _ _ _ _ _ _ (by decide), on_incr_same, on_setStatus_other _ _ _ _ _ _ (by decide)]
  rw [mgmtRestartNow_eq, (monRelock_framed _).on_eq (by decide) (by decide) (by simp), htold, hended]

theorem no_sessions_of_same (h : Part.Same .malpen d e) (hs : d.malpen.ses = []) : e.malpen.ses = [] := by
  have hm := congrArg MalpenS.ses h
  exact List.map_eq_nil_iff.1 (Eq.trans hm (congrArg (List.map _) hs))

theorem mgmtRestartNow_malpen (core : Nat) (d : Dev) : (mgmtRestartNow core d).malpen.ses = [] ∧ (mgmtRestartNow core d).malpen.xf = [] := by
  have hlast : Framed [.mon] [(0x601, 0), (0x602, 1), (0x602, 2)] (clusterEnded d) (mgmtRestartNow core d) :=
    ((clusterTold_framed core _).mono (by simp) (fun _ h => h)).trans ((monRelock_framed _).mono (by simp) (by simp))
  have h : Part.Same .malpen (clusterEnded d) (mgmtRestartNow core d) := hlast.1 .malpen (by simp)
  obtain ⟨hses, hxf⟩ := endSessions_malpen { d with yard := { d.yard with routes := [] } }
  exact ⟨no_sessions_of_same h hses, (congrArg MalpenS.xf h).trans hxf⟩

theorem mgmtRestartNow_startup (core : Nat) (d : Dev) : (mgmtRestartNow core d).startup = restarted d.startup := by
  have hlast : Framed [.mon] [(0x601, 0), (0x602, 1), (0x602, 2)] (clusterEnded d) (mgmtRestartNow core d) :=
    ((clusterTold_framed core _).mono (by simp) (fun _ h => h)).trans ((monRelock_framed _).mono (by simp) (by simp))
  have h : (mgmtRestartNow core d).startup = (clusterEnded d).startup := hlast.1 .startup (by simp)
  have hend : (endSessions { d with yard := { d.yard with routes := [] } }).startup = d.startup :=
    (endSessions_framed _).1 .startup (by simp)
  exact h.trans (congrArg restarted hend)

theorem mgmtRestartNow_routes (core : Nat) (d : Dev) : (mgmtRestartNow core d).yard.routes = [] := by
  have hlast : Framed [.mon] [(0x601, 0), (0x602, 1), (0x602, 2)] (clusterEnded d) (mgmtRestartNow core d) :=
    ((clusterTold_framed core _).mono (by simp) (fun _ h => h)).trans ((monRelock_framed _).mono (by simp) (by simp))
  have h : (mgmtRestartNow core d).yard = (clusterEnded d).yard := hlast.1 .yard (by simp)
  have hend : (endSessions { d with yard := { d.yard with routes := [] } }).yard = { d.yard with routes := [] } :=
    (endSessions_framed _).1 .yard (by simp)
  rw [h]
  exact congrArg YardS.routes hend

/-- The cluster has stalled again too soon, or for the third time. -/
def tooOften (x : StartS) : Bool :=
  let near := x.restarts.filter (fun r => decide (x.t < r + 60000000000))
  near.any (fun r => decide (x.t < r + 10000000000)) || decide (2 ≤ near.length)

theorem mgmtRestart_stalled {c : Nat} (hr : running d = true) (hs : d.startup.stalled = some c) : mgmtRestart d =
    if tooOften d.startup then watchdogRestart (modStart (fun s => { s with wdog := true }) d) else mgmtRestartNow c d := by
  unfold mgmtRestart
  rw [hs, hr]
  rfl

end

section

variable {s : State} (hr : running s.dev = true)

include hr

theorem mgmtKick_kicks {c : Nat} (hc : c < 4) : Completes (.mgmtKick c) s (fun e =>
    e.startup = { s.dev.startup with kicked := setAt s.dev.startup.kicked c true } ∧ Framed [.startup] [] s.dev e) := by
  have hkick : mgmtKick c (fresh s) = modStart (fun x => { x with kicked := setAt x.kicked c true }) (fresh s) := if_pos (by
    rw [show running (fresh s) = true from hr]
    simpa using hc)
  exact part_completes (g := mgmtKick c) rfl (by simpa using hc) hkick (fun e he =>
    ⟨he.part .startup, .of_fresh ((Framed.startup (by simp) (.refl _ _ _) _).follow he)⟩)

variable {c : Nat} (hs : s.dev.startup.stalled = some c)

include hs

theorem mgmtRestart_alone (h : tooOften s.dev.startup = false) : Completes .mgmtRestart s (fun e =>
    raised e 0x0C01 c = true ∧ e.malpen.ses = [] ∧ e.malpen.xf = [] ∧ e.startup.stalled = none ∧
      s.dev.startup.t ∈ e.startup.restarts ∧ e.yard.routes = [] ∧ e.mon.role = none ∧
      on e 0x602 1 = incSat 32 (on s.dev 0x602 1) ∧ running e = true ∧
      OnlyParts [.malpen, .yard, .update, .startup, .mon] s.dev e) := by
  refine act_completes (f := mgmtRestart) rfl (fun e he => ?_)
  rw [mgmtRestart_stalled (d := fresh s) hr hs, if_neg (show ¬ tooOften (fresh s).startup = true from fun h' => absurd (h.symm.trans h') (by decide))] at he
  have hstart : e.startup = restarted s.dev.startup := (he.part .startup).trans (mgmtRestartNow_startup c _)
  have hmon : monCore e.mon = monCore (mgmtRestartNow c (fresh s)).mon := he.part .mon
  obtain ⟨hses, hxf⟩ := mgmtRestartNow_malpen c (fresh s)
  have hframe := (mgmtRestartNow_framed c (fresh s)).follow he
  refine ⟨?_, no_sessions_of_same (he.part .malpen) hses, (congrArg MalpenS.xf (he.part .malpen)).trans hxf, ?_, ?_, ?_, ?_, ?_, ?_, ?_⟩
  · exact he.raised _ _ _ (monRelock_raised _ (raised_raise _ _ _ _))
  · rw [hstart]
    rfl
  · rw [hstart]
    exact List.mem_cons_self
  · exact (congrArg YardS.routes (he.part .yard)).trans (mgmtRestartNow_routes c _)
  · exact (congrArg MonS.role hmon).trans (monRelock_role _)
  · rw [he.on_low (by decide) (by decide), on_mgmtRestartNow, on_fresh]
  · have hphase : e.phase = s.dev.phase := hframe.1 .phase (by simp)
    rw [running, hphase]
    exact hr
  · exact (Framed.of_fresh hframe).1

theorem mgmtRestart_unit (h : tooOften s.dev.startup = true) : Completes .mgmtRestart s (fun e =>
    e.phase = .failSilent ∧ e.startup.nextCause = 3 ∧ e.startup.wdog = true ∧ .heartbeatLow ∈ e.sent ∧
      OnlyParts [.phase, .pair, .startup] s.dev e) := by
  refine act_completes (f := mgmtRestart) rfl (fun e he => ?_)
  have hx : watchdogRestart (modStart (fun s => { s with wdog := true }) (fresh s)) =
      stopOutputs 3 (modStart (fun s => { s with wdog := true }) (fresh s)) := if_pos (running_iff.1 hr)
  rw [mgmtRestart_stalled (d := fresh s) hr hs, if_pos (show tooOften (fresh s).startup = true from h), hx] at he
  have hstart : e.startup = _ := he.part .startup
  have hframe : Framed [.phase, .pair, .startup] [] (fresh s) e :=
    ((Framed.startup (by simp) (.refl _ _ _) _).trans (stopOutputs_framed 3 _)).follow he
  exact ⟨he.part .phase, by rw [hstart]; rfl, by rw [hstart]; rfl, he.sent _ List.mem_cons_self, (Framed.of_fresh hframe).1⟩

end

/-- Settles O18: the kick; a restart of the cluster alone, and one of the device. -/
theorem managementWatchdog : Obligations.ManagementWatchdog :=
  fun _ hr => ⟨fun _ hc => mgmtKick_kicks hr hc, fun _ hs => ⟨fun h => mgmtRestart_alone hr hs h, fun h => mgmtRestart_unit hr hs h⟩⟩

end Sys2Proof

/-! A counterexample to O51: the supplies drop while a billing tick is due whose token has been issued. The snapshot carries that tick
out first (R320, R355), and the tick delivers the energy of connector 0 to its session context (R323), so the sessions have changed.
The statement wants a supply drop to leave them as they were. -/

namespace Sys2Proof

open Machine

namespace DropInTick

/-- A running unit that meters, with a tick due and a session of context 0 on connector 0. -/
def start : State :=
  { State.reset with dev := put (oCon 0 0x51) 0 0 (put 0x2203 1 1 (put 0x2200 0 1024
      { State.reset.dev with phase := .running, legal := { State.reset.dev.legal with tickDue := true } })) }

/-- The device after the drop of one supply. -/
def after : Dev := settle (supplyDrop 1 (fresh start))

theorem exec_drop : exec (.supplyDrop 1) start = .next { start with dev := after } := rfl

theorem delivers : (ctx start.dev 0).i0 = none ∧ (ctx after 0).i0 = some 0 := by decide +kernel

end DropInTick

/-- Refutes O51: the drop carries out the tick that is due, which writes a session context (`DropInTick.delivers`). -/
theorem not_resetsStopTheOutputs : ¬ Obligations.ResetsStopTheOutputs := by
  intro h
  obtain ⟨hdrop, _⟩ := h DropInTick.start
  obtain ⟨_, _, _, _, _, _, hparts, _⟩ := (hdrop 1 (by decide) (.inl rfl)).of_exec DropInTick.exec_drop
  have hses : DropInTick.after.ses = DropInTick.start.dev.ses := hparts .ses (by decide)
  obtain ⟨hbefore, hafter⟩ := DropInTick.delivers
  have hsame : (ctx DropInTick.after 0).i0 = (ctx DropInTick.start.dev 0).i0 := by rw [ctx, hses, ctx]
  rw [hbefore, hafter] at hsame
  cases hsame

end Sys2Proof

/-! Inputs of the legal core (R334, R337, R342, R347, R469). -/

namespace Sys2Proof

open Machine

/-! ### Entries leave the seal's bit -/

section

variable {d e f : Dev}

/-- The bit of the seal in BIL.STATUS is as it was. -/
def SealKept (d e : Dev) : Prop := sealOpen e = sealOpen d

namespace SealKept

theorem refl (d : Dev) : SealKept d d := rfl

theorem trans (h : SealKept d e) (k : SealKept e f) : SealKept d f := Eq.trans k h

theorem of_on (h : on e 0x2200 0 = on d 0x2200 0) : SealKept d e := congrArg (fun n : Nat => n.testBit 0) h

theorem of_framed {ps : List Part} {ks : List (Nat × Nat)} (h : Framed ps ks d e) (hk : (0x2200, 0) ∉ ks) : SealKept d e :=
  .of_on (h.on_eq (by decide) (by decide) hk)

theorem mark {code bit : Nat} (h : 0 < bit) (d : Dev) : SealKept d (raise code noInst 0 (setStatus 0x2200 0 bit d)) := by
  unfold SealKept sealOpen
  rw [on_raise, on_setStatus_same, testBit_setBit]
  simp [show bit ≠ 0 by omega]

theorem ite {c : Prop} [Decidable c] (h : SealKept d e) (k : SealKept d f) : SealKept d (if c then e else f) := by
  split
  · exact h
  · exact k

theorem recHold (i typ : Nat) (body : Bytes) (d : Dev) : SealKept d (recHold i typ body d) :=
  .ite (.mark (by decide) _) (.refl d)

theorem recStore (i typ : Nat) (body : Bytes) (d : Dev) : SealKept d (recStore i typ body d) := by
  unfold Machine.recStore
  split
  case h_1 e he =>
    split at he
    · exact .of_framed (partAdd_framed (ps := [.flash]) (ks := []) (by simp) i typ body d he) (by simp)
    · exact absurd he (by simp)
  case h_2 =>
    have hfull : SealKept d (if i = 0 ∧ storeUp d = true then setStatus 0x3300 0 8 d else d) :=
      .ite (.of_on (on_setStatus_other _ _ _ _ _ _ (by decide))) (.refl d)
    exact hfull.trans (.recHold i typ body _)

theorem recPost (i typ : Nat) (body : Bytes) (d : Dev) : SealKept d (recPost i typ body d) := by
  refine .ite (.refl d) (.ite (.recHold i typ body d) ?_)
  obtain ⟨x, hx, h | h | h⟩ := ringPass_outcome (partRing_lt i) [.entry i typ body] (Machine.recStore i typ body) (Machine.recHold i typ body) d
  all_goals rw [h]
  · exact SealKept.trans (.of_on (hx.on_low (by decide) (by decide))) (.recStore i typ body x)
  · exact SealKept.trans (.of_on (hx.on_low (by decide) (by decide))) (.recHold i typ body x)
  · exact .of_on (hx.on_low (by decide) (by decide))

theorem tlEntry (kind ch : Nat) (data : Bytes) (d : Dev) : SealKept d (tlEntry kind ch data d) := by
  unfold Machine.tlEntry tlEntryAt
  have hbooks : ∀ (x : Dev) (n : Nat) (b : Bytes) (w : Bytes), SealKept x
      (modLegal (fun l => { l with tlPrev := w }) (putb 0x220C 3 b (put 0x220C 1 n x))) := fun x n b w =>
    .of_on ((on_putb_other _ _ _ _ _ _ (by decide)).trans (on_put_other _ _ _ _ _ _ (by decide)))
  have hmark : ∀ (c : Prop) [Decidable c] (x : Dev) (code bit : Nat), 0 < bit →
      SealKept x (if c then raise code noInst 0 (setStatus 0x2200 0 bit x) else x) := fun c _ x code bit hb =>
    .ite (.mark hb x) (.refl x)
  exact .ite (.of_on (on_incr_other _ _ _ _ _ _ (by decide)))
    ((((SealKept.recPost 1 0x50 _ d).trans (hbooks _ _ _ _)).trans (hmark _ _ _ _ (by decide))).trans (hmark _ _ _ _ (by decide)))

end SealKept

theorem recPost_part {p : Part} (hp : p ≠ .flash) (i typ : Nat) (body : Bytes) (d : Dev) : p.Same d (recPost i typ body d) :=
  (recPost_framed (ps := [.flash]) (ks := [(0x2200, 0)]) (by simp) i typ body d (by simp)).1 p (by simpa using hp)

/-- The chain of the timeline goes on. -/
def chained (w : Bytes) (l : LegalS) : LegalS := { l with tlPrev := w }

/-- An entry of the timeline moves the chain of the legal partition and nothing else there (R348). -/
theorem tlEntry_legal (kind ch : Nat) (data : Bytes) (d : Dev) : ∃ w, (tlEntry kind ch data d).legal = { d.legal with tlPrev := w } := by
  unfold tlEntry tlEntryAt
  have hmark : ∀ (c : Prop) [Decidable c] (x : Dev) (code bit : Nat),
      (if c then raise code noInst 0 (setStatus 0x2200 0 bit x) else x).legal = x.legal := fun c _ x code bit => by
    split <;> rfl
  have hpost := fun b => (recPost_part (p := .legal) (by decide) 1 0x50 b d : (recPost 1 0x50 b d).legal = d.legal)
  dsimp only
  split
  · exact ⟨_, rfl⟩
  · rw [hmark, hmark]
    exact ⟨_, congrArg (chained _) (hpost _)⟩

end

/-! ### The tariff inputs, the check, seal and tamper -/

section

/-- A change of the seal: its bit, its entry, its event, and the mark of what is open (R337). -/
def sealTold (a : Bool) (d : Dev) : Dev :=
  let d := raise 0x5005 noInst (boolNat a) (tlEntry 6 0xFFFF (natLe 1 (boolNat a))
    (modLegal (fun l => { l with sealWas := a }) (wrStatus 0x2200 0 0 a d)))
  if a then rflagAll 128 d else d

theorem sealTold_framed (a : Bool) (d : Dev) : Framed [.legal, .flash] tlObjs d (sealTold a d) := by
  have h : Framed [.legal, .flash] tlObjs d (raise 0x5005 noInst (boolNat a) (tlEntry 6 0xFFFF (natLe 1 (boolNat a))
      (modLegal (fun l => { l with sealWas := a }) (wrStatus 0x2200 0 0 a d)))) :=
    .raise (.trans (.legal (by decide) (.put (by decide) (by decide) (.refl _ _ d)) _) (tlEntry_framed _ _ _ _))
  exact .ite (.legal (by decide) h _) h

theorem sealTold_raised (a : Bool) (d : Dev) : raised (sealTold a d) 0x5005 noInst = true := by
  cases a <;> exact raised_raise _ _ _ _

theorem sealTold_open (a : Bool) (d : Dev) : sealOpen (sealTold a d) = a := by
  have hentry : ∀ x, sealOpen (tlEntry 6 0xFFFF (natLe 1 (boolNat a)) x) = sealOpen x := fun x => SealKept.tlEntry _ _ _ x
  have hset : sealOpen (modLegal (fun l => { l with sealWas := a }) (wrStatus 0x2200 0 0 a d)) = a := by
    unfold sealOpen
    rw [on_modLegal, wrStatus, on_put_same, testBit_putBit, if_pos rfl]
  have h : sealOpen (raise 0x5005 noInst (boolNat a) (tlEntry 6 0xFFFF (natLe 1 (boolNat a))
      (modLegal (fun l => { l with sealWas := a }) (wrStatus 0x2200 0 0 a d)))) = a := (hentry _).trans hset
  cases a <;> exact h

theorem sealTold_sealWas (a : Bool) (d : Dev) : (sealTold a d).legal.sealWas = a := by
  obtain ⟨w, hw⟩ := tlEntry_legal 6 0xFFFF (natLe 1 (boolNat a)) (modLegal (fun l => { l with sealWas := a }) (wrStatus 0x2200 0 0 a d))
  have h : (raise 0x5005 noInst (boolNat a) (tlEntry 6 0xFFFF (natLe 1 (boolNat a))
      (modLegal (fun l => { l with sealWas := a }) (wrStatus 0x2200 0 0 a d)))).legal.sealWas = a := congrArg LegalS.sealWas hw
  cases a <;> exact h

/-- A change of a tamper input: its state, its latch, its entry and its event (R337). -/
def tamperTold (i : Nat) (a : Bool) (d : Dev) : Dev :=
  raise 0x5203 i 0 (setStatus 0x2200 0 4 (tlEntry 7 0xFFFF (natLe 1 i ++ natLe 1 (boolNat a)) (tamperLatch i a d)))

theorem tamperTold_framed (i : Nat) (a : Bool) (d : Dev) :
    Framed [.legal, .flash] ((0x220D, 1) :: (0x220D, 2) :: tlObjs) d (tamperTold i a d) :=
  .raise (.put (by decide) (by decide) (.trans (.put (by decide) (by decide) (.put (by decide) (by decide) (.refl _ _ d)))
    ((tlEntry_framed _ _ _ _).mono (fun _ h => h) (fun _ h => List.mem_cons_of_mem _ (List.mem_cons_of_mem _ h)))))

theorem on_tamperTold {i : Nat} {a : Bool} {d : Dev} {sub : Nat} (hs : sub < 256) :
    on (tamperTold i a d) 0x220D sub = on (tamperLatch i a d) 0x220D sub := by
  have hne : okey 0x2200 0 ≠ okey 0x220D sub := by unfold okey; omega
  rw [tamperTold, on_raise, on_setStatus_other _ _ _ _ _ _ hne]
  exact (tlEntry_framed _ _ _ _).on_eq hs (counted_of_lt _ (by decide)) (by simp [tlObjs])

/-- The inputs show a tariff that is not in force, and nothing else governs it (R342). -/
abbrev tariffPends (code : Nat) (d : Dev) : Prop := on d 0x2204 0 = 0 ∧ code + 1 ≠ tariff d

/-- The code that the inputs have settled on. -/
def tariffCoded (code n : Nat) (d : Dev) : Dev := put 0x2203 2 code (modLegal (fun l => { l with tarCode := code, tarCount := n }) d)

/-- The tariff inputs have settled on a code (R342). -/
def tariffSettled (code n : Nat) (d : Dev) : Dev :=
  wrStatus 0x2200 0 9 (tariffPends code (tariffCoded code n d))
    (put 0x2203 3 (if tariffPends code (tariffCoded code n d) then code + 1 else 0) (tariffCoded code n d))

theorem tariffPends_tariffCoded (code n : Nat) (d : Dev) : tariffPends code (tariffCoded code n d) ↔ tariffPends code d := by
  unfold tariffPends tariff
  rw [tariffCoded, on_put_other _ _ _ _ _ _ (by decide), on_put_other _ _ _ _ _ _ (by decide)]
  exact Iff.rfl

theorem tariffSettled_framed (code n : Nat) (d : Dev) : Framed [.legal] [(0x2203, 2), (0x2203, 3), (0x2200, 0)] d (tariffSettled code n d) :=
  .put (by decide) (by simp) (.put (by decide) (by simp) (.put (by decide) (by simp) (.legal (by simp) (.refl _ _ _) _)))

theorem on_tariffSettled_code (code n : Nat) (d : Dev) : on (tariffSettled code n d) 0x2203 2 = code := by
  rw [tariffSettled, wrStatus, on_put_other _ _ _ _ _ _ (by decide), on_put_other _ _ _ _ _ _ (by decide), tariffCoded, on_put_same]

/-- What the inputs ask for is shown as pending, or nothing is. -/
theorem on_tariffSettled_pending (code n : Nat) (d : Dev) :
    if tariffPends code d then on (tariffSettled code n d) 0x2203 3 = code + 1 ∧ (on (tariffSettled code n d) 0x2200 0).testBit 9 = true
    else on (tariffSettled code n d) 0x2203 3 = 0 ∧ (on (tariffSettled code n d) 0x2200 0).testBit 9 = false := by
  have hp := tariffPends_tariffCoded code n d
  rw [tariffSettled, wrStatus, on_put_other _ _ _ _ _ _ (by decide), on_put_same, on_put_same, testBit_putBit, if_pos rfl]
  split
  case isTrue h => exact ⟨if_pos (hp.2 h), decide_eq_true (hp.2 h)⟩
  case isFalse h => exact ⟨if_neg (fun h' => h (hp.1 h')), decide_eq_false (fun h' => h (hp.1 h'))⟩

variable {s : State} (hm : meters s.dev = true)

include hm

theorem tariffSample_settles (in1 in0 : Bool) (hcode : s.dev.legal.tarCode = 2 * boolNat in1 + boolNat in0)
    (hn : 199 ≤ s.dev.legal.tarCount) (hne : on s.dev 0x2203 2 ≠ 2 * boolNat in1 + boolNat in0) :
    Completes (.tariffSample in1 in0) s (fun e => on e 0x2203 2 = 2 * boolNat in1 + boolNat in0 ∧
      (if tariffPends (2 * boolNat in1 + boolNat in0) s.dev
        then on e 0x2203 3 = 2 * boolNat in1 + boolNat in0 + 1 ∧ (on e 0x2200 0).testBit 9 = true
        else on e 0x2203 3 = 0 ∧ (on e 0x2200 0).testBit 9 = false) ∧
      tariff e = tariff s.dev ∧ Framed [.legal] [(0x2203, 2), (0x2203, 3), (0x2200, 0)] s.dev e) := by
  have hneed : ¬ ((if (fresh s).legal.tarRestored = true then 10 else 200) > s.dev.legal.tarCount + 1) := by
    split <;> omega
  have hx : tariffSample in1 in0 (fresh s) = tariffSettled (2 * boolNat in1 + boolNat in0) (s.dev.legal.tarCount + 1) (fresh s) := by
    unfold tariffSample
    rw [show meters (fresh s) = true from hm, show (fresh s).legal.tarCode = 2 * boolNat in1 + boolNat in0 from hcode]
    dsimp only
    rw [if_pos rfl]
    refine (if_neg (by decide)).trans (if_neg ?_)
    exact not_or.2 ⟨hneed, hne⟩
  refine act_completes (f := tariffSample in1 in0) rfl (fun e he => ?_)
  rw [hx] at he
  have hframe := (tariffSettled_framed _ _ _).follow he
  refine ⟨?_, ?_, ?_, .of_fresh hframe⟩
  · rw [he.on_low (by decide) (by decide), on_tariffSettled_code]
  · rw [he.on_low (by decide) (by decide), he.on_low (by decide) (by decide)]
    exact on_tariffSettled_pending _ _ (fresh s)
  · exact hframe.on_eq (by decide) (by decide) (by decide)

theorem legalCheck_passes (again t : Nat) (h : 3600 ≤ s.dev.legal.checkTicks) :
    Completes (.legalCheck (on s.dev 0x2202 0) again t) s (fun e =>
      e.legal = { s.dev.legal with checkTicks := 0 } ∧ Framed [.legal] [] s.dev e) := by
  have hgate : (!(meters (fresh s)) || decide ((fresh s).legal.checkTicks < 3600)) = false := by
    rw [show meters (fresh s) = true from hm, show (fresh s).legal = s.dev.legal from rfl]
    simpa using h
  have hx : legalCheck (on s.dev 0x2202 0) again t (fresh s) = modLegal (fun l => { l with checkTicks := 0 }) (fresh s) :=
    (if_neg (ne_true_of_eq_false hgate)).trans (if_pos rfl)
  refine act_completes (f := ifRun (legalCheck (on s.dev 0x2202 0) again t)) rfl (fun e he => ?_)
  rw [ifRun, if_pos (meters_running (d := fresh s) hm), hx] at he
  exact ⟨he.part .legal, .of_fresh ((Framed.legal (by simp) (.refl _ _ _) _).follow he)⟩

theorem bilSeal_seals {a : Bool} (h : sealOpen s.dev ≠ a) : Completes (.bilSeal a) s (fun e =>
    raised e 0x5005 noInst = true ∧ sealOpen e = a ∧ e.legal.sealWas = a ∧ OnlyParts [.legal, .flash] s.dev e ∧
      e.os.pend = s.dev.os.pend) := by
  have hgate : ¬ (!(running (fresh s)) || sealOpen (fresh s) == a) = true := by
    rw [show running (fresh s) = true from meters_running hm, show sealOpen (fresh s) = sealOpen s.dev from rfl]
    simpa using h
  have hx : bilSeal a (fresh s) = sealTold a (fresh s) := if_neg hgate
  refine act_completes (f := ifRun (bilSeal a)) rfl (fun e he => ?_)
  rw [ifRun, if_pos (meters_running (d := fresh s) hm), hx] at he
  have hframe := (Framed.of_fresh ((sealTold_framed a (fresh s)).follow he))
  refine ⟨he.raised _ _ _ (sealTold_raised a _), ?_, ?_, hframe.1, hframe.2.2⟩
  · rw [sealOpen, he.on_low (by decide) (by decide)]
    exact sealTold_open a _
  · exact (congrArg LegalS.sealWas (he.part .legal)).trans (sealTold_sealWas a _)

theorem bilTamper_tells {i : Nat} {a : Bool} (ms : Nat) (hi : i < 2) (h : (on s.dev 0x220D 1).testBit i ≠ a) :
    Completes (.bilTamper i a ms) s (fun e =>
      raised e 0x5203 i = true ∧ (on e 0x220D 1).testBit i = a ∧ (on e 0x220D 2).testBit i = true ∧
        (on e 0x2200 0).testBit 4 = true ∧ OnlyParts [.legal, .flash] s.dev e ∧ e.os.pend = s.dev.os.pend) := by
  have hx : bilTamper i a ms (fresh s) = tamperTold i a (fresh s) :=
    (if_neg (by omega)).trans ((if_pos (meters_running (d := fresh s) hm)).trans (if_neg h))
  refine part_completes (g := bilTamper i a ms) rfl (by simpa using hi) hx (fun e he => ?_)
  have hframe := (Framed.of_fresh ((tamperTold_framed i a (fresh s)).follow he))
  refine ⟨he.raised _ _ _ (raised_raise _ _ _ _), ?_, ?_, ?_, hframe.1, hframe.2.2⟩
  · rw [he.on_low (by decide) (by decide), on_tamperTold (by decide), tamperLatch, on_put_other _ _ _ _ _ _ (by decide), on_put_same,
      testBit_putBit, if_pos rfl]
  · rw [he.on_low (by decide) (by decide), on_tamperTold (by decide), tamperLatch, on_put_same]
    exact testBit_setBit_same _ _
  · rw [he.on_low (by decide) (by decide), tamperTold, on_raise, on_setStatus_same]
    exact testBit_setBit_same _ _

end

end Sys2Proof

/-! The held entry of the record store, and the billing records for the partner (R347, R469). -/

namespace Sys2Proof

open Machine

section

variable {d e : Dev} {i typ : Nat} {body : Bytes}

theorem partMiB_one (d : Dev) : partMiB d 1 = 128 := rfl

theorem mayReuse_zero (d : Dev) :
    mayReuse d 0 = fun p => p.ents.all (fun e => decide (recEnd e + 34560000 < on d 0x2201 0)) := rfl

theorem mayReuse_one (d : Dev) : mayReuse d 1 = fun _ => false := rfl

theorem partMiB_congr (h : e.os = d.os) (i : Nat) : partMiB e i = partMiB d i := by
  have hon : on e = on d := by
    funext num sub
    rw [on, ov, h, on, ov]
  unfold partMiB
  rw [hon]

theorem mayReuse_congr (h : e.os = d.os) (i : Nat) : mayReuse e i = mayReuse d i := by
  have hon : on e = on d := by
    funext num sub
    rw [on, ov, h, on, ov]
  funext p
  unfold mayReuse
  rw [hon]

/-- Room for an entry depends on the partition alone: its pages, its size, and the time before which pages may be used again. -/
theorem partAdd_isSome_congr (hf : e.flash = d.flash) (hp : e.pair = d.pair) (hm : partMiB e i = partMiB d i)
    (hr : mayReuse e i = mayReuse d i) : (partAdd i typ body e).isSome = (partAdd i typ body d).isSome := by
  have hpart : part e i = part d i := by rw [part, hf, part]
  unfold partAdd
  rw [hpart, hp, hm, hr]
  dsimp only
  rw [apply_ite Option.isSome, apply_ite Option.isSome, apply_ite Option.isSome, apply_ite Option.isSome]
  rfl

/-- The books of ring 4 after one descriptor that the engine moved at once. -/
def entryMoved (d : Dev) : Dev := ringDone 4 1 (ringStep 4 3 1 d)

theorem ringMoved_fields (r n : Nat) (d : Dev) : ∃ os, ringDone r n (ringStep r 3 n d) = { d with os := os } := ⟨_, rfl⟩

theorem entryMoved_fields (d : Dev) : ∃ os, entryMoved d = { d with os := os } := by
  unfold entryMoved
  exact ringMoved_fields 4 1 d

theorem on_entryMoved {num sub : Nat} (h : ∀ k ∈ [2, 3, 4], okey 0x3204 k ≠ okey num sub) (d : Dev) :
    on (entryMoved d) num sub = on d num sub := by
  rw [entryMoved, ringDone, ringStep, ringStep, on_put_other _ _ _ _ _ _ (h 4 (by simp)), on_put_other _ _ _ _ _ _ (h 2 (by simp)),
    on_put_other _ _ _ _ _ _ (h 3 (by simp))]

theorem entryMoved_follows (d : Dev) : Follows d (entryMoved d) :=
  ((put_ring_follows 4 3 _ _ (by decide) rfl).trans (put_ring_follows 4 2 _ _ (by decide) rfl)).trans
    (put_ring_follows 4 4 _ _ (by decide) rfl)

theorem storeUp_entryMoved (d : Dev) : storeUp (entryMoved d) = storeUp d := by
  unfold storeUp
  rw [on_entryMoved (by decide)]

theorem partAdd_entryMoved (hi : i ≤ 1) (d : Dev) : (partAdd i typ body (entryMoved d)).isSome = (partAdd i typ body d).isSome := by
  obtain ⟨os, hos⟩ := entryMoved_fields d
  refine partAdd_isSome_congr (by rw [hos]) (by rw [hos]) ?_ ?_
  · obtain rfl | rfl : i = 0 ∨ i = 1 := by omega
    · exact on_entryMoved (num := 0x3302) (sub := 1) (by decide) d
    · exact (partMiB_one _).trans (partMiB_one d).symm
  · obtain rfl | rfl : i = 0 ∨ i = 1 := by omega
    · rw [mayReuse_zero, mayReuse_zero, on_entryMoved (num := 0x2201) (sub := 0) (by decide) d]
    · exact (mayReuse_one _).trans (mayReuse_one d).symm

/-- An entry of the legal partition that has room is stored. -/
theorem recPost_stores {x : Dev} (hi : i ≤ 1) (hl : on d 0x500 0 ≠ 3) (hu : storeUp d = true) (hz : ringSize d 4 ≠ 0)
    (hidle : ringIdle d 4 = true) (hx : partAdd i typ body (entryMoved d) = some x) : recPost i typ body d = x := by
  have hring : partRing i = 4 := by
    unfold partRing
    rw [if_neg (by omega), if_neg (by omega), if_neg (by omega)]
  have hstore : recStore i typ body (entryMoved d) = x := by
    unfold recStore
    rw [storeUp_entryMoved, hu, if_pos rfl, hx]
  rw [recPost, if_neg (by tauto), if_neg (by simp [hu]), hring, ringPass_one, if_neg hz, if_pos hidle]
  exact hstore

/-- What is stored leaves the entries that are held. -/
theorem partAdd_held {x : Dev} (h : partAdd i typ body d = some x) : x.flash.held = d.flash.held := by
  have hpub : ∀ y : Dev, (partPublish i y).flash = y.flash := fun y => by
    unfold partPublish
    split <;> rfl
  have htold : ∀ (c : Prop) [Decidable c] (y : Dev), (if c then raise 0x7003 i 0 y else y).flash = y.flash := fun c _ y => by
    split <;> rfl
  have hcount : ∀ (c : Prop) [Decidable c] (y : Dev), (if c then incr 32 (0x3310 + i) 4 y else y).flash = y.flash := fun c _ y => by
    split <;> rfl
  unfold partAdd at h
  dsimp only at h
  refine of_ite_eq h (fun h => ?_) (fun h => of_ite_eq h (fun h => absurd h (by simp)) (fun h => ?_))
  · rw [← Option.some.inj h, hpub]
    rfl
  · rw [← Option.some.inj h, hpub, htold, hcount]
    rfl

/-- The device with no entry held. -/
def unheld (d : Dev) : Dev := { d with flash := { d.flash with held := [] } }

theorem recPostHeld_one {only : Nat → Bool} (hh : d.flash.held = [(i, typ, body)]) (ho : only i = true) :
    recPostHeld only d = recPost i typ body (unheld d) := by
  rw [recPostHeld, hh]
  exact if_pos ho

/-- The held entry is stored, and nothing is held any more (R347). -/
theorem storeRetry_one (hr : running d = true) (hh : d.flash.held = [(i, typ, body)]) (hi : i ≤ 1) (hl : on d 0x500 0 ≠ 3)
    (hu : storeUp d = true) (hz : ringSize d 4 ≠ 0) (hidle : ringIdle d 4 = true) (hroom : (partAdd i typ body (unheld d)).isSome = true) :
    (storeRetry d).flash.held = [] ∧ Framed [.flash] [] d (storeRetry d) := by
  rw [← partAdd_entryMoved hi] at hroom
  obtain ⟨x, hx⟩ := Option.isSome_iff_exists.1 hroom
  have hpost : recPostHeld (fun i => decide (i ≤ 1) || i == 5) d = x :=
    (recPostHeld_one hh (by simp [hi])).trans (recPost_stores (d := unheld d) hi hl hu hz hidle hx)
  have hheld : x.flash.held = [] := (partAdd_held hx).trans (by
    obtain ⟨os, hos⟩ := entryMoved_fields (unheld d)
    rw [hos]
    rfl)
  have hretry : storeRetry d = clrStatus 0x3300 0 8 x := by
    unfold storeRetry
    rw [if_pos hr, hpost]
    dsimp only
    rw [hheld]
    rfl
  have hempty : Framed [.flash] [] d (unheld d) := .flash (by simp) (.refl _ _ _) _
  rw [hretry]
  exact ⟨hheld, .put_counted (by decide) (by decide) ((hempty.follow (entryMoved_follows _)).trans
    (partAdd_framed (by simp) i typ body _ hx))⟩

end

section

variable {s : State} (hm : meters s.dev = true)

include hm

theorem storeRetry_stores {i ty : Nat} {b : Bytes} (hh : s.dev.flash.held = [(i, ty, b)]) (hi : i ≤ 1) (hl : on s.dev 0x500 0 ≠ 3)
    (hu : storeUp s.dev = true) (hz : ringSize s.dev 4 ≠ 0) (hidle : ringIdle s.dev 4 = true)
    (hroom : (partAdd i ty b (unheld s.dev)).isSome = true) :
    Completes .storeRetry s (fun e => e.flash.held = [] ∧ Framed [.flash] [] s.dev e) := by
  have hos : (unheld (fresh s)).os = (unheld s.dev).os := rfl
  have hflash : (unheld (fresh s)).flash = (unheld s.dev).flash := rfl
  have hpair : (unheld (fresh s)).pair = (unheld s.dev).pair := rfl
  have hroom' : (partAdd i ty b (unheld (fresh s))).isSome = true := by
    rw [partAdd_isSome_congr hflash hpair (partMiB_congr hos i) (mayReuse_congr hos i)]
    exact hroom
  obtain ⟨hheld, hframe⟩ := storeRetry_one (d := fresh s) (meters_running hm) hh hi hl hu hz hidle hroom'
  refine act_completes (f := storeRetry) rfl (fun e he => ?_)
  have hflash : flashCore e.flash = flashCore (storeRetry (fresh s)).flash := he.part .flash
  have h := congrArg FlashS.held hflash
  exact ⟨Eq.trans h hheld, .of_fresh (hframe.follow he)⟩

theorem billingRecordCommit_sends {m : Nat} {i : IncS} (hmm : m < 66) (ha : s.dev.pair.role = .active)
    (ht : microsInTick s.dev = billE s.dev + m) (hf : s.dev.legal.toMirror.find? (fun i => i.m == m) = some i) :
    Completes (.billingRecordCommit m) s (fun e =>
      e.pair.billTx = s.dev.pair.billTx ++ [billRec s.dev i] ∧ (∀ j ∈ e.legal.toMirror, j.m ≠ m) ∧
        e.legal.journal = s.dev.legal.journal ∧ Framed [.legal, .pair] [] s.dev e) := by
  have hgate : (!(running (fresh s) && (fresh s).pair.role == .active && microsInTick (fresh s) == billE (fresh s) + m)) = false := by
    rw [show running (fresh s) = true from meters_running hm, show (fresh s).pair.role = .active from ha,
      show microsInTick (fresh s) = billE (fresh s) + m from ht]
    simp
  have hx : billingRecordCommit m (fresh s) = modPair (fun p => { p with billTx := p.billTx ++ [billRec (fresh s) i] })
      (modLegal (fun l => { l with toMirror := l.toMirror.filter (fun x => x.m != m) }) (fresh s)) := by
    have hf' : (fresh s).legal.toMirror.find? (fun i => i.m == m) = some i := hf
    unfold billingRecordCommit
    rw [hgate, hf']
    rfl
  refine part_completes (g := billingRecordCommit m) rfl (by simpa using hmm) hx (fun e he => ⟨?_, fun j hj => ?_, ?_, ?_⟩)
  · exact congrArg PairS.billTx (he.part .pair)
  · have hl : e.legal = _ := he.part .legal
    rw [hl] at hj
    have := (List.mem_filter.1 hj).2
    simpa using this
  · have hl : e.legal = _ := he.part .legal
    rw [hl]
    rfl
  · exact .of_fresh ((Framed.pair (by simp) (.legal (by simp) (.refl _ _ _) _) _).follow he)

end

/-- Settles O33: the tariff inputs, the check that passes, the seal, a tamper input, the retry of a held entry, and a billing record. -/
theorem legalCoreInputs : Obligations.LegalCoreInputs := fun _ hm =>
  ⟨fun in1 in0 => tariffSample_settles hm in1 in0, fun again t h => legalCheck_passes hm again t h, fun _ h => bilSeal_seals hm h,
    fun _ _ ms hi h => bilTamper_tells hm ms hi h, fun _ _ _ hh hi hl hu hz hidle hroom => storeRetry_stores hm hh hi hl hu hz hidle hroom,
    fun _ _ hmm ha ht hf => billingRecordCommit_sends hm hmm ha ht hf⟩

end Sys2Proof

/-! The yard medium: the mains' beat and the line driver (R395 to R397, R572). -/

namespace Sys2Proof

open Machine

/-! ### Zero crossings -/

section

variable {d : Dev} {t : Nat}

/-- The cycle that the edge at t ends is valid. -/
def edgeValid (t : Nat) (y : YardS) : Bool := match y.lastEdge with | some p => decide (p < t) && cycleOk (t - p) | none => false

/-- The edges of valid cycles, the new one first. -/
def edgesAt (t : Nat) (y : YardS) : List Nat :=
  if edgeValid t y then (t :: (if y.edges = [] then [y.lastEdge.getD t] else y.edges)).take 9 else []

/-- The edge at t, found in `y0`, entered in `y`. -/
def edgeSeen (t : Nat) (y0 y : YardS) : YardS :=
  { y with lastEdge := some t, edges := edgesAt t y0, okCyc := if edgeValid t y0 then y0.okCyc + 1 else 0,
           cycles := if edgeValid t y0 then y.cycles + 1 else y.cycles }

/-- HC and the frequency over the last eight cycles, where there are so many. -/
def beatMeasured (t : Nat) (y : YardS) (d : Dev) : Dev :=
  match (edgesAt t y)[8]? with
  | some t0 => put 0x3103 2 ((t - t0 + 800) / 1600) (put 0x3103 1 ((2 * 8000000000 * 65536 + (t - t0)) / (2 * (t - t0))) d)
  | none => d

/-- The zero crossing is found again. -/
def beatFound (d : Dev) : Dev := raiseEnd 0x6201 noInst 0 (forgetMaps (clrStatus 0x3102 0 3 (clrStatus 0x3102 0 2 d)))

theorem zcEdge_eq (hr : running d = true) :
    zcEdge t d =
      let x := beatMeasured t d.yard (modYard (edgeSeen t d.yard) d)
      if yardBit x 2 ∧ (if edgeValid t d.yard then d.yard.okCyc + 1 else 0) ≥ 8 then beatFound x else x := by
  unfold zcEdge
  rw [if_neg (by simp [hr])]
  rfl

theorem edgeValid_of_last {p : Nat} {y : YardS} (hp : y.lastEdge = some p) (hlt : p < t) (hc : cycleOk (t - p) = true) :
    edgeValid t y = true := by
  simp [edgeValid, hp, hlt, hc]

theorem edgeValid_false {y : YardS} (h : ∀ p, y.lastEdge = some p → ¬(p < t ∧ cycleOk (t - p) = true)) : edgeValid t y = false := by
  unfold edgeValid
  split
  case h_1 p hp =>
    by_contra hne
    exact h p hp (by simpa using hne)
  case h_2 => rfl

theorem zcEdge_valid (hr : running d = true) (hv : edgeValid t d.yard = true) :
    zcEdge t d =
      let x := beatMeasured t d.yard (modYard (edgeSeen t d.yard) d)
      if yardBit x 2 ∧ d.yard.okCyc + 1 ≥ 8 then beatFound x else x := by
  rw [zcEdge_eq hr, if_pos hv]

theorem zcEdge_invalid (hr : running d = true) (hv : edgeValid t d.yard = false) : zcEdge t d = modYard (edgeSeen t d.yard) d := by
  have hes : edgesAt t d.yard = [] := if_neg (by simp [hv])
  have hm : ∀ x, beatMeasured t d.yard x = x := fun x => by rw [beatMeasured, hes]; rfl
  rw [zcEdge_eq hr]
  simp only [hm]
  exact if_neg (by simp [hv])

theorem beatMeasured_framed (t : Nat) (y : YardS) (d : Dev) : Framed [] [(0x3103, 1), (0x3103, 2)] d (beatMeasured t y d) := by
  unfold beatMeasured
  split
  · exact .put (by decide) (by simp) (.put (by decide) (by simp) (.refl _ _ d))
  · exact .refl _ _ d

theorem beatFound_framed (d : Dev) : Framed [.yard] [(0x3102, 0)] d (beatFound d) :=
  .raiseEnd (.yard (by simp) (.put (by decide) (by simp) (.put (by decide) (by simp) (.refl _ _ d))) _)

theorem on_beatFound (d : Dev) : on (beatFound d) 0x3102 0 = clearBit (clearBit (on d 0x3102 0) 2) 3 := by
  have h : on (forgetMaps (clrStatus 0x3102 0 3 (clrStatus 0x3102 0 2 d))) 0x3102 0 = on (clrStatus 0x3102 0 3 (clrStatus 0x3102 0 2 d)) 0x3102 0 := rfl
  rw [beatFound, on_raiseEnd, h, on_clrStatus_same, on_clrStatus_same]

theorem beatFound_maps (d : Dev) : ∀ p ∈ (beatFound d).yard.tm, p.2.v0 = none ∧ p.2.v1 = none := by
  intro p hp
  obtain ⟨q, _, rfl⟩ := List.mem_map.1 hp
  exact ⟨rfl, rfl⟩

end

section

variable {s : State} {t : Nat} (hr : running s.dev = true)

include hr

theorem plZcEdge_counts {p : Nat} (hp : s.dev.yard.lastEdge = some p) (hlt : p < t) (hc : cycleOk (t - p) = true) :
    Completes (.plZcEdge t) s (fun e =>
      e.yard.lastEdge = some t ∧ e.yard.okCyc = s.dev.yard.okCyc + 1 ∧ e.yard.cycles = s.dev.yard.cycles + 1 ∧
        ((on s.dev 0x3102 0).testBit 2 = true → 7 ≤ s.dev.yard.okCyc →
          raised e 0x6201 noInst true = true ∧ on e 0x3102 0 = clearBit (clearBit (on s.dev 0x3102 0) 2) 3 ∧
            ∀ p ∈ e.yard.tm, p.2.v0 = none ∧ p.2.v1 = none) ∧
        (¬((on s.dev 0x3102 0).testBit 2 = true ∧ 7 ≤ s.dev.yard.okCyc) → on e 0x3102 0 = on s.dev 0x3102 0) ∧
        Framed [.yard] [(0x3102, 0), (0x3103, 1), (0x3103, 2)] s.dev e) := by
  have hv : edgeValid t (fresh s).yard = true := edgeValid_of_last (y := s.dev.yard) hp hlt hc
  have hmeasured : Framed [.yard] [(0x3103, 1), (0x3103, 2)] s.dev
      (beatMeasured t (fresh s).yard (modYard (edgeSeen t (fresh s).yard) (fresh s))) :=
    .of_fresh ((Framed.yard (by simp) (.refl _ _ _) _).trans ((beatMeasured_framed _ _ _).mono (by simp) (fun _ h => h)))
  have hyard : (beatMeasured t (fresh s).yard (modYard (edgeSeen t (fresh s).yard) (fresh s))).yard = edgeSeen t s.dev.yard s.dev.yard :=
    (beatMeasured_framed _ _ _).1 .yard (by simp)
  have hokc : (edgeSeen t s.dev.yard s.dev.yard).okCyc = s.dev.yard.okCyc + 1 := if_pos hv
  have hcyc : (edgeSeen t s.dev.yard s.dev.yard).cycles = s.dev.yard.cycles + 1 := if_pos hv
  have hx := zcEdge_valid (d := fresh s) (t := t) hr hv
  refine act_completes (f := zcEdge t) rfl (fun e he => ?_)
  rw [hx] at he
  generalize beatMeasured t (fresh s).yard (modYard (edgeSeen t (fresh s).yard) (fresh s)) = x at he hmeasured hyard
  change Follows (if yardBit x 2 ∧ s.dev.yard.okCyc + 1 ≥ 8 then beatFound x else x) e at he
  have hw : on x 0x3102 0 = on s.dev 0x3102 0 := hmeasured.on_eq (by decide) (by decide) (by decide)
  have hbit : yardBit x 2 = (on s.dev 0x3102 0).testBit 2 := by rw [yardBit, hw]
  rw [hbit] at he
  by_cases hfound : (on s.dev 0x3102 0).testBit 2 = true ∧ 7 ≤ s.dev.yard.okCyc
  · rw [if_pos ⟨hfound.1, by omega⟩] at he
    have hye : e.yard = (beatFound x).yard := he.part .yard
    have hy : (beatFound x).yard.lastEdge = x.yard.lastEdge ∧ (beatFound x).yard.okCyc = x.yard.okCyc ∧
        (beatFound x).yard.cycles = x.yard.cycles := ⟨rfl, rfl, rfl⟩
    refine ⟨by rw [hye, hy.1, hyard]; rfl, by rw [hye, hy.2.1, hyard, hokc], by rw [hye, hy.2.2, hyard, hcyc], fun _ _ => ⟨?_, ?_, ?_⟩,
      fun h => absurd hfound h, ?_⟩
    · exact he.raised _ _ _ (raised_raiseEnd _ _ _ _)
    · rw [he.on_low (by decide) (by decide), on_beatFound, hw]
    · rw [hye]
      exact beatFound_maps x
    · exact ((hmeasured.mono (by simp) (by simp)).trans ((beatFound_framed x).mono (by simp) (by simp))).follow he
  · rw [if_neg (fun h => hfound ⟨h.1, by omega⟩)] at he
    have hye : e.yard = edgeSeen t s.dev.yard s.dev.yard := (he.part .yard).trans hyard
    refine ⟨by rw [hye]; rfl, by rw [hye, hokc], by rw [hye, hcyc], fun h1 h2 => absurd ⟨h1, h2⟩ hfound, fun _ => ?_, ?_⟩
    · rw [he.on_low (by decide) (by decide), hw]
    · exact (hmeasured.mono (by simp) (by simp)).follow he

theorem plZcEdge_starts_again (h : ∀ p, s.dev.yard.lastEdge = some p → ¬(p < t ∧ cycleOk (t - p) = true)) :
    Completes (.plZcEdge t) s (fun e =>
      e.yard = { s.dev.yard with lastEdge := some t, okCyc := 0, edges := [] } ∧ Framed [.yard] [] s.dev e) := by
  have hv : edgeValid t s.dev.yard = false := edgeValid_false h
  have hseen : edgeSeen t s.dev.yard s.dev.yard = { s.dev.yard with lastEdge := some t, okCyc := 0, edges := [] } := by
    simp [edgeSeen, edgesAt, hv]
  refine act_completes (f := zcEdge t) rfl (fun e he => ?_)
  rw [zcEdge_invalid (d := fresh s) hr hv] at he
  exact ⟨(he.part .yard).trans hseen, .of_fresh ((Framed.yard (by simp) (.refl _ _ _) _).follow he)⟩

theorem yardZcLost_loses (h : (on s.dev 0x3102 0).testBit 2 = false) : Completes .yardZcLost s (fun e =>
    raised e 0x6201 noInst = true ∧ on e 0x3102 0 = setBit (on s.dev 0x3102 0) 2 ∧
      e.yard = { s.dev.yard with okCyc := 0, edges := [] } ∧ Framed [.yard] [(0x3102, 0)] s.dev e) := by
  have hbit : yardBit (fresh s) 2 = false := h
  have hx : zcLost (fresh s) = raise 0x6201 noInst 0 (setStatus 0x3102 0 2 (modYard (fun y => { y with okCyc := 0, edges := [] }) (fresh s))) :=
    if_pos (by rw [show running (fresh s) = true from hr, hbit]; rfl)
  refine act_completes (f := zcLost) rfl (fun e he => ?_)
  rw [hx] at he
  refine ⟨he.raised _ _ _ (raised_raise _ _ _ _), ?_, he.part .yard, .of_fresh (.follow ?_ he)⟩
  · rw [he.on_low (by decide) (by decide), on_raise, on_setStatus_same, on_modYard, on_fresh]
  · exact .raise (.put (by decide) (by simp) (.yard (by simp) (.refl _ _ _) _))

theorem zcBaseTimeout_marks (h : (on s.dev 0x3102 0).testBit 2 = true) : Completes .zcBaseTimeout s (fun e =>
    on e 0x3102 0 = setBit (on s.dev 0x3102 0) 3 ∧ Framed [] [(0x3102, 0)] s.dev e) := by
  have hbit : yardBit (fresh s) 2 = true := h
  have hx : zcBase (fresh s) = setStatus 0x3102 0 3 (fresh s) := if_pos (by rw [show running (fresh s) = true from hr, hbit]; rfl)
  refine act_completes (f := zcBase) rfl (fun e he => ?_)
  rw [hx] at he
  refine ⟨?_, .of_fresh (.follow (.put (by decide) (by simp) (.refl _ _ _)) he)⟩
  rw [he.on_low (by decide) (by decide), on_setStatus_same, on_fresh]

/-! ### The line driver -/

theorem yardDriverFault_stops (ho : yardOn s.dev = true) (hd : s.dev.yard.drvOff = false) : Completes .yardDriverFault s (fun e =>
    raised e 0x6401 noInst = true ∧ e.yard.drvOff = true ∧ yardMaySend e = false ∧
      on e 0x3102 0 = clearBit (setBit (on s.dev 0x3102 0) 5) 0 ∧ Framed [.yard] [(0x3102, 0)] s.dev e) := by
  have hx : driverFault (fresh s) = raise 0x6401 noInst 0 (clrStatus 0x3102 0 0 (setStatus 0x3102 0 5
      (modYard (fun y => { y with drvOff := true }) (fresh s)))) :=
    if_pos (by rw [show yardOn (fresh s) = true from ho, show (fresh s).yard.drvOff = false from hd]; rfl)
  refine act_completes (f := ifRun driverFault) rfl (fun e he => ?_)
  rw [ifRun, if_pos (show running (fresh s) = true from hr), hx] at he
  have hoff : e.yard.drvOff = true := congrArg YardS.drvOff (he.part .yard)
  refine ⟨he.raised _ _ _ (raised_raise _ _ _ _), hoff, ?_, ?_, .of_fresh (.follow ?_ he)⟩
  · simp [yardMaySend, hoff]
  · rw [he.on_low (by decide) (by decide), on_raise, on_clrStatus_same, on_setStatus_same, on_modYard, on_fresh]
  · exact .raise (.put (by decide) (by simp) (.put (by decide) (by simp) (.yard (by simp) (.refl _ _ _) _)))

theorem driverResume_resumes : Completes .driverResume s (fun e =>
    e.yard = { s.dev.yard with drvOff := false } ∧ Framed [.yard] [] s.dev e) := by
  have hx : driverResume (fresh s) = modYard (fun y => { y with drvOff := false }) (fresh s) := if_pos hr
  refine act_completes (f := driverResume) rfl (fun e he => ?_)
  rw [hx] at he
  exact ⟨he.part .yard, .of_fresh ((Framed.yard (by simp) (.refl _ _ _) _).follow he)⟩

theorem vplcLow_stops : Completes .vplcLow s (fun e =>
    e.yard = { s.dev.yard with vplcLow := true } ∧ yardMaySend e = false ∧ on e 0x3102 0 = clearBit (on s.dev 0x3102 0) 0 ∧
      Framed [.yard] [(0x3102, 0)] s.dev e) := by
  have hx : vplcLow (fresh s) = clrStatus 0x3102 0 0 (modYard (fun y => { y with vplcLow := true }) (fresh s)) := if_pos hr
  refine act_completes (f := vplcLow) rfl (fun e he => ?_)
  rw [hx] at he
  have hyard : e.yard = { s.dev.yard with vplcLow := true } := he.part .yard
  refine ⟨hyard, ?_, ?_, .of_fresh (.follow (.put (by decide) (by simp) (.yard (by simp) (.refl _ _ _) _)) he)⟩
  · simp [yardMaySend, hyard]
  · rw [he.on_low (by decide) (by decide), on_clrStatus_same, on_modYard, on_fresh]

end

theorem vplcRestored_restores (s : State) : Completes .vplcRestored s (fun e =>
    e.yard = { s.dev.yard with vplcLow := false } ∧ Framed [.yard] [] s.dev e) :=
  act_completes (f := vplcRestored) rfl (fun _ he => ⟨he.part .yard, .of_fresh ((Framed.yard (by simp) (.refl _ _ _) _).follow he)⟩)

/-- Settles O41: the edges and what they find again, and the conditions of the line driver. -/
theorem yardMedium : Obligations.YardMedium :=
  ⟨fun _ hr => ⟨fun _ _ hp hlt hc => plZcEdge_counts hr hp hlt hc, fun _ h => plZcEdge_starts_again hr h, fun h => yardZcLost_loses hr h,
      fun h => zcBaseTimeout_marks hr h⟩,
    fun s hr => ⟨fun ho hd => yardDriverFault_stops hr ho hd, driverResume_resumes hr, vplcLow_stops hr, vplcRestored_restores s⟩⟩

end Sys2Proof

/-! A counterexample to O39: an output point that a reference token refreshes is no longer among those that went stale, on whichever bus
it is listed (R383). The statement wants a controller that may not send to be left as it was, its list included. -/

namespace Sys2Proof

open Machine

namespace RefreshedElsewhere

/-- A running unit at its minor-frame reference: controller 0 sends the output point 0, which controller 1, off, lists as stale. -/
def start : State :=
  { State.reset with dev := putb 0x3014 0 [0, 1, 0, 0, 1, 0, 0, 0] (put 0x3004 0 1
      { State.reset.dev with phase := .running, time := { State.reset.dev.time with refDue := true }, bus := [{}, { gone := [0] }] }) }

/-- The device after the reference token. -/
def after : Dev := settle (minorReference (fresh start))

theorem exec_token : exec .minorReferenceToken start = .next { start with dev := after } := rfl

theorem may_not_send : fbMaySend start.dev 1 = false := by decide +kernel

theorem leaves_the_list : (fbS start.dev 1).gone = [0] ∧ (fbS after 1).gone = [] := by decide +kernel

end RefreshedElsewhere

/-- Refutes O39: the refresh of a point takes it from the list of a controller that may not send
(`RefreshedElsewhere.leaves_the_list`). -/
theorem not_busFramesAndErrors : ¬ Obligations.BusFramesAndErrors := by
  intro h
  obtain ⟨_, _, href⟩ := h
  obtain ⟨_, hkept, _⟩ := ((href RefreshedElsewhere.start rfl).2 rfl).of_exec RefreshedElsewhere.exec_token
  have hsame := congrArg FbS.gone (hkept 1 (by decide) RefreshedElsewhere.may_not_send)
  obtain ⟨hbefore, hafter⟩ := RefreshedElsewhere.leaves_the_list
  rw [hbefore, hafter] at hsame
  cases hsame

end Sys2Proof

/-! Discovery (R366, R368, R381): a node is confirmed, and a round ends. -/

namespace Sys2Proof

open Machine

/-! ### A node is confirmed -/

/-- A controller once the node is listed. -/
def nodeListed (n : FbNode) (f : FbS) : FbS :=
  { f with nodes := f.nodes.filter (fun x => x.serial != n.serial) ++ [n], newIdent := f.newIdent || !(f.seen.contains n.serial),
           seen := if f.seen.contains n.serial then f.seen else f.seen ++ [n.serial] }

/-- The ASSIGN that answers the IDENT of the node. -/
def assigned (b : Nat) (n : FbNode) (d : Dev) : Dev :=
  fbSend b 5 0x12 0xFE (natLe 1 0x1A ++ natLe 5 0 ++ natLe 2 20 ++ n.serial ++ natLe 1 n.addr ++ natLe 3 0) d

/-- A node that was not known is confirmed with its present address. -/
def nodeConfirmed (b : Nat) (n : FbNode) (d : Dev) : Dev :=
  publishNodes b (raise 0x5801 b n.addr (assigned b n (modFb b (nodeListed n) d)))

section

variable {b addr asg present vendor model : Nat} {serial : Bytes} {d : Dev}

/-- The address is free: no other node has it, and a node alone has its serial. -/
theorem pickAddr_free (hl : 1 ≤ addr) (hu : addr ≤ 0xEF) (hn : ∀ n ∈ (fbS d b).nodes, n.serial ≠ serial ∧ n.addr ≠ addr)
    (ha : if fbBit d b 1 then asg = addr else present = addr) : pickAddr d b present asg serial = some addr := by
  have hfree : (nodeAddr addr && !(((fbS d b).nodes.filter (fun n => n.serial != serial)).any (fun n => n.addr == addr))) = true := by
    rw [show nodeAddr addr = true by simp [nodeAddr, hl, hu], Bool.true_and, Bool.not_eq_true', List.any_eq_false]
    intro n hmem
    simpa using (hn n (List.mem_filter.1 hmem).1).2
  unfold pickAddr
  cases hb : fbBit d b 1
  case true =>
    rw [hb, if_pos rfl] at ha
    simp only [if_true, ha, hfree]
  case false =>
    rw [hb, if_neg (by simp)] at ha
    simp only [Bool.false_eq_true, if_false, ha, hfree, if_true]

theorem confirmNode_new (hs : serial.length = 16) (hn : ∀ n ∈ (fbS d b).nodes, n.serial ≠ serial)
    (hp : pickAddr d b present asg serial = some addr) (hkeep : fbBit (assigned b ⟨addr, vendor % 2 ^ 32, model % 2 ^ 32, serial⟩
      (modFb b (nodeListed ⟨addr, vendor % 2 ^ 32, model % 2 ^ 32, serial⟩) d)) b 1 = true ∨ addr = present) :
    confirmNode b vendor model present asg serial d = nodeConfirmed b ⟨addr, vendor % 2 ^ 32, model % 2 ^ 32, serial⟩ d := by
  have hser : (serial ++ List.replicate 16 0).take 16 = serial := by rw [List.take_append_of_le_length (by omega), List.take_of_length_le (by omega)]
  have hknown : ((fbS d b).nodes.any (fun n => n.serial == serial)) = false := by
    rw [List.any_eq_false]
    intro n hmem
    simpa using hn n hmem
  unfold confirmNode
  simp only [hser, hp, hknown, Bool.false_eq_true, if_false]
  refine congrArg (publishNodes b) (congrArg (raise 0x5801 b addr) (if_neg ?_))
  rintro ⟨hne, _, hbit⟩
  rcases hkeep with h | h
  · rw [Bool.not_eq_true'] at hbit
    exact absurd (h.symm.trans hbit) (by decide)
  · exact hne h

end

theorem assigned_follows (b : Nat) (n : FbNode) (d : Dev) : Follows d (assigned b n d) := fbSend_follows _ _ _ _ _ _

theorem fbBit_assigned {b : Nat} {n : FbNode} {d : Dev} (hb : b < 4) (i : Nat) : fbBit (assigned b n (modFb b (nodeListed n) d)) b i = fbBit d b i := by
  have h : on (assigned b n (modFb b (nodeListed n) d)) (0x3004 + b) 0 = on (modFb b (nodeListed n) d) (0x3004 + b) 0 :=
    (assigned_follows b n _).on_low (by decide) (by omega)
  rw [fbBit, h, on_modFb, fbBit]

theorem nodeConfirmed_framed (b : Nat) (n : FbNode) (d : Dev) : Framed [.bus] [(0x3010 + b, 0)] d (nodeConfirmed b n d) :=
  .putb (by decide) (by simp) (.raise (.follow (.modFb (by simp) (.refl _ _ _)) (assigned_follows b n _)))

/-- A controller whose node is confirmed, but for the frames that wait. -/
theorem busCore_nodeConfirmed (b : Nat) (n : FbNode) (d : Dev) :
    busCore (fbS (nodeConfirmed b n d) b) = busCore (nodeListed n (fbS d b)) :=
  ((assigned_follows b n (modFb b (nodeListed n) d)).part .bus b : _).trans (by rw [fbS_modFb_same])

section

variable {s : State} {b : Nat}

/-- An IDENT whose identifier is not that of its serial is discarded (R368). -/
theorem identFrame_discards {vendor model addr rsv asg : Nat} {serial : Bytes} {id : Option Nat} {held : Bool} (hb : b < 4)
    (hr : fbMayRecv s.dev b = true) (h : id ≠ some (identId serial) ∨ rsv ≠ 0) :
    Completes (.identFrame b vendor model addr serial rsv { held := held, id := id, assign := asg }) s (fun e =>
      on e (0x3008 + b) 7 = incSat 32 (on s.dev (0x3008 + b) 7) ∧ (∀ k, (fbS e k).nodes = (fbS s.dev k).nodes) ∧
        Framed [] [(0x3008 + b, 2), (0x3008 + b, 4), (0x3008 + b, 7), (0x3004 + b, 0)] s.dev e) := by
  have hx : identNode b vendor model addr serial rsv held id asg (fresh s) = fbDiscard b (fbRecv b (fresh s)) := by
    unfold identNode
    refine fbTake_unsound hr ?_
    simp only [Bool.and_eq_false_iff, beq_eq_false_iff_ne]
    exact h
  refine part_completes rfl (by simpa using hb) hx (fun e he => ?_)
  have hrecv := fbRecv_framed b (fresh s)
  have hframe : Framed [] [(0x3008 + b, 2), (0x3008 + b, 4), (0x3008 + b, 7), (0x3004 + b, 0)] s.dev e :=
    .of_fresh (((hrecv.mono (by simp) (by simp [recvObjs])).trans ((fbDiscard_framed b _).mono (by simp) (by simp))).follow he)
  have hcnt := counted_of_lt (num := 0x3008 + b) 7 (by omega)
  refine ⟨?_, fun k => (congrArg FbS.nodes (hframe.1 .bus (by simp) k : busCore _ = busCore _) :), hframe⟩
  rw [he.on_of_not_counted (by decide) hcnt, fbDiscard, on_incr_same, hrecv.on_eq (by decide) hcnt (by simp [recvObjs]), on_fresh]

/-- A node that answers with a free address is confirmed and listed (R366, R381). -/
theorem identFrame_confirms {vendor model present addr other : Nat} {serial : Bytes} (hb : b < 4) (hr : fbMayRecv s.dev b = true)
    (hs : serial.length = 16) (hl : 1 ≤ addr) (hu : addr ≤ 0xEF)
    (hn : ∀ n ∈ (fbS s.dev b).nodes, n.serial ≠ serial ∧ n.addr ≠ addr) (hp : fbBit s.dev b 1 = false → present = addr) :
    Completes (.identFrame b vendor model present serial 0
        { held := false, id := some (identId serial), assign := if fbBit s.dev b 1 then addr else other }) s (fun e =>
      (⟨addr, vendor % 2 ^ 32, model % 2 ^ 32, serial⟩ : FbNode) ∈ (fbS e b).nodes ∧ raised e 0x5801 b = true ∧
        (∀ n ∈ (fbS s.dev b).nodes, n ∈ (fbS e b).nodes) ∧ (serial ∉ (fbS s.dev b).seen → (fbS e b).newIdent = true) ∧
        Framed [.bus] [(0x3010 + b, 0), (0x3008 + b, 2), (0x3008 + b, 4), (0x3004 + b, 0)] s.dev e) := by
  have hbus : fbS (fbRecv b (fresh s)) b = fbS s.dev b := fbS_congr (fbRecv_bus _ _) b
  have hbit : fbBit (fbRecv b (fresh s)) b 1 = fbBit s.dev b 1 := fbBit_fbRecv (by decide) (by decide)
  have hpick : pickAddr (fbRecv b (fresh s)) b present (if fbBit s.dev b 1 then addr else other) serial = some addr := by
    refine pickAddr_free hl hu (by rw [hbus]; exact hn) ?_
    rw [hbit]
    cases h : fbBit s.dev b 1
    · simpa using hp h
    · simp
  have hx : identNode b vendor model present serial 0 false (some (identId serial)) (if fbBit s.dev b 1 then addr else other) (fresh s) =
      nodeConfirmed b ⟨addr, vendor % 2 ^ 32, model % 2 ^ 32, serial⟩ (fbRecv b (fresh s)) := by
    unfold identNode
    rw [fbTake_taken (d := fresh s) hr (by rw [beq_self_eq_true]; rfl) rfl]
    refine confirmNode_new hs (by rw [hbus]; exact fun n h => (hn n h).1) hpick ?_
    rw [fbBit_assigned hb, hbit]
    cases h : fbBit s.dev b 1
    · exact .inr (hp h).symm
    · exact .inl rfl
  refine part_completes rfl (by simpa using hb) hx (fun e he => ?_)
  have hcore : busCore (fbS e b) = busCore (nodeListed ⟨addr, vendor % 2 ^ 32, model % 2 ^ 32, serial⟩ (fbS s.dev b)) := by
    rw [(he.part .bus b : busCore _ = busCore _), busCore_nodeConfirmed, hbus]
  have hnodes : (fbS e b).nodes = (fbS s.dev b).nodes.filter (fun x => x.serial != serial) ++ [⟨addr, vendor % 2 ^ 32, model % 2 ^ 32, serial⟩] :=
    (congrArg FbS.nodes hcore :)
  have hnew : (fbS e b).newIdent = ((fbS s.dev b).newIdent || !((fbS s.dev b).seen.contains serial)) := (congrArg FbS.newIdent hcore :)
  have hframe := ((fbRecv_framed b (fresh s)).mono (qs := [.bus]) (ls := [(0x3010 + b, 0), (0x3008 + b, 2), (0x3008 + b, 4), (0x3004 + b, 0)])
    (by simp) (by simp [recvObjs])).trans ((nodeConfirmed_framed b
    ⟨addr, vendor % 2 ^ 32, model % 2 ^ 32, serial⟩ _).mono (by simp) (by simp))
  refine ⟨by simp [hnodes], he.raised _ _ _ (raised_raise _ _ _ _), fun n h => ?_, fun h => ?_, .of_fresh (hframe.follow he)⟩
  · rw [hnodes]
    exact List.mem_append_left _ (List.mem_filter.2 ⟨h, by simpa using (hn n h).1⟩)
  · simp [hnew, h]

/-- Discovery ends after a round without a new serial (R381). -/
theorem discoveryRoundEnd_ends (hb : b < 4) (hr : running s.dev = true) (hd : fbBit s.dev b 8 = true)
    (hn : (fbS s.dev b).newIdent = false) : Completes (.discoveryRoundEnd b) s (fun e =>
      on e (0x3004 + b) 0 = clearBit (on s.dev (0x3004 + b) 0) 8 ∧ Framed [] [(0x3004 + b, 0)] s.dev e) := by
  have hx : discRoundEnd b (fresh s) = clrStatus (0x3004 + b) 0 8 (fresh s) := by
    unfold discRoundEnd
    rw [if_neg (by rw [show running (fresh s) = true from hr, show fbBit (fresh s) b 8 = true from hd]; simp)]
    exact if_neg (by rw [show (fbS (fresh s) b).newIdent = false from hn]; simp)
  refine partRun_completes rfl (by simpa using hb) hr hx (fun e he => ⟨?_, .of_fresh (.follow (.put (by decide) (by simp) (.refl _ _ _)) he)⟩)
  rw [he.on_low (by decide) (by omega), on_clrStatus_same, on_fresh]

/-- The next round: its number, and no new serial yet. -/
def nextRound (f : FbS) : FbS := { f with round := f.round + 1, newIdent := false }

/-- Discovery goes on after a round that found a new serial, while there are rounds left (R381). -/
theorem discoveryRoundEnd_goes_on (hb : b < 4) (hr : running s.dev = true) (hd : fbBit s.dev b 8 = true)
    (hn : (fbS s.dev b).newIdent = true) (hrounds : (fbS s.dev b).round + 1 < on s.dev 0x300C 2) :
    Completes (.discoveryRoundEnd b) s (fun e =>
      (fbS e b).round = (fbS s.dev b).round + 1 ∧ (fbS e b).newIdent = false ∧ Framed [.bus] [] s.dev e) := by
  have hx : discRoundEnd b (fresh s) = fbSend b 5 0x10 0xFF (natLe 1 0x18 ++ natLe 5 0 ++ natLe 2 4 ++
      natLe 1 ((fbS (fresh s) b).round + 1) ++ natLe 3 0) (modFb b nextRound (fresh s)) := by
    unfold discRoundEnd
    rw [if_neg (by rw [show running (fresh s) = true from hr, show fbBit (fresh s) b 8 = true from hd]; simp)]
    exact if_pos ⟨hn, hrounds⟩
  refine partRun_completes rfl (by simpa using hb) hr hx (fun e he => ?_)
  have hmod : Follows (modFb b nextRound (fresh s)) e := (fbSend_follows _ _ _ _ _ _).trans he
  have hcore : busCore (fbS e b) = busCore (nextRound (fbS s.dev b)) :=
    (hmod.part .bus b : busCore _ = busCore _).trans (by rw [fbS_modFb_same]; rfl)
  exact ⟨(congrArg FbS.round hcore :), (congrArg FbS.newIdent hcore :), .of_fresh ((Framed.modFb (by simp) (.refl _ _ _)).follow hmod)⟩

end

/-- Settles O40: an IDENT frame that is discarded, one that confirms its node, and the ends of a round. -/
theorem discoveryConfirmsNodes : Obligations.DiscoveryConfirmsNodes :=
  fun _ _ hr hb => ⟨fun _ _ _ _ _ _ _ _ hm h => identFrame_discards hb hm h,
    fun _ _ _ _ _ _ hm hs hl hu hn hp => identFrame_confirms hb hm hs hl hu hn hp,
    fun hd hn => discoveryRoundEnd_ends hb hr hd hn, fun hd hn hrounds => discoveryRoundEnd_goes_on hb hr hd hn hrounds⟩

end Sys2Proof

/-! A frame by a predicate on objects, for updates that write objects of many channels or nodes: what the legal core writes as its unit
takes over (R328). -/

namespace Sys2Proof

open Machine

/-- Only components of the list and objects of which `K` holds differ; what was raised stays raised. -/
structure Reaches (ps : List Part) (K : Nat → Nat → Prop) (d e : Dev) : Prop where
  parts : OnlyParts ps d e
  objs : ∀ num sub, sub < 256 → counted num sub = false → ¬K num sub → ov e num sub = ov d num sub
  pend : e.os.pend = d.os.pend
  raised : ∀ code inst ended, raised d code inst ended = true → raised e code inst ended = true

namespace Reaches

variable {ps qs : List Part} {K L : Nat → Nat → Prop} {d e f : Dev}

theorem refl (ps : List Part) (K : Nat → Nat → Prop) (d : Dev) : Reaches ps K d d := ⟨.refl _ d, fun _ _ _ _ _ => rfl, rfl, fun _ _ _ h => h⟩

theorem trans (h : Reaches ps K d e) (k : Reaches ps K e f) : Reaches ps K d f :=
  ⟨h.parts.trans k.parts, fun num sub hs hc hk => (k.objs num sub hs hc hk).trans (h.objs num sub hs hc hk), k.pend.trans h.pend,
    fun c i b hr => k.raised c i b (h.raised c i b hr)⟩

theorem ite {c : Prop} [Decidable c] (h : Reaches ps K d e) (k : Reaches ps K d f) : Reaches ps K d (if c then e else f) := by
  split
  · exact h
  · exact k

theorem forEach {α : Type} {l : List α} {g : α → Dev → Dev} (hg : ∀ a ∈ l, ∀ x, Reaches ps K x (g a x)) (h : Reaches ps K d e) :
    Reaches ps K d (Machine.forEach l g e) := by
  induction l generalizing e with
  | nil => exact h
  | cons a l ih => exact ih (fun b hb => hg b (List.mem_cons_of_mem _ hb)) (h.trans (hg a List.mem_cons_self e))

theorem of_contained {ks : List (Nat × Nat)} (h : Contained ps ks d e) (hk : ∀ k ∈ ks, K k.1 k.2) : Reaches ps K d e :=
  ⟨h.framed.1, fun _ _ hs hc hn => h.framed.ov_eq hs hc (fun hm => hn (hk _ hm)), h.framed.2.2, h.raised⟩

theorem of_follows (h : Follows d e) : Reaches ps K d e := .of_contained (.of_follows h (ks := [])) (by simp)

theorem follow (h : Reaches ps K d e) (k : Follows e f) : Reaches ps K d f := h.trans (.of_follows k)

/-- An update of fields of the parts named. -/
theorem of_parts (h : OnlyParts ps d e) (ho : e.os = d.os) (hv : e.ev = d.ev) : Reaches ps K d e :=
  .of_contained (ks := []) (.of_ev (.of_os h ho) hv) (by simp)

theorem put {num sub n : Nat} (hk : ∀ m t, t < 256 → okey num sub = okey m t → K m t) (h : Reaches ps K d e) :
    Reaches ps K d (put num sub n e) :=
  h.trans ⟨(onlyParts_put num sub n e).mono (by simp), fun m t ht _ hm => ov_put_other _ _ _ _ _ _ (fun heq => hm (hk m t ht heq)), rfl,
    fun _ _ _ hr => hr⟩

/-- A subindex that is one names no other object. -/
theorem put_low {num sub n : Nat} (hs : sub < 256) (hk : K num sub) (h : Reaches ps K d e) : Reaches ps K d (Machine.put num sub n e) :=
  h.put (fun _ _ ht heq => (okey_inj hs ht heq).1 ▸ (okey_inj hs ht heq).2 ▸ hk)

theorem raise {code inst data : Nat} (h : Reaches ps K d e) : Reaches ps K d (raise code inst data e) := h.follow (raise_follows _ _ _ _)

theorem legal (hp : .legal ∈ ps) (h : Reaches ps K d e) (x : LegalS) : Reaches ps K d { e with legal := x } :=
  h.trans (.of_parts (Framed.legal (ks := []) hp (.refl _ _ e) x).1 rfl rfl)

theorem on_eq (h : Reaches ps K d e) {num sub : Nat} (hs : sub < 256) (hc : counted num sub = false) (hk : ¬K num sub) :
    on e num sub = on d num sub := congrArg valNat (h.objs num sub hs hc hk)

theorem mono (h : Reaches ps K d e) (hp : ∀ p ∈ ps, p ∈ qs) : Reaches qs K d e := ⟨h.parts.mono hp, h.objs, h.pend, h.raised⟩

theorem weaken (h : Reaches ps K d e) (hK : ∀ num sub, K num sub → L num sub) : Reaches ps L d e :=
  ⟨h.parts, fun _ _ hs hc hn => h.objs _ _ hs hc (fun hk => hn (hK _ _ hk)), h.pend, h.raised⟩

theorem of_fresh {s : State} (h : Reaches ps K (fresh s) e) : Reaches ps K s.dev e :=
  ⟨((onlyParts_of_fields (e := fresh s) rfl).mono (by simp)).trans h.parts, h.objs, h.pend, h.raised⟩

end Reaches

/-! ### Entries of the store -/

section

variable {ps : List Part} {ks : List (Nat × Nat)} {d : Dev}

theorem partPublish_ev (i : Nat) (d : Dev) : (partPublish i d).ev = d.ev := by
  unfold partPublish
  split <;> rfl

theorem partPublish_contained (i : Nat) (d : Dev) : Contained ps ks d (partPublish i d) :=
  .of_ev (partPublish_framed i d) (partPublish_ev i d)

variable (hp : .flash ∈ ps) (i typ : Nat) (body : Bytes)

include hp

theorem modPart_contained (f : PartS → PartS) (d : Dev) : Contained ps ks d (modPart i f d) := .of_ev (modPart_framed hp i d f) rfl

theorem partAdd_contained {e : Dev} (h : partAdd i typ body d = some e) : Contained ps ks d e := by
  unfold partAdd at h
  dsimp only at h
  refine of_ite_eq h (fun h => ?_) (fun h => of_ite_eq h (fun h => absurd h (by simp)) (fun h => ?_))
  · exact Option.some.inj h ▸ (modPart_contained hp i _ d).trans (partPublish_contained i _)
  · refine Option.some.inj h ▸ Contained.trans ?_ (partPublish_contained i _)
    have hreused : ∀ c : Bool, ∀ f, Contained ps ks d
        (if c = true ∧ 2 ≤ i ∧ i ≤ 4 then incr 32 (0x3310 + i) 4 (modPart i f d) else modPart i f d) := fun c f => by
      split
      case isTrue h => exact .of_ev (.put_counted (by decide) (by simp [counted]; omega) (modPart_framed hp i d f)) rfl
      case isFalse => exact modPart_contained hp i f d
    exact .ite (.raise (hreused _ _)) (hreused _ _)

variable (hk : (0x2200, 0) ∈ ks)

include hk

theorem recHold_contained (d : Dev) : Contained ps ks d (recHold i typ body d) := by
  have h : Contained ps ks d { d with flash := { d.flash with held := d.flash.held ++ [(i, typ, body)] } } :=
    .of_ev (.flash hp (.refl _ _ d) _) rfl
  exact .ite (.raise (.put (by decide) hk h)) h

theorem recStore_contained (d : Dev) : Contained ps ks d (recStore i typ body d) := by
  unfold recStore
  split
  case h_1 e he =>
    split at he
    · exact partAdd_contained hp i typ body he
    · exact absurd he (by simp)
  case h_2 =>
    have hfull : Contained ps ks d (if i = 0 ∧ storeUp d then setStatus 0x3300 0 8 d else d) :=
      .ite (.of_ev (.put_counted (by decide) (by decide) (.refl _ _ d)) rfl) (.refl _ _ d)
    exact hfull.trans (recHold_contained hp i typ body hk _)

theorem recPost_contained (d : Dev) : Contained ps ks d (recPost i typ body d) :=
  .ite (.refl _ _ d) (.ite (recHold_contained hp i typ body hk d)
    (ringPass_contained (partRing_lt i) _ (recStore_contained hp i typ body hk) (recHold_contained hp i typ body hk) d))

end

/-! ### Increments and intervals -/

/-- The numbers of the objects that metering and billing write. -/
def legalNums (num _sub : Nat) : Prop := 0x2000 ≤ num

/-- An update of the legal core that leaves the increments which wait for their records as they are. -/
structure KeepsOwn (d e : Dev) : Prop where
  reach : Reaches [.legal, .flash] legalNums d e
  own : e.legal.own = d.legal.own

namespace KeepsOwn

variable {d e f : Dev}

theorem refl (d : Dev) : KeepsOwn d d := ⟨.refl _ _ d, rfl⟩

theorem trans (h : KeepsOwn d e) (k : KeepsOwn e f) : KeepsOwn d f := ⟨h.reach.trans k.reach, k.own.trans h.own⟩

theorem ite {c : Prop} [Decidable c] (h : KeepsOwn d e) (k : KeepsOwn d f) : KeepsOwn d (if c then e else f) := by
  split
  · exact h
  · exact k

theorem forEach {α : Type} {l : List α} {g : α → Dev → Dev} (hg : ∀ a x, KeepsOwn x (g a x)) (h : KeepsOwn d e) :
    KeepsOwn d (Machine.forEach l g e) :=
  forEach_keeps (P := KeepsOwn d) (fun a _ x hx => hx.trans (hg a x)) h

theorem put {num sub n : Nat} (hk : 0x2000 ≤ num) (h : KeepsOwn d e) : KeepsOwn d (Machine.put num sub n e) :=
  ⟨h.reach.put (fun _ _ _ heq => by unfold okey at heq; unfold legalNums; omega), h.own⟩

theorem modLegal {g : LegalS → LegalS} (h : KeepsOwn d e) (hg : ∀ l, (g l).own = l.own := by exact fun _ => rfl) :
    KeepsOwn d (Machine.modLegal g e) :=
  ⟨h.reach.legal (by simp) _, (hg _).trans h.own⟩

end KeepsOwn

/-- Units added to a register of a channel. -/
def regAdded (m sub u : Nat) (d : Dev) : Dev := if u = 0 then d else put (0x2100 + m) sub (satU 96 (on d (0x2100 + m) sub + u)) d

/-- The registers of an increment. -/
def regsAdded (i : IncS) (d : Dev) : Dev :=
  regAdded i.m 1 i.imp (regAdded i.m 2 i.exp (regAdded i.m (2 + i.tariff) i.imp (regAdded i.m (6 + i.tariff) i.exp d)))

theorem addInc_eq (i : IncS) (d : Dev) : addInc i d = if i.imp = 0 ∧ i.exp = 0 then d else
    modLegal (fun l => { l with journal := l.journal ++ [i] }) (creditInts i (regsAdded i d)) := rfl

section

variable (m : Nat) (d : Dev)

theorem auxFlags_keeps : KeepsOwn d (auxFlags m d) := .ite (.refl d) (.put (by omega) (.refl d))

theorem intFlag_keeps (bit : Nat) : KeepsOwn d (intFlag m bit d) := by
  unfold intFlag modCh eachInt
  exact .modLegal (.trans (.modLegal (.refl d)) (auxFlags_keeps m _))

theorem regAdded_keeps (sub u : Nat) : KeepsOwn d (regAdded m sub u d) := .ite (.refl d) (.put (by omega) (.refl d))

theorem regsAdded_keeps (i : IncS) : KeepsOwn d (regsAdded i d) :=
  .trans (.trans (regAdded_keeps i.m d _ _) (regAdded_keeps i.m _ _ _)) (.trans (regAdded_keeps i.m _ _ _) (regAdded_keeps i.m _ _ _))

theorem addInc_keeps (i : IncS) : KeepsOwn d (addInc i d) := by
  rw [addInc_eq]
  unfold creditInts tickInts
  exact .ite (.refl d) (.modLegal (.modLegal (regsAdded_keeps d i)))

theorem markTakeover_keeps (i : IncS) : KeepsOwn d (markTakeover i d) :=
  .trans (.modLegal (.modLegal (.refl d))) (auxFlags_keeps i.m _)

theorem recPost_keeps (typ : Nat) (body : Bytes) : KeepsOwn d (recPost m typ body d) where
  reach := .of_contained (recPost_contained (ks := [(0x2200, 0)]) (by simp) m typ body (by simp) d) (by simp [legalNums])
  own := congrArg LegalS.own ((recPost_framed (ps := [.flash]) (ks := [(0x2200, 0)]) (by simp) m typ body d (by simp)).1 .legal (by simp))

theorem intRecord_keeps (rtype lsecEnd : Nat) (x : IntS) : KeepsOwn d (intRecord rtype m lsecEnd x d) :=
  .trans (.modLegal (.refl d)) (recPost_keeps 0 _ rtype _)

theorem publishDemand_keeps (k lsecEnd : Nat) (x : IntS) : KeepsOwn d (publishDemand k lsecEnd x d) :=
  have h := KeepsOwn.put (num := 0x2208 + k) (sub := 2) (n := x.rflags) (by omega) (.put (sub := 1) (n := demandKw x) (by omega) (.refl d))
  .ite (.put (by omega) (.put (by omega) (.put (by omega) h))) h

theorem finishInt_keeps (rtype lsecEnd : Nat) (x : IntS) : KeepsOwn d (finishInt rtype m lsecEnd x d) :=
  .ite (.ite ((publishDemand_keeps d _ _ x).trans (intRecord_keeps m _ rtype lsecEnd x)) (.refl d)) (intRecord_keeps m d rtype lsecEnd x)

theorem finishWaits_keeps : KeepsOwn d (finishWaits m d) :=
  .forEach (fun w x => finishInt_keeps w.m x w.rtype w.lsecEnd w.int) (.modLegal (.refl d))

end

/-- A takeover leaves no increment waiting for its record (R328). -/
theorem legalTakeover_takes (d : Dev) : Reaches [.legal, .flash] legalNums d (legalTakeover d) ∧ (legalTakeover d).legal.own = [] := by
  have hown : ∀ x : Dev, ∀ l : List IncS, KeepsOwn x (forEach l (fun i d => addInc i (markTakeover i d)) x) := fun x l =>
    .forEach (fun i y => (markTakeover_keeps y i).trans (addInc_keeps _ i)) (.refl x)
  have hwait : ∀ x : Dev, KeepsOwn x (forEach (List.range 66) (fun m d => finishWaits m (intFlag m 7 d)) x) := fun x =>
    .forEach (fun m y => (intFlag_keeps m y 7).trans (finishWaits_keeps m _)) (.refl x)
  have hall : ∀ x : Dev, KeepsOwn x (if meters x then forEach (List.range 66) (fun m d => finishWaits m (intFlag m 7 d)) x else x) :=
    fun x => .ite (hwait x) (.refl x)
  have h := (hown (modLegal (fun l => { l with own := [], pulses := l.pulses.map (fun p => { p with a := 0, back := false }) }) d)
    d.legal.own).trans (hall _)
  exact ⟨(Reaches.legal (by simp) (.refl _ _ d) _).trans h.reach, h.own⟩

end Sys2Proof

/-! Roles of a pair (R451 to R454): what a change of role writes, and the elections. -/

namespace Sys2Proof

open Machine

/-! ### Bits of PAIR.STATUS -/

section

variable {ps : List Part} {ks : List (Nat × Nat)} {d e : Dev} {i j : Nat} {b : Bool}

theorem Contained.putPairBit (hk : (0x400, 0) ∈ ks) (h : Contained ps ks d e) : Contained ps ks d (putPairBit i b e) :=
  .ite h (.put (by decide) hk h)

theorem pairBit_congr (h : on e 0x400 0 = on d 0x400 0) (i : Nat) : pairBit e i = pairBit d i := by rw [pairBit, h, pairBit]

theorem pairBit_putPairBit (i j : Nat) (b : Bool) (d : Dev) : pairBit (putPairBit i b d) j = if i = j then b else pairBit d j := by
  unfold putPairBit
  split
  case isTrue h =>
    split
    case isTrue hij => exact hij ▸ h
    case isFalse => rfl
  case isFalse => rw [pairBit, wrStatus, on_put_same, testBit_putBit, pairBit]

@[simp] theorem putPairBit_pair (i : Nat) (b : Bool) (d : Dev) : (putPairBit i b d).pair = d.pair := by
  unfold putPairBit
  split <;> rfl

theorem on_putPairBit {num sub : Nat} (h : okey 0x400 0 ≠ okey num sub) : on (putPairBit i b d) num sub = on d num sub := by
  unfold putPairBit
  split
  · rfl
  · exact on_put_other _ _ _ _ _ _ h

theorem Contained.modPair {g : PairS → PairS} (hp : .pair ∈ ps) (h : Contained ps ks d e) : Contained ps ks d (modPair g e) :=
  h.trans (.of_ev (.pair hp (.refl _ _ e) _) rfl)

end

/-! ### Becoming active -/

/-- The objects of a role, with those that count sessions and frames withdrawn. -/
def roleObjs : List (Nat × Nat) := [(0x400, 0), (0x401, 0), (0x402, 0), (0x185, 0)] ++ sesEndObjs

section

variable {d : Dev}

theorem endSessions_ev (d : Dev) : (endSessions d).ev = d.ev := by
  have hcount : ∀ x : Dev, (countSessions x).ev = x.ev := fun x => by
    unfold countSessions
    split <;> rfl
  have hwithdraw : ∀ b f (x : Dev), (fbWithdraw b f x).ev = x.ev := fun b f x => by
    unfold fbWithdraw
    dsimp only
    split <;> rfl
  have hend : ∀ c x, (endSession c x).ev = x.ev := fun c x => by
    unfold endSession
    split
    · rfl
    · dsimp only
      split
      · rw [hwithdraw, hcount]
      · exact hcount _
  exact forEach_keeps (P := fun x => x.ev = d.ev) (fun c _ x hx => (hend c x).trans hx) rfl

theorem endSessions_contained {ks : List (Nat × Nat)} (hk : ∀ k ∈ sesEndObjs, k ∈ ks) (d : Dev) : Contained [.malpen] ks d (endSessions d) :=
  .of_ev ((endSessions_framed d).mono (fun _ h => h) hk) (endSessions_ev d)

theorem setRole_contained (r : Role) (d : Dev) : Contained [.pair] roleObjs d (setRole r d) :=
  .putPairBit (by decide) (.modPair (by decide) (.put (by decide) (by decide) (.refl _ _ d)))

theorem setRole_pair (r : Role) (d : Dev) : (setRole r d).pair = { d.pair with role := r } := putPairBit_pair _ _ _

theorem on_setRole_role (r : Role) (d : Dev) : on (setRole r d) 0x401 0 = roleCode r := by
  rw [setRole, on_putPairBit (by decide)]
  exact on_put_same _ _ _ _

theorem on_setRole {num sub : Nat} (r : Role) (d : Dev) (h0 : okey 0x400 0 ≠ okey num sub) (h1 : okey 0x401 0 ≠ okey num sub) :
    on (setRole r d) num sub = on d num sub := by
  rw [setRole, on_putPairBit h0]
  exact on_put_other _ _ _ _ _ _ h1

theorem unlock_contained (d : Dev) : Contained [.time] [(0x185, 0)] d (unlock d) :=
  have h := Contained.of_ev (Framed.time (ps := [.time]) (ks := [(0x185, 0)]) (by simp) (.refl _ _ d) { d.time with lockCount := 0 }) rfl
  .ite (.put (by decide) (by simp) h) h

theorem unlock_time (d : Dev) : (unlock d).time = { d.time with lockCount := 0 } := by
  unfold unlock
  dsimp only
  split <;> rfl

/-- The unit once its role is ACTIVE and its sessions have ended, before it takes its epoch. -/
def activated (d : Dev) : Dev := setRole .active (endSessions d)

theorem activated_contained (d : Dev) : Contained [.pair, .malpen] roleObjs d (activated d) :=
  ((endSessions_contained (by decide) d).mono (by simp) (fun _ h => h)).trans ((setRole_contained .active _).mono (by simp) (fun _ h => h))

theorem activated_pair (d : Dev) : (activated d).pair = { d.pair with role := .active } := by
  have h : (endSessions d).pair = d.pair := (endSessions_framed d).1 .pair (by simp)
  rw [activated, setRole_pair, h]

/-- The sessions end and the role is ACTIVE, with the epoch `n`. -/
structure TurnedActive (n : Nat) (d e : Dev) : Prop where
  pair : e.pair = { d.pair with role := .active }
  time : e.time = { d.time with lockCount := 0 }
  role : on e 0x401 0 = 1
  epoch : on e 0x402 0 = n
  isOn : pairBit e 0 = true
  notReady : pairBit e 1 = false
  bits : ∀ i, i ≠ 0 → i ≠ 1 → pairBit e i = pairBit d i
  noSessions : e.malpen.ses = []
  noTransfers : e.malpen.xf = []
  frame : Contained [.pair, .time, .malpen] roleObjs d e

/-- A unit becomes ACTIVE with the epoch that is put (R379, R453). -/
theorem toActive_turns {f : Dev → Dev} {n : Nat} (d : Dev) (hf : f (activated d) = putEpoch n (activated d)) :
    TurnedActive (satU 32 n) d (toActive f d) := by
  have hx : toActive f d = putPairBit 1 false (unlock (putEpoch n (activated d))) := congrArg (fun x => putPairBit 1 false (unlock x)) hf
  have hrole := activated_contained d
  have hepoch : Contained [.pair, .malpen] roleObjs (activated d) (putEpoch n (activated d)) := .put (by decide) (by decide) (.refl _ _ _)
  have hunlock := unlock_contained (putEpoch n (activated d))
  have hses : (activated d).malpen = (endSessions d).malpen := by
    unfold activated setRole putPairBit
    dsimp only
    split <;> rfl
  have hmal : (toActive f d).malpen = (endSessions d).malpen := by
    rw [hx, ← hses]
    unfold putPairBit unlock
    dsimp only
    split <;> split <;> rfl
  have hst : ∀ i, pairBit (unlock (putEpoch n (activated d))) i = pairBit (activated d) i := fun i =>
    (pairBit_congr (hunlock.framed.on_eq (by decide) (by decide) (by decide)) i).trans
      (pairBit_congr (on_put_other _ _ _ _ _ _ (by decide)) i)
  have hact : ∀ i, pairBit (activated d) i = if 0 = i then true else pairBit d i := fun i => by
    have hend : on (endSessions d) 0x400 0 = on d 0x400 0 := (endSessions_framed d).on_eq (by decide) (by decide) (by decide)
    rw [activated, setRole, pairBit_putPairBit]
    split
    · rfl
    · exact (pairBit_congr (on_put_other _ _ _ _ _ _ (by decide)) i).trans (pairBit_congr hend i)
  exact {
    pair := by
      rw [hx, putPairBit_pair]
      exact (hunlock.framed.1 .pair (by simp)).trans (activated_pair d)
    time := by
      have hput : ∀ i b (x : Dev), (putPairBit i b x).time = x.time := fun i b x => by
        unfold putPairBit
        split <;> rfl
      have hkept : (putEpoch n (activated d)).time = d.time := (hrole.trans hepoch).framed.1 .time (by simp)
      rw [hx, hput, unlock_time, hkept]
    role := by
      rw [hx, on_putPairBit (by decide), hunlock.framed.on_eq (by decide) (by decide) (by decide), putEpoch,
        on_put_other _ _ _ _ _ _ (by decide)]
      exact on_setRole_role .active _
    epoch := by
      rw [hx, on_putPairBit (by decide), hunlock.framed.on_eq (by decide) (by decide) (by decide)]
      exact on_put_same _ _ _ _
    isOn := by rw [hx, pairBit_putPairBit, if_neg (by decide), hst, hact, if_pos rfl]
    notReady := by rw [hx, pairBit_putPairBit, if_pos rfl]
    bits := fun i h0 h1 => by rw [hx, pairBit_putPairBit, if_neg (Ne.symm h1), hst, hact, if_neg (Ne.symm h0)]
    noSessions := by rw [hmal]; exact (endSessions_malpen d).1
    noTransfers := by rw [hmal]; exact (endSessions_malpen d).2
    frame := hx ▸ .putPairBit (by decide) (((hrole.trans hepoch).mono (by simp) (fun _ h => h)).trans (hunlock.mono (by simp) (by decide))) }

end

/-- The epoch that a unit takes by itself: above its own and every one it has seen (R453). -/
def nextEpoch (d : Dev) : Nat := epochAbove (portNo d) (max (on d 0x402 0) d.pair.seen)

theorem lt_epochAbove (unit v : Nat) : v < epochAbove unit v := by
  unfold epochAbove
  split <;> omega

theorem epochAbove_le (unit v : Nat) : epochAbove unit v ≤ v + 2 := by
  unfold epochAbove
  split <;> omega

theorem takeEpoch_activated (d : Dev) : takeEpoch (activated d) = putEpoch (nextEpoch d) (activated d) := by
  have hkeep : ∀ num, num = 0x402 ∨ num = 0x403 → on (activated d) num 0 = on d num 0 := fun num h => by
    have hend : on (endSessions d) num 0 = on d num 0 := by
      rcases h with rfl | rfl <;> exact (endSessions_framed d).on_eq (by decide) (by decide) (by decide)
    rw [activated, on_setRole _ _ (by rcases h with rfl | rfl <;> decide) (by rcases h with rfl | rfl <;> decide), hend]
  rw [takeEpoch, activated_pair, if_neg (by simp), portNo, hkeep _ (.inr rfl), hkeep _ (.inl rfl)]
  rfl

/-- A unit is elected ACTIVE. -/
theorem electActive_turns (d : Dev) : TurnedActive (satU 32 (nextEpoch d)) d (electActive d) := by
  have h := toActive_turns d (takeEpoch_activated d)
  exact { h with frame := .raise h.frame }

/-! ### What a change to ACTIVE brings with it -/

/-- The mirrored load channels go on (R282). -/
theorem lchTakeover_contained {ks : List (Nat × Nat)} (a b c : Nat) (d : Dev) : Contained [.lch] ks d (lchTakeover a b c d) := by
  have hmod : ∀ n f x, Contained [.lch] ks x (modLch n f x) := fun n f x => .of_ev (.lch (by simp) (.refl _ _ x) _) rfl
  refine forEach_keeps (P := Contained [.lch] ks d) (fun n _ x hx => hx.trans ?_) (.refl _ _ d)
  exact .ite (.ite ((hmod _ _ x).trans (.raise (hmod _ _ _))) (hmod _ _ x)) ((hmod _ _ x).trans (hmod _ _ _))

/-- The pair once its unit has taken over. -/
def takenOver (p : PairS) : PairS := { p with lastGrants := [], lastContactors := [], complete := true, rx := [], rxWrite := none }

/-- What a unit takes over changes no object of its role (R248, R282, R328, R414). -/
structure Assumed (d e : Dev) : Prop where
  reach : Reaches [.lch, .pair, .legal, .flash, .yard, .energy] legalNums d e
  pair : e.pair = takenOver d.pair
  own : e.legal.own = []
  sendAll : e.yard.sendAll = true

theorem assume_assumed (d : Dev) : Assumed d (assume d) := by
  have hl := fun a b c => lchTakeover_contained (ks := []) a b c d
  have hm : ∀ x : Dev, Contained [.pair] [] x (modPair takenOver x) := fun x => .modPair (by simp) (.refl _ _ x)
  have hy : ∀ x : Dev, Contained [.yard, .energy] [(0x3102, 0)] x (restartTimers (yardActive x)) := fun x =>
    .of_ev (.energy (by simp) (.put (by decide) (by simp) (.yard (by simp) (.refl _ _ x) _)) _) rfl
  have hreach : ∀ a b c, Reaches [.lch, .pair] legalNums d (modPair takenOver (lchTakeover a b c d)) := fun a b c =>
    .of_contained (((hl a b c).mono (by simp) (by simp)).trans ((hm _).mono (by simp) (by simp))) (ks := []) (by simp)
  have hlegal := fun x => legalTakeover_takes x
  have hall : ∀ a b c, Assumed d (restartTimers (yardActive (legalTakeover (modPair takenOver (lchTakeover a b c d))))) := fun a b c => {
    reach := ((hreach a b c).mono (by simp)).trans (((hlegal _).1.mono (by simp)).trans
      ((Reaches.of_contained (hy _) (by simp [legalNums])).mono (by simp)))
    pair := ((hy _).framed.1 .pair (by simp)).trans (((hlegal _).1.parts .pair (by simp)).trans (congrArg takenOver ((hl a b c).framed.1 .pair (by simp))))
    own := (congrArg LegalS.own ((hy _).framed.1 .legal (by simp))).trans (hlegal _).2
    sendAll := rfl }
  exact hall _ _ _

/-! ### Elections -/

section

variable {s : State}

theorem roleObjs_listed : ∀ k ∈ roleObjs, k ∈ ([(0x400, 0), (0x401, 0), (0x402, 0), (0x185, 0), (0x3015, 1)] ++
    (List.range 4).map (fun b => (0x3008 + b, 8)) : List (Nat × Nat)) := by decide

theorem noSessions_of_follows {x e : Dev} (he : Follows x e) (hs : x.malpen.ses = []) (hx : x.malpen.xf = []) :
    e.malpen.ses = [] ∧ e.malpen.xf = [] :=
  ⟨no_sessions_of_same (he.part .malpen) hs, (congrArg MalpenS.xf (he.part .malpen)).trans hx⟩

theorem elected_follows {e : Dev} (he : Follows (electActive (fresh s)) e) :
    e.malpen.ses = [] ∧ e.malpen.xf = [] ∧ e.pair.role = .active ∧ on e 0x401 0 = 1 ∧
      on e 0x402 0 = satU 32 (epochAbove (portNo s.dev) (max (on s.dev 0x402 0) s.dev.pair.seen)) ∧
      (max (on s.dev 0x402 0) s.dev.pair.seen + 2 < 2 ^ 32 → on s.dev 0x402 0 < on e 0x402 0 ∧ s.dev.pair.seen < on e 0x402 0) ∧
      pairBit e 0 = true ∧ pairBit e 1 = false ∧ raised e 0x2001 noInst = true ∧
      Framed [.pair, .time, .malpen, .bus]
        ([(0x400, 0), (0x401, 0), (0x402, 0), (0x185, 0), (0x3015, 1)] ++ (List.range 4).map (fun b => (0x3008 + b, 8))) s.dev e := by
  have h := electActive_turns (fresh s)
  obtain ⟨hses, hxf⟩ := noSessions_of_follows he h.noSessions h.noTransfers
  have hon : ∀ num, num < 0x3200 → on e num 0 = on (electActive (fresh s)) num 0 := fun _ hn => he.on_low (by decide) hn
  have hepoch : on e 0x402 0 = satU 32 (nextEpoch s.dev) := (hon _ (by decide)).trans h.epoch
  refine ⟨hses, hxf, ?_, (hon _ (by decide)).trans h.role, hepoch, fun hlt => ?_, ?_, ?_, ?_, ?_⟩
  · rw [he.part .pair, h.pair]
  · have hle := epochAbove_le (portNo s.dev) (max (on s.dev 0x402 0) s.dev.pair.seen)
    have hgt := lt_epochAbove (portNo s.dev) (max (on s.dev 0x402 0) s.dev.pair.seen)
    have hfits : nextEpoch s.dev < 2 ^ 32 := by
      unfold nextEpoch
      omega
    rw [hepoch, satU, if_pos hfits]
    unfold nextEpoch
    omega
  · rw [pairBit_congr (hon _ (by decide)), h.isOn]
  · rw [pairBit_congr (hon _ (by decide)), h.notReady]
  · exact he.raised _ _ _ (raised_raise _ _ _ _)
  · exact .of_fresh ((h.frame.framed.mono (by simp) roleObjs_listed).follow he)

variable (hr : running s.dev = true)

include hr

theorem electionTimeout_elects (hd : s.dev.pair.declared = true) (he : s.dev.pair.role = .electing) (hh : s.dev.pair.lastHb = none)
    (hc : s.dev.pair.clash = false) (hb : s.dev.pair.missB ≠ 0 ∨ s.dev.pair.validEdge = none ∨ portNo s.dev ≠ 1) :
    electionTimeout (fresh s) = electActive (fresh s) := by
  have hgo : electionTimeout (fresh s) = electAlone (fresh s) := if_pos (by
    rw [show running (fresh s) = true from hr, show (fresh s).pair = s.dev.pair from rfl, hd, he, hh]
    rfl)
  have hnot : ¬((fresh s).pair.missB = 0 ∧ (fresh s).pair.validEdge.isSome = true ∧ portNo (fresh s) = 1) := by
    rintro ⟨h0, h1, h2⟩
    rcases hb with h | h | h
    · exact h h0
    · rw [show (fresh s).pair.validEdge = none from h] at h1
      exact absurd h1 (by decide)
    · exact h h2
  rw [hgo, electAlone, if_neg (by rw [show (fresh s).pair = s.dev.pair from rfl, he, hc]; decide), if_neg hnot]

/-- Unit 1 waits for its partner while it hears the partner's heartbeat (R452). -/
theorem electionTimeout_waits (hb : s.dev.pair.missB = 0) (hv : s.dev.pair.validEdge.isSome = true) (hp : portNo s.dev = 1) :
    Completes .electionTimeout s (Framed [] [] s.dev) := by
  have hx : electionTimeout (fresh s) = fresh s := by
    unfold electionTimeout
    split
    · unfold electAlone
      split
      · rfl
      · exact if_pos ⟨hb, hv, hp⟩
    · rfl
  refine act_completes (f := ifRun electionTimeout) rfl (fun e he => ?_)
  rw [ifRun, if_pos (show running (fresh s) = true from hr), hx] at he
  exact .of_fresh ((Framed.refl _ _ _).follow he)

theorem noImageTakeover_acts (hd : s.dev.pair.declared = true) (hrole : s.dev.pair.role = .electing ∨ s.dev.pair.role = .standby)
    (hi : (img? s.dev).isSome = true) (hn : 3 ≤ s.dev.pair.noImg) :
    noImageTakeover (fresh s) = if s.dev.pair.role == .standby then assume (electActive (fresh s)) else electActive (fresh s) := by
  refine if_pos ?_
  rw [show running (fresh s) = true from hr, inPair, show (fresh s).pair = s.dev.pair from rfl, hd,
    show (img? (fresh s)).isSome = true from hi, decide_eq_true hn]
  rcases hrole with h | h <;> rw [h] <;> rfl

theorem noImageTakeover_takes_over (hd : s.dev.pair.declared = true) (hrole : s.dev.pair.role = .standby)
    (hi : (img? s.dev).isSome = true) (hn : 3 ≤ s.dev.pair.noImg) : Completes .noImageTakeover s (fun e =>
      e.pair.role = .active ∧ on e 0x401 0 = 1 ∧ raised e 0x2001 noInst = true ∧ e.malpen.ses = [] ∧ e.malpen.xf = [] ∧
        on e 0x402 0 = satU 32 (epochAbove (portNo s.dev) (max (on s.dev 0x402 0) s.dev.pair.seen)) ∧ pairBit e 0 = true ∧
        pairBit e 1 = false ∧ e.legal.own = [] ∧ e.yard.sendAll = true ∧
        OnlyParts [.energy, .lch, .malpen, .time, .yard, .legal, .pair, .flash, .bus] s.dev e) := by
  have hx := noImageTakeover_acts hr hd (.inr hrole) hi hn
  rw [hrole] at hx
  refine act_completes (f := noImageTakeover) rfl (fun e he => ?_)
  rw [hx] at he
  change Follows (assume (electActive (fresh s))) e at he
  have h := electActive_turns (fresh s)
  have ha := assume_assumed (electActive (fresh s))
  have hon : ∀ num, num < 0x2000 → on e num 0 = on (electActive (fresh s)) num 0 := fun num hn =>
    (he.on_low (by decide) (by omega)).trans (ha.reach.on_eq (by decide) (counted_of_lt _ (by omega)) (by unfold legalNums; omega))
  have hsame : Part.Same .malpen (electActive (fresh s)) e := (ha.reach.follow he).parts .malpen (by simp)
  refine ⟨?_, (hon _ (by decide)).trans h.role, ?_, ?_, ?_, (hon _ (by decide)).trans h.epoch, ?_, ?_, ?_, ?_, ?_⟩
  · rw [he.part .pair, ha.pair, h.pair]
    rfl
  · exact he.raised _ _ _ (ha.reach.raised _ _ _ (raised_raise _ _ _ _))
  · exact no_sessions_of_same hsame h.noSessions
  · exact (congrArg MalpenS.xf hsame).trans h.noTransfers
  · rw [pairBit_congr (hon _ (by decide)), h.isOn]
  · rw [pairBit_congr (hon _ (by decide)), h.notReady]
  · rw [he.part .legal, ha.own]
  · rw [he.part .yard, ha.sendAll]
  · exact ((Framed.of_fresh (h.frame.framed)).1.mono (by simp)).trans ((ha.reach.follow he).parts.mono (by simp))

end

/-- Settles O47: the election by timeout, the wait of unit 1, and the takeover from a partner without an image. -/
theorem pairElects : Obligations.PairElects := fun s hr =>
  ⟨fun hd he hh hc hb => act_completes (f := ifRun electionTimeout) rfl (fun e hf => by
      rw [ifRun, if_pos (show running (fresh s) = true from hr), electionTimeout_elects hr hd he hh hc hb] at hf
      exact elected_follows hf),
    fun _ hb hv hp => electionTimeout_waits hr hb hv hp,
    fun hd he hi hn => act_completes (f := noImageTakeover) rfl (fun e hf => by
      rw [noImageTakeover_acts hr hd (.inl he) hi hn, he] at hf
      exact elected_follows hf),
    fun hd hs hi hn => noImageTakeover_takes_over hr hd hs hi hn⟩

end Sys2Proof

/-! Takeover and planned switchover (R453, R460, R472, R473, R475). -/

namespace Sys2Proof

open Machine

/-! ### The books of a change to ACTIVE -/

section

variable {ks : List (Nat × Nat)} (saddle cause : Nat) (ready : Bool) (d : Dev)

theorem lastTakeover_contained : Contained [] [(0x408, 1), (0x408, 2), (0x408, 3), (0x408, 4), (0x408, 5)] d (lastTakeover saddle cause ready d) :=
  .put (by decide) (by simp) (.put (by decide) (by simp) (.put (by decide) (by simp) (.put (by decide) (by simp)
    (.put (by decide) (by simp) (.refl _ _ d)))))

theorem on_lastTakeover_micro : on (lastTakeover saddle cause ready d) 0x408 1 = d.time.micro := by
  rw [lastTakeover, putf, on_put_other _ _ _ _ _ _ (by decide), on_put_other _ _ _ _ _ _ (by decide), on_put_other _ _ _ _ _ _ (by decide),
    on_put_other _ _ _ _ _ _ (by decide), on_put_same]

theorem on_lastTakeover_saddle : on (lastTakeover saddle cause ready d) 0x408 2 = satU 32 saddle := by
  rw [lastTakeover, putf, on_put_other _ _ _ _ _ _ (by decide), on_put_other _ _ _ _ _ _ (by decide), on_put_other _ _ _ _ _ _ (by decide),
    on_put_same]

theorem on_lastTakeover_cause : on (lastTakeover saddle cause ready d) 0x408 3 = cause := by
  rw [lastTakeover, putf, on_put_other _ _ _ _ _ _ (by decide), on_put_other _ _ _ _ _ _ (by decide), on_put_same]

end

/-! ### Takeover -/

/-- The stages of the image restored to what they last obeyed (R460). -/
def stagesRestored (im : Image) (d : Dev) : Dev := forEach ((List.range 32).filter (laneBound d)) (restoreStage im) d

theorem stagesRestored_contained {ks : List (Nat × Nat)} (im : Image) (d : Dev) : Contained [.sched] ks d (stagesRestored im d) := by
  refine forEach_keeps (P := Contained [.sched] ks d) (fun k _ x hx => hx.trans ?_) (.refl _ _ d)
  unfold restoreStage
  split
  · exact .refl _ _ x
  · exact .of_ev (.sched (by simp) (.refl _ _ x) _) rfl

/-- The pair as its unit takes over unplanned. -/
def aloneNow (cause : Nat) (p : PairS) : PairS :=
  { p with switchAt := none, tookOver := decide (cause = 0), announced := none, handingOver := true, handNs := 0 }

/-- What the takeover writes of the partner that is gone, and of itself (R475). -/
def takeoverBooked (saddle cause : Nat) (ready : Bool) (d : Dev) : Dev :=
  lastTakeover saddle cause ready (incr 32 0x407 1 (putPairBit 3 false (putPairBit 4 false (modPair (aloneNow cause) d))))

section

variable (saddle cause : Nat) (ready : Bool) (d : Dev)

theorem takeoverBooked_contained :
    Contained [.pair] [(0x400, 0), (0x407, 1), (0x408, 1), (0x408, 2), (0x408, 3), (0x408, 4), (0x408, 5)] d (takeoverBooked saddle cause ready d) :=
  .trans (.put (by decide) (by simp) (.putPairBit (by simp) (.putPairBit (by simp) (.modPair (by simp) (.refl _ _ d)))))
    ((lastTakeover_contained saddle cause ready _).mono (by simp) (by simp))

theorem takeoverBooked_pair : (takeoverBooked saddle cause ready d).pair = aloneNow cause d.pair := by
  have h : (takeoverBooked saddle cause ready d).pair = (putPairBit 3 false (putPairBit 4 false (modPair (aloneNow cause) d))).pair := rfl
  rw [h, putPairBit_pair, putPairBit_pair]
  rfl

theorem on_takeoverBooked_count : on (takeoverBooked saddle cause ready d) 0x407 1 = incSat 32 (on d 0x407 1) := by
  rw [takeoverBooked, (lastTakeover_contained _ _ _ _).framed.on_eq (by decide) (by decide) (by decide), on_incr_same, on_putPairBit (by decide),
    on_putPairBit (by decide)]
  rfl

theorem pairBit_takeoverBooked (i : Nat) (h : i = 3 ∨ i = 4) : pairBit (takeoverBooked saddle cause ready d) i = false := by
  have hbits : on (takeoverBooked saddle cause ready d) 0x400 0 =
      on (putPairBit 3 false (putPairBit 4 false (modPair (aloneNow cause) d))) 0x400 0 := by
    rw [takeoverBooked, (lastTakeover_contained _ _ _ _).framed.on_eq (by decide) (by decide) (by decide)]
    exact on_put_other _ _ _ _ _ _ (by decide)
  rw [pairBit_congr hbits, pairBit_putPairBit, pairBit_putPairBit]
  rcases h with rfl | rfl <;> simp

end

section

variable {s : State} (hr : running s.dev = true)

/-- The unit as it has taken over. -/
def takenOverBy (im : Image) (d : Dev) : Dev :=
  takeoverBooked (saddleNs d) (d.pair.announced.getD 0) (pairBit d 1) (assume (stagesRestored im (toActive takeEpoch d)))

include hr

theorem pairTakeover_acts {im : Image} (hrole : s.dev.pair.role = .standby) (hs : bothSilent s.dev = true) (hi : img? s.dev = some im) :
    pairTakeover (fresh s) =
      raise 0x2601 noInst (satU 32 (saddleNs (fresh s)) + 2 ^ 32 * boolNat (pairBit (fresh s) 1)) (takenOverBy im (fresh s)) := by
  unfold pairTakeover
  rw [if_neg (by rw [show running (fresh s) = true from hr, show (fresh s).pair.role = .standby from hrole,
    show bothSilent (fresh s) = true from hs]; decide)]
  split
  case h_1 h => exact absurd ((show img? (fresh s) = some im from hi).symm.trans h) (by simp)
  case h_2 im' h =>
    obtain rfl : im = im' := Option.some.inj ((show img? (fresh s) = some im from hi).symm.trans h)
    rfl

theorem pairTakeover_takes_over (hrole : s.dev.pair.role = .standby) (hs : bothSilent s.dev = true) (hi : (img? s.dev).isSome = true) :
    Completes .pairTakeover s (fun e =>
      e.pair.role = .active ∧ on e 0x401 0 = 1 ∧ raised e 0x2601 noInst = true ∧
        on e 0x402 0 = satU 32 (epochAbove (portNo s.dev) (max (on s.dev 0x402 0) s.dev.pair.seen)) ∧
        on e 0x407 1 = incSat 32 (on s.dev 0x407 1) ∧ on e 0x408 1 = s.dev.time.micro ∧ on e 0x408 2 = satU 32 (saddleNs s.dev) ∧
        on e 0x408 3 = s.dev.pair.announced.getD 0 ∧ pairBit e 3 = false ∧ pairBit e 4 = false ∧ e.malpen.ses = [] ∧ e.malpen.xf = [] ∧
        e.pair.handingOver = true ∧ e.time.micro = s.dev.time.micro ∧
        OnlyParts [.energy, .lch, .malpen, .time, .sched, .yard, .legal, .pair, .flash, .bus] s.dev e) := by
  obtain ⟨im, him⟩ := Option.isSome_iff_exists.1 hi
  refine act_completes (f := pairTakeover) rfl (fun e he => ?_)
  rw [pairTakeover_acts hr hrole hs him] at he
  have hbook : Follows (takenOverBy im (fresh s)) e := (raise_follows _ _ _ _).trans he
  have ht := toActive_turns (fresh s) (takeEpoch_activated (fresh s))
  have hst := stagesRestored_contained (ks := []) im (toActive takeEpoch (fresh s))
  have ha := assume_assumed (stagesRestored im (toActive takeEpoch (fresh s)))
  have hb := takeoverBooked_contained (saddleNs (fresh s)) ((fresh s).pair.announced.getD 0) (pairBit (fresh s) 1)
    (assume (stagesRestored im (toActive takeEpoch (fresh s))))
  have hmid : Reaches [.sched, .lch, .pair, .legal, .flash, .yard, .energy] legalNums (toActive takeEpoch (fresh s))
      (assume (stagesRestored im (toActive takeEpoch (fresh s)))) :=
    ((Reaches.of_contained hst (by simp)).mono (by simp)).trans (ha.reach.mono (by simp))
  have hlow : ∀ num sub, sub < 256 → num < 0x2000 → on (assume (stagesRestored im (toActive takeEpoch (fresh s)))) num sub =
      on (toActive takeEpoch (fresh s)) num sub := fun num sub hsub hn =>
    hmid.on_eq hsub (counted_of_lt _ (by omega)) (by unfold legalNums; omega)
  have hon : ∀ num sub, sub < 256 → num < 0x2000 → on e num sub = on (takenOverBy im (fresh s)) num sub := fun num sub hsub hn =>
    hbook.on_low hsub (by omega)
  have htime : (assume (stagesRestored im (toActive takeEpoch (fresh s)))).time = { s.dev.time with lockCount := 0 } :=
    (hmid.parts .time (by simp)).trans ht.time
  have hparts : OnlyParts [.sched, .lch, .pair, .legal, .flash, .yard, .energy] (toActive takeEpoch (fresh s)) e :=
    hmid.parts.trans ((hb.framed.1.mono (by simp)).trans (hbook.parts.mono (by simp)))
  have hsame : Part.Same .malpen (toActive takeEpoch (fresh s)) e := hparts .malpen (by simp)
  have hpair : e.pair = aloneNow (s.dev.pair.announced.getD 0) (takenOver { s.dev.pair with role := .active }) := by
    rw [hbook.part .pair, takenOverBy, takeoverBooked_pair, ha.pair, (hst.framed.1 .pair (by simp) : _ = _), ht.pair]
    rfl
  refine ⟨by rw [hpair]; rfl, ?_, he.raised _ _ _ (raised_raise _ _ _ _), ?_, ?_, ?_, ?_, ?_, ?_, ?_, no_sessions_of_same hsame ht.noSessions,
    (congrArg MalpenS.xf hsame).trans ht.noTransfers, by rw [hpair]; rfl, ?_, ?_⟩
  · rw [hon _ _ (by decide) (by decide), takenOverBy, hb.framed.on_eq (by decide) (by decide) (by decide), hlow _ _ (by decide) (by decide), ht.role]
  · rw [hon _ _ (by decide) (by decide), takenOverBy, hb.framed.on_eq (by decide) (by decide) (by decide), hlow _ _ (by decide) (by decide), ht.epoch]
    rfl
  · rw [hon _ _ (by decide) (by decide), takenOverBy, on_takeoverBooked_count, hlow _ _ (by decide) (by decide),
      ht.frame.framed.on_eq (by decide) (by decide) (by decide), on_fresh]
  · rw [hon _ _ (by decide) (by decide), takenOverBy, takeoverBooked, on_lastTakeover_micro]
    have hkeep : ∀ x : Dev, (incr 32 0x407 1 (putPairBit 3 false (putPairBit 4 false (modPair (aloneNow ((fresh s).pair.announced.getD 0)) x)))).time =
        x.time := fun x =>
      (Contained.put (ps := [.pair]) (ks := [(0x400, 0), (0x407, 1)]) (by decide) (by simp)
        (.putPairBit (by simp) (.putPairBit (by simp) (.modPair (by simp) (.refl _ _ x))))).framed.1 .time (by simp)
    rw [hkeep, htime]
  · rw [hon _ _ (by decide) (by decide), takenOverBy, takeoverBooked, on_lastTakeover_saddle]
    rfl
  · rw [hon _ _ (by decide) (by decide), takenOverBy, takeoverBooked, on_lastTakeover_cause]
    rfl
  · rw [pairBit_congr (hon _ _ (by decide) (by decide)), takenOverBy, pairBit_takeoverBooked _ _ _ _ _ (.inl rfl)]
  · rw [pairBit_congr (hon _ _ (by decide) (by decide)), takenOverBy, pairBit_takeoverBooked _ _ _ _ _ (.inr rfl)]
  · have hte : e.time = { s.dev.time with lockCount := 0 } := (hparts .time (by simp)).trans ht.time
    rw [hte]
  · exact ((Framed.of_fresh ht.frame.framed).1.mono (by simp)).trans (hparts.mono (by simp))

end

theorem pairTakeover_waits {s : State} (hs : bothSilent s.dev = false) : Completes .pairTakeover s (Framed [] [] s.dev) := by
  have hx : pairTakeover (fresh s) = fresh s := if_pos (by rw [show bothSilent (fresh s) = false from hs]; simp)
  refine act_completes (f := pairTakeover) rfl (fun e he => ?_)
  rw [hx] at he
  exact .of_fresh ((Framed.refl _ _ _).follow he)

/-! ### Becoming standby -/

/-- The pair of a unit that becomes STANDBY: what waited for the partner is lost (R474). -/
def emptied (p : PairS) : PairS := { p with queue := [], sendingW := [], deferred := [], billTx := [] }

/-- What waited for the partner is lost, and pulse outputs are inactive (R328, R474). -/
def letGo (d : Dev) : Dev :=
  let x := modPair emptied (forEach [0, 1, 2, 3] (fun x d => if (d.legal.pulses.getD x {}).busy then emit (.pulse x false) d else d) d)
  { x with ses := { x.ses with held := [], ready := [], deltas := [] } }

/-- A unit that has let go has no sessions and is STANDBY. -/
def demoted (d : Dev) : Dev := setRole .standby (endSessions (letGo d))

theorem toStandby_eq (d : Dev) : toStandby d = yardStandby (fbStandby (demoted d)) := rfl

theorem letGo_contained (d : Dev) : Contained [.pair, .ses] [] d (letGo d) := by
  have hp : Follows d (forEach [0, 1, 2, 3] (fun x d => if (d.legal.pulses.getD x {}).busy then emit (.pulse x false) d else d) d) :=
    forEach_follows _ _ (fun x y => by
      split
      · exact emit_follows _ _
      · exact .refl y) d
  exact .ses (by simp) (.modPair (by simp) (.of_follows hp)) _

theorem fbStandby_reaches (d : Dev) : Reaches [] legalNums d (fbStandby d) := by
  have hw : ∀ b, b < 4 → ∀ x, Reaches [] legalNums x (fbWithdraw b (fun _ => true) x) := fun b hb x =>
    .of_contained (.of_ev (fbWithdraw_framed hb _ x) (by unfold fbWithdraw; dsimp only; split <;> rfl)) (by simp [sesEndObjs, legalNums])
  refine .forEach (fun b hb x => .ite (.put_low (by decide) ?_ (hw b ?_ x)) (.refl _ _ x)) (.refl _ _ d)
  · exact Nat.le_trans (by decide) (Nat.le_add_right 0x3004 b)
  · simp at hb
    omega

theorem yardStandby_reaches (d : Dev) : Reaches [.yard] legalNums d (yardStandby d) :=
  .ite (.of_contained (.of_ev (.put (by decide) (by simp) (.put (by decide) (by simp) (.yard (by simp) (.refl _ [(0x3102, 0)] d) _))) rfl)
    (by simp [legalNums])) (.refl _ _ d)

/-- A unit becomes STANDBY. -/
structure TurnedStandby (d e : Dev) : Prop where
  pair : e.pair = { emptied d.pair with role := .standby }
  role : on e 0x401 0 = 2
  low : ∀ num sub, sub < 256 → num < 0x2000 → num ≠ 0x400 → num ≠ 0x401 → on e num sub = on d num sub

theorem toStandby_turns (d : Dev) : TurnedStandby d (toStandby d) := by
  have hlet := letGo_contained d
  have hses := (endSessions_framed (letGo d))
  have hrest : Reaches [.yard] legalNums (demoted d) (toStandby d) :=
    ((fbStandby_reaches _).mono (by simp)).trans (yardStandby_reaches _)
  have hon : ∀ num sub, sub < 256 → num < 0x2000 → on (toStandby d) num sub = on (demoted d) num sub := fun num sub hs hn =>
    hrest.on_eq hs (counted_of_lt _ (by omega)) (by unfold legalNums; omega)
  exact {
    pair := by
      have h : (endSessions (letGo d)).pair = (letGo d).pair := hses.1 .pair (by simp)
      have hp : (forEach [0, 1, 2, 3] (fun x d => if (d.legal.pulses.getD x {}).busy then emit (.pulse x false) d else d) d).pair = d.pair :=
        forEach_keeps (P := fun x => x.pair = d.pair) (fun k _ x hx => by
          split
          · exact hx
          · exact hx) rfl
      rw [(hrest.parts .pair (by simp) : _ = _), demoted, setRole_pair, h]
      exact congrArg (fun p => { emptied p with role := Role.standby }) hp
    role := by
      rw [hon _ _ (by decide) (by decide), demoted, on_setRole_role]
      rfl
    low := fun num sub hs hn h0 h1 => by
      rw [hon _ _ hs hn, demoted, on_setRole _ _ (fun h => h0 (okey_inj (by decide) hs h).1.symm) (fun h => h1 (okey_inj (by decide) hs h).1.symm),
        hses.on_eq hs (counted_of_lt _ (by omega)) (by simp [sesEndObjs]; omega), hlet.framed.on_eq hs (counted_of_lt _ (by omega)) (by simp)] }

theorem lchLeave_contained (d : Dev) : Contained [.lch] [] d (lchLeave d) :=
  forEach_keeps (P := Contained [.lch] [] d) (fun _ _ x hx => hx.trans (.ite (.raise (.of_ev (.lch (by simp) (.refl _ _ x) _) rfl)) (.refl _ _ x)))
    (.refl _ _ d)

/-! ### The planned switchover -/

/-- The pair once the switchover is done. -/
def switched (p : PairS) : PairS := { p with switchAt := none, tookOver := false, handingOver := true, handNs := 0, onSeen := 0 }

/-- The books of a switchover (R472, R475). -/
def switchBooked (cause : Nat) (d : Dev) : Dev :=
  raise 0x2002 noInst cause (clrStatus 0x700 0 4 (putPairBit 11 false (incr 32 0x407 2 (modPair switched d))))

section

variable (cause : Nat) (d : Dev)

theorem switchBooked_contained : Contained [.pair] [(0x400, 0), (0x407, 2), (0x700, 0)] d (switchBooked cause d) :=
  .raise (.put (by decide) (by simp) (.putPairBit (by simp) (.put (by decide) (by simp) (.modPair (by simp) (.refl _ _ d)))))

theorem switchBooked_pair : (switchBooked cause d).pair = switched d.pair := by
  have h : (switchBooked cause d).pair = (putPairBit 11 false (incr 32 0x407 2 (modPair switched d))).pair := rfl
  rw [h, putPairBit_pair]
  rfl

theorem on_switchBooked_count : on (switchBooked cause d) 0x407 2 = incSat 32 (on d 0x407 2) := by
  have h : on (switchBooked cause d) 0x407 2 = on (putPairBit 11 false (incr 32 0x407 2 (modPair switched d))) 0x407 2 :=
    on_put_other _ _ _ _ _ _ (by decide)
  rw [h, on_putPairBit (by decide), on_incr_same]
  rfl

theorem pairBit_switchBooked {i : Nat} (hi : i ≠ 11) : pairBit (switchBooked cause d) i = pairBit d i := by
  have h : on (switchBooked cause d) 0x400 0 = on (putPairBit 11 false (incr 32 0x407 2 (modPair switched d))) 0x400 0 :=
    on_put_other _ _ _ _ _ _ (by decide)
  rw [pairBit_congr h, pairBit_putPairBit, if_neg (Ne.symm hi)]
  exact pairBit_congr (on_put_other _ _ _ _ _ _ (by decide)) i

end

section

variable {s : State} {h c : Nat} (hr : running s.dev = true) (hs : s.dev.pair.switchAt = some (h, c))

include hs

theorem switchover_waits (hm : s.dev.time.micro < h) : Completes .switchover s (Framed [] [] s.dev) := by
  have hx : switchover (fresh s) = fresh s := by
    unfold switchover
    rw [show (fresh s).pair.switchAt = some (h, c) from hs]
    exact if_pos (by rw [show (fresh s).time = s.dev.time from rfl, decide_eq_true hm]; simp)
  refine act_completes (f := switchover) rfl (fun e he => ?_)
  rw [hx] at he
  exact .of_fresh ((Framed.refl _ _ _).follow he)

include hr

theorem switchover_acts (hm : h ≤ s.dev.time.micro) : switchover (fresh s) =
    if (fresh s).pair.role = .active then switchBooked c (putPairBit 4 true (lchLeave (toStandby (fresh s))))
    else if (fresh s).pair.role = .standby then
      switchBooked c (putPairBit 4 true (lastTakeover 0 c (pairBit (fresh s) 1) (assume (toActive (putEpoch (on (fresh s) 0x406 3 + 1)) (fresh s)))))
    else fresh s := by
  unfold switchover
  rw [show (fresh s).pair.switchAt = some (h, c) from hs]
  exact if_neg (by rw [show running (fresh s) = true from hr, show (fresh s).time = s.dev.time from rfl, decide_eq_false (by omega)]; decide)

theorem switchover_hands_over (hm : h ≤ s.dev.time.micro) (hrole : s.dev.pair.role = .active) : Completes .switchover s (fun e =>
    e.pair.role = .standby ∧ on e 0x401 0 = 2 ∧ raised e 0x2002 noInst = true ∧ on e 0x407 2 = incSat 32 (on s.dev 0x407 2) ∧
      pairBit e 4 = true ∧ e.pair.switchAt = none ∧ e.pair.queue = [] ∧ on e 0x402 0 = on s.dev 0x402 0) := by
  refine act_completes (f := switchover) rfl (fun e he => ?_)
  rw [switchover_acts hr hs hm, if_pos (show (fresh s).pair.role = .active from hrole)] at he
  have ht := toStandby_turns (fresh s)
  have hl := lchLeave_contained (toStandby (fresh s))
  have hb := switchBooked_contained c (putPairBit 4 true (lchLeave (toStandby (fresh s))))
  have hon : ∀ num sub, sub < 256 → num < 0x2000 → on e num sub = on (switchBooked c (putPairBit 4 true (lchLeave (toStandby (fresh s))))) num sub :=
    fun num sub hsub hn => he.on_low hsub (by omega)
  have hpair : e.pair = switched { emptied s.dev.pair with role := .standby } := by
    rw [he.part .pair, switchBooked_pair, putPairBit_pair, (hl.framed.1 .pair (by simp) : _ = _), ht.pair]
    rfl
  refine ⟨by rw [hpair]; rfl, ?_, he.raised _ _ _ (raised_raise _ _ _ _), ?_, ?_, by rw [hpair]; rfl, by rw [hpair]; rfl, ?_⟩
  · rw [hon _ _ (by decide) (by decide), hb.framed.on_eq (by decide) (by decide) (by decide), on_putPairBit (by decide),
      hl.framed.on_eq (by decide) (by decide) (by decide), ht.role]
  · rw [hon _ _ (by decide) (by decide), on_switchBooked_count, on_putPairBit (by decide), hl.framed.on_eq (by decide) (by decide) (by decide),
      ht.low _ _ (by decide) (by decide) (by decide) (by decide), on_fresh]
  · rw [pairBit_congr (hon _ _ (by decide) (by decide)), pairBit_switchBooked _ _ (by decide), pairBit_putPairBit, if_pos rfl]
  · rw [hon _ _ (by decide) (by decide), hb.framed.on_eq (by decide) (by decide) (by decide), on_putPairBit (by decide),
      hl.framed.on_eq (by decide) (by decide) (by decide), ht.low _ _ (by decide) (by decide) (by decide) (by decide), on_fresh]

theorem switchover_takes_over (hm : h ≤ s.dev.time.micro) (hrole : s.dev.pair.role = .standby) : Completes .switchover s (fun e =>
    e.pair.role = .active ∧ on e 0x401 0 = 1 ∧ raised e 0x2002 noInst = true ∧ on e 0x407 2 = incSat 32 (on s.dev 0x407 2) ∧
      pairBit e 4 = true ∧ e.pair.switchAt = none ∧ on e 0x402 0 = satU 32 (on s.dev 0x406 3 + 1) ∧
      on e 0x408 1 = s.dev.time.micro ∧ on e 0x408 3 = c) := by
  refine act_completes (f := switchover) rfl (fun e he => ?_)
  rw [switchover_acts hr hs hm, if_neg (by rw [show (fresh s).pair.role = .standby from hrole]; decide),
    if_pos (show (fresh s).pair.role = .standby from hrole)] at he
  have ht := toActive_turns (f := putEpoch (on (fresh s) 0x406 3 + 1)) (fresh s) rfl
  have ha := assume_assumed (toActive (putEpoch (on (fresh s) 0x406 3 + 1)) (fresh s))
  generalize toActive (putEpoch (on (fresh s) 0x406 3 + 1)) (fresh s) = x at he ht ha
  have hk := lastTakeover_contained 0 c (pairBit (fresh s) 1) (assume x)
  have hb := switchBooked_contained c (putPairBit 4 true (lastTakeover 0 c (pairBit (fresh s) 1) (assume x)))
  have hlow : ∀ num sub, sub < 256 → num < 0x2000 → on (assume x) num sub = on x num sub := fun num sub hsub hn =>
    ha.reach.on_eq hsub (counted_of_lt _ (by omega)) (by unfold legalNums; omega)
  have hon : ∀ num sub, sub < 256 → num < 0x2000 →
      on e num sub = on (switchBooked c (putPairBit 4 true (lastTakeover 0 c (pairBit (fresh s) 1) (assume x)))) num sub :=
    fun num sub hsub hn => he.on_low hsub (by omega)
  have hpair : e.pair = switched (takenOver { s.dev.pair with role := .active }) := by
    rw [he.part .pair, switchBooked_pair, putPairBit_pair, (hk.framed.1 .pair (by simp) : _ = _), ha.pair, ht.pair]
    rfl
  refine ⟨by rw [hpair]; rfl, ?_, he.raised _ _ _ (raised_raise _ _ _ _), ?_, ?_, by rw [hpair]; rfl, ?_, ?_, ?_⟩
  · rw [hon _ _ (by decide) (by decide), hb.framed.on_eq (by decide) (by decide) (by decide), on_putPairBit (by decide),
      hk.framed.on_eq (by decide) (by decide) (by decide), hlow _ _ (by decide) (by decide), ht.role]
  · rw [hon _ _ (by decide) (by decide), on_switchBooked_count, on_putPairBit (by decide), hk.framed.on_eq (by decide) (by decide) (by decide),
      hlow _ _ (by decide) (by decide), ht.frame.framed.on_eq (by decide) (by decide) (by decide), on_fresh]
  · rw [pairBit_congr (hon _ _ (by decide) (by decide)), pairBit_switchBooked _ _ (by decide), pairBit_putPairBit, if_pos rfl]
  · rw [hon _ _ (by decide) (by decide), hb.framed.on_eq (by decide) (by decide) (by decide), on_putPairBit (by decide),
      hk.framed.on_eq (by decide) (by decide) (by decide), hlow _ _ (by decide) (by decide), ht.epoch]
    rfl
  · have htime : (assume x).time = { s.dev.time with lockCount := 0 } := (ha.reach.parts .time (by simp)).trans ht.time
    rw [hon _ _ (by decide) (by decide), hb.framed.on_eq (by decide) (by decide) (by decide), on_putPairBit (by decide), on_lastTakeover_micro, htime]
  · rw [hon _ _ (by decide) (by decide), hb.framed.on_eq (by decide) (by decide) (by decide), on_putPairBit (by decide), on_lastTakeover_cause]

end

/-- A return that waits asks for a switchover once the partner has been READY for long enough (R473). -/
theorem returnHoldoff_asks {s : State} (hr : running s.dev = true) (hb : pairBit s.dev 11 = true) (hw : s.dev.pair.wasReady = true)
    (ho : switchOk s.dev = true) : Completes .returnHoldoff s (fun e =>
      (∃ q, e.pair.queue = s.dev.pair.queue ++ [q] ∧ q.pend.num = 0x405 ∧ q.pend.val = .num (switchVal (switchH s.dev) 4)) ∧
        Framed [.pair] [] s.dev e) := by
  have hx : returnHoldoff (fresh s) = requestSwitch 4 1 .none (fresh s) := by
    have hreq : requestSwitchIf 4 (fresh s) = requestSwitch 4 1 .none (fresh s) := if_pos ho
    rw [← hreq]
    exact if_pos (by rw [show running (fresh s) = true from hr, show pairBit (fresh s) 11 = true from hb,
      show (fresh s).pair.wasReady = true from hw]; rfl)
  refine act_completes (f := returnHoldoff) rfl (fun e he => ?_)
  rw [hx] at he
  exact ⟨⟨_, congrArg PairS.queue (he.part .pair), rfl, rfl⟩, .of_fresh ((Framed.pair (by simp) (.refl _ _ _) _).follow he)⟩

/-- Settles O49: the takeover, the switchover on both sides, and the request of a return. -/
theorem pairTakesOver : Obligations.PairTakesOver := fun _ hr =>
  ⟨fun hrole hs hi => pairTakeover_takes_over hr hrole hs hi, fun _ hs => pairTakeover_waits hs,
    fun _ _ hs => ⟨fun hm => switchover_waits hs hm, fun hm hrole => switchover_hands_over hr hs hm hrole,
      fun hm hrole => switchover_takes_over hr hs hm hrole⟩, fun hb hw ho => returnHoldoff_asks hr hb hw ho⟩

end Sys2Proof

/-! Keys and updates (R489, R517, R518, R520, R524, R525). -/

namespace Sys2Proof

open Machine

/-! ### The checks of a package look at no frame of the row -/

section

variable (d : Dev) (im : Image)

/-- The device before its row has sent anything. -/
def unsent (d : Dev) : Dev := { d with sent := [] }

theorem objTypePlane_unsent (num sub : Nat) : objTypePlane (unsent d) im num sub = objTypePlane d im num sub := by
  have h : ob (unsent d) 0x3014 0 = ob d 0x3014 0 := rfl
  unfold objTypePlane
  rw [h]

theorem bindOk_unsent (sl : SlotR) (out : Bool) : bindOk (unsent d) im sl out = bindOk d im sl out := by
  funext b
  unfold bindOk
  rw [objTypePlane_unsent]

theorem slotBindsOk_unsent (sl : SlotR) : slotBindsOk (unsent d) im sl = slotBindsOk d im sl := by
  unfold slotBindsOk
  rw [bindOk_unsent, bindOk_unsent]

theorem tableOk_unsent : tableOk (unsent d) im = tableOk d im := by
  unfold tableOk
  simp only [bindOk_unsent]

theorem badBinding_unsent (l seen : List SlotR) : badBinding (unsent d) im l seen = badBinding d im l seen := by
  induction l generalizing seen with
  | nil => rw [badBinding, badBinding, tableOk_unsent]
  | cons sl l ih => rw [badBinding, badBinding, slotBindsOk_unsent, ih]

theorem checkImage_unsent (b : Bytes) : checkImage (unsent d) b = checkImage d b := by
  have hsig : signatureOk (unsent d) b = signatureOk d b := rfl
  have hlc : lcState (unsent d) = lcState d := rfl
  have hon : ∀ num sub, on (unsent d) num sub = on d num sub := fun _ _ => rfl
  unfold checkImage
  dsimp only
  rw [hsig, hlc, hon, badBinding_unsent]

theorem packageCheck_unsent (ok : Bool) : packageCheck (unsent d) ok = packageCheck d ok := by
  have hblock : ∀ u b, blockOk (unsent d) u b = blockOk d u b := fun _ _ => rfl
  have hcomp : compSigned (unsent d) = compSigned d := rfl
  have hsig : ∀ b cs, packageSigned (unsent d) b cs = packageSigned d b cs := fun b cs => by rw [packageSigned, packageSigned, hblock, hcomp]
  have hpre : precheck (unsent d) = precheck d := by
    funext b
    unfold precheck
    have h : (fun i => (checkImage (put 0x1A3 0 (bundleLib b) (unsent d)) i).1) = fun i => (checkImage (put 0x1A3 0 (bundleLib b) d) i).1 :=
      funext fun i => congrArg Prod.fst (checkImage_unsent (put 0x1A3 0 (bundleLib b) d) i)
    rw [h]
  have hup : (unsent d).update = d.update := rfl
  have hon : ∀ num sub, on (unsent d) num sub = on d num sub := fun _ _ => rfl
  unfold packageCheck
  simp only [hsig, hpre, hup, hon]

end

/-! ### Masks -/

section

variable {d : Dev}

/-- The masks after those of the keys named are drawn anew. -/
structure Remasked (ns : List Nat) (d e : Dev) : Prop where
  keys : e.keys = { d.keys with masks := e.keys.masks }
  draws : e.draws = d.draws + ns.length
  drawn : ∀ n ∈ ns, ∃ j, d.draws ≤ j ∧ j < e.draws ∧ alGet e.keys.masks n = some (Config.random j 32)
  kept : ∀ n, n ∉ ns → alGet e.keys.masks n = alGet d.keys.masks n
  frame : Framed [.keys, .draws] [] d e

theorem remask_draws (n : Nat) (d : Dev) : Remasked [n] d (remask n d) where
  keys := rfl
  draws := rfl
  drawn m hm := ⟨d.draws, Nat.le_refl _, Nat.lt_succ_self _, by rw [List.mem_singleton.1 hm]; exact alGet_alSet_same _ _ _⟩
  kept m hm := alGet_alSet_other _ _ (fun h => hm (List.mem_singleton.2 h.symm))
  frame := .keys (by simp) (.draws (by simp) (.refl _ _ d) _) _

/-- The masks of keys are drawn one after the other. -/
theorem remask_all (ns : List Nat) (d : Dev) : Remasked ns d (forEach ns remask d) := by
  induction ns generalizing d with
  | nil => exact ⟨rfl, rfl, fun _ h => absurd h List.not_mem_nil, fun _ _ => rfl, .refl _ _ d⟩
  | cons n ns ih =>
    have h1 := remask_draws n d
    have h2 := ih (remask n d)
    refine ⟨h2.keys.trans (by rw [h1.keys]; rfl), ?_, fun m hm => ?_, fun m hm => ?_, h1.frame.trans h2.frame⟩
    · rw [show forEach (n :: ns) remask d = forEach ns remask (remask n d) from rfl, h2.draws, h1.draws]
      simp only [List.length_cons, List.length_nil]
      omega
    · by_cases hin : m ∈ ns
      · obtain ⟨j, hlo, hhi, hj⟩ := h2.drawn m hin
        exact ⟨j, by rw [h1.draws] at hlo; omega, hhi, hj⟩
      · obtain rfl : m = n := (List.mem_cons.1 hm).resolve_right hin
        obtain ⟨j, hlo, hhi, hj⟩ := h1.drawn m List.mem_cons_self
        exact ⟨j, hlo, Nat.lt_of_lt_of_le hhi (by rw [show forEach (m :: ns) remask d = forEach ns remask (remask m d) from rfl, h2.draws]; omega),
          (h2.kept m hin).trans hj⟩
    · exact (h2.kept m (fun h => hm (List.mem_cons_of_mem _ h))).trans (h1.kept m (fun h => hm (List.mem_cons.2 (.inl (List.mem_singleton.1 h)))))

end

section

variable {s : State} (hr : running s.dev = true)

include hr

theorem keyRemask_draws : Completes .keyRemask s (fun e =>
    e.keys = { s.dev.keys with masks := e.keys.masks } ∧ e.draws = s.dev.draws + s.dev.keys.inst.length ∧
      (∀ p ∈ s.dev.keys.inst, ∃ j, s.dev.draws ≤ j ∧ j < e.draws ∧ alGet e.keys.masks p.1 = some (Config.random j 32)) ∧
      Framed [.keys, .draws] [] s.dev e) := by
  have hx : keyRemask (fresh s) = forEach (s.dev.keys.inst.map (·.1)) remask (fresh s) := if_pos hr
  have h := remask_all (s.dev.keys.inst.map (·.1)) (fresh s)
  refine act_completes (f := keyRemask) rfl (fun e he => ?_)
  rw [hx] at he
  have hkeys : e.keys = _ := he.part .keys
  have hdraws : e.draws = _ := he.part .draws
  refine ⟨by rw [hkeys]; exact h.keys, by rw [hdraws, h.draws, List.length_map]; rfl, fun p hp => ?_, .of_fresh (h.frame.follow he)⟩
  rw [hkeys, hdraws]
  exact h.drawn p.1 (List.mem_map_of_mem hp)

/-! ### The checks of a package -/

omit hr in
theorem packageCheck_fresh (ok : Bool) : packageCheck (fresh s) ok = packageCheck s.dev ok := packageCheck_unsent s.dev ok

end

/-- The objects of the result of the checks. -/
def packageObjs : List (Nat × Nat) := [(0x700, 0), (0x704, 1), (0x704, 2), (0x704, 3), (0x704, 4), (0x704, 5), (0x1A6, 0), (0x1A7, 0)]

section

variable {d : Dev} {ok : Bool}

theorem putStagedResult_framed (r : Option CheckRes) (d : Dev) : Framed [] [(0x1A6, 0), (0x1A7, 0)] d (putStagedResult r d) := by
  unfold putStagedResult
  split
  · exact .put (by decide) (by simp) (.put (by decide) (by simp) (.refl _ _ d))
  · exact .refl _ _ d

theorem putStaged_framed (st reason svn len kinds : Nat) (d : Dev) : Framed [] packageObjs d (putStaged st reason svn len kinds d) :=
  .put (by decide) (by simp [packageObjs]) (.put (by decide) (by simp [packageObjs]) (.put (by decide) (by simp [packageObjs])
    (.put (by decide) (by simp [packageObjs]) (.put (by decide) (by simp [packageObjs]) (.refl _ _ d)))))

theorem on_putStaged_state (st reason svn len kinds : Nat) (d : Dev) : on (putStaged st reason svn len kinds d) 0x704 1 = st := by
  rw [putStaged, on_put_other _ _ _ _ _ _ (by decide), on_put_other _ _ _ _ _ _ (by decide), on_put_other _ _ _ _ _ _ (by decide),
    on_put_other _ _ _ _ _ _ (by decide), on_put_same]

theorem on_putStaged_reason (st reason svn len kinds : Nat) (d : Dev) : on (putStaged st reason svn len kinds d) 0x704 2 = reason := by
  rw [putStaged, on_put_other _ _ _ _ _ _ (by decide), on_put_other _ _ _ _ _ _ (by decide), on_put_other _ _ _ _ _ _ (by decide), on_put_same]

theorem on_putStaged_status (st reason svn len kinds : Nat) (d : Dev) : on (putStaged st reason svn len kinds d) 0x700 0 = on d 0x700 0 := by
  rw [putStaged, on_put_other _ _ _ _ _ _ (by decide), on_put_other _ _ _ _ _ _ (by decide), on_put_other _ _ _ _ _ _ (by decide),
    on_put_other _ _ _ _ _ _ (by decide), on_put_other _ _ _ _ _ _ (by decide)]

/-- A package whose checks pass: its bundle waits for STAGE. -/
def packagePasses (r : Option CheckRes) (b : Bundle) (kinds : Nat) (d : Dev) : Dev :=
  putStaged 2 0 b.svn d.update.size kinds (modUpd (fun u => { u with built := some b }) (putStagedResult r d))

/-- A package whose checks fail, with the reason. -/
def packageFails (r : Option CheckRes) (reason : Nat) (d : Dev) : Dev :=
  raise 0x8A01 noInst reason (setStatus 0x700 0 5 (putStaged 4 reason 0 0 0 (putStagedResult r d)))

theorem putStagedResult_update (r : Option CheckRes) (d : Dev) : (putStagedResult r d).update = d.update := by
  unfold putStagedResult
  split <;> rfl

theorem packageVerified_passes {b : Bundle} {kinds : Nat} (hr : running d = true) (hst : on d 0x704 1 = 2) (hb : d.update.built = none)
    (hc : (packageCheck d ok).2.2 = some (b, kinds)) : packageVerified ok d = packagePasses (packageCheck d ok).2.1 b kinds d := by
  unfold packageVerified
  rw [if_neg (by rw [hr, hst, hb]; decide)]
  simp only [hc, putStagedResult_update]
  rfl

theorem packageVerified_fails (hr : running d = true) (hst : on d 0x704 1 = 2) (hb : d.update.built = none)
    (hc : (packageCheck d ok).2.2 = none) : packageVerified ok d = packageFails (packageCheck d ok).2.1 (packageCheck d ok).1 d := by
  unfold packageVerified
  rw [if_neg (by rw [hr, hst, hb]; decide)]
  simp only [hc]
  rfl

end

section

variable {s : State} {ok : Bool} (hr : running s.dev = true) (hst : on s.dev 0x704 1 = 2) (hb : s.dev.update.built = none)

include hr hst hb

theorem packageVerified_builds {b : Bundle} {kinds : Nat} (hc : (packageCheck s.dev ok).2.2 = some (b, kinds)) :
    Completes (.packageVerified ok) s (fun e =>
      e.update = { s.dev.update with built := some b } ∧ on e 0x704 1 = 2 ∧ Framed [.update] packageObjs s.dev e) := by
  have hx := packageVerified_passes (d := fresh s) (ok := ok) hr hst hb (by rw [packageCheck_fresh]; exact hc)
  refine act_completes (f := ifRun (packageVerified ok)) rfl (fun e he => ?_)
  rw [ifRun, if_pos (show running (fresh s) = true from hr), hx] at he
  refine ⟨(he.part .update).trans ?_, ?_, .of_fresh (.follow ?_ he)⟩
  · exact congrArg (fun u => { u with built := some b }) (putStagedResult_update _ _)
  · rw [he.on_low (by decide) (by decide), packagePasses, on_putStaged_state]
  · exact (Framed.update (by simp) ((putStagedResult_framed _ _).mono (by simp) (by simp [packageObjs])) _).trans
      ((putStaged_framed _ _ _ _ _ _).mono (by simp) (fun _ h => h))

theorem packageVerified_refuses (hc : (packageCheck s.dev ok).2.2 = none) : Completes (.packageVerified ok) s (fun e =>
    raised e 0x8A01 noInst = true ∧ on e 0x704 1 = 4 ∧ on e 0x704 2 = (packageCheck s.dev ok).1 ∧
      on e 0x700 0 = setBit (on s.dev 0x700 0) 5 ∧ Framed [] packageObjs s.dev e) := by
  have hx := packageVerified_fails (d := fresh s) (ok := ok) hr hst hb (by rw [packageCheck_fresh]; exact hc)
  rw [packageCheck_fresh] at hx
  refine act_completes (f := ifRun (packageVerified ok)) rfl (fun e he => ?_)
  rw [ifRun, if_pos (show running (fresh s) = true from hr), hx] at he
  have hres := putStagedResult_framed (packageCheck s.dev ok).2.1 (fresh s)
  refine ⟨he.raised _ _ _ (raised_raise _ _ _ _), ?_, ?_, ?_, .of_fresh (.follow ?_ he)⟩
  · rw [he.on_low (by decide) (by decide), packageFails, on_raise, on_setStatus_other _ _ _ _ _ _ (by decide), on_putStaged_state]
  · rw [he.on_low (by decide) (by decide), packageFails, on_raise, on_setStatus_other _ _ _ _ _ _ (by decide), on_putStaged_reason]
  · rw [he.on_low (by decide) (by decide), packageFails, on_raise, on_setStatus_same, on_putStaged_status,
      hres.on_eq (by decide) (by decide) (by decide), on_fresh]
  · exact .raise (.put (by decide) (by simp [packageObjs])
      ((hres.mono (by simp) (by simp [packageObjs])).trans (putStaged_framed _ _ _ _ _ _)))

/-- Another digest than the one announced: reason 1 (R517). -/
theorem packageVerified_digest (hd : sha256 (packageOf s.dev.update) ≠ s.dev.update.digest) : Completes (.packageVerified ok) s (fun e =>
    raised e 0x8A01 noInst = true ∧ on e 0x704 1 = 4 ∧ on e 0x704 2 = 1) := by
  have hc : packageCheck s.dev ok = (1, none, none) := if_pos hd
  refine (packageVerified_refuses hr hst hb (ok := ok) (by rw [hc])).mono (fun e h => ?_)
  rw [hc] at h
  exact ⟨h.1, h.2.1, h.2.2.1⟩

end

/-- The bundle that was built stands in STAGE. -/
def intoStage (b : Bundle) (u : UpdS) : UpdS := { u with stage := some b, built := none }

/-- The regions are shown, with STAGED_OK where the bundle has a schedule image (R63). -/
def regionsShown (b : Bundle) (d : Dev) : Dev := if (bundleImage b).isSome then setStatus 0x1A0 0 4 (publishRegions d) else publishRegions d

theorem regionsShown_framed (b : Bundle) (d : Dev) : Framed [] [(0x70A, 1), (0x70A, 2), (0x70A, 3), (0x1A0, 0)] d (regionsShown b d) := by
  have h : Framed [] [(0x70A, 1), (0x70A, 2), (0x70A, 3), (0x1A0, 0)] d (publishRegions d) :=
    .put (by decide) (by simp) (.put (by decide) (by simp) (.put (by decide) (by simp) (.refl _ _ d)))
  exact .ite (.put (by decide) (by simp) h) h

section

variable {s : State} (hr : running s.dev = true)

include hr

/-! ### STAGE and the quiet handover -/

theorem updStaged_stages {b : Bundle} (hb : s.dev.update.built = some b) : Completes .updStaged s (fun e =>
    e.update = { s.dev.update with stage := some b, built := none } ∧ on e 0x704 1 = 3 ∧
      on e 0x700 0 = setBit (on s.dev 0x700 0) 1 ∧ raised e 0x8801 noInst = true ∧
      OnlyParts [.update] s.dev e ∧ e.os.pend = s.dev.os.pend) := by
  have hmod := regionsShown_framed b (modUpd (intoStage b) (fresh s))
  have hx : updStaged (fresh s) = raise 0x8801 noInst b.svn (put 0x704 1 3 (setStatus 0x700 0 1
      (regionsShown b (modUpd (intoStage b) (fresh s))))) := by
    unfold updStaged
    rw [show (fresh s).update.built = some b from hb]
    exact if_neg (by rw [show running (fresh s) = true from hr]; decide)
  refine act_completes (f := ifRun updStaged) rfl (fun e he => ?_)
  rw [ifRun, if_pos (show running (fresh s) = true from hr), hx] at he
  generalize regionsShown b (modUpd (intoStage b) (fresh s)) = x at he hmod
  have hframe : Framed [.update] [(0x70A, 1), (0x70A, 2), (0x70A, 3), (0x1A0, 0), (0x700, 0), (0x704, 1)] s.dev e :=
    .of_fresh (((Framed.update (by simp) (.refl _ _ (fresh s)) _).trans (.raise (.put (by decide) (by simp) (.put (by decide) (by simp)
      (hmod.mono (by simp) (by simp)))))).follow he)
  refine ⟨(he.part .update).trans (hmod.1 .update (by simp)), ?_, ?_, he.raised _ _ _ (raised_raise _ _ _ _), hframe.1, hframe.2.2⟩
  · rw [he.on_low (by decide) (by decide), on_raise, on_put_same]
  · rw [he.on_low (by decide) (by decide), on_raise, on_put_other _ _ _ _ _ _ (by decide), on_setStatus_same,
      hmod.on_eq (by decide) (by decide) (by decide)]
    rfl

theorem quietHandover_stops (hq : s.dev.update.quietDue = true) (hrole : s.dev.pair.role = .active) : Completes .quietHandover s (fun e =>
    e.phase = .failSilent ∧ e.startup.nextCause = 2 ∧ .heartbeatLow ∈ e.sent ∧ e.update = { s.dev.update with quietDue := false } ∧
      Framed [.phase, .pair, .startup, .update] [] s.dev e) := by
  have hx : quietHandover (fresh s) = stopOutputs 2 (modUpd (fun u => { u with quietDue := false }) (fresh s)) :=
    if_pos (by rw [show running (fresh s) = true from hr, show (fresh s).update.quietDue = true from hq,
      show (fresh s).pair.role = .active from hrole]; rfl)
  refine act_completes (f := quietHandover) rfl (fun e he => ?_)
  rw [hx] at he
  refine ⟨he.part .phase, congrArg StartS.nextCause (he.part .startup), he.sent _ List.mem_cons_self,
    he.part .update, .of_fresh (.follow ?_ he)⟩
  exact (Framed.update (by simp) (.refl _ _ (fresh s)) _).trans ((stopOutputs_framed 2 _).mono (by simp) (by simp))

/-! ### The end of a trial -/

theorem updConfirmed_confirms (ht : inTrial s.dev = true) (hf : s.dev.update.fall = none)
    (hd : on s.dev 0x707 2 * 1000000000 ≤ s.dev.update.dwell) : Completes .updConfirmed s (fun e =>
      on e 0x709 0 = max (on s.dev 0x709 0) (regionSvn s.dev.update.run) ∧ on e 0x706 1 = 2 ∧ on e 0x706 2 = 0 ∧
        on e 0x700 0 = setBit (clearBit (on s.dev 0x700 0) 3) 7 ∧ raised e 0x8802 noInst = true ∧
        Framed [] [(0x700, 0), (0x706, 1), (0x706, 2), (0x709, 0)] s.dev e) := by
  have hx : ∃ n, updConfirmed (fresh s) = raise 0x8802 noInst n (put 0x706 2 0 (put 0x706 1 2 (setStatus 0x700 0 7 (clrStatus 0x700 0 3
      (put 0x709 0 (max (on s.dev 0x709 0) (regionSvn s.dev.update.run)) (fresh s)))))) :=
    ⟨_, if_pos (by rw [show running (fresh s) = true from hr, show inTrial (fresh s) = true from ht,
      show (fresh s).update.fall = none from hf, show decide (on (fresh s) 0x707 2 * 1000000000 ≤ (fresh s).update.dwell) = true from decide_eq_true hd]; rfl)⟩
  obtain ⟨n, hx⟩ := hx
  refine act_completes (f := updConfirmed) rfl (fun e he => ?_)
  rw [hx] at he
  refine ⟨?_, ?_, ?_, ?_, he.raised _ _ _ (raised_raise _ _ _ _), .of_fresh (.follow ?_ he)⟩
  · rw [he.on_low (by decide) (by decide), on_raise, on_put_other _ _ _ _ _ _ (by decide), on_put_other _ _ _ _ _ _ (by decide),
      on_setStatus_other _ _ _ _ _ _ (by decide), on_clrStatus_other _ _ _ _ _ _ (by decide), on_put_same]
  · rw [he.on_low (by decide) (by decide), on_raise, on_put_other _ _ _ _ _ _ (by decide), on_put_same]
  · rw [he.on_low (by decide) (by decide), on_raise, on_put_same]
  · rw [he.on_low (by decide) (by decide), on_raise, on_put_other _ _ _ _ _ _ (by decide), on_put_other _ _ _ _ _ _ (by decide),
      on_setStatus_same, on_clrStatus_same, on_put_other _ _ _ _ _ _ (by decide), on_fresh]
  · exact .raise (.put (by decide) (by simp) (.put (by decide) (by simp) (.put (by decide) (by simp) (.put (by decide) (by simp)
      (.put (by decide) (by simp) (.refl _ _ _))))))

theorem trialTimeout_fails (ht : inTrial s.dev = true) (hf : s.dev.update.fall = none)
    (hd : on s.dev 0x707 1 * 60000000000 ≤ s.dev.startup.t) (hrole : s.dev.pair.role = .standby) : Completes .trialTimeout s (fun e =>
      e.update = { s.dev.update with fall := some 1 } ∧ e.startup = { s.dev.startup with restartDue := true } ∧
        on e 0x700 0 = setBit (on s.dev 0x700 0) 2 ∧ Framed [.update, .startup] [(0x700, 0)] s.dev e) := by
  have hleft : trialLeft (fresh s) = 0 := Nat.sub_eq_zero_of_le hd
  have hcheck : restartCheck (fresh s) false = 0 := by rw [restartCheck, show (fresh s).pair.role = .standby from hrole]
  have hfail : trialFail 1 (fresh s) = { setStatus 0x700 0 2 (modUpd (fun u => { u with fall := some 1 }) (fresh s)) with
      startup := { s.dev.startup with restartDue := true } } :=
    if_neg (by rw [show (setStatus 0x700 0 2 (modUpd (fun u => { u with fall := some 1 }) (fresh s))).pair.role = .standby from hrole]; decide)
  have hx : trialTimeout (fresh s) = trialFail 1 (fresh s) :=
    if_pos (by rw [show running (fresh s) = true from hr, show inTrial (fresh s) = true from ht, hleft,
      show (fresh s).update.fall = none from hf, hcheck]; rfl)
  refine act_completes (f := trialTimeout) rfl (fun e he => ?_)
  rw [hx, hfail] at he
  refine ⟨he.part .update, he.part .startup, ?_, .of_fresh (.follow ?_ he)⟩
  · rw [he.on_low (by decide) (by decide)]
    exact on_setStatus_same _ _ _ _
  · exact .startup (by simp) (.put (by decide) (by simp) (.update (by simp) (.refl _ _ _) _)) _

omit hr in
theorem trialTimeout_waits (hd : s.dev.startup.t < on s.dev 0x707 1 * 60000000000) : Completes .trialTimeout s (Framed [] [] s.dev) := by
  have hleft : (trialLeft (fresh s) == 0) = false := beq_false_of_ne (Nat.sub_ne_zero_of_lt hd)
  have hx : trialTimeout (fresh s) = fresh s := if_neg (by rw [hleft]; simp)
  refine act_completes (f := trialTimeout) rfl (fun e he => ?_)
  rw [hx] at he
  exact .of_fresh ((Framed.refl _ _ _).follow he)

end

/-- Settles O50: masks, the three ends of the checks of a package, STAGE, the quiet handover, and the ends of a trial. -/
theorem keysAndUpdates : Obligations.KeysAndUpdates := fun _ hr =>
  ⟨keyRemask_draws hr,
    fun _ hst hb => ⟨fun _ _ hc => packageVerified_builds hr hst hb hc, fun hc => packageVerified_refuses hr hst hb hc,
      fun hd => packageVerified_digest hr hst hb hd⟩,
    fun _ hb => updStaged_stages hr hb, fun hq hrole => quietHandover_stops hr hq hrole,
    fun ht hf hd => updConfirmed_confirms hr ht hf hd, fun ht hf hd hrole => trialTimeout_fails hr ht hf hd hrole,
    fun _ _ hd => trialTimeout_waits hd⟩

end Sys2Proof

/-! Counterexamples to O45 and O46.

A descriptor that is posted on an idle ring need not be alone there: rings that have room again take what a producer holds back (R422), and
entries that are posted again wait in their ring behind the descriptor. The statement wants the ring to hold the one descriptor.

What the engine has moved is delivered by the row that moves it, and by every later row of the engine where it still waits to be. The
statement names the rings, and not what has been moved. -/

namespace Sys2Proof

open Machine

namespace EntryBehind

/-- A running unit with its store online, rings 5 and 6 of 16 places, and an entry of either partition held back. -/
def start : State :=
  { State.reset with dev := put 0x3300 0 1 (put 0x3205 1 16 (put 0x3206 1 16
      { State.reset.dev with phase := .running, flash := { State.reset.dev.flash with held := [(2, 0x10, []), (3, 0x10, [])] } })) }

/-- A NULL descriptor. -/
def posted : Desc := { op := 0, flags := 0, len := 0, src := 0, dst := 0, p0 := 0, p1 := 0, tag := 0, rsv := 0, bad := false }

/-- The device and its memory after the post. -/
def after : Dev × Mem := onPartMem true (moving (dmaPost 5 (descOf 0 posted))) (fresh start) start.mem

theorem exec_post : exec (.nullDesc 5 posted) start = .next { start with dev := settle after.1, mem := after.2 } := rfl

theorem two_wait : (ring (settle after.1) 5).q.length = 2 := by decide +kernel

end EntryBehind

namespace MovedPiece

/-- A running unit whose store is offline, with a piece of a package moved and not yet delivered. -/
def start : State :=
  { State.reset with dev := put 0x3300 0 3 { State.reset.dev with phase := .running, moved := [.piece 0 []] } }

/-- The device and its memory after the remount. -/
def after : Dev × Mem := resumed (ifRun (emmcReinit true)) (fresh start) start.mem

theorem exec_reinit : exec (.emmcReinit true) start = .next { start with dev := settle after.1, mem := after.2 } := rfl

theorem delivered_piece : start.dev.update.got = [] ∧ (settle after.1).update.got = [(0, [])] := by decide +kernel

end MovedPiece

/-- Refutes O45: an entry that is posted again waits behind the descriptor (`EntryBehind.two_wait`). -/
theorem not_dmaDescriptors : ¬ Obligations.DmaDescriptors := by
  intro h
  obtain ⟨hpost, _⟩ := h
  obtain ⟨hnull, _⟩ := hpost EntryBehind.start 5 EntryBehind.posted (by decide) (by decide) (by decide +kernel) (by decide) (by decide +kernel)
    (by decide) (by decide) (by decide) (by decide) (by decide)
  obtain ⟨⟨hone, _⟩, _⟩ := (hnull rfl rfl).of_exec_mem EntryBehind.exec_post
  exact absurd (EntryBehind.two_wait.symm.trans hone) (by decide)

/-- Refutes O46: the remount delivers a piece that has been moved (`MovedPiece.delivered_piece`). -/
theorem not_recordStore : ¬ Obligations.RecordStore := by
  intro h
  obtain ⟨_, _, _, _, hreinit, _⟩ := h MovedPiece.start (by decide)
  obtain ⟨_, _, hparts⟩ := (hreinit (by decide +kernel)).of_exec_mem MovedPiece.exec_reinit
  have hnone : ∀ r, ∀ x ∈ (ring MovedPiece.start.dev r).q, x.own = none := by
    have hall : ∀ y ∈ MovedPiece.start.dev.dma, y.q = [] := by decide +kernel
    intro r x hx
    rw [ring, List.getD_eq_getElem?_getD] at hx
    cases hr : MovedPiece.start.dev.dma[r]? with
    | none => rw [hr] at hx; exact absurd hx List.not_mem_nil
    | some y => rw [hr, Option.getD_some, hall y (List.mem_of_getElem? hr)] at hx; exact absurd hx List.not_mem_nil
  obtain ⟨honly, _⟩ := hparts hnone
  have hsame : (settle MovedPiece.after.1).update = MovedPiece.start.dev.update := honly .update (by decide)
  obtain ⟨hbefore, hafter⟩ := MovedPiece.delivered_piece
  rw [hsame, hbefore] at hafter
  cases hafter

end Sys2Proof

/-! A counterexample to O56.

A datagram comes through ring 11, which moves that ring's books (R428). A READ of one of them that comes in the datagram shows what it reads
behind the move; the statement wants the value of before. -/

namespace Sys2Proof

open Machine

namespace ReadsItsOwnRing

/-- The client: a UDP source. -/
def client : Client := ⟨4, 0⟩

/-- Its session. -/
def session : MSes := { client := client, role := 3, key := [], num := 0 }

/-- The global address of the unit. -/
def address : Bytes := List.replicate 16 1

/-- A running unit with rings 11 and 12 of 16 places, a global address and one session. -/
def start : State :=
  { State.reset with dev := putb 0x3017 1 address (put 0x320B 1 16 (put 0x320C 1 16
      { State.reset.dev with phase := .running, malpen := { State.reset.dev.malpen with ses := [session] } })) }

/-- READ of the count of the descriptors of ring 11 that are done. -/
def request : Bytes := [1, 0, 0x0B, 0x32, 0, 4, 0, 0]

def reading : PduIn := { c := client, tag := 0, obj := 0x320B, sub := 4, data := [] }

/-- The MAC of the request with counter 0. -/
def mac : Bytes := (hmac256 session.key (natLe 2 0 ++ natLe 4 0 ++ request)).take 8

/-- The device after the datagram, which ring 11 moves at once. -/
def after : Dev := settle (ringPass 11 [.datagram 0 0 0 request mac none] (udpTaken monWriteDone 0 0 0 request mac none) id (fresh start))

theorem start_runs : running start.dev = true ∧ on start.dev 0x3017 3 = 48310 ∧ padTo 16 (ob start.dev 0x3017 1) = address ∧
    address.all (· == 0) = false := by decide +kernel

/-- The datagram names the unit's global address. -/
theorem own_address : ownUdp start.dev address 48310 = true := by
  obtain ⟨_, hport, haddr, hset⟩ := start_runs
  have hmem : address ∈ ownAddrs start.dev := by
    simp only [ownAddrs, haddr, hset, Bool.false_eq_true, if_false]
    exact List.mem_append_right _ List.mem_cons_self
  rw [ownUdp, hport, List.contains_iff_mem.mpr hmem]
  rfl

theorem exec_udpDatagram (s : State) (src : Nat) (dst : Bytes) (port ses counter : Nat) (pdu mac : Bytes) :
    exec (.udpDatagram src dst port ses counter pdu { mac := mac }) s =
      .next { s with dev := settle (udpDatagram monWriteDone src dst port ses counter pdu mac none (fresh s)) } := rfl

theorem exec_datagram : exec (.udpDatagram 0 address 48310 0 0 request { mac := mac }) start = .next { start with dev := after } := by
  have hrun : running (fresh start) = true := start_runs.1
  have hown : ownUdp (fresh start) address 48310 = true := own_address
  have hpass : udpDatagram monWriteDone 0 address 48310 0 0 request mac none (fresh start) =
      ringPass 11 [.datagram 0 0 0 request mac none] (udpTaken monWriteDone 0 0 0 request mac none) id (fresh start) := by
    rw [udpDatagram, hrun, hown]
    exact if_neg (by decide)
  rw [exec_udpDatagram, hpass, after]

theorem reading_of_request : pduOf client request none = some (1, reading) := by decide +kernel

/-- The answer that the count of before would give, without its MAC. -/
def stale : Bytes := pduBytes 2 0 0x320B 4 (readVal 3 0x320B 4 start.dev).1

/-- What goes out is no such answer. -/
theorem sent_not_stale : after.sent.all (fun x => match x with | .udp _ b => !(stale.isPrefixOf b) | _ => true) = true := by decide +kernel

theorem start_admits : objCode start.dev 0x320B 4 = 0 ∧ isDomain start.dev 0x320B 4 = false ∧ readCheck start.dev 3 0x320B 4 = 0 ∧
    (readVal 3 0x320B 4 start.dev).1.length ≤ 1216 := by decide +kernel

theorem start_serves : ringSize start.dev 11 ≠ 0 ∧ ringIdle start.dev 11 = true ∧ ringSize start.dev 12 ≠ 0 ∧
    ringIdle start.dev 12 = true ∧ sesOf? start.dev client = some session ∧ xferOf? start.dev client 0 = none ∧
    tagWaits start.dev client 0 = false ∧ xfersOf start.dev client < 4 ∧ xfersAll start.dev < 64 := by decide +kernel

end ReadsItsOwnRing

section
open ReadsItsOwnRing

/-- Refutes O56: the READ of ring 11's count in a datagram shows the datagram's own descriptor (`ReadsItsOwnRing.sent_not_stale`). -/
theorem not_sessionsOfClients : ¬ Obligations.SessionsOfClients := by
  intro h
  obtain ⟨_, _, _, hudp, _⟩ := h start reading
  obtain ⟨hs11, hi11, hs12, hi12, hses, hx, htag, hc, hall⟩ := start_serves
  obtain ⟨hcode, hdom, hread, hlen⟩ := start_admits
  obtain ⟨_, hsound⟩ := hudp 0 address 48310 0 0 request mac start_runs.1 own_address hs11 hi11 hs12 hi12
  obtain ⟨_, ⟨t, ht⟩, _⟩ := (hsound session reading hses ⟨rfl, fun _ hr => (nomatch hr), by decide, rfl⟩ reading_of_request (by decide) rfl hx
    htag hc hall hcode hdom hread (by decide) hlen).of_exec exec_datagram
  have hno := List.all_eq_true.mp sent_not_stale _ ht
  have hyes : stale.isPrefixOf (stale ++ t) = true := List.isPrefixOf_iff_prefix.mpr (List.prefix_append _ _)
  exact absurd (hno.symm.trans (congrArg (!·) hyes)) (by decide)

end

end Sys2Proof

/-! The yard's layer, and its upkeep: messages that are queued, points and routes (R401, R411 to R413). -/

namespace Sys2Proof

open Machine

/-! ### Objects of the nodes -/

theorem counted_oYard (i off sub : Nat) : counted (oYard i off) sub = false := by
  have h1 : ¬ oYard i off ≤ 0x34FF := by unfold oYard; omega
  have h2 : ¬ oYard i off < 0x3210 := by omega
  simp [counted, ringBook, h1, h2]

theorem oYard_inj {i j a b : Nat} (ha : a < 32) (hb : b < 32) (h : oYard i a = oYard j b) : i = j ∧ a = b := by
  unfold oYard at h
  omega

theorem okey_oYard_ne {i j a b p q : Nat} (ha : a < 32) (hb : b < 32) (hp : p < 256) (hq : q < 256) (h : i ≠ j ∨ a ≠ b ∨ p ≠ q) :
    okey (oYard i a) p ≠ okey (oYard j b) q := fun heq => by
  obtain ⟨hn, rfl⟩ := okey_inj hp hq heq
  obtain ⟨rfl, rfl⟩ := oYard_inj ha hb hn
  simp at h

namespace Reaches

variable {ps : List Part} {K : Nat → Nat → Prop} {d e : Dev}

theorem modYard (hp : .yard ∈ ps) (h : Reaches ps K d e) (g : YardS → YardS) : Reaches ps K d (Machine.modYard g e) :=
  h.trans (.of_parts (Framed.yard (ks := []) hp (.refl _ _ e) _).1 rfl rfl)

theorem putb_low {num sub : Nat} {b : Bytes} (hs : sub < 256) (hk : K num sub) (h : Reaches ps K d e) :
    Reaches ps K d (Machine.putb num sub b e) :=
  h.trans (.of_contained (ks := [(num, sub)]) ⟨.putb hs List.mem_cons_self (.refl _ _ e), fun _ _ _ hr => hr⟩
    (fun k hm => by obtain rfl := List.mem_singleton.1 hm; exact hk))

theorem incr_low {w num sub : Nat} (hs : sub < 256) (hk : K num sub) (h : Reaches ps K d e) : Reaches ps K d (Machine.incr w num sub e) :=
  h.put_low hs hk

theorem framed {ks : List (Nat × Nat)} (h : Reaches ps (fun num sub => (num, sub) ∈ ks) d e) : Framed ps ks d e :=
  ⟨h.parts, fun num sub hs hc hk => h.objs num sub hs hc hk, h.pend⟩

theorem only (h : Reaches ps K d e) : OnlyParts ps d e ∧ e.os.pend = d.os.pend := ⟨h.parts, h.pend⟩

theorem ob_eq (h : Reaches ps K d e) {num sub : Nat} (hs : sub < 256) (hc : counted num sub = false) (hk : ¬K num sub) :
    ob e num sub = ob d num sub := congrArg valBytes (h.objs num sub hs hc hk)

end Reaches

/-! ### Messages queued (R401) -/

/-- The yard with other books of what it has to send. -/
def msgBooks (m : Nat) (q : List (Nat × Nat)) (t : List YTx) (c : List (List (Nat × Nat))) (y : YardS) : YardS :=
  { y with mseq := m, seqs := q, tx := t, carried := c }

/-- The unit queues messages. -/
def mayQueue (d : Dev) : Bool := isActive d && oflag d 0x3100 1 && decide (ringSize d 10 ≠ 0)

section

variable (mtype dst : Nat) (body : Bytes) (plain : Bool) (d : Dev)

/-- Whether a message is queued or not, only the books of what is to be sent differ. -/
theorem sendMsg_books : ∃ m q t c, sendMsg mtype dst body plain d = modYard (msgBooks m q t c) d := by
  unfold sendMsg
  split
  · exact ⟨d.yard.mseq, d.yard.seqs, d.yard.tx, d.yard.carried, rfl⟩
  · exact ⟨_, _, _, _, rfl⟩

theorem sendMsg_reaches {ps : List Part} {K : Nat → Nat → Prop} (hp : .yard ∈ ps) : Reaches ps K d (sendMsg mtype dst body plain d) := by
  obtain ⟨m, q, t, c, h⟩ := sendMsg_books mtype dst body plain d
  rw [h]
  exact (Reaches.refl _ _ d).modYard hp _

variable {d}

theorem sendMsg_on (num sub : Nat) : on (sendMsg mtype dst body plain d) num sub = on d num sub := by
  obtain ⟨m, q, t, c, h⟩ := sendMsg_books mtype dst body plain d
  rw [h]
  rfl

theorem sendMsg_ob (num sub : Nat) : ob (sendMsg mtype dst body plain d) num sub = ob d num sub := by
  obtain ⟨m, q, t, c, h⟩ := sendMsg_books mtype dst body plain d
  rw [h]
  rfl

theorem sendMsg_raised (code inst : Nat) (b : Bool) : raised (sendMsg mtype dst body plain d) code inst b = raised d code inst b := by
  obtain ⟨m, q, t, c, h⟩ := sendMsg_books mtype dst body plain d
  rw [h]
  rfl

/-- What messages queued leave of the yard. -/
theorem sendMsg_yard {α : Type} (v : YardS → α) (hv : ∀ m q t c y, v (msgBooks m q t c y) = v y) :
    v (sendMsg mtype dst body plain d).yard = v d.yard := by
  obtain ⟨m, q, t, c, h⟩ := sendMsg_books mtype dst body plain d
  rw [h]
  exact hv m q t c d.yard

theorem sendMsg_tx (h : mayQueue d = true) (hd : dst ≠ 0xFFFF) : ∃ t, (sendMsg mtype dst body plain d).yard.tx = d.yard.tx ++ [t] ∧
    t.ldst = (downPath d dst).2 ∧ byteAt t.msg 0 = mtype % 256 := by
  have hq : (!(isActive d) || !(oflag d 0x3100 1) || decide (ringSize d 10 = 0)) = false := by
    simp only [mayQueue, Bool.and_eq_true, decide_eq_true_eq] at h
    obtain ⟨⟨ha, ho⟩, hr⟩ := h
    simp [ha, ho, hr]
  simp only [sendMsg, hq, Bool.false_eq_true, if_false, if_neg hd, carry, modYard]
  refine ⟨_, rfl, rfl, ?_⟩
  simp [byteAt, msgHeader, natLe, List.getD]

theorem mem_sendMsg_tx {t : YTx} (h : t ∈ d.yard.tx) : t ∈ (sendMsg mtype dst body plain d).yard.tx := by
  unfold sendMsg
  split
  · exact h
  · exact List.mem_append_left _ h

end

/-! ### Points of nodes (R413) -/

section

variable {d e : Dev} {i : Nat} {js : List Nat}

/-- A value of a point is entered as sent now. -/
def pointSent (i j : Nat) (d : Dev) : Dev :=
  put (yPoint i j) 3 0 (modYard (fun y => { y with ptLast := alSet y.ptLast (24 * i + j) (bpn d) }) d)

/-- The body of a POINT message with outputs of node i. -/
def pointBody (i : Nat) (js : List Nat) (d : Dev) : Bytes :=
  natLe 1 js.length ++ natLe 3 0 ++ js.flatMap (fun j => natLe 1 j ++ natLe 1 0 ++ natLe 2 0 ++ natLe 4 (on d (yPoint i j) 1))

/-- Outputs of node i no longer wait. -/
def notDirty (i : Nat) (js : List Nat) : Dev → Dev :=
  modYard (fun y => { y with dirty := y.dirty.filter (fun k => !(k / 24 == i && js.contains (k % 24))) })

theorem sendPoints_eq (h : js ≠ []) (d : Dev) : sendPoints i js d =
    notDirty i js (sendMsg 8 (0x100 + i) (pointBody i js (forEach js (pointSent i) d)) false (forEach js (pointSent i) d)) := if_neg h

/-- What sending points of node i leaves of the unit and of the yard. -/
structure PointsKept (ks : List (Nat × Nat)) (d e : Dev) : Prop where
  reach : Reaches [.yard] (fun num sub => (num, sub) ∈ ks) d e
  routes : e.yard.routes = d.yard.routes
  via : e.yard.via = d.yard.via
  refresh : e.yard.refreshAt = d.yard.refreshAt
  tx : ∀ t ∈ d.yard.tx, t ∈ e.yard.tx

namespace PointsKept

variable {ks : List (Nat × Nat)} {f : Dev}

theorem refl (ks : List (Nat × Nat)) (d : Dev) : PointsKept ks d d := ⟨.refl _ _ d, rfl, rfl, rfl, fun _ h => h⟩

theorem trans (h : PointsKept ks d e) (k : PointsKept ks e f) : PointsKept ks d f :=
  ⟨h.reach.trans k.reach, k.routes.trans h.routes, k.via.trans h.via, k.refresh.trans h.refresh, fun t ht => k.tx t (h.tx t ht)⟩

theorem forEach {l : List Nat} {g : Nat → Dev → Dev} (hg : ∀ a ∈ l, ∀ x, PointsKept ks x (g a x)) (d : Dev) :
    PointsKept ks d (Machine.forEach l g d) :=
  forEach_keeps (P := PointsKept ks d) (fun a ha x hx => hx.trans (hg a ha x)) (.refl ks d)

theorem bpn_eq (h : PointsKept ks d e) (hk : (0x3103, 3) ∉ ks) : bpn e = bpn d := h.reach.on_eq (by decide) (by decide) hk

theorem downPath_eq (h : PointsKept ks d e) (a : Nat) : downPath e a = downPath d a := by
  unfold downPath
  rw [h.routes, h.via]

theorem mayQueue_eq (h : PointsKept ks d e) (h1 : (0x3100, 1) ∉ ks) (h2 : (0x320A, 1) ∉ ks) : mayQueue e = mayQueue d := by
  have hp : e.pair = d.pair := h.reach.parts .pair (by decide)
  have ho : on e 0x3100 1 = on d 0x3100 1 := h.reach.on_eq (by decide) (by decide) h1
  have hr : on e (0x3200 + 10) 1 = on d (0x3200 + 10) 1 := h.reach.on_eq (by decide) (by decide) h2
  rw [mayQueue, mayQueue, isActive, isActive, oflag, oflag, ringSize, ringSize, hp, ho, hr]

end PointsKept

theorem pointSent_kept {ks : List (Nat × Nat)} {j : Nat} (hk : (yPoint i j, 3) ∈ ks) (d : Dev) : PointsKept ks d (pointSent i j d) :=
  ⟨.put_low (by decide) hk ((Reaches.refl _ _ d).modYard (by decide) _), rfl, rfl, rfl, fun _ h => h⟩

theorem sendMsg_kept (ks : List (Nat × Nat)) (mtype dst : Nat) (body : Bytes) (plain : Bool) (d : Dev) :
    PointsKept ks d (sendMsg mtype dst body plain d) :=
  ⟨sendMsg_reaches mtype dst body plain d (by decide), sendMsg_yard mtype dst body plain YardS.routes (fun _ _ _ _ _ => rfl),
    sendMsg_yard mtype dst body plain YardS.via (fun _ _ _ _ _ => rfl),
    sendMsg_yard mtype dst body plain YardS.refreshAt (fun _ _ _ _ _ => rfl), fun _ h => mem_sendMsg_tx mtype dst body plain h⟩

theorem notDirty_kept (ks : List (Nat × Nat)) (d : Dev) : PointsKept ks d (notDirty i js d) :=
  ⟨(Reaches.refl _ _ d).modYard (by decide) _, rfl, rfl, rfl, fun _ h => h⟩

theorem pointsSent_kept {ks : List (Nat × Nat)} (hk : ∀ j ∈ js, (yPoint i j, 3) ∈ ks) (d : Dev) :
    PointsKept ks d (forEach js (pointSent i) d) := .forEach (fun j hj x => pointSent_kept (hk j hj) x) d

theorem sendPoints_kept {ks : List (Nat × Nat)} (hk : ∀ j ∈ js, (yPoint i j, 3) ∈ ks) (d : Dev) : PointsKept ks d (sendPoints i js d) := by
  by_cases h : js = []
  · rw [h]
    exact .refl ks d
  · rw [sendPoints_eq h]
    exact ((pointsSent_kept hk d).trans (sendMsg_kept ks _ _ _ _ _)).trans (notDirty_kept ks _)

/-- The last values of points, behind those of node i that are sent. -/
theorem ptLast_pointsSent {ks : List (Nat × Nat)} (hks : (0x3103, 3) ∉ ks) (hk : ∀ j ∈ js, (yPoint i j, 3) ∈ ks) (k : Nat) (d : Dev) :
    alGet (forEach js (pointSent i) d).yard.ptLast k = if ∃ j ∈ js, k = 24 * i + j then some (bpn d) else alGet d.yard.ptLast k := by
  induction js generalizing d with
  | nil => simp [forEach]
  | cons j js ih =>
    have hb : bpn (pointSent i j d) = bpn d := (pointSent_kept (hk j List.mem_cons_self) d).bpn_eq hks
    have hstep := ih (fun a ha => hk a (List.mem_cons_of_mem _ ha)) (pointSent i j d)
    have hone : alGet (pointSent i j d).yard.ptLast k = if k = 24 * i + j then some (bpn d) else alGet d.yard.ptLast k := by
      show alGet (alSet d.yard.ptLast (24 * i + j) (bpn d)) k = _
      split
      case isTrue h => rw [h, alGet_alSet_same]
      case isFalse h => exact alGet_alSet_other _ _ (Ne.symm h)
    show alGet (forEach js (pointSent i) (pointSent i j d)).yard.ptLast k = _
    rw [hstep, hb, hone]
    by_cases h1 : ∃ a ∈ js, k = 24 * i + a
    · obtain ⟨a, ha, he⟩ := h1
      rw [if_pos ⟨a, ha, he⟩, if_pos ⟨a, List.mem_cons_of_mem _ ha, he⟩]
    · rw [if_neg h1]
      by_cases h2 : k = 24 * i + j
      · rw [if_pos h2, if_pos ⟨j, List.mem_cons_self, h2⟩]
      · rw [if_neg h2, if_neg]
        rintro ⟨a, ha, he⟩
        rcases List.mem_cons.1 ha with rfl | ha
        · exact h2 he
        · exact h1 ⟨a, ha, he⟩

theorem ptLast_sendPoints {ks : List (Nat × Nat)} (hks : (0x3103, 3) ∉ ks) (hk : ∀ j ∈ js, (yPoint i j, 3) ∈ ks) (k : Nat) (d : Dev) :
    alGet (sendPoints i js d).yard.ptLast k = if ∃ j ∈ js, k = 24 * i + j then some (bpn d) else alGet d.yard.ptLast k := by
  by_cases h : js = []
  · rw [h]
    simp [sendPoints]
  · rw [sendPoints_eq h]
    refine Eq.trans ?_ (ptLast_pointsSent hks hk k d)
    exact congrArg (fun l => alGet l k) (sendMsg_yard 8 _ _ false YardS.ptLast (fun _ _ _ _ _ => rfl))

theorem on_pointsSent {j : Nat} (hj : j ∈ js) (h24 : ∀ j ∈ js, j < 24) (d : Dev) : on (forEach js (pointSent i) d) (yPoint i j) 3 = 0 := by
  induction js generalizing d with
  | nil => exact absurd hj List.not_mem_nil
  | cons a js ih =>
    by_cases hm : j ∈ js
    · exact ih hm (fun b hb => h24 b (List.mem_cons_of_mem _ hb)) (pointSent i a d)
    · obtain rfl : j = a := (List.mem_cons.1 hj).resolve_right hm
      have hrest : on (forEach js (pointSent i) (pointSent i j d)) (yPoint i j) 3 = on (pointSent i j d) (yPoint i j) 3 :=
        forEach_keeps (P := fun x => on x (yPoint i j) 3 = on (pointSent i j d) (yPoint i j) 3) (fun b hb x hx => by
          refine Eq.trans ?_ hx
          have hb24 := h24 b (List.mem_cons_of_mem _ hb)
          have hj24 := h24 j List.mem_cons_self
          have hne : b ≠ j := fun heq => hm (heq ▸ hb)
          exact on_put_other _ _ _ _ _ _ (okey_oYard_ne (i := i) (j := i) (a := 8 + b) (b := 8 + j) (by omega) (by omega) (by decide) (by decide)
            (.inr (.inl (by omega))))) rfl
      exact hrest.trans (on_put_same ..)

theorem on_sendPoints {j : Nat} (hj : j ∈ js) (h24 : ∀ j ∈ js, j < 24) (d : Dev) : on (sendPoints i js d) (yPoint i j) 3 = 0 := by
  rw [sendPoints_eq (List.ne_nil_of_mem hj)]
  exact (sendMsg_on ..).trans (on_pointsSent hj h24 d)

theorem sendPoints_tx (h : js ≠ []) (hi : i < 512) (hq : mayQueue d = true) :
    ∃ t ∈ (sendPoints i js d).yard.tx, t.ldst = (downPath d (0x100 + i)).2 ∧ byteAt t.msg 0 = 8 := by
  have hkept : PointsKept (js.map (fun j => (yPoint i j, 3))) d (forEach js (pointSent i) d) :=
    pointsSent_kept (fun j hj => List.mem_map.2 ⟨j, hj, rfl⟩) d
  have hno : ∀ num sub, num < 0x18000 → (num, sub) ∉ js.map (fun j => (yPoint i j, 3)) := by
    intro num sub hn hm
    obtain ⟨j, _, he⟩ := List.mem_map.1 hm
    have hnum : yPoint i j = num := congrArg Prod.fst he
    unfold yPoint oYard at hnum
    omega
  obtain ⟨t, ht, hl, hb⟩ := sendMsg_tx 8 (0x100 + i) (pointBody i js (forEach js (pointSent i) d)) false
    ((hkept.mayQueue_eq (hno _ _ (by decide)) (hno _ _ (by decide))).trans hq) (by omega)
  rw [sendPoints_eq h]
  refine ⟨t, ?_, by rw [hl, hkept.downPath_eq], hb⟩
  show t ∈ (sendMsg 8 (0x100 + i) (pointBody i js (forEach js (pointSent i) d)) false (forEach js (pointSent i) d)).yard.tx
  rw [ht]
  exact List.mem_append_right _ List.mem_cons_self

end

/-! ### Outputs refreshed -/

section

variable {d e : Dev} {i : Nat}

theorem outputsOf_lt {j : Nat} (h : j ∈ outputsOf d i) : j < 24 := List.mem_range.1 (List.mem_filter.1 h).1

theorem outputsOf_last {j : Nat} (h : j ∈ outputsOf d i) : (alGet d.yard.ptLast (24 * i + j)).isSome = true := by
  have hp := (List.mem_filter.1 h).2
  simp only [Bool.and_eq_true] at hp
  exact hp.2

theorem outputsOf_congr (hdir : ∀ j, on e (yPoint i j) 2 = on d (yPoint i j) 2)
    (hlast : ∀ j, (alGet e.yard.ptLast (24 * i + j)).isSome = (alGet d.yard.ptLast (24 * i + j)).isSome) :
    outputsOf e i = outputsOf d i := by
  unfold outputsOf
  simp only [hdir, hlast]

/-- The stale marks of outputs of node i. -/
def staleOf (i : Nat) (js : List Nat) : List (Nat × Nat) := js.map (fun j => (yPoint i j, 3))

theorem mem_staleOf {js : List Nat} : ∀ j ∈ js, (yPoint i j, 3) ∈ staleOf i js := fun j hj => List.mem_map.2 ⟨j, hj, rfl⟩

theorem not_mem_staleOf_low {js : List Nat} {num sub : Nat} (h : num < 0x18000) : (num, sub) ∉ staleOf i js := fun hm => by
  obtain ⟨j, _, he⟩ := List.mem_map.1 hm
  have hnum : yPoint i j = num := congrArg Prod.fst he
  unfold yPoint oYard at hnum
  omega

theorem not_mem_staleOf_sub {js : List Nat} {num sub : Nat} (h : sub ≠ 3) : (num, sub) ∉ staleOf i js := fun hm => by
  obtain ⟨j, _, he⟩ := List.mem_map.1 hm
  exact h (congrArg Prod.snd he).symm

theorem not_mem_staleOf_other {a j : Nat} {js : List Nat} (hne : a ≠ i) (hj : j < 24) (h24 : ∀ j ∈ js, j < 24) :
    (yPoint i j, 3) ∉ staleOf a js := fun hm => by
  obtain ⟨b, hb, he⟩ := List.mem_map.1 hm
  have hb24 := h24 b hb
  exact hne (oYard_inj (by omega) (by omega) (congrArg Prod.fst he : oYard a (8 + b) = oYard i (8 + j))).1

/-- Sending a node's outputs leaves every node's outputs what they are. -/
theorem outputsOf_sendPoints (a : Nat) (d : Dev) : outputsOf (sendPoints a (outputsOf d a) d) i = outputsOf d i := by
  have hkept := sendPoints_kept (i := a) (js := outputsOf d a) mem_staleOf d
  refine outputsOf_congr (fun j => hkept.reach.on_eq (by decide) (counted_oYard ..) (not_mem_staleOf_sub (by decide))) (fun j => ?_)
  rw [ptLast_sendPoints (not_mem_staleOf_low (by decide)) mem_staleOf]
  split
  case isTrue h =>
    obtain ⟨b, hb, he⟩ := h
    rw [he, outputsOf_last hb]
    rfl
  case isFalse => rfl

/-- The outputs of each node as they were at first. -/
theorem refresh_eq (l : List Nat) (outs : Nat → List Nat) (d : Dev) (h : ∀ i, outputsOf d i = outs i) :
    forEach l (fun i d => sendPoints i (outputsOf d i) d) d = forEach l (fun i => sendPoints i (outs i)) d := by
  induction l generalizing d with
  | nil => rfl
  | cons a l ih =>
    have hstep := ih (sendPoints a (outputsOf d a) d) (fun i => (outputsOf_sendPoints a d).trans (h i))
    rw [h a] at hstep
    show forEach l _ (sendPoints a (outputsOf d a) d) = forEach l _ (sendPoints a (outs a) d)
    rw [h a]
    exact hstep

/-- The unit in which outputs are refreshed from this beacon period on. -/
def refreshFrom (d : Dev) : Dev := modYard (fun y => { y with refreshAt := bpn d }) d

/-- The stale marks of all outputs of associated nodes. -/
def staleMarks (d : Dev) : List (Nat × Nat) := (associated d).flatMap (fun i => staleOf i (outputsOf d i))

/-- The outputs of every associated node, sent. -/
def refreshed (d : Dev) : Dev := forEach (associated d) (fun i => sendPoints i (outputsOf d i)) (refreshFrom d)

theorem pointRefresh_due (hs : yardMaySend d = true) (hd : d.yard.refreshAt + on d 0x3100 7 ≤ bpn d) : pointRefresh d = refreshed d := by
  have hx : pointRefresh d = forEach (associated d) (fun i d => sendPoints i (outputsOf d i) d) (refreshFrom d) := if_pos (by simp [hs, hd])
  rw [hx]
  exact refresh_eq _ (outputsOf d) _ (fun _ => rfl)

theorem sendPoints_kept_marks (hi : i ∈ associated d) (x : Dev) : PointsKept (staleMarks d) x (sendPoints i (outputsOf d i) x) :=
  sendPoints_kept (fun j hj => List.mem_flatMap.2 ⟨i, hi, mem_staleOf j hj⟩) x

theorem refreshed_kept (d : Dev) : PointsKept (staleMarks d) (refreshFrom d) (refreshed d) :=
  .forEach (fun _ ha x => sendPoints_kept_marks ha x) _

theorem refreshed_framed (d : Dev) : Framed [.yard] (staleMarks d) d (refreshed d) :=
  ((Reaches.refl _ _ d).modYard (by decide) _ |>.trans (refreshed_kept d).reach).framed

theorem not_mem_staleMarks_low {num sub : Nat} (h : num < 0x18000) : (num, sub) ∉ staleMarks d := fun hm => by
  obtain ⟨i, _, hi⟩ := List.mem_flatMap.1 hm
  exact not_mem_staleOf_low h hi

theorem associated_lt (h : i ∈ associated d) : i < 512 := List.mem_range.1 (List.mem_filter.1 h).1

theorem associated_nodup (d : Dev) : (associated d).Nodup := List.nodup_range.filter _

/-- The outputs of a node have been sent in beacon period b, by way of `hop`. -/
def OutputsSent (i : Nat) (js : List Nat) (b hop : Nat) (e : Dev) : Prop :=
  (∃ t ∈ e.yard.tx, t.ldst = hop ∧ byteAt t.msg 0 = 8) ∧
    ∀ j ∈ js, on e (yPoint i j) 3 = 0 ∧ alGet e.yard.ptLast (24 * i + j) = some b

theorem OutputsSent.turn {a b hop : Nat} {js ks : List Nat} (hne : a ≠ i) (h24 : ∀ j ∈ js, j < 24) (k24 : ∀ j ∈ ks, j < 24)
    (h : OutputsSent i js b hop d) : OutputsSent i js b hop (sendPoints a ks d) := by
  have hkept := sendPoints_kept (i := a) (js := ks) mem_staleOf d
  obtain ⟨⟨t, ht, hl⟩, hjs⟩ := h
  refine ⟨⟨t, hkept.tx t ht, hl⟩, fun j hj => ⟨?_, ?_⟩⟩
  · exact (hkept.reach.on_eq (by decide) (counted_oYard ..) (not_mem_staleOf_other hne (h24 j hj) k24)).trans (hjs j hj).1
  · rw [ptLast_sendPoints (not_mem_staleOf_low (by decide)) mem_staleOf, if_neg, (hjs j hj).2]
    rintro ⟨c, hc, he⟩
    have hc24 := k24 c hc
    have hj24 := h24 j hj
    omega

theorem refreshed_sends (hq : mayQueue d = true) (hi : i ∈ associated d) (ho : outputsOf d i ≠ []) :
    OutputsSent i (outputsOf d i) (bpn d) (downPath d (0x100 + i)).2 (refreshed d) := by
  refine forEach_turn (P := PointsKept (staleMarks d) (refreshFrom d)) (associated_nodup d) hi
    (fun a ha _ x hx => hx.trans (sendPoints_kept_marks ha x))
    (fun a _ hne x hx => hx.turn hne (fun _ => outputsOf_lt) (fun _ => outputsOf_lt)) (fun x hx => ?_) (.refl _ _)
  have hbpn : bpn x = bpn d := hx.bpn_eq (not_mem_staleMarks_low (by decide))
  obtain ⟨t, ht, hl, hb⟩ := sendPoints_tx ho (associated_lt hi)
    ((hx.mayQueue_eq (not_mem_staleMarks_low (by decide)) (not_mem_staleMarks_low (by decide))).trans hq)
  refine ⟨⟨t, ht, hl.trans (congrArg Prod.snd (hx.downPath_eq _)), hb⟩, fun j hj => ⟨on_sendPoints hj (fun _ => outputsOf_lt) x, ?_⟩⟩
  rw [ptLast_sendPoints (not_mem_staleOf_low (by decide)) mem_staleOf, if_pos ⟨j, hj, rfl⟩, hbpn]

theorem mayQueue_of_maySend (h : yardMaySend d = true) : mayQueue d = true := by
  simp only [yardMaySend, yardOn, Bool.and_eq_true] at h
  obtain ⟨⟨⟨⟨⟨_, ho⟩, hr⟩, ha⟩, _⟩, _⟩ := h
  rw [mayQueue, ha, ho, hr]
  rfl

end

section

variable {s : State}

theorem yardPointRefresh_refreshes (hs : yardMaySend s.dev = true) (hd : s.dev.yard.refreshAt + on s.dev 0x3100 7 ≤ bpn s.dev) :
    Completes .yardPointRefresh s (fun e =>
      (∀ i ∈ associated s.dev, outputsOf s.dev i ≠ [] → OutputsSent i (outputsOf s.dev i) (bpn s.dev) (downPath s.dev (0x100 + i)).2 e) ∧
        e.yard.refreshAt = bpn s.dev ∧ Framed [.yard] (staleMarks s.dev) s.dev e) := by
  refine act_completes (f := pointRefresh) rfl (fun e he => ?_)
  rw [pointRefresh_due (d := fresh s) hs hd] at he
  have hyard : e.yard = (refreshed (fresh s)).yard := he.part .yard
  refine ⟨fun i hi ho => ?_, ?_, .of_fresh ((refreshed_framed (fresh s)).follow he)⟩
  · obtain ⟨⟨t, ht, hl⟩, hjs⟩ := refreshed_sends (d := fresh s) (mayQueue_of_maySend hs) hi ho
    refine ⟨⟨t, by rw [hyard]; exact ht, hl⟩, fun j hj => ⟨?_, by rw [hyard]; exact (hjs j hj).2⟩⟩
    exact (he.on_of_not_counted (by decide) (counted_oYard ..)).trans (hjs j hj).1
  · rw [hyard]
    exact (refreshed_kept (fresh s)).refresh.trans (show bpn (fresh s) = bpn s.dev from rfl)

end

/-! ### Nodes that are lost, points that go stale (R412, R413) -/

section

variable {d : Dev} {i : Nat}

/-- The links, the route and the error rate of a station are forgotten. -/
def linksGone (a : Nat) (y : YardS) : YardS :=
  { y with links := y.links.filter (fun l => l.src != a && l.dst != a), routes := alDel y.routes a, errs := alDel y.errs a }

/-- A node marked as lost, with its points. -/
def nodeGone (i : Nat) (d : Dev) : Dev := stalePoints i (put (yNode i) 2 3 (modYard (linksGone (0x100 + i)) d))

theorem nodeLost_eq (ho : yardOn d = true) (hi : i < 512) (hn : nodeState d i = 2) (hm : 50 ≤ on d (yNode i) 10) :
    nodeLost i d = raise 0x6202 (0x100 + i) 0 (incr 32 0x3106 2 (nodeGone i d)) :=
  if_pos (by simp [ho, hi, hn, hm])

/-- The stale marks of a node's points. -/
def isPointOf (i num sub : Nat) : Prop := ∃ j, j < 24 ∧ num = yPoint i j ∧ sub = 3

theorem not_isPointOf_low {num sub : Nat} (h : num < 0x18000) : ¬isPointOf i num sub := by
  rintro ⟨j, _, rfl, _⟩
  unfold yPoint oYard at h
  omega

theorem not_isPointOf_node {k sub : Nat} : ¬isPointOf i (yNode k) sub := by
  rintro ⟨j, hj, he, _⟩
  have := (oYard_inj (by omega) (by omega) he).2
  omega

theorem stalePoints_reaches (ps : List Part) (i : Nat) (d : Dev) : Reaches ps (isPointOf i) d (stalePoints i d) :=
  .forEach (fun j hj x => .put_low (by decide) ⟨j, List.mem_range.1 hj, rfl, rfl⟩ (.refl _ _ x)) (.refl _ _ d)

theorem stalePoints_yard (i : Nat) (d : Dev) : (stalePoints i d).yard = d.yard := (stalePoints_reaches [] i d).parts .yard (by simp)

theorem nodeGone_reaches (i : Nat) (d : Dev) :
    Reaches [.yard] (fun num sub => isPointOf i num sub ∨ num = yNode i ∧ sub = 2) d (nodeGone i d) :=
  (Reaches.put_low (by decide) (.inr ⟨rfl, rfl⟩) ((Reaches.refl _ _ d).modYard (by decide) _)).trans
    ((stalePoints_reaches [.yard] i _).weaken (fun _ _ h => .inl h))

theorem nodeGone_yard (d : Dev) : (nodeGone i d).yard = linksGone (0x100 + i) d.yard :=
  stalePoints_yard i (put (yNode i) 2 3 (modYard (linksGone (0x100 + i)) d))

theorem nodeState_nodeGone_same (d : Dev) : nodeState (nodeGone i d) i = 3 :=
  ((stalePoints_reaches [] i _).on_eq (by decide) (counted_oYard ..) not_isPointOf_node).trans (on_put_same ..)

theorem nodeState_nodeGone_other {k : Nat} (h : k ≠ i) (d : Dev) : nodeState (nodeGone i d) k = nodeState d k := by
  refine (nodeGone_reaches i d).on_eq (by decide) (counted_oYard ..) ?_
  rintro (hp | ⟨he, _⟩)
  · exact not_isPointOf_node hp
  · exact h (oYard_inj (by decide) (by decide) he).1

theorem on_nodeGone_low {num sub : Nat} (h : num < 0x18000) (d : Dev) (hs : sub < 256 := by decide) (hc : counted num sub = false := by decide) :
    on (nodeGone i d) num sub = on d num sub := by
  refine (nodeGone_reaches i d).on_eq hs hc ?_
  rintro (hp | ⟨he, _⟩)
  · exact not_isPointOf_low h hp
  · unfold yNode oYard at he
    omega

theorem on_incr_oYard {i off sub : Nat} (w n : Nat) (hs : sub < 256) (ho : n < 256) (x : Dev) : on (incr w 0x3106 n x) (oYard i off) sub = on x (oYard i off) sub :=
  on_incr_other _ _ _ _ _ _ (fun h => by
    have := (okey_inj ho hs h).1
    unfold oYard at this
    omega)

end

section

variable {s : State} {i j : Nat} (ho : yardOn s.dev = true)

include ho

theorem running_of_yardOn : running s.dev = true := by
  simp only [yardOn, Bool.and_eq_true] at ho
  exact ho.1.1

theorem yardNodeLost_loses (hi : i < 512) (hn : nodeState s.dev i = 2) (hm : 50 ≤ on s.dev (yNode i) 10) :
    Completes (.yardNodeLost i) s (fun e =>
      raised e 0x6202 (0x100 + i) = true ∧ nodeState e i = 3 ∧ alGet e.yard.routes (0x100 + i) = none ∧ alGet e.yard.errs (0x100 + i) = none ∧
        on e 0x3106 2 = incSat 32 (on s.dev 0x3106 2) ∧ (∀ k, k < 512 → k ≠ i → nodeState e k = nodeState s.dev k) ∧
        OnlyParts [.yard] s.dev e ∧ e.os.pend = s.dev.os.pend) := by
  refine partRun_completes rfl (decide_eq_true hi) (running_of_yardOn ho) (nodeLost_eq (d := fresh s) ho hi hn hm) (fun e he => ?_)
  have hyard : (nodeGone i (fresh s)).yard = linksGone (0x100 + i) s.dev.yard := nodeGone_yard (fresh s)
  have hsame : nodeState (nodeGone i (fresh s)) i = 3 := nodeState_nodeGone_same (fresh s)
  have hother : ∀ k, k ≠ i → nodeState (nodeGone i (fresh s)) k = nodeState (fresh s) k := fun k hk => nodeState_nodeGone_other hk (fresh s)
  have hold : on (nodeGone i (fresh s)) 0x3106 2 = on (fresh s) 0x3106 2 := on_nodeGone_low (by decide) (fresh s)
  have hmarked : Reaches [.yard] (fun _ _ => True) s.dev (nodeGone i (fresh s)) :=
    .of_fresh ((nodeGone_reaches i (fresh s)).weaken (fun _ _ _ => trivial))
  generalize nodeGone i (fresh s) = x at he hyard hsame hother hold hmarked
  have hcounted : Reaches [] (fun _ _ => True) x e :=
    ((Reaches.refl [] _ x).incr_low (w := 32) (num := 0x3106) (sub := 2) (by decide) trivial).raise.follow he
  have hnode : ∀ k, nodeState e k = nodeState x k := fun k =>
    ((he.on_of_not_counted (by decide) (counted_oYard ..)).trans (on_raise ..)).trans (on_incr_oYard _ _ (by decide) (by decide) _)
  have hey : e.yard = linksGone (0x100 + i) s.dev.yard := (hcounted.parts .yard (by simp)).trans hyard
  refine ⟨he.raised _ _ _ (raised_raise _ _ _ _), (hnode i).trans hsame, ?_, ?_, ?_, fun k _ hk => (hnode k).trans (hother k hk),
    (hmarked.trans (hcounted.mono (by simp))).only⟩
  · rw [hey]
    exact alGet_alDel_same _ _
  · rw [hey]
    exact alGet_alDel_same _ _
  · rw [he.on_low (by decide) (by decide), on_raise, on_incr_same, hold, on_fresh]

theorem yardPointStale_marks {b : Nat} (hi : i < 512) (hj : j < 24)
    (hb : (alGet s.dev.yard.ptLast (24 * i + j)).or (alGet s.dev.yard.since (0x100 + i)) = some b) (ha : b + 3 * on s.dev 0x3100 7 ≤ bpn s.dev) :
    Completes (.yardPointStale i j) s (fun e => on e (yPoint i j) 3 = 1 ∧ Framed [] [(yPoint i j, 3)] s.dev e) := by
  have hx : yardPointStale i j (fresh s) = put (yPoint i j) 3 1 (fresh s) := by
    unfold yardPointStale
    rw [if_pos (by rw [show yardOn (fresh s) = true from ho]; simp [hi, hj]), show (fresh s).yard = s.dev.yard from rfl, hb]
    exact if_pos ha
  refine partRun_completes rfl (by simp [hi, hj]) (running_of_yardOn ho) hx (fun e he => ?_)
  exact ⟨(he.on_of_not_counted (by decide) (counted_oYard ..)).trans (on_put_same ..),
    .of_fresh (.follow (.put (by decide) List.mem_cons_self (.refl _ _ _)) he)⟩

end

/-! ### Routes (R411) -/

section

variable {d e : Dev} {i : Nat}

/-- Number, next hop and cost of a route are shown. -/
def routeShown (i : Nat) (r : YRoute) (d : Dev) : Dev :=
  put (yNode i) 9 (satU 16 r.downCost) (put (yNode i) 8 (satU 16 r.cost) (put (yNode i) 7 r.up (put (yNode i) 6 r.hops d)))

/-- A route is held, in a new version of the table where it has changed. -/
def routeHeld (i : Nat) (r : YRoute × Bool) : Dev → Dev :=
  modYard (fun y => { y with routes := alSet y.routes (0x100 + i) r.1, routeVer := if r.2 then (y.routeVer + 1) % 65536 else y.routeVer })

/-- The body of a ROUTE message. -/
def routeBody (r : YRoute) (d : Dev) : Bytes :=
  natLe 2 d.yard.routeVer ++ natLe 2 r.up ++ natLe 1 r.hops ++ natLe 1 0 ++ natLe 2 (satU 16 r.cost)

/-- A changed route has its event, and the node is told. -/
def routeTold (all : Bool) (i : Nat) (r : YRoute × Bool) (d : Dev) : Dev :=
  let d := if r.2 then raise 0x6002 (0x100 + i) r.1.up d else d
  if r.2 || all then sendMsg 5 (0x100 + i) (routeBody r.1 d) false d else d

/-- A node's route after a computation is entered. -/
def routeEntered (all : Bool) (i : Nat) (r : YRoute × Bool) (d : Dev) : Dev :=
  routeTold all i r (routeHeld i r (publishLink i (routeShown i r.1 d)))

/-- The way up found for a node. -/
def upFound (links : List YLink) (i : Nat) : Option PathC := (pathRounds links true 8).find? (fun p => p.node == 0x100 + i)

/-- A node's route after a computation over links, with the routes held before. -/
def routeFound (links : List YLink) (held : List (Nat × YRoute)) (i : Nat) (p : PathC) (old : Option YRoute) : YRoute × Bool :=
  routeStep (heldCost links held 8 (0x100 + i)) old p ((pathRounds links false 8).find? (fun q => q.node == 0x100 + i))

/-- The turn of a node in a computation. -/
def routeTurn (links : List YLink) (held : List (Nat × YRoute)) (all : Bool) (i : Nat) (d : Dev) : Dev :=
  match upFound links i with
  | none => d
  | some p => routeEntered all i (routeFound links held i p (alGet d.yard.routes (0x100 + i))) d

/-- The routes are computed from this beacon period on. -/
def routesFrom (d : Dev) : Dev := modYard (fun y => { y with routeAt := bpn d }) d

/-- All nodes have had their turn. -/
def routesComputed (d : Dev) : Dev :=
  forEach (associated d) (routeTurn (graphOf d) d.yard.routes d.yard.sendAll) (routesFrom d)

theorem routeComputation_due (ho : yardOn d = true) (ha : isActive d = true) (hd : d.yard.routeAt + on d 0x3100 6 ≤ bpn d) :
    routeComputation d = modYard (fun y => { y with sendAll := false }) (routesComputed d) := by
  unfold routeComputation
  rw [if_neg (by simp [ho, ha, hd])]
  rfl

/-- Objects of a node, or of its link. -/
def isNodeOrLink (i num _sub : Nat) : Prop := num = yNode i ∨ num = oYard i 1

theorem routeShown_reaches (ps : List Part) (i : Nat) (r : YRoute) (d : Dev) : Reaches ps (isNodeOrLink i) d (routeShown i r d) :=
  .put_low (by decide) (.inl rfl) (.put_low (by decide) (.inl rfl) (.put_low (by decide) (.inl rfl) (.put_low (by decide) (.inl rfl) (.refl _ _ d))))

theorem publishLink_reaches (ps : List Part) (i : Nat) (d : Dev) : Reaches ps (fun num _ => num = oYard i 1) d (publishLink i d) := by
  unfold publishLink
  dsimp only
  generalize (if on d (yNode i) 7 = 0 then (alGet d.yard.errs (0x100 + i)).map _ else _) = x
  cases x with
  | none => exact .refl _ _ d
  | some r => exact .put_low (by decide) rfl (.put_low (by decide) rfl (.refl _ _ d))

theorem routeTold_reaches (K : Nat → Nat → Prop) (all : Bool) (i : Nat) (r : YRoute × Bool) (d : Dev) :
    Reaches [.yard] K d (routeTold all i r d) := by
  have hraise : Reaches [.yard] K d (if r.2 then raise 0x6002 (0x100 + i) r.1.up d else d) := .ite (.raise (.refl _ _ d)) (.refl _ _ d)
  unfold routeTold
  exact .ite (hraise.trans (sendMsg_reaches _ _ _ _ _ (by decide))) hraise

theorem routeTold_raised (all : Bool) (r : YRoute × Bool) (h : r.2 = true) (d : Dev) :
    raised (routeTold all i r d) 0x6002 (0x100 + i) = true := by
  simp only [routeTold, h, Bool.true_or, if_true]
  exact (sendMsg_raised ..).trans (raised_raise ..)

theorem routeTold_yard {α : Type} (v : YardS → α) (hv : ∀ m q t c y, v (msgBooks m q t c y) = v y) (all : Bool) (r : YRoute × Bool) (d : Dev) :
    v (routeTold all i r d).yard = v d.yard := by
  have hy : (if r.2 then raise 0x6002 (0x100 + i) r.1.up d else d).yard = d.yard := by split <;> rfl
  unfold routeTold
  dsimp only
  split
  · rw [sendMsg_yard _ _ _ _ v hv, hy]
  · rw [hy]

theorem routeEntered_reaches (all : Bool) (i : Nat) (r : YRoute × Bool) (d : Dev) :
    Reaches [.yard] (isNodeOrLink i) d (routeEntered all i r d) :=
  (((routeShown_reaches _ i r.1 d).trans ((publishLink_reaches _ i _).weaken (fun _ _ h => .inr h))).modYard (by decide) _).trans
    (routeTold_reaches _ all i r _)

theorem linkPublished_yard (i : Nat) (r : YRoute) (d : Dev) : (publishLink i (routeShown i r d)).yard = d.yard :=
  ((publishLink_reaches [] i _).parts .yard (by simp)).trans ((routeShown_reaches [] i r d).parts .yard (by simp))

theorem routeEntered_routes (all : Bool) (r : YRoute × Bool) (d : Dev) :
    (routeEntered all i r d).yard.routes = alSet d.yard.routes (0x100 + i) r.1 := by
  refine (routeTold_yard YardS.routes (fun _ _ _ _ _ => rfl) all r _).trans ?_
  show alSet (publishLink i (routeShown i r.1 d)).yard.routes (0x100 + i) r.1 = _
  rw [linkPublished_yard]

theorem routeEntered_at (all : Bool) (r : YRoute × Bool) (d : Dev) : (routeEntered all i r d).yard.routeAt = d.yard.routeAt := by
  refine (routeTold_yard YardS.routeAt (fun _ _ _ _ _ => rfl) all r _).trans ?_
  show (publishLink i (routeShown i r.1 d)).yard.routeAt = _
  rw [linkPublished_yard]

theorem on_routeEntered {sub : Nat} (hs : sub < 256) (all : Bool) (r : YRoute × Bool) (d : Dev) :
    on (routeEntered all i r d) (yNode i) sub = on (routeShown i r.1 d) (yNode i) sub :=
  ((routeTold_reaches (fun _ _ => False) all i r _).on_eq hs (counted_oYard ..) (fun h => h)).trans
    ((publishLink_reaches [] i _).on_eq hs (counted_oYard ..) (fun h => absurd (oYard_inj (by decide) (by decide) h).2 (by decide)))

theorem on_routeShown_hops (r : YRoute) (d : Dev) : on (routeShown i r d) (yNode i) 6 = r.hops := by
  unfold routeShown
  rw [on_put_other _ _ _ _ _ _ (by unfold okey; omega), on_put_other _ _ _ _ _ _ (by unfold okey; omega),
    on_put_other _ _ _ _ _ _ (by unfold okey; omega), on_put_same]

theorem on_routeShown_up (r : YRoute) (d : Dev) : on (routeShown i r d) (yNode i) 7 = r.up := by
  unfold routeShown
  rw [on_put_other _ _ _ _ _ _ (by unfold okey; omega), on_put_other _ _ _ _ _ _ (by unfold okey; omega), on_put_same]

/-- What the turn of node i leaves to the others. -/
structure RouteKept (i : Nat) (d e : Dev) : Prop where
  reach : Reaches [.yard] (isNodeOrLink i) d e
  routes : ∀ a, a ≠ 0x100 + i → alGet e.yard.routes a = alGet d.yard.routes a
  routeAt : e.yard.routeAt = d.yard.routeAt

theorem routeTurn_kept (links : List YLink) (held : List (Nat × YRoute)) (all : Bool) (i : Nat) (d : Dev) :
    RouteKept i d (routeTurn links held all i d) := by
  unfold routeTurn
  split
  · exact ⟨.refl _ _ d, fun _ _ => rfl, rfl⟩
  · refine ⟨routeEntered_reaches .., fun a ha => ?_, routeEntered_at ..⟩
    rw [routeEntered_routes]
    exact alGet_alSet_other _ _ (Ne.symm ha)

/-- The route of a node is held and shown, and has its event where it changed. -/
def RouteEntered (i : Nat) (r : YRoute × Bool) (e : Dev) : Prop :=
  alGet e.yard.routes (0x100 + i) = some r.1 ∧ on e (yNode i) 6 = r.1.hops ∧ on e (yNode i) 7 = r.1.up ∧
    (r.2 = true → raised e 0x6002 (0x100 + i) = true)

theorem routeEntered_entered (all : Bool) (i : Nat) (r : YRoute × Bool) (d : Dev) : RouteEntered i r (routeEntered all i r d) :=
  ⟨by rw [routeEntered_routes, alGet_alSet_same], (on_routeEntered (by decide) ..).trans (on_routeShown_hops ..),
    (on_routeEntered (by decide) ..).trans (on_routeShown_up ..), fun h => routeTold_raised all r h _⟩

theorem RouteEntered.keep {a : Nat} {r : YRoute × Bool} (h : RouteEntered i r d) (hne : a ≠ i) (k : RouteKept a d e) : RouteEntered i r e := by
  obtain ⟨hr, h6, h7, hev⟩ := h
  have hno : ∀ sub, ¬isNodeOrLink a (yNode i) sub := fun sub hn => by
    rcases hn with hn | hn
    · exact hne (oYard_inj (by decide) (by decide) hn).1.symm
    · exact absurd (oYard_inj (by decide) (by decide) hn).2 (by decide)
  exact ⟨(k.routes _ (by omega)).trans hr, (k.reach.on_eq (by decide) (counted_oYard ..) (hno _)).trans h6,
    (k.reach.on_eq (by decide) (counted_oYard ..) (hno _)).trans h7, fun hr2 => k.reach.raised _ _ _ (hev hr2)⟩

theorem routesComputed_reaches (d : Dev) : Reaches [.yard] (fun _ _ => True) d (routesComputed d) :=
  .forEach (fun a _ x => (routeTurn_kept _ _ _ a x).reach.weaken (fun _ _ _ => trivial)) ((Reaches.refl _ _ d).modYard (by decide) _)

theorem routesComputed_at (d : Dev) : (routesComputed d).yard.routeAt = bpn d := by
  have hfirst : (routesFrom d).yard.routeAt = bpn d := rfl
  unfold routesComputed
  exact forEach_keeps (P := fun x => x.yard.routeAt = bpn d) (fun a _ x hx => (routeTurn_kept _ _ _ a x).routeAt.trans hx) hfirst

theorem routesComputed_entered {p : PathC} (hi : i ∈ associated d) (hp : upFound (graphOf d) i = some p) :
    RouteEntered i (routeFound (graphOf d) d.yard.routes i p (alGet d.yard.routes (0x100 + i))) (routesComputed d) := by
  refine forEach_turn (P := fun x => alGet x.yard.routes (0x100 + i) = alGet d.yard.routes (0x100 + i)) (associated_nodup d) hi
    (fun a _ hne x hx => ((routeTurn_kept _ _ _ a x).routes _ (by omega)).trans hx) (fun a _ hne x hx => hx.keep hne (routeTurn_kept _ _ _ a x))
    (fun x hx => ?_) rfl
  have hturn : routeTurn (graphOf d) d.yard.routes d.yard.sendAll i x =
      routeEntered d.yard.sendAll i (routeFound (graphOf d) d.yard.routes i p (alGet d.yard.routes (0x100 + i))) x := by
    unfold routeTurn
    rw [hp, hx]
  rw [hturn]
  exact routeEntered_entered ..

end

section

variable {s : State}

theorem routeComputation_early (h : bpn s.dev < s.dev.yard.routeAt + on s.dev 0x3100 6) : Completes .routeComputation s (Framed [] [] s.dev) := by
  have hearly : routeComputation (fresh s) = fresh s :=
    if_pos (by rw [show decide (bpn (fresh s) < (fresh s).yard.routeAt + on (fresh s) 0x3100 6) = true from decide_eq_true h, Bool.or_true])
  have hx : ifRun routeComputation (fresh s) = fresh s := by
    unfold ifRun
    rw [hearly, ite_self]
  refine act_completes (f := ifRun routeComputation) rfl (fun e he => ?_)
  rw [hx] at he
  exact .of_fresh ((Framed.refl _ _ _).follow he)

theorem routeComputation_computes (ho : yardOn s.dev = true) (ha : isActive s.dev = true)
    (hd : s.dev.yard.routeAt + on s.dev 0x3100 6 ≤ bpn s.dev) : Completes .routeComputation s (fun e =>
      (∀ i p, i ∈ associated s.dev → upFound (graphOf s.dev) i = some p →
        RouteEntered i (routeFound (graphOf s.dev) s.dev.yard.routes i p (alGet s.dev.yard.routes (0x100 + i))) e) ∧
        e.yard.sendAll = false ∧ e.yard.routeAt = bpn s.dev ∧ OnlyParts [.yard] s.dev e ∧ e.os.pend = s.dev.os.pend) := by
  have hx : ifRun routeComputation (fresh s) = modYard (fun y => { y with sendAll := false }) (routesComputed (fresh s)) :=
    (if_pos (running_of_yardOn ho)).trans (routeComputation_due (d := fresh s) ho ha hd)
  have hreach : Reaches [.yard] (fun _ _ => True) s.dev (routesComputed (fresh s)) := .of_fresh (routesComputed_reaches (fresh s))
  have hat : (routesComputed (fresh s)).yard.routeAt = bpn (fresh s) := routesComputed_at (fresh s)
  have hin := fun i p hi hp => routesComputed_entered (d := fresh s) (i := i) (p := p) hi hp
  refine act_completes (f := ifRun routeComputation) rfl (fun e he => ?_)
  rw [hx] at he
  generalize routesComputed (fresh s) = x at he hreach hat hin
  have hyard : e.yard = { x.yard with sendAll := false } := he.part .yard
  refine ⟨fun i p hi hp => ?_, by rw [hyard], by rw [hyard]; exact hat, ((hreach.modYard (by decide) _).follow he).only⟩
  obtain ⟨hr, h6, h7, hev⟩ := hin i p hi hp
  exact ⟨by rw [hyard]; exact hr, (he.on_of_not_counted (by decide) (counted_oYard ..)).trans h6,
    (he.on_of_not_counted (by decide) (counted_oYard ..)).trans h7, fun h2 => he.raised _ _ _ (hev h2)⟩

end

/-- Settles O44: routes, lost nodes, and points that go stale or are refreshed. -/
theorem yardUpkeep : Obligations.YardUpkeep := by
  unfold Obligations.YardUpkeep
  intro s ho
  exact ⟨fun _ h => routeComputation_early h, fun ha hd => routeComputation_computes ho ha hd, fun i hi hn hm => yardNodeLost_loses ho hi hn hm,
    fun i j b hi hj hb ha => yardPointStale_marks ho hi hj hb ha, fun hs hd => yardPointRefresh_refreshes hs hd⟩

end Sys2Proof

/-! Messages of the yard's nodes, each of which acts on the node that sent it (R401, R407 to R409, R413). -/

namespace Sys2Proof

open Machine

theorem counted_yNode (i sub : Nat) : counted (yNode i) sub = false := counted_oYard i 0 sub

/-! ### The oldest message of a type -/

section

variable {d : Dev} {m : YMsg} {i : Nat}

/-- A message has been taken. -/
def msgTaken (m : YMsg) : Dev → Dev := modYard (fun y => { y with inbox := y.inbox.erase m })

theorem takeMsg_front {t : Nat} (h : d.yard.inbox.find? (fun x => x.mtype == t) = some m) : takeMsg t d = some (m, msgTaken m d) := by
  unfold takeMsg
  rw [h]
  rfl

theorem msgTaken_reaches {ps : List Part} {K : Nat → Nat → Prop} (hp : .yard ∈ ps) (m : YMsg) (d : Dev) : Reaches ps K d (msgTaken m d) :=
  (Reaches.refl _ _ d).modYard hp _

theorem nodeIdx_eq {a : Nat} (h : nodeIdx a = some i) : a = 0x100 + i ∧ i < 512 := by
  unfold nodeIdx at h
  split at h
  case isTrue hr =>
    have hi := Option.some.inj h
    omega
  case isFalse => exact absurd h (by simp)

/-! ### A node is heard, and joins -/

theorem heard_node {a : Nat} (h : nodeIdx a = some i) : heard a d = if on d (yNode i) 10 = 0 then d else put (yNode i) 10 0 d := by
  unfold heard
  rw [h]

theorem heard_reaches {a : Nat} (ps : List Part) (h : nodeIdx a = some i) (d : Dev) :
    Reaches ps (fun num sub => num = yNode i ∧ sub = 10) d (heard a d) := by
  rw [heard_node h]
  exact .ite (.refl _ _ d) (.put_low (by decide) ⟨rfl, rfl⟩ (.refl _ _ d))

theorem on_heard {a : Nat} (h : nodeIdx a = some i) : on (heard a d) (yNode i) 10 = 0 := by
  rw [heard_node h]
  split
  case isTrue h0 => exact h0
  case isFalse => exact on_put_same ..

/-- The node's objects as it joins. -/
def nodeEntered (i : Nat) (serial : Bytes) (d : Dev) : Dev :=
  put (yNode i) 10 0 (putb (yNode i) 3 serial (put (yNode i) 2 2 (put (yNode i) 1 (0x100 + i) d)))

/-- Objects of a node. -/
def isNodeObj (i num _sub : Nat) : Prop := num = yNode i

theorem nodeEntered_reaches (ps : List Part) (i : Nat) (serial : Bytes) (d : Dev) : Reaches ps (isNodeObj i) d (nodeEntered i serial d) :=
  .put_low (by decide) rfl (.putb_low (by decide) rfl (.put_low (by decide) rfl (.put_low (by decide) rfl (.refl _ _ d))))

theorem nodeJoins_eq (i : Nat) (serial : Bytes) (d : Dev) :
    nodeJoins i serial d = modYard (fun y => { y with since := alSet y.since (0x100 + i) (bpn d) }) (nodeEntered i serial d) :=
  rfl

theorem nodeJoins_reaches (i : Nat) (serial : Bytes) (d : Dev) : Reaches [.yard] (isNodeObj i) d (nodeJoins i serial d) := by
  rw [nodeJoins_eq]
  exact (nodeEntered_reaches _ i serial d).modYard (by decide) _

/-- A node joins: of the yard, only since when it is associated differs. -/
theorem nodeJoins_yard {α : Type} (v : YardS → α) (hv : ∀ l y, v { y with since := l } = v y) (i : Nat) (serial : Bytes) (d : Dev) :
    v (nodeJoins i serial d).yard = v d.yard := by
  have hy : (nodeEntered i serial d).yard = d.yard := (nodeEntered_reaches [] i serial d).parts .yard (by simp)
  rw [nodeJoins_eq]
  exact (hv _ _).trans (congrArg v hy)

theorem on_nodeJoins_addr (serial : Bytes) : on (nodeJoins i serial d) (yNode i) 1 = 0x100 + i := by
  show on (nodeEntered i serial d) (yNode i) 1 = 0x100 + i
  unfold nodeEntered
  rw [on_put_other _ _ _ _ _ _ (by unfold okey; omega), on_putb_other _ _ _ _ _ _ (by unfold okey; omega),
    on_put_other _ _ _ _ _ _ (by unfold okey; omega), on_put_same]

theorem on_nodeJoins_state (serial : Bytes) : on (nodeJoins i serial d) (yNode i) 2 = 2 := by
  show on (nodeEntered i serial d) (yNode i) 2 = 2
  unfold nodeEntered
  rw [on_put_other _ _ _ _ _ _ (by unfold okey; omega), on_putb_other _ _ _ _ _ _ (by unfold okey; omega), on_put_same]

theorem ob_nodeJoins (serial : Bytes) : ob (nodeJoins i serial d) (yNode i) 3 = serial := by
  show valBytes (ov (nodeEntered i serial d) (yNode i) 3) = serial
  unfold nodeEntered
  rw [ov_put_other _ _ _ _ _ _ (by unfold okey; omega), ov_putb_same]
  rfl

/-! ### ASSOC_REQ (R407, R408) -/

/-- A binding is kept, or made. -/
def bindingMade (serial : Bytes) (addr : Nat) (d : Dev) : Dev :=
  if (bindings d).any (fun p => p.1 == serial) then d else putBindings (bindings d ++ [(serial, addr)]) d

theorem bindingMade_reaches (ps : List Part) (serial : Bytes) (addr : Nat) (d : Dev) :
    Reaches ps (fun num _ => num = 0x3102 ∨ num = 0x3104) d (bindingMade serial addr d) := by
  unfold bindingMade
  exact .ite (.refl _ _ d) (.put_low (by decide) (.inl rfl) (.putb_low (by decide) (.inr rfl) (.refl _ _ d)))

/-- The node that asked joins, with its binding, model and version. -/
def assocJoined (m : YMsg) (addr i : Nat) (d : Dev) : Dev :=
  put (yNode i) 5 (fieldLe m.body 20 4) (put (yNode i) 4 (fieldLe m.body 16 4)
    (nodeJoins i (slice m.body 0 16) (bindingMade (slice m.body 0 16) addr d)))

/-- The address with which an ASSOC_REQ is answered. -/
def assocAddr (m : YMsg) (d : Dev) : Nat :=
  if assocResult d (slice m.body 0 16) (slice m.body 28 16) = 0 then (bindAddr d (slice m.body 0 16)).getD 0xFFFE else 0xFFFE

/-- The neighbour by which the answer goes. -/
def assocVia (m : YMsg) (d : Dev) : Dev :=
  modYard (fun y => { y with
    assoc := y.assoc + 1
    via := alSet y.via (if assocResult d (slice m.body 0 16) (slice m.body 28 16) = 0 then assocAddr m d else m.src) m.lsrc }) d

/-- The body of ASSOC_RSP: the key, wrapped, where the node may join. -/
def assocBody (m : YMsg) (d : Dev) : Bytes :=
  let serial := slice m.body 0 16
  let res := assocResult d serial (slice m.body 28 16)
  let wrap := (Config.keyWrap (yardInstKey d serial) (yardNetKey d ++ natLe 4 (gen d 9) ++ List.replicate 12 0)).take 40
  serial ++ natLe 2 (assocAddr m d) ++ natLe 1 res ++ natLe 1 0 ++
    (if res = 0 then wrap ++ List.replicate (40 - wrap.length) 0 else List.replicate 40 0)

/-- An ASSOC_REQ is answered. -/
def assocAnswered (m : YMsg) (d : Dev) : Dev :=
  sendMsg 2 (if m.src = 0xFFFE then assocAddr m d else m.src) (assocBody m d) true (assocVia m d)

/-- What an answered ASSOC_REQ leads to. -/
def assocEnded (m : YMsg) (addr : Nat) (res : Nat) (at? : Option Nat) (d : Dev) : Dev :=
  match res, at? with
  | 0, some i => raise 0x6001 addr 0 (incr 32 0x3106 1 (assocJoined m addr i d))
  | r, _ => raise 0x6203 noInst r d

theorem assocReq_answers (ho : yardOn d = true) (ha : isActive d = true) (hn : d.yard.assoc < 16)
    (hm : d.yard.inbox.find? (fun x => x.mtype == 1) = some m) (hl : m.body.length = 44) (hz : fieldLe m.body 26 2 = 0)
    (hk : addrOk (fieldLe m.body 24 2) = true) :
    assocReq d = assocEnded m (assocAddr m d) (assocResult d (slice m.body 0 16) (slice m.body 28 16)) (nodeIdx (assocAddr m d))
      (assocAnswered m (msgTaken m d)) := by
  unfold assocReq
  rw [if_neg (by simp [ho]; omega), takeMsg_front hm]
  dsimp only
  rw [if_neg (by simp [hl, hz, hk]), if_neg (by rw [show isActive (msgTaken m d) = isActive d from rfl, ha]; decide)]
  rfl

theorem assocAnswered_reaches (K : Nat → Nat → Prop) (m : YMsg) (d : Dev) : Reaches [.yard] K d (assocAnswered m d) :=
  ((Reaches.refl _ _ d).modYard (by decide) _).trans (sendMsg_reaches _ _ _ _ _ (by decide))

theorem assocAnswered_inbox (m : YMsg) (d : Dev) : (assocAnswered m d).yard.inbox = d.yard.inbox :=
  sendMsg_yard _ _ _ _ YardS.inbox (fun _ _ _ _ _ => rfl)

theorem assocAnswered_assoc (m : YMsg) (d : Dev) : (assocAnswered m d).yard.assoc = d.yard.assoc + 1 :=
  sendMsg_yard _ _ _ _ YardS.assoc (fun _ _ _ _ _ => rfl)

/-- The objects of a node that joins, and of the bindings. -/
def isJoinObj (i num _sub : Nat) : Prop := num = yNode i ∨ num = 0x3102 ∨ num = 0x3104

theorem assocJoined_reaches (m : YMsg) (addr i : Nat) (d : Dev) : Reaches [.yard] (isJoinObj i) d (assocJoined m addr i d) :=
  .put_low (by decide) (.inl rfl) (.put_low (by decide) (.inl rfl)
    (((bindingMade_reaches _ _ addr d).weaken (fun _ _ h => .inr h)).trans ((nodeJoins_reaches i _ _).weaken (fun _ _ h => .inl h))))

/-- The last fields of a node as it joins. -/
theorem assocJoined_last (ps : List Part) (m : YMsg) (addr i : Nat) (d : Dev) :
    Reaches ps (fun num sub => num = yNode i ∧ (sub = 4 ∨ sub = 5)) (nodeJoins i (slice m.body 0 16) (bindingMade (slice m.body 0 16) addr d))
      (assocJoined m addr i d) :=
  .put_low (by decide) ⟨rfl, .inr rfl⟩ (.put_low (by decide) ⟨rfl, .inl rfl⟩ (.refl _ _ _))

theorem assocJoined_yard {α : Type} (v : YardS → α) (hv : ∀ l y, v { y with since := l } = v y) (m : YMsg) (addr i : Nat) (d : Dev) :
    v (assocJoined m addr i d).yard = v d.yard := by
  have hb : (bindingMade (slice m.body 0 16) addr d).yard = d.yard := (bindingMade_reaches [] _ addr d).parts .yard (by simp)
  rw [(assocJoined_last [] m addr i d).parts .yard (by simp), nodeJoins_yard v hv, hb]

theorem on_assocJoined_addr (m : YMsg) (addr : Nat) : on (assocJoined m addr i d) (yNode i) 1 = 0x100 + i :=
  ((assocJoined_last [] m addr i d).on_eq (by decide) (counted_oYard ..) (by simp)).trans (on_nodeJoins_addr _)

theorem nodeState_assocJoined (m : YMsg) (addr : Nat) : nodeState (assocJoined m addr i d) i = 2 :=
  ((assocJoined_last [] m addr i d).on_eq (by decide) (counted_oYard ..) (by simp)).trans (on_nodeJoins_state _)

theorem ob_assocJoined (m : YMsg) (addr : Nat) : ob (assocJoined m addr i d) (yNode i) 3 = slice m.body 0 16 :=
  ((assocJoined_last [] m addr i d).ob_eq (by decide) (counted_oYard ..) (by simp)).trans (ob_nodeJoins _)

/-- What every end of an ASSOC_REQ leaves alone. -/
theorem assocEnded_reaches (m : YMsg) (addr res : Nat) (at? : Option Nat) (d : Dev) :
    Reaches [.yard] (fun _ _ => True) d (assocEnded m addr res at? d) := by
  unfold assocEnded
  split
  · exact (((assocJoined_reaches m addr _ d).weaken (fun _ _ _ => trivial)).incr_low (by decide) trivial).raise
  · exact .raise (.refl _ _ d)

/-- The node's count goes on, and its event is raised. -/
def assocCounted (addr : Nat) (d : Dev) : Dev := raise 0x6001 addr 0 (incr 32 0x3106 1 d)

theorem assocCounted_reaches (ps : List Part) (addr : Nat) (d : Dev) :
    Reaches ps (fun num sub => num = 0x3106 ∧ sub = 1) d (assocCounted addr d) :=
  ((Reaches.refl _ _ d).incr_low (by decide) ⟨rfl, rfl⟩).raise

theorem on_assocCounted (addr : Nat) (d : Dev) : on (assocCounted addr d) 0x3106 1 = incSat 32 (on d 0x3106 1) := by
  rw [assocCounted, on_raise, on_incr_same]

theorem assocEnded_yard {α : Type} (v : YardS → α) (hv : ∀ l y, v { y with since := l } = v y) (m : YMsg) (addr res : Nat)
    (at? : Option Nat) (d : Dev) : v (assocEnded m addr res at? d).yard = v d.yard := by
  unfold assocEnded
  split
  case h_1 i =>
    rw [show (raise 0x6001 addr 0 (incr 32 0x3106 1 (assocJoined m addr i d))).yard = (assocJoined m addr i d).yard from
      (assocCounted_reaches [] addr _).parts .yard (by simp), assocJoined_yard v hv]
  case h_2 => exact congrArg v ((raise_follows ..).part .yard)

end

section

variable {s : State} {m : YMsg} (ho : yardOn s.dev = true)

/-- The message is the oldest of its type. -/
def Front (d : Dev) (t : Nat) (m : YMsg) : Prop := d.yard.inbox.find? (fun x => x.mtype == t) = some m

/-- Only the yard differs, and the message is taken. -/
def TakesOnly (m : YMsg) (d e : Dev) : Prop := OnlyParts [.yard] d e ∧ e.os.pend = d.os.pend ∧ e.yard.inbox = d.yard.inbox.erase m

include ho

theorem assocReq_completes (hm : Front s.dev 1 m) (ha : isActive s.dev = true) (hn : s.dev.yard.assoc < 16) (hl : m.body.length = 44)
    (hz : fieldLe m.body 26 2 = 0) (hk : addrOk (fieldLe m.body 24 2) = true) : Completes .assocReq s (fun e => TakesOnly m s.dev e ∧
      (∀ addr i, assocResult s.dev (slice m.body 0 16) (slice m.body 28 16) = 0 → bindAddr s.dev (slice m.body 0 16) = some addr →
        nodeIdx addr = some i →
        raised e 0x6001 addr = true ∧ on e (yNode i) 1 = addr ∧ nodeState e i = 2 ∧ ob e (yNode i) 3 = slice m.body 0 16 ∧
          on e 0x3106 1 = incSat 32 (on s.dev 0x3106 1) ∧ e.yard.assoc = s.dev.yard.assoc + 1) ∧
      (assocResult s.dev (slice m.body 0 16) (slice m.body 28 16) ≠ 0 →
        raised e 0x6203 noInst = true ∧ (∀ i, nodeState e i = nodeState s.dev i) ∧ bindings e = bindings s.dev)) := by
  have hx : ifRun assocReq (fresh s) = assocEnded m (assocAddr m s.dev) (assocResult s.dev (slice m.body 0 16) (slice m.body 28 16))
      (nodeIdx (assocAddr m s.dev)) (assocAnswered m (msgTaken m (fresh s))) :=
    (if_pos (running_of_yardOn ho)).trans (assocReq_answers (d := fresh s) ho ha hn hm hl hz hk)
  have hres : ∀ K, Reaches [.yard] K s.dev (assocAnswered m (msgTaken m (fresh s))) := fun K =>
    .of_fresh ((msgTaken_reaches (by decide) m (fresh s)).trans (assocAnswered_reaches K m _))
  have hin : (assocAnswered m (msgTaken m (fresh s))).yard.inbox = s.dev.yard.inbox.erase m := assocAnswered_inbox m (msgTaken m (fresh s))
  have has : (assocAnswered m (msgTaken m (fresh s))).yard.assoc = s.dev.yard.assoc + 1 := assocAnswered_assoc m (msgTaken m (fresh s))
  refine act_completes (f := ifRun assocReq) rfl (fun e he => ?_)
  rw [hx] at he
  generalize assocAnswered m (msgTaken m (fresh s)) = x at he hres hin has
  have hyard : e.yard = (assocEnded m (assocAddr m s.dev) (assocResult s.dev (slice m.body 0 16) (slice m.body 28 16))
      (nodeIdx (assocAddr m s.dev)) x).yard := he.part .yard
  have honly := (((hres _).trans (assocEnded_reaches m _ _ _ x)).follow he).only
  refine ⟨⟨honly.1, honly.2, ?_⟩, fun addr i h0 hb hi => ?_, fun hne => ?_⟩
  · rw [hyard, assocEnded_yard YardS.inbox (fun _ _ => rfl), hin]
  · obtain ⟨haddr, hi512⟩ := nodeIdx_eq hi
    have hat : assocAddr m s.dev = addr := by rw [assocAddr, if_pos h0, hb]; rfl
    have hassoc : e.yard.assoc = s.dev.yard.assoc + 1 := by rw [hyard, assocEnded_yard YardS.assoc (fun _ _ => rfl), has]
    rw [h0, hat, hi] at he
    change Follows (assocCounted addr (assocJoined m addr i x)) e at he
    have hcount := assocCounted_reaches [] addr (assocJoined m addr i x)
    have hno : ∀ sub, ¬(yNode i = 0x3106 ∧ sub = 1) := fun sub h => absurd h.1 (by unfold yNode oYard; omega)
    refine ⟨he.raised _ _ _ (raised_raise _ _ _ _), ?_, ?_, ?_, ?_, hassoc⟩
    · rw [he.on_of_not_counted (by decide) (counted_yNode ..), hcount.on_eq (by decide) (counted_yNode ..) (hno 1), on_assocJoined_addr, haddr]
    · rw [nodeState, he.on_of_not_counted (by decide) (counted_yNode ..), hcount.on_eq (by decide) (counted_yNode ..) (hno 2)]
      exact nodeState_assocJoined m addr
    · have hob : ob e (yNode i) 3 = ob (assocCounted addr (assocJoined m addr i x)) (yNode i) 3 :=
        (Reaches.of_follows (ps := []) (K := fun _ _ => False) he).ob_eq (by decide) (counted_oYard ..) (fun h => h)
      rw [hob, hcount.ob_eq (by decide) (counted_yNode ..) (hno 3), ob_assocJoined]
    · have hold : on (assocJoined m addr i x) 0x3106 1 = on s.dev 0x3106 1 :=
        ((assocJoined_reaches m addr i x).on_eq (by decide) (by decide)
          (by rintro (h | h | h) <;> simp [yNode, oYard] at h; omega)).trans ((hres (fun _ _ => False)).on_eq (by decide) (by decide) (fun h => h))
      rw [he.on_low (by decide) (by decide), on_assocCounted, hold]
  · obtain ⟨r, hr⟩ := Nat.exists_eq_succ_of_ne_zero hne
    rw [hr] at he
    change Follows (raise 0x6203 noInst (r + 1) x) e at he
    have hsame : Reaches [.yard] (fun _ _ => False) s.dev e := ((hres _).raise).follow he
    refine ⟨he.raised _ _ _ (raised_raise _ _ _ _), fun i => hsame.on_eq (by decide) (counted_oYard ..) (fun h => h), ?_⟩
    rw [bindings, bindings, hsame.ob_eq (by decide) (by decide) (fun h => h)]

/-! ### HELLO (R412) -/

theorem helloMessage_completes {i : Nat} (hm : Front s.dev 3 m) (hi : nodeIdx m.src = some i) (hn : nodeState s.dev i = 2)
    (hl : m.body.length = 16) (hz : byteAt m.body 15 = 0) : Completes .helloMessage s (fun e =>
      on e (yNode i) 8 = fieldLe m.body 12 2 ∧ on e (yNode i) 10 = 0 ∧ TakesOnly m s.dev e ∧
        SameObjects [(yNode i, 8), (yNode i, 10)] s.dev e) := by
  have hx : ifRun helloMsg (fresh s) = put (yNode i) 8 (fieldLe m.body 12 2) (heard m.src (msgTaken m (fresh s))) := by
    refine (if_pos (running_of_yardOn ho)).trans ?_
    unfold helloMsg
    rw [takeMsg_front (d := fresh s) hm]
    dsimp only
    rw [hi]
    exact if_pos (by
      rw [show yardOn (msgTaken m (fresh s)) = true from ho, show nodeState (msgTaken m (fresh s)) i = 2 from hn, hl, hz]
      rfl)
  have hreach : Reaches [.yard] (fun num sub => (num, sub) ∈ [(yNode i, 8), (yNode i, 10)]) s.dev (heard m.src (msgTaken m (fresh s))) :=
    .of_fresh ((msgTaken_reaches (by decide) m (fresh s)).trans ((heard_reaches _ hi _).weaken (fun num sub h => by simp [h])))
  have hyard : (heard m.src (msgTaken m (fresh s))).yard = (msgTaken m (fresh s)).yard := (heard_reaches [] hi _).parts .yard (by simp)
  have hheard : on (heard m.src (msgTaken m (fresh s))) (yNode i) 10 = 0 := on_heard hi
  refine act_completes (f := ifRun helloMsg) rfl (fun e he => ?_)
  rw [hx] at he
  generalize heard m.src (msgTaken m (fresh s)) = x at he hreach hyard hheard
  have hlast : Reaches [] (fun num sub => num = yNode i ∧ sub = 8) x e := .follow (.put_low (by decide) ⟨rfl, rfl⟩ (.refl _ _ x)) he
  have hframe := (hreach.trans ((hlast.mono (by simp)).weaken (fun num sub h => by simp [h]))).framed
  refine ⟨(he.on_of_not_counted (by decide) (counted_yNode ..)).trans (on_put_same ..),
    (hlast.on_eq (by decide) (counted_yNode ..) (by simp)).trans hheard, ⟨hframe.1, hframe.2.2, ?_⟩, hframe.2.1⟩
  rw [hlast.parts .yard (by simp), hyard]
  rfl

/-! ### NEIGH_REPORT (R409) -/

omit ho in
theorem nodeFound_reaches (a : Nat) (d : Dev) : Reaches [.yard] (fun _ _ => True) d (nodeFound a d) := by
  unfold nodeFound
  split
  · exact .ite ((nodeJoins_reaches _ _ d).weaken (fun _ _ _ => trivial)) (.refl _ _ d)
  · exact .refl _ _ d

omit ho in
theorem nodeFound_yard {α : Type} (v : YardS → α) (hv : ∀ l y, v { y with since := l } = v y) (a : Nat) (d : Dev) :
    v (nodeFound a d).yard = v d.yard := by
  unfold nodeFound
  split
  · split
    · exact nodeJoins_yard v hv _ _ d
    · rfl
  · rfl

/-- The links that a NEIGH_REPORT names. -/
def linksTo (m : YMsg) : List YLink := (List.range (byteAt m.body 0)).map (fun k =>
  let e := slice m.body (4 + 8 * k) 8
  { src := fieldLe e 0 2, dst := m.src, cost := fieldLe e 2 2, rate := fieldLe e 4 2, err := byteAt e 6 })

/-- The links toward a node, replaced. -/
def linksReported (m : YMsg) (y : YardS) : YardS := { y with links := y.links.filter (fun l => l.dst != m.src) ++ linksTo m }

omit ho in
theorem linksReported_own (m : YMsg) (y : YardS) : (linksReported m y).links.filter (fun l => l.dst == m.src) = linksTo m := by
  have hall : ∀ l ∈ linksTo m, (l.dst == m.src) = true := fun l hl => by
    obtain ⟨k, _, rfl⟩ := List.mem_map.1 hl
    exact beq_self_eq_true _
  show (y.links.filter (fun l => l.dst != m.src) ++ linksTo m).filter _ = _
  rw [List.filter_append, List.filter_filter, List.filter_eq_self.2 hall, List.filter_eq_nil_iff.2 (fun l _ => by simp [bne]), List.nil_append]

omit ho in
theorem linksReported_others (m : YMsg) (y : YardS) :
    (linksReported m y).links.filter (fun l => l.dst != m.src) = y.links.filter (fun l => l.dst != m.src) := by
  have hnone : ∀ l ∈ linksTo m, ¬(l.dst != m.src) = true := fun l hl => by
    obtain ⟨k, _, rfl⟩ := List.mem_map.1 hl
    simp
  show (y.links.filter (fun l => l.dst != m.src) ++ linksTo m).filter _ = _
  rw [List.filter_append, List.filter_filter, List.filter_eq_nil_iff.2 hnone, List.append_nil]
  simp

theorem neighReport_completes (hm : Front s.dev 4 m) (hi : (nodeIdx m.src).isSome = true) (hn : byteAt m.body 0 ≤ 32)
    (hl : m.body.length = 4 + 8 * byteAt m.body 0) (hz : fieldLe m.body 1 3 = 0)
    (hk : ∀ k, k < byteAt m.body 0 → byteAt m.body (4 + 8 * k + 7) = 0 ∧ addrOk (fieldLe m.body (4 + 8 * k) 2) = true) :
    Completes .neighReport s (fun e =>
      (e.yard.links.filter (fun l => l.dst == m.src)).length = byteAt m.body 0 ∧
        e.yard.links.filter (fun l => l.dst != m.src) = s.dev.yard.links.filter (fun l => l.dst != m.src) ∧ TakesOnly m s.dev e) := by
  obtain ⟨i, hi⟩ := Option.isSome_iff_exists.1 hi
  have hclean : (List.range (byteAt m.body 0)).all (fun k => byteAt m.body (4 + 8 * k + 7) == 0 && addrOk (fieldLe m.body (4 + 8 * k) 2)) = true :=
    List.all_eq_true.2 (fun k hm => by
      obtain ⟨h0, ha⟩ := hk k (List.mem_range.1 hm)
      rw [h0, ha]
      rfl)
  have hx : ifRun neighReport (fresh s) = modYard (linksReported m) (nodeFound m.src (heard m.src (msgTaken m (fresh s)))) := by
    refine (if_pos (running_of_yardOn ho)).trans ?_
    unfold neighReport
    rw [takeMsg_front (d := fresh s) hm]
    dsimp only
    rw [if_neg (by rw [show yardOn (msgTaken m (fresh s)) = true from ho, hl, hz, hclean, hi]; simp [hn])]
    rfl
  have hheard : (heard m.src (msgTaken m (fresh s))).yard = (msgTaken m (fresh s)).yard := (heard_reaches [] hi _).parts .yard (by simp)
  have hreach : Reaches [.yard] (fun _ _ => True) s.dev (nodeFound m.src (heard m.src (msgTaken m (fresh s)))) :=
    .of_fresh (((msgTaken_reaches (by decide) m (fresh s)).trans ((heard_reaches _ hi _).weaken (fun _ _ _ => trivial))).trans (nodeFound_reaches _ _))
  have hlinks : (nodeFound m.src (heard m.src (msgTaken m (fresh s)))).yard.links = s.dev.yard.links := by
    rw [nodeFound_yard YardS.links (fun _ _ => rfl), hheard]
    rfl
  have hin : (nodeFound m.src (heard m.src (msgTaken m (fresh s)))).yard.inbox = s.dev.yard.inbox.erase m := by
    rw [nodeFound_yard YardS.inbox (fun _ _ => rfl), hheard]
    rfl
  refine act_completes (f := ifRun neighReport) rfl (fun e he => ?_)
  rw [hx] at he
  generalize nodeFound m.src (heard m.src (msgTaken m (fresh s))) = x at he hreach hlinks hin
  have hyard : e.yard = linksReported m x.yard := he.part .yard
  have honly := ((hreach.modYard (by decide) (linksReported m)).follow he).only
  refine ⟨?_, ?_, honly.1, honly.2, by rw [hyard]; exact hin⟩
  · rw [hyard, linksReported_own, linksTo, List.length_map, List.length_range]
  · rw [hyard, linksReported_others, hlinks]

/-! ### TM_UPDATE (R392) -/

/-- The maps that a TM_UPDATE brings. -/
def mapsOf (m : YMsg) : TmSet := ⟨byteAt m.body 1, byteAt m.body 2, (List.range 6).map (fun q => slice m.body (4 + 701 * q) 701)⟩

/-- A version of a set, replaced and in use. -/
def versionSet (v : Nat) (t : TmSet) (p : TmPair) : TmPair :=
  if v = 0 then { p with v0 := some t, cur := some 0 } else { p with v1 := some t, cur := some 1 }

theorem tmUpdate_completes (hm : Front s.dev 7 m) (hv : byteAt m.body 0 ≤ 1)
    (hc : ((alGet s.dev.yard.tm m.src).getD {}).cur ≠ some (byteAt m.body 0)) (hl : m.body.length = 4210) (hz : byteAt m.body 3 = 0)
    (hk : tmOk (ob s.dev 0x3101 0) (mapsOf m) = true) : Completes .tmUpdate s (fun e =>
      (∃ p, alGet e.yard.tm m.src = some p ∧ p.cur = some (byteAt m.body 0) ∧
        (if byteAt m.body 0 = 0 then p.v0 else p.v1) = some (mapsOf m)) ∧ TakesOnly m s.dev e ∧ SameObjects [] s.dev e) := by
  let p := versionSet (byteAt m.body 0) (mapsOf m) ((alGet s.dev.yard.tm m.src).getD {})
  have hx : ifRun tmUpdate (fresh s) = modYard (fun y => { y with tm := alSet y.tm m.src p }) (msgTaken m (fresh s)) := by
    refine (if_pos (running_of_yardOn ho)).trans ?_
    unfold tmUpdate
    rw [takeMsg_front (d := fresh s) hm]
    dsimp only
    have hcur : (((alGet (msgTaken m (fresh s)).yard.tm m.src).getD {}).cur == some (byteAt m.body 0)) = false := beq_eq_false_iff_ne.2 hc
    rw [if_neg (by
      rw [show yardOn (msgTaken m (fresh s)) = true from ho, hcur, hl, hz, show tmOk (ob (msgTaken m (fresh s)) 0x3101 0) { rate := byteAt m.body 1, gi := byteAt m.body 2, maps := _ } = true from hk]
      simp [hv])]
    rfl
  have hp : p.cur = some (byteAt m.body 0) ∧ (if byteAt m.body 0 = 0 then p.v0 else p.v1) = some (mapsOf m) := by
    by_cases h0 : byteAt m.body 0 = 0
    · simp [p, versionSet, h0]
    · have h1 : byteAt m.body 0 = 1 := by omega
      simp [p, versionSet, h1]
  have hreach : Reaches [.yard] (fun num sub => (num, sub) ∈ ([] : List (Nat × Nat))) s.dev
      (modYard (fun y => { y with tm := alSet y.tm m.src p }) (msgTaken m (fresh s))) :=
    .of_fresh ((msgTaken_reaches (by decide) m (fresh s)).modYard (by decide) _)
  refine act_completes (f := ifRun tmUpdate) rfl (fun e he => ?_)
  rw [hx] at he
  have hyard : e.yard = { s.dev.yard with inbox := s.dev.yard.inbox.erase m, tm := alSet s.dev.yard.tm m.src p } := he.part .yard
  have hframe := (hreach.follow he).framed
  exact ⟨⟨p, by rw [hyard, alGet_alSet_same], hp⟩, ⟨hframe.1, hframe.2.2, by rw [hyard]⟩, hframe.2.1⟩

/-! ### POINT (R413) -/

omit ho in
theorem slice_slice {b : Bytes} {a n c k : Nat} (h : c + k ≤ n) : slice (slice b a n) c k = slice b (a + c) k := by
  unfold slice
  rw [List.drop_take, List.drop_drop, List.take_take]
  congr 1
  omega

omit ho in
theorem byteAt_slice {b : Bytes} {a n c : Nat} (h : c < n) : byteAt (slice b a n) c = byteAt b (a + c) := by
  unfold byteAt slice
  simp [List.getD, List.getElem?_drop, h]

/-- A value of a point has come in this beacon period. -/
def lastNow (i j : Nat) (d : Dev) : Dev := modYard (fun y => { y with ptLast := alSet y.ptLast (24 * i + j) (bpn d) }) d

/-- A value of a point is entered, as it comes. -/
def pointCome (i j v : Nat) (d : Dev) : Dev := put (yPoint i j) 3 0 (put (yPoint i j) 1 v (lastNow i j (put (yPoint i j) 2 1 d)))

omit ho in
theorem pointCome_reaches (i j v : Nat) (d : Dev) :
    Reaches [.yard] (fun num sub => (num, sub) ∈ [(yPoint i j, 1), (yPoint i j, 2), (yPoint i j, 3)]) d (pointCome i j v d) :=
  .put_low (by decide) (by simp) (.put_low (by decide) (by simp) (.modYard (by decide) (.put_low (by decide) (by simp) (.refl _ _ d)) _))

omit ho in
theorem pointCome_yard (i j v : Nat) (d : Dev) :
    (pointCome i j v d).yard = { d.yard with ptLast := alSet d.yard.ptLast (24 * i + j) (bpn d) } := by
  have hfirst : (put (yPoint i j) 2 1 d).yard = d.yard := (onlyParts_put _ _ _ d) .yard (by simp)
  have hlast : ∀ x, (put (yPoint i j) 3 0 (put (yPoint i j) 1 v x)).yard = x.yard := fun x =>
    ((onlyParts_put _ _ _ _) .yard (by simp)).trans ((onlyParts_put _ _ _ x) .yard (by simp))
  have hbpn : bpn (put (yPoint i j) 2 1 d) = bpn d := on_put_other _ _ _ _ _ _ (fun h => by
    have hnum := (okey_inj (by decide) (by decide) h).1
    unfold yPoint oYard at hnum
    omega)
  have hnow : ∀ x, (lastNow i j x).yard = { x.yard with ptLast := alSet x.yard.ptLast (24 * i + j) (bpn x) } := fun _ => rfl
  rw [pointCome, hlast, hnow, hfirst, hbpn]

omit ho in
theorem on_pointCome (i j v : Nat) (d : Dev) : on (pointCome i j v d) (yPoint i j) 1 = v ∧ on (pointCome i j v d) (yPoint i j) 2 = 1 ∧
    on (pointCome i j v d) (yPoint i j) 3 = 0 := by
  refine ⟨?_, ?_, on_put_same ..⟩
  · rw [pointCome, on_put_other _ _ _ _ _ _ (by unfold okey; omega), on_put_same]
  · rw [pointCome, on_put_other _ _ _ _ _ _ (by unfold okey; omega), on_put_other _ _ _ _ _ _ (by unfold okey; omega), lastNow, on_modYard, on_put_same]

theorem pointMessage_completes {i j : Nat} (hm : Front s.dev 8 m) (hi : nodeIdx m.src = some i) (hn : nodeState s.dev i = 2)
    (h1 : byteAt m.body 0 = 1) (hk : pointBodyOk m.body = true) (hj : byteAt m.body 4 = j) (h24 : j < 24) (hin : byteAt m.body 5 = 1) :
    Completes .pointMessage s (fun e =>
      on e (yPoint i j) 1 = fieldLe m.body 8 4 ∧ on e (yPoint i j) 2 = 1 ∧ on e (yPoint i j) 3 = 0 ∧
        alGet e.yard.ptLast (24 * i + j) = some (bpn s.dev) ∧ TakesOnly m s.dev e ∧
        SameObjects [(yPoint i j, 1), (yPoint i j, 2), (yPoint i j, 3)] s.dev e) := by
  have hx : ifRun pointMsg (fresh s) = pointCome i j (fieldLe m.body 8 4) (msgTaken m (fresh s)) := by
    refine (if_pos (running_of_yardOn ho)).trans ?_
    have hb0 : byteAt (slice m.body 4 8) 0 = j := (byteAt_slice (by decide)).trans hj
    have hb1 : byteAt (slice m.body 4 8) 1 = 1 := (byteAt_slice (by decide)).trans hin
    have hval : fieldLe (slice m.body 4 8) 4 4 = fieldLe m.body 8 4 := congrArg leNat (slice_slice (by decide))
    unfold pointMsg
    rw [takeMsg_front (d := fresh s) hm]
    dsimp only
    rw [hi]
    dsimp only
    rw [if_neg (by rw [show nodeState (msgTaken m (fresh s)) i = 2 from hn, hk]; decide), h1]
    simp only [forEach, List.range_one, List.foldl_cons, List.foldl_nil, Nat.mul_zero, Nat.add_zero, hb0, hb1, hval]
    rw [if_neg (by omega), if_pos trivial]
    rfl
  have hreach := pointCome_reaches i j (fieldLe m.body 8 4) (msgTaken m (fresh s))
  have hyard := pointCome_yard i j (fieldLe m.body 8 4) (msgTaken m (fresh s))
  obtain ⟨hv, hdir, hst⟩ := on_pointCome i j (fieldLe m.body 8 4) (msgTaken m (fresh s))
  have hstart := Reaches.of_fresh (msgTaken_reaches (K := fun num sub => (num, sub) ∈ [(yPoint i j, 1), (yPoint i j, 2), (yPoint i j, 3)])
    (ps := [.yard]) (by decide) m (fresh s))
  refine act_completes (f := ifRun pointMsg) rfl (fun e he => ?_)
  rw [hx] at he
  generalize pointCome i j (fieldLe m.body 8 4) (msgTaken m (fresh s)) = x at he hreach hyard hv hdir hst
  have hey : e.yard = x.yard := he.part .yard
  have hframe := ((hstart.trans hreach).follow he).framed
  have hon := fun sub (hs : sub < 256) => he.on_of_not_counted hs (counted_oYard i (8 + j) sub)
  refine ⟨(hon 1 (by decide)).trans hv, (hon 2 (by decide)).trans hdir, (hon 3 (by decide)).trans hst, ?_, ⟨hframe.1, hframe.2.2, ?_⟩, hframe.2.1⟩
  · rw [hey, hyard]
    exact alGet_alSet_same _ _ _
  · rw [hey, hyard]
    rfl

end

/-- Settles O43: the oldest message of each type acts on its node. -/
theorem yardMessages : Obligations.YardMessages := by
  unfold Obligations.YardMessages
  intro s m ho
  refine ⟨fun hm ha hn hl hz hk => assocReq_completes ho hm ha hn hl hz hk, fun i hm hi hn hl hz => helloMessage_completes ho hm hi hn hl hz,
    fun hm hi hn hl hz hk => neighReport_completes ho hm hi hn hl hz hk, ?_, fun i j hm hi hn h1 hk hj h24 hin =>
      pointMessage_completes ho hm hi hn h1 hk hj h24 hin⟩
  rintro t rfl hm hv hc hl hz hk
  exact tmUpdate_completes ho hm hv hc hl hz hk

end Sys2Proof

/-! The air of the yard: what a frame is made of, its way through ring 10, and the beacon periods (R396, R398 to R404, R420). -/

namespace Sys2Proof

open Machine

/-! ### What a frame on the air is made of -/

/-- Objects on which a frame on the air, its length, and the leave to send it hang. -/
def airObj (num sub : Nat) : Prop := num = 0x3100 ∨ num = 0x3101 ∨ num = 0x3103 ∧ sub = 2 ∨ num = 0x320A ∧ (sub = 1 ∨ sub = 7)

/-- Frames are made, and may be sent, in both alike. -/
structure SameAir (d e : Dev) : Prop where
  phase : e.phase = d.phase
  pair : e.pair = d.pair
  therm : e.therm = d.therm
  objs : ∀ num sub, sub < 256 → airObj num sub → ov e num sub = ov d num sub

theorem Reaches.air {ps : List Part} {K : Nat → Nat → Prop} {d e : Dev} (h : Reaches ps K d e)
    (hk : ∀ num sub, airObj num sub → ¬K num sub) (hp : .phase ∉ ps ∧ .pair ∉ ps ∧ .therm ∉ ps := by decide) : SameAir d e := by
  obtain ⟨hphase, hpair, htherm⟩ := hp
  refine ⟨h.parts .phase hphase, h.parts .pair hpair, h.parts .therm htherm, fun num sub hs ha => h.objs num sub hs ?_ (hk num sub ha)⟩
  rcases ha with rfl | rfl | ⟨rfl, rfl⟩ | ⟨rfl, rfl | rfl⟩
  · exact counted_of_lt _ (by decide)
  · exact counted_of_lt _ (by decide)
  · exact counted_of_lt _ (by decide)
  · decide
  · decide

namespace SameAir

variable {d e f : Dev}

theorem refl (d : Dev) : SameAir d d := ⟨rfl, rfl, rfl, fun _ _ _ _ => rfl⟩

theorem trans (h : SameAir d e) (k : SameAir e f) : SameAir d f :=
  ⟨k.phase.trans h.phase, k.pair.trans h.pair, k.therm.trans h.therm, fun num sub hs ha => (k.objs num sub hs ha).trans (h.objs num sub hs ha)⟩

theorem of_fresh {s : State} (h : SameAir (fresh s) e) : SameAir s.dev e := ⟨h.phase, h.pair, h.therm, h.objs⟩

theorem on_eq (h : SameAir d e) {num sub : Nat} (ha : airObj num sub) (hs : sub < 256 := by decide) : on e num sub = on d num sub :=
  congrArg valNat (h.objs num sub hs ha)

theorem mask (h : SameAir d e) : ob e 0x3101 0 = ob d 0x3101 0 := congrArg valBytes (h.objs _ _ (by decide) (.inr (.inl rfl)))

theorem hcOf_eq (h : SameAir d e) : hcOf e = hcOf d := h.on_eq (.inr (.inr (.inl ⟨rfl, rfl⟩)))

theorem yardPsd_eq (h : SameAir d e) : yardPsd e = yardPsd d := by
  rw [yardPsd, yardPsd, oi, oi, h.on_eq (.inl rfl), h.therm]

theorem basePhy_eq (h : SameAir d e) : basePhy e = basePhy d := by
  rw [basePhy, basePhy, baseBits, baseBits, h.mask]

theorem symsOf_eq (h : SameAir d e) (p : Phy) (start nseg : Nat) : symsOf e p start nseg = symsOf d p start nseg := by
  rw [symsOf, symsOf, h.hcOf_eq]

theorem airFrame_eq (h : SameAir d e) (psd : Int) (fh : Bytes) (gi : Nat) (syms : List (List (Nat × List Bool))) :
    airFrame e psd fh gi syms = airFrame d psd fh gi syms := by
  rw [airFrame, airFrame, h.mask]

theorem fhBytes_eq (h : SameAir d e) (kind ldst : Nat) (rest : Bytes) : fhBytes e kind ldst rest = fhBytes d kind ldst rest := by
  rw [fhBytes, fhBytes, h.on_eq (.inl rfl)]

theorem dataHeader_eq (h : SameAir d e) (kind ldst mapsel nseg nsym seq : Nat) :
    dataHeader e kind ldst mapsel nseg nsym seq = dataHeader d kind ldst mapsel nseg nsym seq := h.fhBytes_eq _ _ _

theorem receiptHeader_eq (h : SameAir d e) (ldst seq mask : Nat) : receiptHeader e ldst seq mask = receiptHeader d ldst seq mask :=
  h.fhBytes_eq _ _ _

theorem receiptFits_eq (h : SameAir d e) (stop : Nat) : receiptFits e stop = receiptFits d stop := by
  rw [receiptFits, receiptFits, h.hcOf_eq]

theorem isActive_eq (h : SameAir d e) : isActive e = isActive d := by rw [isActive, isActive, h.pair]

theorem yardOn_eq (h : SameAir d e) : yardOn e = yardOn d := by
  rw [yardOn, yardOn, running, running, oflag, oflag, ringSize, ringSize, h.phase, h.on_eq (.inl rfl),
    h.on_eq (num := 0x3200 + 10) (.inr (.inr (.inr ⟨rfl, .inl rfl⟩)))]

theorem maySend_eq (h : SameAir d e) (ho : e.yard.drvOff = d.yard.drvOff) (hv : e.yard.vplcLow = d.yard.vplcLow) :
    yardMaySend e = yardMaySend d := by
  rw [yardMaySend, yardMaySend, h.yardOn_eq, h.isActive_eq, ho, hv]

theorem idle_eq (h : SameAir d e) (hd : e.dma = d.dma) : ringIdle e 10 = ringIdle d 10 := by
  rw [ringIdle, ringIdle, ring, ring, oflag, oflag, hd, h.on_eq (num := 0x3200 + 10) (.inr (.inr (.inr ⟨rfl, .inr rfl⟩)))]

end SameAir

/-! ### Ring 10 (R420) -/

section

variable {d : Dev}

/-- A descriptor has passed ring 10. -/
def passed10 (d : Dev) : Dev := ringDone 10 1 (ringStep 10 3 1 d)

theorem passed10_follows (d : Dev) : Follows d (passed10 d) :=
  ((put_ring_follows 10 3 _ _ (by decide) rfl).trans (put_ring_follows 10 2 _ _ (by decide) rfl)).trans
    (put_ring_follows 10 4 _ _ (by decide) rfl)

theorem passed10_sent (d : Dev) : (passed10 d).sent = d.sent := by simp [passed10, ringDone, ringStep]

theorem passed10_dma (d : Dev) : (passed10 d).dma = d.dma := by simp [passed10, ringDone, ringStep]

theorem ringSize_of_yardOn (ho : yardOn d = true) : ringSize d 10 ≠ 0 := by
  simp only [yardOn, Bool.and_eq_true, decide_eq_true_eq] at ho
  exact ho.2

/-- The size of ring 10 is no book of it. -/
theorem ringPass_idle (ho : ringSize d 10 ≠ 0) (hi : ringIdle d 10 = true) (it : RingItem) (go lost : Dev → Dev) :
    ringPass 10 [it] go lost d = go (passed10 d) := by
  rw [ringPass_one, if_neg ho, if_pos hi]
  rfl

theorem yardOut_idle (ho : ringSize d 10 ≠ 0) (hi : ringIdle d 10 = true) (f : YardAir) : yardOut f d = emit (.yardFrame f) (passed10 d) :=
  ringPass_idle ho hi ..

/-- On its way out, a frame moves the books of ring 10 alone. -/
theorem yardOut_follows (f : YardAir) (d : Dev) : Follows d (yardOut f d) := by
  obtain ⟨x, hx, h | h | h⟩ := ringPass_outcome (by decide : 10 < 16) [.part] (emit (.yardFrame f)) id d
  · exact (show yardOut f d = emit (.yardFrame f) x from h) ▸ hx.trans (emit_follows _ _)
  · exact (show yardOut f d = x from h) ▸ hx
  · exact (show yardOut f d = x from h) ▸ hx

end

/-! ### What a beacon period does besides its BEACON -/

/-- Objects that the messages at the start of a beacon period move: the status, the marks of nodes that leave, the stale marks. -/
def periodObj (num sub : Nat) : Prop :=
  num = 0x3102 ∧ sub = 0 ∨ ∃ i, num = yNode i ∧ sub = 2 ∨ ∃ j, j < 24 ∧ num = yPoint i j ∧ sub = 3

/-- What the beacon period has counted. -/
def periodView (y : YardS) : Nat × Nat × Int := (y.assoc, y.cycles, y.bpStart)

/-- Only messages are queued, marks are set, and slots drawn. -/
structure PeriodKept (d e : Dev) : Prop where
  reach : Reaches [.yard, .draws] periodObj d e
  view : periodView e.yard = periodView d.yard
  sent : e.sent = d.sent
  dma : e.dma = d.dma

namespace PeriodKept

variable {d e f : Dev}

theorem refl (d : Dev) : PeriodKept d d := ⟨.refl _ _ d, rfl, rfl, rfl⟩

theorem trans (h : PeriodKept d e) (k : PeriodKept e f) : PeriodKept d f :=
  ⟨h.reach.trans k.reach, k.view.trans h.view, k.sent.trans h.sent, k.dma.trans h.dma⟩

theorem ite {c : Prop} [Decidable c] (h : PeriodKept d e) (k : PeriodKept d f) : PeriodKept d (if c then e else f) := by
  split
  · exact h
  · exact k

theorem forEach {α : Type} {l : List α} {g : α → Dev → Dev} (hg : ∀ a ∈ l, ∀ x, PeriodKept x (g a x)) (d : Dev) :
    PeriodKept d (Machine.forEach l g d) :=
  forEach_keeps (P := PeriodKept d) (fun a ha x hx => hx.trans (hg a ha x)) (.refl d)

theorem modYard (g : YardS → YardS) (d : Dev) (hg : ∀ y, periodView (g y) = periodView y := by exact fun _ => rfl) :
    PeriodKept d (Machine.modYard g d) :=
  ⟨(Reaches.refl _ _ d).modYard (by decide) g, hg d.yard, rfl, rfl⟩

theorem put {num sub n : Nat} (hs : sub < 256) (hk : periodObj num sub) (d : Dev) : PeriodKept d (Machine.put num sub n d) :=
  ⟨.put_low hs hk (.refl _ _ d), by rw [put_yard], put_sent .., put_dma ..⟩

theorem sendMsg (mtype dst : Nat) (body : Bytes) (plain : Bool) (d : Dev) : PeriodKept d (Machine.sendMsg mtype dst body plain d) := by
  obtain ⟨m, q, t, c, h⟩ := sendMsg_books mtype dst body plain d
  rw [h]
  exact .modYard _ d

theorem air (h : PeriodKept d e) : SameAir d e := by
  refine h.reach.air (fun num sub ha hk => ?_)
  have hnum : num < 0x18000 ∧ num ≠ 0x3102 := by
    rcases ha with rfl | rfl | ⟨rfl, _⟩ | ⟨rfl, _⟩ <;> decide
  rcases hk with ⟨rfl, _⟩ | ⟨i, ⟨rfl, _⟩ | ⟨j, _, rfl, _⟩⟩
  · exact hnum.2 rfl
  · unfold yNode oYard at hnum
    omega
  · unfold yPoint oYard at hnum
    omega

end PeriodKept

theorem sendPoints_period {js : List Nat} (h24 : ∀ j ∈ js, j < 24) (i : Nat) (d : Dev) : PeriodKept d (sendPoints i js d) := by
  by_cases h : js = []
  · rw [h]
    exact .refl d
  · rw [sendPoints_eq h]
    have hsent : PeriodKept d (forEach js (pointSent i) d) := .forEach (fun j hj x =>
      (PeriodKept.modYard (fun y => { y with ptLast := alSet y.ptLast (24 * i + j) (bpn x) }) x).trans
        (.put (by decide) (.inr ⟨i, .inr ⟨j, h24 j hj, rfl, rfl⟩⟩) _)) d
    exact (hsent.trans (.sendMsg _ _ _ _ _)).trans (.modYard _ _)

theorem sendDirty_period (d : Dev) : PeriodKept d (sendDirty d) :=
  .forEach (fun i _ x => sendPoints_period (fun j hj => by
    obtain ⟨k, _, rfl⟩ := List.mem_map.1 hj
    exact Nat.mod_lt _ (by decide)) i x) d

theorem yardLeaveAll_period (d : Dev) : PeriodKept d (yardLeaveAll d) :=
  .forEach (fun i _ x => ((PeriodKept.sendMsg _ _ _ _ x).trans (.forEach (fun j hj y =>
    .put (by decide) (.inr ⟨i, .inr ⟨j, List.mem_range.1 hj, rfl, rfl⟩⟩) y) _)).trans (.put (by decide) (.inr ⟨i, .inl ⟨rfl, rfl⟩⟩) _)) d

theorem schedule_period (d : Dev) : PeriodKept d (schedule d) := by
  unfold schedule
  dsimp only
  refine PeriodKept.trans (.modYard _ d) (.forEach (fun a _ x => ?_) _)
  exact .ite (.refl x) (.sendMsg _ _ _ _ x)

theorem drawBackoff_period (d : Dev) : PeriodKept d (drawBackoff d) := by
  unfold drawBackoff
  refine .ite (.refl d) ?_
  have hdraw : PeriodKept d (draw 1 d).2 :=
    ⟨.of_parts (ps := [.yard, .draws]) (Framed.draws (ks := []) (by decide) (.refl _ _ d) _).1 rfl rfl, rfl, rfl, rfl⟩
  exact hdraw.trans (.modYard _ _)

/-! ### A beacon period begins -/

section

variable {d : Dev}

/-- The beacon period is counted, and nothing is associated in it yet. -/
def periodBegun (d : Dev) : Dev :=
  modYard (fun y => { y with assoc := 0, carried := ([] :: y.carried).take 25 }) (put 0x3103 3 ((bpn (bpBegin d) + 1) % 2 ^ 32) (bpBegin d))

/-- A node is a beacon period older. -/
def nodeAged (i : Nat) (d : Dev) : Dev := put (yNode i) 10 (satU 16 (on d (yNode i) 10 + 1)) d

/-- The nodes are a beacon period older, and the status shows whether the unit only receives. -/
def beaconReady (d : Dev) : Dev :=
  let x := forEach (associated d) nodeAged (periodBegun d)
  wrStatus 0x3102 0 1 (!(isActive x)) x

/-- The body of a BEACON, without its MIC. -/
def beaconBody (d : Dev) : Bytes :=
  natLe 4 (on d 0x3100 2) ++ natLe 4 (bpn d) ++ natLe 4 (on d 0x402 0) ++ natLe 4 (hcOf d) ++ natLe 8 (civilNs d) ++
    natLe 2 d.yard.relayEnd ++ natLe 1 (boolNat (on d 0x3100 5 == 1) + 2 * boolNat (yardBit d 3)) ++ natLe 1 (on d 0x403 0) ++
    natLe 2 d.yard.routeVer ++ natLe 2 0

/-- The BEACON is sent. -/
def beaconCall (d : Dev) : Dev :=
  sendBeacon (beaconBody d ++ (Config.cmac (yardNetKey d) (beaconBody d)).take 8) (setStatus 0x3102 0 0 d)

/-- The windows of the beacon period, where nodes leave before a roll of the network key. -/
def beaconPlanned (d : Dev) : Dev := schedule (if leaveDue d then yardLeaveAll d else d)

theorem bpBegin_on (d : Dev) (num sub : Nat) : on (bpBegin d) num sub = on d num sub := on_modYard ..

theorem associated_begun (d : Dev) : associated (periodBegun d) = associated d := by
  have h : ∀ i, nodeState (periodBegun d) i = nodeState d i := fun i => (on_put_other _ _ _ _ _ _ (fun hk => by
    have hnum := (okey_inj (by decide) (by decide) hk).1
    unfold yNode oYard at hnum
    omega)).trans (bpBegin_on d _ _)
  unfold associated
  simp only [h]

theorem beaconPeriod_due (ho : yardOn d = true) (hd : bpDue d = true) : beaconPeriod d =
    if !(yardMaySend (beaconReady d)) then clrStatus 0x3102 0 0 (beaconReady d)
    else drawBackoff (sendDirty (beaconCall (beaconPlanned (beaconReady d)))) := by
  have hready : beaconReady d =
      wrStatus 0x3102 0 1 (!(isActive (forEach (associated (periodBegun d)) nodeAged (periodBegun d))))
        (forEach (associated (periodBegun d)) nodeAged (periodBegun d)) := by
    rw [associated_begun]
    rfl
  rw [hready]
  unfold beaconPeriod beaconPlanned beaconCall beaconBody periodBegun nodeAged
  exact if_neg (by simp [ho, hd])

theorem bpBegin_fields (d : Dev) : ∃ c b, bpBegin d = modYard (fun y => { y with cycles := c, bpStart := b }) d ∧
    (yardBit d 2 = true → c = 0 ∧ b = d.yard.bpStart + 400 * hcOf d) ∧ (yardBit d 2 = false → c = d.yard.cycles - 2) := by
  by_cases h : yardBit d 2 = true
  · exact ⟨0, d.yard.bpStart + 400 * hcOf d, by simp only [bpBegin, if_pos h, modYard], fun _ => ⟨rfl, rfl⟩,
      fun hf => absurd (h.symm.trans hf) (by decide)⟩
  · refine ⟨d.yard.cycles - 2, (d.yard.lastEdge.getD 0 : Nat) - 200 * hcOf d * ((d.yard.cycles : Int) - 2) + 1000 * zcOffset d, ?_,
      fun ht => absurd ht h, fun _ => rfl⟩
    simp only [bpBegin, if_neg h, modYard]

/-- What a beacon period's beginning leaves. -/
structure Begun (d x : Dev) : Prop where
  reach : Reaches [.yard] (fun num sub => num = 0x3103 ∧ sub = 3 ∨ num = 0x3102 ∧ sub = 0 ∨ sub = 10 ∧ ∃ i, num = yNode i) d x
  count : on x 0x3103 3 = (bpn d + 1) % 2 ^ 32
  nodes : ∀ i ∈ associated d, on x (yNode i) 10 = satU 16 (on d (yNode i) 10 + 1)
  assoc : x.yard.assoc = 0
  lost : yardBit d 2 = true → x.yard.cycles = 0 ∧ x.yard.bpStart = d.yard.bpStart + 400 * hcOf d
  beat : yardBit d 2 = false → x.yard.cycles = d.yard.cycles - 2
  tx : x.yard.tx = d.yard.tx
  driver : x.yard.drvOff = d.yard.drvOff ∧ x.yard.vplcLow = d.yard.vplcLow
  dma : x.dma = d.dma

theorem nodesAged_same {α : Type} (v : Dev → α) (hv : ∀ num sub n x, v (put num sub n x) = v x) (l : List Nat) (x : Dev) :
    v (forEach l nodeAged x) = v x :=
  forEach_keeps (P := fun y => v y = v x) (fun _ _ y hy => (hv _ _ _ y).trans hy) rfl

theorem on_nodesAged {i : Nat} (hi : i ∈ associated d) (x : Dev) :
    on (forEach (associated d) nodeAged x) (yNode i) 10 = satU 16 (on x (yNode i) 10 + 1) := by
  have hne : ∀ a, a ≠ i → ∀ y, on (nodeAged a y) (yNode i) 10 = on y (yNode i) 10 := fun a ha y =>
    on_put_other _ _ _ _ _ _ (okey_oYard_ne (a := 0) (b := 0) (by decide) (by decide) (by decide) (by decide) (.inl ha))
  have hturn : ∀ y, on y (yNode i) 10 = on x (yNode i) 10 → on (nodeAged i y) (yNode i) 10 = satU 16 (on x (yNode i) 10 + 1) := fun y hy => by
    rw [nodeAged, on_put_same, hy]
  exact forEach_turn (P := fun y => on y (yNode i) 10 = on x (yNode i) 10) (Q := fun y => on y (yNode i) 10 = satU 16 (on x (yNode i) 10 + 1))
    (associated_nodup d) hi (fun a _ ha y hy => (hne a ha y).trans hy) (fun a _ ha y hy => (hne a ha y).trans hy) hturn (Eq.refl _)

theorem beaconReady_begun (d : Dev) : Begun d (beaconReady d) := by
  obtain ⟨c, b, hb, hlost, hbeat⟩ := bpBegin_fields d
  have hx : (beaconReady d).yard = (periodBegun d).yard ∧ (beaconReady d).dma = d.dma := by
    refine ⟨(wrStatus_yard ..).trans (nodesAged_same Dev.yard (fun _ _ _ _ => put_yard ..) _ _), (wrStatus_dma ..).trans ?_⟩
    refine (nodesAged_same Dev.dma (fun _ _ _ _ => put_dma ..) _ _).trans ?_
    rw [periodBegun, hb, modYard_dma, put_dma, modYard_dma]
  have hy : (beaconReady d).yard = { d.yard with cycles := c, bpStart := b, assoc := 0, carried := ([] :: d.yard.carried).take 25 } := by
    rw [hx.1, periodBegun, hb, modYard_yard, put_yard, modYard_yard]
  have hbegun : Reaches [.yard] (fun num sub => num = 0x3103 ∧ sub = 3) d (periodBegun d) := by
    rw [periodBegun, hb]
    exact ((Reaches.refl _ _ d).modYard (by decide) _).put_low (by decide) ⟨rfl, rfl⟩ |>.modYard (by decide) _
  have haged : Reaches [.yard] (fun num sub => num = 0x3102 ∧ sub = 0 ∨ sub = 10 ∧ ∃ i, num = yNode i) (periodBegun d) (beaconReady d) :=
    .put_low (by decide) (.inl ⟨rfl, rfl⟩) (.forEach (fun _ _ y => .put_low (by decide) (.inr ⟨rfl, _, rfl⟩) (.refl _ _ y)) (.refl _ _ _))
  have hold : ∀ i, on (periodBegun d) (yNode i) 10 = on d (yNode i) 10 := fun i =>
    hbegun.on_eq (by decide) (counted_yNode ..) (by simp)
  refine ⟨(hbegun.weaken (fun _ _ h => .inl h)).trans (haged.weaken (fun _ _ h => .inr h)), ?_, fun i hi => ?_, by rw [hy],
    fun h => by rw [hy]; exact hlost h, fun h => by rw [hy]; exact hbeat h, by rw [hy], by rw [hy]; exact ⟨rfl, rfl⟩, hx.2⟩
  · rw [haged.on_eq (by decide) (by decide) (by
      rintro (⟨h, _⟩ | ⟨h, _⟩)
      · exact absurd h (by decide)
      · exact absurd h (by decide)), periodBegun, on_modYard, on_put_same, bpn, bpBegin_on, bpn]
  · have hst : on (beaconReady d) (yNode i) 10 = on (forEach (associated d) nodeAged (periodBegun d)) (yNode i) 10 :=
      on_put_other _ _ _ _ _ _ (fun hk => by
        have hnum := (okey_inj (by decide) (by decide) hk).1
        unfold yNode oYard at hnum
        omega)
    rw [hst, on_nodesAged hi, hold]

theorem Begun.air {x : Dev} (h : Begun d x) : SameAir d x := by
  refine h.reach.air (fun num sub ha hk => ?_)
  have hnum : num < 0x18000 ∧ ¬(num = 0x3103 ∧ sub = 3) ∧ num ≠ 0x3102 := by
    rcases ha with rfl | rfl | ⟨rfl, rfl⟩ | ⟨rfl, rfl | rfl⟩ <;> simp
  obtain ⟨hlow, hbp, hst⟩ := hnum
  rcases hk with hk | ⟨hk, _⟩ | ⟨_, i, rfl⟩
  · exact hbp hk
  · exact hst hk
  · unfold yNode oYard at hlow
    omega

/-! ### The BEACON (R402, R403) -/

/-- A BEACON goes out, is counted, and its SEQ goes on. -/
def beaconOut (caps : List Nat) (body : Bytes) (d : Dev) : Dev :=
  let sq := (alGet d.yard.seqs 0xFFFF).getD 0
  incr 32 0x3106 3 (modYard (fun y => { y with seqs := alSet y.seqs 0xFFFF ((sq + 1) % 256) })
    (yardOut (airFrame d (yardPsd d) (dataHeader d 0x11 0xFFFF 0 1 caps.length sq) 1
      (onCarriers d (basePhy d) 0 (frameSymbols (basePhy d) caps [segmentOf 297 body 0]))) d))

theorem sendBeacon_some {caps : List Nat} (h : symsOf d (basePhy d) 0 1 = some caps) (body : Bytes) : sendBeacon body d = beaconOut caps body d := by
  unfold sendBeacon
  rw [h]
  rfl

theorem beaconOut_reaches (caps : List Nat) (body : Bytes) (d : Dev) :
    Reaches [.yard] (fun num sub => num = 0x3106 ∧ sub = 3) d (beaconOut caps body d) :=
  (((Reaches.refl _ _ d).follow (yardOut_follows _ d)).modYard (by decide) _).incr_low (by decide) ⟨rfl, rfl⟩

theorem on_beaconOut (caps : List Nat) (body : Bytes) : on (beaconOut caps body d) 0x3106 3 = incSat 32 (on d 0x3106 3) := by
  rw [beaconOut, on_incr_same, on_modYard, (yardOut_follows _ d).on_low (by decide) (by decide)]

theorem yardOut_yard (f : YardAir) (d : Dev) : (yardOut f d).yard = d.yard := (yardOut_follows f d).part .yard

theorem beaconOut_view (caps : List Nat) (body : Bytes) : periodView (beaconOut caps body d).yard = periodView d.yard := by
  rw [beaconOut, incr_yard, modYard_yard, yardOut_yard]
  rfl

theorem beaconOut_sent (ho : ringSize d 10 ≠ 0) (hi : ringIdle d 10 = true) (caps : List Nat) (body : Bytes) :
    ∃ seq syms, .yardFrame (airFrame d (yardPsd d) (dataHeader d 0x11 0xFFFF 0 1 caps.length seq) 1 syms) ∈ (beaconOut caps body d).sent := by
  refine ⟨(alGet d.yard.seqs 0xFFFF).getD 0, onCarriers d (basePhy d) 0 (frameSymbols (basePhy d) caps [segmentOf 297 body 0]), ?_⟩
  rw [beaconOut, incr_sent, modYard_sent, yardOut_idle ho hi, emit_sent]
  exact List.mem_cons_self

end

/-! ### The beacon period as a whole -/

section

variable {s : State} (ho : yardOn s.dev = true)

/-- What the beacon period shows of its beginning, however it goes on. -/
theorem Begun.shown {d x e : Dev} (h : Begun d x) (hv : periodView e.yard = periodView x.yard) (h3 : on e 0x3103 3 = on x 0x3103 3)
    (hn : ∀ i, on e (yNode i) 10 = on x (yNode i) 10) :
    on e 0x3103 3 = (bpn d + 1) % 2 ^ 32 ∧ e.yard.assoc = 0 ∧
      (yardBit d 2 = true → e.yard.cycles = 0 ∧ e.yard.bpStart = d.yard.bpStart + 400 * hcOf d) ∧
      (yardBit d 2 = false → e.yard.cycles = d.yard.cycles - 2) ∧
      ∀ i ∈ associated d, on e (yNode i) 10 = satU 16 (on d (yNode i) 10 + 1) := by
  have hassoc : e.yard.assoc = x.yard.assoc := congrArg (fun p => p.1) hv
  have hcyc : e.yard.cycles = x.yard.cycles := congrArg (fun p => p.2.1) hv
  have hstart : e.yard.bpStart = x.yard.bpStart := congrArg (fun p => p.2.2) hv
  exact ⟨h3.trans h.count, hassoc.trans h.assoc, fun hl => ⟨hcyc.trans (h.lost hl).1, hstart.trans (h.lost hl).2⟩,
    fun hb => hcyc.trans (h.beat hb), fun i hi => (hn i).trans (h.nodes i hi)⟩

theorem beaconPlanned_period (d : Dev) : PeriodKept d (beaconPlanned d) :=
  (PeriodKept.ite (yardLeaveAll_period d) (.refl d)).trans (schedule_period _)

theorem sendBeacon_reaches (body : Bytes) (d : Dev) : Reaches [.yard] (fun num sub => num = 0x3106 ∧ sub = 3) d (sendBeacon body d) := by
  cases h : symsOf d (basePhy d) 0 1 with
  | none =>
    unfold sendBeacon
    rw [h]
    exact .refl _ _ d
  | some caps =>
    rw [sendBeacon_some h]
    exact beaconOut_reaches caps body d

theorem sendBeacon_view (body : Bytes) (d : Dev) : periodView (sendBeacon body d).yard = periodView d.yard := by
  cases h : symsOf d (basePhy d) 0 1 with
  | none =>
    unfold sendBeacon
    rw [h]
  | some caps =>
    rw [sendBeacon_some h]
    exact beaconOut_view caps body

/-- Objects that move between a beacon period's beginning and its end. -/
def beaconObj (num sub : Nat) : Prop := periodObj num sub ∨ num = 0x3106 ∧ sub = 3

theorem not_beaconObj_count : ¬beaconObj 0x3103 3 := by
  rintro ((⟨h, _⟩ | ⟨i, ⟨_, h⟩ | ⟨j, _, h, _⟩⟩) | ⟨h, _⟩)
  · exact absurd h (by decide)
  · exact absurd h (by decide)
  · unfold yPoint oYard at h
    omega
  · exact absurd h (by decide)

theorem not_beaconObj_heard (i : Nat) : ¬beaconObj (yNode i) 10 := by
  rintro ((⟨_, h⟩ | ⟨i, ⟨_, h⟩ | ⟨j, _, _, h⟩⟩) | ⟨_, h⟩) <;> exact absurd h (by decide)

theorem not_periodObj_sent : ¬periodObj 0x3106 3 := by
  rintro (⟨h, _⟩ | ⟨i, ⟨_, h⟩ | ⟨j, _, h, _⟩⟩)
  · exact absurd h (by decide)
  · exact absurd h (by decide)
  · unfold yPoint oYard at h
    omega

include ho

theorem beaconPeriod_early (hd : bpDue s.dev = false) : Completes .beaconPeriod s (Framed [] [] s.dev) := by
  have hx : ifRun beaconPeriod (fresh s) = fresh s := by
    refine (if_pos (running_of_yardOn ho)).trans (if_pos ?_)
    rw [show bpDue (fresh s) = false from hd]
    simp
  refine act_completes (f := ifRun beaconPeriod) rfl (fun e he => ?_)
  rw [hx] at he
  exact .of_fresh ((Framed.refl _ _ _).follow he)

theorem beaconPeriod_completes (hd : bpDue s.dev = true) : Completes .beaconPeriod s (fun e =>
    on e 0x3103 3 = (bpn s.dev + 1) % 2 ^ 32 ∧ e.yard.assoc = 0 ∧
      (yardBit s.dev 2 = true → e.yard.cycles = 0 ∧ e.yard.bpStart = s.dev.yard.bpStart + 400 * hcOf s.dev) ∧
      (yardBit s.dev 2 = false → e.yard.cycles = s.dev.yard.cycles - 2) ∧
      (∀ i ∈ associated s.dev, on e (yNode i) 10 = satU 16 (on s.dev (yNode i) 10 + 1)) ∧
      (∀ caps, yardMaySend s.dev = true → symsOf s.dev (basePhy s.dev) 0 1 = some caps →
        (ringIdle s.dev 10 = true → ∃ seq syms, .yardFrame (airFrame s.dev (yardPsd s.dev)
          (dataHeader s.dev 0x11 0xFFFF 0 1 caps.length seq) 1 syms) ∈ e.sent) ∧
          on e 0x3106 3 = incSat 32 (on s.dev 0x3106 3)) ∧
      (yardMaySend s.dev = false → e.yard.tx = s.dev.yard.tx ∧ on e 0x3106 3 = on s.dev 0x3106 3 ∧ yardBit e 0 = false) ∧
      OnlyParts [.yard, .draws] s.dev e ∧ e.os.pend = s.dev.os.pend) := by
  have hx : ifRun beaconPeriod (fresh s) = _ := (if_pos (running_of_yardOn ho)).trans (beaconPeriod_due (d := fresh s) ho hd)
  have hbegun : Begun (fresh s) (beaconReady (fresh s)) := beaconReady_begun (fresh s)
  refine act_completes (f := ifRun beaconPeriod) rfl (fun e he => ?_)
  rw [hx] at he
  generalize beaconReady (fresh s) = x at he hbegun
  have hmay : yardMaySend x = yardMaySend s.dev := hbegun.air.maySend_eq hbegun.driver.1 hbegun.driver.2
  have hstart : Reaches [.yard] (fun _ _ => True) s.dev x := .of_fresh (hbegun.reach.weaken (fun _ _ _ => trivial))
  have hcount : on x 0x3106 3 = on s.dev 0x3106 3 := hbegun.reach.on_eq (d := fresh s) (by decide) (by decide) (by
    rintro (⟨h, _⟩ | ⟨h, _⟩ | ⟨h, _⟩) <;> exact absurd h (by decide))
  cases hs : yardMaySend s.dev with
  | false =>
    rw [hmay, hs, if_pos (by decide)] at he
    have hrest : Reaches [] (fun num sub => num = 0x3102 ∧ sub = 0) x e := .follow (.put_low (by decide) ⟨rfl, rfl⟩ (.refl _ _ x)) he
    have hyard : e.yard = x.yard := hrest.parts .yard (by simp)
    obtain ⟨h1, h2, h3, h4, h5⟩ := hbegun.shown (e := e) (by rw [hyard]) (hrest.on_eq (by decide) (by decide) (by simp))
      (fun i => hrest.on_eq (by decide) (counted_yNode ..) (by simp))
    refine ⟨h1, h2, h3, h4, h5, fun _ h => absurd h (by decide), fun _ => ⟨by rw [hyard]; exact hbegun.tx, ?_, ?_⟩,
      ((hstart.mono (by simp)).trans ((hrest.mono (by simp)).weaken (fun _ _ _ => trivial))).only⟩
    · exact (hrest.on_eq (by decide) (by decide) (by simp)).trans hcount
    · rw [yardBit, he.on_low (by decide) (by decide), on_clrStatus_same, testBit_clearBit]
      simp
  | true =>
    rw [hmay, hs, if_neg (by decide)] at he
    have hplan : PeriodKept x (setStatus 0x3102 0 0 (beaconPlanned x)) :=
      (beaconPlanned_period x).trans (.put (by decide) (.inl ⟨rfl, rfl⟩) _)
    have hend : ∀ y, PeriodKept y (drawBackoff (sendDirty y)) := fun y => (sendDirty_period y).trans (drawBackoff_period _)
    have hair : SameAir s.dev (setStatus 0x3102 0 0 (beaconPlanned x)) :=
      (hbegun.air.trans hplan.air).of_fresh
    have hdma : (setStatus 0x3102 0 0 (beaconPlanned x)).dma = s.dev.dma := hplan.dma.trans hbegun.dma
    unfold beaconCall at he
    generalize beaconBody (beaconPlanned x) ++ _ = body at he
    generalize setStatus 0x3102 0 0 (beaconPlanned x) = y at he hplan hair hdma
    have hcall := sendBeacon_reaches body y
    have hview := sendBeacon_view body y
    have hout : ∀ caps, symsOf s.dev (basePhy s.dev) 0 1 = some caps → sendBeacon body y = beaconOut caps body y := fun caps hc =>
      sendBeacon_some (by rw [hair.basePhy_eq, hair.symsOf_eq, hc]) body
    have hlast := hend (sendBeacon body y)
    generalize drawBackoff (sendDirty (sendBeacon body y)) = z at he hlast
    have hall : Reaches [.yard, .draws] beaconObj x e :=
      (((hplan.reach.weaken (fun _ _ h => .inl h)).trans ((hcall.mono (by simp)).weaken (fun _ _ h => .inr h))).trans
        (hlast.reach.weaken (fun _ _ h => .inl h))).follow he
    have hevyard : e.yard = z.yard := he.part .yard
    obtain ⟨h1, h2, h3, h4, h5⟩ := hbegun.shown (e := e) (by rw [hevyard, hlast.view, hview, hplan.view])
      (hall.on_eq (by decide) (by decide) not_beaconObj_count) (fun i => hall.on_eq (by decide) (counted_yNode ..) (not_beaconObj_heard i))
    refine ⟨h1, h2, h3, h4, h5, fun caps _ hc => ⟨fun hi => ?_, ?_⟩, fun h => absurd h (by decide),
      ((hstart.mono (by simp)).trans (hall.weaken (fun _ _ _ => trivial))).only⟩
    · have hsize : ringSize y 10 ≠ 0 := ringSize_of_yardOn (hair.yardOn_eq.trans ho)
      obtain ⟨seq, syms, hm⟩ := beaconOut_sent hsize ((hair.idle_eq hdma).trans hi) caps body
      refine ⟨seq, syms, he.sent _ ?_⟩
      rw [hlast.sent, hout caps hc, ← hair.airFrame_eq, ← hair.yardPsd_eq, ← hair.dataHeader_eq]
      exact hm
    · rw [he.on_low (by decide) (by decide), hlast.reach.on_eq (by decide) (by decide) not_periodObj_sent, hout caps hc, on_beaconOut,
        hplan.reach.on_eq (by decide) (by decide) not_periodObj_sent, hcount]

end

end Sys2Proof

/-! Frames of the yard: data frames taken and acknowledged, messages sent and sent again (R398 to R400, R402, R404, R420). -/

namespace Sys2Proof

open Machine

/-! ### What a data frame moves -/

/-- Objects of nodes, the status and the bindings. -/
def takeObj (num _sub : Nat) : Prop := 0x18000 ≤ num ∨ num = 0x3102 ∨ num = 0x3104

theorem takeObj_oYard (i off sub : Nat) : takeObj (oYard i off) sub := .inl (by unfold oYard; omega)

/-- Only the yard and the objects of its nodes differ, and nothing goes out. -/
structure TakeKept (d e : Dev) : Prop where
  reach : Reaches [.yard] takeObj d e
  sent : e.sent = d.sent
  dma : e.dma = d.dma

namespace TakeKept

variable {d e f : Dev}

theorem refl (d : Dev) : TakeKept d d := ⟨.refl _ _ d, rfl, rfl⟩

theorem trans (h : TakeKept d e) (k : TakeKept e f) : TakeKept d f := ⟨h.reach.trans k.reach, k.sent.trans h.sent, k.dma.trans h.dma⟩

theorem ite {c : Prop} [Decidable c] (h : TakeKept d e) (k : TakeKept d f) : TakeKept d (if c then e else f) := by
  split
  · exact h
  · exact k

theorem modYard (g : YardS → YardS) (d : Dev) : TakeKept d (Machine.modYard g d) :=
  ⟨(Reaches.refl _ _ d).modYard (by decide) g, rfl, rfl⟩

theorem put {num sub n : Nat} (hs : sub < 256) (hk : takeObj num sub) (d : Dev) : TakeKept d (Machine.put num sub n d) :=
  ⟨.put_low hs hk (.refl _ _ d), put_sent .., put_dma ..⟩

theorem putb {num sub : Nat} {b : Bytes} (hs : sub < 256) (hk : takeObj num sub) (d : Dev) : TakeKept d (Machine.putb num sub b d) :=
  ⟨.putb_low hs hk (.refl _ _ d), putb_sent .., putb_dma ..⟩

theorem sendMsg (mtype dst : Nat) (body : Bytes) (plain : Bool) (d : Dev) : TakeKept d (Machine.sendMsg mtype dst body plain d) := by
  obtain ⟨m, q, t, c, h⟩ := sendMsg_books mtype dst body plain d
  rw [h]
  exact .modYard _ d

theorem air (h : TakeKept d e) : SameAir d e := by
  refine h.reach.air (fun num sub ha hk => ?_)
  have hnum : num < 0x18000 ∧ num ≠ 0x3102 ∧ num ≠ 0x3104 := by
    rcases ha with rfl | rfl | ⟨rfl, _⟩ | ⟨rfl, _⟩ <;> decide
  obtain ⟨hlow, hst, hb⟩ := hnum
  rcases hk with hk | hk | hk
  · omega
  · exact hst hk
  · exact hb hk

theorem netKey (h : TakeKept d e) : yardNetKey e = yardNetKey d := by
  have hk : e.keys = d.keys := h.reach.parts .keys (by decide)
  have hg : on e 0x503 9 = on d 0x503 9 := h.reach.on_eq (by decide) (by decide) (by unfold takeObj; decide)
  rw [yardNetKey, yardNetKey, instKey, instKey, gen, gen, hk, hg]

end TakeKept

section

variable {d : Dev}

theorem heard_take (a : Nat) (d : Dev) : TakeKept d (heard a d) := by
  unfold heard
  split
  · exact .ite (.refl d) (.put (by decide) (takeObj_oYard ..) d)
  · exact .refl d

theorem heard_yard (a : Nat) (d : Dev) : (heard a d).yard = d.yard := by
  unfold heard
  split
  · split
    · rfl
    · exact put_yard ..
  · rfl

theorem countLink_take (lsrc n : Nat) (again : Bool) (d : Dev) : TakeKept d (countLink lsrc n again d) := by
  unfold countLink
  split
  · refine .ite (.refl d) ?_
    exact .ite ((TakeKept.put (by decide) (takeObj_oYard ..) d).trans (.put (by decide) (takeObj_oYard ..) _)) (.put (by decide) (takeObj_oYard ..) d)
  · exact .refl d

theorem countLink_yard (lsrc n : Nat) (again : Bool) (d : Dev) : (countLink lsrc n again d).yard = d.yard := by
  unfold countLink
  split
  · split
    · rfl
    · dsimp only
      split
      · rw [put_yard, put_yard]
      · rw [put_yard]
  · rfl

theorem nodeJoins_take (i : Nat) (serial : Bytes) (d : Dev) : TakeKept d (nodeJoins i serial d) := by
  rw [nodeJoins_eq]
  exact ((((TakeKept.put (by decide) (takeObj_oYard ..) d).trans (.put (by decide) (takeObj_oYard ..) _)).trans
    (.putb (by decide) (takeObj_oYard ..) _)).trans (.put (by decide) (takeObj_oYard ..) _)).trans (.modYard _ _)

theorem bindingMade_take (serial : Bytes) (addr : Nat) (d : Dev) : TakeKept d (bindingMade serial addr d) :=
  .ite (.refl d) ((TakeKept.putb (by decide) (.inr (.inr rfl)) d).trans (.put (by decide) (.inr (.inl rfl)) _))

theorem assocHeard_take (m : YMsg) (d : Dev) : TakeKept d (assocHeard m d) := by
  unfold assocHeard
  dsimp only
  split
  · exact .refl d
  · exact .ite (.refl d) ((bindingMade_take _ _ d).trans (nodeJoins_take _ _ _))

/-- A message for the device waits for its row. -/
def msgReceived (lsrc : Nat) (msg : YMsg) : Dev → Dev :=
  modYard (fun y => { y with inbox := y.inbox ++ [msg], via := if msg.src = 0xFFFE then y.via else alSet y.via msg.src lsrc })

theorem deliver_own {lsrc : Nat} {m : Bytes} {msg : YMsg} (h : openMsg (yardNetKey d) lsrc m = some msg) (h0 : fieldLe m 4 2 = 0) :
    deliver lsrc m d = carry (0 :: upPath d 8 msg.src) (msgReceived lsrc msg (heard msg.src d)) := by
  unfold deliver
  rw [h]
  exact if_pos (.inl h0)

theorem deliver_take (lsrc : Nat) (m : Bytes) (d : Dev) : TakeKept d (deliver lsrc m d) := by
  unfold deliver
  split
  · exact .refl d
  · exact .ite (((heard_take _ d).trans (.modYard _ _)).trans (.modYard _ _)) (.ite (assocHeard_take _ d) (.refl d))

theorem chooseMaps_take (a : Nat) (d : Dev) : TakeKept d (chooseMaps a d) := by
  unfold chooseMaps
  split
  · exact .refl d
  · dsimp only
    exact .ite (.refl d) (.ite ((TakeKept.modYard _ d).trans (.sendMsg _ _ _ _ _)) (.refl d))

theorem chooseMaps_inbox (a : Nat) (d : Dev) : (chooseMaps a d).yard.inbox = d.yard.inbox := by
  unfold chooseMaps
  split
  · rfl
  · dsimp only
    split
    · rfl
    · split
      · exact sendMsg_yard _ _ _ _ YardS.inbox (fun _ _ _ _ _ => rfl)
      · rfl

theorem deliver_inbox {lsrc : Nat} {m : Bytes} {msg : YMsg} (h : openMsg (yardNetKey d) lsrc m = some msg) (h0 : fieldLe m 4 2 = 0) :
    (deliver lsrc m d).yard.inbox = d.yard.inbox ++ [msg] := by
  rw [deliver_own h h0]
  show (heard msg.src d).yard.inbox ++ [msg] = _
  rw [heard_yard]

/-! ### A data frame is taken (R399, R400) -/

/-- The frame is counted, with the error rate of its link. -/
def frameCounted (lsrc bad total : Nat) (d : Dev) : Dev :=
  modYard (fun y => { y with errs := alSet y.errs lsrc (errStep ((alGet y.errs lsrc).getD 0) bad total) }) (incr 32 0x3106 4 d)

/-- The segments of a new SEQ are kept. -/
def segsKept (lsrc seq : Nat) (got : List (Option Bytes)) : Dev → Dev :=
  modYard (fun y => { y with rx := (y.rx.filter (fun r => r.lsrc != lsrc || r.bcast != false)) ++
    [{ lsrc := lsrc, bcast := false, seq := seq, segs := got, delivered := got.all (fun x => x.isSome) }] })

/-- A frame of a new SEQ, entered in the books. -/
def frameEntered (lsrc seq : Nat) (got : List (Option Bytes)) (total : Nat) (d : Dev) : Dev :=
  segsKept lsrc seq got (countLink lsrc total false (frameCounted lsrc (got.filter (fun x => x.isNone)).length total d))

/-- The segments that a RECEIPT names. -/
def segMask (got : List (Option Bytes)) : Nat := maskOf ((List.range got.length).filter (fun i => (got.getD i none).isSome))

/-- The RECEIPT goes out, where the unit may send and it fits. -/
def frameAnswered (lsrc seq : Nat) (got : List (Option Bytes)) (stop : Nat) (d : Dev) : Dev :=
  if yardMaySend d = true ∧ receiptFits d stop = true then
    yardOut (airFrame d (yardPsd d) (receiptHeader d lsrc seq (segMask got)) 1 []) d
  else d

/-- A whole message is delivered. -/
def frameDelivered (lsrc : Nat) (got : List (Option Bytes)) (d : Dev) : Dev :=
  chooseMaps lsrc (if got.all (fun x => x.isSome) then deliver lsrc (got.flatMap (fun x => x.getD [])) d else d)

variable {fh : Bytes} {segs : List Bytes} {got : List (Option Bytes)}

theorem yardTake_new (stop : Nat) (h0 : fieldLe fh 4 2 = 0) (hg : rxSegs d fh segs = some got)
    (hn : d.yard.rx.find? (fun r => r.lsrc == fieldLe fh 2 2 && r.bcast == false && r.seq == byteAt fh 12) = none) :
    yardTake fh segs stop d = frameDelivered (fieldLe fh 2 2) got
      (frameAnswered (fieldLe fh 2 2) (byteAt fh 12) got stop (frameEntered (fieldLe fh 2 2) (byteAt fh 12) got segs.length d)) := by
  have hbc : ((0 : Nat) == 0xFFFF) = false := rfl
  have hmask : ∀ i, (got.map (fun x => x.isSome)).getD i false = (got.getD i none).isSome := fun i => by
    simp only [List.getD_eq_getElem?_getD, List.getElem?_map]
    cases got[i]? <;> rfl
  unfold yardTake
  rw [hg, h0]
  have hfind : (modYard (fun y => { y with errs := alSet y.errs (fieldLe fh 2 2) (errStep ((alGet y.errs (fieldLe fh 2 2)).getD 0)
      (got.filter (fun x => x.isNone)).length segs.length) }) (incr 32 0x3106 4 d)).yard.rx.find?
      (fun r => r.lsrc == fieldLe fh 2 2 && r.bcast == false && r.seq == byteAt fh 12) = none := by
    rw [modYard_yard, incr_yard]
    exact hn
  simp only [hbc, hfind, rxMerge, Option.isSome_none, Bool.false_or, List.length_map, hmask, Bool.not_false, Bool.and_true, true_and]
  rfl

theorem frameCounted_reaches (lsrc bad total : Nat) (d : Dev) :
    Reaches [.yard] (fun num sub => num = 0x3106 ∧ sub = 4) d (frameCounted lsrc bad total d) :=
  ((Reaches.refl _ _ d).incr_low (by decide) ⟨rfl, rfl⟩).modYard (by decide) _

/-- What entering a frame leaves. -/
structure Entered (d e : Dev) : Prop where
  reach : Reaches [.yard] (fun num sub => takeObj num sub ∨ num = 0x3106 ∧ sub = 4) d e
  count : on e 0x3106 4 = incSat 32 (on d 0x3106 4)
  inbox : e.yard.inbox = d.yard.inbox
  driver : e.yard.drvOff = d.yard.drvOff ∧ e.yard.vplcLow = d.yard.vplcLow
  sent : e.sent = d.sent
  dma : e.dma = d.dma

theorem not_takeObj_rx : ¬takeObj 0x3106 4 := by unfold takeObj; decide

theorem frameEntered_entered (lsrc seq total : Nat) (got : List (Option Bytes)) (d : Dev) : Entered d (frameEntered lsrc seq got total d) := by
  have hcount := frameCounted_reaches lsrc (got.filter (fun x => x.isNone)).length total d
  have hon : on (frameCounted lsrc (got.filter (fun x => x.isNone)).length total d) 0x3106 4 = incSat 32 (on d 0x3106 4) := by
    rw [frameCounted, on_modYard, on_incr_same]
  have hfirst : ∀ b, (frameCounted lsrc b total d).yard.inbox = d.yard.inbox ∧ (frameCounted lsrc b total d).yard.drvOff = d.yard.drvOff ∧
      (frameCounted lsrc b total d).yard.vplcLow = d.yard.vplcLow ∧ (frameCounted lsrc b total d).sent = d.sent ∧
      (frameCounted lsrc b total d).dma = d.dma := fun b => by simp [frameCounted]
  obtain ⟨hin, hdrv, hvp, hs, hd⟩ := hfirst (got.filter (fun x => x.isNone)).length
  unfold frameEntered
  generalize frameCounted lsrc (got.filter (fun x => x.isNone)).length total d = x at hcount hon hin hdrv hvp hs hd
  have hlink := (countLink_take lsrc total false x).trans (.modYard _ _ : TakeKept _ (segsKept lsrc seq got (countLink lsrc total false x)))
  have hyard : (segsKept lsrc seq got (countLink lsrc total false x)).yard.inbox = x.yard.inbox ∧
      (segsKept lsrc seq got (countLink lsrc total false x)).yard.drvOff = x.yard.drvOff ∧
      (segsKept lsrc seq got (countLink lsrc total false x)).yard.vplcLow = x.yard.vplcLow := by
    simp [segsKept, countLink_yard]
  obtain ⟨hin2, hdrv2, hvp2⟩ := hyard
  exact ⟨(hcount.weaken (fun _ _ h => .inr h)).trans (hlink.reach.weaken (fun _ _ h => .inl h)),
    (hlink.reach.on_eq (by decide) (by decide) not_takeObj_rx).trans hon, hin2.trans hin, ⟨hdrv2.trans hdrv, hvp2.trans hvp⟩,
    hlink.sent.trans hs, hlink.dma.trans hd⟩

theorem Entered.air {e : Dev} (h : Entered d e) : SameAir d e := by
  refine h.reach.air (fun num sub ha hk => ?_)
  have hnum : num < 0x18000 ∧ num ≠ 0x3102 ∧ num ≠ 0x3104 ∧ num ≠ 0x3106 := by
    rcases ha with rfl | rfl | ⟨rfl, _⟩ | ⟨rfl, _⟩ <;> decide
  obtain ⟨hlow, hst, hb, hc⟩ := hnum
  rcases hk with (hk | hk | hk) | ⟨hk, _⟩
  · omega
  · exact hst hk
  · exact hb hk
  · exact hc hk

theorem frameAnswered_follows (lsrc seq : Nat) (got : List (Option Bytes)) (stop : Nat) (d : Dev) :
    Follows d (frameAnswered lsrc seq got stop d) := by
  unfold frameAnswered
  split
  · exact yardOut_follows _ d
  · exact .refl d

theorem frameAnswered_sent (lsrc seq : Nat) (got : List (Option Bytes)) (stop : Nat) (hm : yardMaySend d = true)
    (hf : receiptFits d stop = true) (ho : ringSize d 10 ≠ 0) (hi : ringIdle d 10 = true) :
    .yardFrame (airFrame d (yardPsd d) (receiptHeader d lsrc seq (segMask got)) 1 []) ∈ (frameAnswered lsrc seq got stop d).sent := by
  unfold frameAnswered
  rw [if_pos ⟨hm, hf⟩, yardOut_idle ho hi, emit_sent]
  exact List.mem_cons_self

theorem frameDelivered_take (lsrc : Nat) (got : List (Option Bytes)) (d : Dev) : TakeKept d (frameDelivered lsrc got d) :=
  (TakeKept.ite (deliver_take _ _ d) (.refl d)).trans (chooseMaps_take _ _)

theorem frameDelivered_part (lsrc : Nat) (h : got.all (fun x => x.isSome) = false) : (frameDelivered lsrc got d).yard.inbox = d.yard.inbox := by
  rw [frameDelivered, chooseMaps_inbox, h]
  rfl

theorem frameDelivered_whole {lsrc : Nat} {msg : YMsg} (h : got.all (fun x => x.isSome) = true)
    (hm : openMsg (yardNetKey d) lsrc (got.flatMap (fun x => x.getD [])) = some msg) (h0 : fieldLe (got.flatMap (fun x => x.getD [])) 4 2 = 0) :
    (frameDelivered lsrc got d).yard.inbox = d.yard.inbox ++ [msg] := by
  rw [frameDelivered, chooseMaps_inbox, h]
  exact deliver_inbox hm h0

end

section

variable {s : State} (ho : yardOn s.dev = true)

include ho

theorem yardDataFrame_completes {fh : Bytes} {segs : List Bytes} {got : List (Option Bytes)} (stop : Nat) (hf : fhSound s.dev fh = true)
    (hd : fhDataOk fh segs.length = true) (h0 : fieldLe fh 4 2 = 0) (hi : ringIdle s.dev 10 = true) (hg : rxSegs s.dev fh segs = some got)
    (hn : s.dev.yard.rx.find? (fun r => r.lsrc == fieldLe fh 2 2 && r.bcast == false && r.seq == byteAt fh 12) = none) :
    Completes (.yardDataFrame fh segs stop) s (fun e =>
      on e 0x3106 4 = incSat 32 (on s.dev 0x3106 4) ∧
        (yardMaySend s.dev = true → receiptFits s.dev stop = true →
          .yardFrame (airFrame s.dev (yardPsd s.dev) (receiptHeader s.dev (fieldLe fh 2 2) (byteAt fh 12) (segMask got)) 1 []) ∈ e.sent) ∧
        (∀ msg, got.all (fun x => x.isSome) = true →
          openMsg (yardNetKey s.dev) (fieldLe fh 2 2) (got.flatMap (fun x => x.getD [])) = some msg →
          fieldLe (got.flatMap (fun x => x.getD [])) 4 2 = 0 → e.yard.inbox = s.dev.yard.inbox ++ [msg]) ∧
        (got.all (fun x => x.isSome) = false → e.yard.inbox = s.dev.yard.inbox) ∧
        OnlyParts [.yard] s.dev e ∧ e.os.pend = s.dev.os.pend) := by
  have hheard : TakeKept (fresh s) (heard (fieldLe fh 2 2) (fresh s)) := heard_take _ _
  have hyard0 : (heard (fieldLe fh 2 2) (fresh s)).yard = s.dev.yard := heard_yard _ (fresh s)
  have hsize : ringSize (heard (fieldLe fh 2 2) (fresh s)) 10 ≠ 0 := ringSize_of_yardOn (hheard.air.yardOn_eq.trans ho)
  have hidle : ringIdle (heard (fieldLe fh 2 2) (fresh s)) 10 = true := (hheard.air.idle_eq hheard.dma).trans hi
  have hx : ifRun (yardData fh segs stop) (fresh s) = yardTake fh segs stop (passed10 (heard (fieldLe fh 2 2) (fresh s))) := by
    refine (if_pos (running_of_yardOn ho)).trans ?_
    unfold yardData
    rw [if_neg (by rw [show yardOn (fresh s) = true from ho, show fhSound (fresh s) fh = true from hf, hd]; decide)]
    refine (if_pos (.inl h0)).trans ?_
    exact ringPass_idle hsize hidle ..
  refine act_completes (f := ifRun (yardData fh segs stop)) rfl (fun e he => ?_)
  rw [hx] at he
  generalize heard (fieldLe fh 2 2) (fresh s) = x0 at he hheard hyard0 hsize hidle
  have hpass : Follows x0 (passed10 x0) := passed10_follows x0
  have hstart : Reaches [.yard] takeObj s.dev (passed10 x0) := .of_fresh (hheard.reach.follow hpass)
  have hair : SameAir s.dev (passed10 x0) := (hheard.air.trans ((Reaches.of_follows (ps := [.yard]) (K := fun _ _ => False) hpass).air (fun _ _ _ h => h))).of_fresh
  have hdma : (passed10 x0).dma = s.dev.dma := (passed10_dma x0).trans hheard.dma
  have hyard : (passed10 x0).yard = s.dev.yard := (hpass.part .yard).trans hyard0
  have hkey : yardNetKey (passed10 x0) = yardNetKey s.dev := by
    have hk : (passed10 x0).keys = s.dev.keys := hstart.parts .keys (by decide)
    have hgen : on (passed10 x0) 0x503 9 = on s.dev 0x503 9 := hstart.on_eq (by decide) (by decide) (by unfold takeObj; decide)
    rw [yardNetKey, yardNetKey, instKey, instKey, gen, gen, hk, hgen]
  generalize passed10 x0 = x at he hstart hair hdma hyard hkey
  have hsegs : rxSegs x fh segs = some got := by
    refine Eq.trans ?_ hg
    rw [rxSegs, rxSegs, rxSet, rxSet, hyard]
  rw [yardTake_new stop h0 hsegs (by rw [hyard]; exact hn)] at he
  have hent := frameEntered_entered (fieldLe fh 2 2) (byteAt fh 12) segs.length got x
  generalize frameEntered (fieldLe fh 2 2) (byteAt fh 12) got segs.length x = y at he hent
  have hairy : SameAir s.dev y := hair.trans hent.air
  have hans := frameAnswered_follows (fieldLe fh 2 2) (byteAt fh 12) got stop y
  have hgone := frameAnswered_sent (d := y) (fieldLe fh 2 2) (byteAt fh 12) got stop
  generalize frameAnswered (fieldLe fh 2 2) (byteAt fh 12) got stop y = z at he hans hgone
  have hdel := frameDelivered_take (fieldLe fh 2 2) got z
  have hpart := frameDelivered_part (d := z) (got := got) (fieldLe fh 2 2)
  have hwhole := fun msg => frameDelivered_whole (d := z) (got := got) (lsrc := fieldLe fh 2 2) (msg := msg)
  generalize frameDelivered (fieldLe fh 2 2) got z = w at he hdel hpart hwhole
  have hzin : z.yard.inbox = s.dev.yard.inbox := by rw [hans.part .yard, hent.inbox, hyard]
  have hzkey : yardNetKey z = yardNetKey s.dev := by
    have hk : z.keys = x.keys := ((hent.reach.follow hans).parts .keys (by decide))
    have hgen : on z 0x503 9 = on x 0x503 9 := (hent.reach.follow hans).on_eq (by decide) (by decide) (by unfold takeObj; decide)
    rw [← hkey, yardNetKey, yardNetKey, instKey, instKey, gen, gen, hk, hgen]
  have hein : e.yard.inbox = w.yard.inbox := congrArg YardS.inbox (he.part .yard)
  refine ⟨?_, fun hm hfit => he.sent _ ?_, fun msg hall hopen hdst => ?_, fun hall => ?_, ?_⟩
  · rw [he.on_low (by decide) (by decide), hdel.reach.on_eq (by decide) (by decide) not_takeObj_rx, hans.on_low (by decide) (by decide), hent.count,
      hstart.on_eq (by decide) (by decide) not_takeObj_rx]
  · rw [hdel.sent, ← hairy.airFrame_eq, ← hairy.yardPsd_eq, ← hairy.receiptHeader_eq]
    refine hgone ?_ ((hairy.receiptFits_eq stop).trans hfit) (ringSize_of_yardOn (hairy.yardOn_eq.trans ho))
      ((hairy.idle_eq (hent.dma.trans hdma)).trans hi)
    exact (hairy.maySend_eq (by rw [hent.driver.1, hyard]) (by rw [hent.driver.2, hyard])).trans hm
  · rw [hein, hwhole msg hall (by rw [hzkey]; exact hopen) hdst, hzin]
  · rw [hein, hpart hall, hzin]
  · exact ((((hstart.weaken (fun _ _ _ => trivial : ∀ _ _, _ → (fun _ _ => True) _ _)).trans (hent.reach.weaken (fun _ _ _ => trivial))).follow hans).trans
      (hdel.reach.weaken (fun _ _ _ => trivial))).follow he |>.only

/-! ### Receipts (R400, R404) -/

theorem receiptFrame_completes {fh : Bytes} {t : YTx} (hf : fhSound s.dev fh = true) (hk : byteAt fh 0 = 0x13) (h0 : fieldLe fh 4 2 = 0)
    (ht : s.dev.yard.tx.find? (fun t => t.wait && t.ldst == fieldLe fh 2 2 && t.seq == byteAt fh 6) = some t)
    (hall : ∀ k, k < t.left.length → (fieldLe fh 7 6).testBit k = true) : Completes (.receiptFrame fh) s (fun e =>
      e.yard.tx = s.dev.yard.tx.erase t ∧ OnlyParts [.yard] s.dev e ∧ e.os.pend = s.dev.os.pend) := by
  have hnone : ((List.range t.left.length).zip t.left).filterMap (fun p => if (fieldLe fh 7 6).testBit p.1 then none else some p.2) = [] :=
    List.filterMap_eq_nil_iff.2 (fun p hp => if_pos (hall _ (List.mem_range.1 (List.of_mem_zip hp).1)))
  have hx : ifRun (yardReceipt fh) (fresh s) = modYard (fun y => { y with tx := y.tx.erase t }) (heard (fieldLe fh 2 2) (fresh s)) := by
    refine (if_pos (running_of_yardOn ho)).trans ?_
    unfold yardReceipt
    rw [if_neg (by rw [show yardOn (fresh s) = true from ho, show fhSound (fresh s) fh = true from hf, hk, h0]; decide),
      show (fresh s).yard = s.dev.yard from rfl, ht]
    dsimp only
    rw [hnone]
    exact if_pos rfl
  have hheard : TakeKept (fresh s) (heard (fieldLe fh 2 2) (fresh s)) := heard_take _ _
  have hyard : (heard (fieldLe fh 2 2) (fresh s)).yard = s.dev.yard := heard_yard _ (fresh s)
  refine act_completes (f := ifRun (yardReceipt fh)) rfl (fun e he => ?_)
  rw [hx] at he
  generalize heard (fieldLe fh 2 2) (fresh s) = x at he hheard hyard
  refine ⟨?_, (Reaches.of_fresh ((hheard.reach.modYard (by decide) _).follow he)).only⟩
  rw [show e.yard = { x.yard with tx := x.yard.tx.erase t } from he.part .yard, hyard]

variable {ldst seq : Nat} {t : YTx} (ht : s.dev.yard.tx.find? (fun t => t.wait && t.ldst == ldst && t.seq == seq) = some t) (hl : t.left ≠ [])

include ht in
theorem receiptMissing_eq : ifRun (receiptMissing ldst seq) (fresh s) = txAgain t t.left (fresh s) := by
  refine (if_pos (running_of_yardOn ho)).trans ?_
  unfold receiptMissing
  rw [if_neg (by rw [show yardOn (fresh s) = true from ho]; decide), show (fresh s).yard = s.dev.yard from rfl, ht]

include ht hl

theorem receiptMissing_gives_up (h5 : 5 ≤ t.tries) : Completes (.receiptMissing ldst seq) s (fun e =>
    e.yard.tx = s.dev.yard.tx.erase t ∧ on e 0x3106 5 = satU 32 (on s.dev 0x3106 5 + t.left.length) ∧ Framed [.yard] [(0x3106, 5)] s.dev e) := by
  have hx : txAgain t t.left (fresh s) = put 0x3106 5 (satU 32 (on (fresh s) 0x3106 5 + t.left.length))
      (modYard (fun y => { y with tx := y.tx.erase t }) (fresh s)) := (if_neg hl).trans (if_pos h5)
  refine act_completes (f := ifRun (receiptMissing ldst seq)) rfl (fun e he => ?_)
  rw [receiptMissing_eq ho ht, hx] at he
  have hyard : e.yard = { s.dev.yard with tx := s.dev.yard.tx.erase t } := by
    rw [he.part .yard, put_yard, modYard_yard]
    rfl
  refine ⟨by rw [hyard], ?_, .of_fresh (.follow (.put (by decide) List.mem_cons_self (.yard (by decide) (.refl _ _ _) _)) he)⟩
  rw [he.on_low (by decide) (by decide), on_put_same, on_fresh]

theorem receiptMissing_repeats (h5 : t.tries < 5) : Completes (.receiptMissing ldst seq) s (fun e =>
    e.yard = { s.dev.yard with tx := s.dev.yard.tx.map (fun x => if x = t then { t with wait := false } else x) } ∧ Framed [.yard] [] s.dev e) := by
  have hx : txAgain t t.left (fresh s) =
      modYard (fun y => { y with tx := y.tx.map (fun x => if x = t then { t with wait := false } else x) }) (fresh s) :=
    (if_neg hl).trans (if_neg (by omega))
  refine act_completes (f := ifRun (receiptMissing ldst seq)) rfl (fun e he => ?_)
  rw [receiptMissing_eq ho ht, hx] at he
  exact ⟨he.part .yard, .of_fresh (.follow (.yard (by decide) (.refl _ _ _) _) he)⟩

end

/-! ### A message is sent (R402, R404) -/

section

variable {d : Dev}

/-- The backoff count is b, and so many draws have been made. -/
def backoffDrawn (b : Option Nat) (n : Nat) (d : Dev) : Dev := modYard (fun y => { y with backoff := b }) { d with draws := n }

theorem drawBackoff_fields (d : Dev) : ∃ b n, drawBackoff d = backoffDrawn b n d ∧ (d.yard.backoff.isSome = true → b = d.yard.backoff) ∧
    b.getD 0 ≤ d.yard.backoff.getD 3 := by
  unfold drawBackoff
  split
  case isTrue h =>
    refine ⟨d.yard.backoff, d.draws, rfl, fun _ => rfl, ?_⟩
    cases d.yard.backoff with
    | none => exact Nat.zero_le _
    | some b => exact Nat.le_refl _
  case isFalse h =>
    have hn : d.yard.backoff = none := by
      cases hb : d.yard.backoff with
      | none => rfl
      | some b => exact absurd (.inl (by rw [hb]; rfl)) h
    refine ⟨some (leNat (draw 1 d).1 % 4), d.draws + 1, rfl, fun hs => absurd hs (by rw [hn]; decide), ?_⟩
    rw [hn]
    show leNat (draw 1 d).1 % 4 ≤ 3
    omega

/-- A frame of a message has gone out: a broadcast is done, another waits for its RECEIPT. -/
def txSent (t : YTx) (n rate : Nat) (left : List Nat) (d : Dev) : Dev :=
  modYard (fun y => { y with
    backoff := none
    tx := if t.ldst = 0xFFFF then y.tx.erase t
      else y.tx.map (fun x => if x = t then { t with nseg := n, rate := rate, left := left, tries := t.tries + 1, wait := true } else x) })
    (incr 32 0x3106 3 d)

/-- The set toward the destination of a message. -/
def phyOf (t : YTx) (d : Dev) : Phy := if t.ldst = 0xFFFF then basePhy d else phyTo d t.ldst

/-- The segments of a message at a rate: as before where the rate is the same. -/
def sendSegs (t : YTx) (p : Phy) : Nat := if t.nseg ≠ 0 ∧ t.rate = p.rate then t.nseg else segsOf (segPay p.rate) t.msg

/-- The segments that go out now. -/
def sendLeft (t : YTx) (p : Phy) : List Nat := if t.nseg ≠ 0 ∧ t.rate = p.rate then t.left else List.range (sendSegs t p)

/-- The end of a frame, with its RECEIPT. -/
def sendStop (t : YTx) (p : Phy) (start nsym : Nat) : Nat :=
  start + 1920 + nsym * tSym p.gi + (if t.ldst = 0xFFFF then 0 else 1050 + 1920)

/-- The header of a frame of a message. -/
def sendHeader (t : YTx) (p : Phy) (nsym : Nat) (d : Dev) : Bytes :=
  dataHeader d 0x12 t.ldst p.mapsel (sendLeft t p).length nsym t.seq

/-- The symbols of a frame of a message, on their carriers. -/
def sendSymbols (t : YTx) (p : Phy) (start : Nat) (caps : List Nat) (d : Dev) : List (List (Nat × List Bool)) :=
  onCarriers d p start (frameSymbols p caps ((sendLeft t p).map (segmentOf (segPay p.rate) t.msg)))

/-- A frame of a message. -/
def sendFrame (t : YTx) (p : Phy) (start : Nat) (caps : List Nat) (d : Dev) : YardAir :=
  airFrame d (yardPsd d) (sendHeader t p caps.length d) p.gi (sendSymbols t p start caps d)

variable {x : Dev} {start idle slots : Nat} {t : YTx} {caps : List Nat} {last : Nat × Bool} (hm : yardMaySend d = true)
  (hi : ringIdle d 10 = true) (hb : drawBackoff d = x) (ht : txHead x = some t)
  (hc : symsOf x (phyOf t x) start (sendLeft t (phyOf t x)).length = some caps) (hr : regionEnd x start idle = some last)

include hm hi hb ht hc hr

theorem yardSend_found : yardSend start idle slots d =
    if last.1 < sendStop t (phyOf t x) start caps.length || (last.2 && !(backoffDone x start idle slots)) then x
    else drawBackoff (txSent t (sendSegs t (phyOf t x)) (phyOf t x).rate (sendLeft t (phyOf t x)) (yardOut (sendFrame t (phyOf t x) start caps x) x)) := by
  unfold yardSend
  rw [if_neg (by simp [hm, hi]), hb]
  dsimp only
  rw [ht]
  simp only [decide_eq_true_eq]
  change (match symsOf x (phyOf t x) start (sendLeft t (phyOf t x)).length, regionEnd x start idle with
    | some caps, some last => _
    | _, _ => x) = _
  rw [hc, hr]
  rfl

theorem yardSend_goes (hs : sendStop t (phyOf t x) start caps.length ≤ last.1) (hk : last.2 = true → backoffDone x start idle slots = true) :
    yardSend start idle slots d = drawBackoff (txSent t (sendSegs t (phyOf t x)) (phyOf t x).rate (sendLeft t (phyOf t x))
      (yardOut (sendFrame t (phyOf t x) start caps x) x)) := by
  refine (yardSend_found hm hi hb ht hc hr).trans (if_neg ?_)
  cases hl : last.2 with
  | false => simp [hs]
  | true => simp [hs, hk hl]

theorem yardSend_keeps (hs : last.1 < sendStop t (phyOf t x) start caps.length) : yardSend start idle slots d = x :=
  (yardSend_found hm hi hb ht hc hr).trans (if_pos (by simp [hs]))

end

section

variable {s : State} {start idle slots : Nat} {t : YTx} {caps : List Nat} {last : Nat × Bool} (hm : yardMaySend s.dev = true)
  (hi : ringIdle s.dev 10 = true) (ht : txHead s.dev = some t)
  (hc : symsOf s.dev (phyOf t s.dev) start (sendLeft t (phyOf t s.dev)).length = some caps) (hr : regionEnd s.dev start idle = some last)

theorem yardOn_of_maySend (hm : yardMaySend s.dev = true) : yardOn s.dev = true := by
  simp only [yardMaySend, Bool.and_eq_true] at hm
  exact hm.1.1.1

/-- A drawn count leaves what frames are made of. -/
theorem backoffDrawn_air (b : Option Nat) (n : Nat) (d : Dev) : SameAir d (backoffDrawn b n d) := ⟨rfl, rfl, rfl, fun _ _ _ _ => rfl⟩

theorem backoffDrawn_framed {ks : List (Nat × Nat)} (b : Option Nat) (n : Nat) (d : Dev) : Framed [.yard, .draws] ks d (backoffDrawn b n d) :=
  .yard (by decide) (.draws (by decide) (.refl _ _ d) _) _

/-- What a drawn count leaves of the choice of a frame. -/
theorem backoffDrawn_choice (b : Option Nat) (n : Nat) (d : Dev) : txHead (backoffDrawn b n d) = txHead d ∧
    phyOf t (backoffDrawn b n d) = phyOf t d ∧ regionEnd (backoffDrawn b n d) start idle = regionEnd d start idle := ⟨rfl, rfl, rfl⟩

include hm hi ht hc hr

theorem yardFrameSend_keeps (hs : last.1 < sendStop t (phyOf t s.dev) start caps.length) :
    Completes (.yardFrameSend start { since := idle, slots := slots }) s (fun e =>
      e.yard.tx = s.dev.yard.tx ∧ (s.dev.yard.backoff.isSome = true → e.yard.backoff = s.dev.yard.backoff) ∧ Framed [.yard, .draws] [] s.dev e) := by
  obtain ⟨b, n, hb, hold, _⟩ := drawBackoff_fields (fresh s)
  have hx : ifRun (yardSend start idle slots) (fresh s) = backoffDrawn b n (fresh s) :=
    (if_pos (running_of_yardOn (yardOn_of_maySend hm))).trans (yardSend_keeps (d := fresh s) hm hi hb ht hc hr hs)
  refine act_completes (f := ifRun (yardSend start idle slots)) rfl (fun e he => ?_)
  rw [hx] at he
  have hyard : e.yard = { s.dev.yard with backoff := b } := he.part .yard
  exact ⟨by rw [hyard], fun h => by rw [hyard]; exact hold h, .of_fresh ((backoffDrawn_framed b n (fresh s)).follow he)⟩

theorem yardFrameSend_sends (hs : sendStop t (phyOf t s.dev) start caps.length ≤ last.1)
    (hk : last.2 = true → idle + 1200 ≤ start ∧ s.dev.yard.backoff.getD 3 ≤ slots) :
    Completes (.yardFrameSend start { since := idle, slots := slots }) s (fun e =>
      (∃ b, .yardFrame (airFrame s.dev (yardPsd s.dev) (sendHeader t (phyOf t s.dev) caps.length s.dev) (phyOf t s.dev).gi b) ∈ e.sent) ∧
        (t.ldst = 0xFFFF → e.yard.tx = s.dev.yard.tx.erase t) ∧
        (t.ldst ≠ 0xFFFF → e.yard.tx = s.dev.yard.tx.map (fun x => if x = t then { t with
          nseg := sendSegs t (phyOf t s.dev), rate := (phyOf t s.dev).rate, left := sendLeft t (phyOf t s.dev), tries := t.tries + 1, wait := true }
          else x)) ∧
        on e 0x3106 3 = incSat 32 (on s.dev 0x3106 3) ∧ Framed [.yard, .draws] [(0x3106, 3)] s.dev e) := by
  obtain ⟨b, n, hb, _, hle⟩ := drawBackoff_fields (fresh s)
  have hdone : last.2 = true → backoffDone (backoffDrawn b n (fresh s)) start idle slots = true := fun h => by
    obtain ⟨hq, hsl⟩ := hk h
    have hbs : b.getD 0 ≤ slots := Nat.le_trans hle hsl
    have hbk : (backoffDrawn b n (fresh s)).yard.backoff = b := rfl
    rw [backoffDone, hbk, decide_eq_true hq, decide_eq_true hbs]
    rfl
  obtain ⟨hhead, hphy, hregion⟩ := backoffDrawn_choice (t := t) (start := start) (idle := idle) b n (fresh s)
  have hair : SameAir s.dev (backoffDrawn b n (fresh s)) := (backoffDrawn_air b n (fresh s)).of_fresh
  have hfirst : Framed [.yard, .draws] [] s.dev (backoffDrawn b n (fresh s)) := .of_fresh (backoffDrawn_framed b n (fresh s))
  have hdma : (backoffDrawn b n (fresh s)).dma = s.dev.dma := rfl
  have htx : (backoffDrawn b n (fresh s)).yard.tx = s.dev.yard.tx := rfl
  have hrun : ifRun (yardSend start idle slots) (fresh s) = yardSend start idle slots (fresh s) :=
    if_pos (running_of_yardOn (yardOn_of_maySend hm))
  generalize backoffDrawn b n (fresh s) = x at hb hdone hhead hphy hregion hair hfirst hdma htx
  replace hphy : phyOf t x = phyOf t s.dev := hphy
  have hx := hrun.trans (yardSend_goes (d := fresh s) (t := t) (caps := caps) (last := last) hm hi hb (hhead.trans ht)
    (by rw [hphy, hair.symsOf_eq, hc]) (hregion.trans hr) (by rw [hphy]; exact hs) hdone)
  rw [hphy] at hx
  refine act_completes (f := ifRun (yardSend start idle slots)) rfl (fun e he => ?_)
  rw [hx] at he
  have hout := yardOut_follows (sendFrame t (phyOf t s.dev) start caps x) x
  have hgone : .yardFrame (sendFrame t (phyOf t s.dev) start caps x) ∈ (yardOut (sendFrame t (phyOf t s.dev) start caps x) x).sent := by
    rw [yardOut_idle (ringSize_of_yardOn (hair.yardOn_eq.trans (yardOn_of_maySend hm))) ((hair.idle_eq hdma).trans hi), emit_sent]
    exact List.mem_cons_self
  generalize yardOut (sendFrame t (phyOf t s.dev) start caps x) x = y at he hout hgone
  have hytx : y.yard.tx = s.dev.yard.tx := (congrArg YardS.tx (hout.part .yard)).trans htx
  obtain ⟨c, k, hb2, _, _⟩ := drawBackoff_fields (txSent t (sendSegs t (phyOf t s.dev)) (phyOf t s.dev).rate (sendLeft t (phyOf t s.dev)) y)
  rw [hb2] at he
  have hetx : e.yard.tx = (backoffDrawn c k (txSent t (sendSegs t (phyOf t s.dev)) (phyOf t s.dev).rate (sendLeft t (phyOf t s.dev)) y)).yard.tx :=
    congrArg YardS.tx (he.part .yard)
  rw [backoffDrawn, modYard_yard] at hetx
  simp only [txSent, modYard_yard, incr_yard, hytx] at hetx
  refine ⟨⟨sendSymbols t (phyOf t s.dev) start caps x, he.sent _ ?_⟩, fun h => by rw [hetx]; exact if_pos h, fun h => by rw [hetx]; exact if_neg h, ?_, ?_⟩
  · rw [← hair.airFrame_eq, ← hair.yardPsd_eq, sendHeader, ← hair.dataHeader_eq, backoffDrawn, modYard_sent, txSent]
    exact hgone
  · rw [he.on_low (by decide) (by decide), (backoffDrawn_framed (ks := []) c k _).on_eq (by decide) (by decide) (by simp), txSent, on_modYard,
      on_incr_same, hout.on_low (by decide) (by decide), hfirst.on_eq (by decide) (by decide) (by simp)]
  · have hsent : Framed [.yard, .draws] [(0x3106, 3)] s.dev
        (txSent t (sendSegs t (phyOf t s.dev)) (phyOf t s.dev).rate (sendLeft t (phyOf t s.dev)) y) :=
      .yard (by decide) (.put (by decide) List.mem_cons_self ((hfirst.mono (fun _ h => h) (by simp)).follow hout)) _
    exact (hsent.trans (backoffDrawn_framed c k _)).follow he

end

/-- Settles O42: beacon periods, data frames with their receipts, and messages as they are sent. -/
theorem yardFramesMove : Obligations.YardFramesMove := by
  unfold Obligations.YardFramesMove
  refine ⟨fun s ho => ⟨beaconPeriod_early ho, beaconPeriod_completes ho⟩, fun s ho => ⟨?_, ?_, ?_, ?_⟩⟩
  · exact fun fh segs stop got hf hd h0 hi hg hn => yardDataFrame_completes ho stop hf hd h0 hi hg hn
  · exact fun fh t hf hk h0 ht hall => receiptFrame_completes ho hf hk h0 ht hall
  · exact fun ldst seq t ht hl => ⟨receiptMissing_gives_up ho ht hl, receiptMissing_repeats ho ht hl⟩
  · intro start idle slots t caps last hm hi ht p again n left stop hc hr
    exact ⟨fun hs hk => yardFrameSend_sends hm hi ht hc hr hs hk, fun hs => yardFrameSend_keeps hm hi ht hc hr hs⟩

end Sys2Proof

/-! The billing tick credits the units of a tick, or keeps them on a standby unit until the active unit's have come, and legal seconds go
on by one (R320, R338, R464). What the tick does besides leaves the registers and the units as they are. -/

namespace Sys2Proof

open Machine

/-- A value that does not change is only noted. -/
theorem Reaches.putIf {ps : List Part} {K : Nat → Nat → Prop} {d e : Dev} {num sub n : Nat} (hs : sub < 256) (hk : K num sub)
    (h : Reaches ps K d e) : Reaches ps K d (putIf num sub n e) := by
  unfold Machine.putIf
  split
  · refine h.trans ⟨(onlyParts_of_fields rfl).mono (by simp), fun _ _ _ _ _ => ?_, ?_, fun _ _ _ hr => hr⟩ <;>
    · simp only [ov, touchV]
      split <;> rfl
  · exact h.put_low hs hk

theorem Reaches.ses {ps : List Part} {K : Nat → Nat → Prop} {d e : Dev} (hp : .ses ∈ ps) (h : Reaches ps K d e) (x : SesS) :
    Reaches ps K d { e with ses := x } :=
  h.trans (.of_parts (Framed.ses (ks := []) hp (.refl _ _ e) x).1 rfl rfl)

/-! ### What the rest of a tick leaves alone -/

/-- The objects other than the registers of the channels and the legal seconds. -/
abbrev besideRegisters (num _sub : Nat) : Prop := ¬(0x2100 ≤ num ∧ num < 0x2142) ∧ num ≠ 0x2201

/-- The units that wait in a channel, and what it carries over. -/
def unitsOf (c : ChanS) : Nat × Nat × Nat × Nat := (c.uImp, c.uExp, c.rImp, c.rExp)

/-- What a billing tick has done with the units: the list of a standby unit, the token, the channels. -/
def billed (l : LegalS) : List IncS × Bool × (Nat → Nat × Nat × Nat × Nat) := (l.own, l.tickDue, fun m => unitsOf (l.chans.getD m {}))

/-- An update of the legal core that leaves the registers, the legal seconds and the units as they are. -/
structure KeepsBilled (d e : Dev) : Prop where
  reach : Reaches [.legal, .flash, .ses, .draws] besideRegisters d e
  units : billed e.legal = billed d.legal

namespace KeepsBilled

variable {d e f : Dev}

theorem refl (d : Dev) : KeepsBilled d d := ⟨.refl _ _ d, rfl⟩

theorem trans (h : KeepsBilled d e) (k : KeepsBilled e f) : KeepsBilled d f := ⟨h.reach.trans k.reach, k.units.trans h.units⟩

theorem ite {c : Prop} [Decidable c] (h : KeepsBilled d e) (k : KeepsBilled d f) : KeepsBilled d (if c then e else f) := by
  split
  · exact h
  · exact k

theorem forEach {α : Type} {l : List α} {g : α → Dev → Dev} (hg : ∀ a ∈ l, ∀ x, KeepsBilled x (g a x)) (h : KeepsBilled d e) :
    KeepsBilled d (Machine.forEach l g e) :=
  forEach_keeps (P := KeepsBilled d) (fun a ha x hx => hx.trans (hg a ha x)) h

theorem follow (h : KeepsBilled d e) (k : Follows e f) : KeepsBilled d f :=
  ⟨h.reach.follow k, (congrArg billed (k.part .legal)).trans h.units⟩

theorem raise {code inst data : Nat} (h : KeepsBilled d e) : KeepsBilled d (Machine.raise code inst data e) := h.follow (raise_follows _ _ _ _)

theorem put {num sub n : Nat} (hs : sub < 256) (hk : besideRegisters num sub) (h : KeepsBilled d e) : KeepsBilled d (Machine.put num sub n e) :=
  ⟨h.reach.put_low hs hk, h.units⟩

theorem putb {num sub : Nat} {b : Bytes} (hs : sub < 256) (hk : besideRegisters num sub) (h : KeepsBilled d e) :
    KeepsBilled d (Machine.putb num sub b e) :=
  ⟨h.reach.putb_low hs hk, h.units⟩

theorem putIf {num sub n : Nat} (hs : sub < 256) (hk : besideRegisters num sub) (h : KeepsBilled d e) :
    KeepsBilled d (Machine.putIf num sub n e) :=
  ⟨h.reach.putIf hs hk, (by rw [Machine.putIf]; split <;> rfl : billed (Machine.putIf num sub n e).legal = billed e.legal).trans h.units⟩

theorem modLegal {g : LegalS → LegalS} (h : KeepsBilled d e) (hg : ∀ l, billed (g l) = billed l := by exact fun _ => rfl) :
    KeepsBilled d (Machine.modLegal g e) :=
  ⟨h.reach.legal (by simp) _, (hg _).trans h.units⟩

end KeepsBilled

/-! ### The parts of a tick -/

theorem recPost_billed (i typ : Nat) (body : Bytes) (d : Dev) : KeepsBilled d (recPost i typ body d) where
  reach := (Reaches.of_contained (recPost_contained (ps := [.flash]) (ks := [(0x2200, 0)]) (by simp) i typ body (by simp) d)
    (by simp [besideRegisters])).mono (by simp)
  units := congrArg billed (recPost_part (p := .legal) (by decide) i typ body d)

theorem tlEntryAt_billed (lsecAt civilAt kind ch : Nat) (data : Bytes) (d : Dev) : KeepsBilled d (tlEntryAt lsecAt civilAt kind ch data d) := by
  have hlow : ∀ (bit : Nat) (x : Dev), KeepsBilled x (setStatus 0x2200 0 bit x) := fun bit x => .put (by decide) (by decide) (.refl x)
  have hpost : ∀ x : Dev, KeepsBilled d x → KeepsBilled d (if on d 0x220C 1 + 1 = tlHigh then raise 0x5202 noInst 0 (setStatus 0x2200 0 7 x) else x) :=
    fun x hx => .ite (hx.trans (hlow 7 x)).raise hx
  have hfull : ∀ x : Dev, KeepsBilled d x → KeepsBilled d (if on d 0x220C 1 + 1 = tlCapacity then raise 0x5403 noInst 0 (setStatus 0x2200 0 8 x) else x) :=
    fun x hx => .ite (hx.trans (hlow 8 x)).raise hx
  exact .ite (.put (by decide) (by decide) (.refl d)) (hfull _ (hpost _ (.modLegal (.putb (by decide) (by decide)
    (.put (by decide) (by decide) (recPost_billed _ _ _ d))))))

section

variable (d : Dev)

theorem setTariff_billed (t src : Nat) : KeepsBilled d (setTariff t src d) := by
  have hclear : KeepsBilled d (clrStatus 0x2200 0 9 (put 0x2203 3 0 d)) := .put (by decide) (by decide) (.put (by decide) (by decide) (.refl d))
  exact .ite hclear (KeepsBilled.trans (.put (by decide) (by decide) hclear) (tlEntryAt_billed ..)).raise

theorem tariffTick_billed : KeepsBilled d (tariffTick d) := by
  unfold tariffTick
  exact .modLegal (.ite (setTariff_billed d ..) (setTariff_billed d ..))

theorem rflagAll_billed (m : Nat) : KeepsBilled d (rflagAll m d) := .modLegal (.refl d)

theorem setInt_billed (rtype i : Nat) (x : IntS) : KeepsBilled d (setInt rtype i x d) :=
  .modLegal (.refl d) (fun l => by split_ifs <;> rfl)

theorem openDue_billed (rtype fl : Nat) (cl : Int) : KeepsBilled d (openDue rtype fl cl d) :=
  .ite (.refl d) (.forEach (fun _ _ x => .ite (.refl x) (setInt_billed x ..)) (.refl d))

theorem intRecord_billed (rtype m lsecEnd : Nat) (x : IntS) : KeepsBilled d (intRecord rtype m lsecEnd x d) :=
  (KeepsBilled.modLegal (.refl d)).trans (recPost_billed ..)

theorem publishDemand_billed (k lsecEnd : Nat) (x : IntS) : KeepsBilled d (publishDemand k lsecEnd x d) := by
  have hk : ∀ sub, besideRegisters (0x2208 + k) sub := fun sub => by omega
  have h := KeepsBilled.put (sub := 2) (n := x.rflags) (by decide) (hk _) (.put (sub := 1) (n := demandKw x) (by decide) (hk _) (.refl d))
  exact .ite (.put (by decide) (hk _) (.put (by decide) (hk _) (.put (by decide) (hk _) h))) h

theorem finishInt_billed (rtype m lsecEnd : Nat) (x : IntS) : KeepsBilled d (finishInt rtype m lsecEnd x d) :=
  .ite (.ite ((publishDemand_billed d ..).trans (intRecord_billed ..)) (.refl d)) (intRecord_billed d ..)

theorem closeInt_billed (rtype i fl lsecEnd : Nat) : KeepsBilled d (closeInt rtype i fl lsecEnd d) :=
  .ite (.modLegal (setInt_billed d ..)) ((setInt_billed d ..).trans (finishInt_billed ..))

theorem closeDue_billed (rtype : Nat) (cl due : Int) (step : Bool) : KeepsBilled d (closeDue rtype cl due step d) :=
  .forEach (fun _ _ x => .ite (closeInt_billed x ..) (.refl x)) (.refl d)

/-- What a check of a channel resets is not among its units. -/
theorem modCh_billed (m : Nat) (g : ChanS → ChanS) (hg : ∀ c, unitsOf (g c) = unitsOf c := by exact fun _ => rfl) :
    KeepsBilled d (modCh m g d) :=
  .modLegal (.refl d) (fun l => by
    refine congrArg (fun u => (l.own, l.tickDue, u)) (funext fun k => ?_)
    by_cases hk : m = k
    · exact hk ▸ (congrArg unitsOf (getD_modAt_same l.chans m g)).trans (hg _)
    · exact congrArg unitsOf (getD_modAt_other l.chans m k g hk))

/-- The sums of the next interval start. -/
def sumsReset (c : ChanS) : ChanS := { c with ownImp := 0, ownExp := 0, mirImp := 0, mirExp := 0, devDue := none }

theorem deviationOf_billed (m : Nat) : KeepsBilled d (deviationOf m d) :=
  have h := modCh_billed d m sumsReset
  .ite (h.trans (.put (by decide) (by decide) (.refl _))).raise h

/-- An update of every channel. -/
theorem units_map {g : ChanS → ChanS} (hg : ∀ c, unitsOf (g c) = unitsOf c) (l : List ChanS) (m : Nat) :
    unitsOf ((l.map g).getD m {}) = unitsOf (l.getD m {}) := by
  rw [List.getD_eq_getElem?_getD, List.getD_eq_getElem?_getD, List.getElem?_map]
  cases l[m]? with
  | none => rfl
  | some c => exact hg c

theorem pairDeviation_billed : KeepsBilled d (pairDeviation d) :=
  .ite (.forEach (fun m _ x => .ite (modCh_billed x m _) (deviationOf_billed x m)) (.refl d))
    (.modLegal (.refl d) (fun l => congrArg (fun u => (l.own, l.tickDue, u)) (funext fun m => units_map (g := sumsReset) (fun _ => rfl) l.chans m)))

theorem checkpoint_billed : KeepsBilled d (checkpoint d) := .modLegal (.refl d)

theorem auxFlags_billed {m : Nat} (hm : m < 66) : KeepsBilled d (auxFlags m d) :=
  have hb : besideRegisters (0x2180 + m) 1 := by unfold besideRegisters; omega
  .ite (.refl d) (.put (by decide) hb (.refl d))

theorem signRecord_billed (r : SRec) (regs : List Nat) (lsecC civilC : Nat) : KeepsBilled d (signRecord r regs lsecC civilC d) := by
  have hdraw : KeepsBilled d (draw 32 d).2 := ⟨.of_parts (Framed.draws (ks := []) (by simp) (.refl _ _ d) _).1 rfl rfl, rfl⟩
  unfold signRecord
  exact .modLegal (.ite (.refl d) (hdraw.trans (recPost_billed ..)))

theorem recTick_billed (step : Bool) : KeepsBilled d (recTick step d) :=
  have hsign : KeepsBilled d (if d.pair.role == .standby then d
      else forEach (d.legal.recs.filter (fun r => r.closing && !r.signed && decide (r.age ≥ 10000000))) (fun r d =>
        signRecord { r with rflags := r.rflags ||| (if step then 4 else 0) } (regsOf d r.conn) (lsec d) (civilNs d) d) d) :=
    .ite (.refl d) (.forEach (fun _ _ x => signRecord_billed x ..) (.refl d))
  hsign.trans (.forEach (fun _ _ x => .modLegal (.refl x)) (.refl _))

theorem deliverTick_billed : KeepsBilled d (deliverTick d) :=
  .forEach (fun c _ x =>
    have hc : besideRegisters (oCon c 0x20) 7 := by unfold oCon; omega
    .ite (.putIf (by decide) hc ⟨.ses (by simp) (.refl _ _ x) _, rfl⟩) (.refl x)) (.refl d)

theorem energyPass_billed (its : List RingItem) : KeepsBilled d (ringPass 3 its deliverTick id d) := by
  obtain ⟨x, hx, h | h | h⟩ := ringPass_outcome (by decide : 3 < 16) its deliverTick id d
  · exact h ▸ ((KeepsBilled.refl d).follow hx).trans (deliverTick_billed x)
  · exact h ▸ (KeepsBilled.refl d).follow hx
  · exact h ▸ (KeepsBilled.refl d).follow hx

theorem publishIntake_billed : KeepsBilled d (publishIntake d) :=
  .forEach (fun k hk x => by
    have hb : ∀ sub, besideRegisters (0x100E + k) sub := fun sub => by
      have : k < 2 := by fin_cases hk <;> decide
      omega
    exact .put (by decide) (hb _) (.put (by decide) (hb _) (.put (by decide) (hb _) (.refl x)))) (.refl d)

theorem pageJournal_billed : KeepsBilled d (pageJournal d) :=
  .forEach (fun _ _ x => recPost_billed 5 0x60 _ x) (.modLegal (.refl d))

end

theorem displayTick_billed (d : Dev) : KeepsBilled d (displayTick d) := by
  have hshown : ∀ i n : Nat, ∀ x : Dev, KeepsBilled x (modLegal (fun l =>
      if x.legal.shown + 1 ≥ on x 0x220E 1 then { l with item := (i + 1) % n, shown := 0 } else { l with item := i, shown := x.legal.shown + 1 }) x) :=
    fun i n x => .modLegal (.refl x) (fun l => by split <;> rfl)
  have hseal : ∀ t : Tx, ∀ x : Dev, KeepsBilled x (if sealOpen x then emit t x else x) := fun t x =>
    .ite ((KeepsBilled.refl x).follow (emit_follows t x)) (.refl x)
  have hline : ∀ (t : Tx) (x : Dev), KeepsBilled x (emit t x) := fun t x => (KeepsBilled.refl x).follow (emit_follows t x)
  have hreg : ∀ key wh : Nat, KeepsBilled d (modLegal (fun l => { l with lastShown := alSet l.lastShown key wh }) d) := fun key wh =>
    .modLegal (.refl d)
  unfold displayTick
  refine KeepsBilled.trans (KeepsBilled.trans (KeepsBilled.trans ?_ (hline _ _)) (hseal _ _)) (hshown _ _ _)
  split_ifs
  · exact .refl d
  · exact .refl d
  · exact hreg _ _

/-! ### The tick -/

/-- A step of the civil clock, marked in the timeline. -/
def stepMarked (d : Dev) : Dev :=
  if clockStepped d then
    raise 0x5002 noInst (ofS 64 (legalLocal d - d.legal.cl.getD (legalLocal d) - 1))
      (tlEntry 3 0xFFFF (natLe 8 (d.legal.civilPrev + 1000000000) ++ natLe 8 (civilNs d)) d)
  else d

/-- The intervals that end are closed. -/
def intervalsClosed (cl due : Int) (step : Bool) (d : Dev) : Dev :=
  let x := closeDue 0x23 cl due step (closeDue 0x22 cl due step (closeDue 0x21 cl due step d))
  if closesNow d 0x21 then checkpoint (pairDeviation x) else x

/-- The change of tariff, and the intervals that open under it. -/
def intervalsOpened (cl : Int) (fl : Nat) (d : Dev) : Dev :=
  let x := tariffTick (modLegal (fun l => { l with cl := some cl, civilPrev := civilNs d }) d)
  openDue 0x23 fl cl (openDue 0x22 fl cl (openDue 0x21 fl cl x))

/-- The flags of the records. -/
def recordsFlagged (cl : Int) (d : Dev) : Dev :=
  let d := wrStatus 0x2200 0 1 (repeats d cl) d
  let d := modLegal (fun l => { l with highCivil := some (match l.highCivil with | some h => max h cl | none => cl) }) d
  let d := if d.legal.paramNow then rflagAll 32 d else d
  let d := if sealOpen d then rflagAll 128 d else d
  forEach (List.range 66) auxFlags d

/-- What the tick hands on: session records, delivered energy, the intakes, the display, the journal. -/
def tickHandedOn (moved : Nat) (step : Bool) (d : Dev) : Dev :=
  let d := ringPass 3 (if moved = 0 then [] else List.replicate (moved - 1) .part ++ [.energy]) deliverTick id (recTick step d)
  let d := displayTick (publishIntake d)
  let d := if lsec d % 10 = 0 then pageJournal d else d
  modLegal (fun l => { l with checkTicks := l.checkTicks + 1, paramNow := false, clockChanged := false }) d

/-- What a tick does once the units of its second are in the registers. -/
def tickRest (moved : Nat) (d : Dev) : Dev :=
  tickHandedOn moved (clockStepped d) (recordsFlagged (legalLocal d) (intervalsOpened (legalLocal d) (if clockStepped d then 4 else 0)
    (intervalsClosed (legalLocal d) (d.legal.cl.getD (legalLocal d - 1) + 1) (clockStepped d) (stepMarked d))))

/-- The legal second that a tick begins. -/
def secondBegun (d : Dev) : Dev :=
  let x := modLegal (fun l => { l with tickDue := false }) (tickUnits d)
  put 0x2201 0 (lsec x + 1) x

section

variable (d : Dev)

theorem stepMarked_billed : KeepsBilled d (stepMarked d) := .ite (tlEntryAt_billed _ _ _ _ _ d).raise (.refl d)

theorem intervalsClosed_billed (cl due : Int) (step : Bool) : KeepsBilled d (intervalsClosed cl due step d) := by
  have h := ((closeDue_billed d 0x21 cl due step).trans (closeDue_billed _ 0x22 cl due step)).trans (closeDue_billed _ 0x23 cl due step)
  exact .ite (h.trans ((pairDeviation_billed _).trans (checkpoint_billed _))) h

theorem intervalsOpened_billed (cl : Int) (fl : Nat) : KeepsBilled d (intervalsOpened cl fl d) :=
  have h : KeepsBilled d (modLegal (fun l => { l with cl := some cl, civilPrev := civilNs d }) d) := .modLegal (.refl d)
  (((h.trans (tariffTick_billed _)).trans (openDue_billed ..)).trans (openDue_billed ..)).trans (openDue_billed ..)

theorem recordsFlagged_billed (cl : Int) : KeepsBilled d (recordsFlagged cl d) := by
  have hflags : ∀ (c : Bool) (m : Nat) (x : Dev), KeepsBilled x (if c then rflagAll m x else x) := fun c m x =>
    .ite (rflagAll_billed x m) (.refl x)
  have haux : ∀ x : Dev, KeepsBilled x (forEach (List.range 66) auxFlags x) := fun x =>
    .forEach (fun m hm y => auxFlags_billed y (List.mem_range.1 hm)) (.refl x)
  have hclock : ∀ b : Bool, KeepsBilled d (modLegal (fun l => { l with highCivil := some (match l.highCivil with | some h => max h cl | none => cl) })
      (wrStatus 0x2200 0 1 b d)) := fun b => .modLegal (.put (by decide) (by decide) (.refl d))
  exact (((hclock _).trans (hflags _ 32 _)).trans (hflags _ 128 _)).trans (haux _)

theorem tickHandedOn_billed (moved : Nat) (step : Bool) : KeepsBilled d (tickHandedOn moved step d) := by
  have hpage : ∀ x : Dev, KeepsBilled x (if lsec x % 10 = 0 then pageJournal x else x) := fun x => .ite (pageJournal_billed x) (.refl x)
  have h := ((recTick_billed d step).trans (energyPass_billed _
    (if moved = 0 then [] else List.replicate (moved - 1) .part ++ [.energy]))).trans ((publishIntake_billed _).trans (displayTick_billed _))
  unfold tickHandedOn
  exact .modLegal (h.trans (hpage _))

theorem tickRest_billed (moved : Nat) : KeepsBilled d (tickRest moved d) :=
  (((stepMarked_billed d).trans (intervalsClosed_billed ..)).trans (intervalsOpened_billed ..)).trans
    ((recordsFlagged_billed ..).trans (tickHandedOn_billed ..))

end

theorem billTick_eq (d : Dev) : billTick d = if !(meters d) || !d.legal.tickDue then d else
    tickRest ((d.legal.chans.take 64).filter (fun c => c.uImp != 0 || c.uExp != 0)).length (secondBegun d) := by
  unfold billTick
  refine if_congr Iff.rfl rfl ?_
  extract_lets moved d1 d2 cl prev step d3 p15 due d4 d5 fl d6 d7 d8 d9 d10 d11 d12 d13 d14 d15 d16
  have h2 : secondBegun d = d2 := rfl
  rw [h2]
  clear_value d2
  have h3 : stepMarked d2 = d3 := rfl
  have h5 : intervalsClosed cl due step d3 = d5 := rfl
  have h8 : intervalsOpened cl fl d5 = d8 := rfl
  unfold tickRest
  change _ = tickHandedOn moved step (recordsFlagged cl (intervalsOpened cl fl (intervalsClosed cl due step (stepMarked d2))))
  rw [h3, h5, h8]
  clear_value d8
  have h13 : recordsFlagged cl d8 = d13 := rfl
  rw [h13]
  clear_value d13
  rfl

end Sys2Proof

/-! Whole units enter the registers at a billing tick (R320). -/

namespace Sys2Proof

open Machine

section

variable (d : Dev)

/-! ### The units of a tick -/

/-- The increment of a channel at a tick. -/
def tickInc (m : Nat) (c : ChanS) : IncS :=
  { lsec := lsec d, m := m, tariff := tariff d, imp := c.uImp, exp := c.uExp, tick := d.time.tick, tf := c.tf }

def tickIncs : List IncS := ((List.range 66).zip d.legal.chans).map (fun p => tickInc d p.1 p.2)

/-- The units of the tick are taken from the channels. -/
def unitsTaken : Dev :=
  let t := tariff d
  let ms := d.legal.tickNs / 1000000
  modLegal (fun l => { l with chans := l.chans.map (fun c => { c with uImp := 0, uExp := 0, tf := 0 }) })
    (modLegal (fun l =>
      let f := onOpen (fun x => { x with ms := x.ms + ms, tariffs := setBit x.tariffs (t - 1) })
      { l with p15 := l.p15.map f, p5 := l.p5.map f, dem := l.dem.map f, tickNs := 0
               recs := l.recs.map (fun r => if r.opening.isSome ∧ !r.signed then { r with tariffs := setBit r.tariffs (t - 1) } else r) }) d)

/-- The increments of a tick in the registers. -/
def unitsCredited : Dev := forEach (tickIncs d) addInc (unitsTaken d)

variable {d}

theorem tickUnits_standby (h : d.pair.role = .standby) :
    tickUnits d = modLegal (fun l => { l with own := l.own ++ tickIncs d }) (unitsTaken d) := if_pos (by simp [modLegal, h])

theorem tickUnits_credits (h : d.pair.role ≠ .standby) : tickUnits d =
    if (unitsCredited d).pair.role == .active then modLegal (fun l => { l with toMirror := tickIncs d }) (unitsCredited d)
    else unitsCredited d := if_neg (by simpa [modLegal] using h)

theorem units_unitsTaken (m : Nat) : unitsOf (chanS (unitsTaken d) m) = (0, 0, (chanS d m).rImp, (chanS d m).rExp) := by
  change unitsOf ((d.legal.chans.map _).getD m {}) = (0, 0, (d.legal.chans.getD m {}).rImp, (d.legal.chans.getD m {}).rExp)
  rw [List.getD_eq_getElem?_getD, List.getD_eq_getElem?_getD, List.getElem?_map]
  cases d.legal.chans[m]? <;> rfl

theorem tickIncs_units : (tickIncs d).map (fun i => (i.m, i.imp, i.exp)) =
    ((List.range 66).zip d.legal.chans).map (fun p => (p.1, p.2.uImp, p.2.uExp)) := by
  rw [tickIncs, List.map_map]
  rfl

theorem tickIncs_nodup : (tickIncs d).Nodup := by
  refine List.Nodup.of_map (fun i => i.m) ?_
  have h : (tickIncs d).map (fun i => i.m) = ((List.range 66).zip d.legal.chans).map Prod.fst := by
    rw [tickIncs, List.map_map]
    rfl
  rw [h, List.zip_eq_zip_take_min, List.map_fst_zip (by simp)]
  exact List.nodup_range.sublist (List.take_sublist _ _)

theorem mem_tickIncs {i : IncS} (hi : i ∈ tickIncs d) : i.m < 66 ∧ i = tickInc d i.m (chanS d i.m) := by
  obtain ⟨⟨m, c⟩, hp, rfl⟩ := List.mem_map.1 hi
  obtain ⟨n, hn⟩ := List.mem_iff_getElem?.1 hp
  obtain ⟨hm, hc⟩ := List.getElem?_zip_eq_some.1 hn
  obtain ⟨hlt, hm⟩ := List.getElem?_eq_some_iff.1 hm
  rw [List.length_range] at hlt
  obtain rfl : n = m := by simpa using hm
  have hch : chanS d n = c := by rw [chanS, List.getD_eq_getElem?_getD, hc]; rfl
  exact ⟨hlt, by rw [tickInc, hch]; rfl⟩

theorem tickInc_mem {m : Nat} (hm : m < 66) (hc : m < d.legal.chans.length) : tickInc d m (chanS d m) ∈ tickIncs d := by
  refine List.mem_map.2 ⟨(m, chanS d m), List.mem_iff_getElem?.2 ⟨m, List.getElem?_zip_eq_some.2 ⟨?_, ?_⟩⟩, rfl⟩
  · simp [hm]
  · rw [chanS, List.getD_eq_getElem?_getD, List.getElem?_eq_getElem hc]; rfl

end

/-! ### Registers -/

/-- A register after units have been added; at its top it stays. -/
def creditOf (u v : Nat) : Nat := if u = 0 then v else satU 96 (v + u)

/-- The units of an increment that go into a register. -/
def incUnits (i : IncS) (sub : Nat) : Nat :=
  if sub = 1 ∨ sub = 2 + i.tariff then i.imp else if sub = 2 ∨ sub = 6 + i.tariff then i.exp else 0

section

variable {d : Dev} {i : IncS} {m sub u num k : Nat}

theorem on_regAdded_same : on (regAdded m sub u d) (0x2100 + m) sub = creditOf u (on d (0x2100 + m) sub) := by
  unfold regAdded creditOf
  split
  · rfl
  · exact on_put_same _ _ _ _

theorem on_regAdded_other (hs : sub < 256) (hk : k < 256) (h : num ≠ 0x2100 + m ∨ k ≠ sub) :
    on (regAdded m sub u d) num k = on d num k := by
  unfold regAdded
  split
  · rfl
  · refine on_put_other _ _ _ _ _ _ (fun heq => ?_)
    obtain ⟨hn, hsub⟩ := okey_inj hs hk heq
    exact h.elim (fun h => h hn.symm) (fun h => h hsub.symm)

/-- The registers of an increment are four different ones. -/
theorem on_regsAdded (ht : 1 ≤ i.tariff) (ht' : i.tariff ≤ 4) (hk : k < 256) :
    on (regsAdded i d) (0x2100 + i.m) k = creditOf (incUnits i k) (on d (0x2100 + i.m) k) := by
  have hother : ∀ (sub u : Nat) (x : Dev), sub < 256 → k ≠ sub → on (regAdded i.m sub u x) (0x2100 + i.m) k = on x (0x2100 + i.m) k :=
    fun sub u x hs h => on_regAdded_other hs hk (.inr h)
  unfold regsAdded incUnits
  by_cases h1 : k = 1
  · subst h1
    rw [on_regAdded_same, hother 2 _ _ (by omega) (by omega), hother (2 + i.tariff) _ _ (by omega) (by omega),
      hother (6 + i.tariff) _ _ (by omega) (by omega), if_pos (.inl rfl)]
  rw [hother 1 _ _ (by omega) h1]
  by_cases h2 : k = 2
  · subst h2
    rw [on_regAdded_same, hother (2 + i.tariff) _ _ (by omega) (by omega), hother (6 + i.tariff) _ _ (by omega) (by omega),
      if_neg (by omega), if_pos (.inl rfl)]
  rw [hother 2 _ _ (by omega) h2]
  by_cases h3 : k = 2 + i.tariff
  · subst h3
    rw [on_regAdded_same, hother (6 + i.tariff) _ _ (by omega) (by omega), if_pos (.inr rfl)]
  rw [hother (2 + i.tariff) _ _ (by omega) h3]
  by_cases h4 : k = 6 + i.tariff
  · subst h4
    rw [on_regAdded_same, if_neg (by omega), if_pos (.inr rfl)]
  rw [hother (6 + i.tariff) _ _ (by omega) h4, if_neg (by omega), if_neg (by omega)]
  rfl

theorem on_addInc (ht : 1 ≤ i.tariff) (ht' : i.tariff ≤ 4) (hk : k < 256) :
    on (addInc i d) (0x2100 + i.m) k = creditOf (incUnits i k) (on d (0x2100 + i.m) k) := by
  rw [addInc_eq]
  split
  case isTrue h =>
    obtain ⟨himp, hexp⟩ := h
    rw [incUnits, himp, hexp, ite_self, ite_self]
    rfl
  case isFalse => exact on_regsAdded ht ht' hk

theorem on_addInc_other (ht' : i.tariff ≤ 4) (hk : k < 256) (h : num ≠ 0x2100 + i.m) : on (addInc i d) num k = on d num k := by
  have hother : ∀ (sub u : Nat) (x : Dev), sub < 256 → on (regAdded i.m sub u x) num k = on x num k :=
    fun sub u x hs => on_regAdded_other hs hk (.inl h)
  rw [addInc_eq]
  split
  · rfl
  · exact (hother 1 _ _ (by omega)).trans ((hother 2 _ _ (by omega)).trans ((hother _ _ _ (by omega)).trans (hother _ _ _ (by omega))))

theorem billed_addInc : billed (addInc i d).legal = billed d.legal := by
  have hreg : ∀ (sub u : Nat) (x : Dev), (regAdded i.m sub u x).legal = x.legal := fun sub u x => by
    unfold regAdded
    split <;> rfl
  have hregs : (regsAdded i d).legal = d.legal := ((hreg ..).trans (hreg ..)).trans ((hreg ..).trans (hreg ..))
  rw [addInc_eq]
  split
  · rfl
  · exact (congrArg billed hregs :)

end

section

variable {d : Dev} {m k : Nat}

theorem on_unitsCredited (ht : 1 ≤ tariff d) (ht' : tariff d ≤ 4) (hm : m < 66) (hk : k < 256) :
    on (unitsCredited d) (0x2100 + m) k = creditOf (incUnits (tickInc d m (chanS d m)) k) (on d (0x2100 + m) k) := by
  have hstay : ∀ i ∈ tickIncs d, i ≠ tickInc d m (chanS d m) → ∀ x, on (addInc i x) (0x2100 + m) k = on x (0x2100 + m) k := fun i hi hne x => by
    obtain ⟨-, hi'⟩ := mem_tickIncs hi
    refine on_addInc_other (hi' ▸ ht') hk (fun h => hne ?_)
    obtain rfl : m = i.m := by omega
    exact hi'
  by_cases hc : m < d.legal.chans.length
  · exact forEach_turn (P := fun x => on x (0x2100 + m) k = on d (0x2100 + m) k)
      (Q := fun x => on x (0x2100 + m) k = creditOf (incUnits (tickInc d m (chanS d m)) k) (on d (0x2100 + m) k))
      tickIncs_nodup (tickInc_mem hm hc) (fun i hi hne x hx => (hstay i hi hne x).trans hx) (fun i hi hne x hx => (hstay i hi hne x).trans hx)
      (fun x hx => hx ▸ on_addInc (i := tickInc d m (chanS d m)) ht ht' hk) rfl
  · have hnone : chanS d m = {} := by rw [chanS, List.getD_eq_getElem?_getD, List.getElem?_eq_none (by omega)]; rfl
    have hzero : incUnits (tickInc d m (chanS d m)) k = 0 := by rw [hnone, incUnits]; exact (ite_congr rfl (fun _ => rfl) (fun _ => ite_self 0)).trans (ite_self 0)
    rw [hzero]
    refine forEach_keeps (P := fun x => on x (0x2100 + m) k = on d (0x2100 + m) k) (fun i hi x hx => (hstay i hi (fun h => hc ?_) x).trans hx) rfl
    obtain ⟨⟨n, c⟩, hp, hi'⟩ := List.mem_map.1 hi
    obtain ⟨j, hj⟩ := List.mem_iff_getElem?.1 hp
    obtain ⟨hn, hcj⟩ := List.getElem?_zip_eq_some.1 hj
    obtain ⟨hlt, hn⟩ := List.getElem?_eq_some_iff.1 hn
    obtain rfl : j = n := by simpa using hn
    obtain rfl : j = m := (congrArg IncS.m hi').trans (congrArg IncS.m h)
    exact (List.getElem?_eq_some_iff.1 hcj).1

theorem unitsCredited_legalSeconds (ht' : tariff d ≤ 4) : on (unitsCredited d) 0x2201 0 = on d 0x2201 0 :=
  forEach_keeps (P := fun x => on x 0x2201 0 = on d 0x2201 0) (fun i hi x hx => by
    obtain ⟨hm, hi'⟩ := mem_tickIncs hi
    exact (on_addInc_other (hi' ▸ ht') (by decide) (by omega)).trans hx) rfl

theorem billed_unitsCredited : billed (unitsCredited d).legal = billed (unitsTaken d).legal :=
  forEach_keeps (P := fun x => billed x.legal = billed (unitsTaken d).legal) (fun _ _ _ hx => billed_addInc.trans hx) rfl

theorem unitsTaken_reaches (K : Nat → Nat → Prop) : Reaches [.legal, .flash] K d (unitsTaken d) :=
  .legal (by simp) (.legal (by simp) (.refl _ _ d) _) _

theorem unitsCredited_reaches : Reaches [.legal, .flash] legalNums d (unitsCredited d) :=
  (unitsTaken_reaches _).trans (KeepsOwn.forEach (fun i x => addInc_keeps x i) (.refl _)).reach

theorem tickUnits_reaches : Reaches [.legal, .flash] legalNums d (tickUnits d) := by
  by_cases h : d.pair.role = .standby
  · exact tickUnits_standby h ▸ .legal (by simp) (unitsTaken_reaches _) _
  · exact tickUnits_credits h ▸ .ite (.legal (by simp) unitsCredited_reaches _) unitsCredited_reaches

theorem secondBegun_reaches : Reaches [.legal, .flash] legalNums d (secondBegun d) :=
  .put_low (by decide) (by decide : 0x2000 ≤ 0x2201) (.legal (by simp) tickUnits_reaches _)

theorem on_secondBegun_register (hm : m < 66) (hk : k < 256) : on (secondBegun d) (0x2100 + m) k = on (tickUnits d) (0x2100 + m) k :=
  on_put_other _ _ _ _ _ _ (fun h => by have := (okey_inj (by decide) hk h).1; omega)

theorem billed_secondBegun : billed (secondBegun d).legal = ((billed (tickUnits d).legal).1, false, (billed (tickUnits d).legal).2.2) := rfl

/-- What a tick that is due does, on a unit that meters. -/
theorem billTick_billed (hm : meters d = true) (hd : d.legal.tickDue = true) : KeepsBilled (secondBegun d) (billTick d) := by
  rw [billTick_eq, if_neg (by simp [hm, hd])]
  exact tickRest_billed _ _

end

/-! ### The obligation -/

section

variable {s : State} {e : Dev}

/-- What a tick that is due leaves of the second begun. -/
structure TickDone (s : State) (e : Dev) : Prop where
  parts : OnlyParts [.legal, .flash, .ses, .draws] s.dev e
  pend : e.os.pend = s.dev.os.pend
  seconds : on e 0x2201 0 = on (tickUnits (fresh s)) 0x2201 0 + 1
  due : e.legal.tickDue = false
  own : e.legal.own = (tickUnits (fresh s)).legal.own
  units : ∀ m, unitsOf (chanS e m) = unitsOf (chanS (tickUnits (fresh s)) m)
  registers : ∀ m k, m < 66 → k < 256 → on e (0x2100 + m) k = on (tickUnits (fresh s)) (0x2100 + m) k

theorem billTick_done (hm : meters s.dev = true) (hd : s.dev.legal.tickDue = true) (he : Follows (billTick (fresh s)) e) : TickDone s e := by
  have h := (billTick_billed (d := fresh s) hm hd).follow he
  have hall : Reaches [.legal, .flash, .ses, .draws] (fun _ _ => True) s.dev e :=
    .of_fresh (((secondBegun_reaches.weaken (fun _ _ _ => trivial)).mono (by simp)).trans (h.reach.weaken (fun _ _ _ => trivial)))
  have hunits := h.units.trans billed_secondBegun
  refine ⟨hall.parts, hall.pend, ?_, ?_, ?_, ?_, ?_⟩
  · exact (h.reach.on_eq (by decide) (counted_of_lt _ (by decide)) (by decide)).trans (on_put_same _ _ _ _)
  · exact congrArg (fun b => b.2.1) hunits
  · exact congrArg (fun b => b.1) hunits
  · exact fun m => congrArg (fun b => b.2.2 m) hunits
  · exact fun m k hm hk => (h.reach.on_eq hk (counted_of_lt _ (by omega)) (by omega)).trans (on_secondBegun_register hm hk)

/-- A standby unit keeps the units of the tick (R328). -/
theorem billingTick_standby (hm : meters s.dev = true) (hd : s.dev.legal.tickDue = true) (hr : s.dev.pair.role = .standby) :
    Completes .billingTick s (fun e =>
      on e 0x2201 0 = on s.dev 0x2201 0 + 1 ∧ e.legal.tickDue = false ∧
        (∀ m k, m < 66 → k ≤ 10 → on e (0x2100 + m) k = on s.dev (0x2100 + m) k) ∧
        (∀ m, m < 66 → (chanS e m).uImp = 0 ∧ (chanS e m).uExp = 0) ∧
        (∃ own, e.legal.own = s.dev.legal.own ++ own ∧ own.map (fun i => (i.m, i.imp, i.exp)) =
          ((List.range 66).zip s.dev.legal.chans).map (fun p => (p.1, p.2.uImp, p.2.uExp))) ∧
        OnlyParts [.legal, .flash, .ses, .draws] s.dev e ∧ e.os.pend = s.dev.os.pend) := by
  refine act_completes (f := billTick) rfl (fun e he => ?_)
  obtain ⟨hparts, hpend, hsec, hdue, hown, hunits, hreg⟩ := billTick_done hm hd he
  have hx := tickUnits_standby (d := fresh s) hr
  have hobj : ∀ num sub, on (tickUnits (fresh s)) num sub = on s.dev num sub := fun num sub => by rw [hx]; rfl
  have hlist : (tickUnits (fresh s)).legal.own = s.dev.legal.own ++ tickIncs (fresh s) := by rw [hx]; rfl
  have hzero : ∀ m, unitsOf (chanS e m) = (0, 0, (chanS s.dev m).rImp, (chanS s.dev m).rExp) := fun m =>
    (hunits m).trans ((congrArg (fun x => unitsOf (chanS x m)) hx).trans (units_unitsTaken (d := fresh s) m))
  exact ⟨hsec.trans (congrArg (· + 1) (hobj _ _)), hdue, fun m k hlt hk => (hreg m k hlt (by omega)).trans (hobj _ _),
    fun m _ => ⟨congrArg Prod.fst (hzero m), congrArg (fun u => u.2.1) (hzero m)⟩, ⟨_, hown.trans hlist, tickIncs_units (d := fresh s)⟩,
    hparts, hpend⟩

/-- The active or a single unit credits them, those of the tariff in force included. -/
theorem billingTick_credits (hm : meters s.dev = true) (hd : s.dev.legal.tickDue = true) (hr : s.dev.pair.role ≠ .standby)
    (ht : 1 ≤ tariff s.dev) (ht' : tariff s.dev ≤ 4) :
    Completes .billingTick s (fun e =>
      on e 0x2201 0 = on s.dev 0x2201 0 + 1 ∧ e.legal.tickDue = false ∧
        (∀ m, m < 66 →
          let c := chanS s.dev m
          let credit := fun (sub u : Nat) =>
            on e (0x2100 + m) sub = (if u = 0 then on s.dev (0x2100 + m) sub else satU 96 (on s.dev (0x2100 + m) sub + u))
          credit 1 c.uImp ∧ credit 2 c.uExp ∧ credit (2 + tariff s.dev) c.uImp ∧ credit (6 + tariff s.dev) c.uExp ∧
            (∀ t, 1 ≤ t → t ≤ 4 → t ≠ tariff s.dev → on e (0x2100 + m) (2 + t) = on s.dev (0x2100 + m) (2 + t) ∧
              on e (0x2100 + m) (6 + t) = on s.dev (0x2100 + m) (6 + t)) ∧
            (chanS e m).uImp = 0 ∧ (chanS e m).uExp = 0 ∧ (chanS e m).rImp = c.rImp ∧ (chanS e m).rExp = c.rExp) ∧
        OnlyParts [.legal, .flash, .ses, .draws] s.dev e ∧ e.os.pend = s.dev.os.pend) := by
  refine act_completes (f := billTick) rfl (fun e he => ?_)
  obtain ⟨hparts, hpend, hsec, hdue, -, hunits, hreg⟩ := billTick_done hm hd he
  have hobj : ∀ num sub, on (tickUnits (fresh s)) num sub = on (unitsCredited (fresh s)) num sub := fun num sub => by
    rw [tickUnits_credits (d := fresh s) hr]
    split <;> rfl
  have hchan : ∀ m, unitsOf (chanS (tickUnits (fresh s)) m) = unitsOf (chanS (unitsCredited (fresh s)) m) := fun m => by
    rw [tickUnits_credits (d := fresh s) hr]
    split <;> rfl
  have hcredit : ∀ m sub, m < 66 → sub < 256 → on e (0x2100 + m) sub =
      creditOf (incUnits (tickInc (fresh s) m (chanS s.dev m)) sub) (on s.dev (0x2100 + m) sub) := fun m sub hlt hk =>
    (hreg m sub hlt hk).trans ((hobj _ _).trans (on_unitsCredited (d := fresh s) ht ht' hlt hk))
  have hzero : ∀ m, unitsOf (chanS e m) = (0, 0, (chanS s.dev m).rImp, (chanS s.dev m).rExp) := fun m =>
    (hunits m).trans ((hchan m).trans ((congrArg (fun b => b.2.2 m) billed_unitsCredited).trans (units_unitsTaken m)))
  refine ⟨hsec.trans (congrArg (· + 1) ((hobj _ _).trans (unitsCredited_legalSeconds (d := fresh s) ht'))), hdue, fun m hlt => ?_, hparts, hpend⟩
  have hcase : ∀ sub u, sub < 256 → incUnits (tickInc (fresh s) m (chanS s.dev m)) sub = u →
      on e (0x2100 + m) sub = creditOf u (on s.dev (0x2100 + m) sub) := fun sub u hk hu => hu ▸ hcredit m sub hlt hk
  have htar : (tickInc (fresh s) m (chanS s.dev m)).tariff = tariff s.dev := rfl
  refine ⟨hcase _ _ (by decide) (if_pos (.inl rfl)), hcase _ _ (by decide) ?_, hcase _ _ (by omega) (if_pos (.inr rfl)), hcase _ _ (by omega) ?_,
    fun t h1 h4 hne => ⟨hcase _ 0 (by omega) ?_, hcase _ 0 (by omega) ?_⟩, congrArg Prod.fst (hzero m), congrArg (fun u => u.2.1) (hzero m),
    congrArg (fun u => u.2.2.1) (hzero m), congrArg (fun u => u.2.2.2) (hzero m)⟩
  · rw [incUnits, htar, if_neg (by omega), if_pos (.inl rfl)]; rfl
  · rw [incUnits, htar, if_neg (by omega), if_pos (.inr rfl)]; rfl
  · rw [incUnits, htar, if_neg (by omega), if_neg (by omega)]
  · rw [incUnits, htar, if_neg (by omega), if_neg (by omega)]

end

/-- Settles O32: the units of the tick enter the registers, or a standby unit's list, before anything else of the tick, and all that the
tick does after that leaves registers and units as they are. -/
theorem billingTickCredits : Obligations.BillingTickCredits := by
  unfold Obligations.BillingTickCredits
  intro s hm
  refine ⟨fun hd => ?_, fun hd hr => billingTick_standby hm hd hr, fun hd hr ht ht' => billingTick_credits hm hd hr ht ht'⟩
  refine act_completes (f := billTick) rfl (fun e he => .of_fresh ?_)
  have hdue : (fresh s).legal.tickDue = false := hd
  rw [billTick_eq, if_pos (by simp [hdue])] at he
  exact (Framed.refl _ _ (fresh s)).follow he

end Sys2Proof

/-! Transfers of a value in pieces (R375 to R378): an initiate opens a transfer and is answered, DATA appends, the last one commits, and
ACK of the whole value, ABORT and a timeout end it. -/

namespace Sys2Proof

open Machine

/-! ### Numbers in bytes -/

theorem leNat_natLe (n v : Nat) : leNat (natLe n v) = v % 256 ^ n := by
  induction n generalizing v with
  | zero => exact (Nat.mod_one v).symm
  | succ n ih =>
    rw [natLe, leNat, ih, BitVec.toNat_ofNat, Nat.pow_succ' (n := n), Nat.mod_mul (a := 256)]

theorem length_natLe (n v : Nat) : (natLe n v).length = n := by
  induction n generalizing v with
  | zero => rfl
  | succ n ih => simp [natLe, ih]

theorem fieldLe_natLe {n v : Nat} (r : Bytes) (hv : v < 256 ^ n) : fieldLe (natLe n v ++ r) 0 n = v := by
  have htake : (natLe n v ++ r).take n = natLe n v := List.take_left' (length_natLe n v)
  rw [Machine.fieldLe, slice, List.drop_zero, htake, leNat_natLe, Nat.mod_eq_of_lt hv]

/-! ### The checks at an initiate -/

theorem Machine.Alike.initCheck {d e : Dev} (h : Alike d e) (role num sub size : Nat) :
    initCheck e role num sub size = initCheck d role num sub size := by
  unfold Machine.initCheck
  cases ho : findObj num with
  | none => rfl
  | some ol =>
    obtain ⟨o, l⟩ := ol
    dsimp only
    simp only [h.assigned, h.effAcc, h.effTy, h.roleOk, h.levelOk (findObj_fits ho).1, h.stateFixed, h.roomOk, h.recalcing]

/-! ### Transfers of a client -/

section

variable {c : Client} {t : Nat} {d : Dev}

theorem xferOf_dropXfer (c : Client) (t : Nat) (d : Dev) : xferOf? (dropXfer c t d) c t = none := by
  refine List.find?_eq_none.2 (fun x hx h => ?_)
  have := (List.mem_filter.1 hx).2
  simp [h] at this

theorem xferOf_modXfer {f : Xfer → Xfer} (hf : ∀ x, (f x).client = x.client ∧ (f x).tag = x.tag) (c : Client) (t : Nat) (d : Dev) :
    xferOf? (modXfer c t f d) c t = (xferOf? d c t).map f := by
  have hmap : (fun x : Xfer => x.client == c && x.tag == t) ∘ (fun x => if x.client == c && x.tag == t then f x else x) =
      fun x => x.client == c && x.tag == t := by
    funext x
    simp only [Function.comp_apply]
    split
    · rw [(hf x).1, (hf x).2]
    · rfl
  change (d.malpen.xf.map _).find? _ = (d.malpen.xf.find? _).map f
  rw [List.find?_map, hmap]
  cases hx : d.malpen.xf.find? (fun x => x.client == c && x.tag == t) with
  | none => rfl
  | some x => exact congrArg some (if_pos (List.find?_some (p := fun x : Xfer => x.client == c && x.tag == t) hx))

theorem mem_modXfer {f : Xfer → Xfer} {x : Xfer} (hc : x.client = c) (ht : x.tag = t) (h : x ∈ d.malpen.xf) :
    f x ∈ (modXfer c t f d).malpen.xf :=
  List.mem_map.2 ⟨x, h, if_pos (by simp [hc, ht])⟩

/-- What follows a command leaves the transfers alone. -/
theorem Machine.Follows.xfers {e : Dev} (h : Follows d e) : e.malpen.xf = d.malpen.xf :=
  (congrArg MalpenS.xf (h.part .malpen : malpenCore e.malpen = malpenCore d.malpen) :)

theorem Machine.Follows.sessions {e : Dev} (h : Follows d e) : e.malpen.ses.length = d.malpen.ses.length := by
  have h := congrArg (fun m => m.ses.length) (h.part .malpen : malpenCore e.malpen = malpenCore d.malpen)
  simpa [malpenCore] using h

theorem Machine.Follows.xferOf {e : Dev} (h : Follows d e) (c : Client) (t : Nat) : xferOf? e c t = xferOf? d c t := by
  rw [xferOf?, h.xfers, xferOf?]

end

/-! ### What is sent to a client of a field bus -/

section

variable {c k : Client} {pdu b : Bytes} {x : Dev}

theorem sendPdu_malpen (hb : c.bus < 4) (pdu : Bytes) (x : Dev) : (sendPdu c pdu x).malpen = x.malpen := by
  rw [sendPdu, if_pos hb, fbSend]
  split_ifs <;> rfl

theorem sendPdu_os (hb : c.bus < 4) (pdu : Bytes) (x : Dev) : (sendPdu c pdu x).os = x.os := by
  rw [sendPdu, if_pos hb, fbSend]
  split_ifs <;> rfl

theorem fbMaySend_sendPdu (hb : c.bus < 4) (i : Nat) : fbMaySend (sendPdu c pdu x) i = fbMaySend x i := by
  rw [sendPdu, if_pos hb, fbSend]
  split_ifs <;> rfl

/-- An answer that waits still waits when another is sent. -/
theorem replied.sendPdu (h : replied x c pdu) (hb : c.bus < 4) : replied (sendPdu c b x) c pdu := by
  obtain ⟨f, hf, hid, hpay⟩ := h
  refine ⟨f, ?_, hid, hpay⟩
  rw [Machine.sendPdu, if_pos hb, fbSend]
  split_ifs
  · exact hf
  · rw [fbS_modFb_same]
    exact List.mem_append_left _ hf
  · exact hf

theorem replied.follow {e : Dev} (h : replied x c pdu) (he : Follows x e) : replied e c pdu := by
  obtain ⟨f, hf, hid, hpay⟩ := h
  exact ⟨f, he.queued _ _ hf, hid, hpay⟩

end

/-! ### A device on the way of a request -/

/-- What the server makes of the request of a client: only frames to be sent and transfers differ from what it found. -/
structure Serving (s : State) (c : Client) (ks : List (Nat × Nat)) (x : Dev) : Prop where
  frame : Framed [.bus, .malpen] ks s.dev x
  ses : x.malpen.ses = s.dev.malpen.ses
  bus : c.bus < 4
  sends : fbMaySend x c.bus = true

namespace Serving

variable {s : State} {c : Client} {ks : List (Nat × Nat)} {x e : Dev}

theorem modMal (h : Serving s c ks x) (f : MalpenS → MalpenS) (hf : (f x.malpen).ses = x.malpen.ses) : Serving s c ks (modMal f x) :=
  ⟨h.frame.malpen (by simp) _, hf.trans h.ses, h.bus, h.sends⟩

theorem modXfer (h : Serving s c ks x) (k : Client) (t : Nat) (f : Xfer → Xfer) : Serving s c ks (Machine.modXfer k t f x) := h.modMal _ rfl

theorem dropXfer (h : Serving s c ks x) (k : Client) (t : Nat) : Serving s c ks (Machine.dropXfer k t x) := h.modMal _ rfl

theorem sendPdu (h : Serving s c ks x) (pdu : Bytes) : Serving s c ks (Machine.sendPdu c pdu x) :=
  ⟨h.frame.trans ((sendPdu_framed h.bus pdu _ x).mono (by simp) (fun _ hk => hk)), (congrArg MalpenS.ses (sendPdu_malpen h.bus pdu x)).trans h.ses, h.bus,
    (fbMaySend_sendPdu h.bus _).trans h.sends⟩

theorem replied (h : Serving s c ks x) {pdu : Bytes} (hp : pdu ≠ []) : replied (Machine.sendPdu c pdu x) c pdu :=
  replied_sendPdu h.bus h.sends hp (.refl _)

/-- What the statement says of everything else. -/
theorem rest (h : Serving s c ks x) (he : Follows x e) : Framed [.bus, .malpen] ks s.dev e ∧ e.malpen.ses.length = s.dev.malpen.ses.length :=
  ⟨h.frame.follow he, he.sessions.trans (congrArg List.length h.ses)⟩

end Serving

theorem serving_received {s : State} {p : PduIn} (h : hears s.dev p) : Serving s p.c (busObjs p.c.bus) (received s p) where
  frame := .of_fresh ((fbRecv_framed p.c.bus (fresh s)).mono (by simp) (fun _ hk => hk))
  ses := congrArg MalpenS.ses (by rw [(alike_received h).rest, received, fbRecv_rest]; rfl : (received s p).malpen = s.dev.malpen)
  bus := h.1
  sends := (fbMaySend_fbRecv (b := p.c.bus) (d := fresh s)).trans h.2.2.1

/-! ### Reads -/

/-- A read that begins. -/
def readXfer (p : PduIn) (blk : Nat) (v : Bytes) : Xfer :=
  { client := p.c, tag := p.tag, num := p.obj, sub := p.sub, read := true, blk := blk, size := v.length, data := v }

/-- One piece of a value that is read. -/
def pieceSent (c : Client) (t : Nat) (v : Bytes) (off : Nat) (d : Dev) : Dev :=
  modXfer c t (fun x => { x with sent := off + ((v.drop off).take 56).length }) (sendPdu c (offsetPdu 0x0A t off ((v.drop off).take 56)) d)

theorem sendData_one {c : Client} {t : Nat} {v : Bytes} {off : Nat} {d : Dev} (hb : c.bus < 4) (h : off < v.length) :
    sendData 1 c t v off d = pieceSent c t v off d := by
  have hseg : segMax c = 56 := if_pos hb
  rw [sendData, if_neg (by omega), hseg]
  rfl

section

variable {s : State} {p : PduIn} {m : MSes}

/-- A read that is opened, with its first piece. -/
def readOpened (p : PduIn) (blk : Nat) (v : Bytes) (d : Dev) : Dev :=
  pieceSent p.c p.tag v 0 (modMal (fun m => { m with xf := m.xf ++ [readXfer p blk v] }) (sendPdu p.c (initRsp p v.length blk) d))

theorem mInitRead_opens (h : hears s.dev p) {role blk : Nat} {v : Bytes} (hblk : blk ≤ 1) (hr : readCheck s.dev role p.obj p.sub = 0)
    (hn : steadyObj p.obj = true) (hv : (readVal role p.obj p.sub s.dev).1 = v) (hlen : 0 < v.length) :
    mInitRead p role blk (received s p) = readOpened p blk v (received s p) := by
  have hlike := alike_received h
  obtain ⟨hb, _, _, _, _, hword, _⟩ := h
  have hval : (readVal role p.obj p.sub (received s p)).1 = v := (hlike.readVal hn).trans hv
  have hone : max blk 1 = 1 := by omega
  have hempty : v.isEmpty = false := by cases v with | nil => exact absurd hlen (by decide) | cons a l => rfl
  unfold mInitRead
  simp only [hword, accessWord, hlike.readCheck, hr, hval, readVal_snd hn, hempty, hone]
  exact sendData_one hb hlen

theorem xferOf_received (t : Nat) : xferOf? (received s p) p.c t = xferOf? s.dev p.c t := xferOf_fbRecv p.c t

theorem readOpened_serving (h : hears s.dev p) (blk : Nat) (v : Bytes) : Serving s p.c (busObjs p.c.bus) (readOpened p blk v (received s p)) :=
  ((((serving_received h).sendPdu _).modMal _ rfl).sendPdu _).modXfer _ _ _

/-- R375: the value is taken whole; INIT_RSP and the first piece go out. -/
theorem readOpened_answers (h : hears s.dev p) {blk : Nat} {v : Bytes} {e : Dev} (he : Follows (readOpened p blk v (received s p)) e) :
    replied e p.c (initRsp p v.length blk) ∧ replied e p.c (offsetPdu 0x0A p.tag 0 (v.take 56)) ∧
      { readXfer p blk v with sent := (v.take 56).length } ∈ e.malpen.xf ∧
      Framed [.bus, .malpen] (busObjs p.c.bus) s.dev e ∧ e.malpen.ses.length = s.dev.malpen.ses.length := by
  have hb := h.1
  have hinit := (serving_received h).sendPdu (initRsp p v.length blk)
  have hpiece := hinit.modMal (fun m => { m with xf := m.xf ++ [readXfer p blk v] }) rfl
  have hanswer : replied (readOpened p blk v (received s p)) p.c (initRsp p v.length blk) :=
    ((serving_received h).replied (pduBytes_ne_nil _ _ _ _ _) : replied (sendPdu p.c _ _) p.c _).sendPdu (x := modMal _ (sendPdu p.c _ _)) hb
  have hmem : readXfer p blk v ∈ (sendPdu p.c (offsetPdu 0x0A p.tag 0 (v.take 56))
      (modMal (fun m => { m with xf := m.xf ++ [readXfer p blk v] }) (sendPdu p.c (initRsp p v.length blk) (received s p)))).malpen.xf := by
    rw [sendPdu_malpen hb]
    exact List.mem_append_right _ (List.mem_singleton.2 rfl)
  have hxf := mem_modXfer (c := p.c) (t := p.tag) (f := fun x => { x with sent := 0 + ((v.drop 0).take 56).length }) rfl rfl hmem
  have hsent : { readXfer p blk v with sent := (v.take 56).length } =
      { readXfer p blk v with sent := 0 + ((v.drop 0).take 56).length } := by rw [Nat.zero_add, List.drop_zero]
  have hfirst : replied (readOpened p blk v (received s p)) p.c (offsetPdu 0x0A p.tag 0 (v.take 56)) :=
    hpiece.replied (pduBytes_ne_nil _ _ _ _ _)
  exact ⟨hanswer.follow he, hfirst.follow he, hsent ▸ he.xfers ▸ hxf, (readOpened_serving h blk v).rest he⟩

end

section

variable {s : State} {p : PduIn} {m : MSes} {v : Bytes}

theorem segRead_opens (h : InSession s.dev p m) (hd : p.data = []) (hc : xfersOf s.dev p.c < 4) (ha : xfersAll s.dev < 64)
    (hr : readCheck s.dev m.role p.obj p.sub = 0) (hn : steadyObj p.obj = true) (hv : (readVal m.role p.obj p.sub s.dev).1 = v)
    (hlen : 0 < v.length) : mSegRead p (received s p) = readOpened p 0 v (received s p) := by
  rw [mSegRead, inSession_served (g := fun m d => mInitRead p m.role 0 d) h (by simp [hd]) hc ha]
  exact mInitRead_opens h.1 (by decide) hr hn hv hlen

theorem blockView_received (h : hears s.dev p) : blockView (received s p) m = blockView s.dev m := by
  rw [blockView, (alike_received h).on (by decide), blockView]

theorem blkRead_opens {n : Nat} (h : InSession s.dev p m) (hd : p.data = natLe 1 n ++ [0, 0, 0]) (h1 : 1 ≤ n) (hn : n < 256)
    (hview : blockView s.dev m = true) (hblk : on s.dev 0x3016 4 = 1) (hc : xfersOf s.dev p.c < 4) (ha : xfersAll s.dev < 64)
    (hr : readCheck s.dev m.role p.obj p.sub = 0) (hst : steadyObj p.obj = true) (hv : (readVal m.role p.obj p.sub s.dev).1 = v)
    (hlen : 0 < v.length) : mBlkRead p (received s p) = readOpened p 1 v (received s p) := by
  have hbyte : byteAt p.data 0 = n := by
    rw [hd]
    exact Nat.mod_eq_of_lt hn
  have hrest : fieldLe p.data 1 3 = 0 := by rw [hd]; rfl
  have hmin : min n (on (received s p) 0x3016 4) = 1 := by rw [(alike_received h.1).on (by decide), hblk]; omega
  rw [mBlkRead, inSession_served (g := fun m d => if !(blockView d m) then abortTo p aNoBlock d else
    mInitRead p m.role (min (byteAt p.data 0) (on d 0x3016 4)) d) h (by rw [hbyte, hrest]; simp [hd, natLe]; omega) hc ha,
    if_neg (by simp [blockView_received h.1, hview]), hbyte, hmin]
  exact mInitRead_opens h.1 (by decide) hr hst hv hlen

theorem blkRead_refused (h : InSession s.dev p m) (hd : p.data = [1, 0, 0, 0]) (hview : blockView s.dev m = false)
    (hc : xfersOf s.dev p.c < 4) (ha : xfersAll s.dev < 64) : mBlkRead p (received s p) = abortTo p aNoBlock (received s p) := by
  rw [mBlkRead, inSession_served (g := fun m d => if !(blockView d m) then abortTo p aNoBlock d else
    mInitRead p m.role (min (byteAt p.data 0) (on d 0x3016 4)) d) h (by rw [hd]; rfl) hc ha]
  exact if_pos (by simp [blockView_received h.1, hview])

/-! ### Writes -/

/-- A write that begins. -/
def writeXfer (p : PduIn) (size blk : Nat) : Xfer :=
  { client := p.c, tag := p.tag, num := p.obj, sub := p.sub, read := false, blk := blk, size := size, data := [] }

/-- A write that is opened, and answered. -/
def writeOpened (p : PduIn) (size blk : Nat) (d : Dev) : Dev :=
  sendPdu p.c (initRsp p size blk) (modMal (fun m => { m with xf := m.xf ++ [writeXfer p size blk] }) d)

theorem refusesWrite_received (h : hears s.dev p) (num : Nat) : refusesWrite (received s p) num = refusesWrite s.dev num := by
  rw [refusesWrite, (alike_received h).pair, refusesWrite]

theorem mInitWrite_opens (h : hears s.dev p) (mon : Nat → Nat → Dev → Dev) {size blk : Nat} (hw : refusesWrite s.dev p.obj = false)
    (hi : initCheck s.dev m.role p.obj p.sub size = 0) (hsize : 0 < size) :
    mInitWrite mon p m.role size blk (received s p) = writeOpened p size blk (received s p) := by
  have hcheck : initCheck (received s p) m.role p.obj p.sub size = 0 := ((alike_received h).initCheck ..).trans hi
  rw [mInitWrite, if_neg (by rw [refusesWrite_received h, hw]; decide)]
  dsimp only
  rw [hcheck, if_neg (by decide), if_neg (by omega)]
  rfl

theorem writeOpened_answers (h : hears s.dev p) {size blk : Nat} {e : Dev} (he : Follows (writeOpened p size blk (received s p)) e) :
    replied e p.c (initRsp p size blk) ∧ writeXfer p size blk ∈ e.malpen.xf ∧
      Framed [.bus, .malpen] (busObjs p.c.bus) s.dev e ∧ e.malpen.ses.length = s.dev.malpen.ses.length := by
  have hopen := (serving_received h).modMal (fun m => { m with xf := m.xf ++ [writeXfer p size blk] }) rfl
  refine ⟨(hopen.replied (pduBytes_ne_nil _ _ _ _ _)).follow he, ?_, (hopen.sendPdu _).rest he⟩
  rw [he.xfers, writeOpened, sendPdu_malpen h.1]
  exact List.mem_append_right _ (List.mem_singleton.2 rfl)

theorem segWrite_opens (h : InSession s.dev p m) (mon : Nat → Nat → Dev → Dev) {n : Nat} (hw : refusesWrite s.dev p.obj = false)
    (hd : p.data = natLe 4 n) (h0 : 0 < n) (hn : n < 2 ^ 32) (hi : initCheck s.dev m.role p.obj p.sub n = 0)
    (hc : xfersOf s.dev p.c < 4) (ha : xfersAll s.dev < 64) : mSegWrite mon p (received s p) = writeOpened p n 0 (received s p) := by
  have hsize : fieldLe p.data 0 4 = n := by
    rw [hd, ← List.append_nil (natLe 4 n)]
    exact fieldLe_natLe [] hn
  rw [mSegWrite, inSession_served (g := fun m d => mInitWrite mon p m.role (fieldLe p.data 0 4) 0 d) h (by simp [hd, length_natLe]) hc ha, hsize]
  exact mInitWrite_opens h.1 mon hw hi h0

theorem blkWrite_opens (h : InSession s.dev p m) (mon : Nat → Nat → Dev → Dev) {n b : Nat} (hw : refusesWrite s.dev p.obj = false)
    (hd : p.data = natLe 4 n ++ natLe 1 b ++ [0, 0, 0]) (h0 : 0 < n) (hn : n < 2 ^ 32) (h1 : 1 ≤ b) (hb : b < 256)
    (hview : blockView s.dev m = true) (hi : initCheck s.dev m.role p.obj p.sub n = 0)
    (hc : xfersOf s.dev p.c < 4) (ha : xfersAll s.dev < 64) :
    mBlkWrite mon p (received s p) = writeOpened p n (min b (on s.dev 0x3016 4)) (received s p) := by
  have hsize : fieldLe p.data 0 4 = n := by
    rw [hd, List.append_assoc]
    exact fieldLe_natLe _ hn
  have hbyte : byteAt p.data 4 = b := by
    rw [hd]
    exact Nat.mod_eq_of_lt hb
  have hrest : fieldLe p.data 5 3 = 0 := by rw [hd]; rfl
  have hblk : on (received s p) 0x3016 4 = on s.dev 0x3016 4 := (alike_received h.1).on (by decide)
  rw [mBlkWrite, inSession_served (g := fun m d => if !(blockView d m) then abortTo p aNoBlock d else
    mInitWrite mon p m.role (fieldLe p.data 0 4) (min (byteAt p.data 4) (on d 0x3016 4)) d) h
      (by rw [hbyte, hrest]; simp [hd, natLe]; omega) hc ha, if_neg (by simp [blockView_received h.1, hview]), hsize, hbyte, hblk]
  exact mInitWrite_opens h.1 mon hw hi h0

end

end Sys2Proof

/-! Pieces of a transfer in progress, and how it ends (R375 to R377). -/

namespace Sys2Proof

open Machine

theorem Machine.Alike.modMal {d e : Dev} (h : Alike d e) (f : MalpenS → MalpenS) : Alike d (modMal f e) where
  rest := (congrArg (fun x : Dev => { x with malpen := f e.malpen }) h.rest :)
  pend := h.pend
  objs := h.objs

theorem running_of_hears {d : Dev} {p : PduIn} (h : hears d p) : running d = true := by
  obtain ⟨_, hr, _⟩ := h
  simp only [fbMayRecv, Bool.and_eq_true] at hr
  exact hr.1.1.1

section

variable {s : State} {q : PduIn} {m : MSes} {x : Xfer}

/-- A DATA or an ACK of a transfer in progress (R373). -/
theorem inXfer_served {lenOk : Bool} {f : Xfer → Dev → Dev} (hs : sesOf? s.dev q.c = some m) (hx : xferOf? s.dev q.c q.tag = some x)
    (hl : lenOk = true) : inXfer q x.read lenOk f (received s q) = f x (received s q) := by
  have hses : sesOf? (received s q) q.c = some m := (sesOf_fbRecv q.c).trans hs
  have hxf : xferOf? (received s q) q.c q.tag = some x := (xferOf_received q.tag).trans hx
  rw [inXfer, if_neg (by simp [hl]), if_neg (by simp [hses]), hxf]
  exact if_pos rfl

/-! ### DATA of a write -/

/-- A write with the bytes received so far, all acknowledged. -/
def withData (b : Bytes) (y : Xfer) : Xfer := { y with data := b, k := 0 }

section

variable {mon : Nat → Nat → Dev → Dev} (hb : q.c.bus < 4) (hs : sesOf? s.dev q.c = some m) (hx : xferOf? s.dev q.c q.tag = some x)
  (h1 : 1 ≤ q.data.length) (h56 : q.data.length ≤ 56) (hr : x.read = false)

include hb hs hx h1 h56 hr

theorem mData_more (hblk : x.blk = 0) (hoff : pduOffset q = x.data.length) (hlen : x.data.length + q.data.length < x.size) :
    mData mon q (received s q) = sendPdu q.c (offsetPdu 0x0B q.tag (x.data.length + q.data.length) [])
      (modXfer q.c q.tag (withData (x.data ++ q.data)) (received s q)) := by
  have hok : (decide (1 ≤ q.data.length) && decide (q.data.length ≤ segMax q.c)) = true := by simp [segMax, hb, h1, h56]
  rw [mData, ← hr, inXfer_served hs hx hok, if_neg (by simp [hoff])]
  dsimp only
  rw [List.length_append, if_neg (by omega), if_neg (by omega), if_pos (.inl hblk)]
  rfl

theorem mData_again (hblk : x.blk = 0) (hoff : pduOffset q ≠ x.data.length) :
    mData mon q (received s q) = sendPdu q.c (offsetPdu 0x0B q.tag x.data.length []) (received s q) := by
  have hok : (decide (1 ≤ q.data.length) && decide (q.data.length ≤ segMax q.c)) = true := by simp [segMax, hb, h1, h56]
  rw [mData, ← hr, inXfer_served hs hx hok, if_pos hoff, if_pos hblk]

theorem mData_last {w : Pend} (hh : hears s.dev q) (hoff : pduOffset q = x.data.length) (hlen : x.data.length + q.data.length = x.size)
    (hrole : s.dev.pair.role = .single) (hnum : x.num ≠ 0x011) (hst : steadyObj x.num = true)
    (hw : writeCheck s.dev m.role x.num x.sub (x.data ++ q.data) = (0, w)) :
    mData mon q (received s q) = sendPdu q.c (offsetPdu 0x0B q.tag x.size []) (enterWrite w (dropXfer q.c q.tag (received s q))) := by
  have hok : (decide (1 ≤ q.data.length) && decide (q.data.length ≤ segMax q.c)) = true := by simp [segMax, hb, h1, h56]
  have hlike : Alike s.dev (dropXfer q.c q.tag (received s q)) := (alike_received hh).modMal _
  have hses : sesOf? (dropXfer q.c q.tag (received s q)) q.c = some m := (sesOf_fbRecv q.c).trans hs
  have hone : (dropXfer q.c q.tag (received s q)).pair.role = .single := by rw [hlike.pair, hrole]
  have hnames : w.num = x.num := by
    have hown := (writeCheck_names (by rw [hw])).1
    rwa [hw] at hown
  rw [mData, ← hr, inXfer_served hs hx hok, if_neg (by simp [hoff])]
  dsimp only
  rw [List.length_append, if_neg (by omega), if_pos hlen, mCommit]
  simp only [hses]
  rw [if_neg (by simp [refusesWrite, hone])]
  rw [hlike.writeCheck hst, hw, if_neg (fun hne => hne rfl)]
  exact acceptWrite_answers hone (by rw [hnames]; exact hnum)

end

/-! ### ACK of a read -/

section

variable (hs : sesOf? s.dev q.c = some m) (hx : xferOf? s.dev q.c q.tag = some x) (hd : q.data = []) (hr : x.read = true)

include hs hx hd hr

theorem mAck_whole (hoff : pduOffset q = x.size) (hsent : x.size ≤ x.sent) : mAck q (received s q) = dropXfer q.c q.tag (received s q) := by
  rw [mAck, ← hr, inXfer_served hs hx (by simp [hd])]
  dsimp only
  rw [if_neg (by omega), if_pos hoff]

theorem mAck_piece (hb : q.c.bus < 4) (hblk : x.blk = 0) (hsent : pduOffset q ≤ x.sent) (hoff : pduOffset q ≠ x.size)
    (hlen : pduOffset q < x.data.length) : mAck q (received s q) = pieceSent q.c q.tag x.data (pduOffset q) (received s q) := by
  rw [mAck, ← hr, inXfer_served hs hx (by simp [hd])]
  dsimp only
  rw [if_neg (by omega), if_neg hoff, hblk]
  exact sendData_one hb hlen

end

/-! ### What the rows do -/

variable {t : Nat} {p : PduIn}

/-- A transfer is over. -/
def XferOver (s : State) (c : Client) (t : Nat) (e : Dev) : Prop :=
  xferOf? e c t = none ∧ Framed [.bus, .malpen] (busObjs c.bus) s.dev e ∧ e.malpen.ses.length = s.dev.malpen.ses.length

theorem XferOver.of_follows {e : Dev} (h : hears s.dev q) (he : Follows (dropXfer q.c q.tag (received s q)) e) : XferOver s q.c q.tag e :=
  ⟨(he.xferOf _ _).trans (xferOf_dropXfer ..), ((serving_received h).dropXfer q.c q.tag).rest he⟩

section

variable (h : hears s.dev q) (hs : sesOf? s.dev q.c = some m) (hx : xferOf? s.dev q.c q.tag = some x)

include h hs hx

theorem dataPdu_more (h1 : 1 ≤ q.data.length) (h56 : q.data.length ≤ 56) (hr : x.read = false) (hblk : x.blk = 0)
    (hoff : pduOffset q = x.data.length) (hlen : x.data.length + q.data.length < x.size) : Completes (.dataPdu q) s (fun e =>
      replied e q.c (offsetPdu 0x0B q.tag (x.data.length + q.data.length) []) ∧
        xferOf? e q.c q.tag = some { x with data := x.data ++ q.data, k := 0 } ∧
        Framed [.bus, .malpen] (busObjs q.c.bus) s.dev e ∧ e.malpen.ses.length = s.dev.malpen.ses.length) := by
  have happended := (serving_received h).modXfer q.c q.tag (withData (x.data ++ q.data))
  refine serve_completes rfl h (mData_more h.1 hs hx h1 h56 hr hblk hoff hlen) (fun e he => ?_)
  refine ⟨(happended.replied (pduBytes_ne_nil _ _ _ _ _)).follow he, ?_, (happended.sendPdu _).rest he⟩
  rw [he.xferOf, xferOf?, sendPdu_malpen h.1]
  exact (xferOf_modXfer (f := withData _) (fun _ => ⟨rfl, rfl⟩) ..).trans (by rw [xferOf_received, hx]; rfl)

theorem dataPdu_again (h1 : 1 ≤ q.data.length) (h56 : q.data.length ≤ 56) (hr : x.read = false) (hblk : x.blk = 0)
    (hoff : pduOffset q ≠ x.data.length) : Completes (.dataPdu q) s (fun e =>
      replied e q.c (offsetPdu 0x0B q.tag x.data.length []) ∧ xferOf? e q.c q.tag = some x ∧
        Framed [.bus, .malpen] (busObjs q.c.bus) s.dev e ∧ e.malpen.ses.length = s.dev.malpen.ses.length) := by
  have hserving := serving_received h
  refine serve_completes rfl h (mData_again h.1 hs hx h1 h56 hr hblk hoff) (fun e he => ?_)
  refine ⟨(hserving.replied (pduBytes_ne_nil _ _ _ _ _)).follow he, ?_, (hserving.sendPdu _).rest he⟩
  rw [he.xferOf, xferOf?, sendPdu_malpen h.1]
  exact (xferOf_received _).trans hx

theorem dataPdu_last {w : Pend} (h1 : 1 ≤ q.data.length) (h56 : q.data.length ≤ 56) (hr : x.read = false)
    (hoff : pduOffset q = x.data.length) (hlen : x.data.length + q.data.length = x.size) (hrole : s.dev.pair.role = .single)
    (hnum : x.num ≠ 0x011) (hst : steadyObj x.num = true) (hw : writeCheck s.dev m.role x.num x.sub (x.data ++ q.data) = (0, w))
    (hl : w.level ≠ 0) : Completes (.dataPdu q) s (fun e =>
      replied e q.c (offsetPdu 0x0B q.tag x.size []) ∧ w ∈ e.os.pend ∧ xferOf? e q.c q.tag = none ∧ SameObjects (busObjs q.c.bus) s.dev e) := by
  have hdropped := (serving_received h).dropXfer q.c q.tag
  have hsend : fbMaySend (enterWrite w (dropXfer q.c q.tag (received s q))) q.c.bus = true := (fbMaySend_enterWrite hl _).trans hdropped.sends
  refine serve_completes rfl h (mData_last h.1 hs hx h1 h56 hr h hoff hlen hrole hnum hst hw) (fun e he => ?_)
  refine ⟨replied_sendPdu h.1 hsend (pduBytes_ne_nil _ _ _ _ _) he, ?_, ?_, ?_⟩
  · rw [he.pend, sendPdu_os h.1, enterWrite_waits hl]
    exact List.mem_append_right _ (List.mem_singleton.2 rfl)
  · rw [he.xferOf, xferOf?, sendPdu_malpen h.1, enterWrite_waits hl]
    exact xferOf_dropXfer ..
  · exact (hdropped.frame.2.1.trans ((enterWrite_framed hl).2.mono (by simp))).trans
      ((sendPdu_framed h.1 _ (busObjs q.c.bus) _).follow he).2.1

theorem ackPdu_whole (hd : q.data = []) (hr : x.read = true) (hoff : pduOffset q = x.size) (hsent : x.size ≤ x.sent) :
    Completes (.ackPdu q) s (XferOver s q.c q.tag) :=
  serve_completes rfl h (mAck_whole hs hx hd hr hoff hsent) (fun _ he => .of_follows h he)

theorem ackPdu_piece (hd : q.data = []) (hr : x.read = true) (hblk : x.blk = 0) (hsent : pduOffset q ≤ x.sent) (hoff : pduOffset q ≠ x.size)
    (hlen : pduOffset q < x.data.length) : Completes (.ackPdu q) s (fun e =>
      replied e q.c (offsetPdu 0x0A q.tag (pduOffset q) ((x.data.drop (pduOffset q)).take 56)) ∧
        Framed [.bus, .malpen] (busObjs q.c.bus) s.dev e ∧ e.malpen.ses.length = s.dev.malpen.ses.length) := by
  have hserving := serving_received h
  refine serve_completes rfl h (mAck_piece hs hx hd hr h.1 hblk hsent hoff hlen) (fun e he => ?_)
  have hanswer : replied (pieceSent q.c q.tag x.data (pduOffset q) (received s q)) q.c
      (offsetPdu 0x0A q.tag (pduOffset q) ((x.data.drop (pduOffset q)).take 56)) := hserving.replied (pduBytes_ne_nil _ _ _ _ _)
  exact ⟨hanswer.follow he, ((hserving.sendPdu _).modXfer _ _ _).rest he⟩

omit hs in
/-- R377: a transfer whose client is silent ends, and the client is told. -/
theorem transferTimeout_ends : Completes (.transferTimeout q.c q.tag) s (fun e =>
    xferOf? e q.c q.tag = none ∧ replied e q.c (abortBytes q.tag x.num x.sub 0x0102) ∧ Framed [.bus, .malpen] [] s.dev e) := by
  have hrun := running_of_hears h
  have hdropped : Serving s q.c [] (dropXfer q.c q.tag (fresh s)) :=
    .dropXfer ⟨.of_fresh (.refl _ _ _), rfl, h.1, h.2.2.1⟩ _ _
  have hx' : xferOf? (fresh s) q.c q.tag = some x := hx
  have hf : ifRun (transferTimeout q.c q.tag) (fresh s) =
      sendPdu q.c (abortBytes q.tag x.num x.sub 0x0102) (dropXfer q.c q.tag (fresh s)) := by
    refine (if_pos hrun).trans ?_
    rw [transferTimeout, hx']
    exact if_pos hrun
  refine act_completes (f := ifRun (transferTimeout q.c q.tag)) rfl (fun e he => ?_)
  rw [hf] at he
  refine ⟨?_, (hdropped.replied (pduBytes_ne_nil _ _ _ _ _)).follow he, ((hdropped.sendPdu _).rest he).1⟩
  rw [he.xferOf, xferOf?, sendPdu_malpen h.1]
  exact xferOf_dropXfer ..

end

theorem abortPdu_ends {code : Nat} (h : hears s.dev q) (ho : q.obj < 2 ^ 17) (hs : sesOf? s.dev q.c = some m)
    (hd : q.data = natLe 2 code ++ [0, 0]) : Completes (.abortPdu q) s (XferOver s q.c q.tag) := by
  have hses : sesOf? (received s q) q.c = some m := (sesOf_fbRecv q.c).trans hs
  have hok : (q.data.length == 4 && fieldLe q.data 2 2 == 0) = true := by rw [hd]; rfl
  refine serve_completes rfl h (x := dropXfer q.c q.tag (received s q)) ?_ (fun _ he => .of_follows h he)
  change inSession q _ _ (received s q) = _
  rw [inSession, if_neg (by rw [hok]; simp; omega), hses]

end

/-- Settles O55: the server finds a device that is `Alike` the one that received the request, so an initiate is admitted as the
statement says; `Serving` is what the frames sent and the transfers kept leave of it. -/
theorem transfersMoveValues : Obligations.TransfersMoveValues := by
  unfold Obligations.TransfersMoveValues
  intro s p m h
  obtain ⟨hh, ho, h56, hs, -, -⟩ := id h
  refine ⟨?_, ?_, ?_, ?_, ?_, ?_⟩
  · rintro hd ⟨hc, ha⟩ ⟨hr, hn, hlen⟩
    exact serve_completes rfl hh (segRead_opens h hd hc ha hr hn rfl hlen) (fun _ he => readOpened_answers hh he)
  · rintro n hd h1 hn hview ⟨hc, ha⟩ ⟨hr, hst, hlen⟩ hblk
    exact serve_completes rfl hh (blkRead_opens h hd h1 hn hview hblk hc ha hr hst rfl hlen) (fun _ he => readOpened_answers hh he)
  · rintro hview hd ⟨hc, ha⟩
    exact serve_answers rfl hh (pduBytes_ne_nil _ _ _ _ _) (blkRead_refused h hd hview hc ha)
  · rintro n hw hd h0 hn hi ⟨hc, ha⟩
    exact serve_completes rfl hh (segWrite_opens h _ hw hd h0 hn hi hc ha) (fun _ he => writeOpened_answers hh he)
  · rintro n b hw hd h0 hn h1 hb hview hi ⟨hc, ha⟩
    exact serve_completes rfl hh (blkWrite_opens h _ hw hd h0 hn h1 hb hview hi hc ha) (fun _ he => writeOpened_answers hh he)
  · intro t x hx
    have hq : hears s.dev { p with tag := t } := hh
    exact ⟨fun h1 => dataPdu_more hq hs hx h1 h56, fun h1 => dataPdu_again hq hs hx h1 h56,
      fun w h1 hr hoff hlen hrole hnum hst hw hl => dataPdu_last hq hs hx h1 h56 hr hoff hlen hrole hnum hst hw hl,
      fun hr hd hoff hsent => ackPdu_whole hq hs hx hd hr hoff hsent,
      fun hr hd hblk hsent hoff hlen => ackPdu_piece hq hs hx hd hr hblk hsent hoff hlen,
      fun code hd => abortPdu_ends hq ho hs hd, transferTimeout_ends hq hx⟩

end Sys2Proof

/-! A device whose monitor has counted a frame answers every check of an access as before (R97, R543): only MON.STAT.01 differs. -/

namespace Sys2Proof

open Machine

/-- The device once the frame has been counted: every object but MON.STAT.01 reads as before (R543). -/
structure Recounted (d e : Dev) : Prop where
  rest : ∃ os sn, e = { d with os := os, sent := sn }
  pend : e.os.pend = d.os.pend
  objs : ∀ num sub, 256 * num + sub ≠ 0x340301 → ov e num sub = ov d num sub

theorem locate_lt {num : Nat} {l : Loc} (h : locate num = some l) : num < 2 ^ 17 := by
  by_contra hge
  simp [locate, show ¬ num < 0x4100 by omega, show ¬ num < 0x4300 by omega, show ¬ num < 0x8000 by omega, show ¬ num < 0x10000 by omega,
    show ¬ num < 0x14000 by omega, show ¬ num < 0x18000 by omega, show ¬ num < 0x1C000 by omega, show ¬ num < 0x20000 by omega] at h

namespace Recounted

variable {d e : Dev} (h : Recounted d e) {role num sub : Nat}

include h

theorem on {num sub : Nat} (hk : 256 * num + sub ≠ 0x340301) : Machine.on e num sub = Machine.on d num sub := congrArg valNat (h.objs _ _ hk)
theorem ob {num sub : Nat} (hk : 256 * num + sub ≠ 0x340301) : Machine.ob e num sub = Machine.ob d num sub := congrArg valBytes (h.objs _ _ hk)

theorem pair : e.pair = d.pair := by obtain ⟨_, _, hr⟩ := h.rest; rw [hr]
theorem keys : e.keys = d.keys := by obtain ⟨_, _, hr⟩ := h.rest; rw [hr]
theorem update : e.update = d.update := by obtain ⟨_, _, hr⟩ := h.rest; rw [hr]
theorem sched : e.sched = d.sched := by obtain ⟨_, _, hr⟩ := h.rest; rw [hr]
theorem lch : e.lch = d.lch := by obtain ⟨_, _, hr⟩ := h.rest; rw [hr]
theorem time : e.time = d.time := by obtain ⟨_, _, hr⟩ := h.rest; rw [hr]
theorem energy : e.energy = d.energy := by obtain ⟨_, _, hr⟩ := h.rest; rw [hr]
theorem yard : e.yard = d.yard := by obtain ⟨_, _, hr⟩ := h.rest; rw [hr]
theorem guard : e.guard = d.guard := by obtain ⟨_, _, hr⟩ := h.rest; rw [hr]
theorem img? : Machine.img? e = Machine.img? d := congrArg SchedS.image h.sched

theorem allPend : Machine.allPend e = Machine.allPend d := by rw [Machine.allPend, h.pend, h.pair]; rfl

theorem nextVal (hk : 256 * num + sub ≠ 0x340301) : Machine.nextVal e num sub = Machine.nextVal d num sub := by
  unfold Machine.nextVal
  rw [h.allPend, h.objs _ _ hk]

/-! ### The checks that an access shares -/

theorem oflag {num sub : Nat} (hk : 256 * num + sub ≠ 0x340301) : Machine.oflag e num sub = Machine.oflag d num sub :=
  congrArg (· != 0) (h.on hk)

theorem oq {num sub : Nat} (hk : 256 * num + sub ≠ 0x340301) : Machine.oq e num sub = Machine.oq d num sub := congrArg (toS 32) (h.on hk)

theorem assigned : Machine.assigned e num = Machine.assigned d num := by
  rw [Machine.assigned, h.ob (by decide)]; rfl

theorem objCode : Machine.objCode e num sub = Machine.objCode d num sub := by
  unfold Machine.objCode; simp only [h.assigned]

theorem effTy (x : SubD) : Machine.effTy e num sub x = Machine.effTy d num sub x := by
  rw [Machine.effTy, h.ob (by decide)]; rfl

theorem isDomain : Machine.isDomain e num sub = Machine.isDomain d num sub := by
  unfold Machine.isDomain; simp only [h.effTy]

theorem controlOwned (n : Nat) : Machine.controlOwned e n = Machine.controlOwned d n := by
  obtain ⟨_, _, hr⟩ := h.rest
  rw [hr]
  rfl

theorem pointOwned (n : Nat) : Machine.pointOwned e n = Machine.pointOwned d n := by
  obtain ⟨_, _, hr⟩ := h.rest
  rw [hr]
  rfl

theorem effAcc (o : ObjD) (x : SubD) : Machine.effAcc e num sub o x = Machine.effAcc d num sub o x := by
  simp (disch := omega) only [Machine.effAcc, h.controlOwned, h.pointOwned, h.ob, h.on]

theorem effDescriptor (o : ObjD) (x : SubD) : Machine.effDescriptor e num sub o x = Machine.effDescriptor d num sub o x := by
  have hdflt : Machine.dfltAt e (okey num sub) = Machine.dfltAt d (okey num sub) := by
    obtain ⟨_, _, hr⟩ := h.rest
    rw [hr]
    rfl
  simp only [Machine.effDescriptor, Machine.effPlane, h.effAcc, h.effTy, h.controlOwned, h.pointOwned, hdflt]

theorem ringIdle {r : Nat} (hr : r < 16) : Machine.ringIdle e r = Machine.ringIdle d r := by
  obtain ⟨_, _, hrest⟩ := h.rest
  rw [Machine.ringIdle, h.oflag (by omega), hrest]
  rfl

theorem readCheck : Machine.readCheck e role num sub = Machine.readCheck d role num sub := by
  simp (disch := decide) only [Machine.readCheck, h.assigned, initSvcReadable, lcState, ringSize, recalcing, h.ringIdle, h.on, h.guard]
  rfl

theorem roleOk (o : ObjD) (v : Bytes) : Machine.roleOk e role num o sub v = Machine.roleOk d role num o sub v := by
  simp (disch := decide) only [Machine.roleOk, keyWriteCheck, rollCheck, sealOpen, lcState, hasKey, h.on, h.keys]
  rfl

theorem levelOk {o : ObjD} (hg : o.group < 256) : Machine.levelOk e o = Machine.levelOk d o := by
  rw [Machine.levelOk, expertLevel, h.allPend, h.on (by omega)]
  rfl

theorem roomOk (level : Nat) (cmd : Bool) : Machine.roomOk e num sub level cmd = Machine.roomOk d num sub level cmd := by
  rw [Machine.roomOk, h.allPend, Machine.roomOk]

theorem entered (v : Val) : Machine.entered e num v = Machine.entered d num v := by
  rw [Machine.entered, h.on (by decide), Machine.entered]

theorem recalcing (m x : Nat) : Machine.recalcing e m x = Machine.recalcing d m x := by
  rw [Machine.recalcing, h.guard, Machine.recalcing]

theorem updPieceCheck (v : Bytes) : Machine.updPieceCheck e v = Machine.updPieceCheck d v := by
  simp (disch := decide) only [Machine.updPieceCheck, storeUp, ringSize, h.on, h.update]
  rfl

/-! ### States that conditions look at -/

theorem anyRun : Machine.anyRun e = Machine.anyRun d := by
  simp (disch := (simp only [oStg]; omega)) only [Machine.anyRun, h.oflag]

theorem sesState (n : Nat) : Machine.sesState e n = Machine.sesState d n := h.on (by simp only [oSes]; omega)

theorem restartCheck (quiet : Bool) : Machine.restartCheck e quiet = Machine.restartCheck d quiet := by
  simp (disch := decide) only [Machine.restartCheck, quietOk, switchOk, partnerReady, partnerPresent, inHandover, pairBit, h.anyRun, h.on, h.oflag, h.pair]
  rfl

theorem namedBank {sel : Nat} (hk : 256 * sel ≠ 0x340301) (k : Nat) : Machine.namedBank e sel k = Machine.namedBank d sel k := by
  rw [Machine.namedBank, h.nextVal hk, h.on hk, Machine.namedBank]

theorem lcCheck (target : Nat) (confirm : Bytes) : Machine.lcCheck e target role confirm (Machine.anyRun e) =
    Machine.lcCheck d target role confirm (Machine.anyRun d) := by
  simp (disch := decide) only [Machine.lcCheck, h.ob, lcState, h.on, hasKey, h.keys, h.anyRun]
  rfl

theorem updBeginCheck (size piece : Nat) : Machine.updBeginCheck e size piece = Machine.updBeginCheck d size piece := by
  simp (disch := decide) only [Machine.updBeginCheck, updBit, lcState, h.on]
  rfl

theorem updActivateCheck (unit : Nat) (quiet : Bool) : Machine.updActivateCheck e unit quiet = Machine.updActivateCheck d unit quiet := by
  simp (disch := decide) only [Machine.updActivateCheck, namesMe, portNo, h.on, h.restartCheck]
  rfl

theorem updRejectCheck (unit : Nat) : Machine.updRejectCheck e unit = Machine.updRejectCheck d unit := by
  simp (disch := decide) only [Machine.updRejectCheck, namesMe, portNo, inTrial, updBit, h.on, h.restartCheck]
  rfl

theorem pubCheck (n : Nat) (v : Bytes) : Machine.pubCheck e n sub v = Machine.pubCheck d n sub v := by
  simp (disch := decide) only [Machine.pubCheck, lcState, h.on]
  rfl

/-! ### Ranges (check 8) -/

theorem pointsOk (t : Bytes) : Machine.pointsOk e t = Machine.pointsOk d t := by
  have hbound : ∀ n, Machine.pointBound e n = Machine.pointBound d n := fun n => by
    rw [Machine.pointBound, h.img?, Machine.pointBound]
  have hedges : Machine.tableInForce e = Machine.tableInForce d := by
    rw [Machine.tableInForce, h.on (by decide), h.on (by decide), h.ob (by omega), Machine.tableInForce]
  simp (disch := decide) only [Machine.pointsOk, points, pointInMatrix, h.ob, hbound, hedges]

theorem matrixOk (im : Option Image) (t : Bytes) : Machine.matrixOk e im t = Machine.matrixOk d im t := by
  have hedge : ∀ im, Machine.edgeOk e im = Machine.edgeOk d im := fun im => funext fun x => by
    rw [Machine.edgeOk, h.ob (by decide), Machine.edgeOk]
  simp (disch := decide) only [Machine.matrixOk, h.on, hedge]

theorem chainOk {k : Nat} (hk : k < 2 ^ 17) (ch : Bytes) : Machine.chainOk e k ch = Machine.chainOk d k ch := by
  simp (disch := omega) only [Machine.chainOk, seccKey, seccBranch, instKey, gen, h.on, h.ob, h.keys]

theorem formatOk : Machine.formatOk e role = Machine.formatOk d role := by
  simp (disch := decide) only [Machine.formatOk, nextLayout, h.on]
  rfl

/-- The values of a record as they will stand (R585). -/
theorem asWritten (v : Nat) {n k : Nat} (hk : 256 * n + k ≠ 0x340301) :
    Machine.asWritten e num sub v n k = Machine.asWritten d num sub v n k := by
  rw [Machine.asWritten, h.nextVal hk, Machine.asWritten]

theorem stageE (i : Nat) : Machine.stageE e i = Machine.stageE d i := by rw [Machine.stageE, h.img?, Machine.stageE]

theorem tNs : Machine.tNs e = Machine.tNs d := by rw [Machine.tNs, h.time, Machine.tNs]

theorem devRange (hlt : num < 2 ^ 17) (hn : num ≠ 0x3403) (v : Val) :
    Machine.devRange e role num sub v (Machine.asWritten e num sub (valNat v)) =
      Machine.devRange d role num sub v (Machine.asWritten d num sub (valNat v)) := by
  have hw : ∀ k, k < 256 → Machine.asWritten e num sub (valNat v) num k = Machine.asWritten d num sub (valNat v) num k :=
    fun k hk => h.asWritten _ (by omega)
  have hlayout : Machine.recLayoutOk e (Machine.asWritten e num sub (valNat v) num) =
      Machine.recLayoutOk d (Machine.asWritten d num sub (valNat v) num) := by
    rw [recLayoutOk, h.on (by decide), hw 1 (by decide), hw 3 (by decide), hw 4 (by decide), recLayoutOk]
  have htherm : Machine.thermOk (Machine.asWritten e num sub (valNat v) num) = Machine.thermOk (Machine.asWritten d num sub (valNat v) num) := by
    simp (disch := decide) only [thermOk, hw]
  have hforget : ∀ n, Machine.forgetOk e n = Machine.forgetOk d n := fun n => by
    rw [forgetOk, bindings, h.ob (by decide), forgetOk, bindings]
  unfold Machine.devRange featOn updArg
  dsimp only
  rw [hw 1 (by decide), hw 2 (by decide), hw 3 (by decide), h.on (by decide), h.pointsOk, hforget, h.matrixOk, h.img?, hlayout, htherm,
    h.chainOk (by omega), h.lcCheck, h.keys, h.pubCheck, h.ob (by decide), h.updBeginCheck, h.updPieceCheck, h.updActivateCheck, h.updRejectCheck,
    h.update]

/-- The objects of stages and groups lie beyond the monitor's. -/
theorem basicOk (v i : Nat) : Machine.basicOk e i (Machine.asWritten e num sub v) = Machine.basicOk d i (Machine.asWritten d num sub v) := by
  simp (disch := (simp only [oStg, oGrp]; omega)) only [Machine.basicOk, h.asWritten, h.stageE, h.tNs]

theorem groupBasicOk (v i g : Nat) :
    Machine.groupBasicOk e i g (Machine.asWritten e num sub v) = Machine.groupBasicOk d i g (Machine.asWritten d num sub v) := by
  simp (disch := (simp only [oStg, oGrp]; omega)) only [Machine.groupBasicOk, h.asWritten, h.tNs]

theorem valueOk (hn : num ≠ 0x3403) (v : Val) : Machine.valueOk e role num sub v = Machine.valueOk d role num sub v := by
  have hw : ∀ k, k < 256 → Machine.asWritten e num sub (valNat v) num k = Machine.asWritten d num sub (valNat v) num k :=
    fun k hk => h.asWritten _ (by omega)
  unfold Machine.valueOk estOk
  cases hl : locate num with
  | none => rfl
  | some l =>
    simp (disch := omega) only [hw, Alike.leQ hw, Alike.leQ_range hw, h.devRange (locate_lt hl) hn, h.basicOk, h.groupBasicOk, h.stageE]

/-! ### State (check 9) -/

theorem devFixed : Machine.devFixed e role num = Machine.devFixed d role num := by
  unfold Machine.devFixed keyWriteCheck sessionOpen hasKey sealOpen lcState
  simp only [h.sesState]
  rw [h.on (by decide), h.on (by decide), h.namedBank (by decide), h.formatOk, h.anyRun, h.keys]

theorem stateFixed : Machine.stateFixed e role num sub = Machine.stateFixed d role num sub := by
  have hbank : ∀ i k, Machine.namedBank e (oStg i 1) k = Machine.namedBank d (oStg i 1) k := fun i => h.namedBank (by simp only [oStg]; omega)
  simp (disch := decide) only [Machine.stateFixed, h.devFixed, hbank, h.sesState, h.on, h.img?, h.lch]

theorem nodeClearOk (n : Nat) : Machine.nodeClearOk e n = Machine.nodeClearOk d n := by
  have hv : vConnQ e n = vConnQ d n := by
    obtain ⟨_, _, hr⟩ := h.rest
    rw [hr]
    rfl
  rw [Machine.nodeClearOk, h.oq (by omega), hv, nSeq, h.energy]
  rfl

theorem dieThermClearOk : Machine.dieThermClearOk e = Machine.dieThermClearOk d := by
  have hk : ∀ k, k < 4 → Machine.on e 0x285 (k + 1) = Machine.on d 0x285 (k + 1) ∧
      Machine.on e 0x284 (k + 1) = Machine.on d 0x284 (k + 1) := fun k hk => ⟨h.on (by omega), h.on (by omega)⟩
  rw [Bool.eq_iff_iff, Machine.dieThermClearOk, Machine.dieThermClearOk, List.all_eq_true, List.all_eq_true]
  exact forall₂_congr fun k hm => by rw [oi, oi, (hk k (List.mem_range.1 hm)).1, (hk k (List.mem_range.1 hm)).2]

theorem devState (v : Val) : Machine.devState e role num sub v = Machine.devState d role num sub v := by
  unfold Machine.devState switchOk partnerReady partnerPresent inHandover pairBit rollCheck sealOpen updArg
  dsimp only
  simp only [h.nodeClearOk]
  rw [h.img?, h.dieThermClearOk, ringSize, h.on (by decide), h.on (by decide), h.on (by decide), h.oflag (by decide), h.lcCheck, h.keys, h.pubCheck,
    h.updBeginCheck, h.updPieceCheck, h.updActivateCheck, h.updRejectCheck, h.update, h.yard, h.pair]
  rfl

theorem stateValue (hn : num ≠ 0x3403) (hc : ∀ l, locate num = some l → l.blk = .lch → l.off ≠ 4) (v : Val) :
    Machine.stateValue e role num sub v = Machine.stateValue d role num sub v := by
  have hmask : ∀ i m, maskCarries e i m = maskCarries d i m := fun i m => by
    simp (disch := (simp only [oGrp]; omega)) only [maskCarries, groupCarries, h.stageE, h.oq]
  have hcarry : ∀ i g, groupCarries e i g = groupCarries d i g := fun i g => by
    simp (disch := (simp only [oGrp]; omega)) only [groupCarries, h.oq]
  have hseq : ∀ i m, stgSeqClearOk e i m = stgSeqClearOk d i m := fun i m => by
    obtain ⟨_, _, hr⟩ := h.rest
    rw [hr]
    rfl
  have hsup : ∀ b i, supervised e b i = supervised d b i := fun b i => by rw [supervised, h.img?, supervised]
  have hstg : ∀ i, stgThermClearOk e i = stgThermClearOk d i := fun i => by
    simp (disch := (simp only [oStg]; omega)) only [stgThermClearOk, h.on, hsup]
  have hcon : ∀ i m, conThermClearOk e i m = conThermClearOk d i m := fun i m => by
    simp (disch := (simp only [oCon]; omega)) only [conThermClearOk, h.on, hsup]
  have hw : Machine.asWritten e num sub (valNat v) num 1 = Machine.asWritten d num sub (valNat v) num 1 := h.asWritten _ (by omega)
  unfold Machine.stateValue
  cases hl : locate num with
  | none => rfl
  | some l =>
    cases hb : l.blk with
    | lch => simp only [hb, if_neg (hc l hl hb)]
    | _ =>
      simp (disch := (simp only [oStg, oSes]; omega)) only [hb, hw, h.devState, hmask, hcarry, hseq, hstg, hcon, stageThermal, h.oflag, h.on, h.nodeClearOk,
        h.sesState]

end Recounted

/-! ### The rows that a write of a frame level names -/

/-- The row and the access of an admitted write. -/
theorem writeCheck_row {d : Dev} {role num sub : Nat} {v : Bytes} (h : (writeCheck d role num sub v).1 = 0) :
    ∃ o l x, findObj num = some (o, l) ∧ findSub o sub = some x ∧ effAcc d num sub o x ≠ .ro ∧
      (writeCheck d role num sub v).2.cmd = (effAcc d num sub o x == .wo || (effAcc d num sub o x == .w1c || effAcc d num sub o x == .roW1c)) := by
  revert h
  unfold writeCheck
  cases ho : findObj num with
  | none => exact fun h : aUnassigned = 0 => absurd h (by decide)
  | some ol =>
    obtain ⟨o, l⟩ := ol
    dsimp only
    split_ifs
    · exact fun h : aUnassigned = 0 => absurd h (by decide)
    · cases hs : findSub o sub with
      | none => exact fun h : aNoSub = 0 => absurd h (by decide)
      | some x =>
        refine fun h => ⟨o, l, x, rfl, hs, fun hro => ?_, rfl⟩
        simp [firstCode, need, hro, aAccess] at h

theorem findObj_locate {num : Nat} {o : ObjD} {l : Loc} (h : findObj num = some (o, l)) : locate num = some l ∧ (dictFor l).find? (rowHas l) = some o := by
  unfold findObj at h
  cases hl : locate num with
  | none => rw [hl] at h; exact absurd h (by simp)
  | some k =>
    rw [hl] at h
    obtain ⟨p, hp, heq⟩ := Option.map_eq_some_iff.1 h
    cases heq
    exact ⟨rfl, hp⟩

/-- A write that is no command names neither the counter of the monitor nor the command of a load channel. -/
theorem banked_row {d : Dev} {role num sub : Nat} {v : Bytes} (h : (writeCheck d role num sub v).1 = 0)
    (hc : (writeCheck d role num sub v).2.cmd = false) :
    num ≠ 0x3403 ∧ ∀ l, locate num = some l → l.blk = .lch → l.off ≠ 4 := by
  obtain ⟨o, l, x, ho, hs, hro, hcmd⟩ := writeCheck_row h
  obtain ⟨hl, hrow⟩ := findObj_locate ho
  rw [hc] at hcmd
  have hwo : effAcc d num sub o x ≠ .wo := fun hw => by simp [hw] at hcmd
  have hsub : subAcc o x ≠ .ro → (x ∈ o.subs) := fun hne => by
    unfold findSub at hs
    split at hs
    · rw [← Option.some.inj hs] at hne
      exact absurd rfl hne
    · exact List.mem_of_find?_eq_some hs
  constructor
  · rintro rfl
    have hacc : effAcc d 0x3403 sub o x = subAcc o x := by
      rw [effAcc, hl, show l = { blk := .dev, off := 0x3403 } from Option.some.inj (hl.symm.trans rfl)]
      rfl
    have hdict : o ∈ dict24 ∧ rowHas { blk := .dev, off := 0x3403 } o = true := by
      rw [show l = { blk := .dev, off := 0x3403 } from Option.some.inj (hl.symm.trans rfl)] at hrow
      exact ⟨List.mem_of_find?_eq_some hrow, List.find?_some hrow⟩
    have hall : ∀ o ∈ dict24, rowHas { blk := .dev, off := 0x3403 } o = true → o.acc = .ro ∧ ∀ x ∈ o.subs, x.wo = false := by decide
    obtain ⟨hoacc, hosubs⟩ := hall o hdict.1 hdict.2
    rw [hacc] at hro
    refine hro ?_
    rw [subAcc, hosubs x (hsub hro), hoacc]
    simp
  · intro k hk hblk hoff
    obtain rfl : l = k := Option.some.inj (hl.symm.trans hk)
    have hfar : ¬ 0x1C000 ≤ num := fun hge => by
      have := locate_lt hl
      rw [locate, if_neg (by omega), if_neg (by omega), if_neg (by omega), if_neg (by omega), if_neg (by omega), if_neg (by omega), if_neg (by omega),
        if_pos (by omega)] at hl
      rw [← Option.some.inj hl] at hblk
      exact absurd hblk (show Blk.dev ≠ Blk.lch by decide)
    have hacc : effAcc d num sub o x = subAcc o x := by
      rw [effAcc, hl]
      dsimp only
      rw [if_neg (by simp [hoff]), if_neg (fun hp => hfar hp.1), if_neg (by simp [hblk])]
    have hdict : o ∈ dict12 ∧ rowHas { blk := .lch, off := 4 } o = true := by
      have hfind := List.find?_some hrow
      rw [dictFor, hblk] at hrow
      rw [rowHas, hblk, hoff] at hfind
      exact ⟨List.mem_of_find?_eq_some hrow, hfind⟩
    have hall : ∀ o ∈ dict12, rowHas { blk := .lch, off := 4 } o = true → o.acc = .wo ∧ o.multi = false ∧ ∀ x ∈ o.subs, x.ro = false := by decide
    obtain ⟨hoacc, homulti, hosubs⟩ := hall o hdict.1 hdict.2
    have hmem : x ∈ o.subs := by
      rw [findSub, homulti] at hs
      exact List.mem_of_find?_eq_some hs
    rw [hacc, subAcc, hosubs x hmem, hoacc] at hwo
    simp at hwo

/-! ### A write after the frame has been counted -/

theorem Recounted.writeCheck {d e : Dev} (h : Recounted d e) {role num sub : Nat} {v : Bytes} (h0 : (writeCheck d role num sub v).1 = 0)
    (hc : (writeCheck d role num sub v).2.cmd = false) : Machine.writeCheck e role num sub v = Machine.writeCheck d role num sub v := by
  obtain ⟨hn, hlch⟩ := banked_row h0 hc
  have hstate : ∀ val, stateOk e role num sub val = stateOk d role num sub val := fun val => by
    rw [stateOk, h.stateFixed, h.stateValue hn hlch, stateOk]
  unfold Machine.writeCheck
  cases ho : findObj num with
  | none => rfl
  | some ol =>
    obtain ⟨o, l⟩ := ol
    dsimp only
    simp only [h.assigned, h.effAcc, h.effTy, h.roleOk, h.levelOk (findObj_fits ho).1, pieceLength, h.updPieceCheck, h.valueOk hn, hstate,
      h.roomOk, h.entered, h.recalcing]

end Sys2Proof

/-! What the monitor answers (R543 to R547, R551). -/

namespace Sys2Proof

open Machine

/-! ### A frame is counted -/

/-- The device once a sound frame has been counted. -/
def monHeard (s : State) : Dev := incr 32 0x3403 1 (fresh s)

theorem recounted_monHeard (s : State) : Recounted s.dev (monHeard s) where
  rest := ⟨_, _, rfl⟩
  pend := rfl
  objs := fun num sub hk => ov_put_other (d := fresh s) _ _ _ _ _ (by unfold okey; omega)

theorem monHeard_framed (s : State) (ps : List Part) : Framed ps [] s.dev (monHeard s) :=
  .of_fresh (.put_counted (by decide) (by decide) (.refl _ _ _))

section

variable {s : State} {f : MonIn} {cmd : Nat} {lenOk : Nat → Bool} {needRole : Bool} {k : Dev → Dev}

/-- A sound frame of the row's command is served. -/
theorem monServe_served (h : MonFrame s.dev f cmd) (hl : lenOk f.len = true) (hr : needRole = true → s.dev.mon.role.isSome = true) :
    monServe cmd lenOk needRole k f (fresh s) = k (monHeard s) := by
  obtain ⟨hrun, hlc, hcmd, hbad⟩ := h
  have hscrap : lcState (monHeard s) ≠ 4 := by rw [lcState, (recounted_monHeard s).on (by decide)]; exact hlc
  have hrole : (needRole && (monHeard s).mon.role.isNone) = false := by
    cases needRole with
    | false => rfl
    | true =>
      have := hr rfl
      exact (Bool.true_and _).trans (by change s.dev.mon.role.isNone = false; simpa using this)
  have hrunning : running (fresh s) = true := hrun
  rw [monServe, if_neg (by simp [hrunning]), if_neg (by simp [hbad])]
  change (if lcState (monHeard s) = 4 then _ else _) = _
  rw [if_neg hscrap, if_neg (by simp [hcmd]), if_neg (by simp [hl])]
  exact if_neg (ne_true_of_eq_false hrole)

/-- While the monitor is locked it refuses the commands that need a role (R545). -/
theorem monServe_locked (h : MonFrame s.dev f cmd) (hl : lenOk f.len = true) (hr : s.dev.mon.role = none) :
    monServe cmd lenOk true k f (fresh s) = monAnswer f mLocked [] (monHeard s) := by
  obtain ⟨hrun, hlc, hcmd, hbad⟩ := h
  have hscrap : lcState (monHeard s) ≠ 4 := by rw [lcState, (recounted_monHeard s).on (by decide)]; exact hlc
  have hrunning : running (fresh s) = true := hrun
  have hnone : (monHeard s).mon.role = none := hr
  rw [monServe, if_neg (by simp [hrunning]), if_neg (by simp [hbad])]
  change (if lcState (monHeard s) = 4 then _ else _) = _
  rw [if_neg hscrap, if_neg (by simp [hcmd]), if_neg (by simp [hl])]
  exact if_pos (by rw [show (incr 32 0x3403 1 (fresh s)).mon.role = none from hnone]; rfl)

end

/-! ### Answers -/

section

variable {d x e : Dev} {f : MonIn} {code : Nat} {rest : Bytes}

theorem monAnswer_follows (f : MonIn) (code : Nat) (rest : Bytes) (d : Dev) : Follows d (monAnswer f code rest d) := monSend_follows _ _ _ _

theorem monSaid_of_follows (he : Follows (monAnswer f code rest x) e) : monSaid e f code rest := he.sent _ List.mem_cons_self

/-- A command that is only answered. -/
theorem mon_answers {c : Instr} {s : State} {g : Dev → Dev} {ps : List Part} (hc : exec c s = act g s) (hx : g (fresh s) = monAnswer f code rest x)
    (hf : Framed ps [] s.dev x) : Completes c s (fun e => monSaid e f code rest ∧ Framed ps [] s.dev e) :=
  act_completes hc (fun e he => by
    rw [hx] at he
    exact ⟨monSaid_of_follows he, hf.follow ((monAnswer_follows f code rest x).trans he)⟩)

end

/-! ### MON.STATUS -/

section

variable {d : Dev} {ps : List Part}

theorem modMon_framed (hp : .mon ∈ ps) (g : MonS → MonS) (d : Dev) : Framed ps [] d (modMon g d) := .mon hp (.refl _ _ d) _

theorem monPublish_framed (ps : List Part) (d : Dev) : Framed ps [] d (monPublish d) := .ite (.refl _ _ d) (.put_counted (by decide) (by decide) (.refl _ _ d))

theorem monPublish_mon (d : Dev) : (monPublish d).mon = d.mon := by
  unfold monPublish
  dsimp only
  split <;> rfl

theorem monPublish_ev (d : Dev) : (monPublish d).ev = d.ev := by
  unfold monPublish
  dsimp only
  split <;> rfl

theorem on_monPublish_other {num sub : Nat} (h : okey 0x3401 0 ≠ okey num sub) (d : Dev) : on (monPublish d) num sub = on d num sub := by
  unfold monPublish
  dsimp only
  split
  · rfl
  · exact on_put_other _ _ _ _ _ _ h

/-- Bit 0 shows that the monitor is unlocked, bit 5 stays (R547). -/
theorem on_monPublish_bits (d : Dev) : (on (monPublish d) 0x3401 0).testBit 0 = d.mon.role.isSome := by
  have hv : on (monPublish d) 0x3401 0 = (on d 0x3401 0 &&& 32) + boolNat d.mon.role.isSome + 2 * d.mon.role.getD 0 +
      8 * boolNat (decide (on d 0x3402 1 ≠ 0)) + 16 * boolNat d.mon.lockout := by
    unfold monPublish
    dsimp only
    split
    case isTrue h => exact h
    case isFalse => exact on_put_same _ _ _ _
  have hmask : (on d 0x3401 0 &&& 32) % 2 = 0 := (Nat.and_mod_two_pow (n := 1)).trans (Nat.and_zero _)
  rw [hv, Nat.testBit_zero]
  generalize on d 0x3401 0 &&& 32 = w at hmask
  generalize d.mon.role.getD 0 = r
  generalize boolNat (decide (on d 0x3402 1 ≠ 0)) = t
  generalize boolNat d.mon.lockout = o
  cases d.mon.role.isSome
  · exact decide_eq_false (by rw [show boolNat false = 0 from rfl]; omega)
  · exact decide_eq_true (by rw [show boolNat true = 1 from rfl]; omega)

/-- The monitor has no role. -/
def roleless (m : MonS) : MonS := { m with role := none }

theorem monRelock_some (h : d.mon.role.isSome = true) :
    monRelock d = raise 0x9002 noInst 0 (monPublish (put 0x3402 1 0 (modMon roleless d))) := if_pos h

theorem monRelock_mon (d : Dev) : (monRelock d).mon = roleless d.mon := by
  by_cases h : d.mon.role.isSome = true
  · rw [monRelock_some h, raise_mon, monPublish_mon]
    rfl
  · have hn : d.mon.role = none := by simpa using h
    rw [monRelock, if_neg h, roleless, ← hn]

end

/-! ### What follows an answer -/

/-- The monitor after a command but for its line rate and its books of dropped records. -/
structure MonAfter (m : MonS) (e : Dev) : Prop where
  role : e.mon.role = m.role
  nonce : e.mon.nonce = m.nonce
  fails : e.mon.fails = m.fails
  lockout : e.mon.lockout = m.lockout
  broke : e.mon.broke = m.broke

theorem Machine.Follows.monAfter {x e : Dev} (h : Follows x e) : MonAfter x.mon e := by
  have hcore : monCore e.mon = monCore x.mon := h.part .mon
  exact ⟨(congrArg MonS.role hcore :), (congrArg MonS.nonce hcore :), (congrArg MonS.fails hcore :), (congrArg MonS.lockout hcore :),
    (congrArg MonS.broke hcore :)⟩

section

variable {s : State} {f : MonIn}

/-! ### PING, CHALLENGE, STATUS (R544, R545) -/

theorem monPing_says (h : MonFrame s.dev f 1) (hl : f.len = 0) : Completes (.monPing f) s (fun e =>
    monSaid e f 0 (padTo 16 (ob s.dev 0x003 0) ++ natLe 4 (on s.dev 0x3401 0)) ∧ Framed [] [] s.dev e) := by
  have hc := recounted_monHeard s
  refine mon_answers (x := monHeard s) rfl ?_ (monHeard_framed s _)
  rw [monPing, monServe_served h (by simp [hl]) (by simp), hc.ob (by decide), hc.on (by decide)]

theorem monStatus_says (h : MonFrame s.dev f 5) (hl : f.len = 0) : Completes (.monStatus f) s (fun e =>
    monSaid e f 0 (natLe 4 (on s.dev 0x3401 0) ++ natLe 4 (on s.dev 0x1A0 0) ++ natLe 4 (on s.dev 0x400 0) ++ natLe 4 (on s.dev 0x680 0)) ∧
      Framed [] [] s.dev e) := by
  have hc := recounted_monHeard s
  refine mon_answers (x := monHeard s) rfl ?_ (monHeard_framed s _)
  rw [monStatus, monServe_served h (by simp [hl]) (by simp)]
  simp (disch := decide) only [List.flatMap_cons, List.flatMap_nil, List.append_nil, List.append_assoc, hc.on]

/-- A fresh nonce is kept. -/
def challenged (s : State) : Dev := modMon (fun m => { m with nonce := some (draw 16 (monHeard s)).1 }) (draw 16 (monHeard s)).2

theorem monChallenge_says (h : MonFrame s.dev f 2) (hl : f.len = 0) : Completes (.monChallenge f) s (fun e =>
    let n := Config.random s.dev.draws 16
    monSaid e f 0 (n ++ padTo 16 (ob s.dev 0x003 0)) ∧ e.mon.nonce = some n ∧ e.draws = s.dev.draws + 1 ∧ e.mon.role = s.dev.mon.role ∧
      Framed [.mon, .draws] [] s.dev e) := by
  have hx : monChallenge f (fresh s) = monAnswer f 0 (Config.random s.dev.draws 16 ++ padTo 16 (ob s.dev 0x003 0)) (challenged s) := by
    rw [monChallenge, monServe_served h (by simp [hl]) (by simp), ← (recounted_monHeard s).ob (by decide)]
    rfl
  refine act_completes (f := monChallenge f) rfl (fun e he => ?_)
  rw [hx] at he
  have hall := (monAnswer_follows ..).trans he
  have hmon := hall.monAfter
  exact ⟨monSaid_of_follows he, hmon.nonce, hall.part .draws, hmon.role,
    (Framed.mon (by simp) (.draws (by simp) (monHeard_framed s _) _) _).follow hall⟩

/-! ### UNLOCK and LOCK (R545, R546) -/

/-- The nonce is used up by every attempt. -/
def nonceUsed (s : State) : Dev := modMon (fun m => { m with nonce := none }) (monHeard s)

theorem nonceUsed_recounted (s : State) : ob (nonceUsed s) 0x003 0 = ob s.dev 0x003 0 ∧ lcState (nonceUsed s) = lcState s.dev ∧
    ∀ role, accessKey (nonceUsed s) role = accessKey s.dev role := by
  have hc := recounted_monHeard s
  have hlc : lcState (nonceUsed s) = lcState s.dev := hc.on (by decide)
  refine ⟨hc.ob (by decide), hlc, fun role => ?_⟩
  rw [accessKey, accessKey, hlc]
  rfl

theorem nonceUsed_framed (s : State) : Framed [.mon] [] s.dev (nonceUsed s) := (monHeard_framed s _).trans (modMon_framed (by simp) _ _)

/-- The monitor unlocked for a role. -/
def unlockedFor (role : Nat) (d : Dev) : Dev := monPublish (modMon (fun m => { m with role := some role, fails := 0 }) d)

/-- What every attempt with a sound frame makes of the proof it brings. -/
theorem monUnlock_attempt {role : Nat} {k n mac : Bytes} (h : MonFrame s.dev f 3) (hl : f.len = 20) (hlock : s.dev.mon.lockout = false)
    (hp : f.payload = natLe 1 role ++ [0, 0, 0] ++ mac) (hrole : role = 1 ∨ role = 3) (hlc : lcState s.dev = 3 → role = 3)
    (hk : accessKey s.dev role = some k) (hn : s.dev.mon.nonce = some n) :
    monUnlock f (fresh s) = if (hmac256 k (ascii "AQPOL" ++ natLe 1 role ++ n ++ padTo 16 (ob s.dev 0x003 0))).take 16 = mac then
      monAnswer f 0 [] (raise 0x9001 noInst role (unlockedFor role (nonceUsed s))) else monFail f role (nonceUsed s) := by
  obtain ⟨hob, hstate, hkey⟩ := nonceUsed_recounted s
  have hbyte : byteAt f.payload 0 = role := by
    rw [hp]
    exact Nat.mod_eq_of_lt (by omega)
  have hrest : fieldLe f.payload 1 3 = 0 := by rw [hp]; rfl
  have hmac : f.payload.drop 4 = mac := by rw [hp]; rfl
  have hlocked : (monHeard s).mon.lockout = false := hlock
  have hnonce : (monHeard s).mon.nonce = some n := hn
  rw [monUnlock, monServe_served h (by simp [hl]) (by simp), if_neg (by simp [hlocked])]
  change (if fieldLe f.payload 1 3 ≠ 0 then _ else if lcState (nonceUsed s) = 3 ∧ byteAt f.payload 0 ≠ 3 then _ else
    match (if byteAt f.payload 0 = 1 ∨ byteAt f.payload 0 = 3 then accessKey (nonceUsed s) (byteAt f.payload 0) else none), (monHeard s).mon.nonce with
    | some k, some n => _
    | _, _ => _) = _
  rw [hrest, if_neg (by decide), hbyte, hstate, if_neg (fun hno => hno.2 (hlc hno.1)), if_pos hrole, hkey, hk, hnonce]
  dsimp only
  rw [hmac, ← hob]
  rfl

/-- The right proof unlocks the monitor. -/
theorem monUnlock_unlocks {role : Nat} (hx : monUnlock f (fresh s) = monAnswer f 0 [] (raise 0x9001 noInst role (unlockedFor role (nonceUsed s)))) :
    Completes (.monUnlock f) s (fun e =>
      monSaid e f 0 [] ∧ e.mon.role = some role ∧ e.mon.fails = 0 ∧ e.mon.nonce = none ∧ raised e 0x9001 noInst = true ∧
        (on e 0x3401 0).testBit 0 = true ∧ Framed [.mon] [] s.dev e) := by
  refine act_completes (f := monUnlock f) rfl (fun e he => ?_)
  rw [hx] at he
  have hanswered := (monAnswer_follows ..).trans he
  have hall := (raise_follows ..).trans hanswered
  have hmon := monPublish_mon (modMon (fun m => { m with role := some role, fails := 0 }) (nonceUsed s))
  obtain ⟨hrole, hnonce, hfails, -, -⟩ := hall.monAfter
  refine ⟨monSaid_of_follows he, hrole.trans (congrArg MonS.role hmon :), hfails.trans (congrArg MonS.fails hmon),
    hnonce.trans (congrArg MonS.nonce hmon), hanswered.raised _ _ _ (raised_raise ..), ?_,
    (((nonceUsed_framed s).trans (modMon_framed (by simp) _ _)).trans (monPublish_framed _ _)).follow hall⟩
  rw [hall.on _ _ (by decide) (by decide)]
  exact on_monPublish_bits _

/-- A wrong proof is counted, the third in a row locks the monitor out. -/
def failCounted (role : Nat) (d : Dev) : Dev :=
  let x := raise 0x9201 noInst role (incr 32 0x3403 4 d)
  monPublish (modMon (fun m => { m with fails := d.mon.fails + 1, lockout := m.lockout || decide (3 ≤ d.mon.fails + 1) }) x)

theorem monUnlock_fails {role : Nat} (hx : monUnlock f (fresh s) = monFail f role (nonceUsed s)) :
    Completes (.monUnlock f) s (fun e =>
      monSaid e f 0x0104 [] ∧ e.mon.role = s.dev.mon.role ∧ e.mon.fails = s.dev.mon.fails + 1 ∧ (2 ≤ s.dev.mon.fails → e.mon.lockout = true) ∧
        e.mon.nonce = none ∧ raised e 0x9201 noInst = true ∧ Framed [.mon] [] s.dev e) := by
  have hfail : monFail f role (nonceUsed s) = monAnswer f aAuth [] (failCounted role (nonceUsed s)) := rfl
  refine act_completes (f := monUnlock f) rfl (fun e he => ?_)
  rw [hx, hfail] at he
  have hall := (monAnswer_follows ..).trans he
  have hmon := monPublish_mon (modMon (fun m => { m with
    fails := (nonceUsed s).mon.fails + 1, lockout := m.lockout || decide (3 ≤ (nonceUsed s).mon.fails + 1) })
      (raise 0x9201 noInst role (incr 32 0x3403 4 (nonceUsed s))))
  have hraised : raised (failCounted role (nonceUsed s)) 0x9201 noInst = true :=
    (raised_congr (monPublish_ev _) _ _ _).trans (raised_raise 0x9201 noInst role (incr 32 0x3403 4 (nonceUsed s)))
  obtain ⟨hrole, hnonce, hfails, hlock, -⟩ := hall.monAfter
  refine ⟨monSaid_of_follows he, hrole.trans (congrArg MonS.role hmon :), hfails.trans (congrArg MonS.fails hmon),
    fun h2 => hlock.trans ((congrArg MonS.lockout hmon).trans ?_), hnonce.trans (congrArg MonS.nonce hmon), hall.raised _ _ _ hraised, ?_⟩
  · have h3 : decide (3 ≤ (nonceUsed s).mon.fails + 1) = true := decide_eq_true (Nat.succ_le_succ h2)
    exact (congrArg (_ || ·) h3).trans (Bool.or_true _)
  · exact (((nonceUsed_framed s).trans (.raise (.put_counted (by decide) (by decide) (.refl _ _ _)))).trans
      ((modMon_framed (by simp) _ _).trans (monPublish_framed _ _))).follow hall

theorem monUnlock_lockedOut (h : MonFrame s.dev f 3) (hl : f.len = 20) (hlock : s.dev.mon.lockout = true) :
    Completes (.monUnlock f) s (fun e => monSaid e f 0x0202 [] ∧ Framed [] [] s.dev e) := by
  have hlocked : (monHeard s).mon.lockout = true := hlock
  refine mon_answers (x := monHeard s) rfl ?_ (monHeard_framed s _)
  rw [monUnlock, monServe_served h (by simp [hl]) (by simp), if_pos hlocked]
  rfl

/-- What a lock leaves. -/
theorem monRelock_done {x e : Dev} (hx : Framed [.mon] [] s.dev x) (hrole : x.mon.role = s.dev.mon.role) (he : Follows (monRelock x) e) :
    e.mon.role = none ∧ (s.dev.mon.role ≠ none → raised e 0x9002 noInst = true ∧ (on e 0x3401 0).testBit 0 = false) ∧
      Framed [.mon] [] s.dev e := by
  refine ⟨he.monAfter.role.trans (congrArg MonS.role (monRelock_mon x)), fun hne => ?_, (hx.trans (monRelock_framed x)).follow he⟩
  have hsome : x.mon.role.isSome = true := Option.isSome_iff_ne_none.2 (hrole ▸ hne)
  rw [monRelock_some hsome] at he
  refine ⟨he.raised _ _ _ (raised_raise ..), ?_⟩
  rw [((raise_follows ..).trans he).on _ _ (by decide) (by decide)]
  exact on_monPublish_bits _

theorem monLock_locks (h : MonFrame s.dev f 4) (hl : f.len = 0) : Completes (.monLock f) s (fun e =>
    monSaid e f 0 [] ∧ e.mon.role = none ∧ (s.dev.mon.role ≠ none → raised e 0x9002 noInst = true ∧ (on e 0x3401 0).testBit 0 = false) ∧
      Framed [.mon] [] s.dev e) := by
  have hx : monLock f (fresh s) = monAnswer f 0 [] (monRelock (monHeard s)) := by
    rw [monLock, monServe_served h (by simp [hl]) (by simp)]
  refine act_completes (f := monLock f) rfl (fun e he => ?_)
  rw [hx] at he
  exact ⟨monSaid_of_follows he, monRelock_done (monHeard_framed s _) rfl ((monAnswer_follows ..).trans he)⟩

theorem monIdleTimeout_locks (hr : running s.dev = true) (hs : s.dev.mon.role.isSome = true) : Completes .monIdleTimeout s (fun e =>
    e.mon.role = none ∧ raised e 0x9002 noInst = true ∧ Framed [.mon] [] s.dev e) := by
  refine act_completes (f := monIdleTimeout) rfl (fun e he => ?_)
  rw [monIdleTimeout, if_pos (show running (fresh s) = true from hr)] at he
  obtain ⟨hrole, hraised, hframe⟩ := monRelock_done (x := fresh s) (.of_fresh (.refl _ _ _)) rfl he
  exact ⟨hrole, (hraised (Option.isSome_iff_ne_none.1 hs)).1, hframe⟩

theorem lockoutEnd_ends (hr : running s.dev = true) (hl : s.dev.mon.lockout = true) : Completes .lockoutEnd s (fun e =>
    e.mon.lockout = false ∧ e.mon.fails = 0 ∧ e.mon.role = s.dev.mon.role ∧ Framed [.mon] [] s.dev e) := by
  have hx : lockoutEnd (fresh s) = monPublish (modMon (fun m => { m with lockout := false, fails := 0 }) (fresh s)) :=
    if_pos (by rw [show running (fresh s) = true from hr]; exact hl)
  refine act_completes (f := lockoutEnd) rfl (fun e he => ?_)
  rw [hx] at he
  have hmon := monPublish_mon (modMon (fun m => { m with lockout := false, fails := 0 }) (fresh s))
  obtain ⟨hrole, -, hfails, hlock, -⟩ := he.monAfter
  exact ⟨hlock.trans (congrArg MonS.lockout hmon), hfails.trans (congrArg MonS.fails hmon), hrole.trans (congrArg MonS.role hmon :),
    .of_fresh (((modMon_framed (by simp) _ _).trans (monPublish_framed _ _)).follow he)⟩

/-! ### The break (R542, R551) -/

/-- A write that waits is not answered. -/
def muted (q : QWrite) : QWrite := match q.reply with | .monitor _ => { q with reply := .none } | _ => q

/-- The break on the line. -/
def lineBroken (d : Dev) : Dev :=
  modMon (fun m => { m with baud := 115200, broke := true })
    (modPair (fun p => { p with queue := p.queue.map muted, sendingW := p.sendingW.map muted }) d)

theorem muted_reply (q : QWrite) (n : Nat) : (muted q).reply ≠ .monitor n := by
  unfold muted
  split
  case h_1 => exact Reply.noConfusion
  case h_2 h => exact h n

theorem monBreak_breaks (hr : running s.dev = true) : Completes .monBreak s (fun e =>
    e.mon.role = none ∧ e.mon.broke = true ∧ (on e 0x3401 0).testBit 5 = true ∧ e.pair.queue.length = s.dev.pair.queue.length ∧
      (∀ q ∈ e.pair.queue, ∀ n, q.reply ≠ .monitor n) ∧ Framed [.mon, .pair] [] s.dev e) := by
  have hx : monBreak (fresh s) = setStatus 0x3401 0 5 (monRelock (lineBroken (fresh s))) :=
    if_neg (by simp [show running (fresh s) = true from hr])
  have hbroken : Framed [.mon, .pair] [] (fresh s) (lineBroken (fresh s)) :=
    (Framed.pair (by simp) (.refl _ _ _) _).trans (modMon_framed (by simp) _ _)
  have hlocked := (monRelock_framed (lineBroken (fresh s))).1 .pair (by simp)
  refine act_completes (f := monBreak) rfl (fun e he => ?_)
  rw [hx] at he
  obtain ⟨hrole, -, -, -, hbroke⟩ := he.monAfter
  have hmon : (setStatus 0x3401 0 5 (monRelock (lineBroken (fresh s)))).mon = roleless (lineBroken (fresh s)).mon := monRelock_mon _
  have hqueue : e.pair.queue = s.dev.pair.queue.map muted := (congrArg PairS.queue (he.part .pair)).trans (congrArg PairS.queue hlocked)
  refine ⟨hrole.trans (congrArg MonS.role hmon :), hbroke.trans (congrArg MonS.broke hmon), ?_, ?_, ?_, ?_⟩
  · rw [he.on _ _ (by decide) (by decide), on_setStatus_same, testBit_setBit_same]
  · rw [hqueue, List.length_map]
  · rw [hqueue]
    intro q hq
    obtain ⟨p, -, rfl⟩ := List.mem_map.1 hq
    exact muted_reply p
  · exact .of_fresh ((((hbroken.trans ((monRelock_framed _).mono (by simp) (by simp))).trans
      (.put_counted (by decide) (by decide) (.refl _ _ _)))).follow he)

end

end Sys2Proof

/-! What the monitor answers once it is unlocked (R547, R548), and the frames that it discards (R543). -/

namespace Sys2Proof

open Machine

/-! ### Fields of a payload -/

theorem fieldLe_natLe_at {a r : Bytes} {k n v : Nat} (ha : a.length = k) (hv : v < 256 ^ n) : fieldLe (a ++ (natLe n v ++ r)) k n = v := by
  subst ha
  have h := fieldLe_natLe (n := n) r hv
  rw [Machine.fieldLe, slice, List.drop_zero] at h
  rw [Machine.fieldLe, slice, List.drop_left, h]

theorem byteAt_natLe_at {a r : Bytes} {k v : Nat} (ha : a.length = k) (hv : v < 256) : byteAt (a ++ (natLe 1 v ++ r)) k = v := by
  subst ha
  rw [byteAt, List.getD_eq_getElem?_getD, List.getElem?_append_right (le_refl _), Nat.sub_self]
  exact Nat.mod_eq_of_lt hv

/-! ### A value after the frame has been counted -/

/-- The value of a steady object follows from its type and what is in force (R110). -/
theorem readVal_congr {d e : Dev} {role num sub : Nat} (hn : steadyObj num = true) (hty : ∀ x, effTy e num sub x = effTy d num sub x)
    (hv : ov e num sub = ov d num sub) : (readVal role num sub e).1 = (readVal role num sub d).1 := by
  have hcur : ¬ (0x3328 ≤ num ∧ num < 0x3330) := by simp [steadyObj] at hn; omega
  have hev : num ≠ 0x100 ∧ num ≠ 0x101 ∧ num ≠ 0x102 ∧ num ≠ 0x103 ∧ num ≠ 0x104 := by simp [steadyObj] at hn; omega
  obtain ⟨h0, h1, h2, h3, h4⟩ := hev
  unfold readVal
  cases findObj num with
  | none => rfl
  | some ol =>
    obtain ⟨o, l⟩ := ol
    cases hs : findSub o sub with
    | none => simp only [hs]
    | some x =>
      simp only [hs, if_neg hcur, if_neg h0, if_neg h1, if_neg h2, if_neg h3, if_neg h4, hty, hv]
      split_ifs <;> rfl

/-- The objects but MON.STAT.01 read the same. -/
def SameValues (d e : Dev) : Prop := ∀ num sub, 256 * num + sub ≠ 0x340301 → ov e num sub = ov d num sub

namespace SameValues

variable {d e : Dev} (h : SameValues d e)

include h

theorem put (num sub n : Nat) : SameValues (Machine.put num sub n d) (Machine.put num sub n e) := fun m t hk => by
  by_cases heq : okey num sub = okey m t
  · simp [ov, Machine.put, putV, ← heq]
  · rw [ov_put_other _ _ _ _ _ _ heq, ov_put_other _ _ _ _ _ _ heq]
    exact h m t hk

theorem setStatus {num sub : Nat} (hk : 256 * num + sub ≠ 0x340301) (bit : Nat) :
    SameValues (Machine.setStatus num sub bit d) (Machine.setStatus num sub bit e) := by
  have hon : on e num sub = on d num sub := congrArg valNat (h num sub hk)
  rw [Machine.setStatus, Machine.setStatus, hon]
  exact h.put _ _ _

theorem guardLast (ht : e.time = d.time) (cls idx : Nat) : SameValues (Machine.guardLast cls idx d) (Machine.guardLast cls idx e) := by
  rw [Machine.guardLast, Machine.guardLast, ht]
  exact ((h.put _ _ _).put _ _ _).put _ _ _

theorem replaced (k : Nat) (v : Val) : SameValues (Sys2Proof.replaced k v d) (Sys2Proof.replaced k v e) := fun m t hk => by
  by_cases heq : k = okey m t
  · simp [ov, Sys2Proof.replaced, heq]
  · have hstay : ∀ x : Dev, ov (Sys2Proof.replaced k v x) m t = ov x m t := fun x => storeGet_storeSet_other _ _ _ _ heq
    rw [hstay, hstay]
    exact h m t hk

end SameValues

/-- The value that an object is restored to (R86). -/
def restoredValue (k : Nat) (d : Dev) : Val :=
  match storeFind d.os.prev k with
  | some v => v
  | none => if isPersistK k then (storeFind d.os.nor k).getD (dfltAt d k) else dfltAt d k

theorem restoreObj_replaced (num sub addr : Nat) (d : Dev) : restoreObj num sub addr d =
    setStatus 0x1C0 0 5 (guardLast 6 addr (replaced (okey num sub) (restoredValue (okey num sub) d) d)) := rfl

section

variable {s : State} {num sub : Nat}

theorem restoredValue_monHeard (hk : okey num sub ≠ okey 0x3403 1) :
    restoredValue (okey num sub) (monHeard s) = restoredValue (okey num sub) s.dev := by
  have hprev : storeFind (monHeard s).os.prev (okey num sub) = storeFind s.dev.os.prev (okey num sub) :=
    storeFind_storeIns_other _ _ _ _ hk.symm
  rw [restoredValue, hprev]
  rfl

/-- The word of an object is read as before the frame was counted. -/
theorem accessWord_monHeard (w : Option WordRead) (hk : okey num sub ≠ okey 0x3403 1) :
    SameValues (accessWord w num sub s.dev) (accessWord w num sub (monHeard s)) := by
  have hsame : SameValues s.dev (monHeard s) := (recounted_monHeard s).objs
  cases w with
  | none => exact hsame
  | some w =>
    by_cases hok : Machine.wordOk w = true
    · rw [accessWord, accessWord, wordRead, wordRead, if_pos hok, if_pos hok]
      exact hsame
    · rw [accessWord, accessWord, wordRead, wordRead, if_neg hok, if_neg hok, wordFault, wordFault]
      split
      · rw [restoreObj_replaced, restoreObj_replaced, restoredValue_monHeard hk]
        exact ((hsame.replaced _ _).guardLast rfl _ _).setStatus (by decide) _
      · exact hsame

theorem readVal_monHeard {role : Nat} (w : Option WordRead) (hn : steadyObj num = true) (hnum : num ≠ 0x3403) (hs : sub < 256) :
    (readVal role num sub (accessWord w num sub (monHeard s))).1 = (readVal role num sub (accessWord w num sub s.dev)).1 := by
  have hk : 256 * num + sub ≠ 0x340301 := by omega
  have hsame := accessWord_monHeard (s := s) (num := num) (sub := sub) w (by unfold okey; omega)
  have hob : ob (accessWord w num sub (monHeard s)) 0x3014 0 = ob (accessWord w num sub s.dev) 0x3014 0 :=
    congrArg valBytes (hsame _ _ (by decide))
  exact readVal_congr hn (fun x => by rw [effTy, hob, effTy]) (hsame _ _ hk)

end

/-! ### READ, WRITE, DESCRIBE (R547) -/

section

variable {s : State} {f : MonIn} {r : Nat}

/-- The monitor refuses what needs a role. -/
theorem mon_locked {c : Instr} {cmd : Nat} {lenOk : Nat → Bool} {k : Dev → Dev} (hc : exec c s = act (monServe cmd lenOk true k f) s)
    (hr : s.dev.mon.role = none) (h : MonFrame s.dev f cmd) (hl : lenOk f.len = true) :
    Completes c s (fun e => monSaid e f 0x0201 [] ∧ Framed [] [] s.dev e) :=
  mon_answers hc (monServe_locked h hl hr) (monHeard_framed s _)

section

variable {num sub : Nat} (hrole : s.dev.mon.role = some r)

include hrole

theorem monHeard_role : (monHeard s).mon.role.getD 0 = r := by
  change s.dev.mon.role.getD 0 = r
  rw [hrole]
  rfl

theorem monRead_reads {off n : Nat} (h : MonFrame s.dev f 0x10) (hl : f.len = 12)
    (hp : f.payload = natLe 3 num ++ natLe 1 sub ++ natLe 4 off ++ natLe 2 n ++ [0, 0]) (hnum : num < 2 ^ 24) (hsub : sub < 256)
    (hoff : off < 2 ^ 32) (h1 : 1 ≤ n) (hn : n ≤ 1024) (hr : readCheck s.dev r num sub = 0) (hst : steadyObj num = true) (hne : num ≠ 0x3403) :
    Completes (.monRead f) s (fun e => monSaid e f 0 (slice (readVal r num sub (accessWord f.word num sub s.dev)).1 off n) ∧
      (f.word = none → Framed [] [] s.dev e)) := by
  have hfnum : fieldLe f.payload 0 3 = num := by
    rw [hp, List.append_assoc, List.append_assoc, List.append_assoc]
    exact fieldLe_natLe _ hnum
  have hfsub : byteAt f.payload 3 = sub := by
    rw [hp, List.append_assoc, List.append_assoc, List.append_assoc]
    exact byteAt_natLe_at (length_natLe _ _) hsub
  have hfoff : fieldLe f.payload 4 4 = off := by
    rw [hp, List.append_assoc, List.append_assoc]
    exact fieldLe_natLe_at (by simp [length_natLe]) hoff
  have hfn : fieldLe f.payload 8 2 = n := by
    rw [hp, List.append_assoc]
    exact fieldLe_natLe_at (by simp [length_natLe]) (by omega)
  have hfz : fieldLe f.payload 10 2 = 0 := by rw [hp]; rfl
  have hx : monRead f (fresh s) =
      monAnswer f 0 (slice (readVal r num sub (accessWord f.word num sub s.dev)).1 off n) (accessWord f.word num sub (monHeard s)) := by
    rw [monRead, monServe_served h (by simp [hl]) (by simp [hrole])]
    dsimp only
    rw [hfnum, hfsub, hfoff, hfn, hfz, if_neg (by omega), monHeard_role hrole, (recounted_monHeard s).readCheck, hr, if_neg (by decide),
      readVal_monHeard _ hst hne hsub, readVal_snd hst]
  refine act_completes (f := monRead f) rfl (fun e he => ?_)
  rw [hx] at he
  refine ⟨monSaid_of_follows he, fun hw => ?_⟩
  rw [hw] at he
  exact (monHeard_framed s _).follow ((monAnswer_follows ..).trans he)

theorem monWrite_waits {v : Bytes} {w : Pend} (h : MonFrame s.dev f 0x11) (hl : f.len = 4 + v.length) (hp : f.payload = natLe 3 num ++ natLe 1 sub ++ v)
    (hnum : num < 2 ^ 24) (hsub : sub < 256) (hv : v.length ≤ 1000) (hone : s.dev.pair.role = .single) (ho : objCode s.dev num sub = 0)
    (hdom : isDomain s.dev num sub = false) (hne : num ≠ 0x011) (hw : writeCheck s.dev r num sub v = (0, w)) (hlev : w.level ≠ 0)
    (hcmd : w.cmd = false) : Completes (.monWrite f) s (fun e =>
      monSaid e f 0 [] ∧ e.os.pend = s.dev.os.pend.filter (fun q => q.cmd || q.num != w.num || q.sub != w.sub) ++ [w] ∧
        OnlyParts [] s.dev e ∧ SameObjects [] s.dev e) := by
  have hc := recounted_monHeard s
  have hfnum : fieldLe f.payload 0 3 = num := by
    rw [hp, List.append_assoc]
    exact fieldLe_natLe _ hnum
  have hfsub : byteAt f.payload 3 = sub := by
    rw [hp, List.append_assoc]
    exact byteAt_natLe_at (length_natLe _ _) hsub
  have hfv : f.payload.drop 4 = v := by rw [hp]; rfl
  have hcheck : writeCheck (monHeard s) r num sub v = (0, w) := (hc.writeCheck (by rw [hw]) (by rw [hw]; exact hcmd)).trans hw
  have hnames : w.num = num := by
    have hown := (writeCheck_names (by rw [hw])).1
    rwa [hw] at hown
  have hsingle : (monHeard s).pair.role = .single := hone
  have hx : monWrite f (fresh s) = monAnswer f 0 [] (enterWrite w (monHeard s)) := by
    rw [monWrite, monServe_served h (by simp [hl]) (by simp [hrole])]
    dsimp only
    rw [hfnum, hfsub, hfv, monHeard_role hrole, if_neg (by simp [refusesWrite, hsingle]), hc.objCode, ho, if_neg (by decide), hc.isDomain, hdom,
      if_neg (by simp; omega), hcheck, if_neg (fun hno => hno rfl), acceptWrite, if_neg (by simp [viaPartner, hsingle]), replyTo]
    dsimp only
    rw [if_neg (by rw [hnames]; exact hne), monWriteDone, monAnswer, h.2.2.1]
    rfl
  refine act_completes (f := monWrite f) rfl (fun e he => ?_)
  rw [hx] at he
  have hall := (monAnswer_follows ..).trans he
  obtain ⟨hparts, hobjs⟩ := enterWrite_framed (d := monHeard s) hlev
  have hheard := monHeard_framed s []
  refine ⟨monSaid_of_follows he, ?_, (hheard.1.trans hparts).trans hall.parts,
    (hheard.2.1.trans hobjs).trans (Framed.follow (ps := []) (.refl _ _ _) hall).2.1⟩
  rw [hall.pend, enterWrite_waits hlev]
  simp only [hcmd, Bool.false_eq_true, if_false]
  exact congrArg (fun l => List.filter _ l ++ [w]) hheard.2.2

theorem monDescribe_describes {o : ObjD} {k : Loc} {b : SubD} (h : MonFrame s.dev f 0x12) (hl : f.len = 4)
    (hp : f.payload = natLe 3 num ++ natLe 1 sub) (hnum : num < 2 ^ 24) (hsub : sub < 256) (ho : objCode s.dev num sub = 0)
    (hrow : findObj num = some (o, k)) (hs : findSub o sub = some b) : Completes (.monDescribe f) s (fun e =>
      monSaid e f 0 (effDescriptor s.dev num sub o b) ∧ Framed [] [] s.dev e) := by
  have hc := recounted_monHeard s
  have hfnum : fieldLe f.payload 0 3 = num := by
    rw [hp]
    exact fieldLe_natLe _ hnum
  have hfsub : byteAt f.payload 3 = sub := by
    rw [hp, ← List.append_nil (natLe 1 sub)]
    exact byteAt_natLe_at (length_natLe _ _) hsub
  refine mon_answers (x := monHeard s) rfl ?_ (monHeard_framed s _)
  rw [monDescribe, monServe_served h (by simp [hl]) (by simp [hrole])]
  dsimp only
  rw [hfnum, hfsub, hc.objCode, ho, if_neg (by decide), hrow]
  dsimp only
  rw [hs]
  dsimp only
  rw [hc.effDescriptor]

/-! ### TRACE and MEM_READ (R547, R548) -/

theorem monMemRead_reads {a n : Nat} (h3 : r = 3) (hlc : lcState s.dev = 0 ∨ lcState s.dev = 5) (h : MonFrame s.dev f 0x30) (hl : f.len = 8)
    (hp : f.payload = natLe 4 a ++ natLe 2 n ++ [0, 0]) (h1 : 1 ≤ n) (hn : n ≤ 1024) (ha : a + n ≤ 0x3000000) :
    Completes (.monMemRead f) s (fun e =>
      monSaid e f 0 ((List.range n).map (fun i => memRead s.mem (a + i))) ∧ Framed [] [] s.dev e) := by
  have hfa : fieldLe f.payload 0 4 = a := by
    rw [hp, List.append_assoc]
    exact fieldLe_natLe _ (by omega)
  have hfn : fieldLe f.payload 4 2 = n := by
    rw [hp, List.append_assoc]
    exact fieldLe_natLe_at (length_natLe _ _) (by omega)
  have hfz : fieldLe f.payload 6 2 = 0 := by rw [hp]; rfl
  have hstate : lcState (monHeard s) = lcState s.dev := (recounted_monHeard s).on (by decide)
  have hvendor : (monHeard s).mon.role = some 3 := hrole.trans (congrArg some h3)
  refine mon_answers (g := monMemRead s.mem f) (x := monHeard s) rfl ?_ (monHeard_framed s _)
  rw [monMemRead, monServe_served h (by simp [hl]) (by simp [hrole])]
  dsimp only
  rw [hfa, hfn, hfz, if_neg (fun hno => hno hvendor), hstate, if_neg (by omega), if_neg (by omega)]
  rfl

end

/-! ### Where no event waits to be told -/

/-- What follows a command that raises no event moves no object. -/
theorem on_settle_quiet {d : Dev} (h : d.ev.fresh = []) (num sub : Nat) : on (settle d) num sub = on d num sub := by
  have hrate : ∀ x : Dev, (monRate x).os = x.os ∧ (monRate x).ev = x.ev := fun x => by
    unfold monRate
    split <;> exact ⟨rfl, rfl⟩
  unfold settle
  dsimp only
  split
  · rw [(hrate d).2, h]
    exact congrArg (fun os => valNat (storeGet os.cur (okey num sub))) (hrate d).1
  · rfl

/-- A command as the settled device shows it. -/
theorem act_settles {c : Instr} {g : Dev → Dev} {P : Dev → Prop} (hc : exec c s = act g s) (hP : P (settle (g (fresh s)))) : Completes c s P :=
  ⟨_, hc, rfl, rfl, hP⟩

theorem monTrace_sets {m : Nat} (hrole : s.dev.mon.role = some r) (h : MonFrame s.dev f 0x20) (hl : f.len = 4) (hp : f.payload = natLe 4 m)
    (hm : m < 16) (hring : m = 0 ∨ ringSize s.dev 15 ≠ 0) (hq : s.dev.ev.fresh = []) : Completes (.monTrace f) s (fun e =>
      monSaid e f 0 [] ∧ on e 0x3402 1 = m ∧ Framed [] [] s.dev e) := by
  have hfm : fieldLe f.payload 0 4 = m := by
    rw [hp, ← List.append_nil (natLe 4 m)]
    exact fieldLe_natLe _ (by omega)
  have hsize : ringSize (monHeard s) 15 = ringSize s.dev 15 := (recounted_monHeard s).on (by decide)
  have hx : monTrace f (fresh s) = monAnswer f 0 [] (monPublish (put 0x3402 1 m (monHeard s))) := by
    rw [monTrace, monServe_served h (by simp [hl]) (by simp [hrole])]
    dsimp only
    rw [hfm, if_neg (by omega), hsize, if_neg (by tauto)]
  have hquiet : (monAnswer f 0 [] (monPublish (put 0x3402 1 m (monHeard s)))).ev.fresh = [] :=
    (congrArg (fun v => v.fresh) (monPublish_ev (put 0x3402 1 m (monHeard s)))).trans hq
  have hframe : Framed [] [] s.dev (monPublish (put 0x3402 1 m (monHeard s))) :=
    ((monHeard_framed s _).trans (.put_counted (by decide) (by decide) (.refl _ _ _))).trans (monPublish_framed _ _)
  refine act_settles (g := monTrace f) rfl ?_
  rw [hx]
  refine ⟨monSaid_of_follows (settle_follows _), ?_, hframe.follow ((monAnswer_follows ..).trans (settle_follows _))⟩
  rw [on_settle_quiet hquiet]
  exact ((on_put_other (monPublish (put 0x3402 1 m (monHeard s))) _ _ _ _ _ (by decide)).trans (on_monPublish_other (by decide) _)).trans
    (on_put_same _ _ _ _)

/-- A frame that is discarded is only counted. -/
theorem mon_discards {c : Instr} {g : Dev → Dev} (hc : exec c s = act g s) (hx : g (fresh s) = incr 32 0x3403 3 (fresh s))
    (hq : s.dev.ev.fresh = []) : Completes c s (fun e =>
      on e 0x3403 3 = incSat 32 (on s.dev 0x3403 3) ∧ on e 0x3403 1 = on s.dev 0x3403 1 ∧ Framed [] [] s.dev e) := by
  have hquiet : (incr 32 0x3403 3 (fresh s)).ev.fresh = [] := hq
  refine act_settles hc ?_
  rw [hx]
  refine ⟨(on_settle_quiet hquiet _ _).trans (on_put_same _ _ _ _),
    (on_settle_quiet hquiet _ _).trans (on_put_other _ _ _ _ _ _ (by decide)), ?_⟩
  exact .of_fresh ((Framed.put_counted (by decide) (by decide) (.refl _ _ _)).follow (settle_follows _))

end

/-- Settles O57: a sound frame is counted before anything else, so the checks of an access find a device `Recounted`, and everything
that the monitor answers goes by `monServe_served`. -/
theorem monitorAnswers : Obligations.MonitorAnswers := by
  unfold Obligations.MonitorAnswers
  intro s f
  refine ⟨fun h hl => monPing_says h hl, fun h hl => monChallenge_says h hl, ?_, fun h hl hlock => monUnlock_lockedOut h hl hlock,
    fun h hl => monLock_locks h hl, fun h hl => monStatus_says h hl, ?_, fun r hrole => ⟨?_, ?_, ?_, ?_, ?_, ?_⟩,
    fun hr => monBreak_breaks hr, fun hr hl => lockoutEnd_ends hr hl, fun hr hq => ⟨?_, fun hbad => ?_⟩⟩
  · intro role k n mac h hl hlock hp _ hrole hlc hk hn
    have hx := monUnlock_attempt h hl hlock hp hrole hlc hk hn
    exact ⟨fun hmac => monUnlock_unlocks (hx.trans (if_pos hmac.symm)), fun hmac => monUnlock_fails (hx.trans (if_neg (Ne.symm hmac)))⟩
  · intro c n g hr h hmem hl h4
    simp only [List.mem_cons, List.not_mem_nil, or_false, Prod.mk.injEq] at hmem
    rcases hmem with ⟨rfl, rfl, rfl⟩ | ⟨rfl, rfl, rfl⟩ | ⟨rfl, rfl, rfl⟩ | ⟨rfl, rfl, rfl⟩ | ⟨rfl, rfl, rfl⟩
    · exact mon_locked rfl hr h (beq_iff_eq.2 hl)
    · exact mon_locked rfl hr h (decide_eq_true h4)
    · exact mon_locked rfl hr h (beq_iff_eq.2 hl)
    · exact mon_locked rfl hr h (beq_iff_eq.2 hl)
    · exact mon_locked rfl hr h (beq_iff_eq.2 hl)
  · exact fun num sub off n => monRead_reads hrole
  · exact fun num sub v w => monWrite_waits hrole
  · exact fun num sub o k b => monDescribe_describes hrole
  · exact fun m h hl hp hm hring hq => monTrace_sets hrole h hl hp hm hring hq
  · exact fun a n h3 hlc h hl hp h1 hn ha => monMemRead_reads hrole h3 hlc h hl hp h1 hn ha
  · exact fun hr => monIdleTimeout_locks hr (by rw [hrole]; rfl)
  · obtain ⟨t, he, hp, hm, hcount, -, hframe⟩ := mon_discards (s := s) (c := .monFrameGapTimeout) rfl (if_pos hr) hq
    exact ⟨t, he, hp, hm, hcount, hframe⟩
  · exact mon_discards rfl ((if_neg (by simp [show running (fresh s) = true from hr])).trans (if_pos hbad)) hq

end Sys2Proof
